-- ==== Sys2Proof/Word.lean ====
section
/-! DEFINITION. Word.lean: the widths of the GB960-PSC-M's data and the one shape of sparse table the model keeps its
numbered objects and its memories in (spec 00 R7: little-endian, bit 0 the least significant). -/
namespace Sys2Proof

/-- One byte. -/
abbrev Byte := BitVec 8
/-- 16 bits. -/
abbrev Half := BitVec 16
/-- A 32-bit register word. -/
abbrev Word := BitVec 32
/-- A 64-bit value (a register pair, a cycle number, a sequence number). -/
abbrev DWord := BitVec 64

/-- A sparse table: pairs of a number and a value, in canonical form (keys strictly rising, no entry equal to what an
unlisted key reads as). What an unlisted key reads as is given where the table is read. -/
abbrev Tbl (α : Type) := List (Nat × α)

end Sys2Proof
end

