-- ==== Sys2Proof/Machine/Objects.lean ====
section
/-! DEFINITION. Machine/Objects.lean: the objects that reach the module from outside, as data: the configuration (16 R443),
the control program with its billets and its proof (03 R69, R86), the exchange package (05 R142), the safety configuration
(10 R301) and the firmware (17 R462). The spec gives their content and not their byte layout, so a command that completes
the writing of one carries it in this form (log 17). A key is named by a number; `signer` is the key whose Ed25519
signature over the object's SHA-256 hash verifies, if any does. -/
namespace Sys2Proof

/-- A switch input of an axis (11 R335). -/
inductive AxSwitch where
  | limn | limp | home
deriving DecidableEq, Repr

/-- A move entry of an axis command record (11 *Move entry*). -/
structure MoveEntry where
  target   : Int
  v        : Nat
  a        : Nat
  d        : Nat
  j        : Nat
  blend    : Bool
  relative : Bool
deriving DecidableEq, Repr

/-- The operands of HOME in an axis command record (11 *Axis command record*). -/
structure HomeCmd where
  offset : Int
  vel    : Nat
  acc    : Nat
  dec    : Nat
  dir    : Bool
  mode   : Nat
deriving DecidableEq, Repr

end Sys2Proof

namespace Sys2Proof.Machine

/-- The rights of a maintenance session (15 R441). -/
structure Rights where
  read    : Bool := false
  write   : Bool := false
  command : Bool := false
deriving DecidableEq, Repr

/-- One entry of a snapshot list (13 R379). -/
inductive SnapEntry where
  | reg (off : Nat)
  | var (task word : Nat)
deriving DecidableEq, Repr

/-- The kind of a trigger definition (13 R379). -/
inductive TrigKind where
  | none | event (block bit : Nat) | rise (task word bit : Nat) | fall (task word bit : Nat)
  | change (task word : Nat) | host
deriving DecidableEq, Repr

/-- A trigger definition of the active configuration with its snapshot list (13 R379). -/
structure TrigDef where
  valid   : Bool := false
  kind    : TrigKind := .none
  holdoff : Nat := 0
  snaps   : List SnapEntry := []
deriving DecidableEq, Repr

/-- A safety function entry by its 32-bit words (10 R301); word 7 is reserved. -/
structure FnEntry where
  w0 : Word := 0#32
  w1 : Word := 0#32
  w2 : Word := 0#32
  w3 : Word := 0#32
  w4 : Word := 0#32
  w5 : Word := 0#32
  w6 : Word := 0#32
  w7 : Word := 0#32
deriving DecidableEq, Repr

/-- One SO of the lane H parameter table (10 R292). -/
structure LaneHSo where
  masks  : Word := 0#32
  delayH : Nat := 0
  used   : Bool := false
deriving DecidableEq, Repr

/-- The lane H parameter table (10 R292). -/
structure LaneHTable where
  format : Half := 0#16
  id     : DWord := 0#64
  seq    : DWord := 0#64
  pairs  : Tbl Word := []
  so     : Tbl LaneHSo := []
deriving DecidableEq, Repr

/-- The configuration words of an axis. -/
structure AxCfg where
  config   : Word := 0x800A1400#32
  current  : Word := 0x03E801F4#32
  quiet    : Word := 0x03E80064#32
  stall    : Word := 0x00C85A04#32
  eDecel   : Word := 0x00009C40#32
  junction : Word := 0x000001F4#32
  softMin  : DWord := 0#64
  softMax  : DWord := 0#64
deriving DecidableEq, Repr

/-- The waveform table (12 R358), as parsed: `frames` lists the 64-byte frame arrays of waveform w in band b under the key
12 × w + b. -/
structure WaveTable where
  waveforms : Nat := 0
  initWf    : Nat := 0
  bounds    : List Int := []
  frames    : Tbl (List (List Byte)) := []
deriving DecidableEq, Repr

/-- The configuration of the panel. -/
structure PnlCfg where
  config   : Word := 0#32
  geometry : Word := 0#32
  line     : Word := 0#32
  rate     : Word := 0x00003C3C#32
  vcom     : Word := 0#32
  wave     : WaveTable := {}
deriving DecidableEq, Repr

/-- The parameters of a task (02 R28-R32): the words of CYC_TASKn_CFG, _PERIOD and _PHASE and its firing angles. -/
structure TaskCfg where
  cfg     : Word := 0#32
  period  : Word := 0#32
  phase   : Word := 0#32
  firings : List Word := []
deriving DecidableEq, Repr

/-- What an integrator may bound of a task (03 R89, R90, R95); a budget of 0 is none. -/
structure TaskLimits where
  budget   : Nat := 0
  quota    : Nat := 16
  ovrLimit : Nat := 3
  stop     : Bool := false       -- the policy is STOP
deriving DecidableEq, Repr

/-- An enrolled RX unit: its serial number and its key. -/
structure RxKey where
  serial : DWord := 0#64
  key    : Nat := 0
deriving DecidableEq, Repr

/-- The key section of a configuration (17 *Keys*), as this module unwraps it. (DESIGN CHOICE, log 72) -/
structure KeySection where
  imageKeys : List Nat := []
  maintKeys : List (Nat × Rights) := []
  pairKey   : Option Nat := none        -- none: no wrap to this module's device key
  units     : Tbl RxKey := []           -- by RX position 1 to 6
deriving DecidableEq, Repr

/-- The settings of a field cell: DIO_FCc_CONFIG and the three band words. -/
structure CellCfg where
  cfg   : Word := 0x0005000A#32
  band0 : Word := 0x0258015E#32
  band1 : Word := 0x08980640#32
  band2 : Word := 0x1F401770#32
deriving DecidableEq, Repr

/-- The settings of an angle clock: TIME_ACn_CFG and TIME_ACn_ZCFG. -/
structure ClockCfg where
  cfg  : Word := 0#32
  zcfg : Word := 0x0002000A#32
deriving DecidableEq, Repr

/-- A configuration (16 R443). (DESIGN CHOICE, log 17) -/
structure StationCfg where
  hash      : Nat := 0
  signer    : Option Nat := none
  keys      : KeySection := {}
  keyChange : Option Nat := none        -- the image key that signed the key change record (17 R470)
  cyc       : Word := 0x00000A00#32     -- CYC_CONFIG
  tasks     : Tbl TaskCfg := []
  limits    : Tbl TaskLimits := []
  twinWait  : Nat := 20
  timeCfg   : Word := 0x0000010A#32
  clocks    : Tbl ClockCfg := []
  sipCap    : Tbl Nat := []
  pairCfg   : Word := 0#32
  ptpCfg    : Word := 0x0000FD00#32
  macs      : Tbl Nat := []
  ips       : Tbl Word := []
  ctxs      : Tbl (List Byte) := []
  dio       : Tbl Word := []
  cells     : Tbl CellCfg := []
  aio       : Tbl Word := []
  shafts    : Tbl Word := []
  calCfg    : Word := 0x8000000A#32
  ax        : Tbl AxCfg := []
  pnl       : PnlCfg := {}
  trigs     : Tbl TrigDef := []
  quotas    : Tbl Nat := []             -- recorder quotas that differ from the default, plus one
deriving DecidableEq, Repr

/-- A range of bytes. -/
structure Span where
  off : Nat := 0
  len : Nat := 0
deriving DecidableEq, Repr

/-- When a billet may be released (03 R69). -/
inductive RelPoint where
  | t0 | input | rick
deriving DecidableEq, Repr

/-- What a range of a read set lies in (03 R69). -/
inductive MemSpace where
  | input | published (task : Nat) | const | draft
deriving DecidableEq, Repr

/-- The width of a floating-point operation (03 R97). -/
inductive FWidth where
  | single | double
deriving DecidableEq, Repr

/-- The arithmetic of billets (03 R97); a number gives the width of the integers in bytes, a Bool whether they are signed. -/
inductive Arith where
  | add (n : Nat) | sub (n : Nat) | mul (n : Nat)
  | quot (signed : Bool) (n : Nat) | rem (signed : Bool) (n : Nat)
  | and | or | xor
  | shl (n : Nat) | shr (signed : Bool) (n : Nat)
  | eq | lt (signed : Bool) (n : Nat)
  | fadd (w : FWidth) | fsub (w : FWidth) | fmul (w : FWidth) | fdiv (w : FWidth)
  | flt (w : FWidth) | feq (w : FWidth)
  | toInt (w : FWidth) (signed : Bool) (n : Nat)
  | ofInt (signed : Bool) (n : Nat) (w : FWidth)
  | cvt (source dest : FWidth)
deriving DecidableEq, Repr

/-- An instruction of a billet: a literal, an operation, a read of a loaded range, a write into the write buffer, the
system variables, a jump forwards over a number of instructions, and what an engine cannot run. (DESIGN CHOICE, log 19) -/
inductive BOp where
  | lit (dst : Nat) (v : DWord)
  | arith (op : Arith) (dst a b : Nat)
  | load (dst : Nat) (space : MemSpace) (off len : Nat)
  | store (off len src : Nat)
  | deltaT (dst : Nat)
  | csw (dst : Nat)
  | skipIf (src count : Nat)
  | bad
deriving DecidableEq, Repr

/-- A billet declaration (03 R69) with its code. -/
structure Billet where
  num     : Nat := 0
  home    : Nat := 0
  wcet    : Nat := 0                       -- µs
  codeOff : Nat := 0
  codeLen : Nat := 0
  ops     : List BOp := []                 -- the code, as fabric SRAM holds it
  reads   : List (MemSpace × Span) := []
  writes  : List Span := []
  preds   : List (Nat × Nat) := []         -- task and number
  release : RelPoint := .t0
deriving DecidableEq, Repr

/-- A member of an input set (02 R33). -/
inductive InKind where
  | dio (n : Nat) | aio (n : Nat) | gs (g : Nat) | sh (n : Nat) | sip (p : Nat) | fb (n : Nat) | so (n : Nat)
  | fn (f : Nat) | brake (f : Nat) | cap (ch : Nat) | time | clock (c : Nat) | slot (i : Nat) | axis (a : Nat)
  | stream (c : Nat) | rx (u ch : Nat) | area (n : Nat) | pub (task : Nat) (sp : Span)
deriving DecidableEq, Repr

/-- An output of a task (02 R39). -/
inductive OutKind where
  | dio (n : Nat) | aio (n : Nat) | so (n : Nat) | brake (f : Nat) | axis (a : Nat) | slot (i : Nat) | stream (c : Nat)
  | rx (u ch : Nat) | pub
deriving DecidableEq, Repr

/-- An output and its place in the task's image. -/
structure OutMember where
  kind : OutKind
  sp   : Span
deriving DecidableEq, Repr

/-- A task of a program. `outputs` lie in ascending address order (04 R117). -/
structure TaskProg where
  size    : Nat := 0
  init    : Tbl Byte := []
  inputs  : List InKind := []
  outputs : List OutMember := []
  billets : List Billet := []
deriving DecidableEq, Repr

/-- A host exchange area or a host read area (14 R406 ff.). -/
structure AreaDef where
  task : Nat := 0
  len  : Nat := 0
  read : Bool := false
  off  : Nat := 0            -- place of a read area in the image
  init : List Byte := []     -- initial values of an exchange area
deriving DecidableEq, Repr

/-- The reserve-of-two proof of an image (03 R86). -/
structure Proof where
  format   : Nat := 0
  engines  : Nat := 0
  mhz      : Nat := 0
  depth    : Nat := 0
  lost     : Nat := 0
  reruns   : Nat := 0
  response : Tbl Nat := []     -- worst-case response time of each task from T0 to Tc, in µs
  use      : Tbl Nat := []     -- worst-case engine use of each task, in engine-µs per cycle
  periods  : Tbl Nat := []     -- shortest period or fallback period of each task, in station ticks
  spacing  : Tbl Nat := []     -- T0 spacing assumed for each angle-locked task, in µs
  deadline : Nat := 0          -- rick input deadline assumed, in 10 µs
deriving DecidableEq, Repr

/-- What an angle-event slot of a program may hold (06 R181): ACTION, TARGET, EVERY_TURN and DIRECTION. -/
structure SlotDecl where
  action : Nat := 0
  target : Nat := 0
  every  : Bool := false
  dir    : Nat := 0
deriving DecidableEq, Repr

/-- A control program (03). -/
structure Program where
  hash   : List Byte := []
  signer : Option Nat := none
  tasks  : Tbl TaskProg := []
  areas  : Tbl AreaDef := []
  code   : Nat := 0              -- bytes of code and constants
  consts : Tbl Byte := []        -- the constants, as fabric SRAM holds them
  slots  : List SlotDecl := []   -- what the program's angle-event slots may hold (06 R182, 07 R203, 10 R319)
  proof  : Option Proof := none
deriving DecidableEq, Repr

/-- The type of a carried variable. -/
inductive VType where
  | int (signed : Bool) (bytes : Nat)
  | real (bytes : Nat)
  | raw
deriving DecidableEq, Repr

/-- A rule of *Conversion rules* (05 R156), or a copy bit for bit. `resize` gives the bytes of an element, the indices of
the first elements and the counts of the source and the destination. -/
inductive CarryRule where
  | copy | widen | narrow | intToReal | realToInt
  | linear (a b : DWord)
  | resize (elem : Nat) (srcLo : Int) (srcN : Nat) (dstLo : Int) (dstN : Nat)
  | remap (l : List (Nat × Nat))
  | initial
deriving DecidableEq, Repr

/-- One element of a carry map; an element of the same type needs no rule. -/
structure CarryItem where
  srcTask : Nat := 0
  src     : Span := {}
  srcTy   : VType := .raw
  dstTask : Nat := 0
  dst     : Span := {}
  dstTy   : VType := .raw
  rule    : Option CarryRule := some .copy
deriving DecidableEq, Repr

/-- A carry map (05 R142, R156). -/
structure CarryMap where
  items   : List CarryItem := []
  removed : List (Nat × Nat × Bool) := []   -- instances and variables removed: their task, a number, and whether it is an instance
  added   : List Nat := []           -- the task of each instance and variable added
deriving DecidableEq, Repr

/-- An exchange package (05 R142). (DESIGN CHOICE, log 17) -/
structure Package where
  prog    : Program := {}
  base    : List Byte := []
  carry   : CarryMap := {}
  proof   : Option (List Nat) := none     -- the tasks that the carry proof covers
  cfg     : Option StationCfg := none
  reverse : Option CarryMap := none
deriving DecidableEq, Repr

/-- A safety configuration (10 R301). -/
structure SafetyObj where
  signer : Option Nat := none
  seq    : Nat := 0
  pairs  : Tbl Word := []
  fns    : Tbl FnEntry := []
  laneH  : LaneHTable := {}
  so     : Tbl Word := []      -- the words of SAFE_SOn_CONFIG (10 *SAFE register block*)
deriving DecidableEq, Repr

/-- A firmware object (17 R462); `ok` says that it verifies against the Lerbahel firmware key. -/
structure FirmObj where
  line    : Nat := 4
  release : Word := 0x04000000#32
  ok      : Bool := false
deriving DecidableEq, Repr

/-- The object that a finished IMAGE_WRITE spells. (DESIGN CHOICE, log 17) -/
inductive ImageObj where
  | config (c : StationCfg)
  | safety (o : SafetyObj)
  | firmware (f : FirmObj)
  | none
deriving DecidableEq, Repr

/-- The program modes (02 R50). -/
inductive ProgMode where
  | stop | run | hold
deriving DecidableEq, Repr

/-- A member of an input image: its quality (0 GOOD, 1 UNCERTAIN, 2 BAD, 02 R44) and its bytes. -/
structure InVal where
  q     : Nat := 2
  bytes : List Byte := []
deriving DecidableEq, Repr

/-- What a rick unit delivered for a T0 of a task (02 R58). -/
structure RxSamples where
  task : Nat := 0
  t0   : Nat := 0
  vals : List (Nat × InVal) := []
deriving DecidableEq, Repr

/-- From when a change applies to a task: the first T0 after a station tick (02 R51, R63), or the T0 that starts a cycle
(02 R50, 03 R92). (DESIGN CHOICE, log 31) -/
inductive Effect where
  | tick (n : Nat)
  | cycle (k : DWord)
deriving DecidableEq, Repr

/-- The regions of 01 R22, by their codes in TWIN_LAST_TAKE; `mismatch` is the failed self-test of the LEAD. -/
inductive Region where
  | net | pnl | ax | twin | sv | mismatch
deriving DecidableEq, Repr

/-- The areas of the recorder partition that a MEM_FAULT names (13 R373). -/
inductive RecArea where
  | peat | ember | index | bookkeeping
deriving DecidableEq, Repr

end Sys2Proof.Machine
end

