-- ==== Sys2Proof/Machine/StAx.lean ====
section
/-! DEFINITION. Machine/StAx.lean: the state of the four axes (11 R324-R349). Positions are in units of 1/256 full step;
the generator's own position `x` is in 10⁻¹² units and its velocity `v` in 10⁻⁶ units/s (log 10). -/
namespace Sys2Proof.Machine

/-- The state of an axis (11 R340). -/
inductive AxState where
  | disabled | idle | moving | homing | stopping | faulted
deriving DecidableEq, Repr

/-- A move in the queue, with its target resolved. -/
structure AxMove where
  target : Int
  v      : Nat
  a      : Nat
  d      : Nat
  j      : Nat
  blend  : Bool
deriving DecidableEq, Repr

/-- What the generator is doing. -/
inductive AxMotion where
  | still
  | moves                        -- the head of the queue
  | run (vel : Int) (acc : Nat)  -- VELOCITY or a homing search, vel in units/s
  | stop (dec : Nat)
deriving DecidableEq, Repr

/-- The phase of a homing (11 R339). -/
inductive HomePhase where
  | back | backStop | search | reverse | finish
deriving DecidableEq, Repr

/-- A homing in progress. -/
structure Homing where
  cmd    : HomeCmd
  pos    : Bool                -- the present search direction is positive
  phase  : HomePhase := .search
  ref    : Option Int := none  -- position of the reference point
  blocks : Nat := 0            -- blocking edges so far
deriving DecidableEq, Repr

/-- An axis. -/
structure Axis where
  state        : AxState := .disabled
  homed        : Bool := false
  unverified   : Bool := true
  strong       : Bool := false
  bridge       : Bool := false           -- the bridges are on (they drive while the gate of R108 is open)
  hold         : Bool := false           -- the coils carry HOLD_CURRENT
  offLeft      : Nat := 0                -- µs until the bridges go off after DISABLE
  mask         : Nat := 0                -- µs until stall detection begins
  x            : Int := 0
  pos          : Int := 0
  v            : Int := 0
  acc          : Int := 0                -- acceleration of an S-curve in 10⁻⁶ of its unit
  motion       : AxMotion := .still
  queue        : List AxMove := []
  braking      : Bool := false           -- the head is past its braking point
  exit         : Option Nat := none      -- the junction fixed at the braking point
  curA         : Nat := 0
  curD         : Nat := 0
  decelPending : Bool := false
  aOvr         : Nat := 0
  dOvr         : Nat := 0
  lastSeq      : Word := 0#32
  result       : Nat := 0
  endResult    : Nat := 0                -- the result recorded at standstill
  toDisabled   : Bool := false
  fault        : Nat := 0
  bridgeBad    : Bool := false           -- the gated bridge failed its last test
  limn         : Bool := false
  limp         : Bool := false
  home         : Bool := false
  capture      : Int := 0
  stalls       : Nat := 0
  limitStops   : Nat := 0
  homing       : Option Homing := none
  stepNs       : Nat := 0                -- when the last microstep was made (11 R327)
  cfg          : AxCfg := {}
  nextCfg      : Option AxCfg := none
  savedSeq     : Word := 0#32            -- in the retained store (11 R344)
  savedPos     : Int := 0
  savedNs      : Nat := 0                -- when they were last written
deriving DecidableEq, Repr

/-- The state of VM (11 R342). -/
inductive VmState where
  | normal | high | low | above
deriving DecidableEq, Repr

/-- An edge or stall event that the token holder decided, as SEQSTATE carries it (11 R345). -/
inductive AxEvent where
  | edge (a : Nat) (sw : AxSwitch) (active : Bool) (ns : Nat) (pos : Int)
  | stall (a ns : Nat) (pos : Int)
deriving DecidableEq, Repr

/-- The axis unit. -/
structure AxBlk where
  ax     : Tbl Axis := []
  vm     : VmState := .low
  mv     : Nat := 0
  check  : Word := 0#32           -- AX_CHECK
  checks : List Word := []        -- check words at the newest station ticks, newest first
  past   : Tbl (List Axis) := []  -- the last microseconds of each axis since its last command, newest first
  own    : List AxEvent := []     -- own decisions while SHADOW, for a takeover (R346)
  sent   : List AxEvent := []     -- the model's own log of the events sent to the partner
deriving DecidableEq, Repr

end Sys2Proof.Machine
end

