-- ==== Sys2Proof/Syntax.lean ====
section
/-! DEFINITION. Syntax.lean: the commands the block takes, one constructor per row of the table of operations and events
(spec/opcode_table.json), and the types of their operands. What an outside party decides or measures (a sampled level, a
frame's content, whether a frame authenticated) is an operand; what the module itself knows is State. -/
namespace Sys2Proof

open Machine

/-- The 16 register blocks in the order of *Block index* (15 R439); the block code is the position. -/
inductive Block where
  | mod | cyc | fab | twin | xch | time | net | dio | aio | safe | ax | pnl | recorder | host | cfg | mnt
deriving DecidableEq, Repr

/-- The block code of *Block index*. -/
def Block.code : Block → Nat
  | .mod => 0 | .cyc => 1 | .fab => 2 | .twin => 3 | .xch => 4 | .time => 5 | .net => 6 | .dio => 7
  | .aio => 8 | .safe => 9 | .ax => 10 | .pnl => 11 | .recorder => 12 | .host => 13 | .cfg => 14 | .mnt => 15

/-- The two requesters that reach BAR0 (15 R426). -/
inductive Requester where
  | host | maint
deriving DecidableEq, Repr

/-- Where a command comes from: a descriptor taken from a submission ring (14 R402), a COMMAND message of the
maintenance port (15 R441), the partner's POLICY frame (04 R92), or the module itself. -/
inductive Origin where
  | host (sq : Fin 8) (tag : Word)
  | maint (tag : Word)
  | partner
  | self
deriving DecidableEq, Repr

/-- A submission descriptor as it stands in host memory (14 R404). -/
structure Desc where
  opcode   : Byte
  fence    : Bool
  reserved : Bool        -- a reserved byte is not 0
  tag      : Word
  dataAddr : DWord
  dataLen  : Nat
  params   : List Byte   -- the 40 bytes from 0x18 on
deriving DecidableEq, Repr

/-- How a data buffer or ring access failed (14 R417). -/
inductive DmaFail where
  | unsupported | abort | poisoned | timeout
deriving DecidableEq, Repr

/-- One of the rings of the HOST block (14 R397). -/
inductive RingId where
  | sq (n : Fin 8)
  | cq (n : Fin 8)
  | eq
deriving DecidableEq, Repr

/-- A field or loop cell at an isolation crossing (08 R226, 09 R258). -/
inductive CellId where
  | field (c : Fin 6)
  | loop (c : Fin 2)
deriving DecidableEq, Repr

/-- What an up frame of a cell carries beside the latched inputs: the supply and the cell's current, and the terminal
readback of each listed channel in mV (08 R226). -/
structure UpFrame where
  supplyMv  : Nat
  currentMa : Nat
  readback  : List (Nat × Nat)
deriving DecidableEq, Repr

/-- A crossing frame: down frames carry the module's own commands and flags, so only up frames have content here. -/
inductive CrossFrame where
  | down
  | up (f : UpFrame)
deriving DecidableEq, Repr

/-- The bands of a wire-break input (08 R233). -/
inductive WbBand where
  | wireBreak | openContact | closedContact | short
deriving DecidableEq, Repr

/-- What a cell measured over a test pulse (08 R243-R248). -/
structure PulseMeas where
  fell       : Bool                -- the terminal fell below 5 V within the pulse
  endMv      : Nat                 -- terminal voltage at the end of the pulse
  outward    : Bool                -- outward stage current above 5 mA throughout from 100 µs on
  partnerOut : Bool                -- the partner reports outward current above 5 mA
  cross      : Option (Fin 96)     -- the channel that showed evidence of R245
  lowSince   : Bool                -- whenever OFF since CROSS was raised, the channel has read below 5 V
  termUa     : Nat                 -- terminal current
  ownUa      : Nat                 -- own stage current
  rise50     : Bool                -- the terminal rose above 15 V within 50 µs of the start
deriving DecidableEq, Repr

/-- A safety lane (10 R290). -/
inductive Lane where
  | p | h
deriving DecidableEq, Repr

/-- A demand as lane P samples it (10 R303): the levels of a SIP pair, a partner's cross line, an own lane H fault, LS+. -/
inductive Demand where
  | sip (p : Fin 16) (l1 l2 : Bool)
  | fb (n : Fin 8) (level : Bool)
  | so (n : Fin 8) (energised : Bool)
  | xtl (n : Fin 8)
  | laneH
  | lsSupply
deriving DecidableEq, Repr

/-- A terminal whose comparator is tested (10 R297): SIPp.1, SIPp.2 or FBn. -/
inductive CompTerm where
  | sip (p : Fin 16) (second : Bool)
  | fb (n : Fin 8)
deriving DecidableEq, Repr

/-- A step of the safety output test (10 R313); `xtlIn` is the partner's cross-line pulse as this module's lane H saw it. -/
inductive SafetyStep where
  | hsDark | lsDark | xtl | closure | xtlIn
deriving DecidableEq, Repr

/-- Why a brake test ended without a verdict (10 R311). -/
inductive BrakeEnd where
  | aborted | inconclusive
deriving DecidableEq, Repr

/-- A fault of an axis bridge (11 *Axis diagnostics*); `hot` is a junction above 150 °C. -/
inductive BridgeFault where
  | overcurrent | overtemp (hot : Bool) | openCoil
deriving DecidableEq, Repr

/-- A rectangle of the panel in pixels (12 R361). -/
structure Rect where
  x : Nat
  y : Nat
  w : Nat
  h : Nat
deriving DecidableEq, Repr

/-- A journal entry of the panel (12 *Journal entry*), without its CRC. -/
structure JEntry where
  jseq       : Nat
  id         : Half
  active     : Bool
  completion : Bool
  wf         : Nat
  band       : Nat
  rect       : Rect
  frame      : Nat
  frames     : Nat
  row        : Nat
  start      : DWord
  crc        : Word := 0#32
deriving DecidableEq, Repr

/-- What a panel request asks (12 *Panel request*); `bytes` is the data that came with a WRITE, `len` the length named. -/
inductive PanelOp where
  | write (rect : Rect) (len : Nat) (bytes : List Byte)
  | present
  | update (rect : Rect) (wf : Nat)
  | temp (t : Int)
  | powerOn
  | powerOff
  | bad
deriving DecidableEq, Repr

/-- What the panel units of the two modules tell each other in SEQSTATE frames (12 R354, R363). -/
inductive PnlMsg where
  | request (id : Half) (op : PanelOp)
  | entry (slot : Fin 16) (e : JEntry)
  | rate (frame : Nat) (hz : Nat)
  | early (frame : Nat) (ns : Nat)
  | ackRequest (id : Half)
deriving DecidableEq, Repr

/-- What a grid-sense input and its mains tracker show at an instant (06 R175, 09 R283): instantaneous value and RMS in mV,
frequency in mHz, phase and rate of the fundamental, amplitude in mV peak. -/
structure GsSample where
  inst      : Int
  rms       : Nat
  freq      : Nat
  saturated : Bool
  phase     : Word
  rate      : Int
  amp       : Nat
deriving DecidableEq, Repr

/-- A channel that may be configured for edge capture (06 R189): a DIO, line A, B or Z of an SH, or a terminal of a SIP. -/
inductive CapCh where
  | dio (n : Fin 96)
  | sh (s : Fin 2) (line : Fin 3)
  | sip (p : Fin 16) (second : Bool)
deriving DecidableEq, Repr

/-- What the parts of the module measure by themselves at a station tick. -/
structure TickEnv where
  grid : List (Fin 4 × GsSample)     -- the mains trackers (06 R175)
  diff : List (Fin 2 × GsSample)     -- the difference trackers of AC0 and AC1 (06 R176)
  vmMv : Nat                         -- VM (11 R342)
  psA  : Nat                         -- the station supplies in mV, the temperatures in 0.1 °C, the power in 0.1 W (15 R440)
  psB  : Nat
  cold : Int
  die  : Int
  power : Nat
  sram  : Nat                        -- single-bit errors corrected in the fabric SRAM since the last tick (03 R84)
  store : Nat                        -- errors corrected in the retained store since the last tick (01 R21)
deriving DecidableEq, Repr

/-- What a received frame is (07 R207): MAC addresses are little-endian numbers of their six bytes in sending order. -/
inductive FrameKind where
  | eth (etherType streamId : Nat)
  | udp (ip : Word) (port streamId : Nat)
  | iec450 (ip : Word) (port : Nat)
  | supervision
  | other
deriving DecidableEq, Repr

/-- A frame received whole on a ship network port. -/
structure RxFrame where
  port    : Fin 4
  fcsOk   : Bool
  src     : Nat
  dst     : Nat
  kind    : FrameKind
  seq     : Word
  launch  : Nat               -- LAUNCH_TIME of the stream header, TAI ns
  redSeq  : Half              -- redundancy sequence number on a PRP or HSR pair
  length  : Nat               -- from the destination MAC address to the FCS
  payload : List Byte
  arrival : Nat               -- TAI ns
deriving DecidableEq, Repr

/-- A ring frame to be forwarded on an HSR pair (07 R199, R212): `ns` is the end of its
reception, and `ptp` holds the correctionField of a PTP event message in ns with its ingress time, and whether it is a Sync. -/
structure RingFrame where
  port   : Fin 4
  src    : Nat
  redSeq : Half
  ns     : Nat
  length : Nat
  ptp    : Option (Int × Nat × Bool)
deriving DecidableEq, Repr

/-- A PTP Announce (07 R211). -/
structure Announce where
  sender    : DWord
  domain    : Nat
  heard      : Nat               -- when it was received, TAI ns
  interval  : Nat               -- the interval of the sender's Announce messages, ns
  prio1     : Nat
  clkClass  : Nat
  accuracy  : Nat
  variance  : Nat
  prio2     : Nat
  gm        : DWord
  steps     : Nat
  utcOffset : Half
  utcValid  : Bool
  leap59    : Bool
  leap61    : Bool
deriving DecidableEq, Repr

/-- A Sync as received on one path (07 R211, R213): when the master sent it, its correctionField included, and when it was received,
in TAI ns. -/
structure SyncStamp where
  sent : Int
  recv : Int
deriving DecidableEq, Repr

/-- A segment of a Modbus/TCP connection (07 R221). -/
inductive TcpSeg where
  | syn | data | fin
deriving DecidableEq, Repr

/-- A request to the address services (07 R195). -/
inductive AddrReq where
  | arp (ip : Word)
  | echo (ip : Word)
  | igmpQuery
deriving DecidableEq, Repr

/-- What a Modbus request asks once the server has resolved its addresses (07 R221): bytes of a committed image or of a
Modbus exchange area. -/
inductive ModbusOp where
  | read (task off len : Nat)
  | write (area off : Nat) (bytes : List Byte)
deriving DecidableEq, Repr


/-- What the terminals show at a T0 beside what conversions and edges have already brought: grid-sense samples, lines A, B
and Z of the shaft inputs, load and stage current of the safety outputs, feedback levels, and the axes whose fault causes
have been absent for 100 ms. -/
structure T0Env where
  gs     : List (Fin 4 × GsSample)
  sh     : List (Fin 2 × Bool × Bool × Bool)
  so     : List (Fin 8 × Bool × Nat)
  fb     : List (Fin 8 × Bool)
  absent : List (Fin 4)
deriving DecidableEq, Repr

/-- What a module says of itself to its partner (04 R123, R126, 16 R453, 17 R467). -/
structure PeerId where
  revision : Nat := 3              -- hardware revision, A is 1
  romVer   : Nat := 2
  line     : Nat := 4              -- firmware release line
  safetyId : DWord := 0#64
  nextSafe : Option DWord := none  -- SAFETY_ID of the verified object in its inactive safety slot
  prog     : List Byte := []       -- SHA-256 hashes of program image and configuration
  cfg      : Nat := 0
  newest   : Option (Nat × Nat) := none  -- TC of its newest commit record
  pairKey  : Option Nat := none
  armed    : Bool := false         -- an exchange is armed
deriving DecidableEq, Repr

/-- The header of a received Olvia frame, as far as the receiver reads it: the lane that brought it and its MSG_SEQ (04 R100,
R103). -/
structure OlviaHdr where
  lane : Fin 2
  seq  : Word
deriving DecidableEq, Repr

/-- A HEARTBEAT (04 R103, R105): role and link state in the codes of TWIN_STATUS, eligibility, the station tick count, the
difference of the sender's station tick to the receiver's in ns, the launch acknowledgements (each transmit context with the SEQ
that its next frame takes), the angle clocks, the axis state check word, whether its time source has settled and its discipline is
LOCKED, whether its shared stages are engaged, whether its pre-carry is complete, and its SAFETY_ID. (DESIGN CHOICE, log 89) -/
structure Heartbeat where
  role     : Nat
  link     : Nat
  elig     : Word
  tick     : Nat
  tickOff  : Int
  acks     : List (Nat × Word)
  clocks   : List (DWord × Int)
  axCheck  : Word
  settled  : Bool
  locked   : Bool
  engaged  : Bool
  precarry : Bool
  safetyId : DWord
deriving DecidableEq, Repr

/-- A POLICY frame (04 R103): a forwarded STOP or RUN and its answer, a mode command with the cycle of each task, an overrun
policy, a restart, limits, the decision for an exchange, exchange commands, the switch instant of a configuration. -/
inductive PolicyMsg where
  | forward (m : ProgMode)
  | answer (m : ProgMode) (status detail : Nat)
  | mode (m : ProgMode) (at' : List (Nat × DWord))
  | act (task : Nat) (stop : Bool) (k : DWord)
  | restart (task : Nat) (k : DWord)
  | limits (task : Nat) (l : TaskLimits) (k : DWord)
  | go (n : DWord)
  | abort (reason : Nat)
  | arm (pivot : Nat) (n : DWord)
  | discard
  | switch (e : Effect)
deriving DecidableEq, Repr

/-- The LEAD's rick poll state of a unit: its consecutive polls without a valid reply, and whether it is lost (04 R131). -/
structure RxPoll where
  fails : Nat
  lost  : Bool
deriving DecidableEq, Repr

/-- A SEQSTATE frame: panel messages, decided axis events with their age in µs, path delays, stream sequence state, rick poll
state, and the T_ang of an angle-event slot (04 R103, R131, 06 R187, 07 R215, 11 R345). -/
inductive SeqMsg where
  | panel (m : PnlMsg)
  | axis (e : AxEvent) (ago : Nat)
  | delay (p : Fin 4) (ns : Nat)
  | stream (ctx : Nat) (seq : Word) (pair : Nat) (redSeq : Half)
  | rick (u : Fin 6) (x : RxPoll)
  | slot (n : Nat) (tang : Nat)
deriving DecidableEq, Repr

/-- A COPY frame (04 R123, R124, 05 R147, 16 R450): an object, bytes of a task's committed image at a cycle, the sequential
state, or a staged package. `part` gives the offset and length of a part of the full image; without it the bytes are the lines that
the cycle has written. -/
inductive CopyMsg where
  | program (p : Program)
  | config (c : StationCfg)
  | package (p : Package) (signer : Option Nat)
  | image (task : Nat) (k : DWord) (bytes : List (Nat × Byte)) (part : Option (Nat × Nat))
  | seqState (axes : List (Fin 4 × Axis)) (journal : List (Fin 16 × JEntry)) (seqs : List (Nat × Word))
      (redSeq : List (Nat × Half)) (polls : List (Fin 6 × RxPoll)) (counts : List (Nat × Nat × Word))
deriving DecidableEq, Repr

/-- A RESULT frame (04 R103): a self-test result, the result of the staging checks (05 R147) or of the
checks of a configuration (16 R450), or a MEM_FAULT record to be
mirrored. -/
inductive ResultMsg where
  | selfTest (pass : Bool)
  | staging (reason : Nat)
  | config (reason : Nat)
  | memFault (side : BitVec 4) (seq detail time cycle : DWord)
deriving DecidableEq, Repr

/-- A HASH frame (04 R117-R119, R124): the hashes of a commit, with what the SHADOW found on comparing the agreed image; a
billet fault in its place; or the hash of a whole image. -/
inductive HashMsg where
  | commit (k hash audit : DWord) (diff : Bool)
  | fault (k : DWord)
  | image (hash : DWord)
deriving DecidableEq, Repr

/-- Which objects of the image store read back intact at start-up (16 R446, R447). -/
structure Intact where
  prog  : Bool := true
  cfgA  : Bool := true
  cfgB  : Bool := true
  safeA : Bool := true
  safeB : Bool := true
  key0  : Bool := true
  key1  : Bool := true
  records : List (Nat × Bool) := []   -- tasks whose commit record does not read back, and whether its second slot (02 R42)
  floors  : List (Nat × Bool) := []   -- the same of cycle floor records (02 R47)
  journal : List (Fin 16) := []       -- panel journal slots whose newer entry does not read back (12 R364)
  xch     : Bool := true              -- the newer slot of the exchange record has a correct CRC-32C (05 R157)
deriving DecidableEq, Repr

/-- A command: one row of the table of operations and events of the part (spec/opcode_table.json), with the data the
outside supplies as operands; in the order of the table, those with operands first (a compiled type numbers at most 245 of them). Each constructor cites the rule of its row. -/
inductive Instr where
  /-- SEAT_CLOSE (R18) -/
  | seatClose (slotB : Bool)
  /-- XTL_ARM (R20) -/
  | xtlArm (n : Fin 8)
  /-- XTL_DEMAND_CHANGE (R295) -/
  | xtlDemandChange (n : Fin 8) (demand : Bool)
  /-- NETWORK_UNIT_FAULT (R22) -/
  | networkUnitFault (pair : Fin 2)
  /-- TASK_T0 (R29) -/
  | taskT0 (n : Fin 32) (env : T0Env)
  /-- ANGLE_FIRING (R30) -/
  | angleFiring (n : Fin 32) (entry : Fin 24) (forward : Bool) (ns : Fin 10000) (env : T0Env)
  /-- FALLBACK_T0 (R32) -/
  | fallbackT0 (n : Fin 32) (firing : Bool) (env : T0Env)
  /-- AGREED_IMAGE_COMPLETE (R71) -/
  | agreedImageComplete (n : Fin 32)
  /-- RICK_INPUT_DEADLINE (R59) -/
  | rickInputDeadline (n : Fin 32)
  /-- ENGINE_EXAMINE (R78) -/
  | engineExamine (es : List (Fin 16))
  /-- BILLET_LOAD_DONE (R72) -/
  | billetLoadDone (e : Fin 16)
  /-- BILLET_RETIRE (R74) -/
  | billetRetire (e : Fin 16) (ok : Bool) (us : Nat) (ns : Fin 10000)
  /-- COMMIT_DURABLE (R42) -/
  | commitDurable (n : Fin 32)
  /-- COMMIT_DEADLINE (R37) -/
  | commitDeadline (n : Fin 32)
  /-- BILLET_FAULT (R75) -/
  | billetFault (e : Fin 16) (us : Nat)
  /-- BILLET_RUNAWAY (R75) -/
  | billetRunaway (e : Fin 16) (addr : Word) (us : Nat)
  /-- ENGINE_FENCE (R68) -/
  | engineFence (e : Fin 16) (us : Nat)
  /-- ENGINE_SELF_TEST_DONE (R68) -/
  | engineSelfTestDone (e : Fin 16) (pass : Bool)
  /-- ENGINE_FW_LOADED (R463) -/
  | engineFwLoaded (e : Fin 16)
  /-- SRAM_UE (R84) -/
  | sramUe (line : Nat) (engines : List (Fin 16 × Nat))
  /-- SRAM_LINE_RELOADED (R84) -/
  | sramLineReloaded (line : Nat)
  /-- BREAKPOINT_REACHED (R51) -/
  | breakpointReached (e : Fin 16) (off : Nat)
  /-- MODE_RUN (R51) -/
  | modeRun (o : Origin)
  /-- MODE_STOP (R51) -/
  | modeStop (o : Origin)
  /-- MODE_HOLD (R51) -/
  | modeHold (o : Origin)
  /-- MODE_STEP (R493) -/
  | modeStep (o : Origin) (n : Nat)
  /-- BREAK_SET (R493) -/
  | breakSet (o : Origin) (n billet off : Nat)
  /-- BREAK_CLEAR (R493) -/
  | breakClear (o : Origin) (n billet off : Nat)
  /-- TASK_RESTART (R91) -/
  | taskRestart (o : Origin) (n : Nat)
  /-- BUDGET (R93) -/
  | budget (o : Origin) (n : Nat) (budget quota limit : Option Nat) (stop : Option Bool)
  /-- LANE_BLOCK_LOCK_LOSS (R101) -/
  | laneBlockLockLoss (l : Fin 2)
  /-- LANE_TRAIN_ATTEMPT (R101) -/
  | laneTrainAttempt (l : Fin 2)
  /-- LANE_TRAIN_TIMEOUT (R101) -/
  | laneTrainTimeout (l : Fin 2)
  /-- LANE_TRAINED (R101) -/
  | laneTrained (l : Fin 2)
  /-- HANDSHAKE (R102) -/
  | handshake (l : Fin 2) (ok : Bool) (peer : PeerId) (randA randB : BitVec 128)
  /-- OLVIA_AUTH_FAIL (R102) -/
  | olviaAuthFail (l : Fin 2)
  /-- HEARTBEAT (R105) -/
  | heartbeat (f : OlviaHdr) (h : Heartbeat)
  /-- SAMPLES (R115) -/
  | samples (f : OlviaHdr) (n : Fin 32) (k : DWord) (vals : List InVal)
  /-- AGREED (R116) -/
  | agreed (f : OlviaHdr) (n : Fin 32) (k : DWord) (vals : List InVal)
  /-- EXCHANGE_MISS (R116) -/
  | exchangeMiss (n : Fin 32)
  /-- HASH (R119) -/
  | hash (f : OlviaHdr) (n : Fin 32) (m : HashMsg)
  /-- VERDICT_DEADLINE (R119) -/
  | verdictDeadline (n : Fin 32)
  /-- VERDICT (R120) -/
  | verdict (f : OlviaHdr) (n : Fin 32) (k : DWord) (code : Fin 6) (ta : Nat)
  /-- VERDICT_MISSING (R120) -/
  | verdictMissing (n : Fin 32)
  /-- POLICY (R92) -/
  | policy (f : OlviaHdr) (m : PolicyMsg)
  /-- SEQSTATE (R131) -/
  | seqstate (f : OlviaHdr) (m : SeqMsg)
  /-- YIELD (R112) -/
  | yield (f : OlviaHdr) (r : Region) (handover : Bool)
  /-- COPY (R123) -/
  | copy (f : OlviaHdr) (m : CopyMsg)
  /-- RESULT (R121) -/
  | result (f : OlviaHdr) (m : ResultMsg)
  /-- MISMATCH_SELF_TEST_DONE (R121) -/
  | mismatchSelfTestDone (pass : Bool)
  /-- HANDOVER (R130) -/
  | handover (o : Origin)
  /-- STAGE (R146) -/
  | stage (o : Origin) (off total len : Nat) (first last : Bool) (pkg : Package × Option Nat)
  /-- ARM (R148) -/
  | arm (o : Origin) (n : Nat) (k : DWord)
  /-- DISARM (R144) -/
  | disarm (o : Origin)
  /-- DISCARD (R144) -/
  | discard (o : Origin)
  /-- ROLLBACK (R159) -/
  | rollback (o : Origin)
  /-- CARRY_COMPLETE (R150) -/
  | carryComplete (n : Fin 32)
  /-- SYNC (R164) -/
  | sync (sender : DWord) (domain : Nat) (first second : Option SyncStamp)
  /-- MAINS_LOCK (R175) -/
  | mainsLock (g : Fin 4)
  /-- MAINS_UNLOCK (R175) -/
  | mainsUnlock (g : Fin 4)
  /-- Z_EDGE (R178) -/
  | zEdge (sh : Fin 2) (offNs : Fin 10000)
  /-- SHAFT_STANDSTILL (R179) -/
  | shaftStandstill (sh : Fin 2)
  /-- SHAFT_OVERSPEED (R177) -/
  | shaftOverspeed (sh : Fin 2)
  /-- SLOT_FIX (R184) -/
  | slotFix (n : Fin 256)
  /-- SLOT_MISSED (R184) -/
  | slotMissed (n : Fin 256)
  /-- SLOT_FIRE (R185) -/
  | slotFire (n : Fin 256)
  /-- SLOT_PULSE_END (R185) -/
  | slotPulseEnd (n : Fin 256)
  /-- INPUT_EDGE_CAPTURE (R189) -/
  | inputEdgeCapture (ch : CapCh) (rising : Bool) (ns : Nat)
  /-- PERIODIC_LAUNCH (R203) -/
  | periodicLaunch (ctx : Fin 1024)
  /-- STREAM_FRAME_RX (R207) -/
  | streamFrameRx (f : RxFrame)
  /-- HSR_FORWARD (R199) -/
  | hsrForward (f : RingFrame)
  /-- SRC_MAC_FORGET (R207) -/
  | srcMacForget (ctx : Fin 1024)
  /-- DD_WINDOW_CLEAR (R207) -/
  | ddWindowClear (ctx : Fin 1024)
  /-- PORT_LINK_DOWN (R215) -/
  | portLinkDown (p : Fin 4)
  /-- PORT_LINK_UP (R215) -/
  | portLinkUp (p : Fin 4)
  /-- MODBUS_REQUEST (R221) -/
  | modbusRequest (conn : Nat) (seg : TcpSeg) (fn : Nat) (ops : List ModbusOp)
  /-- ADDRESS_SERVICE_REQUEST (R195) -/
  | addressServiceRequest (p : Fin 4) (r : AddrReq) (len : Nat)
  /-- CELL_FRAME (R226) -/
  | cellFrame (cell : CellId) (crcOk : Bool) (seq : Nat) (f : CrossFrame)
  /-- CROSSING_WATCHDOG (R227) -/
  | crossingWatchdog (c : Fin 6)
  /-- WIRE_BREAK_BAND_CHANGE (R234) -/
  | wireBreakBandChange (ch : Fin 96) (band : WbBand)
  /-- DIO_INPUT_CHANGE (R232) -/
  | dioInputChange (ch : Fin 96) (level : Bool)
  /-- OVERLOAD (R239) -/
  | overload (ch : Fin 96)
  /-- CELL_OVERLOAD (R239) -/
  | cellOverload (c : Fin 6) (currentsMa : List Nat)
  /-- OVERLOAD_RETRY (R242) -/
  | overloadRetry (ch : Fin 96) (failed : Bool)
  /-- OVERTEMP (R239) -/
  | overtemp (ch : Fin 96) (above : Bool)
  /-- OPEN_WIRE (R239) -/
  | openWire (ch : Fin 96) (present : Bool)
  /-- SHORT_SUPPLY (R244) -/
  | shortSupply (ch : Fin 96) (present ownOut partnerOut : Bool)
  /-- STUCK_ON (R243) -/
  | stuckOn (ch : Fin 96)
  /-- CROSS (R245) -/
  | cross (a b : Fin 96)
  /-- SHARE_LOW (R239) -/
  | shareLow (ch : Fin 96) (present : Bool)
  /-- TEST_PULSE_START (R246) -/
  | testPulseStart (ch : Fin 96) (demand : Bool)
  /-- TEST_PULSE_END (R248) -/
  | testPulseEnd (ch : Fin 96) (meas : PulseMeas)
  /-- CELL_UV1 (R250) -/
  | cellUv1 (c : Fin 6)
  /-- CELL_WARN_CLEAR (R250) -/
  | cellWarnClear (c : Fin 6)
  /-- CELL_SAG (R250) -/
  | cellSag (c : Fin 6)
  /-- CELL_SAG_EXIT (R250) -/
  | cellSagExit (c : Fin 6)
  /-- CELL_SUPPLY_LOST (R250) -/
  | cellSupplyLost (c : Fin 6)
  /-- CELL_SUPPLY_RETURN (R250) -/
  | cellSupplyReturn (c : Fin 6) (mv : Nat)
  /-- CELL_RECOVERED (R252) -/
  | cellRecovered (c : Fin 6) (mv : Nat)
  /-- LOOP_CROSSING_WATCHDOG (R258) -/
  | loopCrossingWatchdog (c : Fin 2)
  /-- LOOP_CELL_FAULT (R259) -/
  | loopCellFault (c : Fin 2)
  /-- LOOP_SUPPLY_LOW (R261) -/
  | loopSupplyLow (c : Fin 2)
  /-- LOOP_SUPPLY_NORMAL (R261) -/
  | loopSupplyNormal (c : Fin 2)
  /-- LOOP_SUPPLY_LOST (R261) -/
  | loopSupplyLost (c : Fin 2)
  /-- LOOP_SUPPLY_BACK (R261) -/
  | loopSupplyBack (c : Fin 2) (mv : Nat)
  /-- AIO_CONVERSION_DONE (R263) -/
  | aioConversionDone (results : List (Fin 32 × Int))
  /-- AIO_BAND_CHANGE (R264) -/
  | aioBandChange (ch : Fin 32) (na : Int) (above : Bool)
  /-- LOOP_FEED_RECLOSE (R265) -/
  | loopFeedReclose (ch : Fin 32) (kept : Bool)
  /-- TRIM_UPDATE (R267) -/
  | trimUpdate (ch : Fin 32) (meanErr : Int) (sawCompliance : Bool)
  /-- MAKEUP_ENTER (R268) -/
  | makeupEnter (ch : Fin 32) (samples : List (Int × Int)) (recentChange atLimit : Bool)
  /-- MAKEUP_EXIT (R268) -/
  | makeupExit (ch : Fin 32) (iP : Int)
  /-- SOURCE_RAMP_END (R269) -/
  | sourceRampEnd (ch : Fin 32)
  /-- SOURCE_FAULT (R270) -/
  | sourceFault (ch : Fin 32) (iOwn : Int)
  /-- COMPLIANCE (R272) -/
  | compliance (ch : Fin 32) (present : Bool)
  /-- OPEN_LOOP (R273) -/
  | openLoop (ch : Fin 32) (present : Bool)
  /-- READBACK_DIFF (R274) -/
  | readbackDiff (ch : Fin 32) (present : Bool)
  /-- CAL_WINDOW_START (R277) -/
  | calWindowStart (partnerRamping partnerSource : Bool)
  /-- CAL_WINDOW_END (R281) -/
  | calWindowEnd (offsetNa gainPpm : Int)
  /-- SHAFT_LINE_FAULT (R286) -/
  | shaftLineFault (sh : Fin 2) (present : Bool)
  /-- QUAD_ERR (R286) -/
  | quadErr (sh : Fin 2)
  /-- ENC_SUPPLY_FAULT (R286) -/
  | encSupplyFault (sh : Fin 2) (present : Bool)
  /-- LANE_H_SIP_DEMAND (R306) -/
  | laneHSipDemand (p : Fin 16) (c1 c2 : Bool)
  /-- LANE_H_DELAY_DONE (R306) -/
  | laneHDelayDone (n : Fin 8)
  /-- LANE_P_DEMAND (R303) -/
  | lanePDemand (d : Demand)
  /-- DEMAND_WITHDRAWN (R303) -/
  | demandWithdrawn (d : Demand)
  /-- TIMED_STOP_DELAY (R303) -/
  | timedStopDelay (f : Fin 64)
  /-- DISCREPANCY_LATCH (R299) -/
  | discrepancyLatch (lane : Lane) (p : Fin 16)
  /-- DISCREPANCY_CLEAR (R300) -/
  | discrepancyClear (lane : Lane) (p : Fin 16)
  /-- RESET_RELEASE (R304) -/
  | resetRelease (p : Fin 16) (l1 l2 : Bool) (d : Option Demand)
  /-- COMPARATOR_TEST (R297) -/
  | comparatorTest (lane : Lane) (t : CompTerm) (pass : Bool)
  /-- LANE_P_START (R305) -/
  | lanePStart (energised : BitVec 8)
  /-- ESCALATION (R296) -/
  | escalation (n : Fin 8)
  /-- EDM_TIMEOUT (R307) -/
  | edmTimeout (f : Fin 64) (fb : Bool)
  /-- SBC_BOOST_END (R308) -/
  | sbcBoostEnd (n : Fin 8)
  /-- BRAKE_TEST_START (R309) -/
  | brakeTestStart (f : Fin 64)
  /-- BRAKE_TEST_END (R311) -/
  | brakeTestEnd (f : Fin 64) (slip : Word)
  /-- BRAKE_TEST_FAIL (R311) -/
  | brakeTestFail (f : Fin 64) (slip : Word)
  /-- BRAKE_TEST_ABORT (R311) -/
  | brakeTestAbort (f : Fin 64) (why : BrakeEnd) (slip : Word)
  /-- SAFETY_TEST_START (R313) -/
  | safetyTestStart (n : Fin 8) (demand : Bool)
  /-- SAFETY_TEST_STEP_END (R313) -/
  | safetyTestStepEnd (n : Fin 8) (step : SafetyStep) (pass : Bool)
  /-- REPAIR_TIME_EXPIRY (R317) -/
  | repairTimeExpiry (n : Fin 8)
  /-- SO_OVERLOAD_RETRY (R323) -/
  | soOverloadRetry (n : Fin 8) (failed : Bool)
  /-- AXIS_ENABLE (R340) -/
  | axisEnable (a : Fin 4) (seq : Word)
  /-- AXIS_DISABLE (R340) -/
  | axisDisable (a : Fin 4) (seq : Word)
  /-- AXIS_APPEND (R331) -/
  | axisAppend (a : Fin 4) (seq : Word) (entries : List MoveEntry)
  /-- AXIS_REPLACE (R331) -/
  | axisReplace (a : Fin 4) (seq : Word) (entries : List MoveEntry)
  /-- AXIS_STOP (R340) -/
  | axisStop (a : Fin 4) (seq : Word)
  /-- AXIS_ESTOP (R340) -/
  | axisEstop (a : Fin 4) (seq : Word)
  /-- AXIS_VELOCITY (R333) -/
  | axisVelocity (a : Fin 4) (seq : Word) (vel : Int) (acc : Nat)
  /-- AXIS_HOME (R338) -/
  | axisHome (a : Fin 4) (seq : Word) (h : HomeCmd)
  /-- AXIS_SET_RATES (R332) -/
  | axisSetRates (a : Fin 4) (seq : Word) (aOvr dOvr : Nat)
  /-- AXIS_CLEAR_FAULT (R340) -/
  | axisClearFault (a : Fin 4) (seq : Word) (absent : Bool)
  /-- AXIS_PROFILE_TICK (R330) -/
  | axisProfileTick (a : Fin 4)
  /-- AXIS_LIMIT_EDGE (R336) -/
  | axisLimitEdge (a : Fin 4) (sw : AxSwitch) (active : Bool) (edgePos : Int)
  /-- AXIS_HOMING_EDGE (R339) -/
  | axisHomingEdge (a : Fin 4) (sw : AxSwitch) (active : Bool) (edgePos : Int)
  /-- AXIS_STALL (R337) -/
  | axisStall (a : Fin 4)
  /-- AXIS_HOLD_DELAY (R327) -/
  | axisHoldDelay (a : Fin 4)
  /-- AXIS_BRIDGE_FAULT (R341) -/
  | axisBridgeFault (a : Fin 4) (f : BridgeFault)
  /-- AXIS_BRIDGE_TEST_DONE (R341) -/
  | axisBridgeTestDone (a : Fin 4) (pass : Bool)
  /-- GATED_BRIDGE_TEST (R345) -/
  | gatedBridgeTest (a : Fin 4) (pass : Bool)
  /-- VM_LOW (R342) -/
  | vmLow (mv : Nat)
  /-- VM_OVER (R342) -/
  | vmOver (mv : Nat)
  /-- AXIS_STATE_SAVE (R344) -/
  | axisStateSave (a : Fin 4)
  /-- EP_FRAME_START (R356) -/
  | epFrameStart (late : List (Fin 16))
  /-- PANEL_WRITE (R361) -/
  | panelWrite (o : Origin) (id : Half) (rect : Rect) (len : Nat) (bytes : List Byte)
  /-- PANEL_PRESENT (R355) -/
  | panelPresent (o : Origin) (id : Half)
  /-- PANEL_UPDATE (R362) -/
  | panelUpdate (o : Origin) (id : Half) (rect : Rect) (wf : Fin 8)
  /-- PANEL_TEMP (R359) -/
  | panelTemp (o : Origin) (id : Half) (t : Int)
  /-- PANEL_POWER_ON (R361) -/
  | panelPowerOn (o : Origin) (id : Half)
  /-- PANEL_POWER_OFF (R361) -/
  | panelPowerOff (o : Origin) (id : Half)
  /-- PTEMP_MEASURE (R359) -/
  | ptempMeasure (t : Option Int)
  /-- PNL_PG_FALL (R365) -/
  | pnlPgFall (row : Option Nat)
  /-- HOLDOFF_EXPIRY (R381) -/
  | holdoffExpiry (n : Fin 256)
  /-- MEM_FAULT (R389) -/
  | memFault (area : RecArea) (block : Nat) (verify : Bool) (readable : List Nat)
  /-- REC_WIN_SELECT (R394) -/
  | recWinSelect (who : Requester) (w : Word)
  /-- SERVICE_PASS (R402) -/
  | servicePass (descs : List (Fin 8 × List Desc))
  /-- DATA_READ_DONE (R402) -/
  | dataReadDone (sq : Fin 8) (tag : Word) (data : List Byte) (obj : ImageObj) (pkg : Package × Option Nat)
  /-- DMA_FAILURE (R417) -/
  | dmaFailure (sq : Fin 8) (tag : Word) (how : DmaFail) (places : Nat)
  /-- RING_ACCESS_FAILURE (R418) -/
  | ringAccessFailure (r : RingId) (index : Nat) (how : DmaFail)
  /-- NOP (R405) -/
  | nop (o : Origin)
  /-- MODE (R405) -/
  | mode (o : Origin) (mode task billet off : Nat)
  /-- IMAGE_WRITE (R406) -/
  | imageWrite (o : Origin) (target off total len : Nat) (first last : Bool) (obj : ImageObj)
  /-- ACTIVATE_CONFIG (R450) -/
  | activateConfig (o : Origin)
  /-- ACTIVATE_SAFETY (R321) -/
  | activateSafety (o : Origin)
  /-- ACTIVATE_FW_ENGINE (R463) -/
  | activateFwEngine (o : Origin) (e : Fin 16)
  /-- ACTIVATE_FW_MODULE (R464) -/
  | activateFwModule (o : Origin)
  /-- AREA_WRITE (R407) -/
  | areaWrite (o : Origin) (area off : Nat) (bytes : List Byte)
  /-- AREA_READ (R409) -/
  | areaRead (o : Origin) (area : Nat) (addr : DWord) (len : Nat)
  /-- REC_READ (R411) -/
  | recRead (o : Origin) (first : Nat) (count : Nat) (peat annex : Bool) (addr : DWord) (len : Nat)
  /-- REC_NOTE (R405) -/
  | recNote (o : Origin) (detail : DWord) (words : List Word)
  /-- TRIGGER (R380) -/
  | trigger (o : Origin) (n : Nat)
  /-- QUOTA (R385) -/
  | quota (o : Origin) (source quota : Nat)
  /-- PANEL (R405) -/
  | panel (o : Origin) (id : Half) (op : PanelOp)
  /-- SQ_TAIL_DOORBELL (R416) -/
  | sqTailDoorbell (n : Fin 8) (tail : Nat)
  /-- CQ_HEAD_DOORBELL (R416) -/
  | cqHeadDoorbell (n : Fin 8) (head : Nat)
  /-- EQ_HEAD_DOORBELL (R416) -/
  | eqHeadDoorbell (head : Nat)
  /-- RING_STOPPED (R403) -/
  | ringStopped (n : Fin 8)
  /-- MSIX_COALESCE_TIMEOUT (R415) -/
  | msixCoalesceTimeout (r : RingId)
  /-- BUS_MASTER_ENABLE (R496) -/
  | busMasterEnable (msixEn msixMask : Bool)
  /-- PCIE_LINK_UP (R419) -/
  | pcieLinkUp (speed width : BitVec 2)
  /-- REGISTER_WRITE (R429) -/
  | registerWrite (who : Requester) (off : Nat) (w : Word)
  /-- BAD_ACCESS (R424) -/
  | badAccess (who : Requester) (write : Bool)
  /-- GUARDED_VALUE_WRITE (R430) -/
  | guardedValueWrite (who : Requester) (off : Nat) (w : Word)
  /-- COMPLEMENT_WRITE (R430) -/
  | complementWrite (who : Requester) (off : Nat) (w : Word) (ns : Nat)
  /-- GUARD_LATE (R431) -/
  | guardLate (who : Requester)
  /-- BIT_ALIAS_WRITE (R432) -/
  | bitAliasWrite (who : Requester) (off : Nat) (b : Fin 32) (v : Bool)
  /-- LOW_WORD_READ (R434) -/
  | lowWordRead (who : Requester) (off : Nat)
  /-- GROUP_LATCH_READ (R435) -/
  | groupLatchRead (who : Requester) (off : Nat)
  /-- SCRUB_PASS (R437) -/
  | scrubPass (us : Nat) (found : List (Nat × Word × Bool))
  /-- HOLDUP_MEASURE (R440) -/
  | holdupMeasure (tenths : Nat)
  /-- SCRUB_NOW (R442) -/
  | scrubNow (who : Requester) (busy : Bool)
  /-- MNT_CMD_DONE (R442) -/
  | mntCmdDone (cmd : Fin 3) (tenths : Nat)
  /-- MNT_OPEN (R441) -/
  | mntOpen (key : Option Nat)
  /-- MNT_READ (R441) -/
  | mntRead (off count : Nat)
  /-- MNT_WRITE (R441) -/
  | mntWrite (off : Nat) (w : Word)
  /-- MNT_COMMAND (R441) -/
  | mntCommand (d : Desc) (data : List Byte) (obj : ImageObj) (pkg : Package × Option Nat)
  /-- SUPPLY_LOST (R440) -/
  | supplyLost (b : Bool)
  /-- SUPPLY_BACK (R480) -/
  | supplyBack (b : Bool)
  /-- THERMAL_WARN (R440) -/
  | thermalWarn (on : Bool)
  /-- POWER_UP (R444) -/
  | powerUp (psA psB romOk torn bookA bookB rebuilt : Bool) (failing : List (Fin 16))
  /-- FIRMWARE_VERIFIED (R446) -/
  | firmwareVerified (okA okB : Bool)
  /-- OBJECTS_VERIFIED (R447) -/
  | objectsVerified (found : Intact)
  /-- LANES_START (R444) -/
  | lanesStart (energised : BitVec 8)
  /-- ENUMERATE (R455) -/
  | enumerate (cmd : Bool)
  /-- ENUM_COLLECT_END (R455) -/
  | enumCollectEnd (delays : List (Fin 6 × Nat))
  /-- IDENT (R455) -/
  | ident (serial : DWord) (position : Fin 6) (hops0 hops1 : Fin 8)
  /-- RX_AUTH (R456) -/
  | rxAuth (u : Fin 6) (ok : Bool) (randM randU : BitVec 128)
  /-- PATH_DELAY_MEASURE (R455) -/
  | pathDelayMeasure (delays : List (Fin 6 × Nat))
  /-- REPLY (R58) -/
  | reply (u : Fin 6) (hops0 hops1 : Fin 8) (samples : List RxSamples)
  /-- ACK (R61) -/
  | ack (u : Fin 6) (n : Fin 32) (k : DWord)
  /-- UNIT_LOST (R60) -/
  | unitLost (u : Fin 6)
  /-- RX_ACK_DEADLINE (R61) -/
  | rxAckDeadline (n : Fin 32)
  /-- EDM_FAULT_CLEAR (R303) -/
  | edmFaultClear (f : Fin 64)
  /-- SO_OVERLOAD (R323) -/
  | soOverload (n : Fin 8)
  /-- SO_OPEN_LOAD (R323) -/
  | soOpenLoad (n : Fin 8)
  /-- FW_STUCK (R323) -/
  | fwStuck (n : Fin 8)
  /-- LOW_SIDE_CLOSURE_FAIL (R313) -/
  | lowSideClosureFail (n : Fin 8)
  /-- SHAFT_COUNT_EDGE (R179) -/
  | shaftCountEdge (sh : Fin 2) (a b : Bool) (offNs : Fin 10000)
  /-- GRID_SENSE_SATURATED (R283) -/
  | gridSenseSaturated (g : Fin 4)
  /-- PARITY_CHECKED_READ (R437) -/
  | parityCheckedRead (who : Requester) (off : Nat) (found : Word) (intact : Bool)
  /-- PTP_ANNOUNCE (R211) -/
  | ptpAnnounce (m : Announce)
  /-- PTP_DELAY_RESPONSE (R215) -/
  | ptpDelayResponse (p : Fin 4) (ns : Nat)
  /-- RESET_PRESS (R304) -/
  | resetPress (p : Fin 16) (l1 l2 : Bool)
  /-- STATION_TICK (R162) -/
  | stationTick (env : TickEnv)
  /-- SEAT_OPEN (R2) -/
  | seatOpen
  /-- PARTNER_SEAT_OPEN (R111) -/
  | partnerSeatOpen
  /-- PARTNER_SEAT_CLOSE (R20) -/
  | partnerSeatClose
  /-- CYCLE_CONTROLLER_FAULT (R21) -/
  | cycleControllerFault
  /-- SV_FAULT (R22) -/
  | svFault
  /-- TWIN_UNIT_FAULT (R22) -/
  | twinUnitFault
  /-- TIME_UNIT_FAULT (R21) -/
  | timeUnitFault
  /-- RETAINED_STORE_UE (R21) -/
  | retainedStoreUe
  /-- POWER_LOSS (R45) -/
  | powerLoss
  /-- HEARTBEAT_SEND (R105) -/
  | heartbeatSend
  /-- PARTNER_LOST (R105) -/
  | partnerLost
  /-- KEEPER_LAPSE (R106) -/
  | keeperLapse
  /-- PARTNER_ROLE_LINE_HIGH (R109) -/
  | partnerRoleLineHigh
  /-- PARTNER_ROLE_LINE_LOW (R107) -/
  | partnerRoleLineLow
  /-- ROLE_CONFLICT (R107) -/
  | roleConflict
  /-- SPLIT_BRAIN_RELEASE (R134) -/
  | splitBrainRelease
  /-- STARTING_ROLE_WAIT (R114) -/
  | startingRoleWait
  /-- YIELD_FAIL (R127) -/
  | yieldFail
  /-- STATE_COPY_TIMEOUT (R125) -/
  | stateCopyTimeout
  /-- STAGING_COMPLETE (R146) -/
  | stagingComplete
  /-- PRECARRY_COMPLETE (R149) -/
  | precarryComplete
  /-- SETTLE_COMPLETE (R157) -/
  | settleComplete
  /-- SYNC_TIMEOUT (R164) -/
  | syncTimeout
  /-- QUARANTINE_EXPIRY (R164) -/
  | quarantineExpiry
  /-- HOLDOVER_EXPIRED (R164) -/
  | holdoverExpired
  /-- SYNC_WAIT_EXPIRY (R170) -/
  | syncWaitExpiry
  /-- BUDGET_WINDOW (R209) -/
  | budgetWindow
  /-- CAL_WINDOW_ABANDON (R280) -/
  | calWindowAbandon
  /-- LANE_P_FAULT (R290) -/
  | lanePFault
  /-- LANE_H_FAULT (R290) -/
  | laneHFault
  /-- LS_SUPPLY_LOW (R314) -/
  | lsSupplyLow
  /-- LS_SUPPLY_BACK (R314) -/
  | lsSupplyBack
  /-- LCD_FRAME_START (R353) -/
  | lcdFrameStart
  /-- FRONT_BACK_COPY_DONE (R355) -/
  | frontBackCopyDone
  /-- TEMP_TIMEOUT (R359) -/
  | tempTimeout
  /-- PNL_PG_RISE (R366) -/
  | pnlPgRise
  /-- PANEL_UNIT_FAULT (R369) -/
  | panelUnitFault
  /-- RECORD_WRITE (R374) -/
  | recordWrite
  /-- QUOTA_WINDOW (R384) -/
  | quotaWindow
  /-- PCIE_LINK_DOWN (R419) -/
  | pcieLinkDown
  /-- PCIE_HOT_RESET (R419) -/
  | pcieHotReset
  /-- FLR (R419) -/
  | flr
  /-- HOLDUP_TEST (R442) -/
  | holdupTest
  /-- IDENTIFY (R442) -/
  | identify
  /-- MNT_CLOSE (R441) -/
  | mntClose
  /-- MNT_IDLE_TIMEOUT (R441) -/
  | mntIdleTimeout
  /-- MNT_CABLE_REMOVED (R441) -/
  | mntCableRemoved
  /-- MNT_LOCKOUT_END (R441) -/
  | mntLockoutEnd
  /-- DIE_OVERTEMP (R485) -/
  | dieOvertemp
  /-- TWIN_SEARCH_END (R453) -/
  | twinSearchEnd
  /-- TIME_SOURCE_SETTLED (R444) -/
  | timeSourceSettled
  /-- CONFIG_SWITCH_INSTANT (R450) -/
  | configSwitchInstant
  /-- RICK_FORMED (R457) -/
  | rickFormed
  /-- RICK_POLL (R60) -/
  | rickPoll
  /-- COMMISSION (R459) -/
  | commission
  /-- COMMISSION_DONE (R460) -/
  | commissionDone
  /-- COMMISSION_ARM_EXPIRY (R459) -/
  | commissionArmExpiry
  /-- SAFETY_CELL_POWER_LOST (R494) -/
  | safetyCellPowerLost
  /-- SAFETY_CELL_POWER_BACK (R295) -/
  | safetyCellPowerBack
  /-- SV_RESTART_DONE (R22) -/
  | svRestartDone
  /-- VM_HIGH (R342) -/
  | vmHigh
  /-- VM_LOW_CLEAR (R342) -/
  | vmLowClear
  /-- BUS_MASTER_DISABLE (R496) -/
  | busMasterDisable
  /-- MNT_CABLE_ATTACHED (R441) -/
  | mntCableAttached
  /-- SUPERVISION_FRAME_SEND (R198) -/
  | supervisionFrameSend
  /-- SLEW_DONE (R166) -/
  | slewDone
deriving DecidableEq, Repr

end Sys2Proof
end

