-- ==== Sys2Proof/Decode.lean ====
section
/-! DEFINITION. Decode.lean: the command that a word of the opcode table spells. No row of spec/opcode_table.json gives bits
(the commands of this block are operations and events, not words), so no word spells one. -/
namespace Sys2Proof

/-- The command of a word by the table's bits: none, for want of a row that gives bits. -/
def decodeTableWord (_nbits _w : Nat) : Option Instr := none

end Sys2Proof
end

