-- ==== Sys2Proof/Config.lean ====
section
/-! DEFINITION. Config.lean: the values the spec leaves open. Each is an opaque constant applied to the model's counter of
free values, so nothing is known of it. -/
namespace Sys2Proof.Config

/-- Where inside its station tick an event is detected, in ns (14 R413 TIME; log 4). -/
opaque subTickNs : Nat → Nat

/-- Which way the position count of a moving axis is rounded (11 R330 gives no fixed-point widths; log 10). -/
opaque profileRound : Nat → Bool

/-- The rate in ns/s at which a phase correction is applied; 06 R166 bounds it by 10 000 (log 13). -/
opaque slewRate : Nat → Nat

/-- How fast a clock moves from the mirrored to its own position after promotion (06 R180 bounds the time; log 14). -/
opaque angleSettle : Nat → Nat

/-- NEXT_T0 of an angle-locked task in TAI ns: its next T0 hangs on the shaft (14 R407; log 20). -/
opaque nextT0 : Nat → Nat

/-- CODE and DETAIL of a TX_TIMESTAMP event entry (14 R413 names none; log 16). -/
opaque stampCode : Nat → Nat
opaque stampDetail : Nat → BitVec 64

/-- The session key that HKDF-SHA-256 derives from a twin pair key and the random values of slots A and B (04 R102; log 89). -/
opaque sessionKey : Nat → BitVec 128 → BitVec 128 → BitVec 256

/-- The session key that HKDF-SHA-256 derives from the key of an RX unit, its serial number and position and the random values of
both sides, and the AES-256-GCM tag of a frame to it (16 R456; log 99). -/
opaque rickKey : Nat → BitVec 64 → Nat → BitVec 128 → BitVec 128 → BitVec 256
opaque rickTag : BitVec 256 → BitVec 96 → BitVec 128

/-- The AES-256-GCM tag of a frame by key, nonce and the payload that MSG_SEQ names, and the length of that payload
(04 R102, R103; log 89). -/
opaque gcmTag : BitVec 256 → BitVec 96 → BitVec 32 → BitVec 128
opaque payloadLen : BitVec 32 → Nat

end Sys2Proof.Config
end

