-- ==== Sys2Proof/Machine/Bits.lean ====
section
/-! DEFINITION. Machine/Bits.lean: bit fields, byte order (00 R7), saturating counts and the cyclic redundancy checks. -/
namespace Sys2Proof.Bits

/-- Bit `i` of a word. -/
def bit (w : Word) (i : Nat) : Bool := w.getLsbD i

/-- The word with bit `i` set. -/
def setBit (w : Word) (i : Nat) : Word := w ||| (1#32 <<< i)

/-- The word with bit `i` cleared. -/
def clrBit (w : Word) (i : Nat) : Word := w &&& ~~~(1#32 <<< i)

/-- The word with bit `i` given. -/
def putBit (w : Word) (i : Nat) (b : Bool) : Word := if b then Bits.setBit w i else Bits.clrBit w i

/-- A Bool as bit `i` of a word. -/
def ofBool (b : Bool) (i : Nat) : Word := if b then 1#32 <<< i else 0#32

/-- A number as a field whose lowest bit is `i` (the caller keeps it in range). -/
def fld (n : Nat) (i : Nat) : Word := BitVec.ofNat 32 n <<< i

/-- The field of `n` bits whose lowest bit is `i`, as a number. -/
def get (w : Word) (i n : Nat) : Nat := (w.toNat / 2 ^ i) % 2 ^ n

/-- Saturating increment of a count of `n` bits. -/
def sat (n v k : Nat) : Nat := min (v + k) (2 ^ n - 1)

/-- Saturating increment of a 32-bit count. -/
def inc (w : Word) : Word := if w = 0xFFFFFFFF#32 then w else w + 1#32

/-- A 32-bit word in bytes, little-endian. -/
def bytes32 (w : Word) : List Byte :=
  [w.extractLsb' 0 8, w.extractLsb' 8 8, w.extractLsb' 16 8, w.extractLsb' 24 8]

/-- A 64-bit value in bytes, little-endian. -/
def bytes64 (d : DWord) : List Byte :=
  Bits.bytes32 (d.extractLsb' 0 32) ++ Bits.bytes32 (d.extractLsb' 32 32)

/-- A 16-bit value in bytes, little-endian. -/
def bytes16 (h : Half) : List Byte := [h.extractLsb' 0 8, h.extractLsb' 8 8]

/-- The number a little-endian list of bytes spells. -/
def leNat : List Byte → Nat
  | [] => 0
  | b :: bs => b.toNat + 256 * Bits.leNat bs

/-- `n` little-endian bytes of a number. -/
def natBytes : Nat → Nat → List Byte
  | 0, _ => []
  | n + 1, v => BitVec.ofNat 8 v :: Bits.natBytes n (v / 256)

/-- The number a little-endian field of `n` bytes at `off` spells; missing bytes read 0. -/
def leAt (bs : List Byte) (off n : Nat) : Nat := Bits.leNat ((bs.drop off).take n)

/-- The low and the high word of a 64-bit value. -/
def lo (d : DWord) : Word := d.extractLsb' 0 32
def hi (d : DWord) : Word := d.extractLsb' 32 32

/-- The signed value as a 32-bit word, saturating at the ends of the signed range. -/
def satS32 (i : Int) : Word :=
  if i < -2147483648 then 0x80000000#32 else if 2147483647 < i then 0x7FFFFFFF#32 else BitVec.ofInt 32 i

/-- One step of the reflected CRC-32C register (polynomial 0x1EDC6F41, reflected 0x82F63B78). -/
def crc32cStep (c : Word) : Word :=
  if c.getLsbD 0 then (c >>> 1) ^^^ 0x82F63B78#32 else c >>> 1

/-- `k` steps of the CRC-32C register. -/
def crc32cSteps : Nat → Word → Word
  | 0, c => c
  | k + 1, c => Bits.crc32cSteps k (Bits.crc32cStep c)

/-- CRC-32C of a list of bytes: initial value and final inversion all ones. -/
def crc32c (bs : List Byte) : Word :=
  ~~~(bs.foldl (fun c b => Bits.crc32cSteps 8 (c ^^^ b.setWidth 32)) 0xFFFFFFFF#32)

/-- One step of the CRC-64 register (ECMA-182 polynomial, not reflected). -/
def crc64Step (c : DWord) : DWord :=
  if c.getLsbD 63 then (c <<< 1) ^^^ 0x42F0E1EBA9EA3693#64 else c <<< 1

/-- `k` steps of the CRC-64 register. -/
def crc64Steps : Nat → DWord → DWord
  | 0, c => c
  | k + 1, c => Bits.crc64Steps k (Bits.crc64Step c)

/-- CRC-64 of a list of bytes: initial value and final inversion all ones (04 R117). -/
def crc64 (bs : List Byte) : DWord :=
  ~~~(bs.foldl (fun c b => Bits.crc64Steps 8 (c ^^^ BitVec.shiftLeft (b.setWidth 64) 56)) 0xFFFFFFFFFFFFFFFF#64)

end Sys2Proof.Bits
end

