-- ==== Sys2Proof/Machine/StAio.lean ====
section
/-! DEFINITION. Machine/StAio.lean: the state of the loop cells, the analogue channels, the grid-sense and the shaft
inputs (09 R257-R289). Currents are in nA. -/
namespace Sys2Proof.Machine

/-- The diagnostics of an analogue channel (09 R274). -/
inductive AioDiag where
  | failLow | failHigh | underRange | overRange | overCurrent | openLoop | compliance | sourceFault
  | readbackDiff | calFail | loopSupply | crossing
deriving DecidableEq, Repr

/-- The share mode of a source (09 R267). -/
inductive Share where
  | released | half | full | makeup
deriving DecidableEq, Repr

/-- A ramp of a source (09 R269). -/
inductive Ramp where
  | none | up | release
deriving DecidableEq, Repr

/-- The bands of an input (09 R264). -/
inductive AioBand where
  | failLow | under | measuring | above | failHigh | overCurrent
deriving DecidableEq, Repr

/-- An analogue channel with this module's source or loop-power feed. -/
structure AioCh where
  cfg       : Word := 0x01320000#32
  nextCfg   : Option Word := none
  engaged   : Bool := false
  share     : Share := .released
  ramp      : Ramp := .none
  cmd       : Nat := 0
  trim      : Int := 0
  target    : Int := 0
  own       : Int := 0              -- this module's source current as last measured
  iP        : Int := 0              -- the partner's current as last measured
  pe        : Bool := false         -- PARTNER_ENGAGED as the present share mode took it
  fresh     : Bool := false         -- a conversion has completed since reset
  raw       : Int := 0              -- the newest complete result
  since     : List Int := []        -- results completed since the previous T0 of the task
  lastGood  : Int := 0
  band      : AioBand := .measuring
  active    : List AioDiag := []
  lastDiag  : Option AioDiag := none
  srcFault  : Bool := false         -- the disconnect switch stays open until restart (R270)
  feedOpen  : Bool := false         -- loop-power feed opened by OVER_CURRENT (R265)
  inCompl   : Bool := false
  rampAtT0  : Bool := false         -- ramps at the next T0 of the owning task (R261)
  cal       : Bool := false         -- in this module's calibration window
  offset    : Int := 0              -- coefficients of the last pass
  gain      : Int := 0
  calFails  : Nat := 0
deriving DecidableEq, Repr

/-- The supply state of a loop cell (09 R261). -/
inductive LoopSupply where
  | normal | low | lost
deriving DecidableEq, Repr

/-- A loop cell. -/
structure LoopCell where
  supply     : LoopSupply := .lost
  safe       : Bool := true
  fault      : Bool := false
  laplus     : Nat := 0
  current    : Nat := 0
  crcCnt     : Word := 0#32
  done       : Nat := 0
  deferred   : Nat := 0
  failed     : Nat := 0
  seqDown    : Nat := 0
  seqUp      : Nat := 0
  engage     : Bool := false
  partnerEng : Bool := false
deriving DecidableEq, Repr

/-- A grid-sense input (09 R282, R283) with its mains tracker (06 R175). -/
structure GridIn where
  valid     : Bool := false
  saturated : Bool := false
  locked    : Bool := false
  inst      : Int := 0
  rms       : Nat := 0
  freq      : Nat := 0
deriving DecidableEq, Repr

/-- A shaft input (09 R284-R287). -/
structure ShaftIn where
  cfg       : Word := 0#32
  valid     : Bool := false
  a         : Bool := false
  b         : Bool := false
  z         : Bool := false
  lineFault : Bool := false
  quadErr   : Bool := false        -- since the previous T0
  encSupply : Bool := false
  count     : Word := 0#32
  quadCnt   : Word := 0#32
deriving DecidableEq, Repr

/-- The analogue block. -/
structure Aio where
  ch        : Tbl AioCh := []
  cell      : Tbl LoopCell := []
  gs        : Tbl GridIn := []
  sh        : Tbl ShaftIn := []
  calCfg    : Word := 0x8000000A#32
  window    : Bool := false
  calCh     : Nat := 0             -- channel in the window, or the next one offered
  rotations : Nat := 0
  lastStart : Option Nat := none   -- TAI ns of the start of the previous window
deriving DecidableEq, Repr

end Sys2Proof.Machine
end

