-- ==== Sys2Proof/Machine/Tbl.lean ====
section
/-! DEFINITION. Machine/Tbl.lean: reading, writing and checking a sparse table. -/
namespace Sys2Proof.Tbl

/-- The value at a key; an unlisted key reads as `d`. -/
def get {α : Type} (d : α) : Tbl α → Nat → α
  | [], _ => d
  | (k, v) :: t, i => if k = i then v else Tbl.get d t i

/-- Put an entry where the keys stay rising. -/
def insert {α : Type} (k : Nat) (v : α) : Tbl α → Tbl α
  | [] => [(k, v)]
  | (j, w) :: t => if k < j then (k, v) :: (j, w) :: t else (j, w) :: Tbl.insert k v t

/-- Take a key out of the table. -/
def erase {α : Type} (t : Tbl α) (k : Nat) : Tbl α := t.filter (fun e => e.1 != k)

/-- Write a value at a key, keeping the canonical form: the default value is not listed. -/
def set {α : Type} [DecidableEq α] (d : α) (t : Tbl α) (k : Nat) (v : α) : Tbl α :=
  if v = d then Tbl.erase t k else Tbl.insert k v (Tbl.erase t k)

/-- Change the value at a key. -/
def mod {α : Type} [DecidableEq α] (d : α) (t : Tbl α) (k : Nat) (f : α → α) : Tbl α :=
  Tbl.set d t k (f (Tbl.get d t k))

/-- Write consecutive keys from `k` on (the bytes of a burst). -/
def setList {α : Type} [DecidableEq α] (d : α) : Tbl α → Nat → List α → Tbl α
  | t, _, [] => t
  | t, k, v :: vs => Tbl.setList d (Tbl.set d t k v) (k + 1) vs

/-- Write a list of (key, value) pairs in order. -/
def setAll {α : Type} [DecidableEq α] (d : α) : Tbl α → List (Nat × α) → Tbl α
  | t, [] => t
  | t, (k, v) :: es => Tbl.setAll d (Tbl.set d t k v) es

/-- Read `n` consecutive keys from `k` on. -/
def getList {α : Type} (d : α) (t : Tbl α) (k : Nat) : Nat → List α
  | 0 => []
  | n + 1 => Tbl.get d t k :: Tbl.getList d t (k + 1) n

/-- The canonical form: keys strictly rising, no default value listed. -/
def wf {α : Type} [DecidableEq α] (d : α) : Tbl α → Bool
  | [] => true
  | [(_, v)] => v != d
  | (k, v) :: (j, w) :: t => k < j && v != d && Tbl.wf d ((j, w) :: t)

/-- Apply a function to each listed value, dropping what becomes the default. -/
def map {α : Type} [DecidableEq α] (d : α) (f : α → α) (t : Tbl α) : Tbl α :=
  (List.map (fun (e : Nat × α) => (e.1, f e.2)) t).filter (fun e => e.2 != d)

/-- Apply a function of the key and the value to every key from `k` on, `n` of them (listed or not). -/
def mapRange {α : Type} [DecidableEq α] (d : α) (f : Nat → α → α) : Tbl α → Nat → Nat → Tbl α
  | t, _, 0 => t
  | t, k, n + 1 => Tbl.mapRange d f (Tbl.set d t k (f k (Tbl.get d t k))) (k + 1) n

end Sys2Proof.Tbl
end

