-- ==== Sys2Proof/Machine/ViewAio.lean ====
section
/-! DEFINITION. Machine/ViewAio.lean: reading the analogue channels, grid-sense and shaft inputs: quality, records,
status words and the registers of the AIO block (09 R274, R275, R283, R287, R289). -/
namespace Sys2Proof.Machine

def Aio.getCh (d : Aio) (n : Nat) : AioCh := Tbl.get {} d.ch n
def Aio.setCh (d : Aio) (n : Nat) (c : AioCh) : Aio := { d with ch := Tbl.set {} d.ch n c }
def Aio.getCell (d : Aio) (c : Nat) : LoopCell := Tbl.get {} d.cell c
def Aio.setCell (d : Aio) (c : Nat) (x : LoopCell) : Aio := { d with cell := Tbl.set {} d.cell c x }
def Aio.getGs (d : Aio) (g : Nat) : GridIn := Tbl.get {} d.gs g
def Aio.setGs (d : Aio) (g : Nat) (x : GridIn) : Aio := { d with gs := Tbl.set {} d.gs g x }
def Aio.getSh (d : Aio) (n : Nat) : ShaftIn := Tbl.get {} d.sh n
def Aio.setSh (d : Aio) (n : Nat) (x : ShaftIn) : Aio := { d with sh := Tbl.set {} d.sh n x }

/-- The cell of a channel (09 R257). -/
def Aio.cellOf (d : Aio) (n : Nat) : LoopCell := d.getCell (n / 16)

def AioCh.mode (c : AioCh) : Nat := Bits.get c.cfg 29 3
def AioCh.isOutput (c : AioCh) : Bool := c.mode == 3
def AioCh.isLoop (c : AioCh) : Bool := c.mode == 2
def AioCh.isInput (c : AioCh) : Bool := c.mode == 1 || c.mode == 2
def AioCh.ne43 (c : AioCh) : Bool := Bits.bit c.cfg 28
def AioCh.safeCode (c : AioCh) : Nat := Bits.get c.cfg 26 2
def AioCh.average (c : AioCh) : Bool := Bits.bit c.cfg 25
def AioCh.calEn (c : AioCh) : Bool := Bits.bit c.cfg 24

def AioDiag.code : AioDiag → Nat
  | .failLow => 1 | .failHigh => 2 | .underRange => 3 | .overRange => 4 | .overCurrent => 5 | .openLoop => 6
  | .compliance => 7 | .sourceFault => 8 | .readbackDiff => 9 | .calFail => 10 | .loopSupply => 11 | .crossing => 12

/-- The bit of AIO_EVENT that a diagnostic sets. -/
def AioDiag.bit : AioDiag → Nat
  | .failLow => 0 | .failHigh => 1 | .underRange => 2 | .overRange => 2 | .overCurrent => 3 | .openLoop => 4
  | .compliance => 5 | .sourceFault => 6 | .readbackDiff => 8 | .calFail => 9 | .loopSupply => 12 | .crossing => 14

/-- The quality that a diagnostic gives (09 *Analogue diagnostic codes*): 0 GOOD, 1 UNCERTAIN, 2 BAD. -/
def AioDiag.quality : AioDiag → Nat
  | .failLow | .failHigh | .overCurrent | .loopSupply | .crossing => 2
  | .underRange | .overRange | .compliance | .readbackDiff | .calFail => 1
  | .openLoop | .sourceFault => 0

/-- The order in which DIAG shows active diagnostics (09 R274). -/
def AioDiag.order : List AioDiag :=
  [.crossing, .loopSupply, .sourceFault, .overCurrent, .openLoop, .compliance, .failHigh, .failLow, .readbackDiff,
   .calFail, .overRange, .underRange]

/-- The DIAG field (09 R274). -/
def AioCh.diag (c : AioCh) : Nat :=
  match AioDiag.order.find? (fun d => c.active.contains d) with
  | some d => d.code
  | none => 0

/-- The worst quality among the active diagnostics (09 R274); UNCERTAIN in a calibration window (R279); BAD before the
first conversion and in the crossing safe state. -/
def Aio.quality (d : Aio) (n : Nat) : Nat :=
  let c := d.getCh n
  if !c.fresh || (d.cellOf n).safe then 2
  else c.active.foldl (fun q x => max q x.quality) (if c.cal then 1 else 0)

/-- VALUE: held from the last GOOD sample while the quality is BAD (09 R274, 02 R44). -/
def Aio.value (d : Aio) (n : Nat) : Int :=
  if d.quality n = 2 then (d.getCh n).lastGood else (d.getCh n).raw

def Share.code : Share → Nat
  | .released => 0 | .half => 1 | .full => 2 | .makeup => 3

/-- AIO_CHn_STATUS. -/
def Aio.status (d : Aio) (n : Nat) : Word :=
  let c := d.getCh n
  Bits.fld (d.quality n) 30 ||| Bits.fld c.diag 26
    ||| Bits.fld (match c.lastDiag with | some x => x.code | none => 0) 22
    ||| Bits.ofBool c.cal 21 ||| Bits.ofBool c.inCompl 20 ||| Bits.fld c.share.code 18
    ||| (if c.isOutput then Bits.fld ((c.own / 1000).toNat % 65536) 0 else 0#32)

/-- A signed number as a 32-bit word in two's complement. -/
def s32 (i : Int) : Word := BitVec.ofInt 32 i

/-- The value that T0 latches (09 R263): the newest result, or the mean of the results since the previous T0. -/
def Aio.latched (d : Aio) (n : Nat) : Int :=
  let c := d.getCh n
  if d.quality n = 2 then c.lastGood
  else if c.average && c.isInput && !c.since.isEmpty then (c.since.foldl (· + ·) 0).tdiv c.since.length
  else c.raw

/-- The 8-byte analogue channel record (09 R275). -/
def Aio.record (d : Aio) (n : Nat) : List Byte :=
  let c := d.getCh n
  [BitVec.ofNat 8 (d.quality n * 64 + c.share.code * 16 + c.diag), 0#8, 0#8, 0#8] ++ Bits.bytes32 (s32 (d.latched n))

/-- QUALITY of a grid-sense input (09 R283). -/
def GridIn.quality (g : GridIn) : Nat :=
  if !g.valid || g.saturated then 2 else if g.locked then 0 else 1

/-- The 16-byte grid-sense record (09 R283). -/
def GridIn.record (g : GridIn) : List Byte :=
  [BitVec.ofNat 8 (g.quality * 64 + (if g.saturated then 32 else 0) + (if g.locked then 16 else 0)), 0#8, 0#8, 0#8]
    ++ Bits.bytes32 (s32 g.inst) ++ Bits.natBytes 4 g.rms ++ Bits.natBytes 4 (if g.locked then g.freq else 0)

/-- QUALITY of a shaft input (09 R287). -/
def ShaftIn.quality (x : ShaftIn) : Nat :=
  if !x.valid || x.lineFault || x.encSupply then 2 else if x.quadErr then 1 else 0

/-- The 8-byte shaft record (09 R287). -/
def ShaftIn.record (x : ShaftIn) : List Byte :=
  [BitVec.ofNat 8 (x.quality * 64 + (if x.a then 32 else 0) + (if x.b then 16 else 0) + (if x.z then 8 else 0)),
   BitVec.ofNat 8 ((if x.lineFault then 128 else 0) + (if x.quadErr then 64 else 0) + (if x.encSupply then 32 else 0)),
   0#8, 0#8] ++ Bits.bytes32 x.count

def LoopSupply.code : LoopSupply → Nat
  | .normal => 0 | .low => 1 | .lost => 2

/-- AIO_LCc_STATUS. -/
def Aio.cellStatus (d : Aio) (c : Nat) : Word :=
  let x := d.getCell c
  Bits.fld x.supply.code 30 ||| Bits.ofBool x.safe 29 ||| Bits.ofBool x.fault 28

/-- AIO_GSg_STATUS. -/
def GridIn.status (g : GridIn) : Word :=
  Bits.fld g.quality 30 ||| Bits.ofBool g.saturated 29 ||| Bits.ofBool g.locked 28
    ||| Bits.fld (if g.locked then g.freq % 131072 else 0) 0

/-- AIO_SHs_STATUS. -/
def ShaftIn.status (x : ShaftIn) : Word :=
  Bits.fld x.quality 30 ||| Bits.ofBool x.lineFault 29 ||| Bits.ofBool x.encSupply 28
    ||| Bits.ofBool x.a 27 ||| Bits.ofBool x.b 26 ||| Bits.ofBool x.z 25

/-- The registers of the AIO block by offset in the block (09 R289). -/
def Aio.reg (d : Aio) (engaged partner : Bool) (o : Nat) : Word :=
  if o = 0 then
    Bits.ofBool engaged 31 ||| Bits.ofBool partner 30
      ||| Bits.ofBool (d.getCell 0).safe 26 ||| Bits.ofBool (d.getCell 1).safe 27
      ||| Bits.ofBool (d.getCell 0).fault 24 ||| Bits.ofBool (d.getCell 1).fault 25
  else if o = 0xC then d.calCfg
  else if o = 0x10 then Bits.ofBool d.window 31 ||| Bits.fld d.calCh 16 ||| Bits.fld d.rotations 0
  else if 0x20 ≤ o ∧ o < 0x40 then
    let x := d.getCell ((o - 0x20) / 16)
    match (o - 0x20) % 16 with
    | 0 => d.cellStatus ((o - 0x20) / 16)
    | 4 => Bits.fld x.laplus 16 ||| Bits.fld x.current 0
    | 8 => x.crcCnt
    | 12 => Bits.fld x.done 16 ||| Bits.fld x.deferred 8 ||| Bits.fld x.failed 0
    | _ => 0#32
  else if 0x40 ≤ o ∧ o < 0x60 then
    let g := d.getGs ((o - 0x40) / 8)
    if (o - 0x40) % 8 = 0 then g.status else BitVec.ofNat 32 g.rms
  else if 0x60 ≤ o ∧ o < 0x80 then
    let x := d.getSh ((o - 0x60) / 16)
    match (o - 0x60) % 16 with
    | 0 => x.cfg
    | 4 => x.status
    | 8 => x.count
    | 12 => x.quadCnt
    | _ => 0#32
  else if 0x100 ≤ o ∧ o < 0x180 then (d.getCh ((o - 0x100) / 4)).cfg
  else if 0x180 ≤ o ∧ o < 0x200 then d.status ((o - 0x180) / 4)
  else if 0x200 ≤ o ∧ o < 0x280 then s32 (d.value ((o - 0x200) / 4))
  else if 0x280 ≤ o ∧ o < 0x300 then BitVec.ofNat 32 (d.getCh ((o - 0x280) / 4)).cmd
  else 0#32

end Sys2Proof.Machine
end

