-- ==== Sys2Proof/Machine/ViewAx.lean ====
section
/-! DEFINITION. Machine/ViewAx.lean: reading the axes: MSI, the status words, the axis record, the check word and the
registers of the AX block (11 R326, R345, R347, R349). -/
namespace Sys2Proof.Machine

def AxBlk.get (d : AxBlk) (a : Nat) : Axis := Tbl.get {} d.ax a
def AxBlk.set (d : AxBlk) (a : Nat) (x : Axis) : AxBlk := { d with ax := Tbl.set {} d.ax a x }

/-- MSI is the position modulo 1024 (11 R326). -/
def Axis.msi (x : Axis) : Nat := (x.pos % 1024).toNat

/-- MSI on the grid that MICROSTEP selects: what the bridges take (11 R326). -/
def Axis.bridgeMsi (x : Axis) : Nat :=
  let g := 2 ^ (8 - Bits.get x.cfg.config 28 4)
  x.msi / g * g

/-- The velocity in units/s (2⁻⁸ full step/s). -/
def Axis.velocity (x : Axis) : Int := x.v.tdiv 1000000

/-- The signed 64-bit value of a position. -/
def posWord (p : Int) : DWord := BitVec.ofInt 64 p

def AxState.code : AxState → Nat
  | .disabled => 0 | .idle => 1 | .moving => 2 | .homing => 3 | .stopping => 4 | .faulted => 5

/-- The fault cause that the axis shows: a failed gated bridge shows BRIDGE_TEST. -/
def Axis.cause (x : Axis) : Nat := if x.fault = 0 ∧ x.bridgeBad then 7 else x.fault

/-- AX_AXa_STATUS. -/
def Axis.status (x : Axis) : Word :=
  Bits.fld x.state.code 29 ||| Bits.ofBool x.homed 28 ||| Bits.ofBool x.unverified 27 ||| Bits.ofBool x.strong 26
    ||| Bits.ofBool x.decelPending 25 ||| Bits.ofBool x.limn 24 ||| Bits.ofBool x.limp 23 ||| Bits.ofBool x.home 22
    ||| Bits.fld x.queue.length 17 ||| Bits.fld x.result 12 ||| Bits.fld x.cause 8

/-- QUALITY of an axis record (11 R347). -/
def Axis.quality (x : Axis) : Nat := if x.state = .faulted then 2 else if x.unverified then 1 else 0

/-- The 32-byte axis record (11 R347). -/
def Axis.record (x : Axis) : List Byte :=
  [BitVec.ofNat 8 (x.quality * 64 + x.state.code * 8 + x.homed.toNat * 4 + x.unverified.toNat * 2 + x.strong.toNat),
   BitVec.ofNat 8 (x.limn.toNat * 128 + x.limp.toNat * 64 + x.home.toNat * 32 + x.decelPending.toNat * 16 + x.cause),
   BitVec.ofNat 8 x.queue.length, BitVec.ofNat 8 (x.result * 16)]
    ++ Bits.bytes32 x.lastSeq ++ Bits.bytes64 (posWord x.pos) ++ Bits.bytes32 (BitVec.ofInt 32 x.velocity)
    ++ Bits.natBytes 2 x.msi ++ [0#8, 0#8] ++ Bits.bytes64 (posWord x.capture)

/-- The bytes of one axis under the check word (11 R345). -/
def Axis.checkBytes (x : Axis) : List Byte :=
  Bits.bytes64 (posWord x.pos) ++ Bits.natBytes 2 x.msi ++ [BitVec.ofNat 8 x.state.code, BitVec.ofNat 8 x.queue.length]
    ++ Bits.bytes32 x.lastSeq ++ Bits.bytes32 (BitVec.ofInt 32 x.velocity)

/-- The axis state check word over the present fields (11 R345). -/
def AxBlk.checkNow (d : AxBlk) : Word :=
  Bits.crc32c ((d.get 0).checkBytes ++ (d.get 1).checkBytes ++ (d.get 2).checkBytes ++ (d.get 3).checkBytes)

def VmState.code : VmState → Nat
  | .normal => 0 | .high => 1 | .low => 2 | .above => 3

/-- Four flags of the axes in a field. -/
def AxBlk.flags (d : AxBlk) (i : Nat) (f : Axis → Bool) : Word :=
  Bits.ofBool (f (d.get 0)) i ||| Bits.ofBool (f (d.get 1)) (i + 1) ||| Bits.ofBool (f (d.get 2)) (i + 2)
    ||| Bits.ofBool (f (d.get 3)) (i + 3)

/-- AX_STATUS. -/
def AxBlk.status (d : AxBlk) (driving : Bool) : Word :=
  Bits.ofBool driving 31 ||| Bits.fld d.vm.code 29 ||| d.flags 12 (fun x => x.state == .faulted)
    ||| d.flags 8 (fun x => x.state == .moving || x.state == .homing || x.state == .stopping)
    ||| d.flags 4 (fun x => x.homed) ||| d.flags 0 (fun x => x.unverified)

/-- The registers of one axis from 0x100 + 0x40 × a. -/
def Axis.reg (x : Axis) (o : Nat) : Word :=
  match o with
  | 0x00 => x.status
  | 0x04 => x.cfg.config
  | 0x08 => x.cfg.current
  | 0x0C => x.cfg.quiet
  | 0x10 => x.cfg.stall
  | 0x14 => x.cfg.eDecel
  | 0x18 => x.cfg.junction
  | 0x1C => Bits.lo (posWord x.pos)
  | 0x20 => Bits.hi (posWord x.pos)
  | 0x24 => BitVec.ofInt 32 x.velocity
  | 0x28 => BitVec.ofNat 32 x.msi
  | 0x2C => x.lastSeq
  | 0x30 => Bits.lo (posWord x.capture)
  | 0x34 => Bits.hi (posWord x.capture)
  | 0x38 => Bits.fld x.stalls 16 ||| Bits.fld x.limitStops 0
  | _ => 0#32

/-- The registers of the AX block by offset in the block, but for AX_EVENT and AX_EVENT_EN (11 R349). -/
def AxBlk.reg (d : AxBlk) (driving : Bool) (o : Nat) : Word :=
  if o = 0 then d.status driving
  else if o = 0xC then BitVec.ofNat 32 d.mv
  else if o = 0x10 then d.check
  else if 0x100 ≤ o ∧ o < 0x200 then (d.get ((o - 0x100) / 0x40)).reg ((o - 0x100) % 0x40)
  else if 0x200 ≤ o ∧ o < 0x240 then
    let c := (d.get ((o - 0x200) / 16)).cfg
    match (o - 0x200) % 16 with
    | 0 => Bits.lo c.softMin
    | 4 => Bits.hi c.softMin
    | 8 => Bits.lo c.softMax
    | 12 => Bits.hi c.softMax
    | _ => 0#32
  else 0#32

end Sys2Proof.Machine
end

