-- ==== Sys2Proof/Machine/StDio.lean ====
section
/-! DEFINITION. Machine/StDio.lean: the state of the digital field cells and channels (08 R224-R256). -/
namespace Sys2Proof.Machine

/-- The diagnostics of a digital channel (08 R239, R240). -/
inductive DioDiag where
  | overload | cellOverload | overtemp | openWire | shortSupply | stuckOn | cross | shareLow
  | pulseFail | wireBreak | inputShort | undervoltage | supplyLost | crossing
deriving DecidableEq, Repr

/-- A test pulse in progress (08 R246). -/
inductive PulseKind where
  | dark | bright
deriving DecidableEq, Repr

/-- What a stage waits for before it takes an ON again (08 R251, R252). -/
inductive Restore where
  | none        -- nothing: it follows its commands
  | resume      -- the first T0 of the owning task after the tick (R252 RESUME-COMMITTED, SAG exit)
  | stayOff     -- an OFF applied at a T0 after recovery (R252 STAY-OFF)
deriving DecidableEq, Repr

/-- The supply state of a field cell (08 R250). -/
inductive CellSupply where
  | normal | warn | sag | lost | recovering
deriving DecidableEq, Repr

/-- A digital channel with this module's stage. -/
structure DioCh where
  cfg       : Word := 0x00028000#32     -- DIO_CHn_CONFIG in force
  nextCfg   : Option Word := none       -- the configuration that takes effect at the owning task's next T0 (R255)
  engaged   : Bool := false
  cmd       : Bool := false             -- command applied
  force     : Bool := false             -- command in force at the stage after deferral and safe state
  isolated  : Bool := false             -- STUCK_ON: the disconnect switch is the working switch (R243)
  ovlOpen   : Bool := false             -- opened by OVERLOAD or CELL_OVERLOAD
  exhausted : Bool := false             -- 10 failed retries: open until an ON after an OFF (R242)
  offSeen   : Bool := false             -- an OFF has been applied since the retries were exhausted
  tempOpen  : Bool := false             -- opened by OVERTEMP
  retry     : Nat := 0
  pulse     : Option PulseKind := none
  pulseTick : Nat := 0                  -- station tick of its start
  again     : Option Nat := none        -- TAI second in which a preempted pulse is made up (R249)
  deferred  : Bool := false
  restore   : Restore := .none
  exitTick  : Nat := 0                  -- station tick of the exit from SAG or RECOVERING
  value     : Bool := false
  band      : Option WbBand := none     -- band state of an INPUT_WB channel
  active    : List DioDiag := []
  lastDiag  : Option DioDiag := none
  partner   : Nat := 0xFF               -- CROSS_PARTNER
deriving DecidableEq, Repr

/-- A field cell. -/
structure DioCell where
  supply     : CellSupply := .lost
  safe       : Bool := true             -- crossing safe state
  recovTick  : Nat := 0                 -- station tick of the entry to RECOVERING
  overload   : Bool := false            -- CELL_OVERLOAD active
  supplyLost : Bool := false            -- the W1C field SUPPLY_LOST
  cfg        : Word := 0x0005000A#32
  lplus      : Nat := 0                 -- mV
  current    : Nat := 0                 -- mA
  band0      : Word := 0x0258015E#32
  band1      : Word := 0x08980640#32
  band2      : Word := 0x1F401770#32
  crcCnt     : Word := 0#32
  preempted  : Nat := 0
  failed     : Nat := 0
  seqDown    : Nat := 0                 -- sequence number of the last valid frame received by the cell
  seqUp      : Nat := 0                 -- and by the module
  engage     : Bool := false            -- flags of the last valid frame the cell received
  partnerEng : Bool := false
  sense      : Bool := false
deriving DecidableEq, Repr

/-- The digital cells and channels. -/
structure Dio where
  ch   : Tbl DioCh := []
  cell : Tbl DioCell := []
deriving DecidableEq, Repr

end Sys2Proof.Machine
end

