-- ==== Sys2Proof/Machine/ViewDio.lean ====
section
/-! DEFINITION. Machine/ViewDio.lean: reading the digital channels: fields of the configuration, stage states, quality,
the status words and the registers of the DIO block (08 R235, R240, R253, R256). -/
namespace Sys2Proof.Machine

def Dio.getCh (d : Dio) (n : Nat) : DioCh := Tbl.get {} d.ch n
def Dio.setCh (d : Dio) (n : Nat) (c : DioCh) : Dio := { d with ch := Tbl.set {} d.ch n c }
def Dio.getCell (d : Dio) (c : Nat) : DioCell := Tbl.get {} d.cell c
def Dio.setCell (d : Dio) (c : Nat) (x : DioCell) : Dio := { d with cell := Tbl.set {} d.cell c x }

/-- The cell of a channel (08 R224). -/
def Dio.cellOf (d : Dio) (n : Nat) : DioCell := d.getCell (n / 16)

def DioCh.mode (c : DioCh) : Nat := Bits.get c.cfg 29 3
def DioCh.isOutput (c : DioCh) : Bool := c.mode == 4
def DioCh.isInput (c : DioCh) : Bool := c.mode == 1 || c.mode == 2
def DioCh.isWb (c : DioCh) : Bool := c.mode == 3
def DioCh.safeCode (c : DioCh) : Nat := Bits.get c.cfg 27 2
def DioCh.staysOff (c : DioCh) : Bool := Bits.bit c.cfg 26
def DioCh.darkEn (c : DioCh) : Bool := Bits.bit c.cfg 25
def DioCh.brightEn (c : DioCh) : Bool := Bits.bit c.cfg 24
def DioCh.openOffEn (c : DioCh) : Bool := Bits.bit c.cfg 23
def DioCh.captureEn (c : DioCh) : Bool := Bits.bit c.cfg 22
def DioCh.captureClock (c : DioCh) : Nat := Bits.get c.cfg 20 2
def DioCh.testInterval (c : DioCh) : Nat := Bits.get c.cfg 14 6

/-- The length of a test pulse in station ticks (08 R246). -/
def DioCh.pulseTicks (c : DioCh) (k : PulseKind) : Nat :=
  match k with
  | .dark => 10 * (if Bits.get c.cfg 4 4 = 0 then 3 else Bits.get c.cfg 4 4)
  | .bright => 10 * (if Bits.get c.cfg 0 3 = 0 then 2 else Bits.get c.cfg 0 3)

/-- The cell's supply carries its stages (08 R250). -/
def CellSupply.live : CellSupply → Bool
  | .normal | .warn | .sag => true
  | .lost | .recovering => false

/-- The cell's supply is fit for overload and open-wire evaluation and for test pulses (08 R247, R250). -/
def CellSupply.good : CellSupply → Bool
  | .normal | .warn => true
  | .sag | .lost | .recovering => false

/-- The stage drives the terminal (08 R235): engaged, commanded, not opened by a protection; a dark pulse opens it and a
bright pulse closes it. -/
def DioCh.drives (c : DioCh) : Bool :=
  c.engaged && c.isOutput && !c.ovlOpen && !c.tempOpen &&
    (match c.pulse with | none => c.force | some .dark => false | some .bright => true)

/-- The states of a stage (08 R235). -/
inductive StageState where
  | on | off | released | isolated (closed : Bool)
deriving DecidableEq, Repr

def DioCh.stage (c : DioCh) : StageState :=
  if !c.engaged then .released
  else if c.isolated then .isolated c.drives
  else if c.drives then .on else .off

def DioDiag.code : DioDiag → Nat
  | .overload => 1 | .cellOverload => 2 | .overtemp => 3 | .openWire => 4 | .shortSupply => 5 | .stuckOn => 6
  | .cross => 7 | .shareLow => 8 | .pulseFail => 9 | .wireBreak => 10 | .inputShort => 11 | .undervoltage => 12
  | .supplyLost => 13 | .crossing => 14

/-- The bit of DIO_EVENT that a diagnostic sets. -/
def DioDiag.bit : DioDiag → Nat
  | .overload => 0 | .cellOverload => 1 | .overtemp => 2 | .openWire => 3 | .shortSupply => 4 | .stuckOn => 5
  | .cross => 6 | .shareLow => 7 | .pulseFail => 8 | .wireBreak => 9 | .inputShort => 10 | .undervoltage => 12
  | .supplyLost => 13 | .crossing => 15

/-- The order in which DIAG shows active diagnostics (08 R240). -/
def DioDiag.order : List DioDiag :=
  [.crossing, .supplyLost, .undervoltage, .stuckOn, .shortSupply, .cross, .overtemp, .overload, .cellOverload,
   .inputShort, .wireBreak, .shareLow, .pulseFail, .openWire]

/-- The DIAG field (08 R240). -/
def DioCh.diag (c : DioCh) : Nat :=
  match DioDiag.order.find? (fun d => c.active.contains d) with
  | some d => d.code
  | none => 0

/-- QUALITY: 0b00 GOOD, 0b01 UNCERTAIN, 0b10 BAD (08 R253, 02 R44). -/
def Dio.quality (d : Dio) (n : Nat) : Nat :=
  let c := d.getCh n
  if !(d.cellOf n).supply.live || c.active.contains .crossing || c.active.contains .wireBreak
      || c.active.contains .inputShort then 2
  else if (d.cellOf n).supply = .sag then 1 else 0

/-- DIO_CHn_STATUS. -/
def Dio.status (d : Dio) (n : Nat) : Word :=
  let c := d.getCh n
  Bits.fld (d.quality n) 30 ||| Bits.ofBool c.value 29 ||| Bits.ofBool c.cmd 28 ||| Bits.ofBool c.engaged 27
    ||| Bits.ofBool c.pulse.isSome 26 ||| Bits.ofBool c.deferred 25 ||| Bits.ofBool c.isolated 24
    ||| Bits.fld c.diag 20 ||| Bits.fld (match c.lastDiag with | some x => x.code | none => 0) 16
    ||| Bits.fld c.partner 8 ||| Bits.fld c.retry 0

/-- The 2-byte digital channel record (08 R253). -/
def Dio.record (d : Dio) (n : Nat) : List Byte :=
  let c := d.getCh n
  Bits.natBytes 2 (d.quality n * 16384 + (if c.value then 8192 else 0)
    + (if c.cmd && c.isOutput then 4096 else 0) + c.diag * 256)

def CellSupply.code : CellSupply → Nat
  | .normal => 0 | .warn => 1 | .sag => 2 | .lost => 3 | .recovering => 4

/-- Is every stage of this module in the cell released? -/
def Dio.cellReleased (d : Dio) (c : Nat) : Bool :=
  (List.range 16).all (fun i => !(d.getCh (16 * c + i)).engaged)

/-- DIO_FCc_STATUS. -/
def Dio.cellStatus (d : Dio) (c : Nat) : Word :=
  let x := d.getCell c
  Bits.fld x.supply.code 29 ||| Bits.ofBool x.safe 28 ||| Bits.ofBool (d.cellReleased c) 27
    ||| Bits.ofBool x.overload 25 ||| Bits.ofBool x.supplyLost 24

/-- A word of one bit for each of 32 channels. -/
def bits32 (f : Nat → Bool) : Word :=
  (List.range 32).foldl (fun w b => w ||| Bits.ofBool (f b) b) 0#32

/-- The registers of the DIO block by offset in the block; the sense source, the engagement and the partner's
engagement are the twin unit's (08 R256). -/
def Dio.reg (d : Dio) (sense engaged partner : Bool) (o : Nat) : Word :=
  if o = 0 then
    Bits.ofBool sense 31 ||| Bits.ofBool engaged 30 ||| Bits.ofBool partner 29
      ||| (List.range 6).foldl (fun w c => w
        ||| Bits.ofBool (d.getCell c).safe (16 + c)
        ||| Bits.ofBool (!(d.getCell c).supply.good) (8 + c)
        ||| Bits.ofBool (!(d.getCell c).supply.live) c) 0#32
  else if 0x10 ≤ o ∧ o < 0x1C then bits32 (fun b => (d.getCh (32 * ((o - 0x10) / 4) + b)).value)
  else if 0x1C ≤ o ∧ o < 0x28 then bits32 (fun b => (d.getCh (32 * ((o - 0x1C) / 4) + b)).cmd)
  else if 0x28 ≤ o ∧ o < 0x34 then bits32 (fun b => (d.getCh (32 * ((o - 0x28) / 4) + b)).diag != 0)
  else if 0x40 ≤ o ∧ o < 0x100 then
    let c := (o - 0x40) / 0x20
    let x := d.getCell c
    match (o - 0x40) % 0x20 with
    | 0x00 => d.cellStatus c
    | 0x04 => x.cfg
    | 0x08 => Bits.fld x.lplus 16 ||| Bits.fld x.current 0
    | 0x0C => x.band0
    | 0x10 => x.band1
    | 0x14 => x.band2
    | 0x18 => x.crcCnt
    | 0x1C => Bits.fld x.preempted 16 ||| Bits.fld x.failed 0
    | _ => 0#32
  else if 0x100 ≤ o ∧ o < 0x280 then (d.getCh ((o - 0x100) / 4)).cfg
  else if 0x280 ≤ o ∧ o < 0x400 then d.status ((o - 0x280) / 4)
  else 0#32

end Sys2Proof.Machine
end

