-- ==== Sys2Proof/Machine/StNet.lean ====
section
/-! DEFINITION. Machine/StNet.lean: the state of the network unit: ports, stream contexts, PTP paths, timestamp queues
(07 R193-R223). -/
namespace Sys2Proof.Machine

/-- A frame accepted by a receive context. -/
structure RxRecord where
  seq     : Word := 0#32
  arrival : Nat := 0
  payload : List Byte := []
  any     : Bool := false
deriving DecidableEq, Repr

/-- A stream context (07 R201): the 32 configuration bytes and the state part. -/
structure StreamCtx where
  cfg       : List Byte := []
  nextCfg   : Option (List Byte) := none  -- takes effect at the owning task's next T0 (R222)
  seq       : Word := 0#32
  srcMac    : Nat := 0
  ddBase    : Half := 0#16
  ddMask    : Word := 0#32
  lastTime  : Nat := 0
  windowUse : Nat := 0
  winMs     : Nat := 0            -- the TAI millisecond of the window that WINDOW_USE counts
  launched  : Option Nat := none  -- transmit, PERIODIC: the T0 of the last launch
  dropCnt   : Nat := 0
  lateCnt   : Nat := 0
  ddOpen    : Bool := false       -- the duplicate window holds a number
  anySeq    : Bool := true        -- the next frame's SEQ is taken as newer
  payload   : List Byte := []     -- transmit: the payload applied at the last T0
  rx        : RxRecord := {}      -- receive: the newest accepted frame
  rxPrev    : RxRecord := {}      -- the newest one accepted before the station tick of that frame
  since     : Nat := 0            -- receive: the start of the station tick of the previous delivery, TAI ns
  wasGood   : Bool := false       -- the record was delivered GOOD at the last T0
deriving DecidableEq, Repr

/-- A transmit timestamp entry (07 R218). -/
structure TsEntry where
  sv     : Bool := false          -- an entry for a supervisor frame
  ctx    : Nat
  second : Bool
  id     : Half
  ns     : Nat
deriving DecidableEq, Repr

/-- A port. -/
structure NetPort where
  link    : Bool := false
  rx      : DWord := 0#64
  tx      : DWord := 0#64
  err     : Word := 0#32
  fwd     : Word := 0#32
  dup     : Word := 0#32
  downs   : Word := 0#32
  delay   : Nat := 0              -- in use
  newest  : Option Nat := none    -- last measured
  saved   : Nat := 0              -- the delay in use when the last quarantine began (07 R216)
  busy    : Nat := 0              -- when the last frame and its gap leave the wire, TAI ns
  lastL   : Option Nat := none    -- the launch time of the last scheduled frame
  before  : Nat := 0              -- until when the wire was busy before the frames of that launch time
  sameL   : List (Nat × Nat) := []  -- those frames: context and time on the wire
deriving DecidableEq, Repr

/-- What the network unit sends: `on` gives each port with the instant at which the frame starts there, TAI ns. -/
inductive NetOut where
  | stream (ctx : Nat) (on : List (Nat × Nat)) (redSeq : Option Half) (ttl : Option Nat) (header payload : List Byte)
  | forward (port start : Nat) (src : Nat) (redSeq : Half) (correction : Option Int)
  | supervision (on : List (Nat × Nat)) (redSeq : Option Half)
  | answer (on : List (Nat × Nat)) (redSeq : Option Half) (r : AddrReq)
  | membership (on : List (Nat × Nat)) (redSeq : Option Half) (group : Word)
  | delayReq (on : List (Nat × Nat)) (redSeq : Option Half) (peer : Bool)
  | modbus (on : List (Nat × Nat)) (redSeq : Option Half) (conn fn : Nat) (bytes : List Byte)
  | modbusError (on : List (Nat × Nat)) (redSeq : Option Half) (conn fn code : Nat)
  | reset (on : List (Nat × Nat)) (redSeq : Option Half) (conn : Nat)
deriving DecidableEq, Repr

/-- The network unit. -/
structure NetBlk where
  pairCfg    : Word := 0#32
  ptpCfg     : Word := 0x0000FD00#32
  macs       : Tbl Nat := []
  ips        : Tbl Word := []
  ports      : Tbl NetPort := []
  ctxs       : Tbl StreamCtx := []
  redSeq     : Tbl Half := []          -- redundancy sequence counter of each pair: the next number
  tsq        : Tbl (List TsEntry) := []
  tsOver     : Tbl Nat := []
  fwdSeen    : List (Nat × Nat × Half × Nat) := []  -- port, source, number and time of ring frames forwarded
  nodes      : List (Nat × Nat) := []  -- node table: source and time of its last supervision frame
  svSeen     : List (Nat × Nat × Half × Nat) := []  -- pair, source, number and time of frames taken for the supervisor
  toSv       : List (Nat × Nat × Nat) := []  -- the model's own log of frames handed to the supervisor: port, source, destination
  masters    : List Announce := []     -- foreign masters, at most 8
  reqNext    : Nat := 0                -- when the next delay request is due, TAI ns
  svId       : Half := 0#16            -- the supervisor's number for its next frame
  reported   : List (Nat × Word) := [] -- multicast groups reported on each port
  conns      : List Nat := []          -- Modbus/TCP connections, at most 8
  reroute    : Bool := false
  second     : Bool := false           -- the second port's path is primary
  missed0    : Nat := 3                -- sync intervals without Sync on each path
  missed1    : Nat := 3
  heard0     : Bool := false           -- the path has delivered Sync
  heard1     : Bool := false
  run0       : Nat := 0                -- consecutive intervals with Sync on the first path
  agree      : Nat := 0                -- consecutive intervals with both paths in agreement
  apart      : Nat := 0                -- consecutive intervals with the paths in disagreement while LOCKED
  diff       : Int := 0                -- second path's offset minus the primary's
  both       : Bool := false           -- both paths delivered at the last interval
  rerouted   : Bool := false           -- REROUTE has been set since the quarantine began
  frozen     : Bool := false
  due        : List (Nat × Nat) := []  -- launches due while the gate is closed: context, launch time (04 R133)
  nodeFault  : Tbl Bool := []          -- port pairs isolated by a network unit fault
  sent       : List NetOut := []       -- the model's own log of what was sent
deriving DecidableEq, Repr

end Sys2Proof.Machine
end

