-- ==== Sys2Proof/Machine/ViewNet.lean ====
section
/-! DEFINITION. Machine/ViewNet.lean: reading the network unit: the fields of a stream context, its record, the port pairs
and the registers of the NET block (07 R201, R208, R223). -/
namespace Sys2Proof.Machine

def NetBlk.ctx (d : NetBlk) (n : Nat) : StreamCtx := Tbl.get {} d.ctxs n
def NetBlk.setCtx (d : NetBlk) (n : Nat) (x : StreamCtx) : NetBlk := { d with ctxs := Tbl.set {} d.ctxs n x }
def NetBlk.port (d : NetBlk) (n : Nat) : NetPort := Tbl.get {} d.ports n
def NetBlk.setPort (d : NetBlk) (n : Nat) (x : NetPort) : NetBlk := { d with ports := Tbl.set {} d.ports n x }

/-- The mode of a pair: 0 INDEPENDENT, 1 PRP, 2 HSR. -/
def NetBlk.pairMode (d : NetBlk) (p : Nat) : Nat := Bits.get d.pairCfg (30 - 2 * p) 2
def NetBlk.redundant (d : NetBlk) (p : Nat) : Bool := d.pairMode p == 1 || d.pairMode p == 2
def NetBlk.ptpPair (d : NetBlk) : Nat := Bits.get d.pairCfg 25 1
def NetBlk.ptpPort (d : NetBlk) : Nat := Bits.get d.pairCfg 24 1

def StreamCtx.w0 (c : StreamCtx) : Word := BitVec.ofNat 32 (Bits.leAt c.cfg 0 4)
def StreamCtx.valid (c : StreamCtx) : Bool := Bits.bit c.w0 31
def StreamCtx.receive (c : StreamCtx) : Bool := Bits.bit c.w0 30
def StreamCtx.pair (c : StreamCtx) : Nat := Bits.get c.w0 29 1
def StreamCtx.portsCode (c : StreamCtx) : Nat := Bits.get c.w0 27 2
def StreamCtx.encap (c : StreamCtx) : Nat := Bits.get c.w0 25 2
def StreamCtx.slotLaunch (c : StreamCtx) : Bool := Bits.get c.w0 23 2 == 1
def StreamCtx.tsReq (c : StreamCtx) : Bool := Bits.bit c.w0 22
def StreamCtx.stopTx (c : StreamCtx) : Bool := Bits.bit c.w0 21
def StreamCtx.task (c : StreamCtx) : Nat := Bits.get c.w0 16 5
def StreamCtx.length (c : StreamCtx) : Nat := Bits.get c.w0 0 11
def StreamCtx.mac (c : StreamCtx) : Nat := Bits.leAt c.cfg 4 6
def StreamCtx.tagged (c : StreamCtx) : Bool := Bits.leAt c.cfg 10 2 / 4096 % 2 == 1
def StreamCtx.ip (c : StreamCtx) : Word := BitVec.ofNat 32 (Bits.leAt c.cfg 12 4)
def StreamCtx.portNo (c : StreamCtx) : Nat := Bits.leAt c.cfg 16 2
def StreamCtx.streamId (c : StreamCtx) : Nat := Bits.leAt c.cfg 18 2
def StreamCtx.offset (c : StreamCtx) : Nat := Bits.leAt c.cfg 20 4
def StreamCtx.every (c : StreamCtx) : Nat := Bits.leAt c.cfg 24 2
def StreamCtx.budget (c : StreamCtx) : Nat := Bits.leAt c.cfg 28 4

/-- The ports that PORTS names. -/
def StreamCtx.ports (c : StreamCtx) : List Nat :=
  match c.portsCode with
  | 0 => [2 * c.pair, 2 * c.pair + 1]
  | 1 => [2 * c.pair]
  | 2 => [2 * c.pair + 1]
  | _ => []

/-- The length of a frame of the context from the destination MAC address to the FCS (07 R209). -/
def StreamCtx.frameLen (c : StreamCtx) (redundant : Bool) : Nat :=
  max 64 (18 + (if c.tagged then 4 else 0) + (if redundant then 6 else 0) + (if c.encap = 2 then 0 else 16)
    + (if c.encap = 0 then 0 else 28) + c.length)

/-- WINDOW_USE in the window of a TAI instant (07 R209). -/
def StreamCtx.useAt (c : StreamCtx) (t : Nat) : Nat := if t / 1000000 = c.winMs then c.windowUse else 0

/-- Bytes counted at an instant. -/
def StreamCtx.count (c : StreamCtx) (t len : Nat) : StreamCtx := { c with windowUse := c.useAt t + len, winMs := t / 1000000 }

/-- The stream header of a frame, most significant byte first; an IEC 61162-450 frame has none (07 R202). -/
def StreamCtx.header (c : StreamCtx) (flags launch : Nat) : List Byte :=
  if c.encap = 2 then []
  else (Bits.natBytes 2 c.streamId).reverse ++ (Bits.natBytes 2 flags).reverse ++ (Bits.bytes32 c.seq).reverse ++ (Bits.natBytes 8 launch).reverse

/-- A word of the 64-byte context (07 *Stream context*). -/
def StreamCtx.word (c : StreamCtx) (m : Nat) : Word :=
  if m < 8 then BitVec.ofNat 32 (Bits.leAt c.cfg (4 * m) 4)
  else match m with
    | 8 => c.seq
    | 9 => BitVec.ofNat 32 c.srcMac
    | 10 => c.ddBase ++ BitVec.ofNat 16 (c.srcMac / 4294967296)
    | 11 => c.ddMask
    | 12 => BitVec.ofNat 32 c.lastTime
    | 13 => BitVec.ofNat 32 (c.lastTime / 4294967296)
    | 14 => BitVec.ofNat 32 c.windowUse
    | _ => Bits.fld c.lateCnt 16 ||| Bits.fld c.dropCnt 0

/-- The record that a receive context delivers at a T0 of which the station tick begins at `t0` ns (07 R208). -/
def StreamCtx.rxAt (c : StreamCtx) (t0 : Nat) : RxRecord := if c.rx.arrival < t0 then c.rx else c.rxPrev

/-- Is that record GOOD: its frame within FRESH station ticks before T0, which is at `t` ns? -/
def StreamCtx.rxGood (c : StreamCtx) (t0 t : Nat) : Bool :=
  (c.rxAt t0).any && decide (t ≤ (c.rxAt t0).arrival + c.offset * 10000)

/-- NEW: its frame was accepted since the previous T0 took its record. -/
def StreamCtx.rxNew (c : StreamCtx) (t0 : Nat) : Bool := (c.rxAt t0).any && decide (c.since ≤ (c.rxAt t0).arrival)

/-- The received stream record (07 *Received stream record*). -/
def StreamCtx.record (c : StreamCtx) (t0 t : Nat) : List Byte :=
  let r := c.rxAt t0
  [BitVec.ofNat 8 ((if c.rxGood t0 t then 0 else 128) + (if c.rxNew t0 then 32 else 0)), 0#8] ++ Bits.natBytes 2 r.payload.length
    ++ Bits.bytes32 (if c.encap = 2 then 0#32 else r.seq) ++ Bits.natBytes 8 r.arrival
    ++ (r.payload ++ List.replicate (c.length - r.payload.length) 0#8).take c.length

/-- NET_PATH_STATUS. -/
def NetBlk.pathStatus (d : NetBlk) : Word :=
  Bits.ofBool d.reroute 31 ||| Bits.ofBool d.second 30 ||| Bits.ofBool (decide (d.missed0 < 3)) 29
    ||| Bits.ofBool (decide (d.missed1 < 3)) 28 ||| Bits.ofBool d.frozen 27

/-- NET_CTX_COUNT. -/
def NetBlk.ctxCount (d : NetBlk) : Word :=
  Bits.fld (d.ctxs.filter (fun e => e.2.valid && e.2.receive)).length 16
    ||| Bits.fld (d.ctxs.filter (fun e => e.2.valid && !e.2.receive)).length 0

/-- NET_STATUS. -/
def NetBlk.status (d : NetBlk) (active : Bool) : Word :=
  Bits.ofBool active 31 ||| Bits.ofBool (active && (d.pairMode 0 == 2 || d.pairMode 1 == 2)) 30
    ||| Bits.ofBool (d.port 0).link 0 ||| Bits.ofBool (d.port 1).link 1 ||| Bits.ofBool (d.port 2).link 2
    ||| Bits.ofBool (d.port 3).link 3

/-- The registers of one port from 0x100 + 0x20 × n. -/
def NetPort.reg (p : NetPort) (o : Nat) : Word :=
  match o with
  | 0x00 => Bits.lo p.rx
  | 0x04 => Bits.hi p.rx
  | 0x08 => Bits.lo p.tx
  | 0x0C => Bits.hi p.tx
  | 0x10 => p.err
  | 0x14 => p.fwd
  | 0x18 => p.dup
  | 0x1C => p.downs
  | _ => 0#32

/-- The bytes of a MAC address, first byte first, as the number whose first byte is most significant. -/
def macBig (m : Nat) : Nat := (Bits.natBytes 6 m).foldl (fun n b => n * 256 + b.toNat) 0

/-- The registers of the NET block by offset, but for NET_EVENT and NET_EVENT_EN (07 R223). -/
def NetBlk.reg (d : NetBlk) (active : Bool) (sel o : Nat) : Word :=
  if o % 4 ≠ 0 then 0#32
  else if 0x20 ≤ o ∧ o < 0x40 then
    let m := macBig (Tbl.get 0 d.macs ((o - 0x20) / 8))
    if o % 8 = 0 then BitVec.ofNat 32 m else BitVec.ofNat 32 (m / 4294967296 % 65536)
  else if 0x40 ≤ o ∧ o < 0x50 then Tbl.get 0#32 d.ips ((o - 0x40) / 4)
  else if 0x50 ≤ o ∧ o < 0x60 then BitVec.ofNat 32 (d.port ((o - 0x50) / 4)).delay
  else if 0x80 ≤ o ∧ o < 0xC0 then (d.ctx sel).word ((o - 0x80) / 4)
  else if 0x100 ≤ o ∧ o < 0x180 then (d.port ((o - 0x100) / 32)).reg ((o - 0x100) % 32)
  else match o with
    | 0x00 => d.status active
    | 0x0C => d.pairCfg
    | 0x10 => d.ptpCfg
    | 0x18 => d.pathStatus
    | 0x1C => Bits.satS32 d.diff
    | 0x60 => Bits.fld sel 0
    | 0x64 => d.ctxCount
    | 0x70 => Bits.fld (Tbl.get 0 d.tsOver 0) 16 ||| Bits.fld (Tbl.get [] d.tsq 0).length 0
    | 0x74 => Bits.fld (Tbl.get 0 d.tsOver 1) 16 ||| Bits.fld (Tbl.get [] d.tsq 1).length 0
    | _ => 0#32

end Sys2Proof.Machine
end

