-- ==== Sys2Proof/Machine/StPnl.lean ====
section
/-! DEFINITION. Machine/StPnl.lean: the state of the panel port (12 R350-R371). -/
namespace Sys2Proof.Machine

/-- A request that has been accepted and waits. -/
structure PReq where
  id     : Half
  op     : PanelOp
  origin : Origin
  acked  : Bool
deriving DecidableEq, Repr

/-- A journal slot: two entries written alternately, the newer one valid (12 R364), and the running of its update. -/
structure PSlot where
  cur     : Option JEntry := none   -- the valid entry
  old     : Option JEntry := none
  running : Bool := false           -- in flight: it takes its frames
  next    : Nat := 0                -- the next frame to be driven
  fix     : Option (Nat × Nat) := none   -- a correction frame is due on rows lo to hi - 1
  fixing  : Bool := false           -- the frame in progress is the correction frame
  driven  : Bool := false           -- the frame of the entry is in progress or ran since the last frame start
  req     : Option PReq := none     -- the request of this module's host that the update carries out
deriving DecidableEq, Repr

/-- The panel unit. -/
structure PnlBlk where
  cfg         : PnlCfg := {}
  power       : Bool := false       -- this module pulls PNL_EN low
  pg          : Bool := false
  faulted     : Bool := false
  front       : Tbl Nat := []       -- LCD surfaces: 24-bit pixels by y × HACTIVE + x
  back        : Tbl Nat := []
  copying     : Bool := false
  current     : Tbl Nat := []       -- electrophoretic surfaces: 4-bit greys, in the retained store
  target      : Tbl Nat := []
  slots       : Tbl PSlot := []
  waiting     : List PReq := []     -- in acceptance order
  done        : List PReq := []     -- carried out, waiting for the SHADOW's acknowledgement
  refresh     : Bool := false       -- a full refresh with INIT_WF is owed (R368)
  temp        : Int := 0
  tempValid   : Bool := false
  tempNs      : Nat := 0            -- TAI ns of the last TEMP request
  measNs      : Option Nat := none  -- when PTEMP was last measured
  band        : Nat := 0
  frameNo     : Nat := 0            -- number of the present LCD frame since PNL_PG rose
  inFrame     : Bool := false       -- an LCD frame has started since PNL_PG rose
  frameNs     : Nat := 0            -- start of the present LCD frame, TAI ns
  nextNs      : Option Nat := none  -- start of the next LCD frame
  hz          : Nat := 60           -- RATE in force
  idle        : Nat := 0            -- consecutive frames without a PRESENT
  frameCnt    : DWord := 0#64
  updateCnt   : Word := 0#32
  compCnt     : Word := 0#32
  refuseCnt   : Word := 0#32
  ackLateCnt  : Word := 0#32
  sent        : List PnlMsg := []   -- the model's own log of what was sent in SEQSTATE frames
deriving DecidableEq, Repr

end Sys2Proof.Machine
end

