-- ==== Sys2Proof/Machine/ViewPnl.lean ====
section
/-! DEFINITION. Machine/ViewPnl.lean: reading the panel unit: geometry, slots, the drive code of a pixel and the registers
of the PNL block (12 R353, R358, R371). -/
namespace Sys2Proof.Machine

def PnlBlk.slot (p : PnlBlk) (i : Nat) : PSlot := Tbl.get {} p.slots i
def PnlBlk.setSlot (p : PnlBlk) (i : Nat) (x : PSlot) : PnlBlk := { p with slots := Tbl.set {} p.slots i x }

/-- MODE: 0 OFF, 1 LCD, 2 ELECTROPHORETIC. -/
def PnlBlk.mode (p : PnlBlk) : Nat := Bits.get p.cfg.config 30 2
def PnlBlk.hactive (p : PnlBlk) : Nat := Bits.get p.cfg.geometry 16 16
def PnlBlk.vactive (p : PnlBlk) : Nat := Bits.get p.cfg.geometry 0 16
def PnlBlk.idleFrames (p : PnlBlk) : Nat := Bits.get p.cfg.rate 16 8
def PnlBlk.rateActive (p : PnlBlk) : Nat := Bits.get p.cfg.rate 8 8
def PnlBlk.rateIdle (p : PnlBlk) : Nat := Bits.get p.cfg.rate 0 8

/-- An LCD configuration that the module refuses (12 R352), LINE_TIME in units of 10 ns. -/
def PnlCfg.badLine (c : PnlCfg) : Bool :=
  Bits.get c.config 30 2 == 1 &&
    decide (16666660 < Bits.get c.line 0 16 * 10 * (Bits.get c.geometry 0 16 + Bits.get c.line 16 16))

/-- Bytes 0x00 to 0x1B of a journal entry (12 *Journal entry*). -/
def journalBody (e : JEntry) : List Byte :=
  Bits.natBytes 4 e.jseq ++ Bits.bytes16 e.id
    ++ [BitVec.ofNat 8 (e.active.toNat * 128 + e.completion.toNat * 64 + e.wf % 8 * 8), BitVec.ofNat 8 (e.band % 16 * 16)]
    ++ Bits.natBytes 2 e.rect.x ++ Bits.natBytes 2 e.rect.y ++ Bits.natBytes 2 e.rect.w ++ Bits.natBytes 2 e.rect.h
    ++ Bits.natBytes 1 e.frame ++ Bits.natBytes 1 e.frames ++ Bits.natBytes 2 e.row ++ Bits.bytes64 e.start

/-- The entry with its CRC-32C, and whether it has a correct one (12 R364). -/
def sealEntry (e : JEntry) : JEntry := { e with crc := Bits.crc32c (journalBody e) }
def entryWhole (e : JEntry) : Bool := e.crc == Bits.crc32c (journalBody e)

/-- The valid entry of a slot as start-up finds it: one with a correct CRC-32C and the higher JSEQ (12 R364). -/
def PSlot.readBack (x : PSlot) : PSlot :=
  let good := fun (o : Option JEntry) => match o with | some e => if entryWhole e then some e else none | none => none
  match good x.cur, good x.old with
  | some a, some b => if a.jseq < b.jseq then { x with cur := some b, old := some a } else x
  | some a, none => { x with cur := some a, old := none }
  | none, b => { x with cur := b, old := none }

/-- The newer entry of a slot is torn. -/
def PSlot.torn (x : PSlot) : PSlot := { x with cur := x.cur.map (fun e => { e with crc := ~~~e.crc }) }

/-- Is the slot's valid entry ACTIVE? -/
def PSlot.active (x : PSlot) : Bool := match x.cur with | some e => e.active | none => false

def PnlBlk.slotsL (p : PnlBlk) : List (Nat × PSlot) := (List.range 16).map (fun i => (i, p.slot i))

/-- Updates in flight. -/
def PnlBlk.inFlight (p : PnlBlk) : List (Nat × PSlot) := p.slotsL.filter (fun e => e.2.running)

/-- Completions that are pending or running (12 R366). -/
def PnlBlk.completionPending (p : PnlBlk) : Bool :=
  p.slotsL.any (fun e => match e.2.cur with | some j => j.active && (j.completion || !e.2.running) | none => false)

/-- Anything that a change of the waveform table must wait for (12 R358). -/
def PnlBlk.busy (p : PnlBlk) : Bool :=
  !p.inFlight.isEmpty || p.completionPending ||
    p.waiting.any (fun r => match r.op with | .update _ _ => true | _ => false)

/-- Do two rectangles overlap? -/
def overlap (a b : Rect) : Bool :=
  decide (a.x < b.x + b.w) && decide (b.x < a.x + a.w) && decide (a.y < b.y + b.h) && decide (b.y < a.y + a.h)

/-- Is the rectangle valid (12 R361)? -/
def PnlBlk.goodRect (p : PnlBlk) (r : Rect) : Bool :=
  decide (1 ≤ r.w) && decide (1 ≤ r.h) && decide (r.x + r.w ≤ p.hactive) && decide (r.y + r.h ≤ p.vactive)
    && (p.mode != 2 || (r.x % 4 == 0 && r.w % 4 == 0))

/-- PC5 (POL) on a row of an LCD frame (12 *Inversion modes*). -/
def PnlBlk.pol (p : PnlBlk) (row : Nat) : Bool :=
  let q := p.frameNo % 2 == 1
  match Bits.get p.cfg.config 27 3 with
  | 1 | 3 => if row % 2 = 0 then q else !q
  | 4 => if row % 4 < 2 then q else !q
  | _ => q

/-- The drive code of a slot's pixel in the present frame (12 R358, R366): 0 outside its rectangle and its rows. -/
def PnlBlk.slotCode (p : PnlBlk) (x : PSlot) (row col : Nat) : Nat :=
  match x.cur with
  | none => 0
  | some e =>
    let inside := decide (e.rect.x ≤ col) && decide (col < e.rect.x + e.rect.w) && decide (e.rect.y ≤ row)
      && decide (row < e.rect.y + e.rect.h)
    let rows := match x.fixing, x.fix with
      | true, some (lo, hi) => decide (lo ≤ row) && decide (row < hi)
      | _, _ => true
    if !(x.running && x.driven && inside && rows) then 0
    else
      let px := row * p.hactive + col
      let i := 16 * Tbl.get 0 p.current px + Tbl.get 0 p.target px
      match (Tbl.get [] p.cfg.wave.frames (12 * e.wf + e.band))[e.frame]? with
      | some a => ((a.getD (i / 4) 0#8).toNat / 4 ^ (i % 4)) % 4
      | none => 0

/-- The drive code of a pixel in the present frame: updates in flight do not overlap (12 R356, R362). -/
def PnlBlk.driveCode (p : PnlBlk) (row col : Nat) : Nat :=
  match (p.inFlight.map (fun e => p.slotCode e.2 row col)).find? (fun c => c != 0) with
  | some c => c
  | none => 0

/-- PNL_SLOT_STATE of the selected slot. -/
def PSlot.state (x : PSlot) : Word :=
  match x.cur with
  | none => 0#32
  | some e =>
    Bits.ofBool e.active 31 ||| Bits.ofBool e.completion 30 ||| Bits.fld e.wf 27 ||| Bits.fld e.band 23
      ||| Bits.fld e.frame 8 ||| Bits.fld e.frames 0

/-- PNL_STATUS. -/
def PnlBlk.status (p : PnlBlk) (driving : Bool) : Word :=
  Bits.ofBool driving 31 ||| Bits.ofBool p.power 30 ||| Bits.ofBool p.pg 29 ||| Bits.ofBool p.completionPending 28
    ||| Bits.fld p.waiting.length 16
    ||| (p.slotsL.filter (fun e => e.2.active)).foldl (fun w e => Bits.setBit w e.1) 0#32

/-- The registers of the PNL block by offset, but for PNL_EVENT and PNL_EVENT_EN (12 R371). -/
def PnlBlk.reg (p : PnlBlk) (driving : Bool) (sel o : Nat) : Word :=
  let rect := match (p.slot sel).cur with | some e => e.rect | none => { x := 0, y := 0, w := 0, h := 0 }
  match o with
  | 0x00 => p.status driving
  | 0x0C => p.cfg.config
  | 0x10 => p.cfg.geometry
  | 0x14 => p.cfg.line
  | 0x18 => p.cfg.rate
  | 0x1C => p.cfg.vcom
  | 0x20 => Bits.ofBool p.tempValid 31 ||| Bits.fld p.band 16 ||| (BitVec.ofInt 16 p.temp).setWidth 32
  | 0x24 => Bits.fld sel 0
  | 0x28 => Bits.fld rect.x 16 ||| Bits.fld rect.y 0
  | 0x2C => Bits.fld rect.w 16 ||| Bits.fld rect.h 0
  | 0x30 => (p.slot sel).state
  | 0x34 => Bits.lo p.frameCnt
  | 0x38 => Bits.hi p.frameCnt
  | 0x3C => p.updateCnt
  | 0x40 => p.compCnt
  | 0x44 => p.refuseCnt
  | 0x48 => p.ackLateCnt
  | _ => 0#32

end Sys2Proof.Machine
end

