-- ==== Sys2Proof/Machine/StCfg.lean ====
section
/-! DEFINITION. Machine/StCfg.lean: the image store, the configuration in force, the start-up and the rick
(16 R443-R461, 17 R462-R473). -/
namespace Sys2Proof.Machine

/-- The phases of a start-up (16 *CFG_STATUS fields*). -/
inductive Phase where
  | rom | verify | twinSearch | rick | time | resume | ready | noConfig
deriving DecidableEq, Repr

/-- The states of a configuration slot (16 *CFG_SLOT_STATE*). -/
inductive SlotUse where
  | empty | staged | valid | active | badCrc | badSignature
deriving DecidableEq, Repr

/-- A configuration slot: its body, and SEQ when the header is written (16 R447, R448). -/
structure CfgSlot where
  body : Option StationCfg := none
  seq  : DWord := 0#64
  header : Bool := false
  use  : SlotUse := .empty
deriving DecidableEq, Repr

/-- An open image transfer (14 R406). -/
structure Transfer where
  sq    : Nat := 0
  len   : Nat := 0
  total : Nat := 0
deriving DecidableEq, Repr

/-- The states of an RX unit (16 *CFG_RXu_STATUS*). -/
inductive RxState where
  | notEnrolled | absent | authenticating | onLine | lost | authFailed
deriving DecidableEq, Repr

/-- The outputs of a commit on their way to a unit (02 R61). -/
structure RxOut where
  cycle   : DWord := 0#64
  acked   : Bool := false
  dropped : Bool := false
deriving DecidableEq, Repr

/-- An RX unit. -/
structure RxUnit where
  state    : RxState := .notEnrolled
  hops0    : Nat := 0
  hops1    : Nat := 0
  delay    : Nat := 0
  position : Nat := 0
  failRun  : Nat := 0             -- consecutive polls without a valid reply
  failCnt  : Word := 0#32
  answered : Bool := false        -- replied to the last poll
  polled   : Bool := false
  since    : Nat := 0             -- TAI ns from which it is in service: it takes outputs of cycles begun since (02 R62)
  good     : List RxSamples := [] -- newest samples of each task
  outs     : Tbl RxOut := []      -- by task
  seen     : Bool := false        -- its IDENT was heard in the present enumeration
  lostAt   : Nat := 0             -- the station tick on which it was last declared lost
  key      : BitVec 256 := 0#256  -- the session key of its last handshake (R456)
  ctr      : DWord := 0#64        -- the frame counter of the module's next frame to it
deriving DecidableEq, Repr

/-- RICK_STATE. -/
inductive RickState where
  | none | formed | refused
deriving DecidableEq, Repr

/-- How a frame to a unit is sealed: its frame counter, nonce and tag (16 R456). -/
structure RickHead where
  ctr   : DWord
  nonce : BitVec 96
  tag   : BitVec 128
deriving DecidableEq, Repr

/-- What the module sends on the rick links (16 R454). -/
inductive RickOut where
  | enum
  | auth (u : Nat)
  | poll (h : RickHead) (u tick : Nat) (ns : Nat) (delay : Nat)
  | out (h : RickHead) (u task : Nat) (cycle : DWord) (bytes : List (Nat × List Byte))
deriving DecidableEq, Repr

/-- A pending configuration switch (16 R450). -/
structure CfgSwitch where
  cfg    : StationCfg
  effect : Effect
  task   : Option Nat           -- the reference task, none when Ts is a station tick
  origin : Origin
deriving DecidableEq, Repr

/-- The CFG block with the image store. -/
structure CfgBlk where
  phase     : Phase := .rom
  cur       : StationCfg := {}          -- the configuration in force
  loaded    : Bool := false             -- a configuration is loaded
  slotLoaded : Bool := false            -- false CFG-A, true CFG-B
  slotA     : CfgSlot := {}
  slotB     : CfgSlot := {}
  taskCfgs  : Tbl TaskCfg := []         -- the task parameters in force, task by task (16 R450)
  nextTasks : Tbl TaskCfg := []         -- parameters that take effect at the task's next T0
  changing  : List Nat := []            -- the tasks they are pending for
  keys0     : Option KeySection := none -- the two key store copies; none: empty or unreadable
  keys1     : Option KeySection := none
  keyBad0   : Bool := false             -- a copy that could not be read at this start
  keyBad1   : Bool := false
  prog      : Option Program := none    -- the active program slot
  progOk    : Bool := false             -- IMAGE_OK
  progB     : Bool := false             -- the active program slot is B
  base      : Option Program := none    -- the image in the inactive program slot, when it holds one
  joinProg  : Bool := false             -- the image received in a state copy becomes active at the join (04 R123)
  firmA     : Option FirmObj := some { ok := true }   -- per module: as delivered
  firmB     : Option FirmObj := none
  firmOnB   : Bool := false
  safeA     : Option SafetyObj := none
  safeB     : Option SafetyObj := none
  safeOnB   : Bool := false
  safeOk    : Bool := false             -- SAFETY_OK
  safeOrg   : Option Origin := none     -- an ACTIVATE SAFETY that waits for its tick
  fwOrg     : Option Origin := none     -- an ACTIVATE FIRMWARE with ENGINE 0x10 in progress
  fwWait    : Bool := false             -- it waits for the next apply instant (17 R464)
  transfers : Tbl Transfer := []        -- by target: 1 CONFIG, 2 SAFETY, 3 FIRMWARE
  pend      : Option CfgSwitch := none
  asking    : Option (StationCfg × Origin) := none  -- sent to the SHADOW, whose checks are awaited (16 R450)
  reason    : Nat := 0
  refTask   : Nat := 0
  searchAt  : Nat := 0                  -- UPTIME ticks when twin search began (R453)
  enumAt    : Option Nat := none        -- UPTIME ticks of the last enumeration, path delay measurement and poll (R455)
  delayAt   : Option Nat := none
  pollAt    : Option Nat := none
  armed     : Option Nat := none        -- TAI ns at which ARM was accepted
  armReg    : Bool := false
  marker    : Option (Bool × DWord) := none  -- the commissioning marker: slot and SEQ
  settled   : Bool := false             -- the time source is settled
  lanes     : Bool := false             -- lane P, lane H and the time unit have started
  fresh     : Bool := false             -- this start repeated first commissioning: it does not resume (16 R460)
  rick      : RickState := .none
  rl0       : Bool := false
  rl1       : Bool := false
  broken    : Bool := false
  breakAt   : Nat := 0
  collecting : Bool := false            -- IDENT frames are collected
  enumCmd   : Bool := false             -- ENUMERATE of CFG_CMD is running
  units     : Tbl RxUnit := []          -- by position 1 to 6
  switchCnt : Word := 0#32
  refuseCnt : Word := 0#32
  commCnt   : Word := 0#32              -- per module
  enumCnt   : Word := 0#32
  sent      : List RickOut := []        -- the model's own log of what was sent on the rick links
deriving DecidableEq, Repr

end Sys2Proof.Machine
end

