-- ==== Sys2Proof/Machine/StCyc.lean ====
section
/-! DEFINITION. Machine/StCyc.lean: the state of the cycle controller and of the retained images (02 R28-R64). -/
namespace Sys2Proof.Machine

/-- What an overrun policy or a billet fault has made of a task (03 R75, R90). -/
inductive PolState where
  | active | outHeld | stopped
deriving DecidableEq, Repr

/-- A commit record (02 R42) with the CRC-32C that its line holds. -/
structure CommitRec where
  task  : Nat := 0
  crc   : Word := 0#32
  cycle : DWord := 0#64
  sec   : DWord := 0#64
  ns    : Word := 0#32
  bank  : Bool := false
  hash  : DWord := 0#64
deriving DecidableEq, Repr

/-- The cycle of a task in progress, from its T0 to the durable commit record (02 R28-R37). -/
structure CycleRun where
  k          : DWord := 0#64
  t0         : Nat := 0              -- TAI ns
  deadline   : Option Nat := none    -- the commit deadline, TAI ns; none where the next T0 is not known yet
  inputs     : List InVal := []      -- own raw samples until the agreed image is complete
  lead       : Bool := false         -- this module held the role token at T0 (04 R115)
  agreed     : Bool := false         -- the agreed input image is complete
  rick       : Bool := false         -- the rick input deadline has passed
  released   : List Nat := []
  retired    : List Nat := []
  faulted    : Bool := false         -- abandoned by a billet fault: no further release (03 R75)
  late       : Bool := false
  use        : Nat := 0              -- engine-µs (03 R88)
  budget     : Nat := 0              -- the budget in force at its own T0
  tc         : Option Nat := none    -- Tc in TAI ns: the commit record is being written
  lines      : List Nat := []        -- 64-byte lines written (02 R41)
deriving DecidableEq, Repr

/-- A task. -/
structure TaskSt where
  mode      : ProgMode := .stop        -- the mode in force for the task
  pol       : PolState := .active
  due       : Option Bool := none      -- a policy takes effect at the next T0; true is STOP
  dueFrom   : Option DWord := none     -- and not before the T0 that would start this cycle (03 R92)
  bank      : Bool := false            -- the committed copy: false A, true B
  imgA      : Tbl Byte := []
  imgB      : Tbl Byte := []
  staged    : Bool := false            -- the two copies lie in the staging bank as S0 and S1 (05 R150)
  cycle     : DWord := 0#64
  rec0      : Option CommitRec := none
  rec1      : Option CommitRec := none
  recNext   : Bool := false            -- the slot that the next commit writes
  floor0    : Option DWord := none     -- the two slots of the cycle floor record (02 R47)
  floor1    : Option DWord := none
  floorNext : Bool := false
  lastT0    : Option Nat := none       -- the last T0 of the schedule that passed, TAI ns
  prevT0    : Option Nat := none       -- the T0 of the task's last cycle
  lastTc    : Option Nat := none       -- Tc of the last commit in this run
  resumeTc  : Option Nat := none       -- Tc of the commit that the task resumed from
  freeRun   : Bool := false            -- the resume was in FREE-RUN (02 R49)
  run       : Option CycleRun := none
  toApply   : Bool := false            -- the outputs of the last commit await a T0
  stale     : Bool := false            -- the cycle due to apply at the last T0 was skipped (02 R37, 07 R204)
  skip      : Nat := 0                 -- T0 instants skipped since the previous cycle
  late      : Bool := false            -- for the next CSW
  overran   : Bool := false
  resumed   : Bool := false
  stopDue   : Bool := false            -- its stop output state is due at its first T0 after a start in STOP (02 R47)
  exchanged : Bool := false
  takeover  : Bool := false
  csw       : Word := 0x80000000#32
  deltaT    : Nat := 0                 -- DELTA_T of the present cycle, ns (02 R49)
  lastGood  : List (List Byte) := []   -- the last GOOD bytes of each member of the input set
  restart   : Option (Effect × Origin) := none
  limits    : TaskLimits := {}
  next      : Option (Effect × TaskLimits) := none
  consec    : Nat := 0
  use       : Nat := 0
  overruns  : Word := 0#32
  refuses   : Word := 0#32
  lines     : List Nat := []           -- lines written by the last commit
  unit      : Nat := 0                 -- RX units lost at the last T0, bit u for RXu
  gone      : Bool := false            -- the running program has no such task: its last commit was its last (05 R156)
  back      : Nat := 0                 -- RX units returned whose samples no cycle of the task has yet had in time (02 R62)
deriving DecidableEq, Repr

/-- An accepted mode command that some task has not yet taken (02 R51, R493). -/
structure ModePend where
  target  : ProgMode
  left    : List (Nat × Effect)
  origins : List Origin
deriving DecidableEq, Repr

/-- A STEP that waits for its cycle (02 R493). -/
structure StepReq where
  task    : Nat
  tick    : Nat
  origin  : Origin
  started : Bool := false
deriving DecidableEq, Repr

/-- The pending copy of a host exchange area (14 R407): its present content, and its content before the station tick of the
newest write. -/
structure AreaSt where
  data   : List Byte := []
  writes : Word := 0#32
  last   : Option Nat := none          -- TAI ns of the newest completion
  tick   : Nat := 0                    -- its station tick
  data0  : List Byte := []
  writes0 : Word := 0#32
  last0  : Option Nat := none
deriving DecidableEq, Repr

/-- The cycle controller. -/
structure CycBlk where
  mode      : ProgMode := .stop
  target    : ProgMode := .stop        -- the mode after every accepted command
  pends     : List ModePend := []
  buf       : List (ProgMode × Origin) := []   -- commands accepted in the present station tick (02 R53)
  fwd       : List (ProgMode × Origin) := []   -- STOP and RUN forwarded to the LEAD (02 R50)
  steps     : List StepReq := []
  bps       : List (Nat × Nat × Nat) := []     -- armed breakpoints: task, billet, offset
  bpHit     : Option (Nat × Nat) := none       -- the task held at a breakpoint and its engine
  resuming  : Bool := false
  halted    : Bool := false                    -- both supplies lost: no further T0 (02 R45)
  lateMask  : Word := 0#32
  resumeCnt : Word := 0#32
  refuseCnt : Word := 0#32
  skipCnt   : DWord := 0#64
  tasks     : Tbl TaskSt := []
  areas     : Tbl AreaSt := []
deriving DecidableEq, Repr

end Sys2Proof.Machine
end

