-- ==== Sys2Proof/Machine/StFab.lean ====
section
/-! DEFINITION. Machine/StFab.lean: the state of the engine fabric (03 R65-R99). -/
namespace Sys2Proof.Machine

/-- The states of an engine (03 R68). -/
inductive EngState where
  | available | fenced | selfTest | draining | drained | retired
deriving DecidableEq, Repr

/-- A billet in a deque or in the release queue. -/
structure BRef where
  task  : Nat
  num   : Nat
  rerun : Bool := false
deriving DecidableEq, Repr

/-- A range of the read set in local data memory (03 R72). -/
structure LocalRange where
  space : MemSpace
  off   : Nat := 0
  bytes : List Byte := []
deriving DecidableEq, Repr

/-- The local memories of an engine after a load: the billet's code, its read set, and the system variables of its cycle
(03 R65, R72, R97). -/
structure LocalMem where
  code   : List BOp := []
  data   : List LocalRange := []
  deltaT : Nat := 0
  csw    : Word := 0#32
deriving DecidableEq, Repr

/-- The billet that an engine has taken. -/
structure Running where
  ref    : BRef
  loaded : Bool := false
  mem    : LocalMem := {}
  held   : Bool := false      -- held at a breakpoint
deriving DecidableEq, Repr

/-- What firmware an engine runs or tests (17 R463). -/
inductive EngFw where
  | active                    -- the release of the active slot
  | trying                    -- the release of the inactive slot, in self-test
  | updated                   -- the release of the inactive slot
  | back                      -- the release of the active slot again, in self-test
deriving DecidableEq, Repr

/-- A control engine. -/
structure Engine where
  state  : EngState := .available
  deque  : List BRef := []    -- head first
  run    : Option Running := none
  fences : List Nat := []     -- TAI seconds of its fences within 24 h
  since  : Nat := 0           -- the station tick from which it takes billets
  fw     : EngFw := .active
deriving DecidableEq, Repr

/-- The engine fabric. -/
structure FabBlk where
  engines   : Tbl Engine := []
  queue     : List BRef := []                -- the release queue
  reloads   : List (Nat × List (Nat × BRef)) := []   -- faulty SRAM lines, and the engines and billets stopped for them (03 R84)
  faultInfo : Word := 0#32
  faultAddr : Word := 0#32
  rerunCnt  : Word := 0#32
  stealCnt  : DWord := 0#64
  collCnt   : Word := 0#32
  spillCnt  : Word := 0#32
  stallCnt  : Word := 0#32
  corrected : Nat := 0
  uncorr    : Nat := 0
  drainCnt  : Word := 0#32
  fwCmd     : Option (Nat × Origin) := none  -- an ACTIVATE FIRMWARE of an engine in progress
deriving DecidableEq, Repr

end Sys2Proof.Machine
end

