-- ==== Sys2Proof/Machine/StHost.lean ====
section
/-! DEFINITION. Machine/StHost.lean: the state of the HOST block, its rings and the entries it writes (14 R395-R422). -/
namespace Sys2Proof.Machine

/-- The state of a ring (14 R403). -/
inductive RingState where
  | disabled | enabled | error | stopping
deriving DecidableEq, Repr

/-- A submission ring (14 R398, R422). -/
structure SubRing where
  baseLo  : Word := 0#32
  baseHi  : Word := 0#32
  cfg     : Word := 0x00001000#32
  head    : Nat := 0
  tail    : Nat := 0
  state   : RingState := .disabled
  waiting : Bool := false      -- it waits for a free entry of its completion ring (R401)
  aborted : Bool := false      -- a descriptor was completed with ABORTED since the ring began to stop
deriving DecidableEq, Repr

/-- A completion ring or the event ring (14 R399, R422). -/
structure OutRing where
  baseLo  : Word := 0#32
  baseHi  : Word := 0#32
  cfg     : Word := 0x00000101#32
  head    : Nat := 0
  tail    : Nat := 0
  phase   : Bool := true       -- PHASE of the next entry
  state   : RingState := .disabled
  full    : Nat := 0           -- CQ_FULL, or EQ_LOST of the event ring
  dropped : Nat := 0           -- entries dropped since the last LOST entry (event ring)
  irqPend : Nat := 0           -- entries pending for an interrupt (R415)
  irqNs   : Nat := 0           -- when the first of them was written
deriving DecidableEq, Repr

/-- A descriptor that has been taken and not yet completed (14 R401). -/
structure Taken where
  sq      : Nat := 0
  desc    : Desc
  reading : Bool := false      -- the read of its data buffer is outstanding
  sinceNs : Nat := 0           -- when it was taken
  passed  : Bool := false      -- its command has been passed to its unit (R403)
deriving DecidableEq, Repr

/-- An event entry (14 R413). -/
structure EventEntry where
  kind   : Nat := 1
  source : Nat := 0
  code   : Nat := 0
  time   : DWord := 0#64
  detail : DWord := 0#64
  recSeq : DWord := 0xFFFFFFFFFFFFFFFF#64
  extra  : List Byte := []
deriving DecidableEq, Repr

/-- A completion entry (14 R412). -/
structure Completion where
  tag    : Word := 0#32
  opcode : Byte := 0#8
  status : Nat := 0
  detail : Nat := 0
  sq     : Nat := 0
  sqHead : Nat := 0
  time   : DWord := 0#64
  cycle  : DWord := 0#64
  result : List Byte := []
deriving DecidableEq, Repr

/-- What the module writes to host memory or sends to the host (14 R396, R400, R415); `addr` is the host address of a ring's
entry. -/
inductive HostOut where
  | event (addr : DWord) (phase : Bool) (e : EventEntry)
  | completion (cq : Nat) (addr : DWord) (phase : Bool) (c : Completion)
  | data (addr : DWord) (bytes : List Byte)
  | msix (vector : Nat)
deriving DecidableEq, Repr

/-- The HOST block. -/
structure HostBlk where
  linkUp    : Bool := false
  busMaster : Bool := false
  speed     : BitVec 2 := 0#2
  width     : BitVec 2 := 0#2
  msixEn    : Bool := false
  msixMask  : Bool := false
  msixTable : Tbl Word := []        -- 128 words of the MSI-X table, see `msixDefault`
  pba       : Word := 0#32          -- the pending bit array
  errInfo   : Word := 0#32
  dmaErrCnt : Word := 0#32
  sqs       : Tbl SubRing := []
  cqs       : Tbl OutRing := []
  eq        : OutRing := {}
  taken     : List Taken := []
  kept      : List HostOut := []    -- kept while Bus Master Enable is clear (R496)
  keptMsix  : List Nat := []
  sent      : List HostOut := []    -- the model's own log of what was written out
deriving DecidableEq, Repr

end Sys2Proof.Machine
end

