-- ==== Sys2Proof/Machine/StRec.lean ====
section
/-! DEFINITION. Machine/StRec.lean: the state of the event recorder (13 R372-R394). -/
namespace Sys2Proof.Machine

/-- A record of the recorder or an entry of the fault annex (13 R373), without the fields computed from these
(SEQ_TAIL, the CRC, WORDS). -/
structure Record where
  seq       : DWord := 0#64
  time      : DWord := 0#64
  cycle     : DWord := 0#64
  originSeq : DWord := 0#64
  side      : BitVec 4 := 0#4
  source    : Byte := 0#8
  code      : Half := 0#16
  peat      : Bool := false
  mirrored  : Bool := false
  lost      : Bool := false
  detail    : DWord := 0#64
  words     : List Word := []
deriving DecidableEq, Repr

/-- A record that has been obtained (its quota judged) and waits for the supervisor to write it (13 R382). -/
structure RecReq where
  source    : Nat := 0
  code      : Nat := 0
  time      : DWord := 0#64
  cycle     : DWord := 0#64
  detail    : DWord := 0#64
  words     : List Word := []
  entry     : Bool := false                    -- an event entry with its REC_SEQ follows the write (14 R413)
  mirror    : Option (BitVec 4 × DWord) := none -- SIDE and ORIGIN_SEQ of the originator (13 R387)
  origin    : Origin := .self                  -- the command that waits for SEQ (REC_NOTE, TRIGGER)
deriving DecidableEq, Repr

/-- The running state of a trigger (13 R381, R382, REC_TRIG_STATE). -/
structure TrigState where
  holding   : Bool := false
  firedNs   : Nat := 0       -- when the hold-off began
  fireCount : Nat := 0
  lost      : Nat := 0       -- captures lost since the last CAPTURE_OVERRUN record
deriving DecidableEq, Repr

/-- The recorder. -/
structure Recorder where
  head       : DWord := 0xFFFFFFFFFFFFFFFF#64   -- REC_HEAD: all ones before the first record
  slot       : Nat := 0                          -- ember slot that the next record takes, bad blocks apart
  ember      : Tbl Record := []                  -- the ember ring by slot
  peat       : Tbl Record := []                  -- the peat layer by sequence number
  peatLost   : List Nat := []                    -- peat blocks lost without a spare (R390)
  bad        : List (RecArea × Nat) := []        -- the bad-block map
  spares     : List Nat := []                    -- the peat block that each spare used stands for
  bookBad    : List Nat := []                    -- bookkeeping copies that cannot be read
  failed     : Bool := false
  annex      : List Record := []                 -- the fault annex, oldest first, at most 64
  annexTotal : Nat := 0
  annexOk    : Bool := true
  queue      : List RecReq := []                 -- captures and reports waiting to be written
  overrunCnt : Word := 0#32
  trigDefs   : Tbl TrigDef := []
  nextDefs   : Option (Tbl TrigDef) := none      -- those of a switch, from the next station tick on (R379)
  trigs      : Tbl TrigState := []
  quota      : Tbl Nat := []                     -- quotas that differ from the default of *Record sources*, plus one
  winSec     : Nat := 0                          -- the TAI second of the present quota window
  use        : Tbl Nat := []
  refuseCnt  : Tbl Word := []
  refused    : Tbl Nat := []                     -- refusals of each source in the present window
  window     : Tbl (Word × Word) := []           -- the selection in force, loaded when REC_WIN_SEQ_HI is written
deriving DecidableEq, Repr

end Sys2Proof.Machine
end

