-- ==== Sys2Proof/Machine/StReg.lean ====
section
/-! DEFINITION. Machine/StReg.lean: the state of the register interface and of the MOD and MNT blocks (15 R423-R442). -/
namespace Sys2Proof.Machine

/-- What each requester holds for itself (15 R427): read latches, the pending guarded write, the expired guard. -/
structure ReqState where
  shadow  : Tbl Word := []               -- shadow words by register offset (R434, R435)
  pending : Option (Nat × Word) := none  -- the pending guarded write: register offset and value (R430)
  expired : Option Nat := none           -- the offset whose guard stays expired after LATE (R431)
  sels    : Tbl Word := []               -- the registers of R427 by offset: selectors and REC_WIN_SEQ
deriving DecidableEq, Repr

/-- A station supply input (15 R440, 18 R480). -/
structure Supply where
  mv : Nat := 0
  ok : Bool := false
  up : Nat := 0                          -- station ticks for which it has stood at or above 17.0 V
deriving DecidableEq, Repr

/-- The register interface and the MOD block. -/
structure ModBlk where
  host       : ReqState := {}
  maint      : ReqState := {}
  guardCnt   : Word := 0#32
  accessCnt  : Word := 0#32
  parityCnt  : Word := 0#32
  guardInfo  : Word := 0#32
  scratch    : Word := 0#32
  scratchG   : Word := 0#32
  revision   : Word := 0x43020000#32     -- per module
  fwRelease  : Word := 0x04000000#32     -- per module
  serial     : DWord := 0#64             -- per module
  ready      : Bool := false
  failed     : Bool := false
  psA        : Supply := {}
  psB        : Supply := {}
  holdup     : Nat := 0                  -- MOD_HOLDUP in 0.1 ms
  holdupOk   : Bool := false
  holdupAt   : Option Nat := none        -- UPTIME ticks of the last 60 s measurement
  warn       : Bool := false             -- THERMAL_WARN
  coldRail   : Int := 0                  -- 0.1 °C
  die        : Int := 0
  coldHot    : Nat := 0                  -- station ticks for which COLD_RAIL has stood above 72 °C (R440)
  dieHot     : Nat := 0                  -- station ticks for which DIE has stood above 115 °C (18 R485)
  storeCorr  : Nat := 0                  -- errors corrected in the retained store (01 R21; log 100)
  power      : Nat := 0                  -- 0.1 W
  uptime     : Nat := 0                  -- station ticks since start-up
  passes     : Nat := 0
  longestUs  : Nat := 0
  powered    : Bool := false             -- at least one station supply carries the module
deriving DecidableEq, Repr

/-- An answer of the maintenance port (15 R441). -/
inductive MntOut where
  | opened
  | refused
  | closed
  | words (ws : List Word)
  | written
  | completion (tag : Word) (opcode : Byte) (status detail : Nat) (cycle : DWord) (result : List Byte)
  | event (source code : Nat) (detail recSeq : DWord)
deriving DecidableEq, Repr

/-- A COMMAND message that waits for the next service pass or for its end (15 R441). -/
structure MntCmd where
  desc   : Desc
  data   : List Byte := []
  obj    : ImageObj := .none
  pkg    : Package × Option Nat := ({}, none)
  taken  : Bool := false     -- a service pass has taken it
  passed : Bool := false
deriving DecidableEq, Repr

/-- The MNT block. -/
structure MntBlk where
  attached  : Bool := false
  session   : Option Rights := none
  sessKey   : Nat := 0                   -- the key that opened it
  lastMsg   : Nat := 0                   -- TAI ns of the newest message
  romOk     : Bool := false              -- ROM_CHECK_OK, per module
  romVer    : Nat := 2
  bootCnt   : Word := 0#32               -- per module
  authCnt   : Word := 0#32
  msgCnt    : DWord := 0#64
  fails     : List Nat := []             -- TAI ns of the failed OPENs within 60 s
  lockout   : Bool := false
  lockNs    : Nat := 0                   -- when the 300 s began
  identify  : Bool := false              -- running MNT_CMD commands
  identAt   : Nat := 0                   -- UPTIME ticks when IDENTIFY and HOLDUP_TEST were started
  testAt    : Nat := 0
  scrubNow  : Bool := false
  scrubLeft : Nat := 0                   -- passes that SCRUB_NOW still waits for (R438)
  holdTest  : Bool := false
  cmds      : List MntCmd := []
  sent      : List MntOut := []          -- the model's own log of the answers queued
deriving DecidableEq, Repr

end Sys2Proof.Machine
end

