-- ==== Sys2Proof/Machine/StSafe.lean ====
section
/-! DEFINITION. Machine/StSafe.lean: the state of the two safety lanes, the safety functions and the safety outputs
(10 R290-R323). -/
namespace Sys2Proof.Machine

/-- The states of a safety function (10 R303). -/
inductive FnPhase where
  | unused | active | timing | demanded | awaitReset | faulted
deriving DecidableEq, Repr

/-- The causes of a function's state (10 *SAFE_FN_STATE fields*). -/
inductive FnCause where
  | none | sip | discrepancy | partnerXtl | edm | brakeTest | escalation | repairTime | lsSupply | safetyId | laneFault
deriving DecidableEq, Repr

/-- The results of a brake test (10 R311). -/
inductive BrakeResult where
  | none | pass | fail | inconclusive | aborted
deriving DecidableEq, Repr

/-- The running state of a safety function with its brake test. -/
structure FnState where
  phase     : FnPhase := .unused
  cause     : FnCause := .none
  faults    : List FnCause := []     -- the present faults of a FAULTED function
  running   : Bool := false          -- a brake test runs
  result    : BrakeResult := .none
  due       : Bool := false          -- BRAKE_DUE
  lastPass  : Option Nat := none     -- TAI second of the last pass
  slip      : Word := 0#32
  testNo    : Half := 0#16
  startPos  : Word := 0#32           -- clock position at the origin of the test
  startCnt  : Word := 0#32           -- raw COUNT at the origin
  startNs   : Nat := 0
  timingNs  : Nat := 0               -- when DELAY started (R303)
  on        : Bool := false          -- some listed SO is energised
  swNs      : Nat := 0               -- when that last changed (R307)
  fbSeen    : Bool := false          -- FB has read the level that it asks for since then
  openNs    : Option Nat := none     -- FB has read open with every listed SO off since (R303)
  offNs     : Option Nat := none     -- DEMANDED or AWAIT_RESET with every listed SO off since (R309)
  abort     : Bool := false          -- the next brake test frame carries ABORT
  permit    : Bool := false          -- the brake test command applied
  request   : Bool := false
  asked     : Bool := false          -- REQUEST has changed from 0 to 1 since the last test
deriving DecidableEq, Repr

/-- The diagnostics of a safety output (10 *Safety output diagnostic codes*). -/
inductive SoDiag where
  | overload | openLoad | hsStuck | lsStuck | fwStuck | xtlFault | closureFail | lsSupply | escalated
deriving DecidableEq, Repr

/-- A safety output of this module. -/
structure So where
  cfg       : Word := 0x05001800#32
  request   : Bool := false
  terminal  : Bool := false          -- SOn energised, as last measured (10 R293)
  current   : Nat := 0               -- own stage current in 10 mA
  escal     : Bool := false          -- escalation asserted (R296)
  hDelay    : Option Nat := none     -- a lane H delay runs since (R306)
  hDoneNs   : Option Nat := none     -- when the last lane H delay completed
  ovlNs     : Option Nat := none     -- high side opened by an overload since
  onNs      : Option Nat := none     -- lane P commands the high side closed since (R302)
  openNs    : Option Nat := none     -- lane P holds it open on a demanded or faulted function since (R296)
  held      : Bool := false          -- HOLD_DUTY reached since the output was last closed (R308)
  test      : Option (Nat × Bool) := none  -- a test sequence in progress: its start in TAI ns, and whether it is a closure
  faultNs   : Option Nat := none     -- when the oldest latched switch fault was raised (R317)
  expired   : Bool := false          -- its REPAIR_TIME has been taken
  xtlPasses : Nat := 0
  active    : List SoDiag := []
  lastDiag  : Option SoDiag := none
deriving DecidableEq, Repr

/-- A SIP pair as the two lanes hold it. -/
structure SipPair where
  l1      : Bool := false            -- lane P levels
  l2      : Bool := false
  h1      : Bool := true             -- lane H: the channels in demand (levels 0 until sampled)
  h2      : Bool := true
  disP    : Option Nat := none       -- since when the channels disagree in lane P (R299)
  disH    : Option Nat := none
  discP   : Bool := false
  discH   : Bool := false
  stepP   : Bool := false            -- the first step of R300 has been seen in lane P
  stepH   : Bool := false
  failP1  : Bool := false            -- the lane P comparator of SIPp.1 failed its test
  failP2  : Bool := false
  failH1  : Bool := false
  failH2  : Bool := false
  pressNs : Option Nat := none       -- a reset press in progress since
deriving DecidableEq, Repr

/-- A monitored feedback input. -/
structure Fb where
  level : Bool := false
  fail  : Bool := false
deriving DecidableEq, Repr

/-- The safety cell. -/
structure Safe where
  pairs     : Tbl Word := []         -- the pair table
  fns       : Tbl FnEntry := []      -- the function table
  laneH     : LaneHTable := {}
  id        : DWord := 0#64          -- SAFETY_ID of the tables in force
  idOk      : Bool := false          -- the checks of R292 pass
  laneP     : Bool := false          -- lane P runs and is free of fault
  pFaultNs  : Option Nat := none     -- when lane P last took a fault (R305)
  laneHOk   : Bool := false          -- lane H runs, parameter CRC correct
  cellPower : Bool := false          -- the safety cell is powered (R494)
  seated    : Bool := false          -- the module reads itself as seated: its stages may drive (00 R2, 01 R18)
  lsOk      : Bool := false
  lsLow12   : Bool := true           -- LS+ below 12.0 V
  armed     : Word := 0#32           -- partner cross lines armed, bit n (01 R20)
  xtlIn     : Word := 0#32           -- partner cross lines de-energised, bit n
  sip       : Tbl SipPair := []
  fb        : Tbl Fb := []
  fn        : Tbl FnState := []
  so        : Tbl So := []
  tripCnt   : Word := 0#32
  discCnt   : Word := 0#32
  preempted : Nat := 0
  failed    : Nat := 0
deriving DecidableEq, Repr

end Sys2Proof.Machine
end

