-- ==== Sys2Proof/Machine/StTime.lean ====
section
/-! DEFINITION. Machine/StTime.lean: the state of the time unit: wall time, angle clocks, slots and captures (06 R161-R192). -/
namespace Sys2Proof.Machine

/-- The discipline states (06 R164). -/
inductive Discipline where
  | freeRun | acquiring | locked | quarantine | holdover | follow
deriving DecidableEq, Repr

/-- The angle clock states (06 R179). -/
inductive AcState where
  | off | search | locked | standstill | unreferenced | overspeed
deriving DecidableEq, Repr

/-- An angle clock. -/
structure AngleClock where
  cfg      : Word := 0#32
  zcfg     : Word := 0x0002000A#32
  state    : AcState := .off
  refErr   : Bool := false
  disagree : Bool := false
  amp      : Nat := 0
  base     : DWord := 0#64               -- mains: the tracker's position; shaft: the position at the last reference
  cnt      : Int := 0                    -- shaft: counts since the last reference
  between  : Nat := 0                    -- shaft: the angle moved since the last edge
  since    : Option Int := none          -- shaft: ns from the last edge to the start of the station tick; none before the first
  back     : Bool := false               -- shaft: the last count was backwards
  held     : Option DWord := none        -- shaft: reported position held after a correction backwards (R178)
  rate     : Int := 0
  mirror   : Option (DWord × Int) := none -- FOLLOW: the LEAD's position and rate
  corr     : Int := 0                    -- after promotion: reported minus own position
  corrLeft : Nat := 0                    -- station ticks left to remove it
  seen     : DWord := 0#64               -- the reported position up to which crossings have been judged
deriving DecidableEq, Repr

/-- The content of an angle-event slot (06 R181), its first six words. -/
structure SlotContent where
  ctrl    : Word := 0#32
  angle   : Word := 0#32
  turn    : Word := 0#32
  rateMin : Word := 0#32
  rateMax : Word := 0#32
  pulse   : Word := 0#32
deriving DecidableEq, Repr

/-- The states of a slot (06 R184). -/
inductive SlotState where
  | idle | armed | fired | missed | fixed
deriving DecidableEq, Repr

/-- An angle-event slot. -/
structure AngleSlot where
  content   : SlotContent := {}
  task      : Nat := 0
  state     : SlotState := .idle
  reason    : Nat := 0
  fireCount : Nat := 0
  fireTurn  : Word := 0#32
  fireNs    : Nat := 0
  tang      : Nat := 0                   -- T_ang while FIXED
  tangTurn  : Word := 0#32               -- the turn that T_ang belongs to
  heldNew   : Option SlotContent := none -- content that loads after the action
  lastTurn  : Option Word := none        -- EVERY_TURN: the turn number of the last firing since it was loaded
  pulsing   : Bool := false
deriving DecidableEq, Repr

/-- An edge as captured (06 R189). -/
structure CapEdge where
  ns     : Nat := 0
  angle  : Word := 0#32
  turn   : Word := 0#32
  rising : Bool := false
  locked : Bool := false
deriving DecidableEq, Repr

/-- A capture record in the making, or as latched. -/
structure Capture0 where
  count : Nat := 0
  first : CapEdge := {}
  last  : CapEdge := {}
deriving DecidableEq, Repr

/-- The time unit. -/
structure TimeBlk where
  sec        : DWord := 0#64
  ns         : Word := 0#32
  frac       : Half := 0#16
  disc       : Discipline := .freeRun
  cfg        : Word := 0x0000010A#32
  offset     : Int := 0            -- last measured offset to the grandmaster
  residual   : Int := 0            -- correction still to be applied, in 10⁻⁵ ns
  slew       : Int := 0            -- TIME_SLEW, ns/s
  holdTicks  : Nat := 0            -- station ticks in the present HOLDOVER
  expired    : Bool := false
  asymmetry  : Bool := false
  pending    : Int := 0            -- TIME_PENDING_STEP
  quarCnt    : Word := 0#32
  stepCnt    : Word := 0#32
  quarSyncs  : Nat := 0            -- sync intervals in the present QUARANTINE
  within     : Nat := 0            -- consecutive sync intervals with the offset within ±1 µs
  apart      : Nat := 0            -- consecutive sync intervals in FOLLOW with the offset beyond it
  tickBad    : Option Nat := none  -- FOLLOW: since when the tick offset has been beyond ±200 ns, TAI ns
  fwdStep    : Nat := 0            -- a forward step in ns that applies at the next station tick
  leadLocked : Bool := false       -- the LEAD's discipline state is LOCKED
  utcValid   : Bool := false
  leap59     : Bool := false
  leap61     : Bool := false
  utcOffset  : Half := 0#16
  clocks     : Tbl AngleClock := []
  phases     : Tbl Word := []      -- the phase of each mains tracker
  slots      : Tbl AngleSlot := []
  missCnt    : Word := 0#32
  lastAct    : Tbl (Option (Nat × Bool)) := []  -- instant of the last slot action on a target, and whether it was ON
  sipCap     : Tbl Nat := []       -- SIP terminals configured for capture: clock + 1
  accum      : Tbl Capture0 := []  -- captures since the last T0, by task × 256 + channel
  latched    : Tbl Capture0 := []  -- captures as latched at the last T0
deriving DecidableEq, Repr

end Sys2Proof.Machine
end

