-- ==== Sys2Proof/Machine/StTwin.lean ====
section
/-! DEFINITION. Machine/StTwin.lean: the state of the twin unit (04 R100-R141). -/
namespace Sys2Proof.Machine

/-- The state of an Olvia lane (04 R101). -/
inductive LaneState where
  | down | handshake | up
deriving DecidableEq, Repr

/-- An Olvia lane. -/
structure OlviaLane where
  state   : LaneState := .down
  training : Bool := false         -- an attempt is in progress
  next    : Nat := 0               -- the earliest start of the next attempt, TAI ns
  fails   : List Nat := []         -- TAI ns of the authentication failures within 1 ms
  errors  : Nat := 0
  key     : BitVec 256 := 0#256    -- the session key of the last handshake (04 R102)
deriving DecidableEq, Repr

/-- The link state (04 R110). -/
inductive LinkState where
  | severed | catchingUp | joined
deriving DecidableEq, Repr

/-- A frame that the module sends on the Olvia link, on both lanes (04 R100, R103). -/
inductive OlviaOut where
  | heartbeat (h : Heartbeat)
  | samples (task : Nat) (k : DWord) (vals : List InVal)
  | agreed (task : Nat) (k : DWord) (vals : List InVal)
  | hash (task : Nat) (k hash audit : DWord) (diff : Bool)
  | imageHash (task : Nat) (hash : DWord)
  | billetFault (task : Nat) (k : DWord)
  | verdict (task : Nat) (k : DWord) (code ta : Nat)
  | policy (m : PolicyMsg)
  | yield (r : Region) (handover : Bool)
  | copy (m : CopyMsg)
  | result (pass : Bool)
  | staging (reason : Nat)
  | config (reason : Nat)
  | memFault (side : BitVec 4) (seq detail time cycle : DWord)
  | seq (m : SeqMsg)
deriving DecidableEq, Repr

/-- TYPE of a frame (04 *Olvia frame types*). -/
def OlviaOut.type : OlviaOut → Nat
  | .heartbeat _ => 1
  | .samples _ _ _ => 2
  | .agreed _ _ _ => 3
  | .hash _ _ _ _ _ | .imageHash _ _ | .billetFault _ _ => 4
  | .verdict _ _ _ _ => 5
  | .policy _ => 6
  | .seq _ => 7
  | .yield _ _ => 8
  | .copy _ => 9
  | .result _ | .staging _ | .config _ | .memFault _ _ _ _ _ => 10

/-- One copy of a sent frame as its lane carries it: the header (04 *Olvia frame*), with the nonce and the tag of R102. -/
structure OlviaHead where
  type  : Nat
  slotB : Bool
  lane  : Nat
  len   : Nat
  seq   : Word
  ctr   : DWord
  nonce : BitVec 96
  tag   : BitVec 128
deriving DecidableEq, Repr

/-- What a module holds of one cycle of a task for the comparison with the partner (04 R117-R119). -/
structure HashPair where
  k     : DWord := 0#64
  hash  : DWord := 0#64
  audit : DWord := 0#64
  diff  : Bool := false     -- the SHADOW's agreed image differed from AGREED (04 R116)
deriving DecidableEq, Repr

/-- The exchange of one task with the partner. -/
structure TwinTask where
  samples : Option (DWord × List InVal) := none   -- the partner's raw samples of a cycle
  agreed  : Option (DWord × List InVal) := none   -- the LEAD's AGREED of a cycle
  own     : Option HashPair := none
  partner : Option HashPair := none
  fault   : Option DWord := none                  -- the partner reported a billet fault in this cycle
  ownFault : Option DWord := none                 -- this module abandoned this cycle (03 R75)
  verdict : Option (DWord × Nat × Nat) := none    -- cycle, code and Ta of the last verdict sent or received
  keep    : Bool := false                         -- the LEAD's cycle is late: Ta moves (04 R119)
  release : Bool := false                         -- shared stages are released at the next apply instant
  matched : Nat := 0                              -- consecutive APPLY verdicts while CATCHING-UP
  image   : Option DWord := none                  -- the partner's image hash of a task that starts no cycle
  proved  : Bool := false
  step    : Bool := false                         -- LEAD: the SHADOW runs this task in step
  copied  : Option DWord := none                  -- LEAD: the cycle in progress when the image was copied: its lines follow
  begun   : Bool := false                         -- LEAD: the copy of this task has begun (04 R124)
  differs : Bool := false                         -- the agreed image of the cycle in progress differed from AGREED
deriving DecidableEq, Repr

/-- A yield in progress (04 R127): the region or a handover, the command that asked for it, and whether YIELD is sent. -/
structure Yielding where
  region : Option Region := none
  origin : Origin := .self
deriving DecidableEq, Repr

/-- The twin unit. -/
structure TwinBlk where
  started    : Bool := false          -- a role has been taken and not lost with the seat or by a failure
  began      : Bool := false          -- a role has been taken since start-up (04 R110)
  slotB      : Bool := false          -- SLOT_ID (per module)
  seated     : Bool := false
  waiting    : Bool := false          -- the wait of *Starting role* runs (04 R114)
  waitAt     : Nat := 0               -- UPTIME ticks when it began
  partner    : Bool := false          -- the partner's presence contact is closed
  ownLow     : Bool := false          -- the module's own role line is low
  partnerLow : Bool := false
  high1us    : Bool := true           -- the partner's line counts as high (04 R109)
  keeper     : Bool := false          -- the keeper is strobed
  link       : LinkState := .severed
  isolated   : Bool := false
  suspect    : Bool := false
  engaged    : Bool := false
  lost       : Bool := false          -- the partner has been declared lost since its last HEARTBEAT
  split      : Option (Nat × Nat) := none   -- a split brain: T_take in TAI ns and reference T0s since
  openElig   : Option Bool := none          -- the partner's contact opened: eligibility before it, until its line is high
  lanes      : Tbl OlviaLane := []
  txSeq      : Word := 0#32           -- MSG_SEQ of the next frame
  txCtr      : Tbl DWord := []        -- FRAME_CTR of the next frame of each lane
  copies     : List (Nat × Word) := []  -- frames used whose second copy is still to come: lane of the first copy and MSG_SEQ
  peer       : PeerId := {}           -- what the partner said of itself in the handshake
  heard      : Option Heartbeat := none
  eligHeard  : Bool := false          -- this module's eligibility when it came (04 R113)
  regions    : List Region := []      -- region faults present (01 R22)
  axDiff     : Bool := false
  blocked    : Bool := false          -- PROMOTION_BLOCKED: no later promotion by itself
  tasks      : Tbl TwinTask := []
  phase      : Nat := 0               -- COPY_STATUS PHASE
  copyTask   : Nat := 0
  percent    : Nat := 0
  copyTodo   : List Nat := []         -- LEAD: the tasks whose full image is still to send
  copyOff    : Nat := 0               -- LEAD: bytes sent of the first of them
  copyNs     : Nat := 0               -- start of the state copy
  shown      : Bool := false          -- the partner has shown JOINED since this module became so (04 R111)
  seqDone    : Bool := false          -- step 3 of R124 is complete
  testing    : Bool := false          -- the self-test after a MISMATCH verdict runs
  ownResult  : Option Bool := none
  peerResult : Option Bool := none
  afterJoin  : Bool := false          -- the LEAD's self-test failed: it yields once the SHADOW is eligible
  yielding   : Option Yielding := none
  handover   : Option Origin := none  -- an accepted handover: it begins at the next station tick
  lastTake   : Word := 0#32
  joinReason : Nat := 0
  missCnt    : Word := 0#32
  authCnt    : Word := 0#32
  mismCnt    : Word := 0#32
  takeCnt    : Word := 0#32
  splitCnt   : Word := 0#32
  mismTask   : Word := 0#32
  mismCycle  : DWord := 0#64
  substCnt   : DWord := 0#64
  tickOff    : Int := 0
  sent       : List OlviaOut := []    -- the model's own log of the frames sent
  heads      : List (List OlviaHead) := []  -- and of their copies on the lanes
deriving DecidableEq, Repr

end Sys2Proof.Machine
end

