-- ==== Sys2Proof/Machine/StXch.lean ====
section
/-! DEFINITION. Machine/StXch.lean: the state of the exchange unit (05 R142-R160). -/
namespace Sys2Proof.Machine

/-- The exchange states (05 R144). -/
inductive XchState where
  | idle | staging | staged | armed | switching | settling
deriving DecidableEq, Repr

/-- The exchange record of the control area (05 R157, R155). -/
structure XchRec where
  state   : XchState := .idle
  pivot   : Nat := 0
  n       : DWord := 0#64
  mask    : Word := 0#32        -- tasks switched, or settled while SETTLING
  inStop  : Bool := false       -- an exchange in STOP
  carried : Bool := false
deriving DecidableEq, Repr

/-- The exchange unit. -/
structure XchBlk where
  cur       : XchRec := {}            -- the valid exchange record
  old       : XchRec := {}            -- the other slot
  len       : Nat := 0                -- bytes of the package written
  total     : Nat := 0
  pkg       : Option Package := none  -- the package in the inactive program slot
  signer    : Option Nat := none      -- the key that the package's signature verifies against
  written   : Bool := false           -- its last piece is written: the checks are due
  ownOk     : Bool := false           -- this module has passed its checks
  peerOk    : Bool := false           -- the partner reports that it has
  stageOrg  : Origin := .self
  armOrg    : Origin := .self
  disarmOrg : Origin := .self
  reason    : Nat := 0
  done      : Bool := false           -- PRECARRY_DONE
  ready     : Bool := false           -- TWIN_READY
  percent   : Nat := 0
  go        : Bool := false           -- the go decision was given
  alone     : Bool := false           -- a takeover has left the decision to this module's own pre-carry (05 R158)
  txNs      : Option Nat := none      -- Tx, once the pivot's outputs have applied
  stage     : Tbl (Tbl Byte) := []    -- each task's new image as translated so far (S0 and S1 are kept identical)
  finals    : Tbl (Tbl Byte) := []    -- the final old committed image of each task that has switched (05 R153)
  carriedAt : Tbl Nat := []           -- when the carry of each task completed, TAI ns (05 R152)
  cfgDone   : Bool := false           -- the package's configuration has come into force
  switched  : Word := 0#32
  mirrored  : Tbl Nat := []           -- bytes of each task's image mirrored into banks A and B while SETTLING (05 R157)
  carryLate : Word := 0#32            -- tasks whose first new T0 is put off (05 R152)
  discarded : Word := 0#32
  added     : Word := 0#32
  converted : Word := 0#32
  completes : Word := 0#32
  aborts    : Word := 0#32
  refuses   : Word := 0#32
  reverse   : Option CarryMap := none -- reverse map of the package that installed the running program
deriving DecidableEq, Repr

end Sys2Proof.Machine
end

