-- ==== Sys2Proof/Machine/State.lean ====
section
/-! DEFINITION. Machine/State.lean: the whole state of one GB960-PSC-M module, the reasons a step can stop, and the state
after reset. -/
namespace Sys2Proof.Machine

/-- Why the machine stops with a fault. No command of the spec stops the block, so no meaning raises one. -/
inductive Fault where
  /-- Raised by nothing: the type is closed and needs a member. Safe. -/
  | none
deriving DecidableEq, Repr

/-- Why a command has no meaning. -/
inductive Refusal where
  /-- Raised by `exec` for a command that has no meaning yet. Safe. -/
  | notModelled (mnemonic : String)
deriving DecidableEq, Repr

/-- The state of the module. -/
structure State where
  event    : Tbl Word := []       -- the EVENT register of each block, by block code
  eventEn  : Tbl Word := []       -- the EVENT_EN register of each block, by block code
  mod      : ModBlk := {}
  mnt      : MntBlk := {}
  recorder : Recorder := {}
  host     : HostBlk := {}
  time     : TimeBlk := {}
  dio      : Dio := {}
  aio      : Aio := {}
  safe     : Safe := {}
  ax       : AxBlk := {}
  pnl      : PnlBlk := {}
  net      : NetBlk := {}
  cyc      : CycBlk := {}
  fab      : FabBlk := {}
  twin     : TwinBlk := {}
  xch      : XchBlk := {}
  cfg      : CfgBlk := {}
  free     : Nat := 0             -- the model's own: how many free values have been taken
  pending  : List Instr := []     -- the model's own: the commands that wait, first in, first out
deriving DecidableEq, Repr

/-- The module right after reset. (DESIGN CHOICE, log 22) -/
def State.reset : State := {}

end Sys2Proof.Machine
end

