-- ==== Sys2Proof/Machine/ViewReg.lean ====
section
/-! DEFINITION. Machine/ViewReg.lean: the MOD, MNT, REC and HOST registers (15 R440, R442, 13 R394, 14 R422). -/
namespace Sys2Proof.Machine

/-- The size of a ring in entries (14 R397). -/
def OutRing.size (r : OutRing) : Nat := 2 ^ Bits.get r.cfg 24 4

/-- Entries written and not yet consumed (PENDING). -/
def OutRing.used (r : OutRing) : Nat := (r.tail + r.size - r.head) % r.size

/-- Entries free for the module: one place always stays empty (14 R399). -/
def OutRing.room (r : OutRing) : Nat := r.size - 1 - r.used

/-- The host address of an entry of a ring (14 R397). -/
def OutRing.addr (r : OutRing) (i : Nat) : DWord := (r.baseHi ++ r.baseLo) + BitVec.ofNat 64 (64 * i)

/-- The first 60 bytes of an event entry (14 *Event entry*). -/
def EventEntry.bytes (e : EventEntry) : List Byte :=
  [BitVec.ofNat 8 e.kind, BitVec.ofNat 8 e.source] ++ Bits.bytes16 (BitVec.ofNat 16 e.code) ++ List.replicate 4 0#8 ++ Bits.bytes64 e.time
    ++ Bits.bytes64 e.detail ++ Bits.bytes64 e.recSeq ++ (e.extra ++ List.replicate 28 0#8).take 28

/-- The first 60 bytes of a completion entry (14 *Completion entry*). -/
def Completion.bytes (c : Completion) : List Byte :=
  Bits.bytes32 c.tag ++ [c.opcode, BitVec.ofNat 8 c.status, BitVec.ofNat 8 c.detail, BitVec.ofNat 8 c.sq]
    ++ Bits.bytes16 (BitVec.ofNat 16 c.sqHead) ++ List.replicate 6 0#8 ++ Bits.bytes64 c.time ++ Bits.bytes64 c.cycle
    ++ (c.result ++ List.replicate 28 0#8).take 28

/-- The two posted writes of an entry: bytes 0x00 to 0x3B, then the word with PHASE (14 R400). -/
def entryWrites (addr : DWord) (phase : Bool) (bytes : List Byte) : List (DWord × List Byte) :=
  [(addr, bytes), (addr + 60#64, Bits.bytes32 (Bits.ofBool phase 31))]

/-- The memory writes that the module issues, in order (14 R396, R400). -/
def HostOut.writes : HostOut → List (DWord × List Byte)
  | .event addr phase e => entryWrites addr phase e.bytes
  | .completion _ addr phase c => entryWrites addr phase c.bytes
  | .data addr bytes => [(addr, bytes)]
  | .msix _ => []

/-- The value of HOST_CQn_STATUS or HOST_EQ_STATUS (14 R422). -/
def OutRing.status (r : OutRing) : Word :=
  Bits.fld (match r.state with | .disabled => 0 | .enabled => 1 | .error => 2 | .stopping => 3) 30
    ||| Bits.fld r.full 13 ||| Bits.fld r.used 0

/-- A word of the MSI-X table; the vector control word of an entry comes up masked (PRESUMED from PCIe, log 5). -/
def msixDefault (i : Nat) : Word := if i % 4 = 3 then 1#32 else 0#32

/-- The table word in force: the table holds the exclusive-or with its power-up value. -/
def HostBlk.msixWord (h : HostBlk) (i : Nat) : Word := Tbl.get 0#32 h.msixTable i ^^^ msixDefault i

/-- The default quota of a source (13 *Record sources*). -/
def defaultQuota (src : Nat) : Nat :=
  if src = 16 then 1000 else if src = 3 ∨ src = 9 ∨ src = 12 then 0 else 200

/-- The quota of a source in force (13 R384): the table holds it plus one, 0 standing for the default. -/
def Recorder.quotaOf (r : Recorder) (src : Nat) : Nat :=
  match Tbl.get 0 r.quota src with
  | 0 => defaultQuota src
  | q + 1 => q

/-- Captures held for the supervisor (13 R382). -/
def Recorder.depth (r : Recorder) : Nat := (r.queue.filter (fun q => q.source == 16)).length

/-- MOD_SUMMARY: a bit for each block whose EVENT register has any bit set. -/
def summary (event : Tbl Word) : Word :=
  (List.range 16).foldl (fun w b => w ||| Bits.ofBool (Tbl.get 0#32 event b != 0#32) b) 0#32

/-- The registers of the MOD block by offset, but for MOD_EVENT, MOD_EVENT_EN and MOD_SUMMARY. -/
def ModBlk.reg (m : ModBlk) (o : Nat) : Word :=
  match o with
  | 0x00 => Bits.ofBool m.ready 31 ||| Bits.ofBool m.failed 30 ||| Bits.ofBool m.psA.ok 29 ||| Bits.ofBool m.psB.ok 28
      ||| Bits.ofBool m.holdupOk 27 ||| Bits.ofBool m.warn 26
  | 0x10 => 0x36394247#32
  | 0x14 => 0x53502D30#32
  | 0x18 => 0x004D2D43#32
  | 0x1C => m.revision
  | 0x20 => m.fwRelease
  | 0x24 => Bits.lo m.serial
  | 0x28 => Bits.hi m.serial
  | 0x2C => ((BitVec.ofInt 16 m.coldRail).setWidth 32 <<< 16) ||| (BitVec.ofInt 16 m.die).setWidth 32
  | 0x30 => Bits.fld (m.psB.mv % 65536) 16 ||| Bits.fld (m.psA.mv % 65536) 0
  | 0x34 => Bits.fld (min m.holdup 65535) 0
  | 0x38 => Bits.fld (min m.power 65535) 0
  | 0x40 => BitVec.ofNat 32 (m.uptime / 100000)
  | 0x44 => BitVec.ofNat 32 (m.uptime / 100000 / 4294967296)
  | 0x48 => m.guardCnt
  | 0x4C => m.accessCnt
  | 0x50 => m.parityCnt
  | 0x54 => m.guardInfo
  | 0x58 => Bits.fld (min m.longestUs 65535) 16 ||| Bits.fld (m.passes % 65536) 0
  | 0x5C => m.scratch
  | 0x60 => m.scratchG
  | _ => 0#32

/-- The registers of the MNT block by offset at TAI ns `now`, but for MNT_EVENT and MNT_EVENT_EN. -/
def MntBlk.reg (m : MntBlk) (now : Nat) (o : Nat) : Word :=
  match o with
  | 0x00 => Bits.ofBool m.attached 31 ||| Bits.ofBool m.session.isSome 30 ||| Bits.ofBool true 29
  | 0x0C => Bits.ofBool m.holdTest 2 ||| Bits.ofBool m.scrubNow 1 ||| Bits.ofBool m.identify 0
  | 0x10 => match m.session with
      | some r => Bits.ofBool r.read 31 ||| Bits.ofBool r.write 30 ||| Bits.ofBool r.command 29 ||| Bits.fld (900 - (now - m.lastMsg) / 1000000000) 0
      | none => 0#32
  | 0x14 => Bits.fld m.romVer 24 ||| Bits.ofBool m.romOk 23
  | 0x18 => m.bootCnt
  | 0x1C => m.authCnt
  | 0x20 => Bits.lo m.msgCnt
  | 0x24 => Bits.hi m.msgCnt
  | _ => 0#32

/-- Is the block of an ember slot good (13 R377)? -/
def Recorder.emberGood (r : Recorder) (slot : Nat) : Bool := !r.bad.contains (.ember, slot / 128)

/-- The record that the ember ring holds under a sequence number. -/
def Recorder.inEmber (r : Recorder) (n : Nat) : Option Record :=
  (r.ember.find? (fun e => e.2.seq.toNat == n && r.emberGood e.1)).map Prod.snd

/-- The record that the peat layer holds under a sequence number (13 R376, R390). -/
def Recorder.inPeat (r : Recorder) (n : Nat) : Option Record :=
  if r.peatLost.contains (n / 128) then none else (r.peat.find? (fun e => e.1 == n)).map Prod.snd

/-- REC_OLDEST: the lowest sequence number that the ring still holds (13 R377). -/
def Recorder.oldest (r : Recorder) : Nat :=
  ((r.ember.filter (fun e => r.emberGood e.1)).foldl (fun (b : Option Nat) e =>
    match b with
    | some n => some (min n e.2.seq.toNat)
    | none => some e.2.seq.toNat) none).getD 0

/-- The 128 words of a record (13 R373). -/
def Record.wordList (r : Record) : List Word :=
  let body := Bits.bytes64 r.time ++ Bits.bytes64 r.cycle ++ Bits.bytes64 r.originSeq
    ++ [BitVec.ofNat 8 (r.side.toNat * 16), r.source] ++ Bits.bytes16 r.code
    ++ [BitVec.ofNat 8 (r.peat.toNat * 128 + r.mirrored.toNat * 64 + r.lost.toNat * 32), BitVec.ofNat 8 r.words.length]
    ++ [0#8, 0#8] ++ Bits.bytes64 r.detail
  let crc := Bits.crc32c (body ++ r.words.flatMap Bits.bytes32)
  let w := fun (i : Nat) => BitVec.ofNat 32 (Bits.leAt body (4 * i) 4)
  [Bits.lo r.seq, Bits.hi r.seq] ++ (List.range 10).map w ++ [crc, 0#32, Bits.lo r.seq, Bits.hi r.seq]
    ++ (r.words ++ List.replicate (112 - r.words.length) 0#32)

/-- What the window of a requester shows: HELD, PEAT, LOST and the words (13 R394). -/
def Recorder.window' (r : Recorder) (who : Nat) : Word × List Word :=
  match r.window.find? (fun e => e.1 == who) with
  | none => (0#32, [])
  | some (_, lo, hi) =>
    if Bits.bit hi 31 then
      match r.annex[Bits.get lo 0 6]? with
      | some a => (Bits.ofBool true 31, a.wordList)
      | none => (0#32, [])
    else
      let n := (Bits.get hi 0 31) * 4294967296 + lo.toNat
      match r.inEmber n with
      | some a => (Bits.ofBool true 31 ||| Bits.ofBool a.lost 29, a.wordList)
      | none =>
        match r.inPeat n with
        | some a => (Bits.ofBool true 31 ||| Bits.ofBool true 30 ||| Bits.ofBool a.lost 29, a.wordList)
        | none => (Bits.ofBool (r.peatLost.contains (n / 128) && decide (n < 65536)) 29, [])

def TrigKind.code : TrigKind → Nat
  | .none => 0 | .event _ _ => 1 | .rise _ _ _ => 2 | .fall _ _ _ => 3 | .change _ _ => 4 | .host => 5

/-- The registers of the REC block by offset, but for REC_EVENT and REC_EVENT_EN, as requester `who` (0 host, 1
maintenance) with its selectors reads them. -/
def Recorder.reg (r : Recorder) (who : Nat) (sels : Tbl Word) (o : Nat) : Word :=
  let sel := fun (k : Nat) => Tbl.get 0#32 sels (0x3000 + k)
  let src := Bits.get (sel 0x34) 0 8
  let tn := Bits.get (sel 0x2C) 0 8
  let td := Tbl.get {} r.trigDefs tn
  let ts := Tbl.get {} r.trigs tn
  let ember := (r.bad.filter (fun e => e.1 == .ember)).length
  if 0x200 ≤ o ∧ o < 0x400 then (r.window' who).2.getD ((o - 0x200) / 4) 0#32
  else match o with
    | 0x00 => Bits.fld (if r.failed then 2 else if r.bad.isEmpty then 0 else 1) 30
        ||| Bits.ofBool (65535 ≤ r.head.toNat && r.head != 0xFFFFFFFFFFFFFFFF#64) 29 ||| Bits.fld r.depth 16
    | 0x0C => Bits.lo r.head
    | 0x10 => Bits.hi r.head
    | 0x14 => BitVec.ofNat 32 r.oldest
    | 0x18 => BitVec.ofNat 32 (r.oldest / 4294967296)
    | 0x1C => if r.head = 0xFFFFFFFFFFFFFFFF#64 then 0#32 else Bits.fld (min (r.head.toNat + 1) 65536) 0
    | 0x20 => Bits.fld r.spares.length 16 ||| Bits.fld ember 0
    | 0x24 => Bits.ofBool r.annexOk 23 ||| Bits.fld r.annex.length 16 ||| Bits.fld (min r.annexTotal 65535) 0
    | 0x28 => r.overrunCnt
    | 0x2C => Bits.fld tn 0
    | 0x30 => Bits.ofBool td.valid 31 ||| Bits.fld td.kind.code 28 ||| Bits.ofBool ts.holding 27
        ||| Bits.fld (td.snaps.length % 256) 16 ||| Bits.fld ts.fireCount 0
    | 0x34 => Bits.fld src 0
    | 0x38 => Bits.fld (r.quotaOf src) 0
    | 0x3C => Bits.fld (min (Tbl.get 0 r.use src) 65535) 0
    | 0x40 => Tbl.get 0#32 r.refuseCnt src
    | 0x44 => sel 0x44
    | 0x48 => sel 0x48
    | 0x4C => (r.window' who).1
    | _ => 0#32

/-- Descriptors taken from a submission ring and not yet completed. -/
def HostBlk.inFlight (h : HostBlk) (n : Nat) : Nat := (h.taken.filter (fun t => t.sq == n)).length

def RingState.subCode : RingState → Nat
  | .disabled => 0 | .enabled => 1 | .error => 2 | .stopping => 3

/-- One completion or event ring's registers (14 R422). -/
def OutRing.reg (q : OutRing) (k : Nat) : Word :=
  match k with
  | 0x00 => q.baseLo
  | 0x04 => q.baseHi
  | 0x08 => q.cfg
  | 0x0C => Bits.fld q.head 0
  | 0x10 => Bits.fld q.tail 0
  | 0x14 => q.status
  | _ => 0#32

/-- One submission ring's registers, with its descriptors in flight (14 R422). -/
def SubRing.reg (q : SubRing) (inFlight k : Nat) : Word :=
  match k with
  | 0x00 => q.baseLo
  | 0x04 => q.baseHi
  | 0x08 => q.cfg
  | 0x0C => Bits.fld q.tail 0
  | 0x10 => Bits.fld q.head 0
  | 0x14 => Bits.fld q.state.subCode 30 ||| Bits.fld inFlight 0
  | _ => 0#32

/-- The registers of the HOST block by offset, but for HOST_EVENT and HOST_EVENT_EN (14 R422). -/
def HostBlk.reg (h : HostBlk) (o : Nat) : Word :=
  let sq := fun (n : Nat) => Tbl.get {} h.sqs n
  let cq := fun (n : Nat) => Tbl.get {} h.cqs n
  if 0x40 ≤ o ∧ o < 0x140 then
    (sq ((o - 0x40) / 0x20)).reg (h.inFlight ((o - 0x40) / 0x20)) ((o - 0x40) % 0x20)
  else if 0x140 ≤ o ∧ o < 0x240 then (cq ((o - 0x140) / 0x20)).reg ((o - 0x140) % 0x20)
  else if 0x240 ≤ o ∧ o < 0x258 then h.eq.reg (o - 0x240)
  else match o with
    | 0x00 => Bits.ofBool h.linkUp 31 ||| Bits.ofBool h.busMaster 30 ||| Bits.fld h.speed.toNat 28 ||| Bits.fld h.width.toNat 26
        ||| Bits.ofBool h.msixEn 25 ||| Bits.ofBool h.msixMask 24
        ||| (List.range 8).foldl (fun w n => w ||| Bits.ofBool ((sq n).state == .enabled) (8 + n)
          ||| Bits.ofBool ((cq n).state == .enabled) n) 0#32
    | 0x0C => h.errInfo
    | 0x10 => h.dmaErrCnt
    | _ => 0#32

end Sys2Proof.Machine
end

