-- ==== Sys2Proof/Machine/Sha256.lean ====
section
/-! DEFINITION. Machine/Sha256.lean: SHA-256, which SAFETY_ID and the image identities are taken from (10 R292, 05 R160).
The algorithm is that of FIPS 180-4 (PRESUMED, log 8). -/
namespace Sys2Proof.Sha256

/-- The round constants. -/
def k : List Word :=
  [0x428a2f98#32, 0x71374491#32, 0xb5c0fbcf#32, 0xe9b5dba5#32, 0x3956c25b#32, 0x59f111f1#32, 0x923f82a4#32, 0xab1c5ed5#32,
   0xd807aa98#32, 0x12835b01#32, 0x243185be#32, 0x550c7dc3#32, 0x72be5d74#32, 0x80deb1fe#32, 0x9bdc06a7#32, 0xc19bf174#32]
  ++ [0xe49b69c1#32, 0xefbe4786#32, 0x0fc19dc6#32, 0x240ca1cc#32, 0x2de92c6f#32, 0x4a7484aa#32, 0x5cb0a9dc#32, 0x76f988da#32,
   0x983e5152#32, 0xa831c66d#32, 0xb00327c8#32, 0xbf597fc7#32, 0xc6e00bf3#32, 0xd5a79147#32, 0x06ca6351#32, 0x14292967#32]
  ++ [0x27b70a85#32, 0x2e1b2138#32, 0x4d2c6dfc#32, 0x53380d13#32, 0x650a7354#32, 0x766a0abb#32, 0x81c2c92e#32, 0x92722c85#32,
   0xa2bfe8a1#32, 0xa81a664b#32, 0xc24b8b70#32, 0xc76c51a3#32, 0xd192e819#32, 0xd6990624#32, 0xf40e3585#32, 0x106aa070#32]
  ++ [0x19a4c116#32, 0x1e376c08#32, 0x2748774c#32, 0x34b0bcb5#32, 0x391c0cb3#32, 0x4ed8aa4a#32, 0x5b9cca4f#32, 0x682e6ff3#32,
   0x748f82ee#32, 0x78a5636f#32, 0x84c87814#32, 0x8cc70208#32, 0x90befffa#32, 0xa4506ceb#32, 0xbef9a3f7#32, 0xc67178f2#32]

/-- The eight working variables. -/
structure H where
  a : Word
  b : Word
  c : Word
  d : Word
  e : Word
  f : Word
  g : Word
  h : Word
deriving DecidableEq, Repr

def init : H :=
  ⟨0x6a09e667#32, 0xbb67ae85#32, 0x3c6ef372#32, 0xa54ff53a#32, 0x510e527f#32, 0x9b05688c#32, 0x1f83d9ab#32, 0x5be0cd19#32⟩

def rotr (x : Word) (n : Nat) : Word := x.rotateRight n

/-- A block of 64 bytes as 16 words, most significant byte first. -/
def beWords : List Byte → List Word
  | a :: b :: c :: d :: l => (a ++ b ++ c ++ d : BitVec 32) :: beWords l
  | _ => []

/-- Extend the schedule: the window holds the last 16 words, oldest first. -/
def sched : Nat → List Word → List Word
  | 0, _ => []
  | n + 1, w =>
    let w0 := w.headD 0#32
    let w1 := (w.drop 1).headD 0#32
    let w9 := (w.drop 9).headD 0#32
    let w14 := (w.drop 14).headD 0#32
    let s0 := rotr w1 7 ^^^ rotr w1 18 ^^^ (w1 >>> 3)
    let s1 := rotr w14 17 ^^^ rotr w14 19 ^^^ (w14 >>> 10)
    w0 :: sched n (w.drop 1 ++ [w0 + s0 + w9 + s1])

/-- One round. -/
def round (v : H) (kw : Word × Word) : H :=
  let s1 := rotr v.e 6 ^^^ rotr v.e 11 ^^^ rotr v.e 25
  let ch := (v.e &&& v.f) ^^^ (~~~v.e &&& v.g)
  let t1 := v.h + s1 + ch + kw.1 + kw.2
  let s0 := rotr v.a 2 ^^^ rotr v.a 13 ^^^ rotr v.a 22
  let maj := (v.a &&& v.b) ^^^ (v.a &&& v.c) ^^^ (v.b &&& v.c)
  ⟨t1 + (s0 + maj), v.a, v.b, v.c, v.d + t1, v.e, v.f, v.g⟩

/-- One block. -/
def block (h : H) (b : List Byte) : H :=
  let v := (k.zip (sched 64 (beWords b))).foldl round h
  ⟨h.a + v.a, h.b + v.b, h.c + v.c, h.d + v.d, h.e + v.e, h.f + v.f, h.g + v.g, h.h + v.h⟩

/-- `n` blocks of a padded message. -/
def blocks : Nat → H → List Byte → H
  | 0, h, _ => h
  | n + 1, h, m => blocks n (block h (m.take 64)) (m.drop 64)

/-- The message padded to whole blocks. -/
def pad (m : List Byte) : List Byte :=
  m ++ 0x80#8 :: (List.replicate ((119 - m.length % 64) % 64) 0#8 ++ (Bits.natBytes 8 (8 * m.length)).reverse)

/-- The digest of a message, byte 0 first. -/
def digest (m : List Byte) : List Byte :=
  let p := pad m
  let h := blocks (p.length / 64) init p
  [h.a, h.b, h.c, h.d, h.e, h.f, h.g, h.h].flatMap (fun w => (Bits.bytes32 w).reverse)

end Sys2Proof.Sha256
end

