-- ==== Sys2Proof/Machine/ViewSafe.lean ====
section
/-! DEFINITION. Machine/ViewSafe.lean: what the lanes decide from the state of the safety cell: demands, permits, switch
positions, records and the registers of the SAFE block (10 R292-R323). -/
namespace Sys2Proof.Machine

def Safe.getFn (x : Safe) (f : Nat) : FnState := Tbl.get {} x.fn f
def Safe.setFn (x : Safe) (f : Nat) (v : FnState) : Safe := { x with fn := Tbl.set {} x.fn f v }
def Safe.getSo (x : Safe) (n : Nat) : So := Tbl.get {} x.so n
def Safe.setSo (x : Safe) (n : Nat) (v : So) : Safe := { x with so := Tbl.set {} x.so n v }
def Safe.getSip (x : Safe) (p : Nat) : SipPair := Tbl.get {} x.sip p
def Safe.setSip (x : Safe) (p : Nat) (v : SipPair) : Safe := { x with sip := Tbl.set {} x.sip p v }
def Safe.getFb (x : Safe) (n : Nat) : Fb := Tbl.get {} x.fb n
def Safe.setFb (x : Safe) (n : Nat) (v : Fb) : Safe := { x with fb := Tbl.set {} x.fb n v }
def Safe.entry (x : Safe) (f : Nat) : FnEntry := Tbl.get {} x.fns f

/-- The types of a safety function (10 R301). -/
inductive FnType where
  | trip | sbc | edm | timedStop | reserved
deriving DecidableEq, Repr

def FnEntry.valid (e : FnEntry) : Bool := Bits.bit e.w0 31
def FnEntry.type (e : FnEntry) : FnType :=
  match Bits.get e.w0 28 3 with
  | 1 => .trip | 2 => .sbc | 3 => .edm | 4 => .timedStop | _ => .reserved
def FnEntry.manual (e : FnEntry) : Bool := Bits.bit e.w0 27
def FnEntry.so (e : FnEntry) (n : Nat) : Bool := Bits.bit e.w0 (16 + n)
def FnEntry.sip (e : FnEntry) (p : Nat) : Bool := Bits.bit e.w0 p
def FnEntry.resetPair (e : FnEntry) : Nat := Bits.get e.w1 28 4
def FnEntry.fb (e : FnEntry) : Nat := Bits.get e.w1 24 3
def FnEntry.fbEn (e : FnEntry) : Bool := Bits.bit e.w1 23
def FnEntry.fbTime (e : FnEntry) : Nat := Bits.get e.w1 16 7
def FnEntry.delayMs (e : FnEntry) : Nat := e.w2.toNat
def FnEntry.holdDuty (e : FnEntry) : Nat := Bits.get e.w2 0 8
def FnEntry.slipLimit (e : FnEntry) : Word := e.w3
def FnEntry.clock (e : FnEntry) : Nat := Bits.get e.w4 30 2
def FnEntry.testHours (e : FnEntry) : Nat := Bits.get e.w4 16 8
def FnEntry.testTorque (e : FnEntry) : Nat := Bits.get e.w4 0 16
def FnEntry.txCtx (e : FnEntry) : Nat := Bits.get e.w5 22 10
def FnEntry.rxCtx (e : FnEntry) : Nat := Bits.get e.w5 12 10
def FnEntry.rxEn (e : FnEntry) : Bool := Bits.bit e.w5 11
def FnEntry.failSo (e : FnEntry) (n : Nat) : Bool := Bits.bit e.w6 n
/-- Has the function a feedback to monitor (10 R307, R308)? -/
def FnEntry.monitors (e : FnEntry) : Bool := e.fbEn && (e.type == .edm || e.type == .sbc)

/-- The valid functions by number. -/
def Safe.valid (x : Safe) : List (Nat × FnEntry) := x.fns.filter (fun e => e.2.valid)

def pairUsed (w : Word) : Bool := Bits.bit w 31
def pairAntivalent (w : Word) : Bool := Bits.bit w 30

/-- Is a channel of the pair in demand at these levels (10 R298)? -/
def levelDemand (w : Word) (l1 l2 : Bool) : Bool := if pairAntivalent w then !l1 || l2 else !l1 || !l2

/-- Do the channels of a pair disagree at these levels: exactly one in demand (10 R299)? -/
def levelDisagree (w : Word) (l1 l2 : Bool) : Bool := if pairAntivalent w then !l1 != l2 else l1 != l2

/-- Are both channels in demand at these levels (10 R300)? -/
def levelBoth (w : Word) (l1 l2 : Bool) : Bool := levelDemand w l1 l2 && !levelDisagree w l1 l2

/-- Lane H's comparators of a pair: a channel in demand. -/
def SipPair.hDemand (v : SipPair) : Bool := v.h1 || v.h2
def SipPair.failP (v : SipPair) : Bool := v.failP1 || v.failP2
def SipPair.failH (v : SipPair) : Bool := v.failH1 || v.failH2

/-- DISC_TIME of a pair in ns (10 R298). -/
def discNs (w : Word) : Nat := Bits.get w 16 9 * 1000000

/-- Is the pair in demand in lane P (10 R297, R298)? -/
def Safe.demandP (x : Safe) (p : Nat) : Bool :=
  let w := Tbl.get 0#32 x.pairs p
  let v := x.getSip p
  pairUsed w && (levelDemand w v.l1 v.l2 || v.discP || v.failP)

/-- Is the pair in demand in lane H (10 R297, R298)? -/
def Safe.demandH (x : Safe) (p : Nat) : Bool :=
  let v := x.getSip p
  pairUsed (Tbl.get 0#32 x.laneH.pairs p) && (v.hDemand || v.discH || v.failH)

/-- The partner's XTLn reads as demand: armed and de-energised (01 R20). -/
def Safe.xtlDemand (x : Safe) (n : Nat) : Bool := Bits.bit x.armed n && Bits.bit x.xtlIn n

/-- The demand of a function as lane P sees it, with its cause (10 R303). -/
def Safe.fnDemand (x : Safe) (e : FnEntry) : Option FnCause :=
  if (List.range 16).any (fun p => e.sip p && x.demandP p) then some .sip
  else if (List.range 8).any (fun n => e.so n && x.xtlDemand n) then some .partnerXtl
  else if !x.laneHOk then some .laneFault
  else if !x.lsOk then some .lsSupply
  else none

/-- IMMEDIATE_MASK of an SO derived from the function table (10 R306). -/
def Safe.immediate (x : Safe) (n : Nat) : Nat :=
  (x.valid.filter (fun e => e.2.so n && e.2.type != .timedStop)).foldl (fun m e => m ||| Bits.get e.2.w0 0 16) 0

/-- DELAYED_MASK of an SO derived from the function table (10 R306). -/
def Safe.delayed (x : Safe) (n : Nat) : Nat :=
  let d := (x.valid.filter (fun e => e.2.so n && e.2.type == .timedStop)).foldl (fun m e => m ||| Bits.get e.2.w0 0 16) 0
  d &&& (65535 - x.immediate n)

/-- DELAY_H of an SO in units of 10 µs: DELAY × 1.02 + 1 ms (10 R306). -/
def Safe.delayHOf (x : Safe) (n : Nat) : Nat :=
  match x.valid.find? (fun e => e.2.so n && e.2.type == .timedStop) with
  | some e => e.2.delayMs * 102 + 100
  | none => 0

/-- The bytes that SAFETY_ID is hashed over (10 R292). -/
def Safe.idMessage (x : Safe) : List Byte :=
  (List.range 16).flatMap (fun p => Bits.bytes32 (Tbl.get 0#32 x.pairs p))
  ++ (List.range 64).flatMap (fun f =>
      let e := x.entry f
      [e.w0, e.w1, e.w2, e.w3, e.w4, e.w5, e.w6, e.w7].flatMap Bits.bytes32)

/-- SAFETY_ID: the first 8 bytes of the digest, little-endian (10 R292). -/
def Safe.safetyId (x : Safe) : DWord := BitVec.ofNat 64 (Bits.leNat ((Sha256.digest x.idMessage).take 8))

/-- Do the lane H masks, delays and pair entries agree with those derived from lane P's tables (10 R292)? -/
def Safe.laneHAgrees (x : Safe) : Bool :=
  x.laneH.id == x.id
    && (List.range 16).all (fun p => Tbl.get 0#32 x.laneH.pairs p == Tbl.get 0#32 x.pairs p)
    && (List.range 8).all (fun n =>
      let h := Tbl.get {} x.laneH.so n
      Bits.get h.masks 0 16 == x.immediate n && Bits.get h.masks 16 16 == x.delayed n && h.delayH == x.delayHOf n)

/-- Does the module refuse the safety configuration (10 R301)? -/
def Safe.tableBad (x : Safe) : Bool :=
  let v := x.valid
  v.any (fun e => !pairUsed (Tbl.get 0#32 x.pairs e.2.resetPair))
    || v.any (fun e => v.any (fun g => g.2.sip e.2.resetPair))
    || v.any (fun e => v.any (fun g => e.2.type == .timedStop && g.2.type == .timedStop
        && (List.range 8).any (fun n => e.2.so n && g.2.so n) && e.2.delayMs != g.2.delayMs))
    || v.any (fun e => v.any (fun g => e.1 != g.1 && e.2.fbEn && g.2.fbEn && e.2.fb == g.2.fb))
    || v.any (fun e => e.2.type == .sbc && decide (e.2.clock < 2))

/-- Does the module refuse this safety configuration (10 R301)? -/
def SafetyObj.bad (o : SafetyObj) : Bool := Safe.tableBad { pairs := o.pairs, fns := o.fns }

/-- The tables of a safety configuration come into force (10 R292, R323). -/
def Safe.take (x : Safe) (o : SafetyObj) : Safe :=
  let so := (List.range 8).foldl (fun (t : Tbl So) n => Tbl.mod {} t n (fun v => { v with cfg := Tbl.get 0x05001800#32 o.so n })) x.so
  { x with pairs := o.pairs, fns := o.fns, laneH := o.laneH, so := so, id := Safe.safetyId { pairs := o.pairs, fns := o.fns } }

/-- Does lane H demand SOn at time `now` (10 R306)? A completed delay's demand lasts at least 1 ms. -/
def Safe.hDemand (x : Safe) (now n : Nat) : Bool :=
  let h := Tbl.get {} x.laneH.so n
  let o := x.getSo n
  (List.range 16).any (fun p => Bits.bit h.masks p && x.demandH p)
    || (match o.hDoneNs with
        | some t => now < t + 1000000 || (List.range 16).any (fun p => Bits.bit h.masks (16 + p) && x.demandH p)
        | none => false)
    || o.escal || !x.laneHOk

/-- DARK_WIDTH and BRIGHT_WIDTH of SOn in ns (10 R313, R323). -/
def So.darkNs (o : So) : Nat := match Bits.get o.cfg 19 4 with | 0 => 300000 | k => k * 100000
def So.brightNs (o : So) : Nat := match Bits.get o.cfg 16 3 with | 0 => 200000 | k => k * 100000

/-- Is the pulse of the running test that starts `off` ns after the test's start in progress (10 *Safety test sequence*)? -/
def So.inPulse (o : So) (now off width : Nat) (closure : Bool) : Bool :=
  match o.test with
  | some (t, c) => c == closure && decide (t + off ≤ now) && decide (now < t + off + width)
  | none => false

/-- Does the module drive its own XTLn to demand (10 R295, R313)? -/
def Safe.ownXtl (x : Safe) (now n : Nat) : Bool :=
  !x.cellPower || x.hDemand now n || (x.getSo n).inPulse now 6000000 100000 false

/-- Is the own low-side switch of SOn closed (10 R293)? An unseated module closes none (00 R2). -/
def Safe.lsClosed (x : Safe) (now n : Nat) : Bool :=
  x.cellPower && x.seated && (Tbl.get {} x.laneH.so n).used && !x.hDemand now n && !x.xtlDemand n
    && !(x.getSo n).inPulse now 3000000 (x.getSo n).darkNs false

/-- The program request of SOn as lane P takes it (10 R302). -/
def So.requested (o : So) : Bool := !Bits.bit o.cfg 31 || o.request

/-- Does every function permit SOn (10 R302)? An SO that no valid function lists stays off. -/
def Safe.permits (x : Safe) (n : Nat) : Bool :=
  x.idOk && x.valid.any (fun e => e.2.so n)
    && x.valid.all (fun e => (!e.2.so n || (x.getFn e.1).phase == .active)
        && (!e.2.failSo n || (x.getFn e.1).phase != .faulted))

/-- May lane P have the high-side switch of SOn closed, test pulses and feedback apart (10 R302, 00 R2)? -/
def Safe.hsMay (x : Safe) (n : Nat) : Bool :=
  let o := x.getSo n
  x.laneP && x.cellPower && x.seated && x.permits n && o.requested && x.lsOk && o.ovlNs.isNone && !o.active.contains .fwStuck

/-- Does the feedback of a function read 0 with every listed SO off (10 R307)? -/
def Safe.feedbackHolds (x : Safe) (e : FnEntry) : Bool :=
  e.monitors && !(x.getFb e.fb).level && (List.range 8).all (fun n => !e.so n || !(x.getSo n).terminal)

/-- Does lane P refuse to energise SOn for a feedback (10 R307)? -/
def Safe.feedbackBars (x : Safe) (n : Nat) : Bool := x.valid.any (fun e => e.2.so n && x.feedbackHolds e.2)

/-- Lane P's decision on the high-side switch of SOn, test pulses apart (10 R302). -/
def Safe.hsOn (x : Safe) (n : Nat) : Bool := x.hsMay n && (x.getSo n).onNs.isSome

/-- Does lane P hold its high-side switch for SOn open on a demanded or faulted function (10 R296)? -/
def Safe.holdsOpen (x : Safe) (n : Nat) : Bool :=
  x.laneP && x.valid.any (fun e => ((x.getFn e.1).phase == .demanded && e.2.so n)
    || ((x.getFn e.1).phase == .faulted && (e.2.so n || e.2.failSo n)))

/-- Is the own high-side switch of SOn closed (10 R302, R313)? -/
def Safe.hsClosed (x : Safe) (now n : Nat) : Bool :=
  let o := x.getSo n
  (x.hsOn n && !o.inPulse now 0 o.darkNs false) || (x.laneP && x.cellPower && x.seated && o.inPulse now 0 o.brightNs true)

/-- The duty in percent of a closed high-side switch: 100 for the boost, then HOLD_DUTY (10 R308). -/
def Safe.duty (x : Safe) (n : Nat) : Nat :=
  if !x.hsOn n then 0
  else match x.valid.find? (fun e => e.2.so n && e.2.type == .sbc) with
    | some e => if (x.getSo n).held then e.2.holdDuty else 100
    | none => 100

def FnPhase.code : FnPhase → Nat
  | .unused => 0 | .active => 1 | .timing => 2 | .demanded => 3 | .awaitReset => 4 | .faulted => 5

def FnCause.code : FnCause → Nat
  | .none => 0 | .sip => 1 | .discrepancy => 2 | .partnerXtl => 3 | .edm => 4 | .brakeTest => 5 | .escalation => 6
  | .repairTime => 7 | .lsSupply => 8 | .safetyId => 9 | .laneFault => 10

/-- SAFE_FN_STATE of a function. -/
def Safe.fnWord (x : Safe) (f : Nat) : Word :=
  let v := x.getFn f
  let c := if x.laneP && !x.idOk && (x.entry f).valid then FnCause.safetyId else v.cause
  Bits.fld v.phase.code 29 ||| Bits.fld c.code 24 ||| Bits.fld (Bits.get (x.entry f).w0 16 8) 16
    ||| Bits.fld (Bits.get (x.entry f).w0 28 3) 13

def BrakeResult.code : BrakeResult → Nat
  | .none => 0 | .pass => 1 | .fail => 2 | .inconclusive => 3 | .aborted => 4

/-- Hours since the last pass, saturating; all ones before the first. -/
def FnState.hours (v : FnState) (sec : Nat) : Nat :=
  match v.lastPass with
  | some t => min ((sec - t) / 3600) 65535
  | none => 65535

/-- SAFE_BT_STATUS of a function. -/
def Safe.btWord (x : Safe) (sec f : Nat) : Word :=
  let v := x.getFn f
  Bits.fld v.result.code 29 ||| Bits.ofBool v.running 28 ||| Bits.ofBool v.due 27
    ||| (if (x.entry f).type = .sbc then Bits.fld (v.hours sec) 0 else 0#32)

def SoDiag.code : SoDiag → Nat
  | .overload => 1 | .openLoad => 2 | .hsStuck => 3 | .lsStuck => 4 | .fwStuck => 5 | .xtlFault => 6
  | .closureFail => 7 | .lsSupply => 8 | .escalated => 9

/-- The order in which DIAG shows active diagnostics (10 R323). -/
def SoDiag.order : List SoDiag :=
  [.lsSupply, .escalated, .hsStuck, .lsStuck, .fwStuck, .xtlFault, .overload, .closureFail, .openLoad]

def So.diag (o : So) : Nat :=
  match SoDiag.order.find? (fun d => o.active.contains d) with
  | some d => d.code
  | none => 0

/-- QUALITY of an SO record (10 R495). -/
def Safe.soQuality (x : Safe) : Nat := if !x.laneP then 2 else if !x.lsOk then 1 else 0

/-- SAFE_SOn_STATUS. -/
def Safe.soStatus (x : Safe) (now n : Nat) : Word :=
  let o := x.getSo n
  Bits.fld x.soQuality 30 ||| Bits.ofBool o.terminal 29 ||| Bits.ofBool (x.hsClosed now n) 28
    ||| Bits.ofBool (x.lsClosed now n) 27 ||| Bits.ofBool (x.xtlDemand n) 26 ||| Bits.ofBool o.request 25
    ||| Bits.ofBool o.test.isSome 24 ||| Bits.fld o.diag 20
    ||| Bits.fld (match o.lastDiag with | some d => d.code | none => 0) 16
    ||| Bits.ofBool (Bits.bit x.armed n) 8 ||| Bits.fld (min o.current 255) 0

/-- The 2-byte SIP pair record (10 R318, R495). -/
def Safe.sipRecord (x : Safe) (p : Nat) : List Byte :=
  let v := x.getSip p
  let q := if !x.laneP then 2 else if v.failP || v.failH then 1 else 0
  Bits.natBytes 2 (q * 16384 + (if v.l1 then 8192 else 0) + (if v.l2 then 4096 else 0)
    + (if x.demandP p then 2048 else 0) + (if v.discP then 1024 else 0))

/-- The 1-byte FB record. -/
def Safe.fbRecord (x : Safe) (n : Nat) : List Byte :=
  let v := x.getFb n
  let q := if !x.laneP then 2 else if v.fail then 1 else 0
  [BitVec.ofNat 8 (q * 64 + (if v.level then 32 else 0))]

/-- The 2-byte SO record. -/
def Safe.soRecord (x : Safe) (n : Nat) : List Byte :=
  let o := x.getSo n
  Bits.natBytes 2 (x.soQuality * 16384 + (if o.terminal then 8192 else 0) + (if o.request then 4096 else 0) + o.diag * 256)

/-- The 4-byte function record and the 8-byte brake test record. -/
def Safe.fnRecord (x : Safe) (f : Nat) : List Byte := Bits.bytes32 (x.fnWord f)
def Safe.btRecord (x : Safe) (sec f : Nat) : List Byte :=
  let v := x.getFn f
  [BitVec.ofNat 8 (v.result.code * 32 + (if v.running then 16 else 0) + (if v.due then 8 else 0)), 0#8]
    ++ Bits.natBytes 2 (v.hours sec) ++ Bits.bytes32 v.slip

/-- The torque that a running brake test asks for `t` ns after its origin, in 0.1 % (10 R311). -/
def brakeTorque (torque t : Nat) : Nat :=
  if t < 1000000000 then torque * t / 1000000000
  else if t ≤ 4000000000 then torque
  else if t < 5000000000 then torque * (5000000000 - t) / 1000000000
  else 0

/-- The 16-byte brake test frame payload (10 R310). -/
def Safe.brakeFrame (x : Safe) (now f : Nat) : List Byte :=
  let v := x.getFn f
  let tq := if v.running then brakeTorque (x.entry f).testTorque (now - v.startNs) else 0
  let b := [BitVec.ofNat 8 ((if v.running then 128 else 0) + (if v.abort then 64 else 0) + f % 64), 0#8]
    ++ Bits.bytes16 v.testNo ++ Bits.natBytes 2 tq ++ List.replicate 6 0#8
  b ++ Bits.bytes32 (Bits.crc32c b)

/-- The transmit contexts whose payload lane P writes, with their functions (10 R310). -/
def Safe.brakeCtxs (x : Safe) : List (Nat × Nat) :=
  (x.valid.filter (fun e => e.2.type == .sbc)).map (fun e => (e.2.txCtx, e.1))

/-- The registers of the SAFE block by offset in the block (10 R323). -/
def Safe.reg (x : Safe) (now sec : Nat) (xtlValid paramChange : Bool) (sel o : Nat) : Word :=
  if o = 0 then
    Bits.ofBool x.laneP 31 ||| Bits.ofBool x.laneHOk 30 ||| Bits.ofBool x.idOk 29 ||| Bits.ofBool xtlValid 28
      ||| Bits.ofBool x.lsOk 27 ||| Bits.ofBool paramChange 26
      ||| (List.range 8).foldl (fun w n => w ||| Bits.ofBool (x.getSo n).terminal n) 0#32
  else if o = 0x0C then Bits.lo x.id
  else if o = 0x10 then Bits.hi x.id
  else if o = 0x14 then Bits.lo x.laneH.id
  else if o = 0x18 then Bits.hi x.laneH.id
  else if o = 0x1C then
    (List.range 16).foldl (fun w p => w ||| Bits.ofBool (x.getSip p).l2 (16 + p) ||| Bits.ofBool (x.getSip p).l1 p) 0#32
  else if o = 0x20 then
    (List.range 16).foldl (fun w p => w ||| Bits.ofBool (x.demandH p) (16 + p) ||| Bits.ofBool (x.demandP p) p) 0#32
  else if o = 0x24 then
    (List.range 16).foldl (fun w p => w ||| Bits.ofBool (x.getSip p).discH (16 + p) ||| Bits.ofBool (x.getSip p).discP p) 0#32
  else if o = 0x28 then
    (List.range 8).foldl (fun w n => w ||| Bits.ofBool (x.xtlDemand n) (24 + n)
      ||| Bits.ofBool (x.cellPower && x.ownXtl now n) (16 + n) ||| Bits.ofBool (x.getSo n).escal (8 + n)
      ||| Bits.ofBool (x.getFb n).level n) 0#32
  else if o = 0x2C then x.tripCnt
  else if o = 0x30 then x.discCnt
  else if o = 0x34 then Bits.fld x.preempted 16 ||| Bits.fld x.failed 0
  else if o = 0x38 then BitVec.ofNat 32 sel
  else if o = 0x3C then x.fnWord sel
  else if o = 0x40 then x.btWord sec sel
  else if o = 0x44 then BitVec.ofNat 32 ((x.getFn sel).lastPass.getD 0)
  else if o = 0x48 then BitVec.ofNat 32 ((x.getFn sel).lastPass.getD 0 / 4294967296)
  else if o = 0x4C then (x.getFn sel).slip
  else if 0x100 ≤ o ∧ o < 0x140 then
    if (o - 0x100) % 8 = 0 then x.soStatus now ((o - 0x100) / 8) else (x.getSo ((o - 0x100) / 8)).cfg
  else 0#32

end Sys2Proof.Machine
end

