-- ==== Sys2Proof/Machine/ViewTime.lean ====
section
/-! DEFINITION. Machine/ViewTime.lean: reading the time unit: the position of a clock, slot results, capture records and the
registers of the TIME block (06 R163, R173, R178, R188, R189, R192). -/
namespace Sys2Proof.Machine

def TimeBlk.clock (t : TimeBlk) (c : Nat) : AngleClock := Tbl.get {} t.clocks c
def TimeBlk.setClock (t : TimeBlk) (c : Nat) (x : AngleClock) : TimeBlk := { t with clocks := Tbl.set {} t.clocks c x }
def TimeBlk.slot (t : TimeBlk) (n : Nat) : AngleSlot := Tbl.get {} t.slots n
def TimeBlk.setSlot (t : TimeBlk) (n : Nat) (x : AngleSlot) : TimeBlk := { t with slots := Tbl.set {} t.slots n x }

/-- MODE of a clock: 0 OFF, 1 PHASE, 2 SLIP, 3 QUADRATURE, 4 TOOTH. -/
def AngleClock.mode (c : AngleClock) : Nat := Bits.get c.cfg 29 3
def AngleClock.isShaft (c : AngleClock) : Bool := c.mode == 3 || c.mode == 4
def AngleClock.srcA (c : AngleClock) : Nat := Bits.get c.cfg 25 2
def AngleClock.srcB (c : AngleClock) : Nat := Bits.get c.cfg 23 2
def AngleClock.diff (c : AngleClock) : Bool := Bits.bit c.cfg 28
def AngleClock.cpt (c : AngleClock) : Nat := Bits.get c.cfg 0 21
def AngleClock.locked (c : AngleClock) : Bool := c.state == .locked

/-- Z_TOL in counts: 0 selects the default of 2 (06 *TIME_ACc_CONFIG and TIME_ACc_ZCFG fields*). -/
def AngleClock.zTol (c : AngleClock) : Nat := if Bits.get c.zcfg 8 8 = 0 then 2 else Bits.get c.zcfg 8 8

/-- The angle that a number of counts makes. -/
def AngleClock.angleOf (c : AngleClock) (n : Int) : Int := (n * 4294967296) / (c.cpt : Int)

/-- The angle that a rate makes in a number of ns (06 R174). -/
def angleIn (rate : Int) (ns : Int) : Int := rate * 65536 * ns / 1000000000

/-- The angle that a shaft clock has moved since its last edge, `o` ns into the station tick: at the rate of the last edge
interval, short of the next count (06 R178). -/
def AngleClock.betweenAt (c : AngleClock) (o : Int) : Nat :=
  match c.since with
  | none => c.between
  | some e => max c.between (min ((c.angleOf 1).toNat - 1) (angleIn c.rate.natAbs (max 0 (e + o))).toNat)

/-- The position of the module's own tracker `o` ns into the station tick (06 R173, R178). -/
def AngleClock.ownAt (c : AngleClock) (o : Int) : DWord :=
  if c.isShaft then
    let edge := c.base + BitVec.ofInt 64 (c.angleOf c.cnt)
    let b := BitVec.ofNat 64 (c.betweenAt o)
    let p := if c.back then edge - b else edge + b
    match c.held with
    | some h => if (if c.back then decide (0 ≤ (h - p).toInt) else decide (0 ≤ (p - h).toInt)) then p else h
    | none => p
  else c.base + BitVec.ofInt 64 (angleIn c.rate o)

/-- The position of the module's own tracker at the start of the station tick. -/
def AngleClock.own (c : AngleClock) : DWord := c.ownAt 0

/-- The reported position `o` ns into the station tick: mirrored in FOLLOW, moving to the own tracker after promotion
(06 R180). -/
def AngleClock.posAt (c : AngleClock) (o : Int) : DWord :=
  match c.mirror with
  | some (p, r) => p + BitVec.ofInt 64 (angleIn r o)
  | none => c.ownAt o + BitVec.ofInt 64 c.corr

/-- The reported position at the start of the station tick. -/
def AngleClock.pos (c : AngleClock) : DWord := c.posAt 0

/-- The reported rate. -/
def AngleClock.rateNow (c : AngleClock) : Int :=
  match c.mirror with
  | some (_, r) => r
  | none => c.rate

def AcState.code : AcState → Nat
  | .off => 0 | .search => 1 | .locked => 2 | .standstill => 3 | .unreferenced => 4 | .overspeed => 5

/-- TIME_ACc_STATUS. -/
def AngleClock.status (c : AngleClock) : Word :=
  Bits.fld c.state.code 29 ||| Bits.ofBool c.refErr 28 ||| Bits.ofBool c.disagree 27
    ||| Bits.fld (if c.isShaft then 0 else c.amp % 65536) 0

def Discipline.code : Discipline → Nat
  | .freeRun => 0 | .acquiring => 1 | .locked => 2 | .quarantine => 3 | .holdover => 4 | .follow => 5

/-- TRACEABLE (06 R163). -/
def TimeBlk.traceable (t : TimeBlk) : Bool := t.disc == .locked || (t.disc == .follow && t.leadLocked)

def TimeBlk.slewing (t : TimeBlk) : Bool := t.residual != 0

/-- TIME_STATUS. -/
def TimeBlk.status (t : TimeBlk) : Word :=
  Bits.fld t.disc.code 29 ||| Bits.ofBool t.traceable 28 ||| Bits.ofBool t.expired 27 ||| Bits.ofBool t.asymmetry 26
    ||| Bits.ofBool t.slewing 25 ||| Bits.ofBool (t.clock 0).locked 0 ||| Bits.ofBool (t.clock 1).locked 1
    ||| Bits.ofBool (t.clock 2).locked 2 ||| Bits.ofBool (t.clock 3).locked 3

/-- The 16 bytes of time members of an input image at a T0 (06 R163). -/
def TimeBlk.members (t : TimeBlk) (sec : DWord) (ns : Word) : List Byte :=
  Bits.bytes64 sec ++ Bits.bytes32 ns ++ Bits.bytes16 t.utcOffset
    ++ [BitVec.ofNat 8 ((if t.leap59 || t.leap61 then 4 else 0) + (if t.slewing then 2 else 0) + (if t.traceable then 1 else 0)), 0#8]

def SlotState.code : SlotState → Nat
  | .idle => 0 | .armed => 1 | .fired => 2 | .missed => 3 | .fixed => 4

/-- The 16-byte slot result (06 R188). -/
def AngleSlot.result (x : AngleSlot) : List Byte :=
  [BitVec.ofNat 8 (x.state.code * 32 + x.reason * 4), 0#8] ++ Bits.natBytes 2 x.fireCount ++ Bits.bytes32 x.fireTurn
    ++ Bits.natBytes 8 x.fireNs

/-- TIME_SLOT_STATE. -/
def AngleSlot.stateWord (x : AngleSlot) : Word :=
  Bits.fld x.state.code 29 ||| Bits.fld x.reason 26 ||| Bits.fld x.task 21 ||| Bits.fld x.fireCount 0

/-- The number of a capture channel. -/
def capCode (c : CapCh) : Nat :=
  match c with
  | .dio n => n
  | .sh s l => 96 + 3 * s + l
  | .sip p b => 102 + 2 * p + (if b then 1 else 0)

/-- The 40-byte edge capture record (06 R189). -/
def Capture0.record (c : Capture0) : List Byte :=
  let valid := c.first.locked && c.last.locked
  let v : Word → Word := fun w => if valid then w else 0#32
  [BitVec.ofNat 8 c.count, BitVec.ofNat 8 (valid.toNat * 4 + c.last.rising.toNat * 2 + c.first.rising.toNat), 0#8, 0#8]
    ++ Bits.natBytes 8 c.first.ns ++ Bits.bytes32 (v c.first.angle) ++ Bits.bytes32 (v c.first.turn)
    ++ Bits.natBytes 8 c.last.ns ++ Bits.bytes32 (v c.last.angle) ++ Bits.bytes32 (v c.last.turn) ++ [0#8, 0#8, 0#8, 0#8]

/-- Slots that are ARMED or FIXED. -/
def TimeBlk.armed (t : TimeBlk) : Nat :=
  (t.slots.filter (fun e => e.2.state == .armed || e.2.state == .fixed)).length

/-- The registers of the TIME block by offset, but for TIME_EVENT and TIME_EVENT_EN (06 R192). -/
def TimeBlk.reg (t : TimeBlk) (sel o : Nat) : Word :=
  if 0x40 ≤ o ∧ o < 0x80 then
    let c := t.clock ((o - 0x40) / 16)
    match (o - 0x40) % 16 with
    | 0 => c.status
    | 4 => c.cfg
    | 8 => Bits.lo c.pos
    | 12 => Bits.hi c.pos
    | _ => 0#32
  else if 0x80 ≤ o ∧ o < 0x90 then
    if o % 4 = 0 then BitVec.ofInt 32 (t.clock ((o - 0x80) / 4)).rateNow else 0#32
  else if 0xB0 ≤ o ∧ o < 0xC0 then if o % 4 = 0 then (t.clock ((o - 0xB0) / 4)).zcfg else 0#32
  else match o with
    | 0x00 => t.status
    | 0x0C => t.cfg
    | 0x10 => Bits.lo t.sec
    | 0x14 => Bits.hi t.sec
    | 0x18 => t.ns
    | 0x1C => t.frac.setWidth 32
    | 0x20 => Bits.ofBool t.utcValid 18 ||| Bits.ofBool t.leap59 17 ||| Bits.ofBool t.leap61 16 ||| t.utcOffset.setWidth 32
    | 0x24 => Bits.satS32 t.offset
    | 0x28 => BitVec.ofInt 32 (if t.slewing then t.slew else 0)
    | 0x2C => BitVec.ofNat 32 (min (t.holdTicks / 100000) 4294967295)
    | 0x30 => BitVec.ofInt 32 t.pending
    | 0x34 => t.quarCnt
    | 0x38 => t.stepCnt
    | 0x90 => Bits.fld sel 0
    | 0x94 => (t.slot sel).stateWord
    | 0x98 => Bits.lo (BitVec.ofNat 64 (t.slot sel).fireNs)
    | 0x9C => Bits.hi (BitVec.ofNat 64 (t.slot sel).fireNs)
    | 0xA0 => Bits.fld t.armed 0
    | 0xA4 => t.missCnt
    | _ => 0#32

end Sys2Proof.Machine
end

