-- ==== Sys2Proof/Machine/ViewCyc.lean ====
section
/-! DEFINITION. Machine/ViewCyc.lean: reading the tasks and the CYC registers (02 R28-R64). -/
namespace Sys2Proof.Machine

/-- A task is configured when KIND is periodic or angle-locked. -/
def TaskCfg.kind (c : TaskCfg) : Nat := Bits.get c.cfg 30 2
def TaskCfg.configured (c : TaskCfg) : Bool := c.kind == 1 || c.kind == 2
def TaskCfg.angle (c : TaskCfg) : Bool := c.kind == 2
def TaskCfg.priority (c : TaskCfg) : Nat := Bits.get c.cfg 24 5
def TaskCfg.clock (c : TaskCfg) : Nat := Bits.get c.cfg 20 2
def TaskCfg.direction (c : TaskCfg) : Nat := Bits.get c.cfg 18 2
def TaskCfg.stopLast (c : TaskCfg) : Bool := Bits.bit c.cfg 17
def TaskCfg.wall (c : TaskCfg) : Bool := Bits.bit c.cfg 16
def TaskCfg.firingCount (c : TaskCfg) : Nat := Bits.get c.cfg 0 5
def TaskCfg.ticks (c : TaskCfg) : Nat := Bits.get c.period 0 20
def TaskCfg.phaseTicks (c : TaskCfg) : Nat := Bits.get c.phase 0 20

/-- Is a station tick a T0 of a periodic task (02 R29)? -/
def TaskCfg.fallsOn (c : TaskCfg) (tick : Nat) : Bool :=
  c.kind == 1 && c.ticks != 0 && decide (c.phaseTicks ≤ tick) && (tick - c.phaseTicks) % c.ticks == 0

/-- The first T0 of a periodic task after a station tick, as a station tick. -/
def TaskCfg.nextTick (c : TaskCfg) (tick : Nat) : Nat :=
  if tick < c.phaseTicks then c.phaseTicks
  else tick + c.ticks - (tick - c.phaseTicks) % c.ticks

def State.taskCfg (s : State) (n : Nat) : TaskCfg := Tbl.get {} s.cfg.taskCfgs n
def State.task (s : State) (n : Nat) : TaskSt := Tbl.get {} s.cyc.tasks n
def State.setTask (s : State) (n : Nat) (t : TaskSt) : State :=
  { s with cyc := { s.cyc with tasks := Tbl.set {} s.cyc.tasks n t } }
def State.modTask (s : State) (n : Nat) (f : TaskSt → TaskSt) : State := s.setTask n (f (s.task n))

/-- The configured tasks in ascending number. -/
def State.configuredTasks (s : State) : List Nat := (s.cfg.taskCfgs.filter (fun e => e.2.configured)).map Prod.fst

/-- A task of the program in the active slot. -/
def State.oldTask (s : State) (n : Nat) : TaskProg :=
  match s.cfg.prog with
  | some p => Tbl.get {} p.tasks n
  | none => {}

/-- Is an exchange past its switch point and its new program not yet the active one (05 R144)? -/
def State.exchanging (s : State) : Bool := s.xch.cur.state == .switching || s.xch.cur.state == .settling

/-- Does a task run the new program of an exchange in progress (05 R150)? -/
def State.onNew (s : State) (n : Nat) : Bool := s.exchanging && s.xch.switched.getLsbD n

/-- A task of the running program. -/
def State.progTask (s : State) (n : Nat) : TaskProg :=
  match s.xch.pkg with
  | some p => if s.onNew n then Tbl.get {} p.prog.tasks n else s.oldTask n
  | none => s.oldTask n

/-- The committed image and the draft of a task: two copies that flip (02 R40). -/
def TaskSt.image (t : TaskSt) : Tbl Byte := if t.bank then t.imgB else t.imgA
def TaskSt.draft (t : TaskSt) : Tbl Byte := if t.bank then t.imgA else t.imgB
def TaskSt.setDraft (t : TaskSt) (d : Tbl Byte) : TaskSt := if t.bank then { t with imgA := d } else { t with imgB := d }
def TaskSt.setImage (t : TaskSt) (d : Tbl Byte) : TaskSt := { t with imgA := d, imgB := d }

/-- The cycle of a task is abandoned: no commit, the draft restored. -/
def TaskSt.abandon (t : TaskSt) : TaskSt := { t.setDraft t.image with run := none }

/-- Bytes 0x00 to 0x3B of a commit record (02 R42 *Commit record*). -/
def CommitRec.body (c : CommitRec) : List Byte :=
  Bits.bytes64 c.cycle ++ Bits.bytes64 c.sec ++ Bits.bytes32 c.ns ++ Bits.bytes32 (Bits.ofBool c.bank 8 ||| Bits.fld (c.task % 32) 0)
    ++ Bits.bytes64 c.hash ++ List.replicate 28 0#8

/-- The record with its CRC-32C, and its 64-byte line. -/
def CommitRec.sealed (c : CommitRec) : CommitRec := { c with crc := Bits.crc32c c.body }
def CommitRec.line (c : CommitRec) : List Byte := c.body ++ Bits.bytes32 c.crc

/-- A slot holds a valid record when its CRC-32C is correct (02 R42). -/
def validRec (c : Option CommitRec) : Option CommitRec :=
  match c with
  | some r => if r.crc = Bits.crc32c r.body then some r else none
  | none => none

/-- The valid commit record: the one with a correct CRC-32C and the higher cycle number (02 R42). -/
def TaskSt.record (t : TaskSt) : Option CommitRec :=
  match validRec t.rec0, validRec t.rec1 with
  | some a, some b => if a.cycle.toNat < b.cycle.toNat then some b else some a
  | some a, none => some a
  | none, r => r

/-- FLOOR of a task: the higher of the two slots (02 R47). -/
def TaskSt.floor (t : TaskSt) : DWord :=
  match t.floor0, t.floor1 with
  | some a, some b => if a.toNat < b.toNat then b else a
  | some a, none => a
  | none, some b => b
  | none, none => 0#64

/-- Is a task of higher rank than another (02 R28)? -/
def State.outranks (s : State) (a b : Nat) : Bool :=
  (s.taskCfg a).priority < (s.taskCfg b).priority || ((s.taskCfg a).priority == (s.taskCfg b).priority && a < b)

/-- The reference task (04 R134): the shortest PERIOD among periodic tasks, else the shortest fallback PERIOD; the lower
number on a tie. -/
def State.refTask (s : State) : Option Nat :=
  let best := fun (k : Nat) => (s.cfg.taskCfgs.filter (fun e => e.2.kind == k)).foldl (fun (b : Option (Nat × Nat)) e =>
    match b with
    | some (_, p) => if e.2.ticks < p then some (e.1, e.2.ticks) else b
    | none => some (e.1, e.2.ticks)) none
  match best 1 with
  | some (n, _) => some n
  | none => (best 2).map Prod.fst

/-- TASK_STATE of a task at a T0 (02 R57). -/
def PolState.code : PolState → Nat
  | .active => 0 | .outHeld => 1 | .stopped => 2

def TaskSt.stateCode (t : TaskSt) : Nat :=
  if t.pol ≠ .active then t.pol.code
  else match t.mode with
    | .run => 0 | .stop => 2 | .hold => 3

def ProgMode.code : ProgMode → Nat
  | .stop => 0 | .run => 1 | .hold => 2

/-- A word with bit n set for each task that a test picks out. -/
def State.taskMask (s : State) (p : Nat → TaskSt → Bool) : Word :=
  s.configuredTasks.foldl (fun w n => if p n (s.task n) then w ||| Bits.ofBool true n else w) 0#32

def RxState.code : RxState → Nat
  | .notEnrolled => 0 | .absent => 1 | .authenticating => 2 | .onLine => 3 | .lost => 4 | .authFailed => 5

def CfgBlk.unit (c : CfgBlk) (u : Nat) : RxUnit := Tbl.get {} c.units u
def CfgBlk.enrolled (c : CfgBlk) (u : Nat) : Bool := c.cur.keys.units.any (fun e => e.1 == u)

/-- CYC_STATUS. -/
def State.cycStatus (s : State) : Word :=
  Bits.fld s.cyc.mode.code 30 ||| Bits.ofBool (Bits.bit s.cfg.cur.cyc 1) 29 ||| Bits.ofBool s.cyc.resuming 28
    ||| Bits.ofBool (!s.cyc.pends.isEmpty || !s.cyc.buf.isEmpty || !s.cyc.fwd.isEmpty || s.cyc.steps.any (fun x => !x.started)) 27
    ||| (match s.cyc.bpHit with | some (t, _) => Bits.ofBool true 6 ||| Bits.fld (t % 32) 0 | none => 0#32)

/-- CYC_UNIT_STATUS. -/
def State.unitStatus (s : State) : Word :=
  (List.range 6).foldl (fun w i => w ||| Bits.ofBool (s.cfg.enrolled (i + 1)) i
    ||| Bits.ofBool ((s.cfg.unit (i + 1)).state == .onLine) (8 + i)) 0#32

/-- The registers of the CYC block by offset, but for CYC_EVENT and CYC_EVENT_EN; `sel` is the reader's CYC_FIRE_SEL. -/
def State.cycReg (s : State) (sel : Word) (o : Nat) : Word :=
  let fc := s.taskCfg (Bits.get sel 8 5)
  let en := Bits.get sel 0 5
  let ok := en < fc.firingCount
  if 0x100 ≤ o ∧ o < 0x300 then
    let n := (o - 0x100) / 16
    match (o - 0x100) % 16 with
    | 0 => (s.taskCfg n).cfg
    | 4 => (s.taskCfg n).period
    | 8 => (s.taskCfg n).phase
    | 12 => (s.task n).csw
    | _ => 0#32
  else if 0x300 ≤ o ∧ o < 0x400 then
    let n := (o - 0x300) / 8
    match (o - 0x300) % 8 with
    | 0 => Bits.lo (s.task n).cycle
    | 4 => Bits.hi (s.task n).cycle
    | _ => 0#32
  else match o with
    | 0x00 => s.cycStatus
    | 0x0C => s.cfg.cur.cyc
    | 0x10 => s.taskMask (fun _ _ => true)
    | 0x14 => s.taskMask (fun _ t => Bits.get t.csw 30 2 == 0)
    | 0x18 => s.cyc.lateMask
    | 0x1C => s.unitStatus
    | 0x20 => (sel &&& 0x1F1F#32) ||| Bits.ofBool ok 31
    | 0x24 => if ok then fc.firings.getD en 0#32 else 0#32
    | 0x28 => s.cyc.resumeCnt
    | 0x2C => s.cyc.refuseCnt
    | 0x30 => Bits.lo s.cyc.skipCnt
    | 0x34 => Bits.hi s.cyc.skipCnt
    | _ => 0#32

/-! The FAB registers (03 R99). -/

def FabBlk.engine (f : FabBlk) (e : Nat) : Engine := Tbl.get {} f.engines e
def FabBlk.setEngine (f : FabBlk) (e : Nat) (x : Engine) : FabBlk := { f with engines := Tbl.set {} f.engines e x }

/-- Engines in a state. -/
def FabBlk.count (f : FabBlk) (p : Engine → Bool) : Nat := ((List.range 16).filter (fun e => p (f.engine e))).length

/-- The engines that count towards the reserve: AVAILABLE ones, but for one that holds a billet at a breakpoint (03 R98). -/
def Engine.counts (x : Engine) : Bool :=
  x.state == .available && !(match x.run with | some r => r.held | none => false)

/-- RESERVE_LOST (03 R85). -/
def FabBlk.reserveLost (f : FabBlk) : Bool := f.count Engine.counts < 14

/-- The fences of an engine within the last 24 h (03 R68). -/
def Engine.recent (x : Engine) (sec : Nat) : List Nat := x.fences.filter (fun f => decide (sec < f + 86400))

def EngState.code : EngState → Nat
  | .available => 0 | .fenced => 1 | .selfTest => 2 | .draining => 3 | .drained => 4 | .retired => 5

def FabBlk.mask (f : FabBlk) (p : Engine → Bool) : Word :=
  (List.range 16).foldl (fun w e => w ||| Bits.ofBool (p (f.engine e)) e) 0#32

def Engine.draining (x : Engine) : Bool := x.state == .draining || x.state == .drained

/-- Does a proof pass *Proof checks* (03 R87) for a configuration's tasks and rick input deadline? -/
def Proof.passes (p : Proof) (tasks : Tbl TaskCfg) (cyc : Word) : Bool :=
  p.engines == 16 && p.mhz == 800 && p.depth == 256 && p.lost == 2 && p.reruns == 2
    && decide (Bits.get cyc 8 8 ≤ p.deadline)
    && tasks.all (fun e => !e.2.configured || (decide (Tbl.get 0 p.periods e.1 ≤ e.2.ticks)
      && (e.2.kind == 1 || Tbl.get 0 p.spacing e.1 == 250)))

/-- FAB_PROOF. -/
def State.proofReg (s : State) : Word :=
  match s.cfg.prog with
  | some g =>
    match g.proof with
    | some p => Bits.ofBool true 31 ||| Bits.ofBool (s.cfg.progOk && p.passes s.cfg.cur.tasks s.cfg.cur.cyc) 30
        ||| Bits.fld (p.lost % 16) 24 ||| Bits.fld (p.format % 65536) 0
    | none => 0#32
  | none => 0#32

/-- FAB_TASKn_POLICY. -/
def TaskSt.policyReg (t : TaskSt) : Word :=
  Bits.ofBool t.limits.stop 31 ||| Bits.fld t.limits.ovrLimit 16 ||| Bits.fld (min t.consec 255) 8 ||| Bits.fld t.limits.quota 0

/-- The registers of the FAB block by offset, but for FAB_EVENT and FAB_EVENT_EN; `sel` is the reader's FAB_ENGINE_SEL. -/
def State.fabReg (s : State) (sel : Word) (o : Nat) : Word :=
  let f := s.fab
  if 0x100 ≤ o ∧ o < 0x300 then
    let t := s.task ((o - 0x100) / 16)
    match (o - 0x100) % 16 with
    | 0 => Bits.fld t.limits.budget 0
    | 4 => Bits.fld (match t.next with | some (_, l) => l.budget | none => t.limits.budget) 0
    | 8 => Bits.fld (min t.use 0x0FFFFFFF) 0
    | 12 => t.policyReg
    | _ => 0#32
  else if 0x300 ≤ o ∧ o < 0x400 then
    let t := s.task ((o - 0x300) / 8)
    match (o - 0x300) % 8 with
    | 0 => t.overruns
    | 4 => t.refuses
    | _ => 0#32
  else match o with
    | 0x00 => Bits.ofBool f.reserveLost 31 ||| Bits.ofBool ((List.range 16).any (fun e => (f.engine e).draining)) 30
        ||| Bits.fld (f.count (fun x => x.state == .available)) 16
        ||| Bits.fld (((List.range 16).find? (fun e => (f.engine e).draining)).getD 0) 0
    | 0x0C => f.mask (fun x => x.state == .available)
    | 0x10 => f.mask (fun x => x.state == .fenced || x.state == .selfTest)
    | 0x14 => f.mask (fun x => x.state == .retired)
    | 0x18 => sel &&& 0xF#32
    | 0x1C =>
      let x := f.engine (Bits.get sel 0 4)
      Bits.fld x.state.code 29 ||| Bits.ofBool x.run.isSome 28
        ||| Bits.fld (match x.run with | some r => r.ref.task % 32 | none => 0) 21
        ||| Bits.fld (min (x.recent s.time.sec.toNat).length 15) 17 ||| Bits.fld x.deque.length 8
    | 0x20 => f.faultInfo
    | 0x24 => f.faultAddr
    | 0x28 => s.proofReg
    | 0x2C => f.rerunCnt
    | 0x30 => Bits.lo f.stealCnt
    | 0x34 => Bits.hi f.stealCnt
    | 0x38 => f.collCnt
    | 0x3C => f.spillCnt
    | 0x40 => f.stallCnt
    | 0x44 => Bits.fld f.uncorr 16 ||| Bits.fld f.corrected 0
    | 0x48 => f.drainCnt
    | _ => 0#32

end Sys2Proof.Machine
end

