-- ==== Sys2Proof/Machine/ViewTwin.lean ====
section
/-! DEFINITION. Machine/ViewTwin.lean: roles, eligibility and the TWIN, XCH and CFG registers (04 R110-R141, 05 R160,
16 R461). -/
namespace Sys2Proof.Machine

/-- Does this module hold the role token (04 R107)? -/
def State.holdsToken (s : State) : Bool := s.twin.ownLow && !s.twin.partnerLow

/-- The role that the module shows (04 R110), `none` during start-up. -/
inductive Role where
  | none | lead | shadow | solo
deriving DecidableEq, Repr

def State.role (s : State) : Role :=
  if !s.twin.began then .none
  else if s.holdsToken then (if s.twin.link = .severed then .solo else .lead)
  else .shadow

def Role.code : Role → Nat
  | .none => 0 | .lead => 1 | .shadow => 2 | .solo => 3
def LinkState.code : LinkState → Nat
  | .severed => 0 | .catchingUp => 1 | .joined => 2
def LaneState.code : LaneState → Nat
  | .down => 0 | .handshake => 1 | .up => 2

/-- Is the sequential output gate open (04 R108)? -/
def State.gateOpen (s : State) : Bool := s.twin.ownLow && !s.twin.partnerLow && s.twin.high1us

/-- Do program image and configuration differ from the partner's (04 R113)? -/
def State.imageDiff (s : State) : Bool :=
  s.twin.link != .severed && !s.holdsToken &&
    (s.twin.peer.cfg != s.cfg.cur.hash || s.twin.peer.prog != (match s.cfg.prog with | some p => p.hash | none => []))

/-- TWIN_ELIGIBILITY: the conditions of R113 that fail. -/
def State.eligibility (s : State) : Word :=
  Bits.ofBool (s.twin.link != .joined) 0 ||| Bits.ofBool s.holdsToken 1 ||| Bits.ofBool (s.cyc.mode == .hold) 2
    ||| Bits.ofBool s.fab.reserveLost 3 ||| Bits.ofBool (!s.twin.regions.isEmpty) 4 ||| Bits.ofBool s.twin.suspect 5
    ||| Bits.ofBool s.twin.axDiff 6 ||| Bits.ofBool s.imageDiff 7
    ||| Bits.ofBool ((List.range 4).any (fun a => (Tbl.get {} s.ax.ax a).bridgeBad)) 8

/-- Is this module eligible for promotion (04 R113)? -/
def State.eligible (s : State) : Bool := s.role == .shadow && s.eligibility == 0#32

/-- Is the partner eligible, as its last HEARTBEAT says (04 R112, R127, R130)? -/
def State.partnerEligible (s : State) : Bool :=
  s.twin.link == .joined && !s.twin.testing && match s.twin.heard with
    | some h => h.role == 2 && h.elig == 0#32
    | none => false

def TwinBlk.lane (t : TwinBlk) (l : Nat) : OlviaLane := Tbl.get {} t.lanes l
def TwinBlk.setLane (t : TwinBlk) (l : Nat) (x : OlviaLane) : TwinBlk := { t with lanes := Tbl.set {} t.lanes l x }
def TwinBlk.task (t : TwinBlk) (n : Nat) : TwinTask := Tbl.get {} t.tasks n
def TwinBlk.setTask (t : TwinBlk) (n : Nat) (x : TwinTask) : TwinBlk := { t with tasks := Tbl.set {} t.tasks n x }

/-- Is the Olvia link up (04 R101)? -/
def TwinBlk.linkUp (t : TwinBlk) : Bool := (t.lane 0).state == .up || (t.lane 1).state == .up

/-- Is this module the LEAD of a pair? -/
def State.leads (s : State) : Bool := s.holdsToken && s.twin.link != .severed

/-- Is this module the SHADOW of a pair? -/
def State.follows (s : State) : Bool := s.twin.started && !s.holdsToken && s.twin.link != .severed

/-- The nonce of a frame: slot bit, lane bit, 30 zero bits and the frame counter (04 R102). -/
def olviaNonce (slotB : Bool) (lane : Nat) (ctr : DWord) : BitVec 96 :=
  BitVec.ofBool slotB ++ BitVec.ofNat 1 lane ++ 0#30 ++ ctr

/-- The header of a frame on a lane (04 R103). (DESIGN CHOICE, log 89) -/
def TwinBlk.head (t : TwinBlk) (o : OlviaOut) (l : Nat) : OlviaHead :=
  let ctr := Tbl.get 0#64 t.txCtr l
  let nonce := olviaNonce t.slotB l ctr
  { type := o.type, slotB := t.slotB, lane := l, len := Config.payloadLen t.txSeq % 9001, seq := t.txSeq, ctr := ctr
    nonce := nonce, tag := Config.gcmTag (t.lane l).key nonce t.txSeq }

/-- The lanes that are UP. -/
def TwinBlk.upLanes (t : TwinBlk) : List Nat := [0, 1].filter (fun l => (t.lane l).state == .up)

/-- A frame goes out on every lane that is UP, with one MSG_SEQ and each lane's own frame counter (04 R100, R102, R103). -/
def TwinBlk.send (t : TwinBlk) (o : OlviaOut) : TwinBlk :=
  { t with sent := t.sent ++ [o], heads := t.heads ++ [t.upLanes.map (t.head o)], txSeq := t.txSeq + 1#32
           txCtr := t.upLanes.foldl (fun c l => Tbl.mod 0#64 c l (· + 1#64)) t.txCtr }

/-- Send a frame on the Olvia link (04 R100). -/
def State.olvia (s : State) (o : OlviaOut) : State :=
  if s.twin.linkUp then { s with twin := s.twin.send o } else s

/-- The entries of a list of awaited second copies from which a copy on the other lane takes its own and all before it. -/
def dropCopies (l : Nat) (q : Word) : List (Nat × Word) → List (Nat × Word)
  | [] => []
  | e :: r => if e.1 = l then (if e.2 = q then r else dropCopies l q r) else e :: dropCopies l q r

/-- Is a frame one to use: it comes on a lane that is UP and is not the second copy of one already used (04 R100)? -/
def TwinBlk.fresh (t : TwinBlk) (f : OlviaHdr) : Bool :=
  (t.lane f.lane.val).state == .up && !t.copies.contains (1 - f.lane.val, f.seq)

/-- What the receiver keeps of the copies it has seen once a frame has come. -/
def TwinBlk.noteCopy (t : TwinBlk) (f : OlviaHdr) : TwinBlk :=
  let l := f.lane.val
  if t.copies.contains (1 - l, f.seq) then { t with copies := dropCopies (1 - l) f.seq t.copies }
  else if (t.lane l).state == .up && (t.lane (1 - l)).state == .up then { t with copies := t.copies ++ [(l, f.seq)] }
  else t

/-- A received frame acts when it is one to use, and then once (04 R100). -/
def State.onFrame (s : State) (f : OlviaHdr) (g : State → State) : State :=
  let s' := { s with twin := s.twin.noteCopy f }
  if s.twin.fresh f then g s' else s'

/-- Does the supervisor restart after a fault: host rings and network software pause (01 R21)? -/
def State.svDown (s : State) : Bool := s.twin.regions.contains Region.sv

/-- TWIN_STATUS. -/
def State.twinStatus (s : State) : Word :=
  let t := s.twin
  Bits.fld s.role.code 30 ||| Bits.fld t.link.code 28 ||| Bits.ofBool t.slotB 27 ||| Bits.ofBool t.seated 26
    ||| Bits.ofBool t.partner 25 ||| Bits.ofBool (if t.slotB then t.partnerLow else t.ownLow) 24
    ||| Bits.ofBool (if t.slotB then t.ownLow else t.partnerLow) 23 ||| Bits.ofBool s.holdsToken 22
    ||| Bits.ofBool s.gateOpen 21 ||| Bits.ofBool s.eligible 20 ||| Bits.ofBool t.isolated 19
    ||| Bits.ofBool t.suspect 18 ||| Bits.ofBool t.engaged 17

/-- Consecutive APPLY verdicts of the configured task with the fewest, 8 for a proved one (04 *TWIN_COPY_STATUS*). -/
def State.matches' (s : State) : Nat :=
  s.configuredTasks.foldl (fun m n => min m (let t := s.twin.task n; if t.proved then 8 else min t.matched 8)) 8

/-- The registers of the TWIN block by offset, but for TWIN_EVENT and TWIN_EVENT_EN (04 R141). TASK of TWIN_COPY_STATUS reads 0
outside phases 2 and 3. (DESIGN CHOICE, log 88) -/
def State.twinReg (s : State) (o : Nat) : Word :=
  let t := s.twin
  match o with
  | 0x00 => s.twinStatus
  | 0x0C => s.eligibility
  | 0x10 => Bits.fld (t.lane 1).state.code 30 ||| Bits.fld (t.lane 1).errors 16
      ||| Bits.fld (t.lane 0).state.code 14 ||| Bits.fld (t.lane 0).errors 0
  | 0x14 => if t.phase = 0 then 0#32 else Bits.fld t.phase 29
      ||| Bits.fld (if t.phase = 2 ∨ t.phase = 3 then t.copyTask % 32 else 0) 24
      ||| Bits.fld (if t.phase = 5 then s.matches' else 0) 16 ||| Bits.fld t.percent 0
  | 0x18 => t.lastTake
  | 0x1C => Bits.fld t.joinReason 0
  | 0x20 => t.missCnt
  | 0x24 => t.authCnt
  | 0x28 => t.mismCnt
  | 0x2C => t.takeCnt
  | 0x30 => t.splitCnt
  | 0x34 => t.mismTask
  | 0x38 => Bits.lo t.mismCycle
  | 0x3C => Bits.hi t.mismCycle
  | 0x40 => Bits.lo t.substCnt
  | 0x44 => Bits.hi t.substCnt
  | 0x48 => if s.holdsToken then 0#32 else BitVec.ofInt 32 t.tickOff
  | _ => 0#32

def XchState.code : XchState → Nat
  | .idle => 0 | .staging => 1 | .staged => 2 | .armed => 3 | .switching => 4 | .settling => 5

/-- Is an exchange armed for the refusals of R52, R126 and R130 (05 R144)? -/
def State.exchangeArmed (s : State) : Bool :=
  s.xch.cur.state == .armed || s.xch.cur.state == .switching || s.xch.cur.state == .settling

/-- The first 32 bits of a SHA-256 hash (DEDUCED: its first word, log 18). -/
def hashId (h : List Byte) : Word := BitVec.ofNat 32 ((h.take 4).foldl (fun n b => n * 256 + b.toNat) 0)

/-- KiB of code, rounded up. -/
def kib (n : Nat) : Nat := (n + 1023) / 1024

/-- The registers of the XCH block by offset, but for XCH_EVENT and XCH_EVENT_EN (05 R160). -/
def State.xchReg (s : State) (o : Nat) : Word :=
  let x := s.xch
  let shown := x.cur.state != .idle && x.cur.state != .staging
  let pkg := if shown then x.pkg else none
  match o with
  | 0x00 => Bits.fld x.cur.state.code 29
      ||| Bits.ofBool (match pkg with | some p => p.cfg.isSome | none => false) 28
      ||| Bits.ofBool (match pkg with | some p => p.reverse.isSome | none => false) 27
      ||| Bits.ofBool x.done 26 ||| Bits.ofBool x.ready 25 ||| Bits.fld (x.cur.pivot % 32) 16
      ||| Bits.fld x.reason 8 ||| Bits.fld x.percent 0
  | 0x0C => Bits.lo x.cur.n
  | 0x10 => Bits.hi x.cur.n
  | 0x14 => x.switched
  | 0x18 => match pkg with | some p => hashId p.prog.hash | none => 0#32
  | 0x1C => match s.cfg.prog with | some p => hashId p.hash | none => 0#32
  | 0x20 => Bits.fld (match s.cfg.prog with | some p => kib p.code | none => 0) 16
      ||| Bits.fld (match pkg with | some p => kib p.prog.code | none => 0) 0
  | 0x24 => x.discarded
  | 0x28 => x.added
  | 0x2C => x.converted
  | 0x30 => x.completes
  | 0x34 => x.aborts
  | 0x38 => x.refuses
  | _ => 0#32

def Phase.code : Phase → Nat
  | .rom => 0 | .verify => 1 | .twinSearch => 2 | .rick => 3 | .time => 4 | .resume => 5 | .ready => 6 | .noConfig => 7
def SlotUse.code : SlotUse → Nat
  | .empty => 0 | .staged => 1 | .valid => 2 | .active => 3 | .badCrc => 4 | .badSignature => 5
def RickState.code : RickState → Nat
  | .none => 0 | .formed => 1 | .refused => 2

/-- The first copy of the key store that can be read (17 R470). -/
def CfgBlk.keyCopy (c : CfgBlk) : Option KeySection :=
  match if c.keyBad0 then none else c.keys0 with
  | some k => some k
  | none => if c.keyBad1 then none else c.keys1

def CfgBlk.keyStore (c : CfgBlk) : KeySection := c.keyCopy.getD {}

/-- Can neither copy of a written key store be read (16 R446)? -/
def CfgBlk.keysLost (c : CfgBlk) : Bool := (c.keys0.isSome || c.keys1.isSome) && c.keyCopy.isNone

/-- The registers of the CFG block by offset, but for CFG_EVENT and CFG_EVENT_EN (16 R461). -/
def State.cfgReg (s : State) (commission : Bool) (o : Nat) : Word :=
  let c := s.cfg
  if 0x110 ≤ o ∧ o < 0x170 then
    let u := (o - 0x100) / 16
    let x := c.unit u
    let serial := if c.enrolled u then (Tbl.get {} c.cur.keys.units u).serial else 0#64
    match o % 16 with
    | 0 => Bits.fld x.state.code 29 ||| Bits.fld x.hops0 26 ||| Bits.fld x.hops1 23 ||| Bits.fld (x.delay % 65536) 0
    | 4 => Bits.lo serial
    | 8 => Bits.hi serial
    | 12 => x.failCnt
    | _ => 0#32
  else match o with
    | 0x00 => Bits.fld c.phase.code 29 ||| Bits.ofBool c.slotLoaded 28 ||| Bits.fld c.rick.code 26
        ||| Bits.ofBool (c.loaded && c.keyStore.imageKeys.isEmpty) 25 ||| Bits.ofBool c.safeOk 24 ||| Bits.ofBool c.progOk 23
    | 0x0C => Bits.ofBool commission 1 ||| Bits.ofBool c.enumCmd 0
    | 0x10 => Bits.ofBool c.armReg 0
    | 0x14 => Bits.fld c.cur.twinWait 0
    | 0x18 => Bits.ofBool c.pend.isSome 31 ||| Bits.fld c.reason 16 ||| Bits.fld (if c.pend.isSome then c.refTask else 0) 0
    | 0x1C => Bits.fld c.slotA.use.code 29 ||| Bits.fld c.slotB.use.code 26
    | 0x20 => Bits.lo c.slotA.seq
    | 0x24 => Bits.hi c.slotA.seq
    | 0x28 => Bits.lo c.slotB.seq
    | 0x2C => Bits.hi c.slotB.seq
    | 0x30 => c.switchCnt
    | 0x34 => c.refuseCnt
    | 0x38 => c.commCnt
    | 0x3C => Bits.ofBool c.rl0 31 ||| Bits.ofBool c.rl1 30 ||| Bits.ofBool c.broken 29
        ||| Bits.fld (if c.broken then c.breakAt else 0) 26
    | 0x40 => c.enumCnt
    | _ => 0#32

end Sys2Proof.Machine
end

