-- ==== Sys2Proof/Machine/View.lean ====
section
/-! DEFINITION. Machine/View.lean: what a read of each register returns (15 R423, R424), and the questions that the blocks
ask of one another. -/
namespace Sys2Proof.Machine

/-- TAI nanoseconds now, at the resolution of the model's time (log 4). -/
def State.nowNs (s : State) : Nat := s.time.sec.toNat * 1000000000 + s.time.ns.toNat

/-- The number of the present station tick since the epoch. -/
def State.tickNo (s : State) : Nat := s.nowNs / 10000

/-- The module's unit number (01 R15). -/
def State.unitNo (s : State) : BitVec 4 := if s.twin.slotB then 0xB#4 else 0xA#4

/-- Are this module's shared stages engaged (08 R230)? -/
def State.sharedEngaged (s : State) : Bool := s.twin.engaged

/-- Does the partner report its shared stages engaged? -/
def State.partnerEngaged (s : State) : Bool :=
  s.twin.partner && !s.twin.lost && match s.twin.heard with | some h => h.engaged | none => false

/-- Is no twin present or reachable (01 R25)? -/
def State.solo (s : State) : Bool := s.role == .solo

/-- Is an angle clock LOCKED or in STANDSTILL (10 R309)? -/
def State.clockSteady (s : State) (c : Nat) : Bool :=
  (s.time.clock c).state == .locked || (s.time.clock c).state == .standstill

/-- The binary angle of a clock. -/
def State.clockAngle (s : State) (c : Nat) : Word := Bits.lo (s.time.clock c).pos

/-- The shaft input that a shaft clock uses. -/
def State.clockShaft (s : State) (c : Nat) : Nat := (s.time.clock c).srcA % 2

/-- Is the partner's presence contact closed (01 R20)? -/
def State.partnerSeated (s : State) : Bool := s.twin.partner

/-- Does this module's panel unit drive the panel (01 R19, 12 R369)? -/
def State.panelDriving (s : State) : Bool := s.holdsToken && !s.pnl.faulted

/-- Is this module the LEAD, or one that acts alone (14 R405)? -/
def State.actsAsLead (s : State) : Bool :=
  s.role == .lead || s.role == .solo || (s.role == .shadow && s.twin.link == .severed)

/-- Are the modules JOINED or CATCHING-UP (04 R99)? -/
def State.joined (s : State) : Bool := s.twin.link != .severed

/-- Is any task running: in RUN or HOLD, after its first T0 (06 R165)? -/
def State.taskRunning (s : State) : Bool :=
  s.configuredTasks.any (fun n => (s.task n).mode != .stop && (s.task n).lastT0.isSome)

/-- The tasks whose input set holds a capture channel. -/
def State.capTasks (s : State) (ch : Nat) : List Nat :=
  s.configuredTasks.filter (fun n => (s.progTask n).inputs.contains (.cap ch))

/-- The last scheduled T0 of a task in ns and its index n = (t − PHASE) / PERIOD (07 R203). -/
def State.taskSched (s : State) (task : Nat) : Option (Nat × Nat) :=
  let c := s.taskCfg task
  (s.task task).lastT0.map (fun t => (t, (t / 10000 - c.phaseTicks) / max c.ticks 1))

/-- Was the task's cycle due to apply at that T0 skipped (02 R37)? -/
def State.taskStale (s : State) (task : Nat) : Bool := (s.task task).stale

/-- Is the task OUT_HELD or the rick in HOLD? -/
def State.taskHeld (s : State) (task : Nat) : Bool := (s.task task).pol == .outHeld || s.cyc.mode == .hold

/-- Is the rick in STOP? -/
def State.inStop (s : State) : Bool := s.cyc.mode == .stop

/-- The cycle number of the last commit of the reference task (13 R380), 0 when no task is configured. -/
def State.refCycle (s : State) : DWord :=
  match s.refTask with
  | some n => (s.task n).cycle
  | none => 0#64

/-- A word of a task's committed image (13 R379). -/
def State.imageWord (s : State) (task word : Nat) : Word :=
  BitVec.ofNat 32 (Bits.leNat (Tbl.getList 0#8 (s.task task).image (4 * word) 4))

/-- Do the modules hold different SAFETY_IDs (10 R321, 17 R468)? -/
def State.paramChange (s : State) : Bool := s.joined && s.twin.peer.safetyId != s.safe.id

/-- What a requester holds for itself (15 R427). -/
def State.req (s : State) : Requester → ReqState
  | .host => s.mod.host
  | .maint => s.mod.maint

/-- A selector of a requester. -/
def State.sel (s : State) (r : Requester) (off : Nat) : Word := Tbl.get 0#32 (s.req r).sels off

/-- Is COMMISSION running? -/
def State.commissioning (s : State) : Bool := s.cfg.marker.isSome

/-- The value of the register at an offset of BAR0 below 0x4000, with the objects that the requester has selected; read
latches apart (15 R423-R425). -/
def State.readReg (s : State) (r : Requester) (off : Nat) : Word :=
  let b := off / 0x400
  let o := off % 0x400
  if off % 4 ≠ 0 ∨ 0x4000 ≤ off then 0#32
  else if o = 4 then Tbl.get 0#32 s.event b
  else if o = 8 then Tbl.get 0#32 s.eventEn b
  else match b with
    | 0 => if o = 0xC then summary s.event else s.mod.reg o
    | 1 => s.cycReg (s.sel r 0x0420) o
    | 2 => s.fabReg (s.sel r 0x0818) o
    | 3 => s.twinReg o
    | 4 => s.xchReg o
    | 5 => s.time.reg (Bits.get (s.sel r 0x1490) 0 8) o
    | 6 => s.net.reg (s.gateOpen && s.mod.ready) (Bits.get (s.sel r 0x1860) 0 10) o
    | 7 => s.dio.reg s.holdsToken s.sharedEngaged s.partnerEngaged o
    | 8 => s.aio.reg s.sharedEngaged s.partnerEngaged o
    | 9 => s.safe.reg s.nowNs s.time.sec.toNat s.twin.partner s.paramChange (Bits.get (s.sel r 0x2438) 0 6) o
    | 10 => s.ax.reg s.gateOpen o
    | 11 => s.pnl.reg s.panelDriving (Bits.get (s.sel r 0x2C24) 0 4) o
    | 12 => s.recorder.reg (match r with | .host => 0 | .maint => 1) (s.req r).sels o
    | 13 => s.host.reg o
    | 14 => s.cfgReg s.commissioning o
    | _ => s.mnt.reg s.nowNs o

/-- What a front indicator shows (18 R490): its colour, steady or flashing. -/
inductive Colour where
  | green | amber | red
deriving DecidableEq, Repr

inductive Lamp where
  | off
  | on (c : Colour)
  | flash (c : Colour)
deriving DecidableEq, Repr

/-- The six front indicators; while IDENTIFY runs they all flash together at 2 Hz and show nothing else (18 R490). -/
structure Indicators where
  pwr   : Lamp
  role  : Lamp
  twin  : Lamp
  field : Lamp
  safe  : Lamp
  fault : Lamp
  identify : Bool
deriving DecidableEq, Repr

/-- Has a DIO or AIO channel a present diagnostic other than NONE? (DEDUCED, log 101) -/
def State.fieldDiag (s : State) : Bool :=
  (List.range 96).any (fun n => (s.dio.getCh n).diag != 0) || (List.range 32).any (fun n => (s.aio.getCh n).diag != 0)

/-- *Front indicators* (18 R490). A module without supply shows nothing, and one without a role no ROLE. (DEDUCED, log 101) -/
def State.indicators (s : State) : Indicators :=
  if !s.mod.powered then ⟨.off, .off, .off, .off, .off, .off, false⟩
  else
    { pwr := if s.mod.ready then .on .green else .flash .green
      role := match s.role with
        | .lead => .on .green
        | .solo => .flash .green
        | .shadow => if s.twin.isolated then .flash .amber else .on .amber
        | .none => .off
      twin := match s.twin.link with
        | .joined => .on .green
        | .catchingUp => .flash .green
        | .severed => .off
      field := if s.fieldDiag then .on .red else .off
      safe := if s.safe.laneP && s.safe.laneHOk && s.safe.idOk then .on .green else .on .red
      fault := if s.mod.failed then .on .red
        else if s.cfg.phase == .noConfig || s.cfg.phase == .rom then .flash .red else .off
      identify := s.mnt.identify }

end Sys2Proof.Machine
end

