-- ==== Sys2Proof/Machine/Ops.lean ====
section
/-! DEFINITION. Machine/Ops.lean: the operations every block shares: time, the host's rings, EVENT bits, reports, records
and trigger captures (13 R373-R387, 14 R396-R415). -/
namespace Sys2Proof.Machine

/-- The start of the present station tick in TAI ns (13 R380). (DESIGN CHOICE, log 4) -/
def State.tickStart (s : State) : DWord := BitVec.ofNat 64 (s.tickNo * 10000)

/-- The instant of a detection: within the present tick, nothing more is said (log 4). -/
def State.detectNs (s : State) : DWord :=
  BitVec.ofNat 64 (s.tickNo * 10000 + Config.subTickNs s.free % 10000)

/-- The ring after one entry: TAIL advances, PHASE inverts at each later pass (14 R399). -/
def OutRing.advance (r : OutRing) : OutRing :=
  if r.tail + 1 = r.size then { r with tail := 0, phase := !r.phase } else { r with tail := r.tail + 1 }

/-- Send to host memory, or keep in order while Bus Master Enable is clear (14 R496). -/
def HostBlk.emit (h : HostBlk) (o : HostOut) : HostBlk :=
  if h.busMaster then { h with sent := h.sent ++ [o] } else { h with kept := h.kept ++ [o] }

/-- Is the vector masked, by its own mask or the function mask (14 R415)? (PRESUMED, log 5) -/
def HostBlk.masked (h : HostBlk) (v : Nat) : Bool := h.msixMask || (h.msixWord (4 * v + 3)).getLsbD 0

/-- An MSI-X message falls due: sent, set pending while masked, or kept while Bus Master Enable is clear.
(PRESUMED, log 5) -/
def HostBlk.interrupt (h : HostBlk) (v : Nat) : HostBlk :=
  if !h.busMaster then { h with keptMsix := h.keptMsix ++ [v] }
  else if !h.msixEn then h
  else if h.masked v then { h with pba := Bits.setBit h.pba v }
  else { h with sent := h.sent ++ [.msix v] }

/-- The pending entries that have reached COALESCE_COUNT give the message that is due (14 R415). Gives the ring and whether. -/
def OutRing.due (r : OutRing) : OutRing × Bool :=
  if r.irqPend ≠ 0 ∧ Bits.get r.cfg 8 7 ≤ r.irqPend then ({ r with irqPend := 0 }, true) else (r, false)

/-- One more entry pends for an interrupt from TAI ns `now` on (14 R415). -/
def OutRing.pend (r : OutRing) (now : Nat) : OutRing × Bool :=
  if !Bits.bit r.cfg 15 then (r, false)
  else OutRing.due { r with irqPend := r.irqPend + 1, irqNs := if r.irqPend = 0 then now else r.irqNs }

/-- The vector of a ring. -/
def OutRing.vector (r : OutRing) : Nat := Bits.get r.cfg 16 5

/-- Write one entry into the event ring, which has room (14 R399, R415). -/
def HostBlk.eqPut (h : HostBlk) (e : EventEntry) : HostBlk :=
  let o := HostOut.event (h.eq.addr h.eq.tail) h.eq.phase e
  let p := h.eq.advance.pend e.time.toNat
  let h1 := ({ h with eq := p.1 }).emit o
  if p.2 then h1.interrupt p.1.vector else h1

/-- The LOST entry that follows a time of full event ring (14 R414). -/
def State.lostEntry (s : State) : EventEntry :=
  { kind := 3, source := 13, code := 3, time := s.detectNs
    detail := 0xFFFFFFFF#32 ++ s.host.eq.status
    extra := Bits.natBytes 4 s.host.eq.dropped }

/-- The session sends each event entry written to the host event ring (15 R441 EVENT). -/
def State.mntEvent (s : State) (e : EventEntry) : State :=
  match s.mnt.session with
  | some r =>
    if r.read then
      { s with mnt := { s.mnt with sent := s.mnt.sent ++ [.event e.source e.code e.detail e.recSeq] } }
    else s
  | none => s

/-- An entry falls due for the event ring (14 R413, R414). Gives whether it was dropped for want of a free entry. -/
def State.eventPut (s : State) (e : EventEntry) : State × Bool :=
  let q := s.host.eq
  if q.state ≠ .enabled then (s, false)
  else if q.room = 0 then
    ({ s with host := { s.host with eq := { q with full := Bits.sat 17 q.full 1, dropped := q.dropped + 1 } } }, true)
  else if q.dropped = 0 then ({ s with host := s.host.eqPut e }.mntEvent e, false)
  else
    let l := s.lostEntry
    let s1 := { s with host := { s.host with eq := { q with dropped := 0 } }.eqPut l }.mntEvent l
    let q1 := s1.host.eq
    if q1.room = 0 then
      ({ s1 with host := { s1.host with eq := { q1 with full := Bits.sat 17 q1.full 1, dropped := 1 } } }, true)
    else ({ s1 with host := s1.host.eqPut e }.mntEvent e, false)

/-- The EVENT register of a block (15 R439). -/
def State.eventReg (s : State) (b : Block) : Word := Tbl.get 0#32 s.event b.code

/-- Is the bit enabled to the host event ring? -/
def State.enabledBit (s : State) (b : Block) (bit : Nat) : Bool := Bits.bit (Tbl.get 0#32 s.eventEn b.code) bit

/-- Set a bit of a block's EVENT register and nothing else. -/
def State.rawEvent (s : State) (b : Block) (bit : Nat) : State :=
  { s with event := Tbl.set 0#32 s.event b.code (Bits.setBit (s.eventReg b) bit) }

/-- An event entry at this instant. Gives whether it was dropped. -/
def State.entryNow (s : State) (e : EventEntry) : State × Bool :=
  { s with free := s.free + 1 }.eventPut { e with time := s.detectNs }

/-- The DETAIL of a record or event entry with an event-bit CODE (13 R373). -/
def mkDetail (obj : Nat) (status : Word) : DWord := BitVec.ofNat 32 obj ++ status

/-- The object number of a report that concerns none. -/
def noObj : Nat := 0xFFFFFFFF

/-- Does the quota of a source refuse one more record (13 R384)? -/
def Recorder.overQuota (r : Recorder) (src : Nat) : Bool :=
  r.quotaOf src ≠ 0 && r.quotaOf src ≤ Tbl.get 0 r.use src

/-- Count a refusal of a source. -/
def Recorder.countRefusal (r : Recorder) (src : Nat) : Recorder :=
  { r with refuseCnt := Tbl.mod 0#32 r.refuseCnt src Bits.inc, refused := Tbl.mod 0 r.refused src (· + 1) }

/-- The order of records whose capture falls in one tick (13 R383): source, then trigger number within TRIG. -/
def RecReq.before (a b : RecReq) : Bool :=
  a.time.toNat < b.time.toNat ||
    (a.time == b.time &&
      (a.source < b.source || (a.source == b.source && (a.source != 16 || a.code ≤ b.code))))

/-- Put a record request behind every request that comes before it. (DEDUCED, log 53) -/
def enqueue (q : RecReq) : List RecReq → List RecReq
  | [] => [q]
  | a :: l => if a.before q then a :: enqueue q l else q :: a :: l

/-- A source obtains a record: its USE counts and the request waits for the supervisor (13 R382, R384). One that the partner
has sent comes late and keeps its place of arrival (13 R383). -/
def Recorder.obtain (r : Recorder) (q : RecReq) : Recorder :=
  { r with use := Tbl.mod 0 r.use q.source (· + 1), queue := if q.mirror.isSome then r.queue ++ [q] else enqueue q r.queue }

/-- The snapshot words of a trigger at this instant (13 R380): no side effect on any register. -/
def State.snapshot (s : State) (l : List SnapEntry) : List Word :=
  l.map (fun e => match e with
    | .reg off => s.readReg .host off
    | .var t w => s.imageWord t w)

/-- A trigger that is not held off fires at TAI ns `now`: its count and hold-off start (13 R380, R381). -/
def Recorder.fired (r : Recorder) (now n : Nat) : Recorder :=
  let d := Tbl.get {} r.trigDefs n
  let f := fun (t : TrigState) => { t with fireCount := Bits.sat 16 t.fireCount 1, holding := decide (0 < d.holdoff), firedNs := now }
  { r with trigs := Tbl.mod {} r.trigs n f }

/-- What became of a trigger. -/
inductive Capture where
  | held | refused | lost | taken
deriving DecidableEq, Repr

/-- A trigger's condition occurs (13 R380-R382, R384); the caller sets the EVENT bit that the outcome asks for. -/
def State.capture (s : State) (n : Nat) (cycle : DWord) (o : Origin) : State × Capture :=
  let d := Tbl.get {} s.recorder.trigDefs n
  if (Tbl.get {} s.recorder.trigs n).holding then (s, .held)
  else
    let r := s.recorder.fired s.nowNs n
    if r.overQuota 16 then ({ s with recorder := r.countRefusal 16 }, .refused)
    else if 64 ≤ r.depth then
      ({ s with recorder := { r with
          overrunCnt := Bits.inc r.overrunCnt
          trigs := Tbl.mod {} r.trigs n (fun t => { t with lost := t.lost + 1 }) } }, .lost)
    else
      let q : RecReq := { source := 16, code := n, time := s.tickStart, cycle := cycle, words := s.snapshot d.snaps, origin := o }
      ({ s with recorder := r.obtain q }, .taken)

/-- The numbers of the valid triggers of kind EVENT on a bit (13 R380). -/
def Recorder.onEvent (r : Recorder) (b : Block) (bit : Nat) : List Nat :=
  (r.trigDefs.filter (fun e => e.2.valid && e.2.kind == .event b.code bit)).map Prod.fst

/-- Set an EVENT bit, with its event entry when `entry`. Gives whether the entry was dropped. -/
def State.ownEvent (s : State) (b : Block) (bit : Nat) (entry : Bool) : State × Bool :=
  let s1 := s.rawEvent b bit
  if entry then s1.entryNow { source := b.code, code := bit, detail := mkDetail noObj 0#32 } else (s1, false)

/-- Set an EVENT bit with all that follows: the event entry when `entry`, and the EVENT triggers, whose outcomes set bits
of REC_EVENT in turn, to the depth given (log 6). An entry that is dropped sets EQ_OVERFLOW, which gives no entry of its own
(14 R414). -/
def State.setEventN : Nat → State → Block → Nat → Bool → State
  | 0, s, b, bit, entry =>
    let r := s.ownEvent b bit entry
    if r.2 then r.1.rawEvent .host 3 else r.1
  | k + 1, s, b, bit, entry =>
    let r := s.ownEvent b bit entry
    let s2 := (r.1.recorder.onEvent b bit).foldl (fun s n =>
      match s.capture n s.refCycle .self with
      | (s', .refused) => State.setEventN k s' .recorder 3 (s'.enabledBit .recorder 3)
      | (s', .lost) => State.setEventN k s' .recorder 5 (s'.enabledBit .recorder 5)
      | (s', _) => s') r.1
    if r.2 then State.setEventN k s2 .host 3 false else s2

/-- An event entry, with EQ_OVERFLOW set when it is dropped; that setting gives no entry of its own (14 R414). -/
def State.eventEntry (s : State) (e : EventEntry) : State :=
  let r := s.entryNow e
  if r.2 then State.setEventN 3 r.1 .host 3 false else r.1

/-- The hardware sets a bit of a block's EVENT register (14 R413, 13 R380). (DESIGN CHOICE, log 6) -/
def State.setEvent (s : State) (b : Block) (bit : Nat) : State :=
  State.setEventN 3 s b bit (s.enabledBit b bit)

/-- Set an EVENT bit when a condition holds. -/
def State.setEventIf (s : State) (c : Bool) (b : Block) (bit : Nat) : State :=
  if c then s.setEvent b bit else s

/-- Ask the recorder for a record: judged by its quota at once (13 R384), refused whole while FAILED (13 R391).
Gives whether a record was obtained. -/
def State.request (s : State) (q : RecReq) : State × Bool :=
  if s.recorder.failed then (s, false)
  else if s.recorder.overQuota q.source then
    ({ s with recorder := s.recorder.countRefusal q.source }.setEvent .recorder 3, false)
  else ({ s with recorder := s.recorder.obtain q }, true)

/-- A record without an event bit (13 *Record codes without an event bit*). -/
def State.note (s : State) (src code : Nat) (detail : DWord) : State :=
  (s.request { source := src, code := code, time := s.tickStart, cycle := s.refCycle, detail := detail }).1

/-- An EVENT bit with a record and, when `entry`, the event entry that carries the record's number once it is written;
without a record the entry goes out at once with REC_SEQ all ones (13 R385, 14 R413). -/
def State.eventRecord (s : State) (entry : Bool) (b : Block) (bit obj : Nat) (status : Word) : State :=
  let s1 := State.setEventN 3 s b bit false
  let d := mkDetail obj status
  let r := s1.request { source := b.code, code := bit, time := s1.tickStart, cycle := s1.refCycle, detail := d, entry := entry }
  if r.2 then r.1
  else if entry then r.1.eventEntry { source := b.code, code := bit, detail := d } else r.1

/-- A report under 01 R27: to the recorder and to the host event ring, whatever EVENT_EN says. (DEDUCED, log 33) -/
def State.report (s : State) (b : Block) (bit obj : Nat) (status : Word) : State := s.eventRecord true b bit obj status

/-- A record with an event-bit CODE that is no report under R27: its event entry follows EVENT_EN. -/
def State.recordEvent (s : State) (b : Block) (bit obj : Nat) (status : Word) : State :=
  s.eventRecord (s.enabledBit b bit) b bit obj status

/-- Report when a condition holds. -/
def State.reportIf (s : State) (c : Bool) (b : Block) (bit obj : Nat) (status : Word) : State :=
  if c then s.report b bit obj status else s

end Sys2Proof.Machine
end

