-- ==== Sys2Proof/Machine/Dio.lean ====
section
/-! DEFINITION. Machine/Dio.lean: the digital field cells and channels: crossing, stages, diagnostics, test pulses and
the field supply (08 R224-R256). -/
namespace Sys2Proof.Machine

/-- Change one channel. -/
def Dio.modCh (d : Dio) (n : Nat) (f : DioCh → DioCh) : Dio := d.setCh n (f (d.getCh n))

/-- Change one cell. -/
def Dio.modCell (d : Dio) (c : Nat) (f : DioCell → DioCell) : Dio := d.setCell c (f (d.getCell c))

/-- Change every channel of a cell. -/
def Dio.modCellCh (d : Dio) (c : Nat) (f : DioCh → DioCh) : Dio :=
  { d with ch := Tbl.mapRange {} (fun _ x => f x) d.ch (16 * c) 16 }

/-- Change every channel. -/
def Dio.modAll (d : Dio) (f : Nat → DioCh → DioCh) : Dio := { d with ch := Tbl.mapRange {} f d.ch 0 96 }

/-- A diagnostic becomes active on a channel. -/
def DioCh.raise (x : DioDiag) (c : DioCh) : DioCh :=
  if c.active.contains x then c else { c with active := x :: c.active, lastDiag := some x }

/-- A diagnostic clears on a channel. -/
def DioCh.clear (x : DioDiag) (c : DioCh) : DioCh := { c with active := c.active.filter (fun y => y != x) }

/-- A test pulse ends without a result. -/
def DioCh.endPulse (c : DioCh) : DioCh := { c with pulse := none }

/-- Detect a diagnostic: it is raised and reported once, on detection (08 R239, R240). -/
def State.dioRaise (s : State) (n : Nat) (x : DioDiag) : State :=
  if (s.dio.getCh n).active.contains x then s
  else
    let d := s.dio.modCh n (DioCh.raise x)
    { s with dio := d }.report .dio x.bit n (d.status n)

/-- A diagnostic clears. -/
def State.dioClear (s : State) (n : Nat) (x : DioDiag) : State :=
  { s with dio := s.dio.modCh n (DioCh.clear x) }

/-- Raise or clear a diagnostic as its condition is present or not. -/
def State.dioDiag (s : State) (n : Nat) (x : DioDiag) (present : Bool) : State :=
  if present then s.dioRaise n x else s.dioClear n x

/-- A demand ends a test pulse in progress: PREEMPTED counts and the pulse is made up in the next TAI second (08 R249). -/
def Dio.preempt (d : Dio) (n sec : Nat) : Dio :=
  if (d.getCh n).pulse.isSome then
    (d.modCh n (fun c => { c with pulse := none, again := some (sec + 1) })).modCell (n / 16)
      (fun x => { x with preempted := Bits.sat 16 x.preempted 1 })
  else d

/-- The stage takes a command under the supply state of its cell (08 R251, R252); `t0` says that it is applied at a T0. -/
def DioCh.take (supply : CellSupply) (safe : Bool) (tick : Nat) (t0 on : Bool) (c : DioCh) : DioCh :=
  let c := { c with cmd := on, offSeen := c.offSeen || (c.exhausted && !on) }
  let c := if on && c.exhausted && c.offSeen then
      { c with exhausted := false, offSeen := false, ovlOpen := false, retry := 0 } else c
  if safe then c
  else match c.restore with
    | .none =>
      if !supply.live then { c with force := false }
      else if supply = .sag && on && !c.force then { c with deferred := true }
      else { c with force := on, deferred := false }
    | .resume =>
      if !on then { c with force := false, deferred := false, restore := if t0 && c.exitTick < tick then .none else .resume }
      else if t0 && c.exitTick < tick && supply.good then { c with force := true, deferred := false, restore := .none }
      else { c with deferred := true }
    | .stayOff =>
      if t0 && !on && c.exitTick < tick then { c with force := false, deferred := false, restore := .none }
      else { c with force := false, deferred := true }

/-- A committed command is applied at T0 (02 R38, 08 R249): a changed command is a demand. -/
def Dio.apply (d : Dio) (tick sec n : Nat) (on : Bool) : Dio :=
  let d := if (d.getCh n).cmd != on then d.preempt n sec else d
  let x := d.cellOf n
  d.modCh n (DioCh.take x.supply x.safe tick true on)

/-- An angle-event slot acts on the channel: always a demand (08 R249). -/
def Dio.slot (d : Dio) (tick sec n : Nat) (on : Bool) : Dio :=
  let d := d.preempt n sec
  let x := d.cellOf n
  d.modCh n (DioCh.take x.supply x.safe tick false on)

/-- The configuration that waits takes effect at the owning task's T0 (08 R255): a stage leaving OUTPUT is released, a new
output stays off until its first apply. -/
def DioCh.takeCfg (engaged : Bool) (c : DioCh) : DioCh :=
  match c.nextCfg with
  | none => c
  | some w =>
    let was := c.isOutput
    let c := { c with cfg := w, nextCfg := none }
    if c.isOutput then (if was then c else { c with engaged := engaged, cmd := false, force := false })
    else { c with engaged := false, pulse := none }

/-- Engage or release one stage (08 R230): a released stage takes no pulse. -/
def DioCh.engage (b : Bool) (c : DioCh) : DioCh :=
  if b && c.isOutput then { c with engaged := true } else { c with engaged := false, pulse := none }

/-- Engage or release every stage of the module (08 R230). -/
def Dio.engageAll (d : Dio) (b : Bool) : Dio := d.modAll (fun _ => DioCh.engage b)

/-- A frame fails its CRC or its sequence number: counted (08 R226). -/
def State.dioBadFrame (s : State) (c : Nat) : State :=
  { s with dio := s.dio.modCell c (fun x => { x with crcCnt := Bits.inc x.crcCnt }) }.setEvent .dio 16

/-- The stage takes the command that the first valid frame after a watchdog expiry carries (08 R227). -/
def DioCh.leaveSafe (supply : CellSupply) (c : DioCh) : DioCh :=
  let c := DioCh.clear .crossing c
  if !supply.live then { c with force := false }
  else if c.restore != .none then { c with force := false }
  else if supply = .sag && c.cmd && !c.force then { c with deferred := true }
  else { c with force := c.cmd }

/-- A valid frame reaches a field cell (08 R226, R227): it keeps the flags and leaves the crossing safe state. -/
def State.dioDown (s : State) (c seq : Nat) : State :=
  let x := s.dio.getCell c
  let d := if x.safe then s.dio.modCellCh c (DioCh.leaveSafe x.supply) else s.dio
  let f := fun (y : DioCell) => { y with seqDown := seq, safe := false, engage := s.sharedEngaged,
                                         partnerEng := s.partnerEngaged, sense := s.holdsToken }
  { s with dio := d.modCell c f }

/-- VALUE of an output follows its readback: 1 above 15 V, 0 below 5 V, held between (08 R253). -/
def Dio.readback (d : Dio) : List (Nat × Nat) → Dio
  | [] => d
  | (n, mv) :: l =>
    let f := fun (c : DioCh) => if c.isOutput then
        (if 15000 < mv then { c with value := true } else if mv < 5000 then { c with value := false } else c) else c
    Dio.readback (if n < 96 then d.modCh n f else d) l

/-- A valid frame reaches the module from a field cell (08 R226). -/
def State.dioUp (s : State) (c seq : Nat) (f : UpFrame) : State :=
  let g := fun (y : DioCell) => { y with seqUp := seq, lplus := f.supplyMv % 65536, current := f.currentMa % 65536 }
  { s with dio := (s.dio.modCell c g).readback (f.readback.filter (fun e => e.1 / 16 == c)) }

/-- A frame at a field cell's crossing, checked for CRC and sequence number (08 R226; log 7). -/
def State.dioFrame (s : State) (c : Nat) (crcOk : Bool) (seq : Nat) (f : CrossFrame) : State :=
  let x := s.dio.getCell c
  match f with
  | .down => if crcOk && x.seqDown < seq then s.dioDown c seq else s.dioBadFrame c
  | .up u => if crcOk && x.seqUp < seq then s.dioUp c seq u else s.dioBadFrame c

/-- The safe state of a stage at a watchdog expiry (08 R227, R228). -/
def DioCh.goSafe (x : DioCell) (c : DioCh) : DioCh :=
  let c := (DioCh.raise .crossing c).endPulse
  if !(x.engage && c.engaged) then c
  else if x.partnerEng || !x.supply.live then { c with force := false }
  else match c.safeCode with
    | 1 => { c with force := true }
    | 2 => c
    | _ => { c with force := false }

/-- CROSSING_WATCHDOG (08 R227, R228): the cell's engaged stages take their safe state, or OFF while the partner drives. -/
def execCrossingWatchdog (c : Fin 6) (s : State) : Host.Outcome State Fault Refusal :=
  let x := s.dio.getCell c
  if x.safe then .next s
  else
    let d := (s.dio.modCellCh c (DioCh.goSafe x)).modCell c (fun y => { y with safe := true })
    .next ({ s with dio := d }.report .dio 15 c (d.cellStatus c))

/-- The value and the diagnostics of a wire-break band (08 R233). -/
def DioCh.toBand (b : WbBand) (c : DioCh) : DioCh :=
  let c := { c with band := some b }
  match b with
  | .openContact => { c with value := false }
  | .closedContact => { c with value := true }
  | _ => c

/-- WIRE_BREAK_BAND_CHANGE (08 R233, R234). -/
def execWireBreakBandChange (ch : Fin 96) (band : WbBand) (s : State) : Host.Outcome State Fault Refusal :=
  let c := s.dio.getCh ch
  if !c.isWb || c.band = some band then .next s
  else
    let s := { s with dio := s.dio.modCh ch (DioCh.toBand band) }
    .next ((s.dioDiag ch .wireBreak (band == .wireBreak)).dioDiag ch .inputShort (band == .short))

/-- DIO_INPUT_CHANGE (08 R232): the filtered state takes the level that has stood for FILTER. -/
def execDioInputChange (ch : Fin 96) (level : Bool) (s : State) : Host.Outcome State Fault Refusal :=
  if (s.dio.getCh ch).isInput then .next { s with dio := s.dio.modCh ch (fun c => { c with value := level }) }
  else .next s

/-- OVERLOAD (08 R239): the main switch of an ON stage opens; not evaluated below UV2 (R250). -/
def execOverload (ch : Fin 96) (s : State) : Host.Outcome State Fault Refusal :=
  let c := s.dio.getCh ch
  if c.drives && (s.dio.cellOf ch).supply.good then
    let f := fun (c : DioCh) => { c.endPulse with ovlOpen := true }
    .next ({ s with dio := s.dio.modCh ch f }.dioRaise ch .overload)
  else .next s

/-- The channels that CELL_OVERLOAD opens: ON stages from the highest number down until the sum is below 4.0 A
(08 R239). `l` holds (channel, current) from the highest down. -/
def cellOverloadOpens : List (Nat × Nat) → Nat → List Nat
  | [], _ => []
  | (n, i) :: l, sum => if sum < 4000 then [] else n :: cellOverloadOpens l (sum - i)

/-- CELL_OVERLOAD (08 R239): the measured stage currents of the cell are given in mA, lowest channel first. -/
def execCellOverload (c : Fin 6) (currentsMa : List Nat) (s : State) : Host.Outcome State Fault Refusal :=
  let sum := currentsMa.foldl (· + ·) 0
  if 4400 < sum && (s.dio.getCell c).supply.live then
    let on := ((currentsMa.take 16).zipIdx.map (fun e => (16 * c.val + e.2, e.1))).filter (fun e => (s.dio.getCh e.1).drives)
    let s := { s with dio := s.dio.modCell c (fun x => { x with overload := true }) }
    let f := fun (c : DioCh) => { c.endPulse with ovlOpen := true }
    .next ((cellOverloadOpens on.reverse sum).foldl
      (fun s n => ({ s with dio := s.dio.modCh n f } : State).dioRaise n .cellOverload) s)
  else .next s

/-- CELL_OVERLOAD stays shown while a channel of the cell has it active. -/
def Dio.settleOverload (d : Dio) (c : Nat) : Dio :=
  let any := (List.range 16).any (fun i => (d.getCh (16 * c + i)).active.contains .cellOverload)
  d.modCell c (fun x => { x with overload := x.overload && any })

/-- The stage after a retry (08 R242): the tenth consecutive failure leaves it open. -/
def DioCh.retried (failed : Bool) (c : DioCh) : DioCh :=
  if failed then
    { c with ovlOpen := true, retry := c.retry + 1, exhausted := decide (10 ≤ c.retry + 1), offSeen := false }
  else (DioCh.clear .overload (DioCh.clear .cellOverload { c with ovlOpen := false, retry := 0 }))

/-- OVERLOAD_RETRY (08 R239, R242): while its command is ON an opened stage closes, or has closed at an ON after its retries were
exhausted; `failed` says whether the overload came back within 10 ms. Suspended below UV2 (R250). -/
def execOverloadRetry (ch : Fin 96) (failed : Bool) (s : State) : Host.Outcome State Fault Refusal :=
  let c := s.dio.getCh ch
  let stands := c.active.contains .overload || c.active.contains .cellOverload
  if (c.ovlOpen || (stands && c.drives)) && !c.exhausted && c.force && c.engaged && (s.dio.cellOf ch).supply.good then
    .next { s with dio := (s.dio.modCh ch (DioCh.retried failed)).settleOverload (ch / 16) }
  else .next s

/-- OVERTEMP (08 R239): above 150 °C the main switch opens; below 135 °C the stage takes its command. -/
def execOvertemp (ch : Fin 96) (above : Bool) (s : State) : Host.Outcome State Fault Refusal :=
  if (s.dio.getCh ch).isOutput then
    let f := fun (c : DioCh) => if above then { c.endPulse with tempOpen := true } else { c with tempOpen := false }
    .next ({ s with dio := s.dio.modCh ch f }.dioDiag ch .overtemp above)
  else .next s

/-- OPEN_WIRE (08 R239): while ON, or while OFF with OPEN_OFF_EN; reported only, not evaluated below UV2.
(DEDUCED, log 49) -/
def execOpenWire (ch : Fin 96) (present : Bool) (s : State) : Host.Outcome State Fault Refusal :=
  let c := s.dio.getCh ch
  if c.isOutput && (s.dio.cellOf ch).supply.good && (c.drives || c.openOffEn) then
    .next (s.dioDiag ch .openWire present)
  else .next s

/-- Is a channel recorded as the cross partner of this one ON (08 R244)? -/
def Dio.crossOn (d : Dio) (n : Nat) : Bool :=
  let p := (d.getCh n).partner
  p != 0xFF && (d.getCh p).drives

/-- SHORT_SUPPLY (08 R244): raised on an OFF channel that no own, partner's or cross partner's stage feeds. -/
def execShortSupply (ch : Fin 96) (present ownOut partnerOut : Bool) (s : State) : Host.Outcome State Fault Refusal :=
  let c := s.dio.getCh ch
  if !c.isOutput || c.drives || !(s.dio.cellOf ch).supply.live then .next s
  else if !present then .next (s.dioClear ch .shortSupply)
  else if ownOut || partnerOut || s.dio.crossOn ch then .next s
  else .next (s.dioRaise ch .shortSupply)

/-- A stage becomes ISOLATED: its disconnect switch works from now on and it takes no pulse (08 R243). -/
def State.dioIsolate (s : State) (n : Nat) : State :=
  { s with dio := s.dio.modCh n (fun c => { c.endPulse with isolated := true }) }.dioRaise n .stuckOn

/-- STUCK_ON (08 R243): outward current while OFF or throughout a dark pulse. -/
def execStuckOn (ch : Fin 96) (s : State) : Host.Outcome State Fault Refusal :=
  let c := s.dio.getCh ch
  if c.isOutput && c.engaged && !c.drives && (s.dio.cellOf ch).supply.live then .next (s.dioIsolate ch) else .next s

/-- CROSS on two channels, each naming the other (08 R245). -/
def State.dioCross (s : State) (i j : Nat) : State :=
  let d := (s.dio.modCh i (fun c => { c with partner := j })).modCh j (fun c => { c with partner := i })
  (({ s with dio := d } : State).dioRaise i .cross).dioRaise j .cross

/-- CROSS (08 R245): evidence that two outputs are wired together: channel `i` is OFF while `j` is ON, or `j` is in its dark
pulse. -/
def execCross (i j : Fin 96) (s : State) : Host.Outcome State Fault Refusal :=
  let a := s.dio.getCh i
  let b := s.dio.getCh j
  if i ≠ j && ((!a.drives && b.drives) || b.pulse == some .dark) && a.isOutput && b.isOutput && (s.dio.cellOf i).supply.live
      && (s.dio.cellOf j).supply.live then .next (s.dioCross i j) else .next s

/-- SHARE_LOW (08 R239): both stages engaged, this stage ON. (DEDUCED, log 49) -/
def execShareLow (ch : Fin 96) (present : Bool) (s : State) : Host.Outcome State Fault Refusal :=
  let c := s.dio.getCh ch
  if !present then .next (s.dioClear ch .shareLow)
  else if c.drives && s.partnerEngaged && (s.dio.cellOf ch).supply.live then .next (s.dioRaise ch .shareLow)
  else .next s

/-- Is this the start instant of the channel's test pulse (08 R246, R249)? -/
def State.pulseDue (s : State) (n : Nat) : Bool :=
  let c := s.dio.getCh n
  let sec := s.time.sec.toNat
  s.time.ns.toNat == 2000000 + n * 1250000 &&
    (c.again == some sec || (c.testInterval != 0 && sec % c.testInterval == n % c.testInterval))

/-- The pulse that the stage takes now, if any (08 R246, R247). -/
def Dio.pulseKind (d : Dio) (n : Nat) : Option PulseKind :=
  let c := d.getCh n
  if !c.engaged || !c.isOutput || c.isolated || c.ovlOpen || c.tempOpen || !(d.cellOf n).supply.good || c.pulse.isSome
      || c.active.contains .overload || c.active.contains .cellOverload || c.active.contains .overtemp then none
  else if c.drives then (if c.darkEn then some .dark else none)
  else if c.brightEn then some .bright else none

/-- TEST_PULSE_START (08 R246, R247, R255): `demand` says that a demand falls on the same fine tick. -/
def execTestPulseStart (ch : Fin 96) (demand : Bool) (s : State) : Host.Outcome State Fault Refusal :=
  if !s.pulseDue ch then .next s
  else match s.dio.pulseKind ch with
    | none => .next s
    | some k =>
      if demand then
        let d := s.dio.modCh ch (fun c => { c with again := some (s.time.sec.toNat + 1) })
        .next { s with dio := d.modCell (ch / 16) (fun x => { x with preempted := Bits.sat 16 x.preempted 1 }) }
      else .next { s with dio := s.dio.modCh ch (fun c => { c with pulse := some k, pulseTick := s.tickNo, again := none }) }

/-- The verdict of a dark pulse (08 R243-R245, R248). -/
def State.darkEnd (s : State) (n : Nat) (m : PulseMeas) : State :=
  if m.outward then s.dioIsolate n
  else match m.cross with
    | some j => s.dioCross n j
    | none =>
      let s := if m.lowSince then
          { s with dio := s.dio.modCh n (fun c => { DioCh.clear .cross c with partner := 0xFF }) } else s
      if m.fell then s.dioClear n .shortSupply
      else if 15000 < m.endMv && !m.partnerOut && !s.dio.crossOn n then s.dioRaise n .shortSupply
      else s

/-- Does a bright pulse pass (08 R248)? -/
def brightOk (m : PulseMeas) (solo : Bool) : Bool :=
  if 2000 < m.termUa then (if solo then m.ownUa == m.termUa else decide (m.termUa ≤ 10 * m.ownUa)) else m.rise50

/-- The verdict of a bright pulse (08 R248). -/
def State.brightEnd (s : State) (n : Nat) (m : PulseMeas) : State :=
  if brightOk m s.solo then s.dioClear n .pulseFail
  else
    let s := { s with dio := s.dio.modCell (n / 16) (fun x => { x with failed := Bits.sat 16 x.failed 1 }) }
    s.dioRaise n .pulseFail

/-- TEST_PULSE_END (08 R246, R248): the pulse has lasted its width. -/
def execTestPulseEnd (ch : Fin 96) (meas : PulseMeas) (s : State) : Host.Outcome State Fault Refusal :=
  let c := s.dio.getCh ch
  let s1 := { s with dio := s.dio.modCh ch DioCh.endPulse }
  match c.pulse with
  | none => .next s
  | some k =>
    if s.tickNo < c.pulseTick + c.pulseTicks k then .next s
    else match k with
      | .dark => .next (s1.darkEnd ch meas)
      | .bright => .next (s1.brightEnd ch meas)

/-- CELL_UV1 (08 R250). -/
def execCellUv1 (c : Fin 6) (s : State) : Host.Outcome State Fault Refusal :=
  if (s.dio.getCell c).supply = .normal then
    .next ({ s with dio := s.dio.modCell c (fun x => { x with supply := .warn }) }.setEvent .dio 11)
  else .next s

/-- CELL_WARN_CLEAR (08 R250). -/
def execCellWarnClear (c : Fin 6) (s : State) : Host.Outcome State Fault Refusal :=
  if (s.dio.getCell c).supply = .warn then
    .next { s with dio := s.dio.modCell c (fun x => { x with supply := .normal }) }
  else .next s

/-- CELL_SAG (08 R250): pulses end with nothing counted, UNDERVOLTAGE on every channel. -/
def execCellSag (c : Fin 6) (s : State) : Host.Outcome State Fault Refusal :=
  if (s.dio.getCell c).supply.good then
    let d := (s.dio.modCellCh c (fun x => DioCh.raise .undervoltage x.endPulse)).modCell c (fun x => { x with supply := .sag })
    .next ({ s with dio := d }.report .dio 12 c (d.cellStatus c))
  else .next s

/-- A deferred ON waits for the first T0 strictly after the exit from SAG (08 R250). -/
def DioCh.leaveSag (tick : Nat) (c : DioCh) : DioCh :=
  let c := DioCh.clear .undervoltage c
  if c.deferred && c.restore = .none then { c with restore := .resume, exitTick := tick } else c

/-- CELL_SAG_EXIT (08 R250). -/
def execCellSagExit (c : Fin 6) (s : State) : Host.Outcome State Fault Refusal :=
  if (s.dio.getCell c).supply = .sag then
    let d := (s.dio.modCellCh c (DioCh.leaveSag s.tickNo)).modCell c (fun x => { x with supply := .warn })
    .next { s with dio := d }
  else .next s

/-- A stage whose cell is lost is open (08 R250). (DEDUCED, log 49) -/
def DioCh.loseSupply (c : DioCh) : DioCh :=
  DioCh.raise .supplyLost (DioCh.clear .undervoltage { c.endPulse with force := false, deferred := false, restore := .none })

/-- CELL_SUPPLY_LOST (08 R250). -/
def execCellSupplyLost (c : Fin 6) (s : State) : Host.Outcome State Fault Refusal :=
  if (s.dio.getCell c).supply.live then
    let d := (s.dio.modCellCh c DioCh.loseSupply).modCell c (fun x => { x with supply := .lost, supplyLost := true })
    .next ({ s with dio := d }.report .dio 13 c (d.cellStatus c))
  else .next s

/-- CELL_SUPPLY_RETURN (08 R250): the cell's L+ crosses 18.0 V. -/
def execCellSupplyReturn (c : Fin 6) (mv : Nat) (s : State) : Host.Outcome State Fault Refusal :=
  let x := s.dio.getCell c
  if x.supply = .lost && 18000 ≤ mv then .next { s with dio := s.dio.modCell c (fun x => { x with supply := .recovering, recovTick := s.tickNo }) }
  else if x.supply = .recovering && mv < 18000 then .next { s with dio := s.dio.modCell c (fun x => { x with supply := .lost }) }
  else .next s

/-- A channel follows its restore policy when its cell leaves RECOVERING (08 R252). -/
def DioCh.recover (tick : Nat) (c : DioCh) : DioCh :=
  let c := DioCh.clear .supplyLost c
  if !c.isOutput then c
  else if c.staysOff then { c with restore := .stayOff, exitTick := tick, deferred := true }
  else { c with restore := .resume, exitTick := tick, deferred := c.cmd }

/-- CELL_RECOVERED (08 R250, R252): 10 ms in RECOVERING. (DESIGN CHOICE, log 1) -/
def execCellRecovered (c : Fin 6) (mv : Nat) (s : State) : Host.Outcome State Fault Refusal :=
  if (s.dio.getCell c).supply = .recovering && 18000 ≤ mv && decide ((s.dio.getCell c).recovTick + 1000 ≤ s.tickNo) then
    let low := decide (mv < 19200)
    let d := (s.dio.modCellCh c (DioCh.recover s.tickNo)).modCell c
      (fun x => { x with supply := if low then .warn else .normal })
    .next (({ s with dio := d }.setEvent .dio 14).setEventIf low .dio 11)
  else .next s

end Sys2Proof.Machine
end

