-- ==== Sys2Proof/Machine/Aio.lean ====
section
/-! DEFINITION. Machine/Aio.lean: the loop cells and the analogue channels: crossing, loop supply, inputs, shared source,
recalibration, grid-sense saturation (09 R257-R289). -/
namespace Sys2Proof.Machine

/-- Change one channel. -/
def Aio.modCh (d : Aio) (n : Nat) (f : AioCh → AioCh) : Aio := d.setCh n (f (d.getCh n))

/-- Change one loop cell. -/
def Aio.modCell (d : Aio) (c : Nat) (f : LoopCell → LoopCell) : Aio := d.setCell c (f (d.getCell c))

/-- Change every channel of a loop cell. -/
def Aio.modCellCh (d : Aio) (c : Nat) (f : AioCh → AioCh) : Aio :=
  { d with ch := Tbl.mapRange {} (fun _ x => f x) d.ch (16 * c) 16 }

/-- Change every channel. -/
def Aio.modAll (d : Aio) (f : Nat → AioCh → AioCh) : Aio := { d with ch := Tbl.mapRange {} f d.ch 0 32 }

def AioCh.raise (x : AioDiag) (c : AioCh) : AioCh :=
  if c.active.contains x then c else { c with active := x :: c.active, lastDiag := some x }

def AioCh.clear (x : AioDiag) (c : AioCh) : AioCh := { c with active := c.active.filter (fun y => y != x) }

/-- Detect a diagnostic: raised and reported once, on detection (09 R274). -/
def State.aioRaise (s : State) (n : Nat) (x : AioDiag) : State :=
  if (s.aio.getCh n).active.contains x then s
  else
    let d := s.aio.modCh n (AioCh.raise x)
    { s with aio := d }.report .aio x.bit n (d.status n)

def State.aioClear (s : State) (n : Nat) (x : AioDiag) : State := { s with aio := s.aio.modCh n (AioCh.clear x) }

def State.aioDiag (s : State) (n : Nat) (x : AioDiag) (present : Bool) : State :=
  if present then s.aioRaise n x else s.aioClear n x

/-- The highest current a source is asked for: 24.5 mA (09 R266). -/
def clampSource (i : Int) : Int := max 0 (min i 24500000)

/-- The target of a source by its share mode (09 R267). -/
def AioCh.shareTarget (c : AioCh) : Int :=
  match c.share with
  | .released => 0
  | .half => (c.cmd : Int) / 2 + c.trim
  | .full => c.cmd
  | .makeup => if c.inCompl then c.target else clampSource (c.cmd - c.iP)

/-- Take a share mode: TRIM returns to 0 at each change (09 R267). -/
def AioCh.toShare (m : Share) (c : AioCh) : AioCh :=
  let c := if c.share = m then c else { c with share := m, trim := 0 }
  { c with target := c.shareTarget }

/-- A source opens at once, with no ramp (09 R269 Fault release). -/
def AioCh.open (c : AioCh) : AioCh :=
  { c with share := .released, ramp := .none, trim := 0, target := 0, own := 0, rampAtT0 := false }

/-- A source engages: HALF or FULL by PARTNER_ENGAGED, ramping from 0 mA over 1 ms (09 R267, R269). -/
def AioCh.engageUp (partner : Bool) (c : AioCh) : AioCh :=
  if c.srcFault then c
  else { AioCh.toShare (if partner then .half else .full) { c with trim := 0, pe := partner } with ramp := .up }

/-- Can a source of the channel's cell carry current: its loop supply stands and the cell takes frames and has no fault? -/
def Aio.live (d : Aio) (n : Nat) : Bool := (d.cellOf n).supply != .lost && !(d.cellOf n).fault && !(d.cellOf n).safe

/-- Engage one channel: an OUTPUT ramps up where its cell is `live`, a loop-power feed closes (09 R260, R269). -/
def AioCh.engage (live partner : Bool) (c : AioCh) : AioCh :=
  if c.engaged then c
  else if c.isOutput then (if live then AioCh.engageUp partner { c with engaged := true } else { c with engaged := true })
  else if c.isLoop then { c with engaged := true }
  else c

/-- An orderly release: a source ramps to 0 mA over 1 ms and then opens (09 R269). -/
def AioCh.release (c : AioCh) : AioCh :=
  if c.isOutput && c.engaged && c.share ≠ .released then { c with engaged := false, ramp := .release, target := 0 }
  else { AioCh.open c with engaged := false }

/-- A release at a module failure: open at once (09 R269). -/
def AioCh.faultRelease (c : AioCh) : AioCh := { AioCh.open c with engaged := false }

/-- Engage or release every channel of the module in an orderly way (09 R260, R269). -/
def Aio.engageAll (d : Aio) (partner b : Bool) : Aio :=
  d.modAll (fun n => if b then AioCh.engage (d.live n) partner else AioCh.release)

/-- Open every source of the module at once (09 R269, 01 R21). -/
def Aio.faultReleaseAll (d : Aio) : Aio := d.modAll (fun _ => AioCh.faultRelease)

/-- A command is applied at T0 (09 R266, R276, R261): above 24 mA it is applied as 24 mA. -/
def AioCh.take (partner : Bool) (cmd : Nat) (c : AioCh) : AioCh :=
  let c := { c with cmd := min cmd 24000000 }
  if c.rampAtT0 && c.engaged && c.isOutput then AioCh.engageUp partner { c with rampAtT0 := false }
  else if c.ramp = .release then c
  else { c with target := c.shareTarget }

/-- Apply a committed command to a channel whose cell takes commands. -/
def Aio.apply (d : Aio) (partner : Bool) (n cmd : Nat) : Aio :=
  if (d.cellOf n).safe then d.modCh n (fun c => { c with cmd := min cmd 24000000 })
  else d.modCh n (AioCh.take partner cmd)

/-- A waiting configuration takes effect at the owning task's T0 (09 R288): a source leaving OUTPUT makes an orderly
release, a new OUTPUT engages with a ramp from 0 mA. -/
def AioCh.takeCfg (engaged live partner : Bool) (c : AioCh) : AioCh :=
  match c.nextCfg with
  | none => c
  | some w =>
    let was := c.isOutput
    let c1 := { c with nextCfg := none }
    if was && Bits.get w 29 3 ≠ 3 then { AioCh.release c1 with cfg := w }
    else if !was && engaged then AioCh.engage live partner { c1 with cfg := w, engaged := false }
    else { c1 with cfg := w }

def State.aioBadFrame (s : State) (c : Nat) : State :=
  { s with aio := s.aio.modCell c (fun x => { x with crcCnt := Bits.inc x.crcCnt }) }.setEvent .aio 15

/-- The first valid frame after a watchdog expiry gives an engaged source its command again (09 R258, 08 R227). -/
def AioCh.leaveSafe (x : LoopCell) (partner : Bool) (c : AioCh) : AioCh :=
  let c := if x.fault then c else AioCh.clear .crossing c
  if !c.isOutput || !c.engaged || c.srcFault || x.fault || x.supply = .lost then c
  else if c.share = .released then AioCh.engageUp partner c
  else AioCh.toShare (if partner then .half else .full) { c with pe := partner }

/-- A valid frame reaches a loop cell (09 R258). -/
def State.aioDown (s : State) (c seq : Nat) : State :=
  let x := s.aio.getCell c
  let d := if x.safe then s.aio.modCellCh c (AioCh.leaveSafe x s.partnerEngaged) else s.aio
  let f := fun (y : LoopCell) => { y with seqDown := seq, safe := false, engage := s.sharedEngaged,
                                          partnerEng := s.partnerEngaged }
  { s with aio := d.modCell c f }

/-- A valid frame reaches the module from a loop cell. -/
def State.aioUp (s : State) (c seq : Nat) (f : UpFrame) : State :=
  let g := fun (y : LoopCell) => { y with seqUp := seq, laplus := f.supplyMv % 65536, current := f.currentMa % 65536 }
  { s with aio := s.aio.modCell c g }

/-- A frame at a loop cell's crossing (09 R258, 08 R226; log 7). -/
def State.aioFrame (s : State) (c : Nat) (crcOk : Bool) (seq : Nat) (f : CrossFrame) : State :=
  let x := s.aio.getCell c
  match f with
  | .down => if crcOk && x.seqDown < seq then s.aioDown c seq else s.aioBadFrame c
  | .up u => if crcOk && x.seqUp < seq then s.aioUp c seq u else s.aioBadFrame c

/-- CELL_FRAME (08 R226, 09 R258). -/
def execCellFrame (cell : CellId) (crcOk : Bool) (seq : Nat) (f : CrossFrame) (s : State) : Host.Outcome State Fault Refusal :=
  match cell with
  | .field c => .next (s.dioFrame c crcOk seq f)
  | .loop c => .next (s.aioFrame c crcOk seq f)

/-- The calibration window in progress on a channel of a loop cell is abandoned and counts as deferred (09 R288). -/
def State.calDefer (s : State) (c : Nat) : State :=
  let d := s.aio.modCell c (fun x => { x with deferred := Bits.sat 8 x.deferred 1 })
  { s with aio := d }.setEvent .aio 10

/-- End the window in progress without a verdict (09 R280). -/
def State.calAbandon (s : State) : State :=
  let n := s.aio.calCh
  let d := { s.aio.modCh n (fun c => { c with cal := false }) with window := false }
  ({ s with aio := d } : State).calDefer (n / 16)

/-- The safe state of a source (09 R258): none for one that is released or in an orderly release. -/
def AioCh.goSafe (x : LoopCell) (c : AioCh) : AioCh :=
  let c := AioCh.raise .crossing c
  if !c.isOutput then c
  else if !(x.engage && c.engaged) || x.partnerEng || c.srcFault || x.supply = .lost then AioCh.open c
  else match c.safeCode with
    | 1 => { c with ramp := .none }
    | 2 => { c with ramp := .none, target := 3500000 }
    | 3 => { c with ramp := .none, target := 21500000 }
    | _ => AioCh.open c

/-- LOOP_CROSSING_WATCHDOG (09 R258). -/
def execLoopCrossingWatchdog (c : Fin 2) (s : State) : Host.Outcome State Fault Refusal :=
  let x := s.aio.getCell c
  if x.safe then .next s
  else
    let d := (s.aio.modCellCh c (AioCh.goSafe x)).modCell c (fun y => { y with safe := true })
    .next ({ s with aio := d }.report .aio 14 c (d.cellStatus c))

/-- LOOP_CELL_FAULT (09 R259): every source of the cell opens at once. -/
def execLoopCellFault (c : Fin 2) (s : State) : Host.Outcome State Fault Refusal :=
  let d := (s.aio.modCellCh c (fun x => AioCh.raise .crossing (AioCh.open x))).modCell c (fun y => { y with fault := true })
  .next ({ s with aio := d }.report .aio 14 c (d.cellStatus c))

/-- LOOP_SUPPLY_LOW (09 R261). -/
def execLoopSupplyLow (c : Fin 2) (s : State) : Host.Outcome State Fault Refusal :=
  if (s.aio.getCell c).supply = .normal then
    .next ({ s with aio := s.aio.modCell c (fun x => { x with supply := .low }) }.setEvent .aio 11)
  else .next s

/-- LOOP_SUPPLY_NORMAL (09 R261). -/
def execLoopSupplyNormal (c : Fin 2) (s : State) : Host.Outcome State Fault Refusal :=
  if (s.aio.getCell c).supply = .low then
    .next { s with aio := s.aio.modCell c (fun x => { x with supply := .normal }) }
  else .next s

/-- A channel of a cell that enters LOST: sources and feeds open (09 R261). -/
def AioCh.loseSupply (c : AioCh) : AioCh :=
  if c.isOutput then AioCh.raise .loopSupply (AioCh.open c)
  else if c.isLoop then AioCh.raise .loopSupply { c with feedOpen := true }
  else c

/-- LOOP_SUPPLY_LOST (09 R261, R288): a window in the cell is abandoned. -/
def execLoopSupplyLost (c : Fin 2) (s : State) : Host.Outcome State Fault Refusal :=
  if (s.aio.getCell c).supply ≠ .lost then
    let s := if s.aio.window && s.aio.calCh / 16 == c then s.calAbandon else s
    let d := (s.aio.modCellCh c AioCh.loseSupply).modCell c (fun x => { x with supply := .lost })
    .next ({ s with aio := d }.report .aio 12 c (d.cellStatus c))
  else .next s

/-- A channel of a cell that leaves LOST: sources ramp at the next T0, feeds close at once (09 R261). -/
def AioCh.supplyBack (fault : Bool) (c : AioCh) : AioCh :=
  let c := AioCh.clear .loopSupply c
  if c.isOutput then { c with rampAtT0 := c.engaged && !fault }
  else if c.isLoop then { c with feedOpen := c.active.contains .overCurrent }
  else c

/-- LOOP_SUPPLY_BACK (09 R261): LA+ has stood at or above 18.0 V for 10 ms, at `mv` now. -/
def execLoopSupplyBack (c : Fin 2) (mv : Nat) (s : State) : Host.Outcome State Fault Refusal :=
  if (s.aio.getCell c).supply = .lost && 18000 ≤ mv then
    let d := (s.aio.modCellCh c (AioCh.supplyBack (s.aio.getCell c).fault)).modCell c
      (fun x => { x with supply := if 22000 ≤ mv then .normal else .low })
    .next ({ s with aio := d }.setEvent .aio 13)
  else .next s

/-- A conversion result of a channel; none is taken in the channel's calibration window (09 R263, R279). -/
def AioCh.result (na : Int) (c : AioCh) : AioCh :=
  if c.cal then c
  else { c with raw := na, fresh := true, since := if c.average then c.since ++ [na] else [] }

/-- While its quality is GOOD the newest value is the one a BAD quality will hold (02 R44). -/
def Aio.keepGood (d : Aio) (n : Nat) : Aio :=
  if d.quality n = 0 then d.modCh n (fun c => { c with lastGood := c.raw }) else d

/-- The band of a value (09 R264 *Input bands*). -/
def aioBandOf (ne43 : Bool) (na : Int) : AioBand :=
  if ne43 then
    if na ≤ 3600000 then .failLow else if na < 3800000 then .under else if na ≤ 20500000 then .measuring
    else if na < 21000000 then .above else .failHigh
  else if na < -100000 then .under else if na ≤ 24000000 then .measuring else .above

/-- The diagnostic of a band. -/
def AioBand.diag : AioBand → Option AioDiag
  | .failLow => some .failLow | .under => some .underRange | .measuring => none | .above => some .overRange
  | .failHigh => some .failHigh | .overCurrent => some .overCurrent

/-- Leave the diagnostics of every other band. -/
def AioCh.dropBands (c : AioCh) : AioCh :=
  { c with active := c.active.filter (fun y =>
      ! [AioDiag.failLow, .underRange, .overRange, .failHigh, .overCurrent].contains y) }

/-- The band state changes (09 R264, R265). While OVER_CURRENT has opened a loop-power feed it stands until the feed is kept
closed. -/
def State.bandTo (s : State) (n : Nat) (b : AioBand) : State :=
  let c := s.aio.getCh n
  if !c.isInput || b = c.band || (c.isLoop && c.feedOpen && c.band == .overCurrent) then s
  else
    let s := { s with aio := s.aio.modCh n (fun c =>
      { AioCh.dropBands c with band := b, feedOpen := c.feedOpen || (b == .overCurrent && c.isLoop) }) }
    match b.diag with
    | some x => s.aioRaise n x
    | none => s

/-- AIO_CONVERSION_DONE (09 R263, R264): the results of one integration window; with a BAND_FILTER of 0 the band state changes at
once. (DEDUCED, log 50) -/
def execAioConversionDone (results : List (Fin 32 × Int)) (s : State) : Host.Outcome State Fault Refusal :=
  .next (results.foldl (fun (s : State) e =>
    let c := s.aio.getCh e.1
    let s1 : State := { s with aio := s.aio.modCh e.1 (AioCh.result e.2) }
    let s2 := if !c.cal && Bits.get c.cfg 16 8 == 0 && c.band != .overCurrent then s1.bandTo e.1 (aioBandOf c.ne43 e.2) else s1
    { s2 with aio := s2.aio.keepGood e.1 }) s)

/-- AIO_BAND_CHANGE (09 R264, R265): the value has stayed in another band for BAND_FILTER, or above 25.0 mA for 10 ms. -/
def execAioBandChange (ch : Fin 32) (na : Int) (above : Bool) (s : State) : Host.Outcome State Fault Refusal :=
  .next (s.bandTo ch (if above && decide (25000000 < na) then .overCurrent else aioBandOf (s.aio.getCh ch).ne43 na))

/-- LOOP_FEED_RECLOSE (09 R265): the feed closes again; `kept` says that the current stayed at or below 25.0 mA for
10 ms. -/
def execLoopFeedReclose (ch : Fin 32) (kept : Bool) (s : State) : Host.Outcome State Fault Refusal :=
  let c := s.aio.getCh ch
  if c.isLoop && c.feedOpen && c.active.contains .overCurrent && kept then
    .next { s with aio := s.aio.modCh ch (fun c => { AioCh.clear .overCurrent c with feedOpen := false, band := .measuring }) }
  else .next s

/-- TRIM_UPDATE (09 R267): half the mean of C − I_T over the millisecond, within ±50 µA; held in compliance.
(DEDUCED, log 50) -/
def execTrimUpdate (ch : Fin 32) (meanErr : Int) (sawCompliance : Bool) (s : State) : Host.Outcome State Fault Refusal :=
  let c := s.aio.getCh ch
  if c.share = .half && !c.inCompl && !sawCompliance && !c.cal && !(s.aio.cellOf ch).safe then
    let t := max (-50000) (min 50000 (c.trim + meanErr / 2))
    .next { s with aio := s.aio.modCh ch (fun c => { c with trim := t, target := (c.cmd : Int) / 2 + t }) }
  else .next s

/-- The expected partner share E (09 R267). -/
def AioCh.expected (c : AioCh) : Int := if c.share = .half then (c.cmd : Int) / 2 else 0

/-- One readback sample that speaks for MAKEUP (09 R268): the partner away from its share, this source on its target. -/
def AioCh.deviates (c : AioCh) (iT iOwn : Int) : Bool :=
  decide (120000 < (iT - iOwn - c.expected).natAbs) && decide ((iOwn - c.target).natAbs ≤ 120000)

/-- Is the loop in compliance: I_T more than 0.12 mA below C with a source at its limit (09 R272)? -/
def AioCh.complies (c : AioCh) (iT : Int) (atLimit : Bool) : Bool := atLimit && decide (iT + 120000 < c.cmd)

/-- A source in MAKEUP takes the partner's present current (09 R267); in compliance its target stands (R272). -/
def AioCh.makeUp (iP : Int) (c : AioCh) : AioCh := AioCh.toShare .makeup { c with iP := iP }

/-- MAKEUP_ENTER (09 R267, R268): three consecutive samples (I_T, I_own), or a change of PARTNER_ENGAGED; a source that is in MAKEUP
already follows them. -/
def execMakeupEnter (ch : Fin 32) (samples : List (Int × Int)) (recentChange atLimit : Bool) (s : State) :
    Host.Outcome State Fault Refusal :=
  let c := s.aio.getCh ch
  let iP := match samples.getLast? with | some e => e.1 - e.2 | none => c.iP
  let compl := c.inCompl || samples.any (fun e => c.complies e.1 atLimit)
  let dev := samples.length == 3 && samples.all (fun e => c.deviates e.1 e.2) && !recentChange && c.ramp = .none
  if !c.engaged || c.share = .released || compl || c.cal || (s.aio.cellOf ch).safe then .next s
  else if c.share = .makeup then .next { s with aio := s.aio.modCh ch (AioCh.makeUp iP) }
  else if (c.pe != s.partnerEngaged) || dev then
    .next ({ s with aio := s.aio.modCh ch (fun c => AioCh.makeUp iP { c with pe := s.partnerEngaged }) }.setEvent .aio 7)
  else .next s

/-- MAKEUP_EXIT (09 R268): after 1 ms of the exit condition; without it the source stays in MAKEUP. -/
def execMakeupExit (ch : Fin 32) (iP : Int) (s : State) : Host.Outcome State Fault Refusal :=
  let c := s.aio.getCh ch
  if c.share ≠ .makeup || c.cal || (s.aio.cellOf ch).safe then .next s
  else if !s.partnerEngaged && iP < 120000 then
    .next { s with aio := s.aio.modCh ch (fun c => AioCh.toShare .full { c with iP := iP }) }
  else if s.partnerEngaged && (iP - (c.cmd : Int) / 2).natAbs ≤ 120000 then
    .next { s with aio := s.aio.modCh ch (fun c => AioCh.toShare .half { c with iP := iP }) }
  else .next { s with aio := s.aio.modCh ch (AioCh.makeUp iP) }

/-- SOURCE_RAMP_END (09 R269): an engaging source stands at its share; a released one opens its switches. -/
def execSourceRampEnd (ch : Fin 32) (s : State) : Host.Outcome State Fault Refusal :=
  match (s.aio.getCh ch).ramp with
  | .none => .next s
  | .up => .next { s with aio := s.aio.modCh ch (fun c => { c with ramp := .none, target := c.shareTarget }) }
  | .release => .next { s with aio := s.aio.modCh ch AioCh.open }

/-- SOURCE_FAULT (09 R270): away from its target for 1.5 ms outside compliance; open until the module restarts. -/
def execSourceFault (ch : Fin 32) (iOwn : Int) (s : State) : Host.Outcome State Fault Refusal :=
  let c := s.aio.getCh ch
  if c.isOutput && c.share ≠ .released && !c.inCompl && 120000 < (iOwn - c.target).natAbs then
    .next ({ s with aio := s.aio.modCh ch (fun c => { AioCh.open c with srcFault := true }) }.aioRaise ch .sourceFault)
  else .next s

/-- COMPLIANCE (09 R272): the loop has been in compliance for 1 ms, or out of it for 10 ms. -/
def execCompliance (ch : Fin 32) (present : Bool) (s : State) : Host.Outcome State Fault Refusal :=
  let c := s.aio.getCh ch
  if present && !(c.isOutput && c.share ≠ .released) then .next s
  else
    let s := { s with aio := s.aio.modCh ch (fun c => { c with inCompl := present }) }
    if present && c.active.contains .openLoop then .next s else .next (s.aioDiag ch .compliance present)

/-- OPEN_LOOP (09 R273): raised in place of COMPLIANCE while the command is 1 mA or more. -/
def execOpenLoop (ch : Fin 32) (present : Bool) (s : State) : Host.Outcome State Fault Refusal :=
  let c := s.aio.getCh ch
  if !present then
    let s := s.aioClear ch .openLoop
    .next (if c.inCompl && c.active.contains .openLoop then s.aioRaise ch .compliance else s)
  else if c.isOutput && c.share ≠ .released && 1000000 ≤ c.cmd then
    .next ((s.aioClear ch .compliance).aioRaise ch .openLoop)
  else .next s

/-- READBACK_DIFF (09 R274): the two converters differ by more than 48 µA for 100 ms. -/
def execReadbackDiff (ch : Fin 32) (present : Bool) (s : State) : Host.Outcome State Fault Refusal :=
  if (s.aio.getCh ch).mode = 0 then .next s else .next (s.aioDiag ch .readbackDiff present)

/-- Is the channel in the rotation of recalibration (09 R277)? -/
def Aio.calibrates (d : Aio) (n : Nat) : Bool := (d.getCh n).mode != 0 && (d.getCh n).calEn

/-- The first channel of the rotation from `n` on, with whether the order wrapped (09 R277). -/
def Aio.nextCal (d : Aio) (n : Nat) : Option (Nat × Bool) :=
  ((List.range 32).map (fun i => ((n + i) % 32, decide (32 ≤ n + i)))).find? (fun e => d.calibrates e.1)

/-- Is this an allowed instant of a window of this module (09 R277)? -/
def State.calInstant (s : State) : Bool :=
  (s.nowNs + (if s.unitNo = 0xB#4 then 100000000 else 0)) % 200000000 == 0 &&
    match s.aio.lastStart with
    | none => true
    | some t => t + Bits.get s.aio.calCfg 0 12 * 1000000000 ≤ s.nowNs

/-- Is a window of the channel put off (09 R278)? -/
def State.calBlocked (s : State) (n : Nat) (partnerRamping partnerSource : Bool) : Bool :=
  let c := s.aio.getCh n
  (s.aio.cellOf n).supply ≠ .normal || c.share = .makeup || c.inCompl || c.active.contains .openLoop
    || c.ramp ≠ .none || partnerRamping || (c.isOutput && !partnerSource && !s.solo)

/-- CAL_WINDOW_START (09 R277, R278): the next channel's window starts, or is deferred. -/
def execCalWindowStart (partnerRamping partnerSource : Bool) (s : State) : Host.Outcome State Fault Refusal :=
  if !Bits.bit s.aio.calCfg 31 || s.aio.window || !s.calInstant then .next s
  else match s.aio.nextCal s.aio.calCh with
    | none => .next s
    | some (n, wrap) =>
      let d := { s.aio with calCh := n, rotations := if wrap then Bits.sat 16 s.aio.rotations 1 else s.aio.rotations }
      if s.calBlocked n partnerRamping partnerSource then .next (({ s with aio := d } : State).calDefer (n / 16))
      else .next { s with aio :=
        { d.modCh n (fun c => { c with cal := true }) with window := true, lastStart := some s.nowNs } }

/-- Do the new coefficients pass (09 R281)? Offset in nA, gain deviation in parts per million. -/
def AioCh.calPasses (c : AioCh) (offset gain : Int) : Bool :=
  decide (offset.natAbs ≤ 20000) && decide (gain.natAbs ≤ 2000) && decide ((offset - c.offset).natAbs ≤ 5000)
    && decide ((gain - c.gain).natAbs ≤ 500)

/-- The rotation moves past a channel. -/
def Aio.calAdvance (d : Aio) : Aio :=
  if d.calCh = 31 then { d with calCh := 0, rotations := Bits.sat 16 d.rotations 1 } else { d with calCh := d.calCh + 1 }

/-- CAL_WINDOW_END (09 R281). (DEDUCED, log 50) -/
def execCalWindowEnd (offsetNa gainPpm : Int) (s : State) : Host.Outcome State Fault Refusal :=
  if !s.aio.window then .next s
  else
    let n := s.aio.calCh
    let c := s.aio.getCh n
    if c.calPasses offsetNa gainPpm then
      let f := fun (c : AioCh) => { AioCh.clear .calFail c with cal := false, offset := offsetNa, gain := gainPpm, calFails := 0 }
      let d := (s.aio.modCh n f).modCell (n / 16) (fun x => { x with done := Bits.sat 16 x.done 1 })
      .next { s with aio := { d with window := false }.calAdvance }
    else
      let f := fun (c : AioCh) => { c with cal := false, calFails := (c.calFails + 1) % 3 }
      let d := (s.aio.modCh n f).modCell (n / 16) (fun x => { x with failed := Bits.sat 8 x.failed 1 })
      let d := if c.calFails = 2 then { d with window := false }.calAdvance else { d with window := false }
      let s := { s with aio := d }
      .next (if c.active.contains .calFail then s.setEvent .aio 9 else s.aioRaise n .calFail)

/-- CAL_WINDOW_ABANDON (09 R280): the source node of an OUTPUT channel jumped. -/
def execCalWindowAbandon (s : State) : Host.Outcome State Fault Refusal :=
  if s.aio.window && (s.aio.getCh s.aio.calCh).isOutput then .next s.calAbandon else .next s

/-- GRID_SENSE_SATURATED (09 R283). -/
def execGridSenseSaturated (g : Fin 4) (s : State) : Host.Outcome State Fault Refusal :=
  let x := { s.aio.getGs g with saturated := true, valid := true }
  .next ({ s with aio := s.aio.setGs g x }.report .aio 16 g x.status)

end Sys2Proof.Machine
end

