-- ==== Sys2Proof/Machine/Ax.lean ====
section
/-! DEFINITION. Machine/Ax.lean: the axes: commands and the move queue, the profile generator, limits, stalls, homing,
faults and the motor supply (11 R324-R348). -/
namespace Sys2Proof.Machine

/-- 10¹²: the generator's position unit in one unit of 1/256 full step (log 10). -/
def axScale : Int := 1000000000000

/-- The integer square root, by fixing bits from the highest down. -/
def isqrtBits : Nat → Nat → Nat → Nat
  | 0, _, r => r
  | k + 1, n, r => isqrtBits k n (if (r + 2 ^ k) * (r + 2 ^ k) ≤ n then r + 2 ^ k else r)

/-- The integer square root of a number below 2¹²⁸. -/
def isqrt (n : Nat) : Nat := isqrtBits 64 n 0

/-- An acceleration in full steps/s² as a change of `v` per µs. -/
def axAcc (a : Nat) : Nat := 256 * a

/-- E_DECEL of an axis. -/
def Axis.eDecel (x : Axis) : Nat := x.cfg.eDecel.toNat

/-- The time in µs that a change of velocity `dv` takes at deceleration `d`, jerk `j` (0: none). -/
def changeTime (dv d j : Nat) : Nat :=
  let d' := axAcc d
  let j' := 256 * j
  if j = 0 then dv / d' + 1
  else if d' * d' * 1000000 ≤ dv * j' then dv / d' + d' * 1000000 / j' + 1
  else 2 * isqrt (dv * 1000000 / j') + 1

/-- The distance that braking from `v` to `w` takes (11 R330, R331). -/
def brakeDist (v w d j : Nat) : Nat :=
  if v ≤ w then 0 else ((v + w) * changeTime (v - w) d j) / 2 + 1

/-- The highest velocity of at most `2 ^ k` above `r` from which `w` is reached within `len`, by fixing bits. -/
def entryBits (len w d j : Nat) : Nat → Nat → Nat
  | 0, r => r
  | k + 1, r => entryBits len w d j k (if brakeDist (r + 2 ^ k) w d j ≤ len then r + 2 ^ k else r)

/-- The highest entry velocity of a move of length `len` that leaves it at `w` (11 R331). -/
def maxEntry (len w d j : Nat) : Nat :=
  if j = 0 then isqrt (w * w + 2 * axAcc d * len) else entryBits len w d j 43 w

/-- The limits on the junction of two moves (11 R331): 0 without BLEND or in opposite directions. -/
def junctionOf (lim : Nat) (start : Int) (e n : AxMove) : Nat :=
  if n.blend && decide (0 < (e.target - start) * (n.target - e.target)) then min (min e.v n.v) (lim * 256) * 1000000 else 0

/-- The deceleration of a later move under the override. -/
def Axis.laterD (x : Axis) (e : AxMove) : Nat := if x.dOvr = 0 then e.d else x.dOvr

/-- The velocity at the end of the first of some moves, lowered until every move can stop at its own target (11 R331). -/
def Axis.exitOf (x : Axis) : Int → List AxMove → Nat
  | _, [] => 0
  | _, [_] => 0
  | start, e :: n :: q =>
    min (junctionOf (Bits.get x.cfg.junction 0 16) start e n)
      (maxEntry ((n.target - e.target).natAbs * 1000000000000) (x.exitOf e.target (n :: q)) (x.laterD n) n.j)

/-- The head of the queue becomes the move in progress: overrides in force, a deferred D taken (11 R332). -/
def Axis.load (x : Axis) : Axis :=
  match x.queue with
  | [] => { x with braking := false, exit := none, decelPending := false }
  | e :: _ => { x with braking := false, exit := none, decelPending := false, acc := 0,
                       curA := if x.aOvr = 0 then e.a else x.aOvr, curD := x.laterD e }

/-- The axis stands still for good: the count is whole. -/
def Axis.halt (x : Axis) : Axis :=
  { x with x := x.pos * axScale, v := 0, acc := 0, motion := .still, braking := false, exit := none }

/-- Flush the queue and stop at a deceleration, to the state STOPPING (11 R340). -/
def Axis.stopAt (x : Axis) (dec res : Nat) (off : Bool) : Axis :=
  { x with queue := [], motion := .stop dec, state := .stopping, endResult := res, toDisabled := off, braking := false,
           exit := none, decelPending := false }

/-- The deceleration of the present motion (11 R340 STOP). -/
def Axis.presentD (x : Axis) : Nat :=
  match x.motion with
  | .moves => x.curD
  | .run _ acc => acc
  | .stop d => d
  | .still => 0

/-- Start or resume the search of a homing (11 R338, R339). -/
def Axis.search (x : Axis) (h : Homing) : Axis :=
  let vel : Int := h.cmd.vel
  { x with homing := some h, motion := .run (if h.pos then vel else -vel) h.cmd.acc }

/-- The reference point has been found: its position becomes HOME_OFFSET (11 R338). -/
def Axis.setHome (x : Axis) (ref offset : Int) : Axis :=
  let p := x.pos + (offset - ref)
  { x with pos := p, x := p * axScale, homed := true, unverified := false, homing := none, result := 1 }

/-- What follows a standstill (11 R339, R340). -/
def Axis.standstill (x : Axis) : Axis :=
  let y := x.halt
  match y.state with
  | .stopping =>
    match y.homing with
    | some { cmd, ref := some r, .. } => { y.setHome r cmd.offset with state := .idle }
    | _ =>
      if y.toDisabled then
        { y with state := .disabled, bridge := false, result := y.endResult, homing := none, toDisabled := false }
      else { y with state := .idle, result := y.endResult, homing := none }
  | .homing =>
    match y.homing with
    | some h =>
      match h.phase with
      | .backStop => y.search { h with phase := .search }
      | .reverse => y.search { h with phase := .search, pos := !h.pos }
      | _ => y
    | none => y
  | .faulted => { y with bridge := false }
  | .moving => { y with state := .idle, result := 1 }
  | _ => y

/-- The head move ends at its target: the next one is met at velocity `w`, or the axis stands (11 R330, R331). -/
def Axis.arrive (x : Axis) (dir : Int) (w : Nat) : Axis :=
  match x.queue with
  | [] => x.standstill
  | [e] => ({ x with queue := [], pos := e.target, x := e.target * axScale, decelPending := false } : Axis).standstill
  | e :: q =>
    let y : Axis := { x with queue := q, v := dir * w }
    (if w = 0 then { y with pos := e.target, x := e.target * axScale } else y).load

/-- The velocity after 1 µs of a trapezoidal move, in the direction of the target, and whether braking has begun.
(DESIGN CHOICE, log 10) -/
def trapezoid (vd : Int) (vmax vs acc dec : Nat) (braking : Bool) : Int × Bool :=
  let cap : Int := min vmax vs
  if vd < 0 then (min 0 (vd + dec), false)
  else if cap < vd then (max (vd - dec) cap, braking || decide (vs ≤ vmax))
  else if braking then (vd, true)
  else (min (vd + acc) cap, decide ((vs : Int) < min (vd + acc) vmax))

/-- The velocity and the acceleration (10⁻⁶) after 1 µs of an S-curve, and whether braking has begun. -/
def sCurve (vd a : Int) (vmax w acc dec rem j : Nat) (braking : Bool) : Int × Int × Bool :=
  let j' : Int := 256 * j
  let rise : Nat := if 0 < a then (a * a).natAbs / (512 * j * 1000000) else 0
  let fall : Nat := if a < 0 then (a * a).natAbs / (512 * j * 1000000) else 0
  let n : Nat := vd.toNat
  let lead : Nat := if 0 < a then (n + rise) * (a.natAbs / (256 * j) + 1) else 0
  let brake := decide (0 ≤ vd) && decide (rem ≤ brakeDist (n + rise) w (dec / 256) j + lead)
  let want : Int :=
    if vd < 0 then dec
    else if brake then (if n ≤ w + fall then 0 else -(dec : Int))
    else if vmax < n then -(dec : Int)
    else if braking || decide (vmax ≤ n + rise) then 0
    else acc
  let a' := max (a - j') (min (a + j') (want * 1000000))
  let v' := vd + a' / 1000000
  (if vd ≤ vmax then min v' vmax else v', a', braking || brake)

/-- 1 µs of the head move (11 R330-R332). -/
def Axis.headTick (x : Axis) : Axis :=
  match x.queue with
  | [] => x.standstill
  | e :: _ =>
    let rem := e.target * axScale - x.x
    let dir : Int := if rem < 0 then -1 else if 0 < rem then 1 else if x.v < 0 then -1 else 1
    let n := rem.natAbs
    let w := match x.exit with | some w => w | none => x.exitOf x.pos x.queue
    let vd := x.v * dir
    let acc := axAcc x.curA
    let dec := axAcc x.curD
    let r : Int × Int × Bool :=
      if e.j = 0 then
        let t := trapezoid vd (e.v * 1000000) (isqrt (w * w + 2 * dec * n)) acc dec x.braking
        (t.1, 0, t.2)
      else sCurve vd (if vd < 0 then -x.acc else x.acc) (e.v * 1000000) w acc dec n e.j x.braking
    let y : Axis := { x with v := dir * r.1, acc := r.2.1, braking := r.2.2
                             exit := if r.2.2 then some w else none }
    let slow := decide (r.1 ≤ w + 2 * dec)
    if slow && (decide ((n : Int) ≤ r.1) || (e.j != 0 && decide (n < 1000000000000) && decide (r.1 ≤ w + dec)) || n == 0) then
      if w = 0 then y.arrive dir 0 else { y with x := y.x + y.v }.arrive dir r.1.toNat
    else if r.1 = 0 ∧ 0 ≤ vd then { y with x := y.x, braking := false, exit := none }
    else { y with x := y.x + y.v }

/-- A velocity one µs nearer to a wanted one. -/
def approach (v want : Int) (acc : Nat) : Int :=
  if v < want then min (v + acc) want else max (v - acc) want

/-- The soft limit ahead of a VELOCITY run (11 R334). -/
def Axis.softAhead (x : Axis) (vel : Int) : Option Int :=
  let lo := x.cfg.softMin.toInt
  let hi := x.cfg.softMax.toInt
  if x.homed && decide (lo < hi) && x.state == .moving then
    if vel < 0 then some lo else if 0 < vel then some hi else none
  else none

/-- 1 µs of a run at a velocity (11 R333, R334). -/
def Axis.runTick (x : Axis) (vel : Int) (acc : Nat) : Axis :=
  let a := axAcc acc
  let v' := approach x.v (vel * 1000000) a
  match x.softAhead vel with
  | none =>
    if v' = 0 ∧ vel = 0 ∧ x.state = .moving then { x with v := 0 }.standstill else { x with v := v', x := x.x + v' }
  | some lim =>
    let dir : Int := if vel < 0 then -1 else 1
    let rem := (lim * axScale - x.x) * dir
    let vs : Int := isqrt (2 * a * rem.toNat)
    let vd := v' * dir
    let vd := if vs < vd then max vs (x.v * dir - a) else vd
    if 0 ≤ vd ∧ rem ≤ vd ∧ vd ≤ 2 * a then
      let y : Axis := if 0 ≤ rem then { x with pos := lim, x := lim * axScale } else x
      { y.standstill with result := 4 }
    else { x with v := dir * vd, x := x.x + dir * vd }

/-- 1 µs of a stop. -/
def Axis.stopTick (x : Axis) (dec : Nat) : Axis :=
  let v' := approach x.v 0 (axAcc dec)
  if v' = 0 then x.standstill else { x with v := v', x := x.x + v' }

/-- The count of a moving axis: its exact position rounded either way, never backwards along the motion. -/
def Axis.count (x : Axis) (up : Bool) : Int :=
  let p := x.x / axScale + (if up && x.x % axScale != 0 then 1 else 0)
  if 0 < x.v then max x.pos p else if x.v < 0 then min x.pos p else x.pos

/-- Was a full-step position reached between two positions (11 R326, R327)? -/
def fullStep (p q : Int) : Bool :=
  if p < q then (p - 128) / 256 != (q - 128) / 256 else if q < p then (128 - p) / 256 != (128 - q) / 256 else false

/-- The current mode after a full-step position (11 R327). -/
def Axis.modeAt (x : Axis) : Bool :=
  let vq := Bits.get x.cfg.quiet 16 16 * 256000000
  let vl := (Bits.get x.cfg.quiet 16 16 - Bits.get x.cfg.quiet 0 16) * 256000000
  if x.strong then decide (vl ≤ x.v.natAbs) else decide (vq ≤ x.v.natAbs)

/-- With V_Q at 0 the axis is STRONG at all speeds (11 R327). -/
def Axis.slowStrong (x : Axis) : Axis := { x with strong := x.strong || Bits.get x.cfg.quiet 16 16 == 0 }

/-- The configuration that waits is taken while the axis is IDLE or DISABLED (11 AX register block). -/
def Axis.takeCfg (x : Axis) : Axis :=
  match x.nextCfg with
  | some c => if x.state = .idle ∨ x.state = .disabled then ({ x with cfg := c, nextCfg := none } : Axis).slowStrong else x
  | none => x

/-- 1 µs of an axis (11 R330), rounding up or down. (DESIGN CHOICE, log 10) -/
def Axis.tick (x : Axis) (up : Bool) : Axis :=
  let x := x.takeCfg
  let x := { x with mask := x.mask - 1, offLeft := x.offLeft - 1
                    bridge := x.bridge && x.offLeft != 1 }
  let y := match x.motion with
    | .still => x
    | .moves => x.headTick
    | .run vel acc => x.runTick vel acc
    | .stop dec => x.stopTick dec
  if y.motion = .still ∨ y.v = 0 then y
  else
    let y := { y with hold := false, pos := y.count up }
    if fullStep x.pos y.pos then { y with strong := y.modeAt } else y

/-! Commands. -/

/-- What a command does to its axis: taken, with the events it sets, or refused with a result code. -/
inductive AxAns where
  | taken (x : Axis) (events : List Nat)
  | refused (code : Nat)

/-- Is a field of a move entry outside its range (11 *Move entry*)? -/
def MoveEntry.bad (e : MoveEntry) : Bool :=
  e.v == 0 || decide (5120000 < e.v) || e.a == 0 || decide (1000000 < e.a) || e.d == 0 || decide (1000000 < e.d)
    || decide (4000000000 < e.j)

/-- Resolve the targets of some entries from a previous target. (DEDUCED, log 11) -/
def resolve : Int → List MoveEntry → List AxMove
  | _, [] => []
  | prev, e :: es =>
    let t := if e.relative then prev + e.target else e.target
    { target := t, v := e.v, a := e.a, d := e.d, j := e.j, blend := e.blend } :: resolve t es

/-- Does a move in the queue order go in a direction whose limit is active (11 R336)? -/
def Axis.intoLimit (x : Axis) : Int → List AxMove → Bool
  | _, [] => false
  | prev, e :: es => (x.limn && decide (e.target < prev)) || (x.limp && decide (prev < e.target)) || x.intoLimit e.target es

/-- Is a target beyond a soft limit that applies (11 R334)? -/
def Axis.beyondSoft (x : Axis) (t : Int) : Bool :=
  let lo := x.cfg.softMin.toInt
  let hi := x.cfg.softMax.toInt
  x.homed && decide (lo < hi) && (decide (t < lo) || decide (hi < t))

/-- The target that a further entry follows: the last in the queue, else the present position (log 11). -/
def Axis.lastTarget (x : Axis) : Int := match x.queue.getLast? with | some e => e.target | none => x.pos

/-- The checks on some entries after `prev`; `n` places are free. (DEDUCED, log 45) -/
def Axis.judge (x : Axis) (prev : Int) (n : Nat) (es : List MoveEntry) : Option Nat :=
  let ms := resolve prev es
  if 4 < es.length || es.any MoveEntry.bad then some 6
  else if n < es.length then some 2
  else if ms.any (fun e => x.beyondSoft e.target) then some 4
  else if x.intoLimit prev ms then some 3
  else none

/-- Is the axis one that takes moves? -/
def Axis.takesMoves (x : Axis) : Bool := x.state == .idle || x.state == .moving

/-- ENABLE (11 R340). -/
def axEnable (vm : VmState) (x : Axis) : AxAns :=
  if x.state = .disabled ∧ (vm = .normal ∨ vm = .high) then
    .taken { x with state := .idle, bridge := true, hold := true, offLeft := 0, mask := 2000, result := 0 } []
  else .refused 5

/-- A stop command: homing is ended with it (11 R339, R340). -/
def axStopCmd (dec : Nat) (off : Bool) (x : Axis) : AxAns :=
  match x.state with
  | .moving => .taken { x.stopAt dec 9 off with result := 0 } []
  | .homing => .taken { x.stopAt dec 9 off with result := 0, homing := none, homed := false } []
  | _ => .refused 5

/-- DISABLE. -/
def axDisable (x : Axis) : AxAns :=
  match x.state with
  | .disabled => .taken { x with result := 0 } []
  | .idle => .taken { x with state := .disabled, offLeft := 10000, hold := true, result := 0 } []
  | _ => axStopCmd x.presentD true x

/-- STOP. -/
def axStop (x : Axis) : AxAns := axStopCmd x.presentD false x

/-- ESTOP: in STOPPING the deceleration becomes E_DECEL when that is larger. -/
def axEstop (x : Axis) : AxAns :=
  if x.state = .stopping then
    .taken { x with motion := .stop (max x.presentD x.eDecel), endResult := 9, result := 0, homing := none
                    homed := x.homed && x.homing.isNone } []
  else axStopCmd x.eDecel false x

/-- APPEND. (DEDUCED, log 11) -/
def axAppend (es : List MoveEntry) (x : Axis) : AxAns :=
  if !x.takesMoves then .refused 5
  else match x.judge x.lastTarget (16 - x.queue.length) es with
    | some c => .refused c
    | none =>
      let y := { x with queue := x.queue ++ resolve x.lastTarget es, state := .moving, motion := .moves, result := 0 }
      .taken (if x.queue.isEmpty then y.load else y) []

/-- REPLACE. -/
def axReplace (es : List MoveEntry) (x : Axis) : AxAns :=
  if !x.takesMoves then .refused 5
  else match x.judge x.pos 16 es with
    | some c => .refused c
    | none =>
      .taken ({ x with queue := resolve x.pos es, state := .moving, motion := .moves, result := 0 } : Axis).load []

/-- VELOCITY. -/
def axVelocity (vel : Int) (acc : Nat) (x : Axis) : AxAns :=
  if !x.takesMoves then .refused 5
  else if 5120000 < vel.natAbs ∨ 1000000 < acc then .refused 6
  else if (x.limn ∧ vel < 0) ∨ (x.limp ∧ 0 < vel) then .refused 3
  else .taken { x with queue := [], motion := .run vel acc, state := .moving, result := 0, braking := false
                       exit := none, decelPending := false } []

/-- The switch that a homing mode expects. -/
def expectedSwitch : Nat → Option AxSwitch
  | 0 => some .home
  | 1 => some .home
  | 2 => some .limn
  | 3 => some .limp
  | _ => none

def Axis.switch (x : Axis) : AxSwitch → Bool
  | .limn => x.limn
  | .limp => x.limp
  | .home => x.home

def Axis.setSwitch (x : Axis) (sw : AxSwitch) (b : Bool) : Axis :=
  match sw with
  | .limn => { x with limn := b }
  | .limp => { x with limp := b }
  | .home => { x with home := b }

/-- HOME (11 R338, R339 Start on the switch). -/
def axHome (h : HomeCmd) (x : Axis) : AxAns :=
  if x.state ≠ .idle then .refused 5
  else if 5 < h.mode ∨ 5120000 < h.vel ∨ 1000000 < h.acc ∨ 1000000 < h.dec
      ∨ (h.mode = 4 ∧ h.vel < Bits.get x.cfg.stall 16 15 * 256) then .refused 6
  else if h.mode = 5 then .taken (x.setHome x.pos h.offset) [2]
  else
    let pos := if h.mode = 2 then false else if h.mode = 3 then true else h.dir
    let y := { x with state := .homing, result := 0 }
    let on := match expectedSwitch h.mode with | some sw => x.switch sw | none => false
    if on then
      let vel : Int := h.vel
      .taken { y with homing := some { cmd := h, pos := pos, phase := .back }, motion := .run (if pos then -vel else vel) h.acc } []
    else .taken (y.search { cmd := h, pos := pos }) []

/-- SET_RATES (11 R332): a D that would overshoot the target is deferred. -/
def axSetRates (aOvr dOvr : Nat) (x : Axis) : AxAns :=
  if x.state ≠ .moving then .refused 5
  else if 1000000 < aOvr ∨ 1000000 < dOvr then .refused 6
  else
    let y := { x with aOvr := aOvr, dOvr := dOvr, result := 0 }
    match x.motion, x.queue with
    | .moves, e :: _ =>
      let d := if dOvr = 0 then e.d else dOvr
      let y := { y with curA := if aOvr = 0 then e.a else aOvr }
      if brakeDist x.v.natAbs 0 d e.j ≤ (e.target * axScale - x.x).natAbs then
        .taken { y with curD := d, decelPending := false } []
      else .taken { y with decelPending := true } [4]
    | _, _ => .taken y []

/-- CLEAR_FAULT; `absent` says that the cause has been absent for 100 ms (11 R341). -/
def axClearFault (vm : VmState) (absent : Bool) (x : Axis) : AxAns :=
  match x.state with
  | .disabled => .taken { x with result := 0 } []
  | .faulted =>
    if absent && (vm == .normal || vm == .high) && x.motion == .still then
      .taken { x with state := .disabled, fault := 0, bridge := false, result := 0 } []
    else .refused 5
  | _ => .refused 5

/-- Set several bits of AX_EVENT. -/
def State.axEvents (s : State) (l : List Nat) : State := l.foldl (fun s b => s.setEvent .ax b) s

/-- Keep LAST_SEQ and the position in the retained store (11 R344). -/
def Axis.save (now : Nat) (x : Axis) : Axis := { x with savedSeq := x.lastSeq, savedPos := x.pos, savedNs := now }

/-- A command record meets its axis (11 R328): it acts once, when its sequence number changes. (DEDUCED, log 45) -/
def State.axCmd (s : State) (a : Nat) (seq : Word) (f : Axis → AxAns) : State :=
  let x := s.ax.get a
  if seq = x.lastSeq then s
  else
    let d := { s.ax with past := Tbl.set [] s.ax.past a [] }
    match f x with
    | .taken y evs => { s with ax := d.set a (({ y with lastSeq := seq } : Axis).save s.nowNs) }.axEvents evs
    | .refused c => { s with ax := d.set a (({ x with lastSeq := seq, result := c } : Axis).save s.nowNs) }.setEvent .ax 5

/-- AXIS_ENABLE (11 R340). -/
def execAxisEnable (a : Fin 4) (seq : Word) (s : State) : Host.Outcome State Fault Refusal :=
  .next (s.axCmd a seq (axEnable s.ax.vm))

/-- AXIS_DISABLE (11 R340). -/
def execAxisDisable (a : Fin 4) (seq : Word) (s : State) : Host.Outcome State Fault Refusal :=
  .next (s.axCmd a seq axDisable)

/-- AXIS_APPEND (11 R331). -/
def execAxisAppend (a : Fin 4) (seq : Word) (entries : List MoveEntry) (s : State) : Host.Outcome State Fault Refusal :=
  .next (s.axCmd a seq (axAppend entries))

/-- AXIS_REPLACE (11 R331). -/
def execAxisReplace (a : Fin 4) (seq : Word) (entries : List MoveEntry) (s : State) : Host.Outcome State Fault Refusal :=
  .next (s.axCmd a seq (axReplace entries))

/-- AXIS_STOP (11 R340). -/
def execAxisStop (a : Fin 4) (seq : Word) (s : State) : Host.Outcome State Fault Refusal :=
  .next (s.axCmd a seq axStop)

/-- AXIS_ESTOP (11 R340). -/
def execAxisEstop (a : Fin 4) (seq : Word) (s : State) : Host.Outcome State Fault Refusal :=
  .next (s.axCmd a seq axEstop)

/-- AXIS_VELOCITY (11 R333). -/
def execAxisVelocity (a : Fin 4) (seq : Word) (vel : Int) (acc : Nat) (s : State) : Host.Outcome State Fault Refusal :=
  .next (s.axCmd a seq (axVelocity vel acc))

/-- AXIS_HOME (11 R338). -/
def execAxisHome (a : Fin 4) (seq : Word) (h : HomeCmd) (s : State) : Host.Outcome State Fault Refusal :=
  .next (s.axCmd a seq (axHome h))

/-- AXIS_SET_RATES (11 R332). -/
def execAxisSetRates (a : Fin 4) (seq : Word) (aOvr dOvr : Nat) (s : State) : Host.Outcome State Fault Refusal :=
  .next (s.axCmd a seq (axSetRates aOvr dOvr))

/-- AXIS_CLEAR_FAULT (11 R340). -/
def execAxisClearFault (a : Fin 4) (seq : Word) (absent : Bool) (s : State) : Host.Outcome State Fault Refusal :=
  .next (s.axCmd a seq (axClearFault s.ax.vm absent))

/-- NONE and the reserved commands (11 *Axis commands*). (DEDUCED, log 45) -/
def axOther (cmd : Nat) (x : Axis) : AxAns := if cmd = 0 then .taken { x with result := 0 } [] else .refused 6

/-! The command record in a task's image (11 R328). -/

/-- A signed little-endian field of 8 bytes. -/
def s64At (bs : List Byte) (o : Nat) : Int := (BitVec.ofNat 64 (Bits.leAt bs o 8)).toInt

/-- A move entry of a record. -/
def moveAt (bs : List Byte) (o : Nat) : MoveEntry :=
  { target := s64At bs o, v := Bits.leAt bs (o + 8) 4, a := Bits.leAt bs (o + 12) 4, d := Bits.leAt bs (o + 16) 4
    j := Bits.leAt bs (o + 20) 4, blend := (Bits.leAt bs (o + 24) 1) % 4 / 2 == 1
    relative := (Bits.leAt bs (o + 24) 1) % 2 == 1 }

/-- The command that the bytes of an axis command record spell. -/
def axRecord (bs : List Byte) (vm : VmState) (absent : Bool) : Axis → AxAns :=
  let n := Bits.leAt bs 5 1 % 8
  let es := (List.range n).map (fun i => moveAt bs (0x20 + 0x20 * i))
  let vel := Bits.leAt bs 0x10 4
  let acc := Bits.leAt bs 0x14 4
  let dec := Bits.leAt bs 0x18 4
  match Bits.leAt bs 4 1 with
  | 1 => axEnable vm
  | 2 => axDisable
  | 3 => axAppend es
  | 4 => axReplace es
  | 5 => axStop
  | 6 => axEstop
  | 7 => axVelocity (BitVec.ofNat 32 vel).toInt acc
  | 8 => axHome { offset := s64At bs 8, vel := vel, acc := acc, dec := dec
                  dir := Bits.leAt bs 0x1C 1 % 16 / 8 == 1, mode := Bits.leAt bs 0x1C 1 % 8 }
  | 9 => axSetRates acc dec
  | 10 => axClearFault vm absent
  | c => axOther c

/-- A command record is applied at the T0 of its task (11 R328). -/
def State.axApply (s : State) (a : Nat) (bs : List Byte) (absent : Bool) : State :=
  s.axCmd a (BitVec.ofNat 32 (Bits.leAt bs 0 4)) (axRecord bs s.ax.vm absent)

/-! Ticks, edges and stalls. -/

/-- The events of one tick: homing completed, homing ended with HOMING_FAULT. -/
def axTickEvents (x y : Axis) : List Nat :=
  if x.homing.isSome && y.homing.isNone && y.state == .idle then
    if y.result = 1 then [2] else if y.result = 8 then [3] else []
  else []

/-- AXIS_PROFILE_TICK (11 R330). -/
def execAxisProfileTick (a : Fin 4) (s : State) : Host.Outcome State Fault Refusal :=
  let x := s.ax.get a
  let y := x.tick (Config.profileRound s.free)
  let y := if y.pos = x.pos then y else { y with stepNs := s.nowNs }
  let d := { s.ax.set a y with past := Tbl.set [] s.ax.past a ((x :: Tbl.get [] s.ax.past a).take 32) }
  .next ({ s with ax := d, free := s.free + 1 }.axEvents (axTickEvents x y))

/-- A limit edge outside homing (11 R336): gives the axis and the events. A stop in progress becomes one at E_DECEL when that is
larger. (DEDUCED, log 97) -/
def Axis.limitEdge (x : Axis) (sw : AxSwitch) (active : Bool) : Axis × List Nat :=
  let y := x.setSwitch sw active
  let into := active && ((sw == .limn && decide (x.v < 0)) || (sw == .limp && decide (0 < x.v)))
  if into && x.state == .moving then ({ y.stopAt x.eDecel 7 false with limitStops := Bits.sat 16 x.limitStops 1 }, [1])
  else if into && x.state == .stopping && x.homing.isNone then
    ({ y with motion := .stop (max x.presentD x.eDecel), endResult := 7, limitStops := Bits.sat 16 x.limitStops 1 }, [1])
  else (y, [])

/-- The reference point of a captured edge (11 *Homing modes*): HOME_INDEX takes the next position with MSI 0. -/
def homeRef (h : Homing) (p : Int) : Int :=
  if h.cmd.mode = 1 then (if h.pos then (p / 1024 + 1) * 1024 else -((-p) / 1024 + 1) * 1024) else p

/-- A captured reference: homing stops at DEC and ends at standstill (11 R338, R340). -/
def Axis.homeFound (x : Axis) (h : Homing) (ref p : Int) : Axis :=
  { x with homing := some { h with ref := some ref, phase := .finish }, capture := p, motion := .stop h.cmd.dec
           state := .stopping, endResult := 1, toDisabled := false }

/-- Does the present run go in the positive direction? -/
def Axis.goesUp (x : Axis) : Bool := match x.motion with | .run vel _ => decide (0 < vel) | _ => false

/-- Is a switch a blocking limit in the direction in which a homing now runs (11 R339)? (DEDUCED, log 97) -/
def Axis.blocking (x : Axis) (h : Homing) (sw : AxSwitch) : Bool :=
  expectedSwitch h.cmd.mode != some sw &&
    match x.motion with
    | .run vel _ => (sw == .limn && decide (vel < 0)) || (sw == .limp && decide (0 < vel))
    | _ => false

/-- A valid edge of a switch during homing (11 R339). -/
def Axis.homingEdge (x : Axis) (h : Homing) (sw : AxSwitch) (active : Bool) (p : Int) : Axis :=
  let y := x.setSwitch sw active
  if expectedSwitch h.cmd.mode = some sw then
    match h.phase, active with
    | .back, false => { y with homing := some { h with phase := .backStop }, motion := .stop h.cmd.dec }
    | .search, true => y.homeFound h (homeRef h p) p
    | _, _ => y
  else if active && x.blocking h sw then
    if h.blocks = 0 then { y with homing := some { h with phase := .reverse, blocks := 1, pos := x.goesUp }, motion := .stop x.eDecel }
    else { y.stopAt x.eDecel 8 false with homing := some { h with phase := .finish, blocks := 2 }, homed := false }
  else y

/-- A stall (11 R337): in stall homing it is the reference point. Gives whether it faults the axis. -/
def Axis.stalled (x : Axis) (p : Int) : Axis × Bool :=
  match x.state, x.homing with
  | .homing, some h =>
    if h.cmd.mode = 4 then (x.homeFound h p p, false)
    else ({ x.halt with queue := [], state := .faulted, fault := 1, result := 9, hold := true, unverified := true
                        homing := none, homed := false, decelPending := false, stalls := Bits.sat 16 x.stalls 1 }, true)
  | _, _ =>
    ({ x.halt with queue := [], state := .faulted, fault := 1, result := 9, hold := true, unverified := true
                   homing := none, decelPending := false, stalls := Bits.sat 16 x.stalls 1 }, true)

/-- Put an axis, set the UNVERIFIED event when its position has become unverified, and set the other events. -/
def State.axPut (s : State) (a : Nat) (x : Axis) (evs : List Nat) : State :=
  let was := (s.ax.get a).unverified
  { s with ax := s.ax.set a x }.axEvents (evs ++ (if x.unverified && !was then [13] else []))

/-- A switch edge takes effect on an axis. -/
def State.axEdge (s : State) (a : Nat) (sw : AxSwitch) (active : Bool) (p : Int) : State :=
  let x := s.ax.get a
  match x.state, x.homing with
  | .homing, some h => s.axPut a (x.homingEdge h sw active p) []
  | _, _ => let r := x.limitEdge sw active; s.axPut a r.1 r.2

/-- A stall takes effect on an axis; it is reported (11 R341). -/
def State.axStall (s : State) (a : Nat) (p : Int) : State :=
  let r := (s.ax.get a).stalled p
  let s' := s.axPut a r.1 []
  s'.reportIf r.2 .ax 0 a r.1.status

/-- An edge that this module's axis unit decided (11 R345): the token holder applies and sends it; a SHADOW keeps it for
a takeover and takes only the level. (DEDUCED, log 46) -/
def State.axOwnEdge (s : State) (a : Nat) (sw : AxSwitch) (active : Bool) (p : Int) : State :=
  let e := AxEvent.edge a sw active s.nowNs p
  if s.holdsToken || s.solo then
    let s' := s.axEdge a sw active p
    { s' with ax := { s'.ax with sent := s'.ax.sent ++ [e] } }
  else
    let d := s.ax.set a ((s.ax.get a).setSwitch sw active)
    { s with ax := { d with own := (e :: d.own).take 64 } }

/-- AXIS_LIMIT_EDGE (11 R336): a valid edge outside homing. (DEDUCED, log 46) -/
def execAxisLimitEdge (a : Fin 4) (sw : AxSwitch) (active : Bool) (edgePos : Int) (s : State) :
    Host.Outcome State Fault Refusal :=
  let x := s.ax.get a
  if x.state = .homing ∨ x.switch sw = active then .next s else .next (s.axOwnEdge a sw active edgePos)

/-- AXIS_HOMING_EDGE (11 R339): a valid edge during homing. (DEDUCED, log 46) -/
def execAxisHomingEdge (a : Fin 4) (sw : AxSwitch) (active : Bool) (edgePos : Int) (s : State) :
    Host.Outcome State Fault Refusal :=
  let x := s.ax.get a
  if x.state = .homing ∧ x.switch sw ≠ active then .next (s.axOwnEdge a sw active edgePos) else .next s

/-- Is a stall watched for now (11 R337)? -/
def Axis.stallWatched (x : Axis) : Bool :=
  Bits.bit x.cfg.stall 31 && x.mask == 0 && x.bridge &&
    decide (Bits.get x.cfg.stall 16 15 * 256000000 ≤ x.v.natAbs) &&
    (x.state == .moving || x.state == .homing || x.state == .stopping)

/-- AXIS_STALL (11 R337): decided by the token holder's axis unit alone (R345). -/
def execAxisStall (a : Fin 4) (s : State) : Host.Outcome State Fault Refusal :=
  let x := s.ax.get a
  if !x.stallWatched then .next s
  else
    let e := AxEvent.stall a s.nowNs x.pos
    if s.holdsToken || s.solo then
      let s' := s.axStall a x.pos
      .next { s' with ax := { s'.ax with sent := s'.ax.sent ++ [e] } }
    else .next { s with ax := { s.ax with own := (e :: s.ax.own).take 64 } }

/-- AXIS_HOLD_DELAY (11 R327): HOLD_DELAY has passed since the last microstep. -/
def execAxisHoldDelay (a : Fin 4) (s : State) : Host.Outcome State Fault Refusal :=
  let x := s.ax.get a
  if x.bridge && x.v == 0 && decide (x.stepNs + Bits.get x.cfg.config 8 7 * 10000000 ≤ s.nowNs) then
    .next { s with ax := s.ax.set a { x with hold := true } }
  else .next s

/-- AXIS_STATE_SAVE (11 R344): every 1 ms while the axis moves. -/
def execAxisStateSave (a : Fin 4) (s : State) : Host.Outcome State Fault Refusal :=
  let x := s.ax.get a
  if x.motion != .still && decide (x.savedNs + 1000000 ≤ s.nowNs) then .next { s with ax := s.ax.set a (x.save s.nowNs) } else .next s

/-- The present and the past µs of an axis, replayed after a change `n` µs ago. -/
def Axis.replay (f : Axis → Axis) (past : List Axis) (n : Nat) (x : Axis) : Axis :=
  match past.drop (n - 1) with
  | [] => f x
  | y :: _ => if n = 0 then f x else Nat.repeat (fun z => z.tick false) n (f y)

/-- An event of the token holder reaches the SHADOW's generator `ago` µs later (11 R345): it is applied at its own instant,
as far as the generator has run since without a command, and a matching own decision is spent. -/
def State.axRemote (s : State) (e : AxEvent) (ago : Nat) : State :=
  let same : AxEvent → Bool := fun o => match e, o with
    | .edge a sw b _ _, .edge a' sw' b' _ _ => a == a' && sw == sw' && b == b'
    | .stall a _ _, .stall a' _ _ => a == a'
    | _, _ => false
  let s := { s with ax := { s.ax with own := s.ax.own.filter (fun o => !same o) } }
  let back : Nat → State := fun a =>
    { s with ax := s.ax.set a (Axis.replay id (Tbl.get [] s.ax.past a) ago (s.ax.get a)) }
  match e with
  | .edge a sw b _ p =>
    let x := s.ax.get a
    let f : Axis → Axis := fun y => match y.state, y.homing with
      | .homing, some h => y.homingEdge h sw b p
      | _, _ => (y.limitEdge sw b).1
    let evs := match x.state, x.homing with | .homing, some _ => [] | _, _ => (x.limitEdge sw b).2
    let past := Tbl.get [] s.ax.past a
    s.axPut a (Axis.replay f past ago x) evs
  | .stall a _ p => (back a).axStall a p

/-- At a takeover, own decisions of the last 20 µs that no event matched are applied (11 R346). -/
def State.axTakeover (s : State) : State :=
  let recent := s.ax.own.reverse.filter (fun e => match e with
    | .edge _ _ _ ns _ => decide (s.nowNs ≤ ns + 20000)
    | .stall _ ns _ => decide (s.nowNs ≤ ns + 20000))
  recent.foldl (fun s e => s.axRemote e 0) { s with ax := { s.ax with own := [] } }

/-! Faults. -/

/-- The fault reaction of an axis: the bridge opens at once, or at the end of a stop at E_DECEL (11 *Axis diagnostics*). -/
def Axis.faultAt (x : Axis) (cause : Nat) (ramp : Bool) : Axis :=
  let moving := x.state == .moving || x.state == .homing || x.state == .stopping
  let y := { x with state := .faulted, fault := cause, unverified := true, queue := [], decelPending := false
                    homing := none, homed := x.homed && x.homing.isNone
                    result := if moving then 9 else x.result }
  if ramp && moving then { y with motion := .stop x.eDecel, braking := false, exit := none }
  else { y.halt with bridge := false }

/-- A fault of an axis: reported in any state, it makes one that is not DISABLED FAULTED (11 R340, R341). -/
def State.axFault (s : State) (a cause bit : Nat) (ramp : Bool) : State :=
  let x := s.ax.get a
  if x.state = .disabled then s.report .ax bit a x.status
  else
    let y := x.faultAt cause ramp
    (s.axPut a y []).report .ax bit a y.status

/-- AXIS_BRIDGE_FAULT (11 R341): the bridge test that follows on a LEAD ends with AXIS_BRIDGE_TEST_DONE. -/
def execAxisBridgeFault (a : Fin 4) (f : BridgeFault) (s : State) : Host.Outcome State Fault Refusal :=
  match f with
  | .overcurrent => .next (s.axFault a 2 6 false)
  | .overtemp hot => .next (s.axFault a 3 7 (!hot))
  | .openCoil => .next (s.axFault a 4 8 false)

/-- VM_LOW or VM_OVER is declared: every axis that is not DISABLED faults; one report names the motor supply. -/
def State.vmFault (s : State) (v : VmState) (mv cause bit : Nat) : State :=
  let s := { s with ax := { s.ax with vm := v, mv := mv } }
  let s := [0, 1, 2, 3].foldl (fun (s : State) a =>
    let x := s.ax.get a
    if x.state = .disabled then s else s.axPut a (x.faultAt cause false) []) s
  s.report .ax bit noObj (s.ax.status s.gateOpen)

/-- VM_LOW (11 R342). -/
def execVmLow (mv : Nat) (s : State) : Host.Outcome State Fault Refusal :=
  if mv < 10500 ∧ s.ax.vm ≠ .low then .next (s.vmFault .low mv 5 9) else .next s

/-- VM_OVER (11 R342). -/
def execVmOver (mv : Nat) (s : State) : Host.Outcome State Fault Refusal :=
  if 55000 < mv ∧ s.ax.vm ≠ .above then .next (s.vmFault .above mv 6 11) else .next s

/-- The state of VM at or above 11.5 V. (DEDUCED, log 12) -/
def vmStateOf (mv : Nat) : VmState := if 52000 < mv then .high else .normal

/-- VM_HIGH (11 R342): a report only. -/
def execVmHigh (s : State) : Host.Outcome State Fault Refusal :=
  if 52000 < s.ax.mv ∧ s.ax.vm = .normal then
    let d := { s.ax with vm := .high }
    .next ({ s with ax := d }.report .ax 10 noObj (d.status s.gateOpen))
  else .next s

/-- VM_LOW_CLEAR (11 R342): VM as last measured has stayed at or above 11.5 V for 10 ms. -/
def execVmLowClear (s : State) : Host.Outcome State Fault Refusal :=
  if 11500 ≤ s.ax.mv ∧ s.ax.vm = .low then .next { s with ax := { s.ax with vm := vmStateOf s.ax.mv } } else .next s

/-- VM as measured at a station tick: HIGH and OVER end with the voltage (log 12). -/
def AxBlk.measure (d : AxBlk) (mv : Nat) : AxBlk :=
  match d.vm with
  | .low => { d with mv := mv }
  | .normal => { d with mv := mv }
  | .high => { d with mv := mv, vm := if mv ≤ 52000 then .normal else .high }
  | .above => { d with mv := mv, vm := if mv ≤ 55000 then vmStateOf mv else .above }

/-- A station tick takes the check word (11 R345). (DEDUCED, log 12) -/
def AxBlk.stationTick (d : AxBlk) : AxBlk := { d with checks := (d.checkNow :: d.checks).take 4 }

/-- The check word of a HEARTBEAT: of the latest tick at least 20 µs before it (11 R345). -/
def AxBlk.heartbeatCheck (d : AxBlk) : Word := (d.checks.drop 2).headD d.checkNow

/-! What the rest of the module asks of the axes. -/

/-- STOP as each axis's STOP_ACTION selects (11 R343). -/
def State.axProgramStop (s : State) (a : Nat) : State :=
  let x := s.ax.get a
  match (if Bits.bit x.cfg.config 27 then axDisable x else axStop x) with
  | .taken y _ => { s with ax := s.ax.set a { y with result := x.result } }
  | .refused _ => s

/-- An axis after a warm resume (11 R344). (DEDUCED, log 54) -/
def Axis.resume (x : Axis) : Axis :=
  { x.halt with state := .disabled, unverified := true, queue := [], pos := x.savedPos, x := x.savedPos * axScale
                lastSeq := x.savedSeq, bridge := false, homing := none, fault := 0 }

/-- An axis after a cold promotion (11 R346). -/
def Axis.cold (x : Axis) : Axis :=
  { x.halt with state := .disabled, unverified := true, queue := [], bridge := false, homing := none }

/-- Every axis changed. -/
def AxBlk.mapAll (d : AxBlk) (f : Axis → Axis) : AxBlk := { d with ax := Tbl.mapRange {} (fun _ x => f x) d.ax 0 4 }

/-- Every axis as a cold promotion leaves it (11 R346), with the event of a position that becomes unverified. -/
def State.axCold (s : State) : State :=
  let lost := [0, 1, 2, 3].any (fun a => !(s.ax.get a).unverified)
  State.setEventIf { s with ax := s.ax.mapAll Axis.cold } lost .ax 13

/-- A fault of the axis unit during homing (11 R348). -/
def Axis.abortHoming (x : Axis) : Axis :=
  if x.homing.isSome then { x.stopAt x.eDecel 9 false with homing := none, homed := false } else x

end Sys2Proof.Machine
end

