-- ==== Sys2Proof/Machine/FabOps.lean ====
section
/-! DEFINITION. Machine/FabOps.lean: deques, releases, takes and losses of billets (03 R71-R85, R95). -/
namespace Sys2Proof.Machine

/-- The entries of a deque and of the release queue at most (03 R76, R77). -/
def dequeSize : Nat := 256

/-- The declaration of a billet in the running program. -/
def State.billet (s : State) (r : BRef) : Option Billet := (s.progTask r.task).billets.find? (fun b => b.num == r.num)

/-- Put a billet behind every entry whose task does not rank lower (03 R76). -/
def State.insertRank (s : State) (b : BRef) : List BRef → List BRef
  | [] => [b]
  | a :: l => if s.outranks b.task a.task then b :: a :: l else a :: s.insertRank b l

/-- Is there room for a release in the deque of an engine? -/
def FabBlk.takesRelease (f : FabBlk) (e : Nat) : Bool :=
  (f.engine e).state == .available && decide ((f.engine e).deque.length < dequeSize)

/-- A released billet enters its home deque, spills, or waits in the release queue (03 R76, R77). -/
def State.place (s : State) (b : BRef) (home : Nat) : State :=
  let put := fun (e : Nat) =>
    { s with fab := s.fab.setEngine e { s.fab.engine e with deque := s.insertRank b (s.fab.engine e).deque } }
  if s.fab.takesRelease home then put home
  else match ((List.range' 1 15).map (fun i => (home + i) % 16)).find? s.fab.takesRelease with
    | some e =>
      let s1 := put e
      { s1 with fab := { s1.fab with spillCnt := Bits.inc s1.fab.spillCnt } }.setEvent .fab 6
    | none => { s with fab := { s.fab with queue := s.fab.queue ++ [b], stallCnt := Bits.inc s.fab.stallCnt } }.setEvent .fab 7

/-- Has the release point of a billet passed in a cycle? -/
def CycleRun.reached (r : CycleRun) : RelPoint → Bool
  | .t0 => true
  | .input => r.agreed
  | .rick => r.rick

/-- The billets of a task that are to be released now (03 R71). -/
def State.releasable (s : State) (n : Nat) : List Billet :=
  match (s.task n).run with
  | none => []
  | some r =>
    if r.faulted then []
    else (s.progTask n).billets.filter (fun b => r.reached b.release && !r.released.contains b.num
      && b.preds.all (fun p => r.retired.contains p.2))

/-- Release them (03 R71, R76). -/
def State.releaseBillets (s : State) (n : Nat) : State :=
  let l := s.releasable n
  let s := s.modTask n (fun t => { t with run := t.run.map (fun r => { r with released := r.released ++ l.map Billet.num }) })
  l.foldl (fun s b => s.place { task := n, num := b.num } b.home) s

/-- A billet that waits in the release queue enters a deque that has freed an entry (03 R77). -/
def State.refill (s : State) (e : Nat) : State :=
  match s.fab.queue with
  | b :: q =>
    if (s.fab.engine e).deque.length < dequeSize then
      let f := { s.fab with queue := q }
      { s with fab := f.setEngine e { f.engine e with deque := s.insertRank b (f.engine e).deque } }
    else s
  | [] => s

/-- Waiting billets enter the deques as far as they have room (03 R77). -/
def State.refillAll (s : State) : State :=
  s.fab.queue.foldl (fun s _ =>
    match (List.range 16).find? (fun e => decide ((s.fab.engine e).deque.length < dequeSize)) with
    | some e => s.refill e
    | none => s) s

/-- The engines that run a task's billets. -/
def FabBlk.running (f : FabBlk) (task : Nat) : Nat :=
  f.count (fun x => match x.run with | some r => r.ref.task == task | none => false)

/-- Is one more take of a task's billet within its engine quota (03 R95)? -/
def State.quotaAdmits (s : State) (task : Nat) : Bool := s.fab.running task < (s.task task).limits.quota

/-- A refused take is counted (03 R95). -/
def State.quotaRefuse (s : State) (task : Nat) : State :=
  (s.modTask task (fun t => { t with refuses := Bits.inc t.refuses })).setEvent .fab 8

/-- Is an engine idle and free to take a billet? -/
def State.idleEngine (s : State) (e : Nat) : Bool :=
  (s.fab.engine e).state == .available && (s.fab.engine e).run.isNone && decide ((s.fab.engine e).since ≤ s.tickNo)

/-- The start of a billet is the start of its load; a re-run counts with it (03 R72, R81). -/
def State.startRun (s : State) (b : BRef) : State :=
  if b.rerun then { s with fab := { s.fab with rerunCnt := Bits.inc s.fab.rerunCnt } }.setEvent .fab 2 else s

/-- Engine `e` takes a billet out of the deque of engine `d`. -/
def State.takeFrom (s : State) (e d : Nat) (b : BRef) : State :=
  let f := s.fab.setEngine d { s.fab.engine d with deque := (s.fab.engine d).deque.erase b }
  let f := f.setEngine e { f.engine e with run := some { ref := b } }
  ({ s with fab := f }.refill d).startRun b

/-- The owner's take: the head, or the first entry of a task that the quotas admit; each refused task is counted once
(03 R78, R95). -/
def State.ownerTake (e : Nat) : State → List Nat → List BRef → State
  | s, _, [] => s
  | s, refused, b :: l =>
    if refused.contains b.task then State.ownerTake e s refused l
    else if s.quotaAdmits b.task then s.takeFrom e e b
    else State.ownerTake e (s.quotaRefuse b.task) (b.task :: refused) l

/-- The deques in the order in which an idle engine examines them for a steal (03 R78). -/
def FabBlk.candidates (f : FabBlk) (e : Nat) : List Nat :=
  (List.range 16).filter (fun d => d != e && (f.engine d).state != .available)
    ++ ((List.range' 1 15).map (fun i => (e + i) % 16)).filter (fun d => (f.engine d).state == .available)

/-- A thief examines its candidates; `tails` shows each deque's tail as it stood on this clock. A tail that another engine
has obtained on this clock is a collision, counted once for each engine that comes too late (03 R79). (DESIGN CHOICE, log 83) -/
def State.thiefTake (e : Nat) (tails : List (Nat × BRef)) : State → List Nat → State
  | s, [] => s
  | s, d :: l =>
    match tails.find? (fun x => x.1 == d) with
    | none => State.thiefTake e tails s l
    | some (_, b) =>
      if !(s.fab.engine d).deque.contains b then
        State.thiefTake e tails { s with fab := { s.fab with collCnt := Bits.inc s.fab.collCnt } } l
      else if s.quotaAdmits b.task then
        { s with fab := { s.fab with stealCnt := s.fab.stealCnt + 1#64 } }.takeFrom e d b
      else State.thiefTake e tails (s.quotaRefuse b.task) l

/-- The engines that examine on one fabric clock: owners take first, then thieves by index (03 R78, R79). -/
def State.examine (s : State) (es : List Nat) : State :=
  let idle := (List.range 16).filter (fun e => es.contains e && s.idleEngine e)
  let tails := (List.range 16).filterMap (fun d => (s.fab.engine d).deque.getLast?.map (fun b => (d, b)))
  let s := idle.foldl (fun s e => State.ownerTake e s [] (s.fab.engine e).deque) s
  (idle.filter (fun e => (s.fab.engine e).run.isNone)).foldl (fun s e => State.thiefTake e tails s (s.fab.candidates e)) s

/-- No billet of a task lies in a deque, in the release queue or with a reload any more. (DEDUCED, log 29) -/
def FabBlk.dropTask (f : FabBlk) (n : Nat) : FabBlk :=
  let keep := fun (l : List BRef) => l.filter (fun b => b.task != n)
  { f with queue := keep f.queue, reloads := f.reloads.map (fun e => (e.1, e.2.filter (fun b => b.2.task != n)))
           engines := Tbl.map {} (fun x => { x with deque := keep x.deque }) f.engines }

/-- A billet comes back to the tail of a deque, marked RERUN (03 R68, R81), unless its cycle has been abandoned (R98);
a full deque takes it as a 257th entry. (DESIGN CHOICE, log 82) -/
def State.returnBillet (s : State) (e : Nat) (b : BRef) : State :=
  match (s.task b.task).run with
  | some r =>
    if r.faulted then s
    else { s with fab := s.fab.setEngine e { s.fab.engine e with deque := (s.fab.engine e).deque ++ [{ b with rerun := true }] } }
  | none => s

/-- Engine use counts for a task (03 R88). -/
def State.addUse (s : State) (n us : Nat) : State :=
  s.modTask n (fun t => { t with run := t.run.map (fun r => { r with use := r.use + us }) })

/-- RESERVE_LOST is set when fewer than 14 engines count and before there were more (03 R85). -/
def State.setFab (s : State) (f : FabBlk) : State :=
  { s with fab := f }.setEventIf (!s.fab.reserveLost && f.reserveLost) .fab 3

/-- An engine whose billet ended while it was draining is drained (03 R68). -/
def Engine.settle (x : Engine) : Engine := if x.state = .draining ∧ x.run.isNone then { x with state := .drained } else x

/-- The billet that an engine runs has ended. -/
def State.freeEngine (s : State) (e : Nat) : State :=
  { s with fab := s.fab.setEngine e { s.fab.engine e with run := none }.settle }

/-- All engines let go of a module's tasks: power loss, module failure (02 R45). -/
def FabBlk.stopAll (f : FabBlk) : FabBlk :=
  { f with queue := [], reloads := [], engines := Tbl.map {} (fun x => Engine.settle { x with deque := [], run := none }) f.engines }

end Sys2Proof.Machine
end

