-- ==== Sys2Proof/Machine/Float.lean ====
section
/-! DEFINITION. Machine/Float.lean: IEEE 754 binary32 and binary64 with rounding to nearest, ties to even, subnormal numbers
and the canonical NaN (03 R97 *Arithmetic of billets*), for the arithmetic of billets and the conversions of 05 R156. -/
namespace Sys2Proof.Float

/-- A format: the widths of exponent and fraction. -/
structure Fmt where
  ew : Nat
  mw : Nat
deriving DecidableEq, Repr

def b32 : Fmt := { ew := 8, mw := 23 }
def b64 : Fmt := { ew := 11, mw := 52 }

/-- A value: a finite one is (−1)^neg × m × 2^e. -/
inductive Val where
  | nan
  | inf (neg : Bool)
  | fin (neg : Bool) (m : Nat) (e : Int)
deriving DecidableEq, Repr

def Fmt.bias (f : Fmt) : Int := 2 ^ (f.ew - 1) - 1
def Fmt.top (f : Fmt) : Nat := 2 ^ f.ew - 1

/-- The canonical quiet NaN. -/
def Fmt.nan (f : Fmt) : Nat := f.top * 2 ^ f.mw + 2 ^ (f.mw - 1)

def Fmt.sign (f : Fmt) (neg : Bool) : Nat := if neg then 2 ^ (f.ew + f.mw) else 0

/-- The value that a bit pattern spells. -/
def decode (f : Fmt) (n : Nat) : Val :=
  let neg := (n / 2 ^ (f.ew + f.mw)) % 2 == 1
  let ex := (n / 2 ^ f.mw) % 2 ^ f.ew
  let fr := n % 2 ^ f.mw
  if ex = f.top then (if fr = 0 then .inf neg else .nan)
  else if ex = 0 then .fin neg fr (1 - f.bias - f.mw)
  else .fin neg (2 ^ f.mw + fr) ((ex : Int) - f.bias - f.mw)

/-- m × 2^e in units of 2^q, rounded to nearest with ties to even. -/
def roundAt (m : Nat) (e q : Int) : Nat :=
  if q ≤ e then m * 2 ^ (e - q).toNat
  else
    let d := (q - e).toNat
    let n := m / 2 ^ d
    let r := m % 2 ^ d
    let half := 2 ^ (d - 1)
    if half < r ∨ (r = half ∧ n % 2 = 1) then n + 1 else n

/-- The bit pattern nearest to a value. -/
def encode (f : Fmt) : Val → Nat
  | .nan => f.nan
  | .inf neg => f.sign neg + f.top * 2 ^ f.mw
  | .fin neg m e =>
    if m = 0 then f.sign neg
    else
      let q0 := max (e + (Nat.log2 m : Int) - f.mw) (1 - f.bias - f.mw)
      let n0 := roundAt m e q0
      let n := if n0 = 2 ^ (f.mw + 1) then 2 ^ f.mw else n0
      let q := if n0 = 2 ^ (f.mw + 1) then q0 + 1 else q0
      if n < 2 ^ f.mw then f.sign neg + n
      else
        let ex := (q + f.mw + f.bias).toNat
        if f.top ≤ ex then f.sign neg + f.top * 2 ^ f.mw else f.sign neg + ex * 2 ^ f.mw + (n - 2 ^ f.mw)

/-- The exact product. -/
def mul : Val → Val → Val
  | .nan, _ => .nan
  | _, .nan => .nan
  | .inf a, .inf b => .inf (a != b)
  | .inf a, .fin b m _ => if m = 0 then .nan else .inf (a != b)
  | .fin a m _, .inf b => if m = 0 then .nan else .inf (a != b)
  | .fin a m e, .fin b n g => .fin (a != b) (m * n) (e + g)

/-- The exact sum. -/
def add : Val → Val → Val
  | .nan, _ => .nan
  | _, .nan => .nan
  | .inf a, .inf b => if a = b then .inf a else .nan
  | .inf a, .fin _ _ _ => .inf a
  | .fin _ _ _, .inf b => .inf b
  | .fin a m e, .fin b n g =>
    let q := min e g
    let x : Int := (if a then -1 else 1) * (m * 2 ^ (e - q).toNat : Nat)
    let y : Int := (if b then -1 else 1) * (n * 2 ^ (g - q).toNat : Nat)
    let z := x + y
    if z = 0 then .fin (a && b) 0 0 else .fin (decide (z < 0)) z.natAbs q

/-- The value with its sign turned. -/
def neg : Val → Val
  | .nan => .nan
  | .inf a => .inf (!a)
  | .fin a m e => .fin (!a) m e

/-- The exact difference. -/
def sub (x y : Val) : Val := add x (neg y)

/-- The quotient of two positive numbers to enough places for a format, with a last place that says whether more follow: it
rounds as the exact quotient does. -/
def quotient (f : Fmt) (m n : Nat) : Nat × Int :=
  let k := f.mw + 3 + Nat.log2 n
  let q := m * 2 ^ k / n
  (2 * q + (if m * 2 ^ k % n = 0 then 0 else 1), -(k : Int) - 1)

/-- The quotient, for rounding to a format. -/
def div (f : Fmt) : Val → Val → Val
  | .nan, _ => .nan
  | _, .nan => .nan
  | .inf _, .inf _ => .nan
  | .inf a, .fin b _ _ => .inf (a != b)
  | .fin a _ _, .inf b => .fin (a != b) 0 0
  | .fin a m e, .fin b n g =>
    if n = 0 then (if m = 0 then .nan else .inf (a != b))
    else let q := quotient f m n; .fin (a != b) q.1 (e - g + q.2)

/-- Order: a NaN is neither less than nor equal to anything. -/
def lt (x y : Val) : Bool :=
  match x, y with
  | .nan, _ => false
  | _, .nan => false
  | .inf a, .inf b => a && !b
  | .inf a, .fin _ _ _ => a
  | .fin _ _ _, .inf b => !b
  | .fin a m e, .fin b n g =>
    let q := min e g
    let i : Int := (if a then -1 else 1) * (m * 2 ^ (e - q).toNat : Nat)
    let j : Int := (if b then -1 else 1) * (n * 2 ^ (g - q).toNat : Nat)
    decide (i < j)

def eq (x y : Val) : Bool := x != .nan && y != .nan && !lt x y && !lt y x

/-- An integer as a value. -/
def ofInt (i : Int) : Val := .fin (decide (i < 0)) i.natAbs 0

/-- Conversion to an integer between two limits: towards zero, saturating, NaN to 0. -/
def toInt (lo hi : Int) : Val → Int
  | .nan => 0
  | .inf neg => if neg then lo else hi
  | .fin neg m e =>
    let n : Nat := if 0 ≤ e then m * 2 ^ e.toNat else m / 2 ^ (-e).toNat
    max lo (min hi (if neg then -(n : Int) else n))

/-- A value rounded to a format. -/
def round (f : Fmt) (v : Val) : Val := decode f (encode f v)

end Sys2Proof.Float
end

