-- ==== Sys2Proof/Machine/Billet.lean ====
section
/-! DEFINITION. Machine/Billet.lean: what a billet computes: the arithmetic of 03 R97, the local copies that its load takes
(R72), its write buffer (R73), and so the burst that it retires with (R74, R96). (DESIGN CHOICE, log 19) -/
namespace Sys2Proof.Machine

/-- The integer that the low bytes of a register hold. -/
def regInt (signed : Bool) (bytes : Nat) (d : DWord) : Int :=
  let n := d.toNat % 2 ^ (8 * bytes)
  if signed && decide (2 ^ (8 * bytes - 1) ≤ n) then (n : Int) - (2 ^ (8 * bytes) : Nat) else n

/-- An integer in the low bytes of a register, wrapped in two's complement (03 R97). -/
def intReg (bytes : Nat) (i : Int) : DWord := BitVec.ofNat 64 (i % ((2 ^ (8 * bytes) : Nat) : Int)).toNat

/-- The format of a floating-point operation. -/
def FWidth.fmt : FWidth → Float.Fmt
  | .single => Float.b32
  | .double => Float.b64

/-- The value that a register holds in a format, and a value rounded into a register. -/
def FWidth.val (w : FWidth) (d : DWord) : Float.Val := Float.decode w.fmt (d.toNat % 2 ^ (w.fmt.ew + w.fmt.mw + 1))
def FWidth.reg (w : FWidth) (v : Float.Val) : DWord := BitVec.ofNat 64 (Float.encode w.fmt v)

/-- A truth value as a register. -/
def flagReg (b : Bool) : DWord := if b then 1#64 else 0#64

/-- The result of an operation on two registers (03 R97 *Arithmetic of billets*). Division by zero gives quotient 0 and the
dividend as remainder; signed division truncates towards zero. -/
def Arith.eval (o : Arith) (a b : DWord) : DWord :=
  match o with
  | .add n => intReg n (regInt false n a + regInt false n b)
  | .sub n => intReg n (regInt false n a - regInt false n b)
  | .mul n => intReg n (regInt false n a * regInt false n b)
  | .quot sg n => intReg n (Int.tdiv (regInt sg n a) (regInt sg n b))
  | .rem sg n => intReg n (Int.tmod (regInt sg n a) (regInt sg n b))
  | .and => a &&& b
  | .or => a ||| b
  | .xor => a ^^^ b
  | .shl n => intReg n (regInt false n a * (2 ^ min b.toNat 64 : Nat))
  | .shr sg n => intReg n (regInt sg n a / ((2 ^ min b.toNat 64 : Nat) : Int))
  | .eq => flagReg (a == b)
  | .lt sg n => flagReg (decide (regInt sg n a < regInt sg n b))
  | .fadd w => w.reg (Float.add (w.val a) (w.val b))
  | .fsub w => w.reg (Float.sub (w.val a) (w.val b))
  | .fmul w => w.reg (Float.mul (w.val a) (w.val b))
  | .fdiv w => w.reg (Float.div w.fmt (w.val a) (w.val b))
  | .flt w => flagReg (Float.lt (w.val a) (w.val b))
  | .feq w => flagReg (Float.eq (w.val a) (w.val b))
  | .toInt w sg n =>
    let hi : Int := if sg then (2 ^ (8 * n - 1) : Nat) - 1 else (2 ^ (8 * n) : Nat) - 1
    let lo : Int := if sg then -(2 ^ (8 * n - 1) : Nat) else 0
    intReg n (Float.toInt lo hi (w.val a))
  | .ofInt sg n w => w.reg (Float.ofInt (regInt sg n a))
  | .cvt w v => v.reg (w.val a)

/-! The run of a billet on its local copies. -/

/-- What a billet holds while it runs: registers by number, and the write buffer (03 R73). -/
structure BRun where
  regs : Tbl DWord := []
  buf  : Tbl (Option Byte) := []
deriving DecidableEq, Repr

/-- How a run ends: with the burst of its write buffer, or with a billet fault of a kind at an address. -/
inductive BEnd where
  | done (burst : List (Nat × Byte))
  | fault (kind : Nat) (addr : Word)
deriving DecidableEq, Repr

def BRun.reg (x : BRun) (r : Nat) : DWord := Tbl.get 0#64 x.regs r
def BRun.put (x : BRun) (r : Nat) (v : DWord) : BRun := { x with regs := Tbl.set 0#64 x.regs r v }

/-- The byte of a loaded range at an address. -/
def LocalMem.byte (m : LocalMem) (sp : MemSpace) (a : Nat) : Option Byte :=
  match m.data.find? (fun r => r.space == sp && decide (r.off ≤ a) && decide (a < r.off + r.bytes.length)) with
  | some r => r.bytes[a - r.off]?
  | none => none

/-- A byte as the billet reads it: a byte of the draft that it has written reads as its last buffered write (03 R73). -/
def BRun.byte (x : BRun) (m : LocalMem) (sp : MemSpace) (a : Nat) : Option Byte :=
  match if sp = .draft then Tbl.get none x.buf a else none with
  | some b => some b
  | none => m.byte sp a

/-- A little-endian read of `n` bytes; the first address that cannot be read is READ_OUTSIDE (03 R72, R73). -/
def BRun.read (x : BRun) (m : LocalMem) (sp : MemSpace) (a : Nat) : Nat → Except Nat (List Byte)
  | 0 => .ok []
  | n + 1 =>
    match x.byte m sp a with
    | none => .error a
    | some b => match BRun.read x m sp (a + 1) n with
      | .ok l => .ok (b :: l)
      | .error e => .error e

/-- Does an address lie in the write set? -/
def Billet.maps (b : Billet) (a : Nat) : Bool := b.writes.any (fun sp => decide (sp.off ≤ a) && decide (a < sp.off + sp.len))

/-- The first address of a write that lies outside the write set, which is WRITE_OUTSIDE (03 R73). -/
def Billet.outside (b : Billet) (a n : Nat) : Option Nat := ((List.range n).map (a + ·)).find? (fun x => !b.maps x)

/-- A buffered write. -/
def BRun.write (x : BRun) (a : Nat) (l : List Byte) : BRun :=
  { x with buf := (l.zip (List.range l.length)).foldl (fun t e => Tbl.set none t (a + e.2) (some e.1)) x.buf }

/-- The burst: every byte written, by its address (03 R74). -/
def BRun.burst (x : BRun) : List (Nat × Byte) := x.buf.filterMap (fun e => e.2.map (fun v => (e.1, v)))

/-- The run of a billet's instructions, `pc` counting them and `skip` those that a jump passes over. -/
def Billet.steps (b : Billet) (m : LocalMem) : List BOp → Nat → Nat → BRun → BEnd
  | [], _, _, x => .done x.burst
  | _ :: l, k + 1, pc, x => Billet.steps b m l k (pc + 1) x
  | o :: l, 0, pc, x =>
    match o with
    | .lit d v => Billet.steps b m l 0 (pc + 1) (x.put d v)
    | .arith f d i j => Billet.steps b m l 0 (pc + 1) (x.put d (f.eval (x.reg i) (x.reg j)))
    | .deltaT d => Billet.steps b m l 0 (pc + 1) (x.put d (BitVec.ofNat 64 m.deltaT))
    | .csw d => Billet.steps b m l 0 (pc + 1) (x.put d (m.csw.setWidth 64))
    | .load d sp a n =>
      match x.read m sp a n with
      | .ok bs => Billet.steps b m l 0 (pc + 1) (x.put d (BitVec.ofNat 64 (Bits.leNat bs)))
      | .error e => .fault 2 (BitVec.ofNat 32 e)
    | .store a n i =>
      match b.outside a n with
      | none => Billet.steps b m l 0 (pc + 1) (x.write a (Bits.natBytes n (x.reg i).toNat))
      | some e => .fault 1 (BitVec.ofNat 32 e)
    | .skipIf i k => Billet.steps b m l (if x.reg i == 0#64 then 0 else k) (pc + 1) x
    | .bad => .fault 3 (BitVec.ofNat 32 (b.codeOff + pc))

/-- How the run of a billet on its local copies ends; a run starts with an empty write buffer (03 R73). -/
def Billet.run (b : Billet) (m : LocalMem) : BEnd := Billet.steps b m m.code 0 0 {}

/-! The load (03 R72). -/

/-- The program that a task runs. -/
def State.progOf (s : State) (n : Nat) : Program :=
  match s.xch.pkg with
  | some p => if s.onNew n then p.prog else s.cfg.prog.getD {}
  | none => s.cfg.prog.getD {}

/-- The input image of a cycle: each member's quality code and its bytes, in the order of the input set (log 19). -/
def CycleRun.inputImage (r : CycleRun) : List Byte := r.inputs.flatMap (fun v => BitVec.ofNat 8 v.q :: v.bytes)

/-- The bytes of a published variable as the cycle has taken them at its T0 (02 R34). -/
def CycleRun.published (r : CycleRun) (ins : List InKind) (m : Nat) (sp : Span) : List Byte :=
  match (ins.zip r.inputs).find? (fun e => match e.1 with
      | .pub t q => t == m && decide (q.off ≤ sp.off) && decide (sp.off + sp.len ≤ q.off + q.len) | _ => false) with
  | some (.pub _ q, v) => (v.bytes.drop (sp.off - q.off)).take sp.len
  | _ => []

/-- The bytes of a read-set range as the load finds them. -/
def State.rangeBytes (s : State) (n : Nat) (r : CycleRun) (sp : MemSpace) (g : Span) : List Byte :=
  match sp with
  | .input => (r.inputImage.drop g.off).take g.len
  | .published m => r.published (s.progTask n).inputs m g
  | .const => Tbl.getList 0#8 (s.progOf n).consts g.off g.len
  | .draft => Tbl.getList 0#8 (s.task n).draft g.off g.len

/-- The load of a billet: its code and every range of its read set, copied into the engine's local memories. -/
def State.loadLocal (s : State) (n : Nat) (b : Billet) : LocalMem :=
  match (s.task n).run with
  | none => { code := b.ops }
  | some r =>
    { code := b.ops, data := b.reads.map (fun e => { space := e.1, off := e.2.off, bytes := s.rangeBytes n r e.1 e.2 })
      deltaT := (s.task n).deltaT, csw := (s.task n).csw }

end Sys2Proof.Machine
end

