-- ==== Sys2Proof/Machine/Carry.lean ====
section
/-! DEFINITION. Machine/Carry.lean: the carry of a committed image into the layout of another program, and the checks of an
image and of a package (05 R146, R153-R156, 03 R69, R70). -/
namespace Sys2Proof.Machine

/-- The limits of an integer type. -/
def VType.limits : VType → Int × Int
  | .int true n => (-(2 ^ (8 * n - 1) : Nat), (2 ^ (8 * n - 1) : Nat) - 1)
  | .int false n => (0, (2 ^ (8 * n) : Nat) - 1)
  | _ => (0, 0)

/-- The integer that little-endian bytes spell. -/
def intOf (signed : Bool) (bs : List Byte) : Int :=
  let n := Bits.leNat bs
  if signed && decide (2 ^ (8 * bs.length - 1) ≤ n) then (n : Int) - (2 ^ (8 * bs.length) : Nat) else n

/-- An integer in a number of little-endian bytes, two's complement. -/
def intBytes (n : Nat) (i : Int) : List Byte := Bits.natBytes n (i % ((2 ^ (8 * n) : Nat) : Int)).toNat

def fmtOf (bytes : Nat) : Float.Fmt := if bytes = 8 then Float.b64 else Float.b32

/-- The number that the bytes of a variable hold. -/
def VType.val (t : VType) (bs : List Byte) : Float.Val :=
  match t with
  | .int sg _ => Float.ofInt (intOf sg bs)
  | .real n => Float.decode (fmtOf n) (Bits.leNat bs)
  | .raw => .nan

/-- A number in the bytes of a type: rounded to nearest for a real, towards zero and saturating for an integer (03 R97). -/
def VType.put (t : VType) (v : Float.Val) : List Byte :=
  match t with
  | .int _ n => intBytes n (Float.toInt t.limits.1 t.limits.2 v)
  | .real n => Bits.natBytes n (Float.encode (fmtOf n) v)
  | .raw => []

def VType.signed : VType → Bool
  | .int sg _ => sg | _ => false
def VType.bytes (t : VType) (len : Nat) : Nat :=
  match t with
  | .int _ n => n | .real n => n | .raw => len

/-- a × x + b in binary64, the product rounded before the sum (05 *Conversion rules* 0x5). -/
def linear (a b : DWord) (x : Float.Val) : Float.Val :=
  let r := Float.round Float.b64
  r (Float.add (r (Float.mul (Float.decode Float.b64 a.toNat) (r x))) (Float.decode Float.b64 b.toNat))

/-- The elements of an array at indices common to both bounds keep their values, the others take their initial ones. -/
def resized (elem : Nat) (srcLo : Int) (srcN : Nat) (dstLo : Int) : Nat → List Byte → List Byte → List Byte
  | 0, _, _ => []
  | n + 1, src, init =>
    let i := dstLo - srcLo
    let e := if 0 ≤ i ∧ i < srcN then (src.drop (i.toNat * elem)).take elem else init.take elem
    e ++ resized elem srcLo srcN (dstLo + 1) n src (init.drop elem)

/-- Is the type the same on both sides? -/
def CarryItem.sameType (c : CarryItem) : Bool := c.srcTy == c.dstTy && c.src.len == c.dst.len

/-- Does an element of another type lack a conversion rule (05 R146)? -/
def CarryItem.noRule (c : CarryItem) : Bool := !c.sameType && (c.rule == none || c.rule == some .copy)

/-- One element of the new image from its source and its declared initial bytes (05 R156). -/
def CarryItem.value (c : CarryItem) (src init : List Byte) : List Byte :=
  match c.rule with
  | none => if c.sameType then src else init
  | some .copy => src
  | some .widen => intBytes (c.dstTy.bytes c.dst.len) (intOf c.srcTy.signed src)
  | some .narrow => intBytes (c.dstTy.bytes c.dst.len) (max c.dstTy.limits.1 (min c.dstTy.limits.2 (intOf c.srcTy.signed src)))
  | some .intToReal => c.dstTy.put (c.srcTy.val src)
  | some .realToInt => c.dstTy.put (c.srcTy.val src)
  | some (.linear a b) => c.dstTy.put (linear a b (c.srcTy.val src))
  | some (.resize elem srcLo srcN dstLo dstN) => resized elem srcLo srcN dstLo dstN src init
  | some (.remap l) =>
    match l.find? (fun e => e.1 == Bits.leNat src) with
    | some (_, v) => Bits.natBytes c.dst.len v
    | none => init
  | some .initial => init

/-- Does an element change its form on the way? -/
def CarryItem.converts (c : CarryItem) : Bool := c.rule != some .copy && c.rule != none

/-- A task's image in the new layout, from the committed images of the old program (05 R154). -/
def Package.carryTask (p : Package) (images : Nat → Tbl Byte) (m : Nat) : Tbl Byte :=
  let init := (Tbl.get {} p.prog.tasks m).init
  (p.carry.items.filter (fun c => c.dstTask == m)).foldl (fun img c =>
    let src := Tbl.getList 0#8 (images c.srcTask) c.src.off c.src.len
    Tbl.setList 0#8 img c.dst.off ((c.value src (Tbl.getList 0#8 init c.dst.off c.dst.len)).take c.dst.len)) init

/-! The structure of an image (03 R69, R70). -/

def spanBytes (l : List Span) : Nat := l.foldl (fun n sp => n + sp.len) 0
def Span.overlaps (a b : Span) : Bool := decide (a.off < b.off + b.len) && decide (b.off < a.off + a.len) && a.len != 0 && b.len != 0

/-- A billet within its limits, with predecessors in its own task alone. -/
def Billet.within (task : Nat) (b : Billet) : Bool :=
  decide (b.num < 4096) && decide (b.home < 16) && decide (b.wcet ≤ 200) && decide (b.codeLen ≤ 32768)
    && decide (b.reads.length ≤ 32) && decide (spanBytes (b.reads.map Prod.snd) ≤ 24576)
    && decide (b.writes.length ≤ 32) && decide (spanBytes b.writes ≤ 16384)
    && decide (b.preds.length ≤ 64) && b.preds.all (fun p => p.1 == task)

/-- The billets that can run once those of a list have: one round of releasing a task's billets. -/
def ranAfter (l : List Billet) (ran : List Nat) : List Nat :=
  (l.filter (fun b => b.preds.all (fun p => ran.contains p.2))).map Billet.num

def ranRounds (l : List Billet) : Nat → List Nat → List Nat
  | 0, ran => ran
  | k + 1, ran => ranRounds l k (ranAfter l ran)

/-- The predecessors of a billet, direct and through others, after `k` rounds. -/
def ancestors (l : List Billet) : Nat → List Nat → List Nat
  | 0, a => a
  | k + 1, a =>
    ancestors l k (a ++ ((l.filter (fun b => a.contains b.num)).flatMap (fun b => b.preds.map Prod.snd)).filter (fun p => !a.contains p))

/-- The checks of one task of an image. -/
def TaskProg.structureOk (task : Nat) (p : TaskProg) : Bool :=
  let l := p.billets
  l.all (Billet.within task)
    && l.all (fun b => (l.filter (fun c => c.num == b.num)).length == 1)
    && l.all (fun b => l.all (fun c => b.num == c.num || b.writes.all (fun x => c.writes.all (fun y => !x.overlaps y))))
    && l.all (fun b => (ranRounds l l.length []).contains b.num)
    && l.all (fun b => l.all (fun c => b.num == c.num
      || !b.reads.any (fun r => r.1 == .draft && c.writes.any (fun w => r.2.overlaps w))
      || (ancestors l l.length (b.preds.map Prod.snd)).contains c.num))

/-- The DIO that the program's slots act on. -/
def Program.slotDio (p : Program) : List Nat :=
  (p.slots.filter (fun x => x.action == 1 || x.action == 2 || x.action == 3)).map SlotDecl.target

/-- The SO that the program's slots act on. -/
def Program.slotSo (p : Program) : List Nat :=
  (p.slots.filter (fun x => x.action == 4 || x.action == 5)).map SlotDecl.target

/-- The checks of an image against the stream contexts and the tasks of a configuration (07 R203). -/
def Program.streamsOk (p : Program) (c : StationCfg) : Bool :=
  let ctx : Nat → StreamCtx := fun n => { cfg := Tbl.get [] c.ctxs n }
  c.ctxs.all (fun e =>
      let x : StreamCtx := { cfg := e.2 }
      let t := Tbl.get {} c.tasks x.task
      !x.valid || x.receive || x.slotLaunch || !p.tasks.any (fun q => q.1 == x.task) || !t.configured
        || (t.kind == 1 && decide (x.offset < t.ticks * 1000)))
    && p.slots.all (fun x => x.action != 6 || ((ctx x.target).valid && !(ctx x.target).receive && (ctx x.target).slotLaunch))

/-- Do the transmit contexts that lane P writes carry 16 bytes (10 R310)? -/
def StationCfg.brakeOk (c : StationCfg) (l : List (Nat × Nat)) : Bool :=
  l.all (fun e => let x : StreamCtx := { cfg := Tbl.get [] c.ctxs e.1 }; !x.valid || x.length == 16)

/-- The checks of an image against the contexts that lane P writes (10 R310). -/
def Program.brakeOk (p : Program) (l : List (Nat × Nat)) : Bool :=
  p.tasks.all (fun t => t.2.outputs.all (fun o => l.all (fun e => o.kind != .stream e.1)))

/-- The checks of an image (02 R39, 03 R66, R69, R70, 06 R182, 10 R319). -/
def Program.structureOk (p : Program) : Bool :=
  let outs := p.tasks.flatMap (fun e => e.2.outputs.map OutMember.kind)
  p.tasks.all (fun e => e.2.structureOk e.1)
    && decide ((p.tasks.foldl (fun n e => n + e.2.billets.length) 0) ≤ 16384)
    && p.slotDio.all (fun c => !outs.contains (.dio c)) && p.slotSo.all (fun c => !outs.contains (.so c))
    && p.slots.all (fun x => !(x.every && x.dir == 2))
    && decide (outs.filter (fun o => o != .pub)).Nodup && decide (p.code ≤ 12 * 1048576)

/-- The bytes of an image. -/
def Program.imageSize (p : Program) : Nat := p.tasks.foldl (fun n e => n + e.2.size) 0

def mib : Nat := 1048576

/-- The staging checks in their order (05 R146): the reason, 0 when every check passes. -/
def State.stagingReason (s : State) (p : Package) (signer : Option Nat) : Nat :=
  let cfg := p.cfg.getD s.cfg.cur
  if !(match signer with | some k => s.cfg.keyStore.imageKeys.contains k | none => false) then 1
  else if 255 * mib < p.prog.imageSize then 2
  else if !p.prog.structureOk || !p.prog.streamsOk cfg || !p.prog.brakeOk s.safe.brakeCtxs || !cfg.brakeOk s.safe.brakeCtxs then 3
  else if !(match p.prog.proof with | some f => f.passes cfg.tasks cfg.cyc | none => false) then 4
  else if p.base ≠ (match s.cfg.prog with | some g => g.hash | none => []) then 5
  else if p.carry.items.any CarryItem.noRule then 6
  else if !(match p.proof with | some l => p.prog.tasks.all (fun e => l.contains e.1) | none => false) then 7
  else 0

end Sys2Proof.Machine
end

