-- ==== Sys2Proof/Machine/HostOps.lean ====
section
/-! DEFINITION. Machine/HostOps.lean: completing a descriptor to the ring or the maintenance session it came from
(14 R400-R412, 15 R441). -/
namespace Sys2Proof.Machine

/-- The completion statuses (14 *Completion status*). -/
def stOk : Nat := 0
def stRefused : Nat := 1
def stBadOpcode : Nat := 2
def stBadParam : Nat := 3
def stBadAddress : Nat := 4
def stNotLead : Nat := 5
def stTakeoverAbort : Nat := 6
def stBusy : Nat := 7
def stAborted : Nat := 8

/-- The completion ring that a submission ring is bound to (HOST_SQn_CFG [18:16]). -/
def SubRing.bound (q : SubRing) : Nat := Bits.get q.cfg 16 3

def HostBlk.sq (h : HostBlk) (n : Nat) : SubRing := Tbl.get {} h.sqs n
def HostBlk.cq (h : HostBlk) (n : Nat) : OutRing := Tbl.get {} h.cqs n
def HostBlk.setSq (h : HostBlk) (n : Nat) (q : SubRing) : HostBlk := { h with sqs := Tbl.set {} h.sqs n q }
def HostBlk.setCq (h : HostBlk) (n : Nat) (q : OutRing) : HostBlk := { h with cqs := Tbl.set {} h.cqs n q }

/-- Take the first element that a test picks out of a list. -/
def takeFirst {α : Type} (p : α → Bool) : List α → Option (α × List α)
  | [] => none
  | a :: l => if p a then some (a, l) else (takeFirst p l).map (fun e => (e.1, a :: e.2))

/-- Write a completion into its ring while the ring is ENABLED (14 R399, R403, R415). -/
def HostBlk.cqPut (h : HostBlk) (cq : Nat) (c : Completion) : HostBlk :=
  let q := h.cq cq
  if q.state ≠ .enabled then h
  else
    let o := HostOut.completion cq (q.addr q.tail) q.phase c
    let p := q.advance.pend c.time.toNat
    let h1 := (h.setCq cq p.1).emit o
    if p.2 then h1.interrupt p.1.vector else h1

/-- The descriptors taken from a ring that belong to a command. (DESIGN CHOICE, log 64) -/
def Taken.isFor (t : Taken) (sq : Nat) (tag : Word) : Bool := t.sq == sq && t.desc.tag == tag

/-- Complete the descriptor of a host command; a module that has failed writes no completion (14 R420).
(DESIGN CHOICE, log 64) -/
def State.completeHost (s : State) (sq : Nat) (tag : Word) (status detail : Nat) (cycle : DWord) (result : List Byte) :
    State :=
  if s.mod.failed then s
  else match takeFirst (fun t => t.isFor sq tag) s.host.taken with
  | none => s
  | some (t, rest) =>
    let c : Completion := { tag := tag, opcode := t.desc.opcode, status := status, detail := detail, sq := sq
                            sqHead := (s.host.sq sq).head, time := s.detectNs, cycle := cycle, result := result }
    { s with host := ({ s.host with taken := rest } : HostBlk).cqPut (s.host.sq sq).bound c, free := s.free + 1 }

/-- Complete the COMMAND message of a maintenance command (15 R441). -/
def State.completeMnt (s : State) (tag : Word) (status detail : Nat) (cycle : DWord) (result : List Byte) : State :=
  match takeFirst (fun (c : MntCmd) => c.desc.tag == tag) s.mnt.cmds with
  | none => s
  | some (c, rest) =>
    let o := MntOut.completion tag c.desc.opcode status detail cycle result
    let sent := if s.mnt.session.isSome then s.mnt.sent ++ [o] else s.mnt.sent
    { s with mnt := { s.mnt with cmds := rest, sent := sent } }

/-- A command ends: its completion goes where it came from (14 R412). -/
def State.complete (s : State) (o : Origin) (status detail : Nat) (cycle : DWord) (result : List Byte) : State :=
  match o with
  | .host sq tag => s.completeHost sq tag status detail cycle result
  | .maint tag => s.completeMnt tag status detail cycle result
  | .partner => s
  | .self => s

/-- A command ends with nothing to say but its status and detail. -/
def State.finish (s : State) (o : Origin) (status detail : Nat) : State := s.complete o status detail 0#64 []

/-- A command has been passed to its unit and will end later (14 R403). -/
def State.passed (s : State) (o : Origin) : State :=
  match o with
  | .host sq tag =>
    { s with host := { s.host with taken := s.host.taken.map (fun t => if t.isFor sq tag then { t with passed := true } else t) } }
  | .maint tag =>
    { s with mnt := { s.mnt with cmds := s.mnt.cmds.map (fun c => if c.desc.tag == tag then { c with passed := true } else c) } }
  | _ => s

end Sys2Proof.Machine
end

