-- ==== Sys2Proof/Machine/Safe.lean ====
section
/-! DEFINITION. Machine/Safe.lean: the safety lanes: demands, functions, discrepancy, reset, escalation, feedback, brake
test, output tests and faults (10 R290-R323, 01 R20). -/
namespace Sys2Proof.Machine

def Safe.modFn (x : Safe) (f : Nat) (g : FnState → FnState) : Safe := x.setFn f (g (x.getFn f))
def Safe.modSo (x : Safe) (n : Nat) (g : So → So) : Safe := x.setSo n (g (x.getSo n))
def Safe.modSip (x : Safe) (p : Nat) (g : SipPair → SipPair) : Safe := x.setSip p (g (x.getSip p))

/-- What a test of an SO gives way to: its permission, LS+, lane H's demand and the program request (10 R314). -/
def Safe.testKey (x : Safe) (now n : Nat) : Bool × Bool × Bool × Bool :=
  (x.permits n, x.lsOk, x.hDemand now n, (x.getSo n).requested)

/-- One output after a change of the cell: a demand ends its test with PREEMPTED counted (10 R314); the high side closes when
lane P may have it closed and no feedback bars it, and an opened one loses its hold (10 R302, R307, R308). -/
def Safe.settleSo (old : Safe) (now : Nat) (x : Safe) (n : Nat) : Safe :=
  let pre := (x.getSo n).test.isSome && old.testKey now n != x.testKey now n
  let x := if pre then { x.modSo n (fun o => { o with test := none }) with preempted := Bits.sat 16 x.preempted 1 } else x
  let on := if !x.hsMay n then none else match (x.getSo n).onNs with
    | some t => some t
    | none => if x.feedbackBars n then none else some now
  let shut := if !x.holdsOpen n then none else some ((x.getSo n).openNs.getD now)
  x.modSo n (fun o => { o with onNs := on, openNs := shut, held := o.held && on.isSome })

/-- What lane P times of a function after a change of the cell (10 R303, R307, R309). -/
def Safe.timeFn (x : Safe) (now : Nat) (e : FnEntry) (v : FnState) : FnState :=
  let on := (List.range 8).any (fun n => e.so n && (x.getSo n).terminal)
  let level := (x.getFb e.fb).level
  let off := !on && (v.phase == .demanded || v.phase == .awaitReset)
  { v with on := on, swNs := if on == v.on then v.swNs else now
           fbSeen := (on == v.on && v.fbSeen) || level != on
           openNs := if !on && level then some (v.openNs.getD now) else none
           offNs := if off then some (v.offNs.getD now) else none }

/-- The cell after a change. -/
def Safe.settle (old : Safe) (now : Nat) (x : Safe) : Safe :=
  let y := (List.range 8).foldl (Safe.settleSo old now) x
  y.valid.foldl (fun y e => y.modFn e.1 (y.timeFn now e.2)) y

/-- Put a changed safety cell in place. -/
def State.setSafe (s : State) (x : Safe) : State := { s with safe := Safe.settle s.safe s.nowNs x }

/-- A function enters DEMANDED: counted and recorded with its cause (10 R303). -/
def State.fnTrip (s : State) (f : Nat) (c : FnCause) : State :=
  let x := { s.safe.modFn f (fun v => { v with phase := .demanded, cause := c }) with tripCnt := Bits.inc s.safe.tripCnt }
  (s.setSafe x).recordEvent .safe 0 f (x.fnWord f)

/-- A demand reaches a function (10 *Function states*). -/
def State.fnDemand (s : State) (f : Nat) (c : FnCause) : State :=
  match (s.safe.getFn f).phase with
  | .active =>
    if (s.safe.entry f).type = .timedStop then
      s.setSafe (s.safe.modFn f (fun v => { v with phase := .timing, cause := c, timingNs := s.nowNs }))
    else s.fnTrip f c
  | .awaitReset => s.fnTrip f c
  | _ => s

/-- Lane P takes every demand that now stands to the functions it concerns (10 R303). -/
def State.evalDemands (s : State) : State :=
  if !s.safe.laneP then s
  else s.safe.valid.foldl (fun s e =>
    match s.safe.fnDemand e.2 with
    | some c => s.fnDemand e.1 c
    | none => s) s

/-- A running brake test ends without a verdict: TORQUE 0 with ABORT, it counts as not run (10 R311). -/
def State.brakeAbort (s : State) (f : Nat) (why : BrakeEnd) (slip : Word) : State :=
  if (s.safe.getFn f).running then
    let r := match why with | .aborted => BrakeResult.aborted | .inconclusive => .inconclusive
    let s := s.setSafe (s.safe.modFn f (fun v => { v with running := false, abort := true, result := r, slip := slip }))
    s.recordEvent .safe 5 f slip
  else s

/-- A function goes to ACTIVE: a brake test of it is aborted (10 R303, R311). -/
def State.fnActive (s : State) (f : Nat) : State :=
  let s := s.brakeAbort f .aborted (s.safe.getFn f).slip
  s.setSafe (s.safe.modFn f (fun v => { v with phase := .active, cause := .none }))

/-- Does the feedback of an EDM function not show open? -/
def Safe.edmShut (x : Safe) (e : FnEntry) : Bool := e.type == .edm && e.fbEn && !(x.getFb e.fb).level

/-- A function whose every demand is withdrawn (10 *Function states*, R307). -/
def State.fnWithdraw (s : State) (f : Nat) (e : FnEntry) : State :=
  if (s.safe.getFn f).phase ≠ .demanded || (s.safe.fnDemand e).isSome || s.safe.feedbackHolds e then s
  else if e.manual then s.setSafe (s.safe.modFn f (fun v => { v with phase := .awaitReset }))
  else if s.safe.edmShut e then s
  else s.fnActive f

/-- Lane P looks for functions whose demands have gone (10 R303). -/
def State.evalWithdrawn (s : State) : State :=
  if !s.safe.laneP then s else s.safe.valid.foldl (fun s e => s.fnWithdraw e.1 e.2) s

/-- A fault of a function (10 *Function faults*). -/
def State.fnFault (s : State) (f : Nat) (c : FnCause) : State :=
  if (s.safe.getFn f).phase = .unused then s
  else s.setSafe (s.safe.modFn f (fun v =>
    { v with phase := .faulted, cause := c, faults := c :: v.faults.filter (fun d => d != c) }))

/-- The clearing condition of a fault is met; with the last one the function goes to AWAIT_RESET (10 *Function states*). -/
def State.fnClear (s : State) (f : Nat) (c : FnCause) : State :=
  let v := s.safe.getFn f
  let l := v.faults.filter (fun d => d != c)
  if v.phase = .faulted && v.faults.contains c then
    s.setSafe (s.safe.modFn f (fun v => { v with faults := l, phase := if l.isEmpty then .awaitReset else .faulted }))
  else s

/-- Fault, or clear a fault of, every valid function that a test selects. -/
def State.fnFaultAll (s : State) (sel : FnEntry → Bool) (c : FnCause) : State :=
  (s.safe.valid.filter (fun e => sel e.2)).foldl (fun s e => s.fnFault e.1 c) s
def State.fnClearAll (s : State) (sel : FnEntry → Bool) (c : FnCause) : State :=
  (s.safe.valid.filter (fun e => sel e.2)).foldl (fun s e => s.fnClear e.1 c) s

/-- The bit of SAFE_EVENT that an output diagnostic sets; a stuck freewheel switch has none of its own (log 9). -/
def SoDiag.bit : SoDiag → Nat
  | .overload => 11 | .openLoad => 12 | .hsStuck => 8 | .lsStuck => 8 | .fwStuck => 8 | .xtlFault => 9
  | .closureFail => 10 | .lsSupply => 13 | .escalated => 7

def So.raise (x : SoDiag) (o : So) : So :=
  if o.active.contains x then o else { o with active := x :: o.active, lastDiag := some x }
def So.clear (x : SoDiag) (o : So) : So := { o with active := o.active.filter (fun y => y != x) }

/-- Is the diagnostic a latched switch fault (10 R315, R317)? -/
def SoDiag.latched : SoDiag → Bool
  | .hsStuck | .lsStuck | .closureFail => true
  | _ => false

/-- Detect an output diagnostic: raised and reported once (10 R316, R323). -/
def State.soRaise (s : State) (n : Nat) (d : SoDiag) : State :=
  let o := s.safe.getSo n
  if o.active.contains d then s
  else
    let t := if d.latched && o.faultNs.isNone then some s.nowNs else o.faultNs
    let x := s.safe.modSo n (fun o => { So.raise d o with faultNs := t })
    let s := s.setSafe x
    s.report .safe d.bit n (s.safe.soStatus s.nowNs n)

/-- XTL_ARM (01 R20): driven to no demand for 1 ms since the partner was seated. -/
def execXtlArm (n : Fin 8) (s : State) : Host.Outcome State Fault Refusal :=
  if s.partnerSeated then
    .next (s.setSafe { s.safe with armed := Bits.setBit s.safe.armed n, xtlIn := Bits.clrBit s.safe.xtlIn n })
  else .next s

/-- XTL_DEMAND_CHANGE (01 R20, 10 R295): the low-side switch follows through `Safe.lsClosed`. -/
def execXtlDemandChange (n : Fin 8) (demand : Bool) (s : State) : Host.Outcome State Fault Refusal :=
  if Bits.bit s.safe.armed n then .next (s.setSafe { s.safe with xtlIn := Bits.putBit s.safe.xtlIn n demand })
  else .next s

/-- The delays that a pair entering demand starts in lane H (10 R306). -/
def Safe.startDelays (x : Safe) (now p : Nat) : Safe :=
  (List.range 8).foldl (fun x n =>
    let h := Tbl.get {} x.laneH.so n
    let o := x.getSo n
    let above := match o.hDoneNs with
      | some t => t + 1000000 ≤ now && !(List.range 16).any (fun q => q != p && Bits.bit h.masks (16 + q) && x.demandH q)
      | none => true
    if Bits.bit h.masks (16 + p) && o.hDelay.isNone && above then x.modSo n (fun o => { o with hDelay := some now, hDoneNs := none })
    else x) x

/-- A change of the safety inputs in lane H: a pair that enters demand starts its delays (10 R306). -/
def Safe.hChange (x : Safe) (now p : Nat) (f : SipPair → SipPair) : Safe :=
  let y := x.modSip p f
  if y.demandH p && !x.demandH p then y.startDelays now p else y

/-- Since when a condition that holds now has held. -/
def holdSince (now : Nat) (on : Bool) (was : Option Nat) : Option Nat := if on then some (was.getD now) else none

/-- LANE_H_SIP_DEMAND (10 R298-R300, R306): lane H's sample of the pair, as the channels in demand. -/
def execLaneHSipDemand (p : Fin 16) (c1 c2 : Bool) (s : State) : Host.Outcome State Fault Refusal :=
  if !s.safe.cellPower then .next s
  else
    .next (s.setSafe (s.safe.hChange s.nowNs p (fun v =>
      { v with h1 := c1, h2 := c2, disH := holdSince s.nowNs (c1 != c2) v.disH, stepH := v.stepH || (v.discH && c1 && c2) })))

/-- LANE_H_DELAY_DONE (10 R306): DELAY_H has run from the start of the delay, on lane H's clock of ±1 % (R290). -/
def execLaneHDelayDone (n : Fin 8) (s : State) : Host.Outcome State Fault Refusal :=
  match (s.safe.getSo n).hDelay with
  | some t =>
    if t + (Tbl.get {} s.safe.laneH.so n).delayH * 9900 ≤ s.nowNs then
      .next (s.setSafe (s.safe.modSo n (fun o => { o with hDelay := none, hDoneNs := some s.nowNs })))
    else .next s
  | none => .next s

/-- Lane P's sample of the levels of a pair (10 R298-R300). -/
def Safe.sampleP (x : Safe) (now p : Nat) (l1 l2 : Bool) : Safe :=
  let w := Tbl.get 0#32 x.pairs p
  x.modSip p (fun v => { v with l1 := l1, l2 := l2, disP := holdSince now (levelDisagree w l1 l2) v.disP
                                stepP := v.stepP || (v.discP && levelBoth w l1 l2) })

/-- Lane P's sample of what a demand speaks of. -/
def State.laneSample (s : State) (d : Demand) : State :=
  match d with
  | .sip p l1 l2 => s.setSafe (s.safe.sampleP s.nowNs p l1 l2)
  | .fb n level => s.setSafe (s.safe.setFb n { s.safe.getFb n with level := level })
  | .so n on => s.setSafe (s.safe.modSo n (fun o => { o with terminal := on }))
  | _ => s

/-- LANE_P_DEMAND (10 R303). -/
def execLanePDemand (d : Demand) (s : State) : Host.Outcome State Fault Refusal :=
  if s.safe.laneP then .next (s.laneSample d).evalDemands else .next s

/-- DEMAND_WITHDRAWN (10 R303). -/
def execDemandWithdrawn (d : Demand) (s : State) : Host.Outcome State Fault Refusal :=
  if s.safe.laneP then .next (s.laneSample d).evalWithdrawn else .next s

/-- TIMED_STOP_DELAY (10 R303): the delay of a timed stop, accurate to ±0.1 %, has elapsed, whether or not its demand still
stands. -/
def execTimedStopDelay (f : Fin 64) (s : State) : Host.Outcome State Fault Refusal :=
  let v := s.safe.getFn f
  if s.safe.laneP && v.phase = .timing && v.timingNs + (s.safe.entry f).delayMs * 999000 ≤ s.nowNs then .next (s.fnTrip f v.cause)
  else .next s

/-- Has a lane now its N-th consecutive disagreeing sample of a pair, with samples `period` ns apart (10 R299)? -/
def discDue (w : Word) (since : Option Nat) (now period : Nat) : Bool :=
  pairUsed w && match since with
    | some t => decide (t + discNs w ≤ now + period)
    | none => false

/-- DISCREPANCY_LATCH (10 R299, R300): lane P's latch also faults every function that lists the pair. A lane that holds the
latch already only looses the first step of R300. (DEDUCED, log 95) -/
def execDiscrepancyLatch (lane : Lane) (p : Fin 16) (s : State) : Host.Outcome State Fault Refusal :=
  let v := s.safe.getSip p
  match lane with
  | .p =>
    if !s.safe.laneP || !discDue (Tbl.get 0#32 s.safe.pairs p) v.disP s.nowNs 100000 then .next s
    else if v.discP then .next (s.setSafe (s.safe.modSip p (fun v => { v with stepP := false })))
    else
      let s := (s.setSafe { s.safe.modSip p (fun v => { v with discP := true, stepP := false }) with discCnt := Bits.inc s.safe.discCnt }).report
        .safe 1 p 0#32
      .next (s.evalDemands.fnFaultAll (fun e => e.sip p) .discrepancy)
  | .h =>
    if !s.safe.cellPower || !discDue (Tbl.get 0#32 s.safe.laneH.pairs p) v.disH s.nowNs 10000 then .next s
    else if v.discH then .next (s.setSafe (s.safe.modSip p (fun v => { v with stepH := false })))
    else
      let x := s.safe.hChange s.nowNs p (fun v => { v with discH := true, stepH := false })
      .next ((s.setSafe { x with discCnt := Bits.inc x.discCnt }).report .safe 1 p 1#32)

/-- DISCREPANCY_CLEAR (10 R300, R303): both channels have been in demand since the latch, and now neither is. -/
def execDiscrepancyClear (lane : Lane) (p : Fin 16) (s : State) : Host.Outcome State Fault Refusal :=
  let v := s.safe.getSip p
  match lane with
  | .h =>
    if s.safe.cellPower && v.discH && v.stepH && !v.hDemand then
      .next (s.setSafe (s.safe.modSip p (fun v => { v with discH := false, stepH := false })))
    else .next s
  | .p =>
    if s.safe.laneP && v.discP && v.stepP && !levelDemand (Tbl.get 0#32 s.safe.pairs p) v.l1 v.l2 then
      let s := s.setSafe (s.safe.modSip p (fun v => { v with discP := false, stepP := false }))
      let sel := fun (e : FnEntry) => e.sip p && !(List.range 16).any (fun q => e.sip q && (s.safe.getSip q).discP)
      .next (s.fnClearAll sel .discrepancy).evalWithdrawn
    else .next s

/-- RESET_PRESS (10 R304): the press starts when the reset pair enters demand. -/
def execResetPress (p : Fin 16) (l1 l2 : Bool) (s : State) : Host.Outcome State Fault Refusal :=
  let w := Tbl.get 0#32 s.safe.pairs p
  if s.safe.laneP && pairUsed w && levelDemand w l1 l2 then
    let x := s.safe.sampleP s.nowNs p l1 l2
    .next (s.setSafe (x.modSip p (fun v => { v with pressNs := some (v.pressNs.getD s.nowNs) })))
  else .next s

/-- Does a reset take this function to ACTIVE (10 R303, R304, R307)? -/
def Safe.resets (x : Safe) (p f : Nat) (e : FnEntry) : Bool :=
  (x.getFn f).phase == .awaitReset && e.resetPair == p && (x.fnDemand e).isNone && !x.edmShut e && !x.feedbackHolds e

/-- A reset acts through a pair (10 R304). -/
def State.resetBy (s : State) (p : Nat) : State :=
  (s.safe.valid.filter (fun e => s.safe.resets p e.1 e.2)).foldl (fun s e => (s.fnActive e.1).setEvent .safe 17) s

/-- RESET_RELEASE (10 R304): a press of 0.1 s to 5 s resets; a new demand `d` on the same sample is taken and wins; a latched
discrepancy of the pair blocks. -/
def execResetRelease (p : Fin 16) (l1 l2 : Bool) (d : Option Demand) (s : State) : Host.Outcome State Fault Refusal :=
  match (s.safe.getSip p).pressNs with
  | none => .next s
  | some t =>
    if !s.safe.laneP || levelDemand (Tbl.get 0#32 s.safe.pairs p) l1 l2 then .next s
    else
      let s1 := s.setSafe ((s.safe.sampleP s.nowNs p l1 l2).modSip p (fun v => { v with pressNs := none }))
      let held := s.nowNs - t
      match d with
      | some d => .next (s1.laneSample d).evalDemands
      | none =>
        if 100000000 ≤ held && held ≤ 5000000000 && !(s.safe.getSip p).discP then .next (s1.resetBy p) else .next s1

/-- Where in its interval of 100 ms a comparator is tested, in ns; the module in slot B runs 25 ms later (10 R297). -/
def State.comparatorAt (s : State) (lane : Lane) (t : CompTerm) : Nat :=
  let ms := match t, lane with
    | .sip p two, .p => 2 * p.val + if two then 1 else 0
    | .sip p two, .h => 50 + 2 * p.val + if two then 1 else 0
    | .fb n, _ => 32 + n.val
  (ms + if s.unitNo = 0xB#4 then 25 else 0) % 100 * 1000000

/-- Can a test of this comparator end now: it has one, its lane runs, and its test of 20 µs is on (10 R297)? -/
def State.comparatorDue (s : State) (lane : Lane) (t : CompTerm) : Bool :=
  let a := s.comparatorAt lane t
  let now := s.time.ns.toNat % 100000000
  (match lane, t with | .p, _ => s.safe.laneP | .h, .sip _ _ => s.safe.cellPower && s.safe.laneHOk | .h, .fb _ => false)
    && decide (a ≤ now) && decide (now ≤ a + 20000)

/-- Did this comparator fail its last test? -/
def Safe.compFailed (x : Safe) (lane : Lane) (t : CompTerm) : Bool :=
  match t, lane with
  | .sip p two, .p => let v := x.getSip p; if two then v.failP2 else v.failP1
  | .sip p two, .h => let v := x.getSip p; if two then v.failH2 else v.failH1
  | .fb n, _ => (x.getFb n).fail

def Safe.setComp (x : Safe) (now : Nat) (lane : Lane) (t : CompTerm) (fail : Bool) : Safe :=
  match t, lane with
  | .sip p two, .p => x.modSip p (fun v => if two then { v with failP2 := fail } else { v with failP1 := fail })
  | .sip p two, .h => x.hChange now p (fun v => if two then { v with failH2 := fail } else { v with failH1 := fail })
  | .fb n, _ => x.setFb n { x.getFb n with fail := fail }

/-- COMPARATOR_TEST (10 R297, R495): a comparator that fails makes its pair read as demand in its lane until it passes again.
(DEDUCED, log 95) -/
def execComparatorTest (lane : Lane) (t : CompTerm) (pass : Bool) (s : State) : Host.Outcome State Fault Refusal :=
  if !s.comparatorDue lane t then .next s
  else
    let obj := match t with | .sip p _ => p.val | .fb n => 16 + n.val
    let was := s.safe.compFailed lane t
    let s := s.setSafe (s.safe.setComp s.nowNs lane t (!pass))
    if pass then .next s.evalWithdrawn else .next (if was then s else s.report .safe 14 obj 0#32).evalDemands

/-- The state in which lane P's start leaves a function (10 R305). -/
def Safe.startPhase (x : Safe) (energised : BitVec 8) (e : FnEntry) : FnPhase :=
  if (x.fnDemand e).isNone && (List.range 8).all (fun n => !e.so n || energised.getLsbD n) then .active else .awaitReset

/-- Lane P starts on its tables (10 R292, R305): `energised` gives the outputs energised for 100 ms. (DEDUCED, log 52) -/
def State.lanePStart (s : State) (energised : BitVec 8) : State :=
  let x := { s.safe with laneP := s.safe.cellPower, idOk := s.safe.laneHAgrees, pFaultNs := none }
  let x := (List.range 16).foldl (fun x p => x.modSip p (fun v =>
    { v with discP := false, stepP := false, disP := none, failP1 := false, failP2 := false, pressNs := none })) x
  let x := (List.range 8).foldl (fun x n => x.modSo n (fun o => { o with onNs := none, ovlNs := none })) x
  let y := x.valid.foldl (fun y e => y.modFn e.1 (fun v =>
    { v with phase := x.startPhase energised e.2, cause := .none, faults := [], running := false, swNs := s.nowNs })) x
  let s := s.setSafe y
  if x.idOk then s else s.recordEvent .safe 15 noObj 0#32

/-- LANE_P_START (10 R305): after a fault the self-test takes 100 ms. -/
def execLanePStart (energised : BitVec 8) (s : State) : Host.Outcome State Fault Refusal :=
  if s.safe.laneP || !s.safe.cellPower || !s.cfg.lanes then .next s
  else match s.safe.pFaultNs with
    | some t => if t + 100000000 ≤ s.nowNs then .next (s.lanePStart energised) else .next s
    | none => .next (s.lanePStart energised)

/-- LANE_P_FAULT (10 R290, R495, 01 R21): the high-side switches open through `Safe.hsOn`. -/
def execLanePFault (s : State) : Host.Outcome State Fault Refusal :=
  if !s.safe.cellPower then .next s
  else .next ((s.setSafe { s.safe with laneP := false, pFaultNs := some s.nowNs }).report .safe 14 noObj 0#32)

/-- LANE_H_FAULT (10 R290, R303, 01 R21): the low-side switches open and the cross lines go to demand. -/
def execLaneHFault (s : State) : Host.Outcome State Fault Refusal :=
  .next ((s.setSafe { s.safe with laneHOk := false }).report .safe 14 noObj 0#32).evalDemands

/-- ESCALATION (10 R296): SOn has stayed at or above 5 V for the 12 ms. -/
def execEscalation (n : Fin 8) (s : State) : Host.Outcome State Fault Refusal :=
  let o := s.safe.getSo n
  if !o.escal && match o.openNs with | some t => decide (t + 12000000 ≤ s.nowNs) | none => false then
    let s := s.setSafe (s.safe.modSo n (fun o => { o with escal := true }))
    .next ((s.soRaise n .escalated).fnFaultAll (fun e => e.so n) .escalation)
  else .next s

/-- The partner's presence contact opens: its cross lines are unarmed, escalations and the faults they hold end
(01 R20, 10 R296, R303). Function states change only while lane P runs (R495). -/
def State.safePartnerGone (s : State) : State :=
  let x := { s.safe with armed := 0#32, xtlIn := 0#32 }
  let x := (List.range 8).foldl (fun x n => x.modSo n (fun o => So.clear .escalated { o with escal := false, expired := false })) x
  let s := s.setSafe x
  if !s.safe.laneP then s
  else ((s.fnClearAll (fun _ => true) .escalation).fnClearAll (fun _ => true) .repairTime).evalWithdrawn

/-- EDM_TIMEOUT (10 R307): FBn, at the level given, has not followed within FB_TIME of the last change of the listed SO. -/
def execEdmTimeout (f : Fin 64) (fb : Bool) (s : State) : Host.Outcome State Fault Refusal :=
  let e := s.safe.entry f
  let v := s.safe.getFn f
  if s.safe.laneP && e.valid && e.monitors && !v.fbSeen && fb == v.on && v.swNs + e.fbTime * 10000000 ≤ s.nowNs then
    let s := s.setSafe (s.safe.setFb e.fb { s.safe.getFb e.fb with level := fb })
    let s := s.fnFault f .edm
    .next (s.report .safe 2 f (s.safe.fnWord f))
  else .next s

/-- EDM_FAULT_CLEAR (10 R303): the feedback has shown open for 1 s with the output off. -/
def execEdmFaultClear (f : Fin 64) (s : State) : Host.Outcome State Fault Refusal :=
  let v := s.safe.getFn f
  if s.safe.laneP && match v.openNs with | some t => decide (t + 1000000000 ≤ s.nowNs) | none => false then .next (s.fnClear f .edm)
  else .next s

/-- SBC_BOOST_END (10 R308): 200 ms after its high side closed the output changes to HOLD_DUTY. (DEDUCED, log 95) -/
def execSbcBoostEnd (n : Fin 8) (s : State) : Host.Outcome State Fault Refusal :=
  let boosted := match (s.safe.getSo n).onNs with | some t => decide (t + 200000000 ≤ s.nowNs) | none => false
  if s.safe.hsOn n && boosted && s.safe.valid.any (fun e => e.2.so n && e.2.type == .sbc) then
    .next (s.setSafe (s.safe.modSo n (fun o => { o with held := true })))
  else .next s

/-- Has TEST_INTERVAL passed since the last pass (10 R309)? -/
def Safe.brakeDue (x : Safe) (sec f : Nat) : Bool :=
  match (x.getFn f).lastPass with
  | some t => decide (t + (x.entry f).testHours * 3600 ≤ sec)
  | none => true

/-- Do the start conditions of a brake test hold (10 R309)? The lane P of a JOINED SHADOW takes the same origin for its own
judgement of slip. (DEDUCED, log 96) -/
def State.brakeReady (s : State) (f : Nat) : Bool :=
  let e := s.safe.entry f
  let v := s.safe.getFn f
  let off := match v.offNs with | some t => decide (t + 2000000000 ≤ s.nowNs) | none => false
  s.safe.laneP && (s.gateOpen || (s.follows && s.twin.link == .joined)) && e.valid && e.type == .sbc && off
    && s.clockSteady e.clock && (s.aio.getSh (s.clockShaft e.clock)).quality == 0 && v.permit && !v.running
    && (s.safe.brakeDue s.time.sec.toNat f || v.asked)
    && !s.safe.valid.any (fun g => g.2.type == .sbc && g.2.clock == e.clock && (s.safe.getFn g.1).running)

/-- BRAKE_TEST_START (10 R309, R311). -/
def execBrakeTestStart (f : Fin 64) (s : State) : Host.Outcome State Fault Refusal :=
  if s.brakeReady f then
    let e := s.safe.entry f
    .next (s.setSafe (s.safe.modFn f (fun v =>
      { v with running := true, testNo := v.testNo + 1#16, asked := false, abort := false, startNs := s.nowNs, slip := 0#32
               startPos := s.clockAngle e.clock, startCnt := (s.aio.getSh (s.clockShaft e.clock)).count })))
  else .next s

/-- BRAKE_TEST_END (10 R311): +6 s with no failure and no abort is a pass. -/
def execBrakeTestEnd (f : Fin 64) (slip : Word) (s : State) : Host.Outcome State Fault Refusal :=
  let v := s.safe.getFn f
  let e := s.safe.entry f
  if v.running && s.safe.laneP && v.startNs + 6000000000 ≤ s.nowNs && slip.toNat ≤ e.slipLimit.toNat && s.clockSteady e.clock then
    let s := s.setSafe (s.safe.modFn f (fun v =>
      { v with running := false, result := .pass, slip := slip, due := false, lastPass := some s.time.sec.toNat }))
    .next ((s.recordEvent .safe 4 f slip).fnClear f .brakeTest)
  else .next s

/-- BRAKE_TEST_FAIL (10 R311): a sample of lane P up to +6 s finds a slip beyond SLIP_LIMIT. -/
def execBrakeTestFail (f : Fin 64) (slip : Word) (s : State) : Host.Outcome State Fault Refusal :=
  let v := s.safe.getFn f
  if v.running && s.safe.laneP && s.nowNs ≤ v.startNs + 6000000000 && (s.safe.entry f).slipLimit.toNat < slip.toNat then
    let s := s.setSafe (s.safe.modFn f (fun v => { v with running := false, result := .fail, slip := slip }))
    .next ((s.fnFault f .brakeTest).report .safe 3 f slip)
  else .next s

/-- BRAKE_TEST_ABORT (10 R311): the clock has left LOCKED and STANDSTILL, or the drive's torque stayed too low, which takes
RX_EN. -/
def execBrakeTestAbort (f : Fin 64) (why : BrakeEnd) (slip : Word) (s : State) : Host.Outcome State Fault Refusal :=
  let e := s.safe.entry f
  let off := s.nowNs - (s.safe.getFn f).startNs
  let cause := match why with
    | .aborted => !s.clockSteady e.clock || !(s.safe.getFn f).permit
    | .inconclusive => e.rxEn && decide (1500000000 ≤ off) && decide (off ≤ 4000000000)
  if s.safe.laneP && cause then .next (s.brakeAbort f why slip) else .next s

/-- A takeover aborts every running brake test (10 R311). -/
def State.brakeAbortAll (s : State) : State :=
  s.safe.valid.foldl (fun s e => s.brakeAbort e.1 .aborted (s.safe.getFn e.1).slip) s

/-- The brake test command applied at a T0 (10 R309, R311, R318): PERMIT back at 0 aborts a running test. -/
def State.brakeCommand (s : State) (f : Nat) (permit request : Bool) : State :=
  let v := s.safe.getFn f
  let s := s.setSafe (s.safe.modFn f (fun v =>
    { v with permit := permit, request := request, asked := v.asked || (request && !v.request) }))
  if v.running && !permit then s.brakeAbort f .aborted v.slip else s

/-- At a station tick BRAKE_DUE is set for each brake whose TEST_INTERVAL has passed (10 R309). -/
def State.brakeDues (s : State) : State :=
  (s.safe.valid.filter (fun e => e.2.type == .sbc && !(s.safe.getFn e.1).due && s.safe.brakeDue s.time.sec.toNat e.1)).foldl
    (fun s e => (s.setSafe (s.safe.modFn e.1 (fun v => { v with due := true }))).setEvent .safe 6) s

/-- The program request of an SO is applied at a T0 (10 R302, R319). -/
def State.soRequest (s : State) (n : Nat) (on : Bool) : State :=
  s.setSafe (s.safe.modSo n (fun o => { o with request := on }))

/-- A slot action on an SO (06 R185): a SET_SO that the functions do not permit is dropped and recorded. -/
def State.soSlot (s : State) (n : Nat) (on : Bool) : State :=
  if on && !(s.safe.permits n && s.safe.laneP && s.safe.lsOk) then s.recordEvent .safe 18 n (s.safe.soStatus s.nowNs n)
  else s.soRequest n on

/-- The brake tests that the torque received for task n leaves inconclusive at a T0 at `t0` (10 R311). -/
def State.brakeRx (s : State) (n t0 : Nat) : State :=
  s.safe.valid.foldl (fun s e =>
    let v := s.safe.getFn e.1
    let c := s.net.ctx e.2.rxCtx
    let r := c.rxAt s.tickStart.toNat
    let got := (BitVec.ofNat 16 (Bits.leNat (r.payload.take 2).reverse)).toInt
    let low := decide (got * 10 < (e.2.testTorque : Int) * 9)
    if e.2.type == .sbc && e.2.rxEn && v.running && c.task == n && decide (v.startNs + 1500000000 ≤ t0)
        && decide (t0 ≤ v.startNs + 4000000000) && (!c.rxGood s.tickStart.toNat t0 || low) then s.brakeAbort e.1 .inconclusive v.slip
    else s) s

/-- Is this the start instant of the output's safety test (10 R313)? -/
def State.safetyTestDue (s : State) (n : Nat) : Bool :=
  let ti := Bits.get (s.safe.getSo n).cfg 23 6
  s.time.ns.toNat == (if s.unitNo = 0xB#4 then 700000000 else 200000000) + n * 10000000
    && ti != 0 && s.time.sec.toNat % ti == n % ti

/-- The test that SOn takes now: dark pulses, a closure, or none (10 R313, R314). -/
def Safe.testKind (x : Safe) (now n : Nat) : Option Bool :=
  let o := x.getSo n
  if !x.lsOk || o.test.isSome || x.valid.any (fun e => e.2.so n && (x.getFn e.1).phase == .timing) then none
  else if x.hsOn n && x.lsClosed now n then (if Bits.bit o.cfg 30 then some false else none)
  else if x.hDemand now n && Bits.bit o.cfg 29 then some true
  else none

/-- SAFETY_TEST_START (10 R313, R322): a demand on the same fine tick keeps the test from starting. -/
def execSafetyTestStart (n : Fin 8) (demand : Bool) (s : State) : Host.Outcome State Fault Refusal :=
  if !s.safetyTestDue n then .next s
  else match s.safe.testKind s.nowNs n with
    | none => .next s
    | some k =>
      if demand then .next { s with safe := { s.safe with preempted := Bits.sat 16 s.safe.preempted 1 } }
      else .next { s with safe := s.safe.modSo n (fun o => { o with test := some (s.nowNs, k) }) }

/-- A failed test pulse counts (10 R313). -/
def State.pulseFailed (s : State) : State := { s with safe := { s.safe with failed := Bits.sat 16 s.safe.failed 1 } }

/-- The test of SOn is over. -/
def State.testOver (s : State) (n : Nat) : State := { s with safe := s.safe.modSo n (fun o => { o with test := none }) }

/-- The partner's cross-line pulse as this module saw it: XTL_FAULT, cleared by 3 consecutive passes (10 R313, R315). -/
def State.xtlPulse (s : State) (n : Nat) (pass : Bool) : State :=
  if pass then
    let k := (s.safe.getSo n).xtlPasses + 1
    { s with safe := s.safe.modSo n (fun o => (if 3 ≤ k then So.clear .xtlFault { o with xtlPasses := 3 } else { o with xtlPasses := k })) }
  else ({ s with safe := s.safe.modSo n (fun o => { o with xtlPasses := 0 }) } : State).pulseFailed.soRaise n .xtlFault

/-- When a step of a test of SOn ends, in ns after the test's start, and whether the closure test has it (10 *Safety test
sequence*). -/
def So.stepEnd (o : So) : SafetyStep → Nat × Bool
  | .hsDark => (o.darkNs, false)
  | .lsDark => (3000000 + o.darkNs, false)
  | .closure => (o.brightNs, true)
  | _ => (6100000, false)

/-- Is this step of the running test over by now? -/
def So.stepOver (o : So) (now : Nat) (step : SafetyStep) : Bool :=
  match o.test with
  | some (t, k) => k == (o.stepEnd step).2 && decide (t + (o.stepEnd step).1 ≤ now)
  | none => false

/-- SAFETY_TEST_STEP_END (10 R313). -/
def execSafetyTestStepEnd (n : Fin 8) (step : SafetyStep) (pass : Bool) (s : State) : Host.Outcome State Fault Refusal :=
  match step with
  | .xtlIn => .next (if s.partnerSeated then s.xtlPulse n pass else s)
  | _ =>
    if !(s.safe.getSo n).stepOver s.nowNs step then .next s
    else match step with
      | .hsDark => .next (if pass then s else s.pulseFailed.soRaise n .hsStuck)
      | .lsDark => .next (if pass then s else s.pulseFailed.soRaise n .lsStuck)
      | .closure => .next (if pass then s.testOver n else (s.testOver n).pulseFailed.soRaise n .closureFail)
      | _ => .next (if pass then s.testOver n else (s.testOver n).pulseFailed)

/-- LS_SUPPLY_LOW (10 R314): below 16.0 V for 50 µs every function takes a demand. -/
def execLsSupplyLow (s : State) : Host.Outcome State Fault Refusal :=
  if s.safe.lsOk then
    let x := (List.range 8).foldl (fun x n => x.modSo n (So.raise .lsSupply)) { s.safe with lsOk := false }
    .next ((s.setSafe x).report .safe 13 noObj 0#32).evalDemands
  else .next s

/-- LS_SUPPLY_BACK (10 R314). -/
def execLsSupplyBack (s : State) : Host.Outcome State Fault Refusal :=
  let x := (List.range 8).foldl (fun x n => x.modSo n (So.clear .lsSupply)) { s.safe with lsOk := true, lsLow12 := false }
  .next (s.setSafe x).evalWithdrawn

/-- REPAIR_TIME_EXPIRY (10 R317). -/
def execRepairTimeExpiry (n : Fin 8) (s : State) : Host.Outcome State Fault Refusal :=
  let o := s.safe.getSo n
  match o.faultNs with
  | none => .next s
  | some t =>
    if s.safe.laneP && !o.expired && t + Bits.get o.cfg 8 8 * 3600000000000 ≤ s.nowNs then
      let s := (s.setSafe (s.safe.modSo n (fun o => { o with expired := true }))).fnFaultAll (fun e => e.so n) .repairTime
      .next (s.report .safe 16 n (s.safe.soStatus s.nowNs n))
    else .next s

/-- SO_OVERLOAD (10 R323). -/
def execSoOverload (n : Fin 8) (s : State) : Host.Outcome State Fault Refusal :=
  if s.safe.hsOn n then
    .next ((s.setSafe (s.safe.modSo n (fun o => { o with ovlNs := some s.nowNs }))).soRaise n .overload)
  else .next s

/-- SO_OVERLOAD_RETRY (10 R323): 1 s after it opened, lane P closes the switch again; `failed` says that the overload came back,
which opens it for another 1 s. -/
def execSoOverloadRetry (n : Fin 8) (failed : Bool) (s : State) : Host.Outcome State Fault Refusal :=
  match (s.safe.getSo n).ovlNs with
  | some t =>
    if !s.safe.laneP || s.nowNs < t + 1000000000 then .next s
    else if failed then .next (s.setSafe (s.safe.modSo n (fun o => { o with ovlNs := some s.nowNs })))
    else .next (s.setSafe (s.safe.modSo n (fun o => So.clear .overload { o with ovlNs := none })))
  | none => .next s

/-- Has the high side of SOn been closed for 100 ms? -/
def Safe.on100 (x : Safe) (now n : Nat) : Bool :=
  x.hsOn n && match (x.getSo n).onNs with | some t => decide (t + 100000000 ≤ now) | none => false

/-- SO_OPEN_LOAD (10 R323). -/
def execSoOpenLoad (n : Fin 8) (s : State) : Host.Outcome State Fault Refusal :=
  if s.safe.on100 s.nowNs n then .next (s.soRaise n .openLoad) else .next s

/-- FW_STUCK (10 R323): lane P opens its high-side switch, through `Safe.hsOn`. (DEDUCED, log 9) -/
def execFwStuck (n : Fin 8) (s : State) : Host.Outcome State Fault Refusal :=
  if s.safe.hsOn n then .next (s.soRaise n .fwStuck) else .next s

/-- LOW_SIDE_CLOSURE_FAIL (10 R313). -/
def execLowSideClosureFail (n : Fin 8) (s : State) : Host.Outcome State Fault Refusal :=
  if s.safe.lsClosed s.nowNs n && s.partnerSeated then .next (s.soRaise n .closureFail) else .next s

/-- What lane H starts afresh with for a pair and for an output (10 R295). -/
def SipPair.freshH (v : SipPair) : SipPair :=
  { v with h1 := true, h2 := true, disH := none, discH := false, stepH := false, failH1 := false, failH2 := false }
def So.freshH (o : So) : So := { o with hDelay := none, hDoneNs := none, escal := false }

/-- SAFETY_CELL_POWER_LOST (10 R494): without the auxiliary supply, LS+ has fallen below 12.0 V. -/
def execSafetyCellPowerLost (s : State) : Host.Outcome State Fault Refusal :=
  if s.mod.powered then .next s
  else .next (s.setSafe { s.safe with cellPower := false, laneP := false, pFaultNs := none, laneHOk := false, lsOk := false, lsLow12 := true })

/-- SAFETY_CELL_POWER_BACK (10 R295): lane H starts afresh; its latches, delays and escalations are those of a start. -/
def execSafetyCellPowerBack (s : State) : Host.Outcome State Fault Refusal :=
  if s.safe.cellPower then .next s
  else
    let x := { s.safe with cellPower := true, laneHOk := true }
    let x := (List.range 16).foldl (fun x p => x.modSip p SipPair.freshH) x
    let x := (List.range 8).foldl (fun x n => x.modSo n So.freshH) x
    .next (s.setSafe x)

/-- What T0 samples of the safety terminals: load voltages and stage currents, and the feedback levels that lane P reads
(10 R318, R495). -/
def State.safeSample (s : State) (so : List (Fin 8 × Bool × Nat)) (fb : List (Fin 8 × Bool)) : State :=
  let x := so.foldl (fun x e => x.modSo e.1 (fun o =>
    let o := { o with terminal := e.2.1, current := e.2.2 }
    if !e.2.1 || 1 ≤ e.2.2 then So.clear .openLoad o else o)) s.safe
  let x := if !x.laneP then x else fb.foldl (fun x e => x.setFb e.1 { x.getFb e.1 with level := e.2 }) x
  (s.setSafe x).evalWithdrawn

end Sys2Proof.Machine
end

