-- ==== Sys2Proof/Machine/Time.lean ====
section
/-! DEFINITION. Machine/Time.lean: the discipline of wall time, the angle clocks, the loading and judging of angle-event
slots, edge captures and the shaft diagnostics (06 R161-R191, 09 R286). -/
namespace Sys2Proof.Machine

/-- Wall time in ns since the epoch. -/
def TimeBlk.total (t : TimeBlk) : Nat := t.sec.toNat * 1000000000 + t.ns.toNat

/-- Wall time set to a number of ns since the epoch; the fraction stands. -/
def TimeBlk.setTotal (t : TimeBlk) (n : Nat) : TimeBlk :=
  { t with sec := BitVec.ofNat 64 (n / 1000000000), ns := BitVec.ofNat 32 (n % 1000000000) }

/-- A correction of `d` ns is to be slewed (06 R166); its rate is open up to 10 000 ns/s (log 13). -/
def TimeBlk.startSlew (t : TimeBlk) (d : Int) (k : Nat) : TimeBlk :=
  let r : Int := 1 + (Config.slewRate k % 10000 : Nat)
  if d = 0 then { t with residual := 0, slew := 0 }
  else { t with residual := d * 100000, slew := if d < 0 then -r else r }

/-- Slew a correction. -/
def State.slewBy (s : State) (d : Int) : State := { s with time := s.time.startSlew d s.free, free := s.free + 1 }

/-- Enter a discipline state that a TIME_EVENT bit announces. -/
def State.discTo (s : State) (d : Discipline) (bit : Nat) : State :=
  let h := if d = .holdover then { s.time with disc := d, holdTicks := 0, expired := false }
    else { s.time with disc := d, holdTicks := 0, expired := false, pending := if d = .quarantine then s.time.pending else 0 }
  { s with time := h }.setEvent .time bit

/-- Is an offset within ±1 µs? -/
def near (o : Int) : Bool := decide (o.natAbs ≤ 1000)

/-- An offset step beyond what the slew in progress explains begins a quarantine (06 R164). -/
def State.quarantine (s : State) (offset : Int) : State :=
  { s with time := { s.time with pending := offset, quarCnt := Bits.inc s.time.quarCnt, quarSyncs := 0, residual := 0, slew := 0 } }.discTo .quarantine 2

/-- A measured offset in ACQUIRING (06 R164): stepped, stepped forward at the next tick, or slewed. -/
def State.acquire (s : State) (offset : Int) : State :=
  let n := if near offset then s.time.within + 1 else 0
  let s1 := { s with time := { s.time with within := n } }
  let s2 :=
    if offset = 0 then s1
    else if !s.taskRunning then
      let t := s1.time.setTotal ((s1.time.total : Int) - offset).toNat
      { s1 with time := { t with stepCnt := Bits.inc t.stepCnt, residual := 0, slew := 0 } }
    else if offset < 0 ∧ Bits.bit s.time.cfg 8 then { s1 with time := { s1.time with fwdStep := offset.natAbs } }
    else s1.slewBy (-offset)
  let s3 := { s2 with cfg := { s2.cfg with settled := true } }
  if 16 ≤ n then s3.discTo .locked 0 else s3

/-- The offset measured on the primary path acts on the discipline (06 R164, R171): local time less the grandmaster's;
`pathOk` is the path check. (DEDUCED, log 48) -/
def State.measured (s : State) (offset : Int) (pathOk : Bool) : State :=
  let step := offset + s.time.residual / 100000
  let s1 := { s with time := { s.time with offset := offset } }
  match s.time.disc with
  | .freeRun => { s1 with time := { s1.time with disc := .acquiring, within := 0 } }
  | .acquiring => s1.acquire offset
  | .locked => if near step then s1.slewBy (-offset) else s1.quarantine offset
  | .quarantine => if near offset then s1.discTo .locked 0 else { s1 with time := { s1.time with pending := offset } }
  | .holdover =>
    if !near offset then s1.quarantine offset
    else if pathOk then (s1.discTo .locked 0).slewBy (-offset)
    else s1
  | .follow =>
    let w := if near offset then s.time.within + 1 else 0
    let a := if near offset then 0 else s.time.apart + 1
    { s1 with time := { s1.time with within := w, apart := a } }.setEventIf (a == 8) .time 13

/-- SYNC_TIMEOUT (06 R164): no valid Sync for 3 sync intervals. -/
def execSyncTimeout (s : State) : Host.Outcome State Fault Refusal :=
  match s.time.disc with
  | .locked => .next ({ s with time := { s.time with pending := 0, within := 0 } }.discTo .holdover 1)
  | .quarantine => .next ({ s with time := { s.time with pending := 0, within := 0 } }.discTo .holdover 1)
  | .follow => .next { s with time := { s.time with within := 0 } }
  | _ => .next s

/-- 8 sync intervals in QUARANTINE (06 R164): the step is accepted and slewed, or rejected into HOLDOVER. -/
def State.quarantineEnd (s : State) (pathOk : Bool) : State :=
  if s.time.disc ≠ .quarantine then s
  else if pathOk then
    let p := s.time.pending
    ((({ s with time := { s.time with asymmetry := false } } : State).discTo .locked 0).slewBy (-p)).setEvent .time 3
  else
    let s1 : State := { s with time := { s.time with asymmetry := true, pending := 0 } }
    (s1.discTo .holdover 1).setEvent .time 4

/-- HOLDOVER_EXPIRED (06 R164): 10 min in HOLDOVER. (DESIGN CHOICE, log 1) -/
def execHoldoverExpired (s : State) : Host.Outcome State Fault Refusal :=
  if s.time.disc = .holdover ∧ 60000000 ≤ s.time.holdTicks ∧ ¬ s.time.expired then
    .next ({ s with time := { s.time with expired := true } }.setEvent .time 5)
  else .next s

/-- SLEW_DONE (06 R166): the remaining phase correction reaches zero, its rest being what the present tick removes. -/
def execSlewDone (s : State) : Host.Outcome State Fault Refusal :=
  if s.time.residual.natAbs ≤ s.time.slew.natAbs then .next { s with time := { s.time with residual := 0, slew := 0 } } else .next s

/-- One station tick of the slew: at most 10 000 ns/s. (DESIGN CHOICE, log 13) -/
def TimeBlk.slewTick (t : TimeBlk) : TimeBlk :=
  if t.residual.natAbs ≤ t.slew.natAbs then { t with residual := 0, slew := 0 }
  else { t with residual := t.residual - t.slew }

/-- The role becomes SHADOW in a link that follows (06 R164): the LEAD's station tick is taken. -/
def TimeBlk.follow (t : TimeBlk) : TimeBlk :=
  { t with disc := .follow, pending := 0, residual := 0, slew := 0, within := 0, apart := 0, holdTicks := 0, expired := false, tickBad := none }

/-- FOLLOW ends with promotion or a SEVERED link (06 R164, R180). -/
def State.endFollow (s : State) : State :=
  if s.time.disc ≠ .follow then s
  else
    let free := fun (c : AngleClock) => match c.mirror with
      | some (p, _) => { c with mirror := none, corr := (p - c.own).toInt, corrLeft := 100000 }
      | none => c
    let t := { s.time with clocks := Tbl.map {} free s.time.clocks }
    let s1 := { s with time := t }
    if 16 ≤ s.time.within ∧ near s.time.offset then s1.discTo .locked 0 else s1.discTo .holdover 1

/-! Angle clocks. -/

/-- Put a clock, with the events of gaining and losing lock. -/
def State.acPut (s : State) (c : Nat) (x : AngleClock) : State :=
  let was := (s.time.clock c).locked
  let s1 := { s with time := s.time.setClock c x }
  if was && !x.locked then s1.setEvent .time 8 else if !was && x.locked then s1.setEvent .time 7 else s1

/-- Is a mains clock locked, its trackers being what they are (06 R175, R176)? -/
def State.mainsLocked (s : State) (x : AngleClock) : Bool :=
  match x.mode with
  | 1 => (s.aio.getGs x.srcA).locked && (!x.diff || (s.aio.getGs x.srcB).locked)
  | 2 => (s.aio.getGs x.srcA).locked && (s.aio.getGs x.srcB).locked
  | _ => false

/-- The state of AC0 and AC1 follows their trackers. -/
def State.mainsJudge (s : State) : State :=
  [0, 1].foldl (fun (s : State) c =>
    let x := s.time.clock c
    if x.mode = 1 ∨ x.mode = 2 then s.acPut c { x with state := if s.mainsLocked x then .locked else .search } else s) s

/-- MAINS_LOCK (06 R175). -/
def execMainsLock (g : Fin 4) (s : State) : Host.Outcome State Fault Refusal :=
  .next ({ s with aio := s.aio.setGs g { s.aio.getGs g with locked := true } } : State).mainsJudge

/-- MAINS_UNLOCK (06 R175). -/
def execMainsUnlock (g : Fin 4) (s : State) : Host.Outcome State Fault Refusal :=
  .next ({ s with aio := s.aio.setGs g { s.aio.getGs g with locked := false } } : State).mainsJudge

/-- A mains clock moves to a new phase: the turn counter follows the wrap of the angle (06 R173). -/
def AngleClock.follow (x : AngleClock) (phase : Word) (rate : Int) (amp : Nat) : AngleClock :=
  { x with base := x.base + (phase - Bits.lo x.base).signExtend 64, rate := rate, amp := amp }

/-- The phase of a mains tracker. -/
def TimeBlk.phase (t : TimeBlk) (g : Nat) : Word := Tbl.get 0#32 t.phases g

/-- The mains trackers at a station tick (06 R175, R176). (DEDUCED, log 51) -/
def TimeBlk.mains (t : TimeBlk) (env : TickEnv) : TimeBlk :=
  let t := { t with phases := env.grid.foldl (fun l e => Tbl.set 0#32 l e.1 e.2.phase) t.phases }
  let look : Nat → Option GsSample := fun g => (env.grid.find? (fun e => e.1.val == g)).map Prod.snd
  [0, 1].foldl (fun (t : TimeBlk) c =>
    let x := t.clock c
    match x.mode with
    | 1 =>
      let m := if x.diff then (env.diff.find? (fun e => e.1.val == c)).map Prod.snd else look x.srcA
      match m with
      | some g => t.setClock c (x.follow g.phase g.rate g.amp)
      | none => t
    | 2 =>
      match look x.srcA, look x.srcB with
      | some a, some b => t.setClock c (x.follow (a.phase - b.phase) (a.rate - b.rate) a.amp)
      | _, _ => t
    | _ => t) t

/-- The shaft clock that uses an input, if any (06 R177). -/
def TimeBlk.shaftClock (t : TimeBlk) (sh : Nat) : Option Nat :=
  [2, 3].find? (fun c => (t.clock c).isShaft && (t.clock c).srcA % 2 == sh)

/-- The count that an edge makes: QUADRATURE by the sequence A leads B, TOOTH by the rising edge of A (06 R177). -/
def countStep (mode : Nat) (dir a b a' b' : Bool) : Int :=
  if mode = 4 then (if !a && a' then (if dir && !b' then -1 else 1) else 0)
  else
    let q : Bool → Bool → Int := fun a b => match a, b with
      | false, false => 0 | true, false => 1 | true, true => 2 | false, true => 3
    match (q a' b' - q a b) % 4 with
    | 1 => 1
    | 3 => -1
    | _ => 0

/-- The return of a promoted clock to its own tracker: a part of the correction that the spec leaves open goes, enough to end it
in time, but a FORWARD clock never runs back (06 R180). `was` is the clock before it moved. (DESIGN CHOICE, log 14) -/
def AngleClock.settle (was k : AngleClock) (n : Nat) : AngleClock :=
  let all := k.corr.natAbs
  let moved := (k.own - was.own).toInt
  let forward := decide (0 < k.rate) || (k.mode == 4 && !Bits.bit k.cfg 27)
  let most := if forward && decide (0 < k.corr) then min all moved.toNat else all
  let least := min most ((all + k.corrLeft - 1) / max 1 k.corrLeft)
  let off := least + Config.angleSettle n % (most - least + 1)
  { k with corr := if k.corr < 0 then k.corr + off else k.corr - off }

/-- SHAFT_COUNT_EDGE (06 R177-R179, 09 R287): the lines A and B change `offNs` ns into the station tick. -/
def execShaftCountEdge (sh : Fin 2) (a b : Bool) (offNs : Fin 10000) (s : State) : Host.Outcome State Fault Refusal :=
  let x := s.aio.getSh sh
  let c := s.time.shaftClock sh
  let k : AngleClock := match c with | some i => s.time.clock i | none => {}
  let d := countStep k.mode (Bits.bit k.cfg 27) x.a x.b a b
  let s1 := { s with aio := s.aio.setSh sh { x with a := a, b := b, valid := true, count := x.count + BitVec.ofInt 32 d } }
  match c with
  | none => .next s1
  | some i =>
    if d = 0 then .next s1
    else
      let gap := k.since.map (fun (e : Int) => Int.toNat (e + (offNs.val : Int)))
      let fast := match gap with | some g => decide (g < 250) | none => false
      let r : Int := match gap with | some g => d * (65536000000000 / ((k.cpt * max 250 g : Nat) : Int)) | none => 0
      let st := match k.state with
        | .standstill => AcState.locked
        | .overspeed => .unreferenced
        | .off => .unreferenced
        | st => st
      let st := if fast then AcState.overspeed else st
      let y := { k with cnt := k.cnt + d, between := 0, since := some (-(offNs.val : Int)), back := decide (d < 0), rate := r, state := st
                        held := if fast then none else k.held }
      let y := match y.held with | some h => if y.own = h then y else { y with held := none } | none => y
      let s2 := State.acPut { s1 with free := s1.free + 1 } i (k.settle y s.free)
      .next (s2.setEventIf (fast && k.state != .overspeed) .time 10)

/-- A shaft clock loses its reference to a fault (06 R178, 09 R286). -/
def State.acUnreference (s : State) (sh : Nat) : State :=
  match s.time.shaftClock sh with
  | none => s
  | some i => (s.acPut i { s.time.clock i with state := .unreferenced, refErr := true, held := none }).setEvent .time 9

/-- A shaft clock takes its reference at a Z edge: ANGLE becomes Z_OFFSET (06 R178). -/
def AngleClock.reference (k : AngleClock) (turn : Word) : AngleClock :=
  { k with base := turn ++ (Bits.fld (Bits.get k.zcfg 16 16) 16), cnt := 0, between := 0, held := none }

/-- SHAFT_STANDSTILL (06 R179): no edge within STANDSTILL; the rate reads 0 and the angle holds. -/
def execShaftStandstill (sh : Fin 2) (s : State) : Host.Outcome State Fault Refusal :=
  match s.time.shaftClock sh with
  | none => .next s
  | some i =>
    let k := s.time.clock i
    let due := match k.since with | some e => decide (((Bits.get k.zcfg 0 8 * 10000000 : Nat) : Int) < e + 10000) | none => true
    if k.state == .locked && due then .next (s.acPut i { k with state := .standstill, rate := 0, between := k.betweenAt 0 }) else .next s

/-- SHAFT_OVERSPEED (06 R177). -/
def execShaftOverspeed (sh : Fin 2) (s : State) : Host.Outcome State Fault Refusal :=
  match s.time.shaftClock sh with
  | none => .next s
  | some i =>
    let k := s.time.clock i
    .next ((s.acPut i { k with state := .overspeed, held := none }).setEventIf (k.state != .overspeed) .time 10)

/-- SHAFT_LINE_FAULT (09 R286): only RS-422 lines are watched. -/
def execShaftLineFault (sh : Fin 2) (present : Bool) (s : State) : Host.Outcome State Fault Refusal :=
  let x := s.aio.getSh sh
  if present = x.lineFault || Bits.bit x.cfg 31 then .next s
  else
    let y := { x with lineFault := present }
    let s1 := { s with aio := s.aio.setSh sh y }
    if present then .next ((s1.acUnreference sh).report .aio 17 sh y.status) else .next s1

/-- QUAD_ERR (09 R286): A and B change on one sample. -/
def execQuadErr (sh : Fin 2) (s : State) : Host.Outcome State Fault Refusal :=
  let mode := match s.time.shaftClock sh with | some i => (s.time.clock i).mode | none => 3
  if mode ≠ 3 then .next s
  else
    let x := s.aio.getSh sh
    let y := { x with quadErr := true, quadCnt := Bits.inc x.quadCnt }
    .next (({ s with aio := s.aio.setSh sh y }.acUnreference sh).report .aio 18 sh y.status)

/-- ENC_SUPPLY_FAULT (09 R286). -/
def execEncSupplyFault (sh : Fin 2) (present : Bool) (s : State) : Host.Outcome State Fault Refusal :=
  let x := s.aio.getSh sh
  if present = x.encSupply then .next s
  else
    let y := { x with encSupply := present }
    let s1 := { s with aio := s.aio.setSh sh y }
    if present then .next (s1.report .aio 19 sh y.status) else .next s1

/-- A clock at a station tick: a shaft clock moves on from its last edge, and a promoted clock returns to its own tracker;
`was` is the clock before the tick (06 R178, R180). -/
def AngleClock.tick (was k : AngleClock) (n : Nat) : AngleClock :=
  let k := if k.isShaft then { k with between := k.betweenAt 10000, since := k.since.map (· + 10000) } else k
  let k := { was.settle k n with corrLeft := k.corrLeft - 1 }
  { k with seen := was.posAt 10000 }

/-- A HEARTBEAT of the LEAD gives the SHADOW's clocks their positions and rates, and the discipline of the LEAD (06 R180). -/
def State.acMirror (s : State) (l : List (DWord × Int)) (leadLocked : Bool) : State :=
  if s.time.disc ≠ .follow then s
  else
    let s0 := { s with time := { s.time with leadLocked := leadLocked } }
    (List.zip (List.range 4) l).foldl (fun (s : State) e =>
      let k := s.time.clock e.1
      let gap := (e.2.1 - k.own).toInt.natAbs
      let lim := if k.isShaft then 2 * (k.angleOf 1).natAbs else 1193046
      let bad := k.mode != 0 && k.locked && decide (lim < gap)
      { s with time := s.time.setClock e.1 { k with mirror := some e.2, disagree := bad } }.setEventIf (bad && !k.disagree) .time 12) s0

/-! Angle-event slots. -/

def SlotContent.valid (c : SlotContent) : Bool := Bits.bit c.ctrl 31
def SlotContent.action (c : SlotContent) : Nat := Bits.get c.ctrl 28 3
def SlotContent.clock (c : SlotContent) : Nat := Bits.get c.ctrl 26 2
def SlotContent.dir (c : SlotContent) : Nat := Bits.get c.ctrl 24 2
def SlotContent.every (c : SlotContent) : Bool := Bits.bit c.ctrl 23
def SlotContent.rateCheck (c : SlotContent) : Bool := Bits.bit c.ctrl 22
def SlotContent.target (c : SlotContent) : Nat := Bits.get c.ctrl 0 16

/-- The first six words of a slot in an image. -/
def slotContentOf (bs : List Byte) : SlotContent :=
  let w : Nat → Word := fun o => BitVec.ofNat 32 (Bits.leAt bs o 4)
  { ctrl := w 0, angle := w 4, turn := w 8, rateMin := w 12, rateMax := w 16, pulse := w 20 }

/-- Does the rate of the clock pass the slot's check (06 R183)? -/
def SlotContent.rateOk (c : SlotContent) (rate : Int) : Bool :=
  !c.rateCheck || (decide (c.rateMin.toInt ≤ rate) && decide (rate ≤ c.rateMax.toInt))

/-- The target position that comes next (06 R183, R184): with EVERY_TURN, ANGLE in the next turn not yet fired in. -/
def AngleSlot.targetPos (x : AngleSlot) (pos : DWord) : DWord :=
  let c := x.content
  if !c.every then c.turn ++ c.angle
  else
    let here := Bits.hi pos ++ c.angle
    if c.dir = 1 then
      let p := if 0 < (here - pos).toInt then here - 0x100000000#64 else here
      match x.lastTurn with
      | some t => if 0 ≤ (Bits.hi p - t).toInt then (t - 1#32) ++ c.angle else p
      | none => p
    else
      let p := if (here - pos).toInt < 0 then here + 0x100000000#64 else here
      match x.lastTurn with
      | some t => if (Bits.hi p - t).toInt ≤ 0 then (t + 1#32) ++ c.angle else p
      | none => p

/-- The time in ns until a moving clock reaches a target, if it moves towards it. -/
def predictNs (target pos : DWord) (rate : Int) : Option Nat :=
  let d := (target - pos).toInt
  if (0 ≤ d ∧ 0 < rate) ∨ (d ≤ 0 ∧ rate < 0) then some (d.natAbs * 1000000000 / (rate.natAbs * 65536)) else none

/-- Does the slot's direction admit a crossing at this rate? -/
def SlotContent.admits (c : SlotContent) (rate : Int) : Bool :=
  c.dir == 2 || (c.dir == 0 && decide (0 < rate)) || (c.dir == 1 && decide (rate < 0))

/-- Changed content is loaded into a slot that is not FIXED (06 R184). Gives the slot and whether it became MISSED. -/
def AngleSlot.load (x : AngleSlot) (c : SlotContent) (k : AngleClock) : AngleSlot × Bool :=
  let y := { x with content := c, lastTurn := none, heldNew := none, reason := 0 }
  if !c.valid then ({ y with state := .idle, reason := if x.state = .armed then 5 else 0 }, false)
  else
    let t := y.targetPos k.pos
    let d := (t - k.pos).toInt
    let passed := !c.every && ((c.dir == 0 && decide (d < 0)) || (c.dir == 1 && decide (0 < d)))
    let close := k.locked && c.admits k.rateNow && match predictNs t k.pos k.rateNow with | some n => decide (n < 20000) | none => false
    if passed then ({ y with state := .missed, reason := 1 }, true)
    else if close then ({ y with state := .missed, reason := 2 }, true)
    else ({ y with state := .armed }, false)

/-- A slot has become MISSED or has missed a crossing. -/
def State.slotMiss (s : State) (became : Bool) : State :=
  { s with time := { s.time with missCnt := Bits.inc s.time.missCnt } }.setEventIf became .time 11

/-- Load changed content now. -/
def State.slotLoad (s : State) (n : Nat) (c : SlotContent) : State :=
  let r := (s.time.slot n).load c (s.time.clock c.clock)
  let s1 := { s with time := s.time.setSlot n r.1 }
  if r.2 then s1.slotMiss true else s1

/-- The apply instant of the owning task (06 R184): content that has not changed keeps its state; while FIXED, changed
content is held. -/
def State.slotApply (s : State) (n task : Nat) (bs : List Byte) : State :=
  let c := slotContentOf bs
  let x := { s.time.slot n with task := task }
  let s1 := { s with time := s.time.setSlot n x }
  if x.state = SlotState.fixed then { s1 with time := s1.time.setSlot n { x with heldNew := if c = x.content then none else some c } }
  else if c = x.content then s1 else s1.slotLoad n c

/-! Crossings (06 R183, R184). -/

/-- Does a movement from one position to another pass the slot's next target, in the slot's direction (06 R183)? -/
def AngleSlot.passed (x : AngleSlot) (p q : DWord) : Bool :=
  let t := x.targetPos p
  let d := (t - p).toInt
  let r := (t - q).toInt
  (x.content.dir != 1 && decide (0 < d) && decide (r ≤ 0)) || (x.content.dir != 0 && decide (d < 0) && decide (0 ≤ r))

/-- A slot is FIXED at a fine tick, for its first target from position `p` on (06 R184). -/
def AngleSlot.fix (x : AngleSlot) (tang : Nat) (p : DWord) : AngleSlot :=
  { x with state := .fixed, tang := tang, tangTurn := Bits.hi (x.targetPos p) }

/-- A slot is FIXED; a LEAD gives the SHADOW the instant (06 R187). -/
def State.slotFixAt (s : State) (n tang : Nat) (p : DWord) : State :=
  let s := { s with time := s.time.setSlot n ((s.time.slot n).fix tang p) }
  if s.leads then s.olvia (.seq (.slot n tang)) else s

/-- An ARMED slot is crossed on a clock that is not locked, or with its rate check failing (06 R184). -/
def State.slotMissed (s : State) (n : Nat) : State :=
  let x := s.time.slot n
  let why := if (s.time.clock x.content.clock).locked then 4 else 3
  if x.content.every then State.slotMiss { s with time := s.time.setSlot n { x with reason := why } } false
  else State.slotMiss { s with time := s.time.setSlot n { x with state := .missed, reason := why } } true

/-- May a crossing of this slot count now (06 R183)? -/
def State.slotCounts (s : State) (x : AngleSlot) : Bool :=
  let k := s.time.clock x.content.clock
  k.locked && x.content.rateOk k.rateNow

/-- Does the module judge slots by itself? The SHADOW of a JOINED pair takes T_ang from its LEAD (06 R187). -/
def State.fixesSlots (s : State) : Bool := s.holdsToken || s.twin.link != .joined

/-- A correction has moved clock `c` from `p` to where it is: an ARMED slot that this passes is fixed at `tang`, or missed where
its crossing does not count (06 R191). -/
def State.slotsCross (s : State) (c : Nat) (p : DWord) (tang : Nat) : State :=
  let s := (List.map Prod.fst s.time.slots).foldl (fun (s : State) n =>
    let x := s.time.slot n
    if x.state != .armed || x.content.clock != c || !x.passed p (s.time.clock c).pos then s
    else if s.slotCounts x then (if s.fixesSlots then s.slotFixAt n tang p else s)
    else s.slotMissed n) s
  { s with time := s.time.setClock c { s.time.clock c with seen := (s.time.clock c).pos } }

/-- T_ang of a slot whose predicted crossing is 20 µs ahead within this station tick, or nearer: the fine tick at which the
predicted position reaches the target. A crossing that no prediction gave is fixed at the next fine tick, as 06 R191 has it for a
corrected clock. (DEDUCED, log 93) -/
def State.slotDue (s : State) (x : AngleSlot) : Option Nat :=
  let k := s.time.clock x.content.clock
  let ahead := predictNs (x.targetPos k.pos) k.pos k.rateNow
  if x.passed k.seen k.pos then some (s.nowNs / 10 * 10 + 10)
  else match ahead with
    | some d => if d < 30000 && x.content.admits k.rateNow then some ((s.nowNs + d + 9) / 10 * 10) else none
    | none => none

/-- SLOT_FIX (06 R184, R187): the predicted crossing of an ARMED slot is 20 µs ahead. -/
def execSlotFix (n : Fin 256) (s : State) : Host.Outcome State Fault Refusal :=
  let x := s.time.slot n
  if x.state = .armed ∧ s.slotCounts x ∧ s.fixesSlots then
    match s.slotDue x with
    | some tang => .next (s.slotFixAt n tang (s.time.clock x.content.clock).seen)
    | none => .next s
  else .next s

/-- The SHADOW executes a slot at the T_ang that its LEAD has fixed (06 R187). -/
def State.slotMirror (s : State) (n tang : Nat) : State :=
  let x := s.time.slot n
  if x.content.valid && x.state != .idle && x.state != .fixed then
    { s with time := s.time.setSlot n (x.fix tang (s.time.clock x.content.clock).seen) }
  else s

/-- SLOT_MISSED (06 R183, R184): in this station tick the clock passes the target of an ARMED slot while it is not locked or the
rate check fails. -/
def execSlotMissed (n : Fin 256) (s : State) : Host.Outcome State Fault Refusal :=
  let x := s.time.slot n
  let k := s.time.clock x.content.clock
  if x.state = .armed ∧ !s.slotCounts x ∧ x.passed k.seen (k.posAt 10000) then .next (s.slotMissed n) else .next s

/-- Z_EDGE (06 R178, R191), `offNs` ns into the station tick: an ARMED slot that a correction within Z_TOL moves the clock past is
crossed; one that a REF_ERROR moves it past is crossed while the clock is not locked. -/
def execZEdge (sh : Fin 2) (offNs : Fin 10000) (s : State) : Host.Outcome State Fault Refusal :=
  match s.time.shaftClock sh with
  | none => .next s
  | some i =>
    let k := s.time.clock i
    if (s.aio.getSh sh).lineFault || k.state == .overspeed || k.cpt == 0 then .next s
    else if k.state = .locked ∨ k.state = .standstill then
      let n : Int := k.cpt
      let turns := (k.cnt + n / 2) / n
      let d := k.cnt - turns * n
      if d.natAbs ≤ k.zTol then
        let p := k.base + BitVec.ofInt 64 (turns * 4294967296)
        let y := { k with base := p, cnt := 0, between := 0, since := some (-(offNs.val : Int)), refErr := false }
        let against := if k.back then decide (d < 0) else decide (0 < d)
        let y := { y with held := if against then some k.own else none }
        .next (State.slotsCross { s with time := s.time.setClock i y } i (k.posAt offNs.val) ((s.nowNs + offNs.val) / 10 * 10 + 10))
      else
        let y := { k.reference (Bits.hi k.own) with refErr := true, state := .unreferenced }
        let s1 := ((s.acPut i y).setEvent .time 9).slotsCross i (k.posAt offNs.val) 0
        .next (s1.acPut i { s1.time.clock i with state := .locked })
    else .next (s.acPut i { k.reference (Bits.hi k.own) with refErr := false, state := .locked })

/-- A switching action on a DIO or SO: of the actions on one channel at one fine tick OFF wins, and actions that switch the same
way are applied once (06 R185, R186). -/
def State.slotSwitch (s : State) (so : Bool) (target ns : Nat) (on : Bool) : State :=
  let key := if so then 96 + target else target
  let done := match Tbl.get none s.time.lastAct key with
    | some (i, was) => i == ns && (on || !was)
    | none => false
  if done then s
  else
    let s1 := { s with time := { s.time with lastAct := Tbl.set none s.time.lastAct key (some (ns, on)) } }
    if so then s1.soSlot target on
    else { s1 with dio := s1.dio.slot s1.tickNo s1.time.sec.toNat target on }

/-- SLOT_PULSE_END (06 R185): PULSE after T_ang the DIO switches OFF. -/
def execSlotPulseEnd (n : Fin 256) (s : State) : Host.Outcome State Fault Refusal :=
  let x := s.time.slot n
  if !x.pulsing || decide (s.nowNs + 10000 ≤ x.fireNs + x.content.pulse.toNat * 1000) then .next s
  else
    let s1 := { s with time := s.time.setSlot n { x with pulsing := false } }
    .next (s1.slotSwitch false x.content.target (x.fireNs + x.content.pulse.toNat * 1000) false)

/-! Captures. -/

/-- The angle clock that a channel is captured on, when it is configured for capture (06 R189). -/
def State.capClock (s : State) (ch : CapCh) : Option Nat :=
  match ch with
  | .dio n => let c := (s.dio.getCh n).cfg; if Bits.bit c 22 then some (Bits.get c 20 2) else none
  | .sh sh line =>
    let c := (s.aio.getSh sh).cfg
    if Bits.bit c (25 - line.val) then some (Bits.get c 21 2) else none
  | .sip _ _ => match Tbl.get 0 s.time.sipCap (capCode ch) with | 0 => none | k + 1 => some k

/-- An edge joins a capture record. -/
def Capture0.add (c : Capture0) (e : CapEdge) : Capture0 :=
  { count := min 255 (c.count + 1), first := if c.count = 0 then e else c.first, last := e }

/-- INPUT_EDGE_CAPTURE (06 R189). -/
def execInputEdgeCapture (ch : CapCh) (rising : Bool) (ns : Nat) (s : State) : Host.Outcome State Fault Refusal :=
  match s.capClock ch with
  | none => .next s
  | some i =>
    let k := s.time.clock i
    let p := k.posAt ((ns : Int) - s.nowNs)
    let e : CapEdge := { ns := ns / 10 * 10, angle := Bits.lo p, turn := Bits.hi p, rising := rising, locked := k.locked }
    let add := fun (t : Tbl Capture0) task => Tbl.mod {} t (task * 256 + (capCode ch)) (fun c => c.add e)
    .next { s with time := { s.time with accum := (s.capTasks (capCode ch)).foldl add s.time.accum } }

/-- At T0 the captures of a task's channel are latched; with no edge the other fields keep their values (06 R189). -/
def TimeBlk.capLatch (t : TimeBlk) (task ch : Nat) : TimeBlk :=
  let key := task * 256 + ch
  let a := Tbl.get {} t.accum key
  let l := if a.count = 0 then { Tbl.get {} t.latched key with count := 0 } else a
  { t with accum := Tbl.set {} t.accum key {}, latched := Tbl.set {} t.latched key l }

end Sys2Proof.Machine
end

