-- ==== Sys2Proof/Machine/Net.lean ====
section
/-! DEFINITION. Machine/Net.lean: the ship network: streams, redundancy, bandwidth budgets, PTP paths and timestamps, and the
firing of angle-event slots (07 R193-R222, 06 R164, R185). -/
namespace Sys2Proof.Machine

/-! Ports. -/

/-- The pair of a port. -/
def pairOf (p : Nat) : Nat := p / 2

def NetBlk.modPort (d : NetBlk) (p : Nat) (f : NetPort → NetPort) : NetBlk := d.setPort p (f (d.port p))
def NetBlk.modCtx (d : NetBlk) (n : Nat) (f : StreamCtx → StreamCtx) : NetBlk := d.setCtx n (f (d.ctx n))

/-- Is a pair isolated by a network unit fault (01 R22)? -/
def NetBlk.isolated (d : NetBlk) (p : Nat) : Bool := Tbl.get false d.nodeFault p

/-- The station address that a port uses (07 R195). -/
def NetBlk.macOf (d : NetBlk) (p : Nat) : Nat :=
  Tbl.get 0 d.macs (if d.redundant (pairOf p) then 2 * pairOf p else p)

/-- Does PTP use this port (07 R211)? -/
def NetBlk.ptpUses (d : NetBlk) (p : Nat) : Bool :=
  pairOf p == d.ptpPair && (d.redundant d.ptpPair || p % 2 == d.ptpPort)

/-- A cause of REROUTE (07 R215). -/
def State.setReroute (s : State) : State :=
  let was := s.net.reroute
  { s with net := { s.net with reroute := true, rerouted := true } }.setEventIf (!was) .net 2

/-- PORT_LINK_DOWN (07 R215, R223). -/
def execPortLinkDown (p : Fin 4) (s : State) : Host.Outcome State Fault Refusal :=
  if !(s.net.port p).link then .next s
  else
    let d := s.net.modPort p (fun x => { x with link := false, downs := Bits.inc x.downs })
    let s1 := { s with net := d }.setEvent .net 0
    .next (if pairOf p == d.ptpPair then s1.setReroute else s1)

/-- PORT_LINK_UP (07 R223). -/
def execPortLinkUp (p : Fin 4) (s : State) : Host.Outcome State Fault Refusal :=
  if (s.net.port p).link then .next s
  else .next ({ s with net := s.net.modPort p (fun x => { x with link := true }) }.setEvent .net 1)

/-! Transmit. -/

/-- An entry joins a transmit timestamp queue; with 64 entries held it is dropped (07 R218, R219). -/
def State.tsPut (s : State) (pair : Nat) (e : TsEntry) : State :=
  let q := Tbl.get [] s.net.tsq pair
  if 64 ≤ q.length then
    { s with net := { s.net with tsOver := Tbl.mod 0 s.net.tsOver pair (fun n => Bits.sat 16 n 1) } }.setEvent .net 7
  else { s with net := { s.net with tsq := Tbl.set [] s.net.tsq pair (q ++ [e]) } }

/-- The flags of the stream header (07 R204), as its word at 0x02. -/
def State.streamFlags (s : State) (task : Nat) : Nat :=
  (if s.inStop then 32768 else 0) + (if s.taskHeld task then 16384 else 0) + (if s.taskStale task then 8192 else 0)
    + (if s.solo then 4096 else 0)

/-- May a context launch at all now (07 R196, R204, 16 R445)? -/
def State.mayLaunch (s : State) (c : StreamCtx) : Bool :=
  c.valid && !c.receive && s.mod.ready && !s.net.isolated c.pair && (!s.inStop || c.stopTx)

/-- How long a frame and its gap occupy the wire, in ns, at 1000 Mbit/s. -/
def wireNs (len : Nat) : Nat := (len + 20) * 8

/-- The scheduled launches of PERIODIC contexts that may come next: launch time and context (07 R203). -/
def State.nextLaunches (s : State) (n : Nat) : List (Nat × Nat) :=
  let c := s.net.ctx n
  match s.taskSched c.task with
  | none => []
  | some (t0, k) =>
    let one : Nat → Nat → List (Nat × Nat) := fun t i => if i % c.every = 0 ∧ c.launched ≠ some t then [(t + c.offset * 10, n)] else []
    one t0 k ++ one (t0 + (s.taskCfg c.task).ticks * 10000) (k + 1)

/-- The scheduled launches that are pending on a port: launch time, context and time on the wire (07 R205). -/
def State.pendingOn (s : State) (p : Nat) : List (Nat × Nat × Nat) :=
  let live := (s.net.ctxs.filter (fun e => s.mayLaunch e.2 && e.2.ports.contains p)).map Prod.fst
  let timed := live.flatMap (fun n => if (s.net.ctx n).slotLaunch then [] else s.nextLaunches n)
  let fixed := s.time.slots.filterMap (fun e =>
    if e.2.state == .fixed && e.2.content.action == 6 && live.contains e.2.content.target then some (e.2.tang, e.2.content.target) else none)
  (timed ++ fixed).filterMap (fun e =>
    let c := s.net.ctx e.2
    let len := c.frameLen (s.net.redundant c.pair)
    if c.budget ≠ 0 ∧ c.budget < c.useAt e.1 + len then none else some (e.1, e.2, wireNs len))

/-- When a scheduled frame starts on a port: at its launch time, behind the frame that is on the wire and behind the frames of
the same launch time with a lower context number (07 R205). -/
def State.startOn (s : State) (p n launch : Nat) : Nat :=
  let x := s.net.port p
  let same := if x.lastL = some launch then x.sameL else []
  let base := if x.lastL = some launch then x.before else x.busy
  let due := ((s.pendingOn p).filter (fun e => e.1 == launch)).map Prod.snd
  let ahead := (same ++ due.filter (fun e => !same.any (fun f => f.1 == e.1))).filter (fun e => decide (e.1 < n))
  max (max launch s.nowNs) base + (ahead.map Prod.snd).sum

/-- A scheduled frame goes on the wire of a port. -/
def NetPort.carry (x : NetPort) (n launch start dur : Nat) : NetPort :=
  let same := x.lastL = some launch
  { x with tx := x.tx + 1#64, busy := max x.busy (start + dur), lastL := some launch
           before := if same then x.before else x.busy, sameL := (if same then x.sameL else []) ++ [(n, dur)] }

/-- The function whose brake test frame a context carries (10 R310). -/
def State.brakeOn (s : State) (n : Nat) : Option Nat := (s.safe.brakeCtxs.find? (fun e => e.1 == n)).map Prod.snd

/-- Lane P writes the payload of a context that a brake test uses, and a frame with ABORT is sent once (10 R310, R311). -/
def State.brakeWrite (s : State) (n launch : Nat) : State :=
  match s.brakeOn n with
  | some f =>
    if !s.safe.laneP then s
    else { s with net := s.net.modCtx n (fun c => { c with payload := s.safe.brakeFrame launch f })
                  safe := s.safe.modFn f (fun v => { v with abort := false }) }
  | none => s

/-- A frame of a transmit context is launched (07 R202, R204-R206, R209, R218, R220). -/
def State.launch (s : State) (n launch : Nat) : State :=
  let s := s.brakeWrite n launch
  let c := s.net.ctx n
  let red := s.net.redundant c.pair
  let len := c.frameLen red
  if c.budget ≠ 0 ∧ c.budget < c.useAt launch + len then
    { s with net := s.net.modCtx n (fun c => { c with dropCnt := Bits.sat 16 c.dropCnt 1 }) }.setEvent .net 4
  else
    let on := c.ports.map (fun p => (p, s.startOn p n launch))
    let late := on.any (fun e => decide (launch + 1000 < e.2))
    let r := Tbl.get 0#16 s.net.redSeq c.pair
    let out := NetOut.stream n on (if red then some r else none) (if c.encap = 2 then some 1 else none)
      (c.header (s.streamFlags c.task) launch) c.payload
    let d := s.net.modCtx n (fun c => { c.count launch len with
      seq := c.seq + 1#32, lastTime := launch, lateCnt := if late then Bits.sat 16 c.lateCnt 1 else c.lateCnt })
    let d := on.foldl (fun (d : NetBlk) e => d.modPort e.1 (fun x => x.carry n launch e.2 (wireNs len))) d
    let d := { d with sent := d.sent ++ [out], redSeq := if red then Tbl.set 0#16 d.redSeq c.pair (r + 1#16) else d.redSeq }
    let s1 := { s with net := d }.setEventIf late .net 9
    let s1 := if s1.leads then s1.olvia (.seq (.stream n (c.seq + 1#32) c.pair (Tbl.get 0#16 d.redSeq c.pair))) else s1
    if !c.tsReq then s1
    else
      (if red then on.take 1 else on).foldl (fun s e =>
        s.tsPut c.pair { ctx := n, second := e.1 % 2 == 1, id := c.seq.setWidth 16, ns := e.2 }) s1

/-- Pending launches in the order of their times. -/
def insertLaunch (e : Nat × Nat × Nat) : List (Nat × Nat × Nat) → List (Nat × Nat × Nat)
  | [] => [e]
  | a :: l => if e.1 < a.1 then e :: a :: l else a :: insertLaunch e l

/-- When a frame that is not scheduled starts on a port: none is still on the wire at a pending launch time (07 R205). -/
def State.fitOn (s : State) (p t dur : Nat) : Nat :=
  let l := (s.pendingOn p).foldl (fun l e => insertLaunch e l) []
  l.foldl (fun st e => if st < e.1 + e.2.2 ∧ e.1 < st + dur then e.1 + e.2.2 else st) (max t (s.net.port p).busy)

/-- The supervisor sends a frame of `len` bytes: on one port, or with `both` on both ports of a redundant pair; on such a pair
every frame takes a number (07 R200, R205). -/
def State.svSend (s : State) (p len : Nat) (both : Bool) (mk : List (Nat × Nat) → Option Half → NetOut) : State :=
  let pair := pairOf p
  let red := s.net.redundant pair
  let dur := wireNs (max 64 len + if red then 6 else 0)
  let ps := if red && both then [2 * pair, 2 * pair + 1] else [p]
  let on := ps.map (fun q => (q, s.fitOn q s.nowNs dur))
  let r := Tbl.get 0#16 s.net.redSeq pair
  let d := on.foldl (fun (d : NetBlk) e => d.modPort e.1 (fun x => { x with tx := x.tx + 1#64, busy := max x.busy (e.2 + dur) })) s.net
  { s with net := { d with sent := d.sent ++ [mk on (if red then some r else none)]
                           redSeq := if red then Tbl.set 0#16 d.redSeq pair (r + 1#16) else d.redSeq } }

/-- A launch falls due: sent while the gate is open; otherwise it waits for a takeover (04 R133). -/
def State.launchDue (s : State) (n launch : Nat) : State :=
  if s.gateOpen then s.launch n launch
  else { s with net := { s.net with due := (s.net.due ++ [(n, launch)]).drop (s.net.due.length + 1 - 1024) } }

/-- PERIODIC_LAUNCH (07 R203): T0 + OFFSET of the last scheduled T0 has come, and that T0 has not had its launch. -/
def execPeriodicLaunch (ctx : Fin 1024) (s : State) : Host.Outcome State Fault Refusal :=
  let c := s.net.ctx ctx
  match s.taskSched c.task with
  | none => .next s
  | some (t0, n) =>
    if s.mayLaunch c && !c.slotLaunch && n % c.every == 0 && decide (t0 + c.offset * 10 < s.nowNs + 10000) && c.launched != some t0 then
      .next (State.launchDue { s with net := s.net.modCtx ctx (fun c => { c with launched := some t0 }) } ctx (t0 + c.offset * 10))
    else .next s

/-- BUDGET_WINDOW (07 R209): windows of 1 ms, aligned to whole TAI milliseconds; one that is over shows no use. -/
def execBudgetWindow (s : State) : Host.Outcome State Fault Refusal :=
  let f := fun (c : StreamCtx) => if c.winMs < s.nowNs / 1000000 then { c with windowUse := 0, winMs := s.nowNs / 1000000 } else c
  .next { s with net := { s.net with ctxs := Tbl.map {} f s.net.ctxs } }

/-- Put a launch in launch-time order. -/
def insertDue (e : Nat × Nat) : List (Nat × Nat) → List (Nat × Nat)
  | [] => [e]
  | a :: l => if e.2 < a.2 then e :: a :: l else a :: insertDue e l

/-- At a takeover every launch still due goes out in launch-time order (04 R133), the timestamp queues start empty (07 R219),
and no Modbus connection is carried across (07 R221). -/
def State.netTakeover (s : State) : State :=
  (s.net.due.foldl (fun l e => insertDue e l) []).foldl (fun s e => if s.mayLaunch (s.net.ctx e.1) then s.launch e.1 e.2 else s)
    { s with net := { s.net with due := [], tsq := [], conns := [], reported := [] } }

/-! Slots (06 R185). -/

/-- After its action a slot is FIRED, or ARMED for the next turn with EVERY_TURN (06 R184). -/
def AngleSlot.fired (x : AngleSlot) : AngleSlot :=
  { x with state := if x.content.every then .armed else .fired, reason := 0, fireCount := Bits.sat 16 x.fireCount 1
           fireTurn := x.tangTurn, fireNs := x.tang, lastTurn := some x.tangTurn, heldNew := none
           pulsing := x.content.action == 3 }

/-- The action of a slot at T_ang (06 R185, R187). -/
def State.slotAct (s : State) (x : AngleSlot) : State :=
  let c := x.content
  match c.action with
  | 1 => s.slotSwitch false c.target x.tang true
  | 2 => s.slotSwitch false c.target x.tang false
  | 3 => s.slotSwitch false c.target x.tang true
  | 4 => s.slotSwitch true c.target x.tang true
  | 5 => s.slotSwitch true c.target x.tang false
  | 6 =>
    let k := s.net.ctx c.target
    if s.mayLaunch k && k.slotLaunch then s.launchDue c.target x.tang else s
  | _ => s

/-- SLOT_FIRE (06 R184, R185): T_ang of a FIXED slot has come. -/
def execSlotFire (n : Fin 256) (s : State) : Host.Outcome State Fault Refusal :=
  let x := s.time.slot n
  if x.state ≠ .fixed ∨ s.nowNs + 10000 ≤ x.tang then .next s
  else
    let s1 := { s with time := s.time.setSlot n x.fired }.slotAct x
    match x.heldNew with
    | some c => .next (s1.slotLoad n c)
    | none => .next s1

/-! Receive. -/

/-- Steps 1 and 2 of R207: the frame arrives on a port of the context and matches it. -/
def StreamCtx.matchesRx (c : StreamCtx) (f : RxFrame) : Bool :=
  c.valid && c.receive && c.ports.contains f.port.val && match f.kind with
    | .eth t i => c.encap == 0 && c.mac == f.dst && c.portNo == t && c.streamId == i
    | .udp ip p i => c.encap == 1 && c.ip == ip && c.portNo == p && c.streamId == i
    | .iec450 ip p => c.encap == 2 && c.ip == ip && c.portNo == p
    | _ => false

/-- Has the redundancy number been accepted already (07 R207 step 4)? -/
def StreamCtx.duplicate (c : StreamCtx) (r : Half) : Bool :=
  let d := (r - c.ddBase).toInt
  c.ddOpen && decide (d ≤ 0) && decide (-31 ≤ d) && Bits.bit c.ddMask (-d).toNat

/-- The duplicate window after a number has been accepted. -/
def StreamCtx.mark (c : StreamCtx) (r : Half) : StreamCtx :=
  let d := (r - c.ddBase).toInt
  if !c.ddOpen then { c with ddOpen := true, ddBase := r, ddMask := 1#32 }
  else if 0 < d then { c with ddBase := r, ddMask := (c.ddMask <<< d.toNat) ||| 1#32 }
  else if -31 ≤ d then { c with ddMask := Bits.setBit c.ddMask (-d).toNat }
  else c

/-- The outcome of the steps 3 to 8 of R207. -/
inductive RxStep where
  | conflict | duplicate | old | aged | long | budget | accept
deriving DecidableEq, Repr

/-- The first step that a frame fails, for a context whose SRC_MAC stands (07 R207). -/
def StreamCtx.judge (c : StreamCtx) (red : Bool) (f : RxFrame) : RxStep :=
  if c.srcMac ≠ f.src then .conflict
  else if red && c.duplicate f.redSeq then .duplicate
  else if c.encap ≠ 2 ∧ ¬ c.anySeq ∧ (f.seq - c.seq).toInt ≤ 0 then .old
  else if Bits.leAt c.cfg 24 2 ≠ 0 ∧ f.launch + Bits.leAt c.cfg 24 2 * 1000 < f.arrival then .aged
  else if c.length < f.payload.length then .long
  else if c.budget ≠ 0 ∧ c.budget < c.useAt f.arrival + f.length then .budget
  else .accept

/-- An accepted frame. -/
def StreamCtx.take (c : StreamCtx) (red : Bool) (f : RxFrame) : StreamCtx :=
  let k := if red then c.mark f.redSeq else c
  { k.count f.arrival f.length with
           seq := if c.encap = 2 then c.seq else f.seq, anySeq := false, lastTime := f.arrival
           rxPrev := if c.rx.arrival / 10000 < f.arrival / 10000 then c.rx else c.rxPrev
           rx := { seq := f.seq, arrival := f.arrival, payload := f.payload, any := true } }

/-- A frame reaches the receive context that it matches (07 R207). -/
def State.streamIn (s : State) (n : Nat) (f : RxFrame) : State :=
  let c0 := s.net.ctx n
  let c := if c0.srcMac = 0 then { c0 with srcMac := f.src } else c0
  let red := s.net.redundant c.pair
  let put := fun (x : StreamCtx) => { s with net := s.net.setCtx n x }
  let drop := { c with dropCnt := Bits.sat 16 c.dropCnt 1 }
  let late := { c with lateCnt := Bits.sat 16 c.lateCnt 1 }
  match c.judge red f with
  | .conflict => (put drop).setEvent .net 6
  | .duplicate =>
    let s1 := put c
    { s1 with net := s1.net.modPort f.port (fun x => { x with dup := Bits.inc x.dup }) }
  | .old => put late
  | .aged => (put late).setEvent .net 5
  | .long => (put drop).setEvent .net 8
  | .budget => (put drop).setEvent .net 4
  | .accept => put (c.take red f)

/-- Does a frame come from a transmit context of the twin (07 R201)? -/
def StreamCtx.matchesTx (c : StreamCtx) (f : RxFrame) : Bool :=
  c.valid && !c.receive && c.ports.contains f.port.val && match f.kind with
    | .eth t i => c.encap == 0 && c.portNo == t && c.streamId == i
    | .udp ip p i => c.encap == 1 && c.ip == ip && c.portNo == p && c.streamId == i
    | .iec450 ip p => c.encap == 2 && c.ip == ip && c.portNo == p
    | _ => false

/-- The launch time of a frame that the module hears of its own context `n`: a 450 frame carries none, and is the oldest launch of
the context that is still due. -/
def NetBlk.heardLaunch (d : NetBlk) (n : Nat) (f : RxFrame) : Option Nat :=
  if (d.ctx n).encap = 2 then (d.due.find? (fun e => e.1 == n && decide (e.2 ≤ f.arrival))).map Prod.snd else some f.launch

/-- A module whose gate is closed keeps the transmit state from a frame of its twin that it hears whole, the first copy of two
(07 R200, R201, 04 R131-R133). A held frame of another context still counts as not sent. -/
def State.hear (s : State) (n : Nat) (f : RxFrame) : State :=
  match s.net.heardLaunch n f with
  | none => s
  | some t =>
    let len := (s.net.ctx n).frameLen (s.net.redundant (s.net.ctx n).pair)
    let again := (s.net.ctx n).encap != 2 && (s.net.ctx n).seq == f.seq + 1#32 && (s.net.ctx n).lastTime == f.launch
    let late := decide (t + 1000 < f.arrival)
    if again then s
    else
      let d := s.net.modCtx n (fun c => { c.count t len with
        seq := if c.encap = 2 then c.seq + 1#32 else f.seq + 1#32, lastTime := t
        lateCnt := if late then Bits.sat 16 c.lateCnt 1 else c.lateCnt })
      { s with net := { d with due := d.due.filter (fun e => !(e.1 == n && decide (e.2 ≤ t))) } }

/-- Any frame of the twin's pair carries the redundancy counter on. -/
def NetBlk.hearSeq (d : NetBlk) (p : Nat) (r : Half) : NetBlk :=
  if d.redundant p then { d with redSeq := Tbl.set 0#16 d.redSeq p (r + 1#16) } else d

/-- The node table takes a supervision frame: 512 entries, forgotten after 60 s (07 R198). -/
def NetBlk.node (d : NetBlk) (src ns : Nat) : NetBlk :=
  let l := d.nodes.filter (fun e => e.1 != src && decide (ns < e.2 + 60000000000))
  { d with nodes := if l.length < 512 then l ++ [(src, ns)] else l }

/-- The Ethernet address of an IPv4 multicast group, its first byte least significant. -/
def groupMac (ip : Word) : Nat :=
  0x5E0001 + (Bits.get ip 16 7) * 0x1000000 + (Bits.get ip 8 8) * 0x100000000 + (Bits.get ip 0 8) * 0x10000000000

/-- The multicast groups of the receive contexts of a port (07 R195). -/
def NetBlk.groups (d : NetBlk) (p : Nat) : List Word :=
  ((d.ctxs.filter (fun e => e.2.valid && e.2.receive && e.2.encap != 0 && e.2.ports.contains p && Bits.get e.2.ip 28 4 == 14)).map
    (fun e => e.2.ip)).eraseDups

/-- A frame that no context accepts goes to the supervisor when it is addressed to a station address, to the broadcast address or
to a joined group (07 R207); the node table discards duplicates for 400 ms (R198). -/
def State.toSupervisor (s : State) (f : RxFrame) : State :=
  let d := s.net
  let pair := pairOf f.port
  let mine := f.dst == d.macOf f.port || f.dst == 0xFFFFFFFFFFFF || (d.groups f.port).any (fun g => groupMac g == f.dst)
  let seen := d.svSeen.filter (fun e => decide (f.arrival < e.2.2.2 + 400000000))
  if !mine then s
  else if d.redundant pair && seen.any (fun e => e.1 == pair && e.2.1 == f.src && e.2.2.1 == f.redSeq) then
    { s with net := { d.modPort f.port (fun x => { x with dup := Bits.inc x.dup }) with svSeen := seen } }
  else
    { s with net := { d with svSeen := if d.redundant pair then (pair, f.src, f.redSeq, f.arrival) :: seen else seen
                             toSv := d.toSv ++ [(f.port.val, f.src, f.dst)] } }

/-- The longest frame that a port of the pair accepts (07 R193). -/
def NetBlk.longest (d : NetBlk) (p : Nat) : Nat := if d.redundant p then 1528 else 1522

/-- STREAM_FRAME_RX (07 R193, R196, R201, R207): a frame has been received whole on a port. -/
def execStreamFrameRx (f : RxFrame) (s : State) : Host.Outcome State Fault Refusal :=
  let pair := pairOf f.port
  if s.net.isolated pair || decide (s.net.longest pair < f.length) then .next s
  else if !f.fcsOk then
    .next { s with net := s.net.modPort f.port (fun x => { x with rx := x.rx + 1#64, err := Bits.inc x.err }) }
  else
    let d := s.net.modPort f.port (fun x => { x with rx := x.rx + 1#64 })
    let own := !s.gateOpen && s.net.macOf f.port == f.src
    let d := if own then d.hearSeq pair f.redSeq else d
    let s1 := { s with net := if f.kind = .supervision ∧ !own ∧ d.redundant pair then d.node f.src f.arrival else d }
    let hit := if own then s.net.ctxs.find? (fun e => e.2.matchesTx f) else s.net.ctxs.find? (fun e => e.2.matchesRx f)
    match hit with
    | none => .next (if own then s1 else s1.toSupervisor f)
    | some (n, _) => .next (if own then (if s.joined then s1.hear n f else s1) else s1.streamIn n f)

/-- SRC_MAC_FORGET (07 R207): 60 s without an accepted frame. -/
def execSrcMacForget (ctx : Fin 1024) (s : State) : Host.Outcome State Fault Refusal :=
  let c := s.net.ctx ctx
  if c.receive ∧ c.lastTime + 60000000000 ≤ s.nowNs then
    .next { s with net := s.net.modCtx ctx (fun c => { c with srcMac := 0, anySeq := true }) }
  else .next s

/-- DD_WINDOW_CLEAR (07 R207): 400 ms without an accepted frame. -/
def execDdWindowClear (ctx : Fin 1024) (s : State) : Host.Outcome State Fault Refusal :=
  let c := s.net.ctx ctx
  if c.receive ∧ c.lastTime + 400000000 ≤ s.nowNs then
    .next { s with net := s.net.modCtx ctx (fun c => { c with ddOpen := false, ddMask := 0#32 }) }
  else .next s

/-- A receive context delivers its record at a T0 at `t` ns in the station tick of `t0` (07 R208); RX_BAD when it turns from GOOD to BAD. -/
def State.rxDeliver (s : State) (n t0 t : Nat) : State × List Byte :=
  let c := s.net.ctx n
  let good := c.rxGood t0 t
  let d := s.net.setCtx n { c with since := t0, wasGood := good }
  ({ s with net := d }.setEventIf (c.wasGood && !good) .net 10, c.record t0 t)

/-- A new configuration of a context takes effect at the owning task's T0 (07 R222). -/
def StreamCtx.takeCfg (c : StreamCtx) : StreamCtx :=
  match c.nextCfg with
  | none => c
  | some bs =>
    let k := { c with cfg := bs, nextCfg := none }
    if k.receive == c.receive && k.streamId == c.streamId then k
    else { k with seq := 0#32, srcMac := 0, anySeq := true, ddOpen := false, ddMask := 0#32 }

/-! Rings. -/

/-- HSR_FORWARD (07 R199, R205, R212): the residence time of a PTP event message runs to its start on the other port. -/
def execHsrForward (f : RingFrame) (s : State) : Host.Outcome State Fault Refusal :=
  let pair := pairOf f.port
  let other := 2 * pair + (1 - f.port.val % 2)
  let seen := s.net.fwdSeen.filter (fun e => decide (f.ns < e.2.2.2 + 400000000))
  let again := seen.any (fun e => e.1 == f.port.val && e.2.1 == f.src && e.2.2.1 == f.redSeq)
  if !s.gateOpen || s.net.pairMode pair != 2 || s.net.isolated pair || s.net.macOf f.port == f.src || again
      || decide (s.net.longest pair < f.length) then .next s
  else
    let p2p := Bits.get s.net.ptpCfg 30 2 != 0
    let start := s.fitOn other f.ns (wireNs f.length)
    let corr := f.ptp.map (fun e =>
      e.1 + ((start : Int) - e.2.1) + (if p2p && e.2.2 then ((s.net.port f.port).delay : Int) else 0))
    let d := (s.net.modPort f.port (fun x => { x with fwd := Bits.inc x.fwd })).modPort other (fun x =>
      { x with tx := x.tx + 1#64, busy := max x.busy (start + wireNs f.length) })
    .next { s with net := { d with fwdSeen := (f.port.val, f.src, f.redSeq, f.ns) :: seen
                                   sent := d.sent ++ [.forward other start f.src f.redSeq corr] } }

/-- A supervision frame of a PRP or HSR pair. (PRESUMED, log 94) -/
def State.supervise (s : State) (p : Nat) : State :=
  if s.net.redundant p && !s.net.isolated p then s.svSend (2 * p) 64 true .supervision else s

/-- SUPERVISION_FRAME_SEND (07 R198). -/
def execSupervisionFrameSend (s : State) : Host.Outcome State Fault Refusal :=
  if s.gateOpen then .next ((s.supervise 0).supervise 1) else .next s

/-- ADDRESS_SERVICE_REQUEST (07 R195): the answer has `len` bytes; a membership query is answered for each group of the receive
contexts. -/
def execAddressServiceRequest (p : Fin 4) (r : AddrReq) (len : Nat) (s : State) : Host.Outcome State Fault Refusal :=
  let ip := Tbl.get 0#32 s.net.ips (if s.net.redundant (pairOf p) then 2 * pairOf p else p)
  let answer := fun (i : Word) => if i == ip && ip != 0#32 then s.svSend p len true (fun on q => .answer on q r) else s
  if s.gateOpen && !s.svDown && !s.net.isolated (pairOf p) then
    match r with
    | .arp i => .next (answer i)
    | .echo i => .next (answer i)
    | .igmpQuery => .next ((s.net.groups p).foldl (fun s g => s.svSend p len true (fun on q => .membership on q g)) s)
  else .next s

/-! PTP (07 R211-R217). -/

/-- The order of the default best master clock algorithm (PRESUMED from IEEE 1588, log 15). -/
def masterRank (m : Announce) : List Nat :=
  [m.prio1, m.clkClass, m.accuracy, m.variance, m.prio2, m.gm.toNat, m.steps, m.sender.toNat]

def rankLt : List Nat → List Nat → Bool
  | a :: as, b :: bs => decide (a < b) || (a == b && rankLt as bs)
  | _, _ => false

/-- The best of the foreign masters. (PRESUMED, log 15) -/
def bestMaster : List Announce → Option Announce
  | [] => none
  | m :: l =>
    match bestMaster l with
    | some b => if rankLt (masterRank b) (masterRank m) then some b else some m
    | none => some m

/-- The foreign masters that have announced themselves within four of their intervals. (PRESUMED, log 15) -/
def NetBlk.mastersAt (d : NetBlk) (now : Nat) : List Announce := d.masters.filter (fun m => decide (now < m.heard + 4 * m.interval))

/-- PTP_ANNOUNCE (07 R211): the foreign masters, and the UTC offset and leap flags of the best of them. -/
def execPtpAnnounce (m : Announce) (s : State) : Host.Outcome State Fault Refusal :=
  if m.domain ≠ Bits.get s.net.ptpCfg 16 8 then .next s
  else
    let others := (s.net.mastersAt m.heard).filter (fun o => o.sender != m.sender)
    let l := if others.length < 8 then others ++ [m] else others
    match bestMaster l with
    | none => .next s
    | some b =>
      let t := s.time
      let u := { t with utcValid := b.utcValid, utcOffset := b.utcOffset, leap59 := b.leap59, leap61 := b.leap61 }
      let changed := t.utcOffset != u.utcOffset || t.leap59 != u.leap59 || t.leap61 != u.leap61
      .next ({ s with time := u, net := { s.net with masters := l } }.setEventIf changed .time 14)

/-- A path delay has been measured (07 R215, R216): not adopted while frozen. -/
def State.delayMeasured (s : State) (p ns : Nat) : State :=
  let x := s.net.port p
  let jump := match x.newest with
    | some o => decide (100 < (ns : Int) - o) || decide (100 < (o : Int) - ns)
    | none => false
  let s1 := { s with net := s.net.setPort p { x with newest := some ns, delay := if s.net.frozen then x.delay else ns } }
  if jump && s.net.ptpUses p && s.net.redundant s.net.ptpPair then s1.setReroute else s1

/-- PTP_DELAY_RESPONSE (07 R213, R215): only the transmitting module measures; it gives the delay to its partner. -/
def execPtpDelayResponse (p : Fin 4) (ns : Nat) (s : State) : Host.Outcome State Fault Refusal :=
  if !s.gateOpen then .next s
  else
    let t := s.delayMeasured p ns
    .next (if t.leads then t.olvia (.seq (.delay p ns)) else t)

/-- A delay request, or a peer delay request, on each path of PTP at the interval of LOG_DELAY; its timestamp entry is the
supervisor's (07 R211, R213, R218). (PRESUMED, log 94) -/
def State.delayTick (s : State) : State :=
  let log := (BitVec.ofNat 8 (Bits.get s.net.ptpCfg 0 8)).toInt
  let gap := if 0 ≤ log then 1000000000 * 2 ^ log.toNat else 1000000000 / 2 ^ (-log).toNat
  if !s.gateOpen || s.svDown || !s.mod.ready || decide (s.nowNs < s.net.reqNext) then s
  else
    let peer := Bits.get s.net.ptpCfg 30 2 != 0
    let live := (List.range 4).filter (fun p => s.net.ptpUses p && (s.net.port p).link && !s.net.isolated (pairOf p))
    live.foldl (fun (s : State) p =>
      let s1 := s.svSend p (if peer then 72 else 64) false (fun on q => .delayReq on q peer)
      let s2 := { s1 with net := { s1.net with svId := s1.net.svId + 1#16 } }
      s2.tsPut (pairOf p) { sv := true, ctx := 0, second := p % 2 == 1, id := s1.net.svId, ns := ((s1.net.port p).busy - wireNs (if peer then 72 else 64)) })
      { s with net := { s.net with reqNext := s.nowNs + gap } }

/-- What the network unit forgets with time: nodes after 60 s, frames of the supervisor after 400 ms, foreign masters (07 R198,
R211). -/
def NetBlk.forget (d : NetBlk) (now : Nat) : NetBlk :=
  { d with nodes := d.nodes.filter (fun e => decide (now < e.2 + 60000000000)), masters := d.mastersAt now
           svSeen := d.svSeen.filter (fun e => decide (now < e.2.2.2 + 400000000)) }

/-- The groups of the receive contexts are reported once the module transmits, and again where they change (07 R195).
(PRESUMED, log 94) -/
def State.groupTick (s : State) : State :=
  if !s.gateOpen || s.svDown || !s.mod.ready then s
  else
    let ps := (List.range 4).filter (fun p => !s.net.isolated (pairOf p) && !(s.net.redundant (pairOf p) && p % 2 == 1))
    let all := ps.flatMap (fun p => (s.net.groups p).map (fun g => (p, g)))
    (all.filter (fun e => !s.net.reported.contains e)).foldl (fun s e => s.svSend e.1 64 true (fun on q => .membership on q e.2))
      { s with net := { s.net with reported := all } }

/-- The network unit at a station tick. -/
def State.netTick (s : State) : State := (State.delayTick { s with net := s.net.forget s.nowNs }).groupTick

/-- The paths after one sync interval (07 R214, R215). Gives whether a cause of REROUTE arose. On an INDEPENDENT pair 16 intervals of
the one path end REROUTE. (DESIGN CHOICE, log 102) -/
def NetBlk.paths (d : NetBlk) (first second : Option Int) : NetBlk × Bool :=
  let red := d.redundant d.ptpPair
  let m0 := if first.isSome then 0 else d.missed0 + 1
  let m1 := if second.isSome then 0 else d.missed1 + 1
  let r0 := if first.isSome then d.run0 + 1 else 0
  let lost := (d.heard0 && m0 == 3) || (red && d.heard1 && m1 == 3)
  let now2 := red && (if d.second then decide (r0 < 16) else decide (3 ≤ m0))
  let both := first.isSome && second.isSome
  let diff : Int := match first, second with
    | some a, some b => if now2 then a - b else b - a
    | _, _ => d.diff
  let apart := both && decide (200 < diff.natAbs)
  let agree := if both && !apart then d.agree + 1 else 0
  let clear := if red then decide (16 ≤ agree) else decide (16 ≤ r0)
  let cause := lost || (red && (now2 != d.second || apart))
  ({ d with missed0 := min 4 m0, missed1 := min 4 m1, run0 := r0, heard0 := (d.heard0 && m0 < 4) || first.isSome
            heard1 := (d.heard1 && m1 < 4) || second.isSome, second := now2, diff := diff, both := both, agree := agree
            reroute := d.reroute && !clear }, cause)

/-- The path check (06 R164, 07 R216). -/
def NetBlk.pathCheck (d : NetBlk) : Bool := (d.both && decide (d.diff.natAbs ≤ 200)) || !d.rerouted

/-- A failed path check freezes the path delays that were in use before the quarantine; one that passes frees them (07 R216). -/
def NetBlk.checked (d : NetBlk) (ok : Bool) : NetBlk :=
  if ok then { d with frozen := false }
  else { (List.range 4).foldl (fun (d : NetBlk) p => d.modPort p (fun x => { x with delay := if d.frozen then x.delay else x.saved })) d with frozen := true }

def State.checked (s : State) (ok : Bool) : State := { s with net := s.net.checked ok }

/-- A quarantine begins: no re-route since, and the path delays in use are kept (07 R215, R216). -/
def NetBlk.quarantined (d : NetBlk) : NetBlk :=
  { (List.range 4).foldl (fun (d : NetBlk) p => d.modPort p (fun x => { x with saved := if d.frozen then x.saved else x.delay })) d with rerouted := false }

/-- The offset that a Sync gives on a path: local time less the master's, the path's delay taken off (07 R213). -/
def NetBlk.offset (d : NetBlk) (p : Nat) (x : SyncStamp) : Int := x.recv - x.sent - ((d.port p).delay : Int)

/-- One sync interval with the offset measured on each path (06 R164, 07 R214-R217). -/
def State.syncInterval (s : State) (first second : Option Int) : State :=
  let r := s.net.paths first second
  let more := if s.time.disc == Discipline.quarantine then 1 else 0
  let s1 := { s with net := r.1, time := { s.time with quarSyncs := s.time.quarSyncs + more } }
  let ok := r.1.pathCheck
  let primary := if r.1.second then second else first
  let s2 := match primary with
    | some o =>
      let checks := s.time.disc == Discipline.holdover && near o
      let t := s1.measured o ok
      if checks then t.checked ok else t
    | none => s1
  let fresh := s2.time.disc == Discipline.quarantine && s.time.disc != Discipline.quarantine
  let s3 := if fresh then { s2 with net := s2.net.quarantined } else s2
  let s4 := if r.2 then s3.setReroute else s3
  let n := if s4.time.disc == Discipline.locked && r.1.both && decide (200 < r.1.diff.natAbs) then s4.net.apart + 1 else 0
  { s4 with net := { s4.net with apart := n } }.setEventIf (n == 16) .net 3

/-- SYNC (06 R164, 07 R211, R213): one sync interval of the selected master, with the Sync that each path delivered; on an
INDEPENDENT pair the one path is PTP_PORT's. (DEDUCED, log 48) -/
def execSync (sender : DWord) (domain : Nat) (first second : Option SyncStamp) (s : State) : Host.Outcome State Fault Refusal :=
  let d := s.net
  let selected := match bestMaster d.masters with | some b => b.sender == sender | none => false
  let red := d.redundant d.ptpPair
  let p := 2 * d.ptpPair + (if red then 0 else d.ptpPort)
  if !selected || domain != Bits.get d.ptpCfg 16 8 then .next s
  else .next (s.syncInterval (first.map (d.offset p)) (if red then second.map (d.offset (p + 1)) else none))

/-- QUARANTINE_EXPIRY (06 R164, 07 R216): 8 sync intervals have elapsed in QUARANTINE. -/
def execQuarantineExpiry (s : State) : Host.Outcome State Fault Refusal :=
  if s.time.disc = .quarantine ∧ 8 ≤ s.time.quarSyncs then .next ((s.quarantineEnd s.net.pathCheck).checked s.net.pathCheck) else .next s

/-! Timestamps to the host (07 R218, 14 R413). -/

/-- The supervisor reads both queues and sends each context entry to the host event ring; the spec gives a TX_TIMESTAMP
entry no CODE and no DETAIL, so they are free (log 16). -/
def State.tsDrain (s : State) : State :=
  [0, 1].foldl (fun (s : State) p =>
    let q := Tbl.get [] s.net.tsq p
    let s1 := { s with net := { s.net with tsq := Tbl.set [] s.net.tsq p [] } }
    q.foldl (fun (s : State) e =>
      let extra := [BitVec.ofNat 8 p, 0#8, 0#8, 0#8]
        ++ Bits.natBytes 2 (e.ctx + if e.second then 16384 else 0) ++ Bits.bytes16 e.id ++ [0#8, 0#8, 0#8, 0#8]
        ++ Bits.natBytes 8 e.ns
      if e.sv then s else { s with free := s.free + 1 }.eventEntry
        { kind := 2, source := Block.net.code, code := Config.stampCode s.free % 65536
          detail := Config.stampDetail s.free, extra := extra }) s1) s

end Sys2Proof.Machine
end

