-- ==== Sys2Proof/Machine/CycOps.lean ====
section
/-! DEFINITION. Machine/CycOps.lean: the parts of a T0: sampling, applying outputs, mode commands taking effect, the cycle
status word, starting and committing a cycle (02 R28-R63). -/
namespace Sys2Proof.Machine

/-- Complete several commands with one status. -/
def State.finishAll (s : State) (l : List Origin) (status detail : Nat) : State :=
  l.foldl (fun s o => s.finish o status detail) s

/-- A number of bytes of a task's committed image. -/
def TaskSt.bytes (t : TaskSt) (sp : Span) : List Byte := Tbl.getList 0#8 t.image sp.off sp.len

/-- Is the task halted at a breakpoint? -/
def State.atBreakpoint (s : State) (n : Nat) : Bool := match s.cyc.bpHit with | some (t, _) => t == n | none => false

/-- Is the effect of a change due at a T0 of the present tick that would start cycle `next` (02 R50, R51)? -/
def Effect.due (e : Effect) (tick : Nat) (next : DWord) : Bool :=
  match e with
  | .tick n => n < tick
  | .cycle k => k.toNat ≤ next.toNat

/-- Is this a SHADOW that HOLD has taken out of the join (02 R54)? A STEP runs on it alone (R51). -/
def State.heldAlone (s : State) : Bool :=
  !s.holdsToken && s.twin.link == .catchingUp && s.twin.phase == 0 && s.cyc.mode == .hold

/-- Does this module run its cycles (04 R124 step 4)? Not while it takes the state copy. -/
def State.cyclesRun (s : State) : Bool :=
  s.twin.started && (s.holdsToken || s.twin.link != .catchingUp || s.twin.phase == 5 || s.heldAlone)

/-! Applying outputs. -/

/-- The stage of a channel engages with its first command once the module's stages are engaged (04 R124 step 6). -/
def State.engageDio (s : State) (c : Nat) : State :=
  if s.twin.engaged then { s with dio := s.dio.modCh c (fun x => if x.engaged then x else DioCh.engage true x) } else s

def State.engageAio (s : State) (c : Nat) : State :=
  if s.twin.engaged then { s with aio := s.aio.modCh c (AioCh.engage (s.aio.live c) s.partnerEngaged) } else s

/-- A DIO or AIO command of the committed image is applied at a T0 (08 R254, 09 R276). -/
def State.putDio (s : State) (c : Nat) (on : Bool) : State :=
  let s := s.engageDio c
  { s with dio := s.dio.apply s.tickNo s.time.sec.toNat c on }

def State.putAio (s : State) (c : Nat) (cmd : Nat) : State :=
  let s := s.engageAio c
  { s with aio := s.aio.apply s.partnerEngaged c cmd }

/-- One output of a commit applies (02 R38). The channels of RX units are applied by the units (02 R58), published
variables by their readers. -/
def State.applyOne (s : State) (task : Nat) (absent : List (Fin 4)) (o : OutKind) (bs : List Byte) : State :=
  let b0 := bs.getD 0 0#8
  match o with
  | .dio c => s.putDio c (b0.getLsbD 0)
  | .aio c => s.putAio c (Bits.leAt bs 0 4)
  | .so n => s.soRequest n (b0.getLsbD 0)
  | .brake f => s.brakeCommand f (b0.getLsbD 0) (b0.getLsbD 1)
  | .axis a => s.axApply a bs (absent.any (fun x => x.val == a))
  | .slot i => s.slotApply i task bs
  | .stream c => { s with net := s.net.setCtx c { s.net.ctx c with payload := bs } }
  | .rx _ _ => s
  | .pub => s

/-- Are the outputs of a task's last commit those of the old program in an exchange (05 R151)? -/
def State.oldOutputs (s : State) (n : Nat) : Bool := (s.task n).exchanged && s.xch.finals.any (fun e => e.1 == n)

/-- The outputs of a task's last commit with their values. -/
def State.lastOutputs (s : State) (n : Nat) : List (OutKind × List Byte) :=
  if s.oldOutputs n then
    (s.oldTask n).outputs.map (fun o => (o.kind, Tbl.getList 0#8 (Tbl.get [] s.xch.finals n) o.sp.off o.sp.len))
  else (s.progTask n).outputs.map (fun o => (o.kind, (s.task n).bytes o.sp))

/-- Does an exchange leave an output of a task with no task that writes it (05 R156)? -/
def State.orphan (s : State) (n : Nat) (o : OutKind) : Bool :=
  s.oldOutputs n && match s.xch.pkg with
    | some p => !p.prog.tasks.any (fun e => e.2.outputs.any (fun m => m.kind == o))
    | none => false

/-- One output takes the task's stop output state (02 R56, 10 R319, 11 R343); a stream goes on with the last commit (07 R204).
`program` says that a program mode asks. -/
def State.stopOne (s : State) (last program : Bool) (o : OutKind) (bs : List Byte) : State :=
  match o with
  | .dio c => if last then s.putDio c ((bs.getD 0 0#8).getLsbD 0) else s.putDio c false
  | .aio c => if last then s.putAio c (Bits.leAt bs 0 4) else s.putAio c 0
  | .so n => if last then s.soRequest n ((bs.getD 0 0#8).getLsbD 0) else s.soRequest n false
  | .axis a => if program then s.axProgramStop a else s
  | .stream c => if program then { s with net := s.net.setCtx c { s.net.ctx c with payload := bs } } else s
  | _ => s

/-- The outputs of the last commit apply; one that no task of the new program writes takes its stop output state. -/
def State.applyCommit (s : State) (n : Nat) (absent : List (Fin 4)) : State :=
  (s.lastOutputs n).foldl (fun s o =>
    if s.orphan n o.1 then s.stopOne (s.taskCfg n).stopLast true o.1 o.2 else s.applyOne n absent o.1 o.2) s

/-- At a T0 that applies no commit, the outputs that an exchange leaves without a writer stop all the same (05 R156). -/
def State.stopOrphans (s : State) (n : Nat) : State :=
  ((s.lastOutputs n).filter (fun o => s.orphan n o.1)).foldl (fun s o => s.stopOne (s.taskCfg n).stopLast true o.1 o.2) s

/-- The commands in force are applied once more at a T0 that changes none: a channel that waits for a T0 takes its command
(08 R252, 09 R261). -/
def State.reapply (s : State) (n : Nat) : State :=
  (s.progTask n).outputs.foldl (fun s o =>
    match o.kind with
    | .dio c => s.putDio c (s.dio.getCh c).cmd
    | .aio c => s.putAio c (s.aio.getCh c).cmd
    | _ => s) s

/-- What this module may do with its last commit at the apply instant (04 R119, R120). -/
inductive Decision where
  | apply | keep | stand
deriving DecidableEq, Repr

/-- The token holder and a module that acts alone apply their own commits; a SHADOW follows the verdict. -/
def State.decision (s : State) (n : Nat) : Decision :=
  let w := s.twin.task n
  if s.holdsToken || s.twin.link == .severed || s.heldAlone then .apply
  else if w.keep then .keep
  else match w.verdict with
    | some (k, 1, _) => if k == (s.task n).cycle then .apply else .stand
    | _ => .stand

/-- The outputs of a task take its stop output state. LAST keeps the outputs of the last commit; a SHADOW without an APPLY
verdict keeps what it has. -/
def State.stopOutputs (s : State) (n : Nat) (program : Bool) : State :=
  let last := (s.taskCfg n).stopLast
  if last && s.decision n ≠ .apply then s
  else (s.lastOutputs n).foldl (fun s o => s.stopOne last program o.1 o.2) s

/-! Mode commands taking effect. -/

/-- What a new state copy forgets of the exchange of a task. -/
def TwinTask.restart (w : TwinTask) : TwinTask :=
  { w with matched := 0, proved := false, step := false, copied := none, begun := false, keep := false, image := none }

/-- A SHADOW enters HOLD: it releases its shared stages and leaves the join (04 R54, R111). -/
def State.shadowHold (s : State) : State :=
  if s.role = .shadow ∧ s.twin.link = .joined then
    { s with twin := { s.twin with engaged := false, link := .catchingUp, phase := 0, seqDone := false, percent := 0, shown := false
                                   tasks := Tbl.map {} TwinTask.restart s.twin.tasks }
             dio := s.dio.engageAll false, aio := s.aio.engageAll s.partnerEngaged false }
  else s

/-- The cycle of a task halted at a breakpoint is abandoned (02 R51, HOLD to STOP), or its billet continues.
(DEDUCED, log 26) -/
def State.leaveBreakpoint (s : State) (n : Nat) (abandon : Bool) : State :=
  match s.cyc.bpHit with
  | some (t, e) =>
    if t ≠ n then s
    else
      let s := { s with cyc := { s.cyc with bpHit := none } }
      if abandon then
        let f := s.fab.dropTask n
        State.refillAll { s.modTask n TaskSt.abandon with fab := f.setEngine e { f.engine e with run := none }.settle }
      else { s with fab := s.fab.setEngine e { s.fab.engine e with run := (s.fab.engine e).run.map (fun r => { r with held := false }) } }
  | none => s

/-- Steps of a task that have not started end with WRONG_MODE when RUN or STOP takes effect (02 R493). -/
def State.dropSteps (s : State) (n : Nat) : State :=
  let gone := s.cyc.steps.filter (fun x => x.task == n && !x.started)
  let s := { s with cyc := { s.cyc with steps := s.cyc.steps.filter (fun x => !(x.task == n && !x.started)) } }
  gone.foldl (fun s x => ({ s with cyc := { s.cyc with refuseCnt := Bits.inc s.cyc.refuseCnt } }.setEvent .cyc 5).finish x.origin stRefused 4) s

/-- A mode takes effect for a task at its T0 (02 R51). (DEDUCED, log 25) (DEDUCED, log 26) -/
def State.modeTo (s : State) (n : Nat) (m : ProgMode) : State :=
  let s := if m = .hold ∧ s.cyc.mode ≠ .hold then s.shadowHold else s
  let s := { s with cyc := { s.cyc with mode := m } }
  let s := if m = .hold then s else (s.leaveBreakpoint n (m == .stop)).dropSteps n
  let was := (s.task n).mode
  let s := s.modTask n (fun t => { t with mode := m, toApply := if m = .stop then false else t.toApply || was == .stop })
  if m = .stop ∧ was ≠ .stop then s.stopOutputs n true else s

/-- The mode commands that wait for task `n` take effect at this T0, in the order of acceptance; STOP waits for a cycle in
progress to commit (02 R51). A command that every task has taken completes (R493). (DEDUCED, log 25) -/
def State.takeModes (s : State) (n : Nat) : State :=
  let r := s.cyc.pends.foldl (fun (a : State × List ModePend × Bool) p =>
    let (s, out, blocked) := a
    match p.left.find? (fun x => x.1 == n) with
    | none => (s, out ++ [p], blocked)
    | some (_, e) =>
      let t := s.task n
      if blocked || !e.due s.tickNo (t.cycle + 1#64) || (p.target == .stop && t.run.isSome && !s.atBreakpoint n) then
        (s, out ++ [p], true)
      else
        let left := p.left.filter (fun x => x.1 != n)
        let s := s.modeTo n p.target
        if left.isEmpty then (s.finishAll p.origins stOk 0, out, false) else (s, out ++ [{ p with left := left }], false))
    (s, [], false)
  { r.1 with cyc := { r.1.cyc with pends := r.2.1 } }

/-! Sampling. -/

/-- QUALITY in the top bits of a record byte. -/
def topQuality (b : Byte) : Nat := b.toNat / 64

/-- The content of a host exchange area as a T0 takes it: no write of the T0's own station tick (02 R35, 14 R407, R408). -/
def AreaSt.member (a : AreaSt) (t0 tick : Nat) : InVal :=
  let same := a.last.isSome && a.tick == tick
  let data := if same then a.data0 else a.data
  let writes := if same then a.writes0 else a.writes
  let last := if same then a.last0 else a.last
  let age := match last with | some t => min ((t0 - t) / 1000000) 0xFFFFFFFF | none => 0xFFFFFFFF
  { q := if last.isSome then 0 else 2, bytes := Bits.bytes32 writes ++ Bits.natBytes 4 age ++ data }

/-- The committed image of a task under the old program (05 R153). -/
def State.oldImage (s : State) (n : Nat) : Tbl Byte :=
  if s.onNew n then Tbl.get [] s.xch.finals n else (s.task n).image

/-- A published variable as a cycle of task `n` reads it; while an exchange switches, each program reads the other's tasks
in its own layout (02 R34, 05 R153). -/
def State.published (s : State) (n m : Nat) (sp : Span) : List Byte :=
  if s.onNew n == s.onNew m then (s.task m).bytes sp
  else if s.onNew m then Tbl.getList 0#8 (s.oldImage m) sp.off sp.len
  else match s.xch.pkg with
    | some p => Tbl.getList 0#8 (p.carryTask s.oldImage m) sp.off sp.len
    | none => (s.task m).bytes sp

/-- The quality of the channel that an edge capture belongs to (04 R115). -/
def State.capQuality (s : State) (ch : Nat) : Nat :=
  if ch < 96 then s.dio.quality ch
  else if ch < 102 then (s.aio.getSh ((ch - 96) / 3)).quality
  else topQuality ((s.safe.sipRecord ((ch - 102) / 2)).getD 1 0#8)

/-- One member of an input set as this module samples it at T0 (02 R33, R34, R44). RX channels read their held values until
samples arrive (02 R59). (DESIGN CHOICE, log 32) -/
def State.sampleOne (s : State) (n t0 : Nat) (k : InKind) : State × InVal :=
  match k with
  | .dio c => let b := s.dio.record c; (s, { q := topQuality (b.getD 1 0#8), bytes := b })
  | .aio c => let b := s.aio.record c; (s, { q := s.aio.quality c, bytes := b })
  | .gs g => let x := s.aio.getGs g; (s, { q := x.quality, bytes := x.record })
  | .sh h => let x := s.aio.getSh h; (s, { q := x.quality, bytes := x.record })
  | .sip p => let b := s.safe.sipRecord p; (s, { q := topQuality (b.getD 1 0#8), bytes := b })
  | .fb f => let b := s.safe.fbRecord f; (s, { q := topQuality (b.getD 0 0#8), bytes := b })
  | .so o => let b := s.safe.soRecord o; (s, { q := topQuality (b.getD 1 0#8), bytes := b })
  | .fn f => (s, { q := if s.safe.laneP then 0 else 2, bytes := s.safe.fnRecord f })
  | .brake f => (s, { q := if s.safe.laneP then 0 else 2, bytes := s.safe.btRecord s.time.sec.toNat f })
  | .cap ch =>
    let t := s.time.capLatch n ch
    ({ s with time := t }, { q := s.capQuality ch, bytes := (Tbl.get {} t.latched (n * 256 + ch)).record })
  | .time => (s, { q := 0, bytes := s.time.members (BitVec.ofNat 64 (t0 / 1000000000)) (BitVec.ofNat 32 (t0 % 1000000000)) })
  | .clock c =>
    let x := s.time.clock c
    (s, { q := 0, bytes := Bits.bytes64 (x.posAt ((t0 : Int) - s.nowNs)) ++ Bits.bytes32 (BitVec.ofInt 32 x.rateNow) ++ Bits.bytes32 x.status })
  | .slot i => (s, { q := 0, bytes := (s.time.slot i).result })
  | .axis a => let x := s.ax.get a; (s, { q := x.quality, bytes := x.record })
  | .stream c => let r := s.rxDeliver c s.tickStart.toNat t0; (r.1, { q := if (s.net.ctx c).rxGood s.tickStart.toNat t0 then 0 else 2, bytes := r.2 })
  | .rx _ _ => (s, { q := 2, bytes := [] })
  | .area a => (s, (Tbl.get {} s.cyc.areas a).member t0 s.tickNo)
  | .pub m sp => (s, { q := 0, bytes := s.published n m sp })

/-- Every member of an input set. -/
def State.sampleAll (s : State) (n t0 : Nat) : State × List InVal :=
  (s.progTask n).inputs.foldl (fun (a : State × List InVal) k => let r := a.1.sampleOne n t0 k; (r.1, a.2 ++ [r.2])) (s, [])

/-- A byte with the bits of a mask taken from another. -/
def mixByte (mask good now : Byte) : Byte := (good &&& mask) ||| (now &&& ~~~mask)

/-- A BAD member shows the value of its last GOOD sample beside its present quality and diagnostics (02 R44). The records of the
other kinds keep their values themselves. -/
def holdGood (k : InKind) (v : InVal) (good : List Byte) : InVal :=
  if v.q != 2 || good.isEmpty then v
  else match k with
    | .dio _ => { v with bytes := [v.bytes.getD 0 0#8, mixByte 0x20#8 (good.getD 1 0#8) (v.bytes.getD 1 0#8)] }
    | .gs _ => { v with bytes := v.bytes.take 4 ++ good.drop 4 }
    | .sh _ => { v with bytes := mixByte 0x38#8 (good.getD 0 0#8) (v.bytes.getD 0 0#8) :: (v.bytes.drop 1).take 3 ++ good.drop 4 }
    | _ => if v.bytes.isEmpty then { v with bytes := good } else v

/-- What the terminals show at T0 comes into the state before the members are read. -/
def State.takeEnv (s : State) (env : T0Env) : State :=
  let gs := env.gs.foldl (fun (d : Aio) e =>
    d.setGs e.1 { d.getGs e.1 with inst := e.2.inst, rms := e.2.rms, freq := e.2.freq, saturated := e.2.saturated }) s.aio
  let sh := env.sh.foldl (fun (d : Aio) e => d.setSh e.1 { d.getSh e.1 with a := e.2.1, b := e.2.2.1, z := e.2.2.2 }) gs
  { s with aio := sh }.safeSample env.so env.fb

/-! The cycle status word and the start of a cycle. -/

/-- The RX units that the input set reads. -/
def TaskProg.units (p : TaskProg) : List Nat :=
  (List.range' 1 6).filter (fun u => p.inputs.any (fun k => match k with | .rx v _ => v == u | _ => false))

/-- The lost RX units of a task's input set, bit u for RXu (02 R61). -/
def State.lostUnits (s : State) (n : Nat) : List Nat :=
  (s.progTask n).units.filter (fun u => (s.cfg.unit u).state != .onLine)

/-- The cycle status word that T0 latches (02 R57); INPUT_DEGRADED and UNIT_BACK follow when the inputs are complete (R44, R62).
(DEDUCED, log 30) -/
def State.cswAt (s : State) (n : Nat) (stepped fallback : Bool) : Word :=
  let t := s.task n
  let lost := s.lostUnits n
  Bits.fld (if stepped then 3 else 0) 30 ||| Bits.ofBool t.resumed 29 ||| Bits.ofBool t.exchanged 28
    ||| Bits.ofBool t.takeover 27 ||| Bits.ofBool t.late 26 ||| Bits.ofBool t.overran 25 ||| Bits.ofBool fallback 24
    ||| Bits.ofBool (!s.time.traceable) 22 ||| Bits.ofBool (!lost.isEmpty) 21 ||| Bits.fld (lost.headD 0) 16
    ||| lost.foldl (fun w u => w ||| Bits.ofBool true (9 + u)) 0#32 ||| Bits.fld (min t.skip 255) 0

/-- DELTA_T of the cycle that starts at `t0` (02 R49, 06 R170). A first cycle with no previous T0 and no resume takes PERIOD.
(DESIGN CHOICE, log 78) -/
def State.deltaAt (s : State) (n t0 : Nat) : Nat :=
  let t := s.task n
  let period := (s.taskCfg n).ticks * 10000
  if t.resumed then
    match t.resumeTc with
    | some tc => if (s.taskCfg n).wall && !t.freeRun then t0 - tc else period
    | none => period
  else match t.prevT0 with
    | some p => t0 - p
    | none => period

/-- The commit deadline, 30 µs before the next T0 of a periodic task (02 R37). -/
def State.deadlineAt (s : State) (n : Nat) : Option Nat :=
  if (s.taskCfg n).kind = 1 then some ((s.taskCfg n).nextTick s.tickNo * 10000 - 30000) else none

/-- Is a member of the input set not GOOD (02 R44)? A channel of an RX unit counts once its deadline has passed, every other
member once the agreed image is complete. -/
def degraded (ins : List InKind) (vals : List InVal) (agreed rick : Bool) : Bool :=
  (ins.zip vals).any (fun e => e.2.q != 0 && (match e.1 with | .rx _ _ => rick | _ => agreed))

/-- Is the cycle agreed with a partner (04 R115, R124)? -/
def State.agrees (s : State) : Bool := s.twin.link == .joined || (s.twin.link == .catchingUp && s.twin.phase == 5)

/-- A step of the task has started: every one accepted before the tick of this T0 runs by the one cycle (02 R63, R493).
(DESIGN CHOICE, log 79) -/
def StepReq.begin (n tick : Nat) (x : StepReq) : StepReq := if x.task == n && decide (x.tick < tick) then { x with started := true } else x

/-- What T0 resets in the inputs it has latched: results and quadrature errors since the previous T0. -/
def Aio.afterT0 (d : Aio) (l : List InKind) : Aio :=
  l.foldl (fun (d : Aio) (i : InKind) =>
    match i with
    | .aio c => d.modCh c (fun x => { x with since := [] })
    | .sh h => d.setSh h { d.getSh h with quadErr := false }
    | _ => d) d

/-- Cycle k + 1 starts at `t0`: inputs are latched, the cycle status word too, and the billets with release point T0 are
released (02 R33, R57, 03 R71). -/
def State.startCycle (s : State) (n t0 : Nat) (env : T0Env) (stepped fallback : Bool) : State :=
  let s := s.takeEnv env
  let r := s.sampleAll n t0
  let s := r.1.brakeRx n t0
  let t := s.task n
  let vals := ((s.progTask n).inputs.zip (r.2.zip (t.lastGood ++ List.replicate r.2.length []))).map (fun e => holdGood e.1 e.2.1 e.2.2)
  let k := t.cycle + 1#64
  let run : CycleRun := { k := k, t0 := t0, deadline := s.deadlineAt n, inputs := vals
                          lead := s.holdsToken || s.twin.link == .severed, budget := t.limits.budget }
  let w := s.cswAt n stepped fallback
  let s := s.setTask n { t with
    csw := w, deltaT := s.deltaAt n t0, prevT0 := some t0, run := some run, skip := 0, late := false, overran := false
    resumed := false, exchanged := false, takeover := false
    unit := (s.lostUnits n).foldl (fun m u => m ||| 2 ^ u) 0, toApply := false }
  let s := { s with cyc := { s.cyc with steps := s.cyc.steps.map (StepReq.begin n s.tickNo) }, aio := s.aio.afterT0 (s.progTask n).inputs }
  let s := s.setEventIf fallback .cyc 7
  let s := if s.agrees then s.olvia (.samples n k vals) else s
  s.releaseBillets n

/-- A T0 instant is skipped (02 R37). -/
def State.skipT0 (s : State) (n : Nat) : State :=
  let s := s.modTask n (fun t => { t with skip := t.skip + 1 })
  { s with cyc := { s.cyc with skipCnt := s.cyc.skipCnt + 1#64 } }.setEvent .cyc 6

/-- TASK_STATE of a task that starts no cycle at this T0 (02 R57). -/
def State.showState (s : State) (n : Nat) : State :=
  s.modTask n (fun t => { t with csw := (t.csw &&& 0x3FFFFFFF#32) ||| Bits.fld t.stateCode 30 })

/-- A SHADOW without an APPLY verdict releases its shared stages at the apply instant (04 R120, R138). -/
def State.standBack (s : State) : State :=
  { s with twin := { s.twin with engaged := false }, dio := s.dio.engageAll false
           aio := s.aio.engageAll s.partnerEngaged false }

/-- The outputs of the last commit at their apply instant; gives the state and whether this T0 may start a cycle. -/
def State.applyDue (s : State) (n : Nat) (absent : List (Fin 4)) : State × Bool :=
  if !(s.task n).toApply then (s.reapply n, true)
  else match s.decision n with
    | .apply => ((s.applyCommit n absent).modTask n (fun t => { t with toApply := false }), true)
    | .keep => (s.reapply n, false)
    | .stand =>
      let s := s.modTask n (fun t => { t with toApply := false })
      if s.twin.link = .joined then
        let s := s.standBack
        if s.twin.suspect then (s, true) else ({ s with twin := { s.twin with link := .catchingUp, phase := 0 } }, true)
      else (s, true)

/-- The changes that wait for a task's T0 take effect: limits (03 R93), restart (03 R91), an overrun policy (03 R90, R92) and
the configuration of its channels. -/
def State.takeLimits (s : State) (n : Nat) : State :=
  let t := s.task n
  match t.next with
  | some (e, l) => if e.due s.tickNo (t.cycle + 1#64) then s.setTask n { t with limits := l, next := none } else s
  | none => s

def State.takeRestart (s : State) (n : Nat) : State :=
  let t := s.task n
  match t.restart with
  | some (e, o) =>
    if e.due s.tickNo (t.cycle + 1#64) then
      (s.setTask n { t with restart := none, pol := .active, consec := 0, due := none, dueFrom := none, toApply := true }).complete
        o stOk 0 (t.cycle + 1#64) []
    else s
  | none => s

/-- Does a due policy wait for a later T0: a cycle runs that no billet fault has ended, or has committed less than 30 µs ago
(02 R37, 03 R75, R90)? -/
def TaskSt.waits (t : TaskSt) (t0 : Nat) : Bool :=
  (match t.run with | some r => !r.faulted | none => false) || (match t.lastTc with | some tc => decide (t0 < tc + 30000) | none => false)

def State.takePolicy (s : State) (n t0 : Nat) (absent : List (Fin 4)) : State :=
  let t := s.task n
  let from' := match t.dueFrom with | some k => decide (k.toNat ≤ (t.cycle + 1#64).toNat) | none => true
  match t.due with
  | some stop =>
    if !from' || t.waits t0 then s
    else
      let ap := s.decision n == .apply
      let s := s.setTask n { t with due := none, dueFrom := none, pol := if stop then .stopped else .outHeld, toApply := false }
      if stop then (s.stopOutputs n false).setEvent .cyc 8
      else if ap then s.applyCommit n absent else s
  | none => s

def State.takeChannelCfg (s : State) (n : Nat) : State :=
  let p := s.progTask n
  let dio := fun (d : Dio) c => d.modCh c (DioCh.takeCfg s.twin.engaged)
  let aio := fun (d : Aio) c => d.modCh c (AioCh.takeCfg s.twin.engaged (d.live c) s.partnerEngaged)
  let net := fun (d : NetBlk) c => d.setCtx c (d.ctx c).takeCfg
  let s := p.inputs.foldl (fun (s : State) k => match k with
    | .dio c => { s with dio := dio s.dio c } | .aio c => { s with aio := aio s.aio c }
    | .stream c => { s with net := net s.net c } | _ => s) s
  p.outputs.foldl (fun (s : State) o => match o.kind with
    | .dio c => { s with dio := dio s.dio c } | .aio c => { s with aio := aio s.aio c }
    | .stream c => { s with net := net s.net c } | _ => s) s

/-- Is the carry of the task's last old commit still to complete, or complete for less than 30 µs (05 R152)? -/
def State.carryPending (s : State) (n t0 : Nat) : Bool :=
  s.exchanging && (match s.xch.txNs with | some x => decide (x ≤ t0) | none => false)
    && (!s.onNew n || ((s.task n).exchanged && !s.xch.cur.inStop && decide (t0 < Tbl.get 0 s.xch.carriedAt n + 30000)))

/-- What every T0 of a task takes up before its cycle is looked at: channel configurations, limits, modes, restart, policy
(02 R35, R51, 03 R90-R93). RESUMING reads 0 from the first T0 of any task on. (DESIGN CHOICE, log 81) -/
def State.t0Takes (s : State) (n t0 : Nat) (absent : List (Fin 4)) : State :=
  let s := s.modTask n (fun t => { t with lastT0 := some t0, stopDue := false })
  let s := ((s.takeChannelCfg n).takeLimits n).takeModes n
  (State.takeRestart { s with cyc := { s.cyc with resuming := false } } n).takePolicy n t0 absent

/-- A T0 at which a cycle may start: the outputs due apply, then the cycle starts unless HOLD keeps it or the task is removed
(02 R33, R51, R493, 05 R156). -/
def State.t0Cycle (s : State) (n t0 : Nat) (env : T0Env) (fallback : Bool) : State :=
  let hold := (s.task n).mode == .hold
  let r := s.applyDue n env.absent
  let s := r.1
  if !r.2 then s.skipT0 n
  else if !s.cyclesRun || (s.task n).gone then s
  else
    let stepped := s.cyc.steps.any (fun x => x.task == n && !x.started && decide (x.tick < s.tickNo))
    if hold && !stepped then (s.skipT0 n).showState n
    else s.startCycle n t0 env hold fallback

/-- A T0 of a task that an overrun policy or a billet fault has stopped (03 R75, R90). -/
def State.t0Idle (s : State) (n : Nat) (absent : List (Fin 4)) : State :=
  let t := s.task n
  let s := (s.showState n).stopOrphans n
  if t.mode = .stop then s.reapply n
  else if t.toApply && t.pol == .outHeld then (s.applyCommit n absent).modTask n (fun t => { t with toApply := false })
  else s.reapply n

/-- A T0 of a task in STOP; `first` is its first one after a start in STOP (02 R47). -/
def State.t0Stop (s : State) (n : Nat) (first : Bool) : State :=
  let s := (s.showState n).stopOrphans n
  if first then (s.stopOutputs n true).modTask n (fun t => { t with toApply := false }) else s.reapply n

/-- A T0 that the carry of an exchange makes the task skip (05 R152). -/
def State.t0Carry (s : State) (n : Nat) (absent : List (Fin 4)) : State :=
  let s := ((s.applyDue n absent).1.skipT0 n).setEvent .xch 7
  { s with xch := { s.xch with carryLate := Bits.setBit s.xch.carryLate n } }

/-- Is the cycle of a task in progress at a T0, or committed less than 30 µs before it (02 R37)? -/
def TaskSt.busyAt (t : TaskSt) (t0 : Nat) : Bool :=
  t.run.isSome || (match t.lastTc with | some tc => decide (t0 < tc + 30000) | none => false)

/-- The T0 of a task at `t0` ns (02 R29-R38, R51, 03 R90-R93). -/
def State.t0 (s : State) (n t0 : Nat) (env : T0Env) (fallback : Bool) : State :=
  let first := (s.task n).stopDue && (s.task n).mode == .stop
  let s := s.t0Takes n t0 env.absent
  let s := s.modTask n (fun t => { t with stale := t.pol == .active && t.mode != .stop && t.busyAt t0 })
  let t := s.task n
  if t.pol ≠ .active then s.t0Idle n env.absent
  else if t.mode = .stop then s.t0Stop n first
  else if t.busyAt t0 then
    (s.skipT0 n).reapply n
  else if s.carryPending n t0 then s.t0Carry n env.absent
  else if !s.cyclesRun then (if t.mode = .hold then s.skipT0 n else s).showState n
  else s.t0Cycle n t0 env fallback

end Sys2Proof.Machine
end

