-- ==== Sys2Proof/Machine/Pnl.lean ====
section
/-! DEFINITION. Machine/Pnl.lean: the panel port: requests, LCD frames, electrophoretic updates, the update journal,
temperature, power and takeover (12 R350-R370). -/
namespace Sys2Proof.Machine

/-- The pixels that a WRITE carries, as (place, value) pairs: 3 bytes each in LCD mode, 4 bits each in electrophoretic
mode with the left pixel in bits [3:0] (12 R361). -/
def PnlBlk.pixels (p : PnlBlk) (r : Rect) (bytes : List Byte) : List (Nat × Nat) :=
  (List.range (r.w * r.h)).map (fun i =>
    let v := if p.mode = 1 then Bits.leAt bytes (3 * i) 3
             else if i % 2 = 0 then Bits.leAt bytes (i / 2) 1 % 16 else Bits.leAt bytes (i / 2) 1 / 16
    ((r.y + i / r.w) * p.hactive + r.x + i % r.w, v))

/-- A WRITE lands in BACK or in TARGET (12 R355, R357). -/
def PnlBlk.land (p : PnlBlk) (r : Rect) (bytes : List Byte) : PnlBlk :=
  if p.mode = 1 then { p with back := Tbl.setAll 0 p.back (p.pixels r bytes) }
  else { p with target := Tbl.setAll 0 p.target (p.pixels r bytes) }

/-- The byte length that a WRITE of a rectangle needs (12 R361). -/
def PnlBlk.lenOf (p : PnlBlk) (r : Rect) : Nat := if p.mode = 1 then 3 * (r.w * r.h) else r.w * r.h / 2

/-- The rectangle of CURRENT takes the values of TARGET (12 R357). -/
def PnlBlk.settle (p : PnlBlk) (r : Rect) : PnlBlk :=
  let at' : Nat → Nat := fun i => (r.y + i / r.w) * p.hactive + r.x + i % r.w
  { p with current := Tbl.setAll 0 p.current ((List.range (r.w * r.h)).map (fun i => (at' i, Tbl.get 0 p.target (at' i)))) }

/-- Write a journal entry into a slot: the two entries alternate (12 R364). -/
def PSlot.write (x : PSlot) (e : JEntry) : PSlot :=
  let n := match x.cur with | some c => c.jseq + 1 | none => 0
  { x with cur := some (sealEntry { e with jseq := n }), old := x.cur }

/-- Write a journal entry and send it to the partner while the modules are JOINED or CATCHING-UP (12 R363). -/
def State.journal (s : State) (i : Nat) (x : PSlot) (e : JEntry) : State :=
  let y := x.write e
  let p := s.pnl.setSlot i y
  match y.cur with
  | some c =>
    if s.joined && decide (i < 16) then { s with pnl := { p with sent := p.sent ++ [.entry (Fin.ofNat 16 i) c] } }
    else { s with pnl := p }
  | none => { s with pnl := p }

/-- Tell the partner while JOINED or CATCHING-UP. -/
def State.pnlSend (s : State) (m : PnlMsg) : State :=
  if s.joined then { s with pnl := { s.pnl with sent := s.pnl.sent ++ [m] } } else s

/-- The LEAD tells its partner. -/
def State.pnlTell (s : State) (m : PnlMsg) : State := if s.leads then s.pnlSend m else s

/-- A request ends with a result other than DONE (12 *Panel request results*). -/
def State.pnlRefuse (s : State) (o : Origin) (code : Nat) : State :=
  let st := if code = 5 then stNotLead else if code = 6 then stTakeoverAbort else stRefused
  ({ s with pnl := { s.pnl with refuseCnt := Bits.inc s.pnl.refuseCnt } }.setEvent .pnl 2).finish o st code

/-- A request has been carried out: it completes with DONE once the SHADOW has acknowledged it; in SOLO none is awaited
(12 R363). -/
def State.pnlDone (s : State) (r : PReq) : State :=
  if r.acked || !s.joined then s.finish r.origin stOk 0 else { s with pnl := { s.pnl with done := s.pnl.done ++ [r] } }

/-- Does a waiting request hold back a later one with this rectangle (12 R362)? -/
def PReq.blocks (r : Rect) (a : PReq) : Bool :=
  match a.op with
  | .write q _ _ => overlap r q
  | .update q _ => overlap r q
  | _ => false

/-- Is the rectangle under an update in flight or one that a completion will finish (12 R362, R366)? -/
def PnlBlk.covered (p : PnlBlk) (r : Rect) : Bool :=
  p.slotsL.any (fun e => match e.2.cur with | some j => j.active && overlap r j.rect | none => false)

/-- May a WRITE land now, with these requests ahead of it? -/
def PnlBlk.mayWrite (p : PnlBlk) (r : Rect) (ahead : List PReq) : Bool :=
  if p.mode = 1 then !p.copying && !ahead.any (PReq.blocks r)
  else !p.refresh && !p.covered r && !ahead.any (PReq.blocks r)

/-- Let every WRITE land that nothing ahead holds back, in acceptance order. -/
def State.drain : State → List PReq → List PReq → State
  | s, ahead, [] => { s with pnl := { s.pnl with waiting := ahead } }
  | s, ahead, r :: rs =>
    match r.op with
    | .write q _ bytes =>
      if s.pnl.mayWrite q ahead then State.drain ({ s with pnl := s.pnl.land q bytes }.pnlDone r) ahead rs
      else State.drain s (ahead ++ [r]) rs
    | _ => State.drain s (ahead ++ [r]) rs

/-- Serve the waiting WRITEs. (DEDUCED, log 47) -/
def State.pnlServe (s : State) : State := State.drain s [] s.pnl.waiting

/-- The band of a temperature (12 R359). -/
def WaveTable.bandOf (w : WaveTable) (t : Int) : Nat := (w.bounds.filter (fun b => decide (b ≤ t))).length

/-- A temperature has been obtained. -/
def State.pnlTemp (s : State) (t : Int) : State :=
  let b := s.pnl.cfg.wave.bandOf t
  let changed := b != s.pnl.band
  { s with pnl := { s.pnl with temp := t, tempValid := true, band := b } }.setEventIf changed .pnl 0

/-- The start of the next LCD frame: 10⁹ / RATE ns later, rounded down to a fine tick (12 R353). -/
def lcdNext (start hz : Nat) : Nat := (start + 1000000000 / hz) / 10 * 10

/-- A PRESENT brings the next frame forward (12 R354). -/
def State.presentEarly (s : State) : State :=
  match s.pnl.nextNs with
  | none => s
  | some t =>
    let u := max (lcdNext s.pnl.frameNs s.pnl.rateActive) ((s.tickNo + 1) * 10000)
    if s.pnl.copying ∨ t ≤ u ∨ !s.pnl.inFrame then s
    else { s with pnl := { s.pnl with nextNs := some u } }.pnlTell (.early (s.pnl.frameNo + 1) u)

/-- The result code that refuses a request at once (12 *Panel request results*). (DEDUCED, log 47) -/
def PnlBlk.judge (p : PnlBlk) (op : PanelOp) : Option Nat :=
  let full := decide (64 ≤ (p.waiting.filter (fun r => match r.op with | .write _ _ _ => true | .update _ _ => true | _ => false)).length)
  if p.mode = 0 ∨ p.mode = 3 then some 2
  else match op with
    | .powerOn => none
    | .powerOff => if p.power then none else some 2
    | .temp _ => if p.power then none else some 2
    | .present => if p.power ∧ p.mode = 1 then none else some 2
    | .write r len bytes =>
      if !p.power then some 2
      else if !p.goodRect r || len != p.lenOf r || decide (bytes.length < len) then some 1
      else if full then some 4 else none
    | .update r _ =>
      if !p.power || p.mode != 2 then some 2
      else if !p.goodRect r then some 1
      else if full then some 4 else none
    | .bad => some 2

/-- The effect of a request that has been accepted. -/
def State.pnlTake (s : State) (r : PReq) : State :=
  match r.op with
  | .write _ _ _ => { s with pnl := { s.pnl with waiting := s.pnl.waiting ++ [r] } }.pnlServe
  | .present => { s with pnl := { s.pnl with waiting := s.pnl.waiting ++ [r] } }.presentEarly
  | .update _ _ => { s with pnl := { s.pnl with waiting := s.pnl.waiting ++ [r] } }
  | .temp t =>
    let s1 := { s with pnl := { s.pnl with tempNs := s.nowNs } }
    (if Bits.bit s.pnl.cfg.config 26 then s1.pnlTemp t else s1).pnlDone r
  | .powerOn =>
    (if s.pnl.power then s else { s with pnl := { s.pnl with power := true, frameCnt := 0#64 } }).pnlDone r
  | .powerOff => { s with pnl := { s.pnl with power := false } }.pnlDone r
  | .bad => s

/-- A panel request of the host (12 R361-R363). (DEDUCED, log 47) -/
def State.panelRequest (s : State) (o : Origin) (id : Half) (op : PanelOp) : State :=
  if !s.panelDriving then s.pnlRefuse o 5
  else match s.pnl.judge op with
    | some c => s.pnlRefuse o c
    | none => ((s.passed o).pnlSend (.request id op)).pnlTake { id := id, op := op, origin := o, acked := !s.joined }

/-- PANEL_WRITE (12 R361). -/
def execPanelWrite (o : Origin) (id : Half) (rect : Rect) (len : Nat) (bytes : List Byte) (s : State) :
    Host.Outcome State Fault Refusal := .next (s.panelRequest o id (.write rect len bytes))

/-- PANEL_PRESENT (12 R355). -/
def execPanelPresent (o : Origin) (id : Half) (s : State) : Host.Outcome State Fault Refusal :=
  .next (s.panelRequest o id .present)

/-- PANEL_UPDATE (12 R362). -/
def execPanelUpdate (o : Origin) (id : Half) (rect : Rect) (wf : Fin 8) (s : State) : Host.Outcome State Fault Refusal :=
  .next (s.panelRequest o id (.update rect wf))

/-- PANEL_TEMP (12 R359). -/
def execPanelTemp (o : Origin) (id : Half) (t : Int) (s : State) : Host.Outcome State Fault Refusal :=
  .next (s.panelRequest o id (.temp t))

/-- PANEL_POWER_ON (12 R361). -/
def execPanelPowerOn (o : Origin) (id : Half) (s : State) : Host.Outcome State Fault Refusal :=
  .next (s.panelRequest o id .powerOn)

/-- PANEL_POWER_OFF (12 R361). -/
def execPanelPowerOff (o : Origin) (id : Half) (s : State) : Host.Outcome State Fault Refusal :=
  .next (s.panelRequest o id .powerOff)

/-- The panel request block of a PANEL descriptor (12 *Panel request*) with its data. -/
def panelOpOf (ps data : List Byte) : PanelOp :=
  let rect : Rect := { x := Bits.leAt ps 4 2, y := Bits.leAt ps 6 2, w := Bits.leAt ps 8 2, h := Bits.leAt ps 10 2 }
  match Bits.leAt ps 2 1 with
  | 1 => .write rect (Bits.leAt ps 12 4) data
  | 2 => .present
  | 3 => .update rect (Bits.leAt ps 3 1 % 8)
  | 4 => .temp (BitVec.ofNat 32 (Bits.leAt ps 12 4)).toInt
  | 5 => .powerOn
  | 6 => .powerOff
  | _ => .bad

/-! LCD frames. -/

/-- Is the LCD frame schedule running here: panel on, power good, unit sound (12 R353)? The SHADOW keeps it too (R354). -/
def PnlBlk.lcdRuns (p : PnlBlk) : Bool := p.mode == 1 && p.power && p.pg && !p.faulted

/-- A waiting PRESENT takes effect: the surfaces swap and the copy begins (12 R355). -/
def PnlBlk.swap (p : PnlBlk) : PnlBlk := { p with front := p.back, back := p.front, copying := true }

/-- LCD_FRAME_START (12 R353-R355): the frame that is due starts. -/
def execLcdFrameStart (s : State) : Host.Outcome State Fault Refusal :=
  match s.pnl.nextNs with
  | none => .next s
  | some t =>
    if !s.pnl.lcdRuns || decide ((s.tickNo + 1) * 10000 ≤ t) then .next s
    else
      let p := s.pnl
      let n := if p.inFrame then p.frameNo + 1 else 0
      let pick := if p.copying then none else takeFirst (fun (r : PReq) => r.op == .present) p.waiting
      let hz := if pick.isNone && p.idleFrames != 0 && decide (p.idleFrames ≤ p.idle) then p.rateIdle else p.rateActive
      let q := { p with frameNo := n, inFrame := true, frameNs := t, nextNs := some (lcdNext t hz), hz := hz
                        idle := if pick.isSome then 0 else p.idle + 1, frameCnt := p.frameCnt + 1#64 }
      let s1 := if hz = p.hz then { s with pnl := q } else { s with pnl := q }.pnlTell (.rate n hz)
      match pick with
      | none => .next s1
      | some (r, rest) =>
        let s2 := { s1 with pnl := { s1.pnl.swap with waiting := rest } }
        .next ((s2.setEvent .pnl 1).pnlDone r)

/-- FRONT_BACK_COPY_DONE (12 R355): BACK holds the new FRONT, and waiting WRITEs land. -/
def execFrontBackCopyDone (s : State) : Host.Outcome State Fault Refusal :=
  if s.pnl.copying then
    .next { s with pnl := { s.pnl with back := s.pnl.front, copying := false } }.pnlServe
  else .next s

/-! Electrophoretic frames. -/

/-- Every slot with an active entry that is not in flight runs a completion (12 R366). -/
def State.pnlComplete (s : State) : State :=
  (List.range 16).foldl (fun s i =>
    let x := s.pnl.slot i
    match x.cur with
    | some e =>
      if e.active && !x.running then
        let cut := e.row != 0
        s.journal i { x with running := true, driven := false, fixing := false
                             fix := if cut then some (e.row, e.rect.y + e.rect.h) else none
                             next := if cut then e.frame + 1 else e.frame } { e with completion := true }
      else s
    | none => s) s

/-- The frame instant of the present tick: s + j × 11 764 700 ns for j = 0 to 84 (12 R356). -/
def State.epInstant (s : State) : Option Nat :=
  let ns := s.time.ns.toNat / 10000 * 10000
  let t := min 84 ((ns + 9999) / 11764700) * 11764700
  if ns ≤ t then some (s.time.sec.toNat * 1000000000 + t) else none

/-- An update ends: its rectangle of CURRENT takes TARGET and its journal slot is cleared (12 R357, R364, R366). -/
def State.endUpdate (s : State) (i : Nat) (x : PSlot) (e : JEntry) : State :=
  let y := { x with running := false, fix := none, fixing := false, driven := false, req := none }
  let s1 := s.journal i y { e with active := false }
  let p := s1.pnl.settle e.rect
  let s2 := if e.completion then
      { s1 with pnl := { p with compCnt := Bits.inc p.compCnt } }.setEvent .pnl 3
    else { s1 with pnl := { p with updateCnt := Bits.inc p.updateCnt } }.setEvent .pnl 1
  match x.req with
  | some r => s2.pnlDone r
  | none => s2

/-- At a frame start, an update whose last frame has run ends (12 R362). -/
def State.epEnd (s : State) (i : Nat) : State :=
  let x0 := s.pnl.slot i
  let x := if x0.fixing then { x0 with fixing := false, fix := none } else x0
  match x.cur with
  | none => s
  | some e =>
    if x.running && x.fix.isNone && decide (e.frames ≤ x.next) then s.endUpdate i x e
    else { s with pnl := s.pnl.setSlot i x }

/-- At a frame start, an update in flight drives its next frame, or none when the partner's acknowledgement is late
(12 R363, R364, R366). -/
def State.epDrive (t : Nat) (late : List (Fin 16)) (s : State) (i : Nat) : State :=
  let x := s.pnl.slot i
  match x.cur with
  | none => s
  | some e =>
    if !x.running then s
    else if s.joined && late.any (fun l => l.val == i) then
      let s1 := s.journal i { x with driven := false } { e with frame := if x.fix.isSome then e.frame else x.next, row := 0
                                                                start := BitVec.ofNat 64 t }
      { s1 with pnl := { s1.pnl with ackLateCnt := Bits.inc s1.pnl.ackLateCnt } }.setEvent .pnl 6
    else if x.fix.isSome then { s with pnl := s.pnl.setSlot i { x with fixing := true, driven := true } }
    else s.journal i { x with driven := true, next := x.next + 1 } { e with frame := x.next, row := 0, start := BitVec.ofNat 64 t }

/-- The first journal slot that holds no update. -/
def PnlBlk.freeSlot (p : PnlBlk) : Option Nat := (p.slotsL.find? (fun e => !e.2.active)).map Prod.fst

/-- An update starts in a slot, its band latched (12 R360). -/
def State.startUpdate (s : State) (i : Nat) (id : Half) (r : Rect) (wf frames : Nat) (req : Option PReq) : State :=
  s.journal i { s.pnl.slot i with running := true, next := 0, fix := none, fixing := false, driven := false, req := req }
    { jseq := 0, id := id, active := true, completion := false, wf := wf, band := s.pnl.band, rect := r, frame := 0
      frames := frames, row := 0, start := 0#64 }

/-- The frames of a waveform in the present band; none where there is no such waveform. -/
def PnlBlk.framesOf (p : PnlBlk) (wf : Nat) : Nat :=
  if p.cfg.wave.waveforms ≤ wf then 0 else (Tbl.get [] p.cfg.wave.frames (12 * wf + p.band)).length

/-- Start every waiting UPDATE that may start at this frame start, in acceptance order (12 R362). -/
def State.startWaiting : State → List PReq → List PReq → State
  | s, ahead, [] => { s with pnl := { s.pnl with waiting := ahead } }
  | s, ahead, r :: rs =>
    match r.op, s.pnl.freeSlot with
    | .update q wf, some i =>
      if s.pnl.covered q || ahead.any (PReq.blocks q) then State.startWaiting s (ahead ++ [r]) rs
      else if s.pnl.framesOf wf = 0 then State.startWaiting (s.pnlRefuse r.origin 3) ahead rs
      else State.startWaiting (s.startUpdate i r.id q wf (s.pnl.framesOf wf) (some r)) ahead rs
    | _, _ => State.startWaiting s (ahead ++ [r]) rs

/-- The full refresh owed after a cold promotion starts before any request (12 R368). -/
def State.startRefresh (s : State) : State :=
  let w := s.pnl.cfg.wave.initWf
  let s1 := { s with pnl := { s.pnl with refresh := false } }
  if s.pnl.framesOf w = 0 then s1
  else s1.startUpdate 0 0#16 { x := 0, y := 0, w := s.pnl.hactive, h := s.pnl.vactive } w (s.pnl.framesOf w) none

/-- EP_FRAME_START (12 R356, R362-R366); `late` lists the journal slots whose entry for this frame the SHADOW has not
acknowledged at the frame start. -/
def execEpFrameStart (late : List (Fin 16)) (s : State) : Host.Outcome State Fault Refusal :=
  let p := s.pnl
  match s.epInstant with
  | none => .next s
  | some t =>
    if p.mode ≠ 2 || !p.power || !p.pg || p.faulted || !s.panelDriving || (p.inFrame && decide (t ≤ p.frameNs)) then .next s
    else
      let s1 := (List.range 16).foldl State.epEnd (State.pnlComplete { s with pnl := { p with inFrame := true, frameNs := t } })
      let s2 := s1.pnlServe
      let s3 := if s2.pnl.completionPending then s2
        else if s2.pnl.refresh then s2.startRefresh
        else State.startWaiting s2 [] s2.pnl.waiting
      let s4 := if s3.pnl.inFlight.isEmpty then s3 else { s3 with pnl := { s3.pnl with frameCnt := s3.pnl.frameCnt + 1#64 } }
      .next ((List.range 16).foldl (State.epDrive t late) s4)

/-! Temperature and power. -/

/-- PTEMP_MEASURE (12 R359): every 1 s; `none` when PTEMP reads open or short. -/
def execPtempMeasure (t : Option Int) (s : State) : Host.Outcome State Fault Refusal :=
  let early := match s.pnl.measNs with | some u => decide (s.nowNs < u + 1000000000) | none => false
  if Bits.bit s.pnl.cfg.config 26 || early then .next s
  else
    let s := { s with pnl := { s.pnl with measNs := some s.nowNs } }
    match t with
    | some t => .next (s.pnlTemp t)
    | none => .next (s.setEvent .pnl 5)

/-- TEMP_TIMEOUT (12 R359): no TEMP request for 600 s. -/
def execTempTimeout (s : State) : Host.Outcome State Fault Refusal :=
  if Bits.bit s.pnl.cfg.config 26 && decide (s.pnl.tempNs + 600000000000 ≤ s.nowNs) then .next (s.setEvent .pnl 5) else .next s

/-- The entry of a slot whose frame stops (12 R365): ROW of the frame in progress, or the next frame with ROW 0. -/
def PSlot.stopEntry (x : PSlot) (row : Option Nat) (e : JEntry) : JEntry :=
  match row with
  | some r =>
    if !x.driven then { e with frame := if x.fix.isSome then e.frame else x.next }
    else match x.fixing, x.fix with
      | true, some (lo, _) => { e with row := max r lo }
      | _, _ => { e with row := r }
  | none => if x.fix.isSome && !x.fixing then e else { e with frame := x.next, row := 0 }

/-- Every update in flight stops (12 R365). -/
def State.pnlStop (s : State) (row : Option Nat) : State :=
  (List.range 16).foldl (fun s i =>
    let x := s.pnl.slot i
    match x.cur with
    | some e =>
      if x.running then
        s.journal i { x with running := false, fixing := false, fix := none, driven := false } (x.stopEntry row e)
      else s
    | none => s) s

/-- PNL_PG_FALL (12 R365): `row` is the first row not fully driven of the frame in progress. -/
def execPnlPgFall (row : Option Nat) (s : State) : Host.Outcome State Fault Refusal :=
  if !s.pnl.pg then .next s
  else
    let s1 := s.pnlStop row
    .next ({ s1 with pnl := { s1.pnl with pg := false, inFrame := false, nextNs := none } }.setEventIf s.pnl.power .pnl 4)

/-- PNL_PG_RISE (12 R353, R366). -/
def execPnlPgRise (s : State) : Host.Outcome State Fault Refusal :=
  if s.pnl.pg then .next s
  else
    let first := (s.time.sec.toNat + 1) * 1000000000
    let s1 := { s with pnl := { s.pnl with pg := true, inFrame := false, nextNs := if s.pnl.mode = 1 then some first else none
                                           idle := 0, hz := s.pnl.rateActive } }
    .next (if s.panelDriving && s.pnl.mode == 2 then s1.pnlComplete else s1)

/-! The twin. -/

/-- Acknowledged requests complete (12 R363). -/
def State.pnlAck (s : State) (id : Half) : State :=
  let mark : PReq → PReq := fun r => if r.id == id then { r with acked := true } else r
  let p := { s.pnl with waiting := s.pnl.waiting.map mark, done := s.pnl.done.filter (fun r => r.id != id)
                        slots := Tbl.map {} (fun x => { x with req := x.req.map mark }) s.pnl.slots }
  (s.pnl.done.filter (fun r => r.id == id)).foldl (fun s r => s.finish r.origin stOk 0) { s with pnl := p }

/-- A journal entry of the LEAD reaches this module (12 R363, R364). -/
def State.pnlMirror (s : State) (i : Nat) (e : JEntry) : State :=
  let x := s.pnl.slot i
  let mine := if e.active then takeFirst (fun (r : PReq) => r.id == e.id && match r.op with | .update _ _ => true | _ => false)
    s.pnl.waiting else none
  let y := { x with cur := some (sealEntry e), old := x.cur, running := false, req := match mine with | some (r, _) => some r | none => x.req }
  let p := { s.pnl.setSlot i y with waiting := match mine with | some (_, rest) => rest | none => s.pnl.waiting }
  if e.active then { s with pnl := p }
  else
    let s1 := { s with pnl := (p.setSlot i { y with req := none }).settle e.rect }
    match y.req with
    | some r => (s1.pnlDone r).pnlServe
    | none => s1.pnlServe

/-- A panel message of the partner's SEQSTATE frames (12 R354, R363). -/
def State.pnlRemote (s : State) (m : PnlMsg) : State :=
  match m with
  | .request id op =>
    (s.pnlTake { id := id, op := op, origin := .partner, acked := true }).pnlSend (.ackRequest id)
  | .entry i e => s.pnlMirror i e
  | .rate _ hz => { s with pnl := { s.pnl with hz := hz, nextNs := s.pnl.nextNs.map (fun _ => lcdNext s.pnl.frameNs hz) } }
  | .early _ t => { s with pnl := { s.pnl with nextNs := s.pnl.nextNs.map (fun _ => t) } }
  | .ackRequest id => s.pnlAck id

/-- Does the line period of a row overlap the uncertain time around T_take (12 R367)? The rows, if any, of a rectangle. -/
def takeoverRows (e : JEntry) (t : Nat) : Option (Nat × Nat) :=
  let lo := max e.rect.y ((t - 6000 - e.start.toNat) / 8000)
  let hi := min (e.rect.y + e.rect.h) ((t + 9000 - e.start.toNat) / 8000 + 1)
  if lo < hi then some (lo, hi) else none

/-- At a takeover the new LEAD goes on with each update of its mirrored journal (12 R367); updates that a former PNL_PG fall
cut short run completions. -/
def State.pnlTakeover (s : State) : State :=
  (List.range 16).foldl (fun s i =>
    let x := s.pnl.slot i
    match x.cur with
    | some e =>
      if !e.active || x.running then s
      else if !e.completion && e.row == 0 then
        let t := s.nowNs
        let on := decide (e.start.toNat ≤ t)
        let live := on && decide (t < e.start.toNat + 8000 * s.pnl.vactive + 6000)
        let fix := if live then takeoverRows e t else none
        let y := { x with running := true, driven := live, fixing := false, fix := fix, next := if on then e.frame + 1 else e.frame }
        { s with pnl := s.pnl.setSlot i y }.setEventIf fix.isSome .pnl 7
      else
        let cut := e.row != 0
        let y := { x with running := true, driven := false, fixing := false
                          fix := if cut then some (e.row, e.rect.y + e.rect.h) else none
                          next := if cut then e.frame + 1 else e.frame }
        { s with pnl := s.pnl.setSlot i y }
    | none => s) s

/-- With no partner no acknowledgement is awaited: what was carried out completes (12 R363). -/
def State.pnlAlone (s : State) : State :=
  let mark : PReq → PReq := fun r => { r with acked := true }
  let p := { s.pnl with waiting := s.pnl.waiting.map mark, done := [], slots := Tbl.map {} (fun x => { x with req := x.req.map mark }) s.pnl.slots }
  s.pnl.done.foldl (fun s r => s.finish r.origin stOk 0) { s with pnl := p }

/-- The former LEAD ends the requests that its partner never acknowledged with TAKEOVER_ABORT (12 R367, 14 R420). -/
def State.pnlYielded (s : State) : State :=
  let lost := (s.pnl.waiting ++ s.pnl.done).filter (fun r => !r.acked)
  let p := { s.pnl with waiting := s.pnl.waiting.filter (fun r => r.acked), done := []
                        slots := Tbl.map {} (fun x => { x with running := false, fixing := false, fix := none, driven := false }) s.pnl.slots }
  lost.foldl (fun s r => s.pnlRefuse r.origin 6) { s with pnl := p }

/-- A cold promotion (12 R368): completions from the own journal, then a full refresh before any request. -/
def State.pnlCold (s : State) : State :=
  if s.pnl.mode = 2 then { s with pnl := { s.pnl with refresh := true } }.pnlComplete else s

/-- The panel unit at start-up: buffer RAM is empty, the journal and the surfaces of the retained store stand (12 R357,
R365, R366). -/
def PnlBlk.startUp (p : PnlBlk) : PnlBlk :=
  { p with power := Bits.bit p.cfg.config 25, front := [], back := [], copying := false, waiting := [], done := []
           refresh := false, inFrame := false, nextNs := none, frameCnt := 0#64, faulted := false, measNs := none
           slots := Tbl.map {} (fun x => { x.readBack with running := false, fixing := false, fix := none, driven := false, req := none }) p.slots }

/-- Loss of both station supplies with PNL_PG high: the frame in progress is finished and no further one starts; waiting
requests are lost (12 R365). -/
def State.pnlPowerLoss (s : State) : State :=
  let s1 := s.pnlStop none
  { s1 with pnl := { s1.pnl with waiting := [], done := [] } }

/-- The panel unit stops within one frame (12 R369, 01 R22). -/
def State.pnlUnitStop (s : State) : State :=
  let s1 := s.pnlStop none
  { s1 with pnl := { s1.pnl with faulted := true, inFrame := false, nextNs := none } }

end Sys2Proof.Machine
end

