-- ==== Sys2Proof/Machine/TwinOps.lean ====
section
/-! DEFINITION. Machine/TwinOps.lean: the exchange of a cycle with the partner, verdicts, mismatches, state copy, promotion
and yield (04 R105-R140). -/
namespace Sys2Proof.Machine

/-- The unit number of the partner. -/
def State.partnerUnit (s : State) : BitVec 4 := if s.twin.slotB then 0xA#4 else 0xB#4

def State.modTwin (s : State) (n : Nat) (f : TwinTask → TwinTask) : State :=
  { s with twin := s.twin.setTask n (f (s.twin.task n)) }

/-- A TWIN event with its record. (DEDUCED, log 33) -/
def State.twinRecord (s : State) (bit obj : Nat) : State := s.recordEvent .twin bit obj s.twinStatus

/-! The agreed input image. -/

/-- Is a member substituted by the other module's sample when the token holder's is not GOOD (04 R115, 10 R495, 11 R347)? -/
def InKind.substituted : InKind → Bool
  | .dio _ => true | .aio _ => true | .gs _ => true | .sh _ => true | .sip _ => true | .fb _ => true | .so _ => true
  | .fn _ => true | .brake _ => true | .cap _ => true | .axis _ => true | .stream _ => true
  | .time => false | .clock _ => false | .slot _ => false | .rx _ _ => false | .area _ => false | .pub _ _ => false

/-- Does each module read its own copy of a member (04 *Sources of the agreed input image*)? -/
def InKind.ownCopy : InKind → Bool
  | .pub _ _ => true | .rx _ _ => true | _ => false

/-- One member of the agreed image: the token holder's value, or the other module's GOOD one. Gives whether it was
substituted. -/
def agreeOne (k : InKind) (own holder other : InVal) : InVal × Bool :=
  if k.ownCopy then (own, false)
  else if k.substituted && holder.q != 0 && other.q == 0 then (other, true)
  else (holder, false)

/-- The agreed image of a cycle from both sets of raw samples, and how many members were substituted (04 R115). -/
def agreeAll : List InKind → List InVal → List InVal → List InVal → List InVal × Nat
  | k :: ks, o :: os, h :: hs, p :: ps =>
    let r := agreeOne k o h p
    let l := agreeAll ks os hs ps
    (r.1 :: l.1, l.2 + (if r.2 then 1 else 0))
  | _, os, _, _ => (os, 0)

/-- The agreed image of the LEAD with this module's own copies in it (04 *Sources of the agreed input image*). -/
def ownMembers (ins : List InKind) (own l : List InVal) : List InVal :=
  (ins.zip (own.zip l)).map (fun e => if e.1.ownCopy then e.2.1 else e.2.2)

/-- The partner's samples of a cycle, when they are here. -/
def TwinTask.samplesOf (w : TwinTask) (k : DWord) : Option (List InVal) :=
  match w.samples with
  | some (j, l) => if j = k then some l else none
  | none => none

def TwinTask.agreedOf (w : TwinTask) (k : DWord) : Option (List InVal) :=
  match w.agreed with
  | some (j, l) => if j = k then some l else none
  | none => none

/-- The image that this module forms for the cycle in progress: without the other module's samples there is no
substitution, and a module that held no token forms it from the token holder's samples where it has them (04 R115, R129). -/
def State.formImage (s : State) (n : Nat) (r : CycleRun) : List InVal × Nat :=
  match (s.twin.task n).samplesOf r.k with
  | none => (r.inputs, 0)
  | some p =>
    if r.lead then agreeAll (s.progTask n).inputs r.inputs r.inputs p
    else agreeAll (s.progTask n).inputs r.inputs p r.inputs

/-- The agreed image is complete: the billets with release point INPUT are released, INPUT_DEGRADED shows its quality
(03 R71, 02 R44). -/
def State.takeImage (s : State) (n : Nat) (r : CycleRun) (l : List InVal) (subst : Nat) (diff : Bool) : State :=
  let t := s.task n
  let old := t.lastGood ++ List.replicate l.length []
  let s := s.setTask n { t with
    run := some { r with inputs := l, agreed := true }
    csw := Bits.putBit t.csw 23 (degraded (s.progTask n).inputs l true r.rick)
    lastGood := (l.zip old).map (fun e => if e.1.q = 0 then e.1.bytes else e.2) }
  let s := { s with twin := { s.twin with substCnt := s.twin.substCnt + BitVec.ofNat 64 subst } }
  (s.modTwin n (fun w => { w with differs := diff })).releaseBillets n

/-! Mismatch, verdicts and the apply instant. -/

/-- The instant at which a commit of a task with this Tc applies: its next scheduled T0 at least 30 µs after Tc, TAI ns (02 R37). -/
def State.applyAfter (s : State) (n tc : Nat) : Nat := (s.taskCfg n).nextTick (max s.tickNo ((tc + 29999) / 10000)) * 10000

/-- The instant at which the last commit of a task applies. -/
def State.applyInstant (s : State) (n : Nat) : Nat := s.applyAfter n ((s.task n).lastTc.getD 0)

/-- A mismatch is recorded (04 R122); JOINED, both modules test themselves and the SHADOW is SUSPECT (R121). -/
def State.mismatch (s : State) (n : Nat) (k : DWord) (kind : Nat) : State :=
  let joined := s.twin.link == .joined
  let s := { s with twin := { s.twin with
    mismTask := Bits.fld kind 28 ||| Bits.fld (n % 32) 0, mismCycle := k, mismCnt := Bits.inc s.twin.mismCnt
    testing := s.twin.testing || joined, ownResult := if joined then none else s.twin.ownResult
    peerResult := if joined then none else s.twin.peerResult
    suspect := s.twin.suspect || (joined && !s.holdsToken) } }
  s.twinRecord 2 n

/-- The poll state of an RX unit (04 R131). -/
def RxUnit.poll (x : RxUnit) : RxPoll := { fails := x.failRun, lost := x.state == .lost }

/-- What the SHADOW needs to take over the sequential outputs (04 R124 step 3). -/
def State.seqState (s : State) : CopyMsg :=
  .seqState ([(0, s.ax.get 0), (1, s.ax.get 1), (2, s.ax.get 2), (3, s.ax.get 3)])
    ((List.finRange 16).filterMap (fun i => (s.pnl.slot i.val).cur.map (fun e => (i, e))))
    (List.map (fun (e : Nat × StreamCtx) => (e.1, e.2.seq)) s.net.ctxs) s.net.redSeq
    ((List.finRange 6).map (fun u => (u, (s.cfg.unit (u.val + 1)).poll)))
    (s.configuredTasks.map (fun n => (n, (s.task n).consec, (s.task n).overruns)))

/-- The objects of the state copy, where the SHADOW's differ (04 R123). -/
def State.sendObjects (s : State) : State :=
  let s := match s.cfg.prog with
    | some p => if s.twin.peer.prog != p.hash then s.olvia (.copy (.program p)) else s
    | none => s
  if s.twin.peer.cfg != s.cfg.cur.hash then s.olvia (.copy (.config s.cfg.cur)) else s

/-- What a station tick carries of a state copy: 6 Gbit/s (04 R104). -/
def copyPart : Nat := 7500

/-- The bytes of a sparse image in a range. -/
def imagePart (img : Tbl Byte) (off len : Nat) : List (Nat × Byte) := List.filter (fun e => decide (off ≤ e.1) && decide (e.1 < off + len)) img

/-- How much of the full images is copied, in percent, once `off` bytes of task `n` are (04 *TWIN_COPY_STATUS*). -/
def State.copyPercent (s : State) (n off : Nat) : Nat :=
  let size := fun (l : List Nat) => l.foldl (fun k m => k + (s.progTask m).size) 0
  let all := size s.configuredTasks
  if all = 0 then 100 else 100 * (size (s.configuredTasks.takeWhile (fun m => m != n)) + off) / all

/-- The next part of a task's committed image goes out (04 R124 step 1). -/
def State.sendPart (s : State) (n : Nat) (rest : List Nat) : State :=
  let size := (s.progTask n).size
  let off := s.twin.copyOff
  let len := min copyPart (size - off)
  let s := s.olvia (.copy (.image n (s.task n).cycle (imagePart (s.task n).image off len) (some (off, len))))
  let last := decide (size ≤ off + len)
  let s := { s with twin := { s.twin with
    copyTask := n, percent := s.copyPercent n (off + len), copyOff := if last then 0 else off + len
    copyTodo := if last then rest else n :: rest } }
  s.modTwin n (fun w => { w with begun := true })

/-- Do the lines that each task wrote in its last cycle fit within such a cycle (04 R124 step 2)? -/
def State.backlogFits (s : State) : Bool :=
  s.configuredTasks.all (fun n => decide (64 * (s.task n).lines.length ≤ (s.taskCfg n).ticks * copyPart))

/-- A SHADOW that takes a state copy lets go of its cycles in progress and follows the LEAD's time (04 R124, 06 R164). -/
def State.letGo (s : State) : State :=
  { s with
    fab := s.fab.stopAll, time := s.time.follow
    cyc := { s.cyc with bpHit := none, tasks := Tbl.map {} (fun t => { t.setDraft t.image with run := none, toApply := false, due := none, dueFrom := none }) s.cyc.tasks } }

/-- Are shared stages still to be released at an apply instant (04 R111, R116)? -/
def State.releasePending (s : State) : Bool := s.twin.tasks.any (fun e => e.2.release)

/-- A state copy begins or begins again: the pair is CATCHING-UP, the SHADOW drives nothing, or nothing more from the apply instant
that waits for it (04 R111, R116, R124). While the SHADOW is in HOLD the copy waits. (DESIGN CHOICE, log 34) -/
def State.startCopy (s : State) : State :=
  let hold := (s.holdsToken && (s.exchanging || !s.mod.ready))
    || (if s.holdsToken then (match s.twin.heard with | some h => Bits.bit h.elig 2 | none => false) else s.cyc.mode == .hold)
  let s := if s.holdsToken then s else (if s.releasePending then s else s.standBack).letGo
  let s := if !s.holdsToken && s.exchanging then { s with xch := { s.xch with cur := {}, old := s.xch.cur, pkg := none, written := false, ownOk := false, peerOk := false, finals := [], switched := 0#32 } } else s
  let s := { s with twin := { s.twin with
    link := .catchingUp, phase := if hold then 0 else 1, copyNs := s.nowNs, seqDone := false, percent := 0, testing := false
    shown := false, copyOff := 0, copyTodo := s.configuredTasks
    suspect := false, isolated := false, split := none, lost := false, blocked := false
    tasks := Tbl.map {} TwinTask.restart s.twin.tasks } }
  if hold then s
  else
    let s := s.setEvent .twin 5
    if s.holdsToken then s.sendObjects else s

/-- The stages that belong to no output of the running program engage at once (04 R124 step 6). -/
def State.engageFree (s : State) : State :=
  let outs := s.configuredTasks.flatMap (fun n => (s.progTask n).outputs)
  let dio := (List.range 96).filter (fun c => !outs.any (fun o => o.kind == .dio c))
  let aio := (List.range 32).filter (fun c => !outs.any (fun o => o.kind == .aio c))
  { s with dio := dio.foldl (fun d c => d.modCh c (fun x => if x.engaged then x else DioCh.engage true x)) s.dio
           aio := aio.foldl (fun d c => d.modCh c (AioCh.engage (d.live c) s.partnerEngaged)) s.aio }

/-- The join proof is complete: every configured task has 8 consecutive APPLY verdicts or is proved by its image
(04 R124 step 5). -/
def State.proofComplete (s : State) : Bool :=
  s.twin.link == .catchingUp && s.twin.seqDone
    && s.configuredTasks.all (fun n => (s.twin.task n).proved || decide (8 ≤ (s.twin.task n).matched))

/-- The yield of R127 begins: the keeper stops, the line goes high, YIELD is sent. (DESIGN CHOICE, log 34) -/
def State.yieldNow (s : State) (r : Option Region) (o : Origin) : State :=
  let s := { s with twin := { s.twin with keeper := false, ownLow := false, yielding := some { region := r, origin := o } } }
  s.olvia (.yield (r.getD .mismatch) r.isNone)

/-- The restart of supervisor, lane P and cells on the release of the inactive firmware slot (17 R464): the shared stages are
released, that slot becomes the active one and the module catches up again. (DEDUCED, log 60) -/
def State.fwRestart (s : State) : State :=
  if !s.cfg.fwWait then s
  else
    let rel := match if s.cfg.firmOnB then s.cfg.firmA else s.cfg.firmB with | some f => f.release | none => s.mod.fwRelease
    let back := fun (x : Engine) => { x with fw := .active }
    let s := { s with
      cfg := { s.cfg with fwWait := false, firmOnB := !s.cfg.firmOnB }
      mod := { s.mod with fwRelease := rel }
      fab := { s.fab with engines := Tbl.map {} back s.fab.engines }
      twin := { s.twin with regions := s.twin.regions ++ [Region.sv] } }
    State.startCopy (s.setSafe { s.safe with laneP := false })

/-- The image that a state copy brought becomes the active one (04 R123). -/
def CfgBlk.joined (c : CfgBlk) : CfgBlk := if c.joinProg then { c with joinProg := false, progB := !c.progB } else c

/-- The pair becomes JOINED (04 R111, R123, R124 step 6). A LEAD whose self-test failed yields now (R121). (DEDUCED, log 44) -/
def State.joinNow (s : State) : State :=
    let s := { s with twin := { s.twin with link := .joined, phase := 0, shown := false }, cfg := s.cfg.joined }.setEvent .twin 4
    let s := match s.cfg.fwOrg with | some o => State.finish { s with cfg := { s.cfg with fwOrg := none } } o stOk 0 | none => s
    if s.holdsToken then
      (if s.twin.afterJoin then { s with twin := { s.twin with afterJoin := false } }.yieldNow (some .mismatch) .self else s)
    else if s.cyc.mode = .hold then s
    else ({ s with twin := { s.twin with engaged := true } }).engageFree

/-- The pair becomes JOINED when the proof is complete (04 R124 step 5). -/
def State.tryJoin (s : State) : State := if s.proofComplete then s.joinNow else s

/-- The sequential state has gone over: from here both modules run in step (04 R124 step 4). The cycle in progress is the last
whose lines follow. -/
def State.inStep (s : State) : State :=
  State.tryJoin { s with twin := { s.twin with phase := 5, seqDone := true, percent := 100
                                               tasks := s.configuredTasks.foldl (fun l n => Tbl.mod {} l n (fun w => { w with copied := (s.task n).run.map CycleRun.k })) s.twin.tasks } }

/-- A station tick of a state copy on the LEAD (04 R124, R104). (DEDUCED, log 90) -/
def State.copyTick (s : State) : State :=
  if !s.leads || s.twin.link == .joined then s
  else match s.twin.phase with
    | 1 => { s with twin := { s.twin with phase := 2 } }
    | 2 => match s.twin.copyTodo with
      | [] => { s with twin := { s.twin with phase := 3, percent := 100 } }
      | n :: rest => s.sendPart n rest
    | 3 => if s.backlogFits then { s.olvia (.copy s.seqState) with twin := { (s.olvia (.copy s.seqState)).twin with phase := 4 } } else s
    | 4 => (s.olvia (.policy (.mode s.cyc.mode []))).inStep
    | _ => s

/-- A verdict takes its place with the module, whichever sent it (04 R119, R120). -/
def State.takeVerdict (s : State) (n : Nat) (k : DWord) (code ta kind : Nat) : State :=
  let s := s.modTwin n (fun w => { w with
    verdict := some (k, code, ta), keep := code == 3
    release := w.release || (!s.holdsToken && s.twin.link == .joined && (code == 2 || code == 4))
    matched := if code = 1 then w.matched + 1 else 0 })
  match code with
  | 1 => s.tryJoin
  | 2 => (let j := s.twin.link == .joined
          let s := s.mismatch n k kind
          if !j then s.startCopy else s)
  | 4 => (s.setEvent .twin 10).startCopy
  | _ => s

/-- The LEAD gives a verdict (04 R119). -/
def State.sendVerdict (s : State) (n : Nat) (k : DWord) (code kind : Nat) : State :=
  let ta := s.applyInstant n
  (s.olvia (.verdict n k code ta)).takeVerdict n k code ta kind

/-- The kind of mismatch between two hashes, 0 for none (04 *TWIN_JOIN_REFUSE and TWIN_MISMATCH_TASK fields*). -/
def mismatchKind (own partner : HashPair) : Nat :=
  if own.hash != partner.hash then 1 else if own.audit != partner.audit then 2 else if partner.diff || own.diff then 3 else 0

/-- Has the LEAD given a final verdict on a cycle? -/
def TwinTask.judged (w : TwinTask) (k : DWord) : Bool :=
  match w.verdict with
  | some (j, c, _) => j == k && c != 3
  | none => false

/-- The LEAD judges a cycle as soon as it can (04 R119). -/
def State.judge (s : State) (n : Nat) : State :=
  if !s.leads then s
  else
    let w := s.twin.task n
    match w.own with
    | some o =>
      if w.judged o.k then s
      else if w.fault = some o.k then s.sendVerdict n o.k 2 4
      else match w.partner with
        | some p =>
          if p.k ≠ o.k then s
          else
            let kind := mismatchKind o p
            if kind = 0 then s.sendVerdict n o.k 1 0 else s.sendVerdict n o.k 2 kind
        | none => s
    | none => s

/-- The LEAD, having abandoned a cycle, holds a HASH of it from the SHADOW: a mismatch, after a FAULTED verdict too. -/
def State.judgeFault (s : State) (n : Nat) : State :=
  let w := s.twin.task n
  if !s.leads then s
  else match w.ownFault, w.partner with
    | some k, some p =>
      if p.k = k ∧ !(match w.verdict with | some (j, c, _) => j == k && c == 2 | none => false) then s.sendVerdict n k 2 4 else s
    | _, _ => s

/-- Put an output in its place in ascending address order. -/
def OutMember.insert (o : OutMember) : List OutMember → List OutMember
  | [] => [o]
  | a :: l => if o.sp.off < a.sp.off then o :: a :: l else a :: OutMember.insert o l

/-- The output section of a task at Tc, in ascending address order (04 R117). -/
def TaskProg.outBytes (p : TaskProg) (img : Tbl Byte) : List Byte :=
  (p.outputs.foldl (fun l o => o.insert l) []).flatMap (fun o => Tbl.getList 0#8 img o.sp.off o.sp.len)

def commitHash (p : TaskProg) (img : Tbl Byte) (k : DWord) : DWord := Bits.crc64 (p.outBytes img ++ Bits.bytes64 k)

/-- The audit hash: one 64 KiB segment of the committed image, chosen by the cycle number (04 R118). -/
def auditHash (p : TaskProg) (img : Tbl Byte) (k : DWord) : DWord :=
  let segs := (p.size + 65535) / 65536
  let seg := k.toNat % max segs 1
  Bits.crc64 (Tbl.getList 0#8 img (65536 * seg) (min 65536 (p.size - 65536 * seg)))

/-- The hash of a whole image (04 R124 step 5). -/
def imageHash (p : TaskProg) (img : Tbl Byte) : DWord := Bits.crc64 (Tbl.getList 0#8 img 0 p.size)

/-- A task that starts no cycle while the pair is catching up is proved by its image hash (04 R124 step 5). -/
def State.idleProof (s : State) (n : Nat) : State :=
  if s.twin.link = .catchingUp ∧ s.twin.seqDone ∧ (s.task n).run.isNone ∧ !(s.twin.task n).proved
      ∧ ((s.task n).mode ≠ .run ∨ (s.task n).pol ≠ .active) then
    let h := imageHash (s.progTask n) (s.task n).image
    let s := s.olvia (.imageHash n h)
    if (s.twin.task n).image = some h then (s.modTwin n (fun w => { w with proved := true })).tryJoin else s
  else s

/-! Loss, promotion, yield. -/

/-- TWIN_LAST_TAKE. -/
def lastTakeWord (kind region refuse : Nat) (unit : BitVec 4) : Word :=
  Bits.fld kind 28 ||| Bits.fld region 24 ||| Bits.fld refuse 20 ||| Bits.fld unit.toNat 16

def Region.code : Region → Nat
  | .net => 3 | .pnl => 4 | .ax => 5 | .twin => 6 | .sv => 7 | .mismatch => 8

/-- A new LEAD goes on with each session of an RX unit, its frame counter set to the last value it saw plus 65 536 (16 R456). -/
def CfgBlk.takeSessions (c : CfgBlk) : CfgBlk := { c with units := Tbl.map {} (fun (x : RxUnit) => { x with ctr := x.ctr + 65536#64 }) c.units }

/-- The SHADOW is promoted (04 R112, R128-R133): it pulls its line, its gates open, it continues every sequential output.
`kind` is 1 for a loss, 2 for a yield, 3 for a handover. (DESIGN CHOICE, log 34) -/
def State.promote (s : State) (kind region : Nat) : State :=
  let s := { s with
    twin := { s.twin with ownLow := true, keeper := true, takeCnt := Bits.inc s.twin.takeCnt, openElig := none
                          lastTake := lastTakeWord kind region 0 s.partnerUnit }
    cyc := { s.cyc with tasks := Tbl.map {} (fun t => { t with takeover := true }) s.cyc.tasks
                        buf := s.cyc.buf ++ s.cyc.fwd, fwd := [] }
    xch := { s.xch with alone := true }, cfg := s.cfg.takeSessions }
  let s := s.twinRecord 1 0xFFFFFFFF
  s.brakeAbortAll.endFollow.axTakeover.pnlTakeover.netTakeover

/-- An isolated SHADOW whose partner's line has gone high takes the station cold (04 R140). (DEDUCED, log 35) -/
def State.coldPromote (s : State) : State :=
  let s := { s with
    twin := { s.twin with ownLow := true, keeper := true, takeCnt := Bits.inc s.twin.takeCnt, isolated := false, split := none
                          engaged := s.mod.ready, lastTake := lastTakeWord 4 0 0 s.partnerUnit }
    cyc := { s.cyc with tasks := Tbl.map {} (fun t => { t with takeover := true }) s.cyc.tasks }
    cfg := s.cfg.takeSessions }
  let s := s.axCold
  let s := ((s.twinRecord 1 0xFFFFFFFF).twinRecord 15 0xFFFFFFFF).brakeAbortAll.endFollow.pnlCold
  if s.mod.ready then s.engageFree else s

/-- What a SHADOW does once its partner is lost; `elig` is its eligibility before the loss (04 R112, R113, R134).
(DEDUCED, log 35) -/
def State.shadowAlone (s : State) (elig : Bool) : State :=
  if s.twin.partner ∧ (s.twin.partnerLow ∨ !s.twin.high1us) then
    let t0 := if s.twin.isolated then s.twin.split else some (s.nowNs, 0)
    let s := { s with twin := { s.twin with isolated := true, split := t0, splitCnt := Bits.inc s.twin.splitCnt } }
    s.twinRecord 3 0xFFFFFFFF
  else if s.twin.partnerLow ∨ !s.twin.high1us then { s with twin := { s.twin with openElig := some elig } }
  else if elig then s.promote 1 0
  else { s with twin := { s.twin with blocked := true } }.setEvent .twin 14

/-- The partner is lost: the link is SEVERED and the role is decided (04 R111, R112, R137); `elig` is this module's eligibility
before the event (R113). -/
def State.losePartner (s : State) (elig : Bool) : State :=
  let shadow := s.twin.started && !s.holdsToken
  let back := s.twin.yielding.isSome && !s.twin.partnerLow
  let s := { s with twin := { s.twin with link := .severed, lost := true, heard := none, phase := 0, testing := false, suspect := false, yielding := none
                                          ownLow := s.twin.ownLow || back, keeper := s.twin.keeper || back } }
  let s := (s.twinRecord 0 0xFFFFFFFF).endFollow
  let shadow := shadow && !back
  if shadow then s.shadowAlone elig else s.pnlAlone

/-- A lane enters DOWN. It starts training at its entry when it was UP, else it waits for its next attempt; no second copy comes on
it any more. -/
def State.laneDown (s : State) (l : Nat) (error : Bool) : State :=
  let x := s.twin.lane l
  let was := x.state == .up
  let y : OlviaLane := { state := .down, next := if was then s.nowNs else x.next, errors := Bits.sat 14 x.errors (if error then 1 else 0) }
  { s with twin := { s.twin.setLane l y with copies := s.twin.copies.filter (fun e => e.1 == l) } }.setEventIf was .twin 6

/-- Both lanes go DOWN; one that was UP is reported as LANE_DOWN. -/
def State.lanesDown (s : State) : State := (s.laneDown 0 false).laneDown 1 false

/-- The module fails (01 R21): it writes its record (18 R485), releases its role line and its stages and stops its links. (DEDUCED, log 74) -/
def State.failModule (s : State) : State :=
  if s.mod.failed then s
  else
    let m := { s.mod with failed := true }
    let s := (State.report { s with mod := m } .mod 8 noObj (m.reg 0)).lanesDown
    let s := { s with
      twin := { s.twin with ownLow := false, keeper := false, engaged := false, link := .severed, started := false, waiting := false
                            heard := none, yielding := none, handover := none, testing := false, split := none, openElig := none, phase := 0 }
      dio := s.dio.engageAll false, aio := s.aio.faultReleaseAll
      fab := s.fab.stopAll, cyc := { s.cyc with halted := true, tasks := Tbl.map {} (fun t => { t with run := none }) s.cyc.tasks } }
    s.axCold.brakeAbortAll

/-- A region of 01 R22 has failed: a LEAD with an eligible partner yields. (DEDUCED, log 43) -/
def State.regionFault (s : State) (r : Region) : State :=
  let s := { s with twin := { s.twin with regions := if s.twin.regions.contains r then s.twin.regions else s.twin.regions ++ [r] } }
  if s.leads && s.partnerEligible && s.twin.yielding.isNone then s.yieldNow (some r) .self else s

/-- The outcome of a mismatch once both results are in (04 *Outcomes of a mismatch*). -/
def State.mismatchOutcome (s : State) : State :=
  match s.twin.ownResult, s.twin.peerResult with
  | some own, some peer =>
    if s.holdsToken then
      let s := if own then s else { s with twin := { s.twin with
        regions := if s.twin.regions.contains .mismatch then s.twin.regions else s.twin.regions ++ [.mismatch], afterJoin := peer } }
      if peer then s.startCopy else { s with twin := { s.twin with testing := false } }
    else if own then s.startCopy
    else s
  | _, _ => s

end Sys2Proof.Machine
end

