-- ==== Sys2Proof/Machine/CfgOps.lean ====
section
/-! DEFINITION. Machine/CfgOps.lean: checking a configuration and bringing it into force (16 R443-R452, 17 R470, R471). -/
namespace Sys2Proof.Machine

/-! Checks (16 R449). -/

/-- The parameters of a task lie in range (02 *Task parameters*). -/
def TaskCfg.formatOk (c : TaskCfg) : Bool :=
  c.kind == 0 || (decide (c.kind < 3) && decide (25 ≤ c.ticks) && decide (c.ticks ≤ 1000000)
    && (if c.angle then decide (1 ≤ c.firingCount) && decide (c.firingCount ≤ 24) && c.firings.length == c.firingCount
          && decide (c.direction < 3) && c.phaseTicks == 0
        else decide (c.phaseTicks < c.ticks) && c.firingCount == 0))

/-- The band limits of a cell in their order (08 R234). -/
def CellCfg.bandOk (c : CellCfg) : Bool :=
  let lo := fun (w : Word) => Bits.get w 0 16
  let hi := fun (w : Word) => Bits.get w 16 16
  decide (lo c.band0 < hi c.band0) && decide (hi c.band0 ≤ lo c.band1) && decide (lo c.band1 < hi c.band1)
    && decide (hi c.band1 ≤ lo c.band2) && decide (lo c.band2 < hi c.band2)

/-- The rick input deadline lies between 20 µs and 200 µs and within a quarter of the period of each task that reads RX
channels (02 R59). -/
def StationCfg.deadlineOk (c : StationCfg) (prog : Option Program) : Bool :=
  let d := Bits.get c.cyc 8 8
  let reads := fun (n : Nat) => match prog with
    | some p => !(Tbl.get {} p.tasks n).inputs.all (fun k => match k with | .rx _ _ => false | _ => true)
    | none => false
  decide (2 ≤ d) && decide (d ≤ 20) && c.tasks.all (fun e => !e.2.configured || !reads e.1 || decide (4 * d ≤ e.2.ticks))

/-- A number between two bounds. -/
def between (lo hi n : Nat) : Bool := decide (lo ≤ n) && decide (n ≤ hi)

/-- The fields of a stream context in their ranges (07 *Stream context*). -/
def StreamCtx.formatOk (c : StreamCtx) : Bool :=
  !c.valid || (between 1 1440 c.length && decide (c.portsCode < 3) && decide (c.encap < 3) && (c.budget == 0 || between 64 125000 c.budget)
    && if c.receive then between 1 1000000 c.offset else decide (Bits.get c.w0 23 2 < 2) && between 1 1000 c.every)

/-- The fields of an angle clock in their ranges (06 R177, *TIME_ACc_CONFIG and TIME_ACc_ZCFG fields*). -/
def ClockCfg.formatOk (i : Nat) (k : ClockCfg) : Bool :=
  let m := Bits.get k.cfg 29 3
  decide (m < 5) && (m != 2 || decide (i < 2)) && (m != 4 || decide (2 ≤ i))
    && (decide (m < 3) || (between 256 1048576 (Bits.get k.cfg 0 21) && between 1 255 (Bits.get k.zcfg 0 8)))

/-- The fields of a DIO and of an AIO channel in their ranges (08 *DIO_CHn_CONFIG fields*, 09 *AIO_CHn_CONFIG fields*). -/
def dioFormatOk (w : Word) : Bool :=
  let m := Bits.get w 29 3
  decide (m < 5) && decide (Bits.get w 27 2 < 3) && between 1 60 (Bits.get w 14 6)
    && if m = 4 then (Bits.get w 4 4 == 0 || between 2 10 (Bits.get w 4 4)) && decide (Bits.get w 0 3 < 6) else decide (Bits.get w 0 8 ≤ 200)
def aioFormatOk (w : Word) : Bool := decide (Bits.get w 29 3 < 4)

/-- The fields of a field cell in their ranges (08 *DIO_FCc_STATUS and DIO_FCc_CONFIG fields*). -/
def CellCfg.formatOk (c : CellCfg) : Bool := c.bandOk && between 1 100 (Bits.get c.cfg 16 8) && between 1 10000 (Bits.get c.cfg 0 14)

/-- The fields of an axis in their ranges (11 *AX_AXa_CONFIG fields* and the table after it). -/
def AxCfg.formatOk (c : AxCfg) : Bool :=
  decide (Bits.get c.config 28 4 ≤ 8) && between 1 200 (Bits.get c.config 16 8) && between 1 100 (Bits.get c.config 8 7)
    && between 100 3500 (Bits.get c.current 16 16) && decide (Bits.get c.current 0 16 ≤ Bits.get c.current 16 16)
    && decide (Bits.get c.quiet 16 16 ≤ 20000) && decide (Bits.get c.quiet 0 16 ≤ Bits.get c.quiet 16 16)
    && between 1 20000 (Bits.get c.stall 16 15) && between 1 179 (Bits.get c.stall 8 8) && decide (1 ≤ Bits.get c.stall 0 8)
    && between 1000 1000000 c.eDecel.toNat && decide (Bits.get c.junction 0 16 ≤ 20000)

/-- The panel in its limits (12 R352, R356, 00 R4). -/
def PnlCfg.formatOk (c : PnlCfg) : Bool :=
  let h := Bits.get c.geometry 16 16
  let v := Bits.get c.geometry 0 16
  !c.badLine && match Bits.get c.config 30 2 with
    | 1 => decide (h ≤ 1280) && decide (v ≤ 800)
    | 2 => decide (h ≤ 1872) && decide (v ≤ 1404)
    | m => m == 0

/-- A trigger definition and its snapshot list in their ranges (13 R379). -/
def TrigDef.formatOk (d : TrigDef) : Bool :=
  let kindOk := match d.kind with
    | .none => !d.valid
    | .event b i => decide (b < 16) && decide (i < 32)
    | .rise t w i | .fall t w i => decide (t < 32) && decide (w < 0x4000000) && decide (i < 32)
    | .change t w => decide (t < 32) && decide (w < 0x4000000)
    | .host => true
  decide (d.snaps.length ≤ 112) && decide (d.holdoff < 65536) && kindOk && d.snaps.all (fun e => match e with
    | .reg off => decide (off ≤ 0x3FFC) && decide (off % 4 = 0)
    | .var t w => decide (t < 32) && decide (w < 0x4000000))

/-- The network, time and trigger fields in their ranges (07 *NET_PAIR_CONFIG fields*, 06, 13 *Trigger definition*). -/
def StationCfg.unitsOk (c : StationCfg) : Bool :=
  decide (Bits.get c.pairCfg 30 2 < 3) && decide (Bits.get c.pairCfg 28 2 < 3) && decide (Bits.get c.ptpCfg 30 2 < 3)
    && decide (Bits.get c.ptpCfg 16 8 < 128) && decide (Bits.get c.timeCfg 0 8 ≤ 60)
    && c.trigs.all (fun e => decide (e.1 < 256) && e.2.formatOk)

/-- Every field in its range and order (16 R449). -/
def StationCfg.formatOk (c : StationCfg) (prog : Option Program) : Bool :=
  c.tasks.all (fun e => decide (e.1 < 32) && e.2.formatOk) && c.cells.all (fun e => e.2.formatOk) && c.deadlineOk prog
    && decide (1 ≤ c.twinWait) && decide (c.twinWait ≤ 100) && c.pnl.formatOk && c.unitsOk
    && c.ctxs.all (fun e => StreamCtx.formatOk { cfg := e.2 }) && c.clocks.all (fun e => e.2.formatOk e.1)
    && c.dio.all (fun e => dioFormatOk e.2) && c.aio.all (fun e => aioFormatOk e.2) && c.ax.all (fun e => e.2.formatOk)
    && c.limits.all (fun e => decide (1 ≤ e.2.quota) && decide (e.2.quota ≤ 16) && decide (1 ≤ e.2.ovrLimit)
      && decide (e.2.ovrLimit ≤ 255) && decide (e.2.budget ≤ 160000000))
    && between 1 8 c.keys.imageKeys.length && decide (c.keys.maintKeys.length ≤ 16) && c.keys.maintKeys.any (fun e => e.2.command)

/-- Could two receive contexts accept the same frame (07 R207)? -/
def ctxOverlap (a b : StreamCtx) : Bool :=
  a.valid && b.valid && a.receive && b.receive && a.ports.any (fun p => b.ports.contains p) && a.encap == b.encap
    && (if a.encap = 0 then a.mac == b.mac && a.portNo == b.portNo && a.streamId == b.streamId
        else a.ip == b.ip && a.portNo == b.portNo && (a.encap == 2 || a.streamId == b.streamId))

def StationCfg.ctxClash (c : StationCfg) : Bool :=
  c.ctxs.any (fun x => c.ctxs.any (fun y => decide (x.1 < y.1) && ctxOverlap { cfg := x.2 } { cfg := y.2 }))

/-- Is the key section one that the switch may take (17 R470)? -/
def State.keysOk (s : State) (c : StationCfg) : Bool :=
  c.keys == s.cfg.cur.keys || match c.keyChange with
    | some k => s.cfg.keyStore.imageKeys.contains k && c.keys.imageKeys.contains k
    | none => false

/-- Does a configuration's signature verify (16 R446)? While the key store is empty its own key section counts.
(DESIGN CHOICE, log 72) -/
def State.configSigned (s : State) (c : StationCfg) : Bool :=
  let keys := if s.cfg.keyStore.imageKeys.isEmpty then c.keys.imageKeys else s.cfg.keyStore.imageKeys
  match c.signer with
  | some k => !s.cfg.keysLost && keys.contains k
  | none => false

/-- The first reason against a switch to the staged configuration, 0 for none (16 R449). -/
def State.switchReason (s : State) (c : Option StationCfg) : Nat :=
  match c with
  | none => 2
  | some c =>
    if !s.configSigned c then 1
    else if !(c.formatOk s.cfg.prog && c.brakeOk s.safe.brakeCtxs) then 3
    else if s.cfg.progOk && !(match s.cfg.prog with
        | some p => (match p.proof with | some f => f.passes c.tasks c.cyc | none => false) | none => true) then 4
    else if Bits.get c.pairCfg 28 4 != Bits.get s.net.pairCfg 28 4 && s.cyc.mode != .stop then 5
    else if c.ctxClash then 6
    else if c.pnl.wave != s.pnl.cfg.wave && s.pnl.busy then 7
    else if !s.keysOk c then 8
    else if s.cfg.pend.isSome || s.cfg.asking.isSome || s.exchangeArmed || s.twin.link == .catchingUp then 9
    else 0

/-! Bringing a configuration into force. -/

/-- A channel of the running program belongs to a task: its configuration waits for that task's T0 (16 R450). -/
def State.owned (s : State) (i : InKind) (o : OutKind) : Bool :=
  s.configuredTasks.any (fun n => (s.progTask n).inputs.contains i || (s.progTask n).outputs.any (fun m => m.kind == o))

def State.loadDio (s : State) (c : StationCfg) (now : Bool) : State :=
  let set := fun (d : Dio) (n : Nat) =>
    let w := Tbl.get 0x00028000#32 c.dio n
    let own := !now && s.owned (.dio n) (.dio n)
    d.modCh n (fun x =>
      let x := if x.cfg == w then { x with nextCfg := none } else { x with nextCfg := some w }
      if own then x else DioCh.takeCfg s.twin.engaged x)
  let cell := fun (d : Dio) (i : Nat) =>
    let k := Tbl.get {} c.cells i
    d.modCell i (fun x => { x with cfg := k.cfg, band0 := k.band0, band1 := k.band1, band2 := k.band2 })
  { s with dio := (List.range 6).foldl cell ((List.range 96).foldl set s.dio) }

def State.loadAio (s : State) (c : StationCfg) (now : Bool) : State :=
  let set := fun (d : Aio) (n : Nat) =>
    let w := Tbl.get 0x01320000#32 c.aio n
    let own := !now && s.owned (.aio n) (.aio n)
    d.modCh n (fun x =>
      let x := if x.cfg == w then { x with nextCfg := none } else { x with nextCfg := some w }
      if own then x else AioCh.takeCfg s.twin.engaged (d.live n) s.partnerEngaged x)
  let sh := fun (d : Aio) (i : Nat) => d.setSh i { d.getSh i with cfg := Tbl.get 0#32 c.shafts i }
  { s with aio := { (List.range 2).foldl sh ((List.range 32).foldl set s.aio) with calCfg := c.calCfg } }

/-- An angle clock takes its configuration; another one makes a mains clock search anew and leaves a shaft clock without its
reference (06 R179). -/
def AngleClock.load (k : ClockCfg) (x : AngleClock) : AngleClock :=
  if x.cfg == k.cfg then { x with zcfg := k.zcfg }
  else { cfg := k.cfg, zcfg := k.zcfg, state := match Bits.get k.cfg 29 3 with | 0 => .off | 3 => .unreferenced | 4 => .unreferenced | _ => .search }

def State.loadTime (s : State) (c : StationCfg) : State :=
  let s := (List.range 4).foldl (fun (s : State) i => s.acPut i (AngleClock.load (Tbl.get {} c.clocks i) (s.time.clock i))) s
  State.mainsJudge { s with time := { s.time with cfg := c.timeCfg, sipCap := c.sipCap } }

/-- The contexts of a configuration: a budget holds for the next launch or frame (07 R210), the rest from the owning task's T0
(R222). -/
def State.loadNet (s : State) (c : StationCfg) (now : Bool) : State :=
  let keys := ((List.map Prod.fst c.ctxs)) ++ (((List.map Prod.fst s.net.ctxs)).filter (fun k => !c.ctxs.any (fun e => e.1 == k)))
  let set := fun (d : NetBlk) (n : Nat) =>
    let bs := Tbl.get [] c.ctxs n
    let x := d.ctx n
    let x := if x.cfg == bs then { x with nextCfg := none } else { x with nextCfg := some bs, cfg := x.cfg.take 28 ++ bs.drop 28 }
    d.setCtx n (if !now && s.owned (.stream n) (.stream n) then x else x.takeCfg)
  { s with net := { keys.foldl set s.net with pairCfg := c.pairCfg, ptpCfg := c.ptpCfg, macs := c.macs, ips := c.ips } }

/-- The recorder section: quotas apply to the next record; the trigger definitions of a switch wait for the next station tick
(13 R379, R385). -/
def State.loadRec (s : State) (c : StationCfg) : State :=
  let r := { s.recorder with quota := c.quotas }
  { s with recorder := if s.cfg.loaded then { r with nextDefs := some c.trigs } else { r with trigDefs := c.trigs } }

def State.loadAx (s : State) (c : StationCfg) : State :=
  let set := fun (d : AxBlk) (a : Nat) =>
    let k := Tbl.get {} c.ax a
    d.set a (if (d.get a).cfg == k then { d.get a with nextCfg := none } else ({ d.get a with nextCfg := some k } : Axis).takeCfg)
  let b := if s.pnl.tempValid then c.pnl.wave.bandOf s.pnl.temp else s.pnl.band
  State.setEventIf { s with ax := (List.range 4).foldl set s.ax, pnl := { s.pnl with cfg := c.pnl, band := b } } (b != s.pnl.band) .pnl 0

/-- Task parameters: at once, or at each task's T0; a task that had no schedule takes its own, and the mode in force, at once. -/
def State.loadTasks (s : State) (c : StationCfg) (now : Bool) : State :=
  let old := s.configuredTasks
  let lim := fun (s : State) (n : Nat) =>
    let l := Tbl.get {} c.limits n
    if now then s.modTask n (fun t => { t with limits := l, next := none })
    else s.modTask n (fun t => { t with next := if t.limits == l && t.next.isNone then none else some (.tick (s.tickNo - 1), l) })
  let s := (List.range 32).foldl lim s
  if now then { s with cfg := { s.cfg with taskCfgs := c.tasks, nextTasks := [], changing := [] } }
  else
    let fresh := c.tasks.filter (fun e => !old.contains e.1)
    let s := fresh.foldl (fun s e => s.modTask e.1 (fun t => { t with mode := s.cyc.mode })) s
    { s with cfg := { s.cfg with
      taskCfgs := Tbl.setAll {} s.cfg.taskCfgs fresh, nextTasks := c.tasks
      changing := old.filter (fun n => Tbl.get {} c.tasks n != s.taskCfg n) } }

/-- A session closes: the copies of its requester return to their reset values (15 R427, R441). -/
def State.closeSession (s : State) : State :=
  if s.mnt.session.isNone then s
  else State.setEvent { s with
    mnt := { s.mnt with session := none }
    mod := { s.mod with maint := {} }
    recorder := { s.recorder with window := Tbl.erase s.recorder.window 1 } } .mnt 1

/-- The keys of a configuration come into force: a removed maintenance key closes its session (17 R470, R471). -/
def State.loadKeys (s : State) (c : StationCfg) : State :=
  if c.keys == s.cfg.cur.keys then s
  else
    let gone := !c.keys.maintKeys.any (fun e => e.1 == s.mnt.sessKey)
    let s := { s with cfg := { s.cfg with keys0 := some c.keys, keys1 := some c.keys, keyBad0 := false, keyBad1 := false } }
    if gone then s.closeSession else s

/-- The units of the key section: a new one is ABSENT until it authenticates, one taken out is no longer enrolled. -/
def State.loadUnits (s : State) (c : StationCfg) : State :=
  let f := fun (u : Nat) (x : RxUnit) =>
    if c.keys.units.any (fun e => e.1 == u) then (if x.state = .notEnrolled then { x with state := .absent } else x)
    else { x with state := .notEnrolled }
  { s with cfg := { s.cfg with units := Tbl.mapRange {} f s.cfg.units 1 6 } }

/-- A configuration comes into force: at start-up and on a module that drives nothing at once (`now`), else at Ts with each
task's fields at its T0 (16 R450, R451). -/
def State.loadConfig (s : State) (c : StationCfg) (now : Bool) : State :=
  let s := (((((s.loadDio c now).loadAio c now).loadTime c).loadNet c now).loadRec c).loadAx c
  let s := s.loadTasks c now
  let s := (if now then s else s.loadKeys c).loadUnits c
  { s with cfg := { s.cfg with cur := c, loaded := true } }

/-- The inactive configuration slot. -/
def CfgBlk.staged (c : CfgBlk) : CfgSlot := if c.slotLoaded then c.slotA else c.slotB
def CfgBlk.active (c : CfgBlk) : CfgSlot := if c.slotLoaded then c.slotB else c.slotA

/-- The header of the inactive slot is written: SEQ is the active slot's plus 1 (16 R448). -/
def CfgBlk.writeHeader (c : CfgBlk) : CfgBlk :=
  let q := { c.staged with seq := c.active.seq + 1#64, header := true, use := .valid }
  if c.slotLoaded then { c with slotA := q } else { c with slotB := q }

/-- The slot with the new header becomes the active one. -/
def CfgBlk.flip (c : CfgBlk) : CfgBlk :=
  let a := { c.slotA with use := if c.slotLoaded then .active else .valid }
  let b := { c.slotB with use := if c.slotLoaded then .valid else .active }
  { c with slotA := a, slotB := b, slotLoaded := !c.slotLoaded }

/-- A body is written into the inactive slot, its header left erased (16 R448). -/
def CfgBlk.putBody (c : CfgBlk) (b : StationCfg) : CfgBlk :=
  let q : CfgSlot := { body := some b, seq := c.staged.seq, header := false, use := .staged }
  if c.slotLoaded then { c with slotA := q } else { c with slotB := q }

/-- A SHADOW that drives nothing activates what the LEAD sent it (04 R123, 16 R451). -/
def State.adoptConfig (s : State) (c : StationCfg) : State :=
  State.loadConfig { s with cfg := (s.cfg.putBody c).writeHeader.flip } c true

end Sys2Proof.Machine
end

