-- ==== Sys2Proof/Machine/XchOps.lean ====
section
/-! DEFINITION. Machine/XchOps.lean: what happens to an exchange when cycles start, commit and are abandoned, its abort, and
the switch of a task (05 R144-R158). -/
namespace Sys2Proof.Machine

/-- The exchange record is written into the other slot (05 R157). -/
def XchBlk.write (x : XchBlk) (r : XchRec) : XchBlk := { x with old := x.cur, cur := r }

/-- The slot of the package is cleared. -/
def XchBlk.clear (x : XchBlk) : XchBlk :=
  { x with len := 0, total := 0, pkg := none, signer := none, written := false, ownOk := false, peerOk := false }

/-- What pre-carry and switch have brought together is discarded. (DEDUCED, log 40) -/
def XchBlk.drop (x : XchBlk) : XchBlk :=
  { x with done := false, ready := false, percent := 0, go := false, txNs := none, stage := [], finals := [], carriedAt := []
           cfgDone := false, switched := 0#32, carryLate := 0#32, alone := false, mirrored := [] }

/-- An armed exchange is aborted back to STAGED (05 R144, R148, R158); a LEAD tells its SHADOW. -/
def State.xchAbort (s : State) (reason : Nat) : State :=
  if s.xch.cur.state ≠ .armed then s
  else
    let x := s.xch.drop.write { s.xch.cur with state := .staged }
    let s := { s with xch := { x with reason := reason, aborts := Bits.inc x.aborts } }.setEvent .xch 4
    if s.leads then s.olvia (.policy (.abort reason)) else s

/-- A configuration whose header is written comes into force (16 R448, R450). -/
def State.switchNow (s : State) (c : StationCfg) : State :=
  let f := s.cfg.flip
  let s := { s with cfg := { f with switchCnt := Bits.inc f.switchCnt } }.loadConfig c false
  let s := if s.twin.link = .severed then s else { s with twin := { s.twin with peer := { s.twin.peer with cfg := c.hash } } }
  s.setEvent .cfg 0

/-- The configuration of the package comes into force at Tx (05 R157, 16 R451). (DEDUCED, log 39) -/
def State.packageCfg (s : State) : State :=
  match s.xch.pkg with
  | some p =>
    match p.cfg with
    | some c =>
      if s.xch.cfgDone then s
      else State.switchNow { s with xch := { s.xch with cfgDone := true }, cfg := (s.cfg.putBody c).writeHeader } c
    | none => s
  | none => s

/-- Has Tx come (05 R150)? (DEDUCED, log 37) -/
def State.txReached (s : State) (t : Nat) : Bool := match s.xch.txNs with | some x => decide (x ≤ t) | none => false

/-- What an exchange does before a T0 of a task: Tx of an angle-locked pivot is that T0, and at Tx the configuration of the
package becomes active. -/
def State.xchBeforeT0 (s : State) (n t0 : Nat) : State :=
  if !s.exchanging || s.xch.cur.inStop then s
  else
    let s := if s.xch.txNs.isNone && n == s.xch.cur.pivot then { s with xch := { s.xch with txNs := some t0 } } else s
    if s.txReached t0 then s.packageCfg else s

/-- The go decision at T0(N) of the pivot task (05 R148): a token holder and a module that acts alone decide; after a takeover on
the module's own pre-carry (R158). -/
def State.goAt (s : State) (n : Nat) : State :=
  let x := s.xch
  match (s.task n).run with
  | some r =>
    if x.cur.state == .armed && n == x.cur.pivot && r.k == x.cur.n && !x.go && (s.holdsToken || s.twin.link == .severed) then
      if x.done && (s.twin.link == .severed || x.alone || (s.twin.link == .joined && x.ready)) then
        let s := { s with xch := { x with go := true } }
        if s.leads then s.olvia (.policy (.go r.k)) else s
      else s.xchAbort 0x11
    else s
  | none => s

/-- Tc(N) of the pivot with the go decision: the exchange is SWITCHING, and Tx is the pivot's apply instant (05 R144,
R150). (DEDUCED, log 39) -/
def State.xchSwitch (s : State) (tc : Nat) : State :=
  let n := s.xch.cur.pivot
  let tx := if (s.taskCfg n).kind = 1 then some (s.applyAfter n tc) else none
  let x := s.xch.write { s.xch.cur with state := .switching, mask := 0#32 }
  { s with xch := { x with txNs := tx, switched := 0#32, carryLate := 0#32, cfgDone := false, finals := [] } }

/-- Every task's committed image translated into the new layout (05 R148). -/
def State.precarryAll (s : State) (p : Package) : Tbl (Tbl Byte) :=
  (List.map Prod.fst p.prog.tasks).foldl (fun st m => Tbl.set [] st m (p.carryTask (fun n => (s.task n).image) m)) []

/-- At Tc of a cycle an armed exchange switches when it is the pivot's cycle N and go was given (05 R144, R150). -/
def State.xchTc (s : State) (n : Nat) (k : DWord) (tc : Nat) : State :=
  let x := s.xch
  if x.cur.state == .armed && n == x.cur.pivot && k == x.cur.n && x.go then s.xchSwitch tc else s

/-- Is the mirror of a task's two copies in banks A and B current (05 R157)? -/
def State.mirrorDone (s : State) (n : Nat) : Bool := decide ((s.progTask n).size ≤ Tbl.get 0 s.xch.mirrored n)

/-- After a commit an armed exchange translates the written lines; a settling one returns the task to banks A and B once its
mirror is current (05 R148, R157). -/
def State.xchCommit (s : State) (n : Nat) : State :=
  let x := s.xch
  match x.cur.state with
  | .armed =>
    match x.pkg with
    | some p => if x.done then { s with xch := { x with stage := s.precarryAll p } } else s
    | none => s
  | .settling =>
    if s.mirrorDone n then
      { s.modTask n (fun t => { t with staged := false }) with xch := x.write { x.cur with mask := Bits.setBit x.cur.mask n } }
    else s
  | _ => s

/-- The bytes that a station tick mirrors while SETTLING: a full image within 2 s (05 R157). (DESIGN CHOICE, log 92) -/
def mirrorPart : Nat := 2048

/-- While SETTLING the images of S0 and S1 are mirrored into banks A and B, task by task (05 R157). (DESIGN CHOICE, log 92) -/
def State.mirrorTick (s : State) : State :=
  if s.xch.cur.state ≠ .settling then s
  else match s.configuredTasks.find? (fun n => !s.mirrorDone n) with
    | some n => { s with xch := { s.xch with mirrored := Tbl.mod 0 s.xch.mirrored n (· + mirrorPart) } }
    | none => s

/-- The pivot's cycle N is abandoned (05 R158). -/
def State.xchPivotFault (s : State) (n : Nat) : State :=
  match (s.task n).run with
  | some r => if n == s.xch.cur.pivot && r.k == s.xch.cur.n then s.xchAbort 0x12 else s
  | none => s

/-- The go decision of the LEAD reaches the SHADOW (05 R148), perhaps after its own commit of N. -/
def State.xchGo (s : State) (k : DWord) : State :=
  if s.xch.cur.state ≠ .armed ∨ k ≠ s.xch.cur.n then s
  else
    let s := { s with xch := { s.xch with go := true } }
    let t := s.task s.xch.cur.pivot
    match t.run with
    | some r => if r.k = k then (match r.tc with | some tc => s.xchSwitch tc | none => s) else s
    | none => if t.cycle = k then s.xchSwitch (t.lastTc.getD 0) else s

/-- Ta(N) that the LEAD's verdict gives is Tx (05 R150, 04 R119). -/
def State.xchVerdict (s : State) (n : Nat) (k : DWord) (code ta : Nat) : State :=
  if s.xch.cur.state == .switching && n == s.xch.cur.pivot && k == s.xch.cur.n && (code == 1 || code == 3)
      && (s.taskCfg n).kind == 1 then { s with xch := { s.xch with txNs := some ta } } else s

/-! The switch of a task. -/

/-- The tasks that take part in an exchange: those configured and those of either program. -/
def State.exchangeTasks (s : State) (p : Package) : List Nat :=
  (List.range 32).filter (fun n => (s.taskCfg n).configured || p.prog.tasks.any (fun e => e.1 == n)
    || (match s.cfg.prog with | some g => g.tasks.any (fun e => e.1 == n) | none => false))

/-- An exchange area before any write: its initial values, filled up with zeros. -/
def AreaDef.start (a : AreaDef) : AreaSt :=
  let b := (a.init ++ List.replicate a.len 0#8).take a.len
  { data := b, data0 := b }

/-- The exchange areas of a task under the new program: one that both programs declare alike keeps its content.
(DEDUCED, log 39) -/
def areasFor (old : Tbl AreaDef) (new : Tbl AreaDef) (n : Nat) (st : Tbl AreaSt) : Tbl AreaSt :=
  let kept := fun (a : Nat) (d : AreaDef) => old.any (fun e => e.1 == a && !e.2.read && e.2.len == d.len)
  let st := (old.filter (fun e => e.2.task == n && !e.2.read && !new.any (fun f => f.1 == e.1))).foldl (fun st e => Tbl.erase st e.1) st
  (new.filter (fun e => e.2.task == n && !e.2.read)).foldl (fun st e =>
    if kept e.1 e.2 then st else Tbl.set {} st e.1 e.2.start) st

/-- The last GOOD bytes of the members that both input sets hold. -/
def carryGood (old new : List InKind) (good : List (List Byte)) : List (List Byte) :=
  let l := old.zip (good ++ List.replicate old.length [])
  new.map (fun k => match l.find? (fun e => e.1 == k) with | some (_, b) => b | none => [])

/-- A task switches to its image in the new layout (05 R150, R153, R156). -/
def State.carry (s : State) (p : Package) (n : Nat) (new : Tbl Byte) : State :=
  let t := s.task n
  let o := s.oldTask n
  let w : TaskProg := Tbl.get {} p.prog.tasks n
  let oldAreas := match s.cfg.prog with | some g => g.areas | none => []
  let was := match s.cfg.prog with | some g => g.tasks.any (fun e => e.1 == n) | none => false
  let t' := { t.setImage new with staged := true, exchanged := true, consec := 0, cycle := if was then t.cycle else 0#64
                                  lastGood := carryGood o.inputs w.inputs t.lastGood, mode := if was then t.mode else s.cyc.mode
                                  gone := !p.prog.tasks.any (fun e => e.1 == n) }
  let x := s.xch
  let finals := if x.cur.inStop then x.finals else Tbl.set [] x.finals n t.image
  let gone := p.carry.removed.filter (fun e => e.1 == n)
  let sw := Bits.setBit x.switched n
  let x := { (x.write { x.cur with mask := sw }) with
    finals := finals, switched := sw, stage := Tbl.set [] x.stage n new, carriedAt := Tbl.set 0 x.carriedAt n s.nowNs
    discarded := gone.foldl (fun c _ => Bits.inc c) x.discarded
    added := (p.carry.added.filter (fun m => m == n)).foldl (fun c _ => Bits.inc c) x.added
    converted := (p.carry.items.filter (fun c => c.dstTask == n && c.converts)).foldl (fun c _ => Bits.inc c) x.converted }
  let s := { s.setTask n t' with xch := x, cyc := { (s.setTask n t').cyc with areas := areasFor oldAreas p.prog.areas n s.cyc.areas } }
  (gone.filter (fun e => e.2.2)).foldl (fun s _ => s.recordEvent .xch 8 n (s.xchReg 0)) s

/-- After the last switch settling begins (05 R144). -/
def State.settle (s : State) (p : Package) : State :=
  if (s.exchangeTasks p).all (fun n => Bits.bit s.xch.switched n) then
    { s with xch := s.xch.write { s.xch.cur with state := .settling, mask := 0#32 } }.setEvent .xch 5
  else s

/-- Settling is complete (05 R157, R155): the new slot is the active program slot. A pair that waited copies again.
(DEDUCED, log 38) (DEDUCED, log 40) -/
def State.settled (s : State) (p : Package) : State :=
  let s := s.packageCfg
  let inStop := s.xch.cur.inStop
  let o := s.xch.armOrg
  let c := { s.cfg with prog := some p.prog, base := s.cfg.prog, progB := !s.cfg.progB, progOk := true }
  let x := (s.xch.drop.clear).write {}
  let s := { s with
    cfg := c
    cyc := { s.cyc with tasks := Tbl.map {} (fun t => { t with staged := false }) s.cyc.tasks }
    xch := { x with reverse := p.reverse, completes := Bits.inc x.completes }
    twin := if s.twin.link = LinkState.joined then { s.twin with peer := { s.twin.peer with prog := p.prog.hash } } else s.twin }
  let s := s.setEvent .xch 6
  let s := if inStop then s.finish o stOk 0 else s
  if s.leads && s.twin.link == .catchingUp then s.startCopy else s

end Sys2Proof.Machine
end

