-- ==== Sys2Proof/Machine/CycCmd.lean ====
section
/-! DEFINITION. Machine/CycCmd.lean: the cycle controller's own happenings: T0 instants, the agreed image, the rick input
deadline, commits, deadlines and billet faults (02 R29-R45, 03 R75). -/
namespace Sys2Proof.Machine

/-- May a T0 of a task happen now: the module is READY, its hold-up has not ended the T0 instants, and the task has had no
T0 at this instant (02 R45, 16 R445)? -/
def State.t0Open (s : State) (n t0 : Nat) : Bool :=
  s.mod.ready && !s.mod.failed && !s.cyc.halted && s.twin.started && (s.taskCfg n).configured
    && (match (s.task n).lastT0 with | some t => decide (t < t0) | none => true)

/-- The apply instant at which a SHADOW without its partner's consent releases its shared stages (04 R111, R116, R120, R138). -/
def State.missedT0 (s : State) (n : Nat) : State :=
  if !s.holdsToken && (s.twin.task n).release then (s.modTwin n (fun w => { w with release := false })).standBack else s

/-- A T0 with what the twin unit does at it: the count of the reference task's T0s in a split brain, the fall back of a
SHADOW without a verdict, the proof of a task that starts no cycle (04 R120, R124, R134). -/
def State.taskT0 (s : State) (n t0 : Nat) (env : T0Env) (fallback : Bool) : State :=
  let joined := s.twin.link == .joined
  let held := s.heldAlone
  let s := if s.refTask = some n then
      { s with twin := { s.twin with split := s.twin.split.map (fun e => (e.1, e.2 + 1)) } } else s
  let s := (((s.fwRestart).missedT0 n).t0 n t0 env fallback).goAt n
  let s := if (joined || held) && s.twin.link == .catchingUp && s.twin.phase == 0 && !s.heldAlone then s.startCopy else s
  s.idleProof n

/-- Parameters of a task that a configuration switch has changed come into force at the T0 of the old schedule
(16 R450). -/
def State.takeTaskCfg (s : State) (n : Nat) : State :=
  if s.cfg.changing.contains n then
    { s with cfg := { s.cfg with taskCfgs := Tbl.set {} s.cfg.taskCfgs n (Tbl.get {} s.cfg.nextTasks n)
                                 changing := s.cfg.changing.filter (fun m => m != n) } }
  else s

/-- What changes before a T0 of a task is looked at: an exchange reaches Tx, and the task's parameters come into force
(05 R150, R157, 16 R450). -/
def State.beforeT0 (s : State) (n t0 : Nat) : State := (s.xchBeforeT0 n t0).takeTaskCfg n

/-- TASK_T0 (02 R29, R33-R38). -/
def execTaskT0 (n : Fin 32) (env : T0Env) (s : State) : Host.Outcome State Fault Refusal :=
  let t0 := s.tickStart.toNat
  if s.t0Open n t0 && (s.taskCfg n).fallsOn s.tickNo then
    let s := s.beforeT0 n t0
    if (s.taskCfg n).fallsOn s.tickNo then .next (s.taskT0 n t0 env false)
    else if !(s.taskCfg n).configured && (s.task n).run.isNone && s.mod.ready then .next (s.applyDue n env.absent).1
    else .next s
  else .next s

/-- Does a crossing of a firing angle count (02 R30)? -/
def TaskCfg.counts (c : TaskCfg) (forward : Bool) : Bool :=
  c.direction == 2 || (if forward then c.direction == 0 else c.direction == 1)

/-- ANGLE_FIRING (02 R30, R31): `ns` is the crossing inside the present tick; T0 is rounded up to the fine tick. -/
def execAngleFiring (n : Fin 32) (entry : Fin 24) (forward : Bool) (ns : Fin 10000) (env : T0Env) (s : State) :
    Host.Outcome State Fault Refusal :=
  let c := s.taskCfg n
  let t0 := s.tickStart.toNat + (ns.val + 9) / 10 * 10
  if s.t0Open n t0 && c.angle && decide (entry.val < c.firingCount) && c.counts forward && (s.time.clock c.clock).locked then
    match (s.task n).lastT0 with
    | some t => if t0 < t + 250000 then .next (s.skipT0 n) else .next ((s.beforeT0 n t0).taskT0 n t0 env false)
    | none => .next ((s.beforeT0 n t0).taskT0 n t0 env false)
  else .next s

/-- The instant of the next fallback T0: the previous T0 plus PERIOD, rounded up to a station tick (02 R32). With no previous
T0 it may come at any tick. (DESIGN CHOICE, log 77) -/
def State.fallbackAt (s : State) (n : Nat) : Nat :=
  match (s.task n).lastT0 with
  | some t => (t + (s.taskCfg n).ticks * 10000 + 9999) / 10000
  | none => 0

/-- FALLBACK_T0 (02 R32, R63): a firing on the same tick gives the one T0. -/
def execFallbackT0 (n : Fin 32) (firing : Bool) (env : T0Env) (s : State) : Host.Outcome State Fault Refusal :=
  let t0 := s.tickStart.toNat
  if s.t0Open n t0 && (s.taskCfg n).angle && decide (s.fallbackAt n ≤ s.tickNo) && !firing then
    .next ((s.beforeT0 n t0).taskT0 n t0 env true)
  else .next s

/-- AGREED_IMAGE_COMPLETE (03 R71, 04 R115, R116, R129). (DEDUCED, log 30) -/
def execAgreedImageComplete (n : Fin 32) (s : State) : Host.Outcome State Fault Refusal :=
  match (s.task n).run with
  | none => .next s
  | some r =>
    let w := s.twin.task n
    if r.agreed || r.faulted then .next s
    else
      let f := s.formImage n r
      if s.holdsToken || s.twin.link == .severed || s.heldAlone then
        let s := if s.agrees then s.olvia (.agreed n r.k f.1) else s
        .next (s.takeImage n r f.1 f.2 false)
      else match w.agreedOf r.k with
        | some l =>
          let m := ownMembers (s.progTask n).inputs r.inputs l
          .next (s.takeImage n r m f.2 ((w.samplesOf r.k).isSome && f.1 != m))
        | none => if (w.samplesOf r.k).isSome then .next (s.takeImage n r f.1 f.2 false) else .next s

/-- The samples that RX units delivered for a T0 of a task, and BAD with the held values from those that did not
(02 R58, R59). -/
def State.rxValue (s : State) (n t0 u ch : Nat) (held : List Byte) : InVal :=
  match (s.cfg.unit u).good.find? (fun g => g.task == n && g.t0 == t0) with
  | some g =>
    if s.cfg.rick = .formed then
      match g.vals.find? (fun v => v.1 == ch) with
      | some (_, v) => v
      | none => { q := 2, bytes := held }
    else { q := 2, bytes := held }
  | none => { q := 2, bytes := held }

/-- Has a unit delivered samples for a T0 of a task? -/
def RxUnit.delivered (x : RxUnit) (n t0 : Nat) : Bool := x.good.any (fun g => g.task == n && g.t0 == t0)

/-- RICK_INPUT_DEADLINE (02 R59, R62, 03 R71): the cycle that latches the samples of a unit that has returned carries
UNIT_BACK. (DEDUCED, log 30) -/
def execRickInputDeadline (n : Fin 32) (s : State) : Host.Outcome State Fault Refusal :=
  match (s.task n).run with
  | none => .next s
  | some r =>
    if r.rick || decide (s.nowNs < r.t0 + Bits.get s.cfg.cur.cyc 8 8 * 10000) then .next s
    else
      let t := s.task n
      let put := fun (e : InKind × InVal × List Byte) => match e.1 with
        | .rx u ch => s.rxValue n r.t0 u ch e.2.2
        | _ => e.2.1
      let vals := ((s.progTask n).inputs.zip (r.inputs.zip (t.lastGood ++ List.replicate r.inputs.length []))).map put
      let came := (s.progTask n).units.filter (fun u => Nat.testBit t.back u && (s.cfg.unit u).delivered n r.t0)
      let csw := Bits.putBit t.csw 23 (degraded (s.progTask n).inputs vals r.agreed true)
      let s := s.setTask n { t with
        run := some { r with rick := true, inputs := vals }, csw := if came.isEmpty then csw else Bits.setBit csw 20
        back := came.foldl (fun m u => m - 2 ^ u) t.back
        lastGood := (vals.zip (t.lastGood ++ List.replicate vals.length [])).map (fun e => if e.1.q = 0 then e.1.bytes else e.2) }
      .next (s.releaseBillets n)

/-! Commit. -/

/-- Tc: engine use and lateness are judged (03 R88-R90, R92). `tc` is in TAI ns. The policy that acts is the one in force here.
(DESIGN CHOICE, log 84) -/
def State.atTc (s : State) (n tc : Nat) : State :=
  match (s.task n).run with
  | none => s
  | some r =>
    let late := r.late || (match r.deadline with | some d => decide (d < tc) | none => false)
    let above := late || (r.budget != 0 && decide (r.budget < r.use))
    let s := s.modTask n (fun t => { t with
      run := some { r with tc := some tc, late := late }, use := r.use, overran := above
      overruns := if above then Bits.inc t.overruns else t.overruns, consec := if above then t.consec + 1 else 0 })
    let s := s.xchTc n r.k tc
    if !above then s
    else
      let s := s.recordEvent .cyc 1 n (s.task n).csw
      let t := s.task n
      if t.limits.ovrLimit ≤ t.consec ∧ (s.holdsToken ∨ s.twin.link = .severed) then
        let s := s.setTask n { t with due := some t.limits.stop, dueFrom := some (r.k + 1#64) }
        if s.leads then s.olvia (.policy (.act n t.limits.stop (r.k + 1#64))) else s
      else s

/-- Has a word of an image changed as a trigger asks (13 R380)? -/
def TrigKind.fires (k : TrigKind) (n : Nat) (old new : Tbl Byte) : Bool :=
  let w := fun (img : Tbl Byte) (i : Nat) => BitVec.ofNat 32 (Bits.leNat (Tbl.getList 0#8 img (4 * i) 4))
  match k with
  | .rise t i b => t == n && !Bits.bit (w old i) b && Bits.bit (w new i) b
  | .fall t i b => t == n && Bits.bit (w old i) b && !Bits.bit (w new i) b
  | .change t i => t == n && w old i != w new i
  | _ => false

/-- One trigger captures, with the bit of REC_EVENT that its outcome asks for (13 R382, R384). -/
def State.fire (s : State) (n : Nat) (cycle : DWord) : State :=
  match s.capture n cycle .self with
  | (s', .refused) => s'.setEvent .recorder 3
  | (s', .lost) => s'.setEvent .recorder 5
  | (s', _) => s'

/-- The triggers on a task's variables fire at its commit. -/
def State.commitTriggers (s : State) (n : Nat) (k : DWord) (old new : Tbl Byte) : State :=
  ((s.recorder.trigDefs.filter (fun e => e.2.valid && e.2.kind.fires n old new)).map Prod.fst).foldl
    (fun s m => s.fire m k) s

def State.modUnit (s : State) (u : Nat) (f : RxUnit → RxUnit) : State :=
  { s with cfg := { s.cfg with units := Tbl.mod {} s.cfg.units u f } }

/-- The module sends on both rick links, with its sequential output gate open (16 R454). -/
def State.rickSend (s : State) (o : RickOut) : State :=
  if s.gateOpen && !s.mod.failed then { s with cfg := { s.cfg with sent := s.cfg.sent ++ [o] } } else s

/-- How the module seals its frame with counter `ctr` to a unit: the nonce is the sender bit, 0 for the module, 31 zero bits and
the counter (16 R456). (DESIGN CHOICE, log 99) -/
def RxUnit.head (x : RxUnit) : RickHead :=
  let nonce := 0#32 ++ x.ctr
  { ctr := x.ctr, nonce := nonce, tag := Config.rickTag x.key nonce }

/-- A sealed frame to a unit: it uses one value of the frame counter, which a SHADOW follows by what it hears (16 R456).
(DESIGN CHOICE, log 99) -/
def State.rickFrame (s : State) (u : Nat) (f : RickHead → RickOut) : State :=
  let h := (s.cfg.unit u).head
  (s.modUnit u (fun x => { x with ctr := x.ctr + 1#64 })).rickSend (f h)

/-- The outputs of a commit for RX units (02 R61, R62, 16 R454): sent as OUT, acknowledged later; a unit that has returned gets
those of the first cycle that had its samples in time. -/
def State.sendOuts (s : State) (n : Nat) (k : DWord) (img : Tbl Byte) : State :=
  (List.range' 1 6).foldl (fun s u =>
    let l := (s.progTask n).outputs.filterMap (fun o => match o.kind with
      | .rx v ch => if v = u then some (ch, Tbl.getList 0#8 img o.sp.off o.sp.len) else none
      | _ => none)
    if l.isEmpty then s
    else
      let x := s.cfg.unit u
      let c := { s.cfg with units := Tbl.set {} s.cfg.units u { x with outs := Tbl.set {} x.outs n { cycle := k } } }
      let served := if (s.progTask n).units.contains u then !Nat.testBit (s.task n).back u else decide (x.since ≤ (s.task n).prevT0.getD 0)
      if s.gateOpen && s.mod.ready && s.cfg.rick == .formed && x.state == .onLine && served then
        State.rickFrame { s with cfg := c } u (fun h => .out h u n k l)
      else { s with cfg := c }) s

/-- A task after the durable commit of cycle `r`: its record is valid, the copies flip, the draft is refreshed (02 R36, R41-R43,
R47). -/
def TaskSt.durable (t : TaskSt) (n : Nat) (r : CycleRun) (tc : Nat) (h : DWord) : TaskSt :=
  let cr : CommitRec := CommitRec.sealed { task := n, cycle := r.k, sec := BitVec.ofNat 64 (tc / 1000000000), ns := BitVec.ofNat 32 (tc % 1000000000), bank := !t.bank, hash := h }
  let floor := decide (r.k.toNat % 65536 = 0)
  { t with
    bank := !t.bank, imgA := t.draft, imgB := t.draft, cycle := r.k
    rec0 := if t.recNext then t.rec0 else some cr, rec1 := if t.recNext then some cr else t.rec1, recNext := !t.recNext
    floor0 := if floor && !t.floorNext then some r.k else t.floor0, floor1 := if floor && t.floorNext then some r.k else t.floor1
    floorNext := if floor then !t.floorNext else t.floorNext
    lastTc := some tc, run := none, toApply := true, late := r.late, lines := r.lines }

/-- The hashes of a task's draft at the commit of cycle `k` (04 R117, R118). -/
def State.draftHash (s : State) (n : Nat) (k : DWord) : HashPair :=
  { k := k, hash := commitHash (s.progTask n) (s.task n).draft k, audit := auditHash (s.progTask n) (s.task n).draft k, diff := (s.twin.task n).differs }

/-- The steps of a task that waited for its commit end (02 R493). -/
def State.endSteps (s : State) (n : Nat) : State :=
  let done := s.cyc.steps.filter (fun x => x.task == n && x.started)
  State.finishAll { s with cyc := { s.cyc with steps := s.cyc.steps.filter (fun x => !(x.task == n && x.started)) } } (done.map StepReq.origin) stOk 0

/-- The lines that a cycle has written, with their bytes (02 R41). -/
def CycleRun.lineBytes (r : CycleRun) (img : Tbl Byte) : List (Nat × Byte) :=
  r.lines.flatMap (fun l => (List.range 64).map (fun i => (64 * l + i, Tbl.get 0#8 img (64 * l + i))))

/-- The partner learns of a commit: HASH, and while it copies, the lines of the cycle in progress (04 R117, R124). -/
def State.tellCommit (s : State) (n : Nat) (r : CycleRun) (own : HashPair) (new : Tbl Byte) : State :=
  let s1 := if s.agrees then s.olvia (.hash n r.k own.hash own.audit own.diff) else s
  let w := s1.twin.task n
  if s1.leads && s1.twin.link == .catchingUp && (if s1.twin.phase = 5 then w.copied == some r.k else s1.twin.phase != 0 && w.begun) then
    s1.olvia (.copy (.image n r.k (r.lineBytes new) none)) else s1

/-- The commit of a cycle becomes durable, and the steps that waited for it end (02 R36, R41-R43, R47, R493). -/
def State.commit (s : State) (n : Nat) (r : CycleRun) (tc : Nat) : State :=
  let own := s.draftHash n r.k
  let old := (s.task n).image
  let new := (s.task n).draft
  ((((((((s.modTask n (fun t => t.durable n r tc own.hash)).modTwin n (fun w => { w with own := some own, keep := false, differs := false })).commitTriggers
    n r.k old new).endSteps n).sendOuts n r.k new).tellCommit n r own new).xchCommit n).judge n).judgeFault n

/-- COMMIT_DEADLINE (02 R37). -/
def execCommitDeadline (n : Fin 32) (s : State) : Host.Outcome State Fault Refusal :=
  match (s.task n).run with
  | none => .next s
  | some r =>
    if r.tc.isSome || r.faulted || r.late || (match r.deadline with | some d => decide (s.nowNs < d) | none => false) then .next s
    else
      let s := s.modTask n (fun t => { t with run := some { r with late := true } })
      .next ({ s with cyc := { s.cyc with lateMask := Bits.setBit s.cyc.lateMask n } }.setEvent .cyc 0)

/-! Billet faults. -/

/-- The cycle of a task is abandoned once none of its billets runs any more: no commit, no cycle number, the draft restored
(03 R75). A STEP whose cycle is abandoned so stays started, and ends with the task's next commit. (DESIGN CHOICE, log 80) -/
def State.settleFault (s : State) (n : Nat) : State :=
  match (s.task n).run with
  | some r => if r.faulted && s.fab.running n == 0 then s.modTask n TaskSt.abandon else s
  | none => s

/-- A cycle is abandoned by a billet fault: no further release (03 R75 steps 1 to 4). (DEDUCED, log 29) -/
def State.abandonCycle (s : State) (n : Nat) : State :=
  let s := (s.xchPivotFault n).modTask n (fun t => { t with run := t.run.map (fun r => { r with faulted := true }) })
  { s with fab := s.fab.dropTask n }.refillAll.settleFault n

/-- A billet fault (03 R75): the policy takes effect at the next T0, unless a LEAD decides. -/
def State.billetFault (s : State) (e : Nat) (b : BRef) (kind : Nat) (addr : Word) : State :=
  let k := match (s.task b.task).run with | some r => r.k | none => 0#64
  let info := Bits.fld kind 28 ||| Bits.fld e 24 ||| Bits.fld (b.task % 32) 16 ||| Bits.fld (b.num % 4096) 0
  let s := { s with fab := { s.fab with faultInfo := info, faultAddr := addr } }.recordEvent .fab 1 b.task info
  let s := s.modTwin b.task (fun w => { w with ownFault := some k })
  let s := if s.follows then s.olvia (.billetFault b.task k)
    else s.modTask b.task (fun t => { t with due := some t.limits.stop, dueFrom := none })
  (s.abandonCycle b.task).judgeFault b.task

/-- The tasks whose cycle in progress has not reached Tc. -/
def State.uncommitted (s : State) : List Nat :=
  s.configuredTasks.filter (fun n => match (s.task n).run with | some r => r.tc.isNone | none => false)

/-- The module loses its supplies: the billets stop, no T0 follows and the state of the axes is written (02 R45, 11 R344). -/
def State.powerOff (s : State) : State :=
  { s with fab := s.fab.stopAll, cyc := { s.cyc with halted := true }, ax := s.ax.mapAll (Axis.save s.nowNs)
           mod := { s.mod with powered := false, psA := { s.mod.psA with ok := false }, psB := { s.mod.psB with ok := false } } }

/-- POWER_LOSS (02 R45, 13 R388): the billets stop, the commits begun are completed by COMMIT_DURABLE, the others are
abandoned and named in the record; no T0 follows, no crossing frame is sent. A failed module works on its hold-up too. -/
def execPowerLoss (s : State) : Host.Outcome State Fault Refusal :=
  if !s.mod.powered then .next s
  else
    let mask := s.uncommitted.foldl (fun w n => w ||| Bits.ofBool true n) 0#32
    .next (((s.uncommitted.foldl (fun s n => s.modTask n TaskSt.abandon) s).powerOff.note 0 0x101 (mask.setWidth 64)).pnlPowerLoss)

end Sys2Proof.Machine
end

