-- ==== Sys2Proof/Machine/Fab.lean ====
section
/-! DEFINITION. Machine/Fab.lean: engines and billets (03 R68-R85, R95, R98, 17 R463). -/
namespace Sys2Proof.Machine

/-- ENGINE_EXAMINE (03 R78, R79, R95). -/
def execEngineExamine (es : List (Fin 16)) (s : State) : Host.Outcome State Fault Refusal :=
  .next (s.examine (es.map Fin.val))

/-- BILLET_LOAD_DONE (03 R72): the billet's code and its read set lie in the engine's local memories. -/
def execBilletLoadDone (e : Fin 16) (s : State) : Host.Outcome State Fault Refusal :=
  match (s.fab.engine e).run with
  | some r =>
    match s.billet r.ref with
    | none => .next s
    | some b =>
      if r.loaded then .next s
      else .next { s with fab := s.fab.setEngine e { s.fab.engine e with run := some { r with loaded := true, mem := s.loadLocal r.ref.task b } } }
  | none => .next s

/-- The 64-byte lines of a burst. -/
def burstLines (burst : List (Nat × Byte)) (l : List Nat) : List Nat :=
  burst.foldl (fun l x => if l.contains (x.1 / 64) then l else l ++ [x.1 / 64]) l

/-- A whole retire burst in the draft, its lines logged (03 R74, 02 R41). -/
def TaskSt.retire (t : TaskSt) (r : CycleRun) (b : Billet) (burst : List (Nat × Byte)) : TaskSt :=
  { t.setDraft (burst.foldl (fun d x => Tbl.set 0#8 d x.1 x.2) t.draft) with
    run := some { r with retired := r.retired ++ [b.num], lines := burstLines burst r.lines } }

/-- A billet has retired in cycle `r`: its successors are released, and the last one is Tc (02 R36). -/
def State.retire (s : State) (n : Nat) (r : CycleRun) (b : Billet) (burst : List (Nat × Byte)) (tc : Nat) : State :=
  let s1 := s.setTask n ((s.task n).retire r b burst)
  if r.faulted then s1.settleFault n
  else if (s1.progTask n).billets.all (fun x => (r.retired ++ [b.num]).contains x.num) then (s1.releaseBillets n).atTc n tc
  else s1.releaseBillets n

/-- BILLET_RETIRE (03 R74): the burst of a billet that has run to its end reaches the draft whole, with a correct check word
(`ok`). What it holds follows from the billet's local copies alone (R96). -/
def execBilletRetire (e : Fin 16) (ok : Bool) (us : Nat) (ns : Fin 10000) (s : State) :
    Host.Outcome State Fault Refusal :=
  match (s.fab.engine e).run with
  | none => .next s
  | some g =>
    match s.billet g.ref with
    | none => .next s
    | some b =>
      match b.run g.mem with
      | .fault _ _ => .next s
      | .done burst =>
        if !g.loaded || g.held || !ok then .next s
        else
          let s := (s.freeEngine e).addUse g.ref.task us
          match (s.task g.ref.task).run with
          | none => .next s
          | some r => .next (s.retire g.ref.task r b burst (s.tickStart.toNat + ns))

/-- BILLET_FAULT (03 R72, R73, R75): the run of the billet on its local copies comes to a fault. -/
def execBilletFault (e : Fin 16) (us : Nat) (s : State) : Host.Outcome State Fault Refusal :=
  match (s.fab.engine e).run with
  | none => .next s
  | some g =>
    match s.billet g.ref with
    | none => .next s
    | some b =>
      match b.run g.mem with
      | .done _ => .next s
      | .fault code addr =>
        if !g.loaded || g.held then .next s
        else
          let s := s.freeEngine e
          .next ((s.addUse g.ref.task us).billetFault e g.ref code addr)

/-- BILLET_RUNAWAY (03 R75): the time held at a breakpoint does not count, so a held billet does not run away. -/
def execBilletRunaway (e : Fin 16) (addr : Word) (us : Nat) (s : State) : Host.Outcome State Fault Refusal :=
  match (s.fab.engine e).run with
  | none => .next s
  | some g =>
    match s.billet g.ref with
    | none => .next s
    | some b =>
      if g.held || decide (us < 4 * b.wcet) then .next s
      else
        let s := s.freeEngine e
        .next ((s.addUse g.ref.task us).billetFault e g.ref 4 addr)

/-- ENGINE_FENCE (03 R68, R81, R82, R88): FENCED is left at once for SELF_TEST. (DEDUCED, log 29) -/
def execEngineFence (e : Fin 16) (us : Nat) (s : State) : Host.Outcome State Fault Refusal :=
  let x := s.fab.engine e
  if x.state = .available ∨ x.state = .draining ∨ x.state = .drained then
    let sec := s.time.sec.toNat
    let y := { x with state := .selfTest, run := none, fences := x.recent sec ++ [sec] }
    let s1 := s.setFab (s.fab.setEngine e y)
    let s2 := match x.run with | some g => (s1.addUse g.ref.task us).returnBillet e g.ref | none => s1
    let s3 := match x.run with | some g => s2.settleFault g.ref.task | none => s2
    .next (s3.setEvent .fab 0)
  else .next s

/-- An ACTIVATE FIRMWARE of this engine ends (17 R463, R465). -/
def State.fwEnd (s : State) (e : Nat) (status detail : Nat) : State :=
  match s.fab.fwCmd with
  | some (d, o) => if d = e then { s with fab := { s.fab with fwCmd := none } }.finish o status detail else s
  | none => s

/-- ENGINE_SELF_TEST_DONE (03 R68, 17 R463): the third fence within 24 h retires the engine; a self-test that fails on new
firmware is repeated on the old one. -/
def execEngineSelfTestDone (e : Fin 16) (pass : Bool) (s : State) : Host.Outcome State Fault Refusal :=
  let x := s.fab.engine e
  if x.state ≠ .selfTest then .next s
  else if x.fw = .trying then
    if pass then
      let s := { s with fab := s.fab.setEngine e { x with state := .available, fw := .updated, since := s.tickNo + 1 } }
      .next ((s.setEvent .fab 5).fwEnd e stOk 0)
    else .next { s with fab := s.fab.setEngine e { x with fw := .back } }
  else
    let late := decide (3 ≤ (x.recent s.time.sec.toNat).length) && x.fw != .back
    let fw := if x.fw = .back then EngFw.active else x.fw
    let s := if pass && !late then
        { s with fab := s.fab.setEngine e { x with state := .available, fw := fw, since := s.tickNo + 1 } }.setEvent .fab 5
      else { s with fab := s.fab.setEngine e { x with state := .retired, fw := fw } }.setEvent .fab 4
    .next (s.fwEnd e stRefused 7)

/-- ENGINE_FW_LOADED (03 R68, 17 R463). -/
def execEngineFwLoaded (e : Fin 16) (s : State) : Host.Outcome State Fault Refusal :=
  let x := s.fab.engine e
  if x.state == .drained && (match s.fab.fwCmd with | some (d, _) => d == e.val | none => false) then
    .next { s with fab := s.fab.setEngine e { x with state := .selfTest, fw := .trying } }
  else .next s

/-- An uncorrectable error counts and the reload of its line starts (03 R84). (DEDUCED, log 71) -/
def State.startReload (s : State) (line : Nat) (l : List (Nat × BRef)) : State :=
  { s with fab := { s.fab with reloads := s.fab.reloads ++ [(line, l)], uncorr := Bits.sat 16 s.fab.uncorr 1 } }

/-- SRAM_UE (03 R84): `engines` are those whose load read the line, with the use of what they run so far.
(DEDUCED, log 71) -/
def execSramUe (line : Nat) (engines : List (Fin 16 × Nat)) (s : State) : Host.Outcome State Fault Refusal :=
  let stop := fun (a : State × List (Nat × BRef)) (x : Fin 16 × Nat) =>
    match (a.1.fab.engine x.1).run with
    | some g =>
      let s := a.1.freeEngine x.1
      (s.addUse g.ref.task x.2, a.2 ++ [(x.1.val, g.ref)])
    | none => a
  let r := engines.foldl stop (s, [])
  .next ((r.1.startReload line r.2).recordEvent .fab 9 line (Bits.fld s.fab.uncorr 16 ||| Bits.fld s.fab.corrected 0))

/-- SRAM_LINE_RELOADED (03 R84, R81): a stopped billet returns to the tail of the deque of the engine that ran it, as if that
engine had been fenced. (DEDUCED, log 71) -/
def execSramLineReloaded (line : Nat) (s : State) : Host.Outcome State Fault Refusal :=
  match takeFirst (fun e => e.1 == line) s.fab.reloads with
  | none => .next s
  | some ((_, l), rest) =>
    let s := { s with fab := { s.fab with reloads := rest } }
    .next (l.foldl (fun s b => (s.returnBillet b.1 b.2).settleFault b.2.task) s)

/-- The module is in HOLD with a billet of task `n` held by engine `e`; the other tasks hold at their next T0, or take the STOP
that waits for it (02 R51, 03 R98). -/
def State.breakHold (s : State) (n e : Nat) : State :=
  let others := s.configuredTasks.filter (fun m => m != n)
  let p : ModePend := { target := .hold, left := others.map (fun m => (m, .tick s.tickNo)), origins := [] }
  let t := Tbl.set {} s.cyc.tasks n { s.task n with mode := .hold }
  let l := if others.isEmpty || s.cyc.target != .run then s.cyc.pends else s.cyc.pends ++ [p]
  let m := if s.cyc.target = .run then ProgMode.hold else s.cyc.target
  let s1 := { s with cyc := { s.cyc with bpHit := some (n, e), mode := .hold, target := m, pends := l, tasks := t } }
  if s.leads then s1.olvia (.policy (.mode .hold (others.map (fun m => (m, (s.task m).cycle + 1#64))))) else s1

/-- BREAKPOINT_REACHED (02 R51, 03 R98): the engine holds the billet. -/
def execBreakpointReached (e : Fin 16) (off : Nat) (s : State) : Host.Outcome State Fault Refusal :=
  match (s.fab.engine e).run with
  | none => .next s
  | some g =>
    if !g.loaded || s.cyc.bpHit.isSome || (s.task g.ref.task).mode != .run || !s.cyc.bps.contains (g.ref.task, g.ref.num, off) then .next s
    else
      let s := s.shadowHold
      let s := s.setFab (s.fab.setEngine e { s.fab.engine e with run := some { g with held := true } })
      .next (s.breakHold g.ref.task e)

/-- ACTIVATE_FW_ENGINE (17 R463, R465, 03 R68). -/
def execActivateFwEngine (o : Origin) (e : Fin 16) (s : State) : Host.Outcome State Fault Refusal :=
  let obj := if s.cfg.firmOnB then s.cfg.firmA else s.cfg.firmB
  let refuse := fun (s : State) (d : Nat) => Host.Outcome.next (s.finish o stRefused d)
  match obj with
  | none => refuse s 1
  | some f =>
    if !f.ok then refuse s 1
    else if f.line ≠ Bits.get s.mod.fwRelease 24 8 ∧ s.cyc.mode ≠ .stop then refuse s 2
    else if s.fab.count (fun x => x.state == .available) < 16 then
      refuse ({ s with fab := { s.fab with drainCnt := Bits.inc s.fab.drainCnt } }.setEvent .fab 11) 3
    else if s.exchangeArmed then refuse s 6
    else
      let x := s.fab.engine e
      let s := s.setFab { s.fab.setEngine e { x with state := .draining }.settle with fwCmd := some (e.val, o) }
      .next (s.passed o)

end Sys2Proof.Machine
end

