-- ==== Sys2Proof/Machine/Mode.lean ====
section
/-! DEFINITION. Machine/Mode.lean: program modes, steps, breakpoints, task restart and limits (02 R50-R54, R493, 03 R91-R95).
RUN, STOP and HOLD accepted in one station tick are arbitrated at its end (02 R53). -/
namespace Sys2Proof.Machine

/-- A refused mode command (02 R52); a command that a SHADOW forwarded is answered to it. -/
def State.refuseMode (s : State) (m : ProgMode) (o : Origin) (code : Nat) : State :=
  let s := { s with cyc := { s.cyc with refuseCnt := Bits.inc s.cyc.refuseCnt } }.setEvent .cyc 5
  if o = .partner then s.olvia (.policy (.answer m stRefused code)) else s.finish o stRefused code

/-- A mode command that has nothing left to do. -/
def State.okMode (s : State) (m : ProgMode) (o : Origin) : State :=
  if o = .partner then s.olvia (.policy (.answer m stOk 0)) else s.finish o stOk 0

/-- Does a T0 of the present tick that has not come yet start a cycle of the task? -/
def State.t0Ahead (s : State) (n : Nat) : Bool :=
  let t := s.task n
  let t0 := s.tickStart.toNat
  (s.taskCfg n).fallsOn s.tickNo && decide (t.lastT0 ≠ some t0) && t.mode == .run && t.pol == .active && !t.busyAt t0 && s.cyclesRun

/-- The cycle that the next T0 of a task starts, a T0 of the present tick apart (02 R63, 03 R93, R98). -/
def State.nextCycle (s : State) (n : Nat) : DWord :=
  match (s.task n).run with
  | some r => if r.faulted then (s.task n).cycle + 1#64 else r.k + 1#64
  | none => (s.task n).cycle + (if s.t0Ahead n then 2#64 else 1#64)

/-- From when an accepted change applies to a task: JOINED it is named by a cycle number (02 R50). A task at a breakpoint
takes it at its next T0. (DESIGN CHOICE, log 31) -/
def State.effectOf (s : State) (n : Nat) : Effect :=
  if s.twin.link == .severed || s.atBreakpoint n then .tick s.tickNo else .cycle (s.nextCycle n)

/-- Does the RUN row of *Mode transitions* hold: the reason against it, 0 for none (02 R51, R52, 03 R87)? -/
def State.runReason (s : State) : Nat :=
  match s.cfg.prog with
  | some p => if !s.cfg.progOk then 2
    else match p.proof with
      | some f => if f.passes s.cfg.cur.tasks s.cfg.cur.cyc then 0 else 3
      | none => 3
  | none => 2

/-- May HOLD or a breakpoint be requested here (02 R51)? -/
def State.holdAllowed (s : State) : Bool := s.role == .shadow || s.role == .solo || Bits.bit s.cfg.cur.cyc 1

/-- A mode command is accepted and waits for the T0 of each task; the LEAD tells the SHADOW (02 R50). -/
def State.acceptMode (s : State) (m : ProgMode) (origins : List Origin) : State :=
  let left := s.configuredTasks.map (fun n => (n, s.effectOf n))
  let p : ModePend := { target := m, left := left, origins := origins.filter (fun o => o != .partner) }
  let s := { s with cyc := { s.cyc with target := m, pends := s.cyc.pends ++ [p] } }
  if s.leads then s.olvia (.policy (.mode m (s.configuredTasks.map (fun n => (n, s.nextCycle n))))) else s

/-- The commands of one rank in one station tick (02 R51, R53). (DEDUCED, log 28) -/
def State.judgeMode (s : State) (m : ProgMode) (origins : List Origin) : State :=
  let refuse := fun (s : State) (c : Nat) => origins.foldl (fun s o => s.refuseMode m o c) s
  if m = s.cyc.target then
    match s.cyc.pends.reverse with
    | p :: l =>
      { s with cyc := { s.cyc with pends := l.reverse ++ [{ p with origins := p.origins ++ origins.filter (fun o => o != .partner) }] } }
    | [] => origins.foldl (fun s o => s.okMode m o) s
  else if s.follows && s.twin.link == .joined && m != .hold && !(m == .run && s.cyc.target == .hold) then
    { s with cyc := { s.cyc with fwd := s.cyc.fwd ++ origins.map (fun o => (m, o)) } }.olvia (.policy (.forward m))
  else match m with
    | .stop => (s.xchAbort 0x13).acceptMode .stop origins
    | .run =>
      if s.cyc.target = .hold then s.acceptMode .run origins
      else match s.runReason with
        | 0 => s.acceptMode .run origins
        | 3 => refuse (s.setEvent .fab 10) 3
        | c => refuse s c
    | .hold =>
      if s.exchangeArmed then refuse s 6
      else if s.cyc.target = .stop then refuse s 4
      else if !s.holdAllowed then refuse s 1
      else s.acceptMode .hold origins

def ProgMode.rank : ProgMode → Nat
  | .run => 0 | .hold => 1 | .stop => 2

/-- With no task configured the accepted commands take effect at once. -/
def State.pendsNow (s : State) : State :=
  let r := s.cyc.pends.foldl (fun (s : State) p => State.finishAll { s with cyc := { s.cyc with mode := p.target } } p.origins stOk 0) s
  { r with cyc := { r.cyc with pends := [] } }

/-- The end of a station tick: the most restrictive commands are processed, the others refused (02 R53). A command that no
task has to take takes effect here (02 R493). (DEDUCED, log 70) -/
def State.modeTick (s : State) : State :=
  let s := if s.configuredTasks.isEmpty then s.pendsNow else s
  let buf := s.cyc.buf
  if buf.isEmpty then s
  else
    let top := buf.foldl (fun r e => max r e.1.rank) 0
    let s := { s with cyc := { s.cyc with buf := [] } }
    let s := (buf.filter (fun e => e.1.rank != top)).foldl (fun s e => s.refuseMode e.1 e.2 4) s
    match buf.find? (fun e => e.1.rank == top) with
    | some (m, _) => s.judgeMode m ((buf.filter (fun e => e.1.rank == top)).map Prod.snd)
    | none => s

/-- A mode command reaches the module and waits for the end of the station tick. -/
def State.bufMode (s : State) (m : ProgMode) (o : Origin) : State :=
  State.passed { s with cyc := { s.cyc with buf := s.cyc.buf ++ [(m, o)] } } o

/-- MODE_RUN (02 R51). -/
def execModeRun (o : Origin) (s : State) : Host.Outcome State Fault Refusal := .next (s.bufMode .run o)
/-- MODE_STOP (02 R51). -/
def execModeStop (o : Origin) (s : State) : Host.Outcome State Fault Refusal := .next (s.bufMode .stop o)
/-- MODE_HOLD (02 R51). -/
def execModeHold (o : Origin) (s : State) : Host.Outcome State Fault Refusal := .next (s.bufMode .hold o)

/-- A refused STEP or BREAK_SET. -/
def State.refuseStep (s : State) (o : Origin) (code : Nat) : State :=
  ({ s with cyc := { s.cyc with refuseCnt := Bits.inc s.cyc.refuseCnt } }.setEvent .cyc 5).finish o stRefused code

/-- MODE_STEP (02 R51, R52, R493). (DEDUCED, log 28) -/
def execModeStep (o : Origin) (n : Nat) (s : State) : Host.Outcome State Fault Refusal :=
  if s.exchangeArmed then .next (s.refuseStep o 6)
  else if s.cyc.target ≠ .hold then .next (s.refuseStep o 4)
  else if !(s.taskCfg n).configured then .next (s.refuseStep o 5)
  else if s.atBreakpoint n then .next (s.refuseStep o 4)
  else
    let x : StepReq := { task := n, tick := s.tickNo, origin := o }
    .next (State.passed { s with cyc := { s.cyc with steps := s.cyc.steps ++ [x] } } o)

/-- BREAK_SET (02 R493). (DEDUCED, log 27) (DEDUCED, log 28) -/
def execBreakSet (o : Origin) (n billet off : Nat) (s : State) : Host.Outcome State Fault Refusal :=
  if s.exchangeArmed then .next (s.refuseStep o 6)
  else if s.cyc.target = .stop then .next (s.refuseStep o 4)
  else if !s.holdAllowed then .next (s.refuseStep o 1)
  else if !(s.taskCfg n).configured then .next (s.refuseStep o 5)
  else
    let l := if s.cyc.bps.contains (n, billet, off) then s.cyc.bps else s.cyc.bps ++ [(n, billet, off)]
    .next ({ s with cyc := { s.cyc with bps := l } }.finish o stOk 0)

/-- BREAK_CLEAR (02 R493). -/
def execBreakClear (o : Origin) (n billet off : Nat) (s : State) : Host.Outcome State Fault Refusal :=
  .next ({ s with cyc := { s.cyc with bps := s.cyc.bps.filter (fun b => b != (n, billet, off)) } }.finish o stOk 0)

/-- TASK_RESTART (03 R91, R92, 14 *Opcodes*). -/
def execTaskRestart (o : Origin) (n : Nat) (s : State) : Host.Outcome State Fault Refusal :=
  if !s.actsAsLead then .next (s.finish o stNotLead 0)
  else if 32 ≤ n then .next (s.finish o stBadParam 0)
  else if (s.task n).pol = .active ∨ (s.task n).restart.isSome then .next (s.finish o stRefused 4)
  else
    let s1 := (s.modTask n (fun t => { t with restart := some (s.effectOf n, o) })).passed o
    .next (if s1.leads then s1.olvia (.policy (.restart n (s1.nextCycle n))) else s1)

/-- The ranges of *FAB_TASKn_BUDGET*, *FAB_TASKn_POLICY*. -/
def limitsOk (l : TaskLimits) : Bool :=
  decide (l.budget ≤ 160000000) && decide (1 ≤ l.quota) && decide (l.quota ≤ 16) && decide (1 ≤ l.ovrLimit) && decide (l.ovrLimit ≤ 255)

/-- BUDGET (03 R93, R94, R92, 14 *Opcodes*): completes on acceptance with the first cycle under the new values. -/
def execBudget (o : Origin) (n : Nat) (budget quota limit : Option Nat) (stop : Option Bool) (s : State) :
    Host.Outcome State Fault Refusal :=
  let t := s.task n
  let l := match t.next with | some (_, l) => l | none => t.limits
  let l : TaskLimits := { budget := budget.getD l.budget, quota := quota.getD l.quota, ovrLimit := limit.getD l.ovrLimit, stop := stop.getD l.stop }
  if !s.actsAsLead then .next (s.finish o stNotLead 0)
  else if 32 ≤ n ∨ !limitsOk l then .next (s.finish o stBadParam 0)
  else
    let k := s.nextCycle n
    let s := s.modTask n (fun t => { t with next := some (s.effectOf n, l) })
    let s := if s.leads then s.olvia (.policy (.limits n l k)) else s
    .next (s.complete o stOk 0 k [])

end Sys2Proof.Machine
end

