-- ==== Sys2Proof/Machine/Xch.lean ====
section
/-! DEFINITION. Machine/Xch.lean: the commands of the exchange unit and the durable commit record (05 R142-R160,
02 R41-R43). -/
namespace Sys2Proof.Machine

/-- COMMIT_DURABLE (02 R42): the record of a cycle whose billets have all retired becomes durable. A task without billets
has its Tc here. -/
def execCommitDurable (n : Fin 32) (s : State) : Host.Outcome State Fault Refusal :=
  match (s.task n).run with
  | none => .next s
  | some r =>
    if r.faulted || !(s.progTask n).billets.all (fun b => r.retired.contains b.num) || !r.agreed then .next s
    else match r.tc with
      | some tc => .next (s.commit n r tc)
      | none =>
        let s := s.atTc n s.nowNs
        match (s.task n).run with
        | some r => .next (s.commit n r s.nowNs)
        | none => .next s

/-- A refused STAGE, ARM or ROLLBACK (05 R145, R148, R159, R160). -/
def State.refuseXch (s : State) (o : Origin) (reason : Nat) : State :=
  State.finish { s with xch := { s.xch with reason := reason, refuses := Bits.inc s.xch.refuses } } o stRefused reason

/-- The ring that a command came on; 8 stands for the maintenance port. -/
def originRing : Origin → Nat
  | .host sq _ => sq.val
  | .maint _ => 8
  | .partner => 9
  | .self => 9

/-- The whole package lies in the slot: the staging checks are due, and a JOINED LEAD sends it on (05 R146, R147).
(DEDUCED, log 36) -/
def State.stageWhole (s : State) (o : Origin) (p : Package) (signer : Option Nat) : State :=
  let s := { s with xch := { s.xch with pkg := some p, signer := signer, written := true, ownOk := false, peerOk := false, stageOrg := o } }
  let s := s.passed o
  if s.leads && s.twin.link == .joined then s.olvia (.copy (.package p signer)) else s

/-- STAGE (05 R144-R147, 14 R405, R406): `off`, `total`, `first`, `last` as in *Opcodes*, `len` the length of the piece;
`pkg` is the package that the finished write spells, with the key its signature verifies against. (DEDUCED, log 36) -/
def execStage (o : Origin) (off total len : Nat) (first last : Bool) (pkg : Package × Option Nat) (s : State) :
    Host.Outcome State Fault Refusal :=
  let x := s.xch
  let openOk := x.cur.state == .idle || (x.cur.state == .staging && !x.written && first)
  if !s.actsAsLead then .next (s.finish o stNotLead 0)
  else if !openOk && !(x.cur.state == .staging && !x.written) then .next (s.refuseXch o 8)
  else if (first && off != 0) || decide (total < off + len) || (last && off + len != total) then .next (s.finish o stBadParam 0)
  else if !first && (x.cur.state == .idle || off != x.len || total != x.total || originRing x.stageOrg != originRing o) then
    .next (s.finish o stBadParam 0)
  else
    let y := if first then { x.clear with stageOrg := o } else x
    let y := if y.cur.state = .staging then y else y.write { state := .staging }
    let s := { s with xch := { y with len := off + len, total := total } }
    if last then .next (s.stageWhole o pkg.1 pkg.2) else .next (s.finish o stOk 0)

/-- A staging check has failed on either module: both clear their slots (05 R144, R146, R147). -/
def State.stageRefused (s : State) (reason : Nat) : State :=
  let o := s.xch.stageOrg
  let x := s.xch.clear.write {}
  let s := { s with xch := { x with reason := reason, refuses := Bits.inc x.refuses }, cfg := { s.cfg with base := none } }.setEvent .xch 1
  (s.setEventIf (reason == 4) .fab 10).finish o stRefused reason

/-- Both modules have passed every check, or the module has no partner to ask: the package is what the slot holds (14 R406). -/
def State.staged (s : State) : State :=
  if s.xch.cur.state == .staging && s.xch.ownOk && (s.xch.peerOk || s.twin.link != .joined) then
    let o := s.xch.stageOrg
    ({ s with xch := { s.xch.write { state := .staged } with reason := 0 }, cfg := { s.cfg with base := none } }.setEvent .xch 0).finish o stOk 0
  else s

/-- STAGING_COMPLETE (05 R146, R147). -/
def execStagingComplete (s : State) : Host.Outcome State Fault Refusal :=
  let x := s.xch
  match x.pkg with
  | some p =>
    if x.cur.state ≠ .staging ∨ !x.written then .next s
    else if x.ownOk then .next s.staged
    else
      let r := s.stagingReason p x.signer
      let s := if s.twin.link = .joined then s.olvia (.staging r) else s
      if r ≠ 0 then .next (s.stageRefused r)
      else .next (State.staged { s with xch := { x with ownOk := true } })
  | none => .next s

/-- The earliest instant of T0(N) of a task, in station ticks; none where N is not ahead. Angle-locked T0s lie at least
250 µs apart (02 R31). (DEDUCED, log 37) -/
def State.targetTick (s : State) (n : Nat) (k : DWord) : Option Nat :=
  let next := s.nextCycle n
  if k.toNat < next.toNat then none
  else
    let ahead := k.toNat - next.toNat
    if (s.taskCfg n).kind = 1 then some ((s.taskCfg n).nextTick s.tickNo + ahead * (s.taskCfg n).ticks)
    else some (s.tickNo + ahead * 25)

def State.inRun (s : State) : Bool := s.cyc.mode == .run && s.cyc.target == .run
/-- In STOP no task runs: each has taken the mode and has no cycle in progress (05 R155). -/
def State.atStop (s : State) : Bool :=
  s.cyc.mode == .stop && s.cyc.target == .stop && s.configuredTasks.all (fun n => (s.task n).mode == .stop && (s.task n).run.isNone)

/-- The first arming check that fails, 0 for none (05 R148, R155). -/
def State.armReason (s : State) (p : Package) (n : Nat) (k : DWord) : Nat :=
  let code := (match s.cfg.prog with | some g => g.code | none => 0) + p.prog.code
  let stop := s.atStop
  if !stop && !s.inRun then 0xA
  else if s.twin.link = .catchingUp then 0xB
  else if !stop && decide (127 * mib < p.prog.imageSize) then 2
  else if 12 * mib < code then 0xC
  else if stop then 0
  else if !(s.taskCfg n).configured || (s.task n).pol != .active then 0xD
  else match s.targetTick n k with
    | some t => if t < s.tickNo + 200000 then 0xE else 0
    | none => 0xE

/-- In STOP every task's image is carried and every task switched at once; each gets a commit record with its present cycle
number and BANK 0 (05 R155). (DEDUCED, log 38) -/
def State.armInStop (s : State) (p : Package) : State :=
  let x := s.xch.write { state := .switching, inStop := true }
  let s := { s with xch := x }
  let img := fun (n : Nat) => (s.task n).image
  let stage := (s.exchangeTasks p).foldl (fun st n => Tbl.set [] st n (p.carryTask img n)) []
  let s := { s with xch := { s.xch.write { s.xch.cur with carried := true } with stage := stage } }
  let each := fun (s : State) (n : Nat) =>
    let new := Tbl.get [] stage n
    let s := s.carry p n new
    let t := s.task n
    let cr : CommitRec := CommitRec.sealed { task := n, cycle := t.cycle, sec := s.time.sec, ns := s.time.ns, bank := false, hash := commitHash (s.progTask n) new t.cycle }
    s.setTask n ({ t with bank := false, rec0 := if t.recNext then t.rec0 else some cr, rec1 := if t.recNext then some cr else t.rec1
                          recNext := !t.recNext }.setImage new)
  ((s.exchangeTasks p).foldl each s).settle p

/-- An ARM that every check has passed (05 R144, R148). -/
def State.arm (s : State) (p : Package) (o : Origin) (n : Nat) (k : DWord) : State :=
  let s := { s with xch := { s.xch.drop with discarded := 0#32, added := 0#32, converted := 0#32, armOrg := o, reason := 0 } }
  if s.atStop then (s.setEvent .xch 2).armInStop p
  else State.setEvent { s with xch := s.xch.write { state := .armed, pivot := n, n := k } } .xch 2

/-- ARM (05 R148, R155). -/
def execArm (o : Origin) (n : Nat) (k : DWord) (s : State) : Host.Outcome State Fault Refusal :=
  let refuse := fun (r : Nat) => Host.Outcome.next ((s.setEvent .xch 3).refuseXch o r)
  if !s.actsAsLead then .next (s.finish o stNotLead 0)
  else if s.xch.cur.state ≠ .staged then refuse 9
  else match s.xch.pkg with
    | none => refuse 9
    | some p =>
      match s.armReason p n k with
      | 0 =>
        let stop := s.atStop
        let s := if s.leads then s.olvia (.policy (.arm n k)) else s
        let s := s.arm p o n k
        .next (if stop then s.passed o else s.finish o stOk 0)
      | r => refuse r

/-- DISARM (05 R144): nothing armed and nothing staged is refused. (DEDUCED, log 36) -/
def execDisarm (o : Origin) (s : State) : Host.Outcome State Fault Refusal :=
  if !s.actsAsLead then .next (s.finish o stNotLead 0)
  else match s.xch.cur.state with
    | .armed => .next ((s.xchAbort 0x10).finish o stOk 0)
    | .staged => .next (s.finish o stOk 0)
    | .idle => .next (s.finish o stRefused 9)
    | .staging => .next (s.finish o stRefused 9)
    | .switching => .next (s.finish o stRefused 8)
    | .settling => .next (s.finish o stRefused 8)

/-- The staged package is discarded (05 R144). -/
def State.discard (s : State) : State := { s with xch := s.xch.drop.clear.write {}, cfg := { s.cfg with base := none } }

/-- DISCARD (05 R144). -/
def execDiscard (o : Origin) (s : State) : Host.Outcome State Fault Refusal :=
  if !s.actsAsLead then .next (s.finish o stNotLead 0)
  else match s.xch.cur.state with
    | .staged => .next (((if s.leads then s.olvia (.policy .discard) else s).discard).finish o stOk 0)
    | .idle => .next (s.finish o stOk 0)
    | _ => .next (s.finish o stRefused 8)

/-- ROLLBACK (05 R159): the base image with the reverse map as a new package. -/
def execRollback (o : Origin) (s : State) : Host.Outcome State Fault Refusal :=
  if !s.actsAsLead then .next (s.finish o stNotLead 0)
  else if s.xch.cur.state ≠ .idle then .next (s.refuseXch o 8)
  else match s.xch.reverse, s.cfg.base with
    | some m, some b =>
      let p : Package := { prog := b, base := (match s.cfg.prog with | some g => g.hash | none => []), carry := m
                           proof := some (List.map Prod.fst b.tasks) }
      .next (State.stageWhole { s with xch := s.xch.clear.write { state := .staging } } o p b.signer)
    | _, _ => .next (s.refuseXch o 6)

/-- PRECARRY_COMPLETE (05 R148, R149). -/
def execPrecarryComplete (s : State) : Host.Outcome State Fault Refusal :=
  match s.xch.pkg with
  | some p =>
    if s.xch.cur.state ≠ .armed ∨ s.xch.done then .next s
    else .next { s with xch := { s.xch with done := true, percent := 100, stage := s.precarryAll p } }
  | none => .next s

/-- May the carry of a task complete now: no cycle of the old program is in progress, and its next T0 lies at Tx or later
(05 R150)? -/
def State.carryReady (s : State) (p : Package) (n : Nat) : Bool :=
  let c := s.taskCfg n
  s.xch.cur.state == .switching && (s.exchangeTasks p).contains n && !Bits.bit s.xch.switched n && (s.task n).run.isNone
    && (!c.configured || match s.xch.txNs with
      | none => n == s.xch.cur.pivot
      | some x => decide (x ≤ s.nowNs)
          || (if c.kind = 1 then
                decide (x ≤ c.nextTick s.tickNo * 10000) && (!c.fallsOn s.tickNo || (s.task n).lastT0 == some s.tickStart.toNat)
              else match (s.task n).lastT0 with | some t => decide (x ≤ t + 250000) | none => false))

/-- CARRY_COMPLETE (05 R150-R153). -/
def execCarryComplete (n : Fin 32) (s : State) : Host.Outcome State Fault Refusal :=
  match s.xch.pkg with
  | some p => if s.carryReady p n then .next ((s.carry p n (p.carryTask s.oldImage n)).settle p) else .next s
  | none => .next s

/-- Every task's mirror is current, every running task has committed since, and Tx has passed (05 R157). -/
def State.settleReady (s : State) : Bool :=
  s.xch.cur.state == .settling && (s.xch.cur.inStop || (s.txReached s.nowNs
    && s.configuredTasks.all (fun n => s.mirrorDone n
      && ((s.task n).mode == .stop || (s.task n).pol != .active || (s.task n).gone || Bits.bit s.xch.cur.mask n))))

/-- SETTLE_COMPLETE (05 R157). -/
def execSettleComplete (s : State) : Host.Outcome State Fault Refusal :=
  match s.xch.pkg with
  | some p => if s.settleReady then .next (s.settled p) else .next s
  | none => .next s

end Sys2Proof.Machine
end

