-- ==== Sys2Proof/Machine/Switch.lean ====
section
/-! DEFINITION. Machine/Switch.lean: writing objects into the image store and activating them: configuration, safety
configuration and module firmware (14 R406, 16 R448-R452, 10 R321, 17 R462-R468). -/
namespace Sys2Proof.Machine

/-! The configuration switch. -/

/-- A configuration switch is refused (16 R449); a proof that no longer holds is PROOF_REFUSED too (03 R87). -/
def State.configReason (s : State) (r : Nat) : State :=
  ({ s with cfg := { s.cfg with reason := r, refuseCnt := Bits.inc s.cfg.refuseCnt } }.setEvent .cfg 1).setEventIf (r == 4) .fab 10

def State.configRefused (s : State) (o : Origin) (r : Nat) : State := (s.configReason r).finish o stRefused r

/-- A switch is pending with its header written (16 R448, R450). -/
def State.pendConfig (s : State) (c : StationCfg) (e : Effect) (o : Origin) : State :=
  let run := s.cyc.mode == .run
  let f := s.cfg.writeHeader
  { s with cfg := { f with pend := some { cfg := c, effect := e, task := if run then s.refTask else none, origin := o }
                           refTask := if run then s.refTask.getD 0 else 0, reason := 0 } }

/-- Ts (16 R450): in RUN the T0 of the first cycle of the reference task at least 2 ms after acceptance, by its cycle number
while a partner switches too; else the first station tick at least 2 ms after acceptance. (DEDUCED, log 59) -/
def State.switchEffect (s : State) : Effect :=
  match s.cyc.mode, s.refTask with
  | .run, some n =>
    if s.twin.link = .severed then .tick (s.tickNo + 199)
    else
      let c := s.taskCfg n
      let t1 := c.nextTick s.tickNo
      let more := if c.kind = 1 then (if s.tickNo + 200 ≤ t1 then 0 else (s.tickNo + 200 - t1 + c.ticks - 1) / max c.ticks 1) else 9
      .cycle (s.nextCycle n + BitVec.ofNat 64 more)
  | _, _ => .tick (s.tickNo + 199)

/-- An accepted switch: the LEAD names Ts (16 R450). (DEDUCED, log 59) -/
def State.acceptConfig (s : State) (c : StationCfg) (o : Origin) : State :=
  let e := s.switchEffect
  let s := if s.leads then s.olvia (.policy (.switch e)) else s
  (s.pendConfig c e o).passed o

/-- A SHADOW checks the configuration that the LEAD forwards (16 R450). -/
def State.judgeConfig (s : State) (c : StationCfg) : State :=
  match s.switchReason (some c) with
  | 0 => State.olvia { s with cfg := s.cfg.putBody c } (.config 0)
  | r => (s.configReason r).olvia (.config r)

/-- The activation that ends NO_CONFIG (16 R446): start-up goes on from twin search. -/
def State.firstConfig (s : State) (c : StationCfg) : State :=
  let f := s.cfg.writeHeader.flip
  let s := State.loadConfig { s with cfg := { f with switchCnt := Bits.inc f.switchCnt } } c true
  let s := { s with pnl := s.pnl.startUp, cfg := { s.cfg with searchAt := s.mod.uptime, phase := if s.cfg.lanes then .twinSearch else .verify } }
  s.setEvent .cfg 0

/-- ACTIVATE_CONFIG (16 R449, R450). -/
def execActivateConfig (o : Origin) (s : State) : Host.Outcome State Fault Refusal :=
  match s.switchReason s.cfg.staged.body, s.cfg.staged.body with
  | 0, some c =>
    if s.cfg.phase = .noConfig then .next ((s.firstConfig c).finish o stOk 0)
    else if s.leads && s.twin.link == .joined then
      .next (State.passed (State.olvia { s with cfg := { s.cfg with asking := some (c, o) } } (.copy (.config c))) o)
    else .next (s.acceptConfig c o)
  | r, _ => .next (s.configRefused o r)

/-- Is the present instant Ts (16 R450)? (DEDUCED, log 59) -/
def State.switchDue (s : State) (p : CfgSwitch) : Bool :=
  match p.task with
  | none => p.effect.due s.tickNo 0#64
  | some n =>
    let c := s.taskCfg n
    let here := c.kind != 1 || (c.fallsOn s.tickNo && (s.task n).lastT0 != some s.tickStart.toNat)
    here && (s.cyc.mode != .run || p.effect.due s.tickNo (s.nextCycle n))

/-- CONFIG_SWITCH_INSTANT (16 R450). -/
def execConfigSwitchInstant (s : State) : Host.Outcome State Fault Refusal :=
  match s.cfg.pend with
  | some p =>
    if s.switchDue p then
      .next ((State.switchNow { s with cfg := { s.cfg with pend := none } } p.cfg).finish p.origin stOk 0)
    else .next s
  | none => .next s

/-- A switch that waited for the partner's checks goes on alone once the pair is no longer JOINED (16 R452). -/
def State.cfgTick (s : State) : State :=
  match s.cfg.asking with
  | some (c, o) =>
    if s.twin.link = .joined then s
    else
      let s := { s with cfg := { s.cfg with asking := none } }
      if s.twin.link = .catchingUp then s.configRefused o 9 else s.acceptConfig c o
  | none => s

/-! Image pieces (14 R406). -/

/-- The size of a target slot (16 *Image store partition*). -/
def slotSize (target : Nat) : Nat := if target = 2 then 16 * mib else 256 * mib

/-- Is a target slot in use: a switch or an activation takes it, or engines run from it (14 *Image write codes*)?
(DEDUCED, log 55) -/
def State.slotBusy (s : State) (target : Nat) : Bool :=
  match target with
  | 1 => s.cfg.pend.isSome || s.cfg.asking.isSome
  | 2 => s.cfg.safeOrg.isSome
  | _ => s.cfg.fwOrg.isSome || s.fab.fwCmd.isSome || (List.range 16).any (fun e => (s.fab.engine e).fw != .active)

/-- Does a finished object verify (16 R446)? -/
def State.objectOk (s : State) (target : Nat) (obj : ImageObj) : Bool :=
  match target, obj with
  | 1, .config c => s.configSigned c
  | 2, .safety o => !o.bad && (match o.signer with | some k => s.cfg.keyStore.imageKeys.contains k | none => false)
  | 3, .firmware f => f.ok
  | _, _ => false

/-- A verified object takes the slot that is not active. -/
def CfgBlk.putObject (c : CfgBlk) (obj : ImageObj) : CfgBlk :=
  match obj with
  | .config b => c.putBody b
  | .safety o => if c.safeOnB then { c with safeA := some o } else { c with safeB := some o }
  | .firmware f => if c.firmOnB then { c with firmA := some f } else { c with firmB := some f }
  | .none => c

/-- IMAGE_WRITE (14 R405, R406): `off`, `total`, `first`, `last` as in *Opcodes*, `len` the length of the piece; `obj` is the
object that the finished write spells. -/
def execImageWrite (o : Origin) (target off total len : Nat) (first last : Bool) (obj : ImageObj) (s : State) :
    Host.Outcome State Fault Refusal :=
  let t := Tbl.get {} s.cfg.transfers target
  let opened := s.cfg.transfers.any (fun e => e.1 == target)
  let ring := originRing o
  if target < 1 ∨ 3 < target ∨ total < off + len then .next (s.finish o stBadParam 0)
  else if slotSize target < total then .next (s.finish o stRefused 2)
  else if s.slotBusy target || (!first && opened && t.sq != ring) then .next (s.finish o stRefused 4)
  else if (first && off != 0) || (!first && (!opened || off != t.len || total != t.total)) || (last && off + len != total) then
    .next (s.finish o stRefused 3)
  else
    let put := fun (l : Tbl Transfer) => Tbl.insert target { sq := ring, len := off + len, total := total } (Tbl.erase l target)
    if !last then .next (State.finish { s with cfg := { s.cfg with transfers := put s.cfg.transfers } } o stOk 0)
    else
      let s := { s with cfg := { s.cfg with transfers := Tbl.erase s.cfg.transfers target } }
      if s.objectOk target obj then .next (State.finish { s with cfg := s.cfg.putObject obj } o stOk 0)
      else .next (s.finish o stRefused 1)

/-! Safety configuration and module firmware. -/

def CfgBlk.idleSafe (c : CfgBlk) : Option SafetyObj := if c.safeOnB then c.safeA else c.safeB
def CfgBlk.idleFirm (c : CfgBlk) : Option FirmObj := if c.firmOnB then c.firmA else c.firmB

/-- ACTIVATE_SAFETY (10 R321, 14 *Image write codes*): it takes effect at the next station tick. (DEDUCED, log 55) -/
def execActivateSafety (o : Origin) (s : State) : Host.Outcome State Fault Refusal :=
  if !(s.follows && s.twin.link == .joined) then .next (s.finish o stRefused 5)
  else match s.cfg.idleSafe with
    | none => .next (s.finish o stRefused 1)
    | some x =>
      if !s.objectOk 2 (.safety x) then .next (s.finish o stRefused 1)
      else if s.cfg.safeOrg.isSome then .next (s.finish o stRefused 4)
      else .next (State.passed { s with cfg := { s.cfg with safeOrg := some o } } o)

/-- The station tick after an ACTIVATE SAFETY (10 R321, R305). -/
def State.safetyTick (s : State) : State :=
  match s.cfg.safeOrg, s.cfg.idleSafe with
  | some o, some x =>
    let on : BitVec 8 := (List.range 8).foldl (fun b n => if (s.safe.getSo n).terminal then b ||| (1#8 <<< n) else b) 0#8
    let s := { s with cfg := { s.cfg with safeOrg := none, safeOnB := !s.cfg.safeOnB, safeOk := true } }
    let y := { s.safe.take x with laneHOk := s.safe.cellPower }
    ((s.setSafe y).lanePStart on).finish o stOk 0
  | _, _ => s

end Sys2Proof.Machine
end

