-- ==== Sys2Proof/Machine/Twin.lean ====
section
/-! DEFINITION. Machine/Twin.lean: the commands of the twin unit: lanes and sessions, heartbeat and role lines, the exchange
of a cycle, verdicts, state copy, yield and handover (04 R100-R141). -/
namespace Sys2Proof.Machine

/-! Lanes (04 R101, R102). -/

/-- LANE_BLOCK_LOCK_LOSS (04 R101). -/
def execLaneBlockLockLoss (l : Fin 2) (s : State) : Host.Outcome State Fault Refusal :=
  if (s.twin.lane l).state == .down && !(s.twin.lane l).training then .next s else .next (s.laneDown l true)

/-- Do the lanes train: not before twin search begins (16 R453)? -/
def State.lanesRun (s : State) : Bool :=
  !s.mod.failed && s.cfg.phase != .rom && s.cfg.phase != .verify && s.cfg.phase != .noConfig

/-- LANE_TRAIN_ATTEMPT (04 R101): only with the partner's presence contact closed. -/
def execLaneTrainAttempt (l : Fin 2) (s : State) : Host.Outcome State Fault Refusal :=
  let x := s.twin.lane l
  if x.state == .down && !x.training && s.lanesRun && s.twin.seated && s.twin.partner && decide (x.next ≤ s.nowNs) then
    .next { s with twin := s.twin.setLane l { x with training := true, next := s.nowNs + 10000000 } }
  else .next s

/-- LANE_TRAIN_TIMEOUT (04 R101): 2 ms after the start of the attempt. -/
def execLaneTrainTimeout (l : Fin 2) (s : State) : Host.Outcome State Fault Refusal :=
  let x := s.twin.lane l
  if x.training && decide (x.next ≤ s.nowNs + 8000000) then .next (s.laneDown l false) else .next s

/-- LANE_TRAINED (04 R101). -/
def execLaneTrained (l : Fin 2) (s : State) : Host.Outcome State Fault Refusal :=
  let x := s.twin.lane l
  if x.training && x.state == .down then .next { s with twin := s.twin.setLane l { x with state := .handshake } } else .next s

/-- The SAFETY_ID of a safety configuration (10 R292). (PRESUMED, log 8) -/
def safetyObjId (o : SafetyObj) : DWord := Safe.safetyId { pairs := o.pairs, fns := o.fns }

/-- Is a safety configuration change in progress between the modules (17 R467)? -/
def State.safetyChange (s : State) : Bool :=
  let own := s.safe.id
  let peer := s.twin.peer
  let staged := (if s.cfg.safeOnB then s.cfg.safeA else s.cfg.safeB).map safetyObjId
  own != peer.safetyId && (peer.nextSafe == some own || staged == some peer.safetyId)

/-- The first reason against a join in the order of their codes, 0 for none (04 R126). (DESIGN CHOICE, log 87) -/
def State.joinRefusal (s : State) : Nat :=
  let p := s.twin.peer
  if p.romVer ≠ 2 ∨ s.mnt.romVer ≠ 2 ∨ p.revision < 3 ∨ Bits.get s.mod.revision 24 8 < 0x43 then 2
  else if p.line ≠ Bits.get s.mod.fwRelease 24 8 then 3
  else if (if s.holdsToken then s.exchangeArmed else p.armed) then 5
  else if p.safetyId ≠ s.safe.id ∧ !s.safetyChange then 6
  else 0

/-- The join checks: state copy begins, or the join is refused (04 R126). -/
def State.joinCheck (s : State) : State :=
  match s.joinRefusal with
  | 0 => s.startCopy
  | r => { s with twin := { s.twin with joinReason := r } }.setEvent .twin 8

/-- The link has come up between two seated modules with their roles taken (04 R111). (DEDUCED, log 44) -/
def State.linkJoin (s : State) : State :=
  if s.twin.started && s.twin.seated && s.twin.partner && s.twin.linkUp && s.twin.link == .severed && (s.holdsToken || s.twin.partnerLow) then
    s.joinCheck
  else s

/-- HANDSHAKE (04 R101, R102): `ok` says that the frames and the other module's share of the key derivation verify.
The session key follows from the pair key and one random value of each slot, and the frame counter of the lane starts at 0.
(DESIGN CHOICE, log 72) (DESIGN CHOICE, log 89) -/
def execHandshake (l : Fin 2) (ok : Bool) (peer : PeerId) (randA randB : BitVec 128) (s : State) : Host.Outcome State Fault Refusal :=
  let x := s.twin.lane l
  match s.cfg.keyStore.pairKey with
  | none => .next (if x.state ≠ .handshake then s else s.laneDown l false)
  | some p =>
    if x.state ≠ .handshake then .next s
    else if !ok || peer.pairKey != some p then .next (s.laneDown l false)
    else
      let was := s.twin.linkUp
      let y := { x with state := .up, training := false, fails := [], key := Config.sessionKey p randA randB }
      let s := { s with twin := { s.twin.setLane l y with peer := peer, txCtr := Tbl.set 0#64 s.twin.txCtr l 0#64 } }
      .next (if was then s else s.linkJoin)

/-- OLVIA_AUTH_FAIL (04 R101, R102). -/
def execOlviaAuthFail (l : Fin 2) (s : State) : Host.Outcome State Fault Refusal :=
  let x := s.twin.lane l
  let recent := (x.fails.filter (fun t => decide (s.nowNs < t + 1000000))) ++ [s.nowNs]
  let s := { s with twin := { s.twin.setLane l { x with fails := recent, errors := Bits.sat 14 x.errors 1 } with authCnt := Bits.inc s.twin.authCnt } }.setEvent .twin 7
  .next (if 8 ≤ recent.length then s.laneDown l false else s)

/-! Heartbeat, role lines and the token (04 R105-R109). -/

/-- What a HEARTBEAT of this module says. -/
def State.heartbeatNow (s : State) : Heartbeat :=
  { role := s.role.code, link := s.twin.link.code, elig := s.eligibility, tick := s.tickNo, tickOff := -s.twin.tickOff
    acks := List.map (fun (e : Nat × StreamCtx) => (e.1, e.2.seq)) (s.net.ctxs.filter (fun e => !e.2.receive))
    clocks := (List.range 4).map (fun c => ((s.time.clock c).pos, (s.time.clock c).rateNow))
    axCheck := s.ax.checkNow, settled := s.cfg.settled, locked := s.time.disc == .locked, engaged := s.twin.engaged
    precarry := s.xch.done, safetyId := s.safe.id }

/-- HEARTBEAT_SEND (04 R105). -/
def execHeartbeatSend (s : State) : Host.Outcome State Fault Refusal :=
  if s.mod.failed || s.twin.regions.contains Region.twin then .next s else .next (s.olvia (.heartbeat s.heartbeatNow))

/-- The axis state check word of the LEAD differs from the SHADOW's of the same tick (11 R345). -/
def State.axCompare (s : State) (h : Heartbeat) : State :=
  if s.follows && s.twin.seqDone || s.twin.link == .joined && !s.holdsToken then
    let d := h.axCheck != s.ax.heartbeatCheck
    { s with twin := { s.twin with axDiff := s.twin.axDiff || d } }.setEventIf (d && !s.twin.axDiff) .twin 13
  else s

/-- The SHADOW of a LEAD has refused the join: it is SEVERED, having been CATCHING-UP (04 R123, R126). -/
def State.joinGivenUp (s : State) : State :=
  ({ s with twin := { s.twin with joinReason := 1, link := .severed, phase := 0 } }.setEvent .twin 8).pnlAlone

/-- Link states follow the LEAD's record (04 R111): `was` is the link state that the partner showed before. A JOINED module whose
partner has shown JOINED and shows it no more catches up anew; a SHADOW that runs in step is JOINED when its LEAD is; a copy that
waited for the SHADOW to leave HOLD begins (R54). (DEDUCED, log 44) -/
def State.linkCompare (s : State) (h : Heartbeat) (was : Nat) : State :=
  let s := { s with twin := { s.twin with shown := s.twin.shown || (s.twin.link == .joined && h.link == 2) } }
  if s.twin.link = .joined ∧ h.link = 1 ∧ s.twin.shown then s.startCopy
  else if s.holdsToken ∧ s.twin.link = .catchingUp ∧ was = 1 ∧ h.link = 0 then s.joinGivenUp
  else if s.holdsToken ∧ s.twin.link = .catchingUp ∧ s.twin.phase = 0 ∧ !Bits.bit h.elig 2 ∧ !s.exchanging ∧ s.mod.ready then s.startCopy
  else if !s.holdsToken ∧ s.twin.link = .catchingUp ∧ h.link = 2 ∧ s.twin.phase = 5 then s.joinNow
  else s

/-- A SHADOW in FOLLOW takes its station tick from the LEAD: a count that lies two ticks or more from its own is taken at once
(04 R131, 06 R164, R170). (DEDUCED, log 91) -/
def State.takeTick (s : State) (tick : Nat) : State :=
  if s.follows && s.time.disc == .follow && (decide (tick + 1 < s.tickNo) || decide (s.tickNo + 1 < tick)) then
    { s with time := s.time.setTotal (tick * 10000) }
  else s

/-- In FOLLOW a tick offset beyond ±200 ns for 20 µs is a fault of the time unit (06 R171, 01 R21). -/
def State.tickCheck (s : State) : State :=
  if s.time.disc != .follow || decide (s.twin.tickOff.natAbs ≤ 200) then { s with time := { s.time with tickBad := none } }
  else match s.time.tickBad with
    | none => { s with time := { s.time with tickBad := some s.nowNs } }
    | some t => if t + 20000 ≤ s.nowNs then s.failModule else s

/-- A HEARTBEAT to use (04 R105, R113, R131, 06 R180, 11 R345). -/
def State.takeHeartbeat (s : State) (h : Heartbeat) : State :=
  let was := match s.twin.heard with | some g => g.link | none => 0
  let s := { s with twin := { s.twin with heard := some h, lost := false, peer := { s.twin.peer with safetyId := h.safetyId }, tickOff := if s.follows then -h.tickOff else 0 }
                    xch := { s.xch with ready := h.precarry } }
  let s := if s.follows then ((s.takeTick h.tick).acMirror h.clocks h.locked).tickCheck else s
  let s := s.axCompare h
  State.linkCompare { s with twin := { s.twin with eligHeard := s.eligible } } h was

/-- HEARTBEAT (04 R105). -/
def execHeartbeat (f : OlviaHdr) (h : Heartbeat) (s : State) : Host.Outcome State Fault Refusal :=
  if s.mod.failed then .next s else .next (s.onFrame f (fun s => s.takeHeartbeat h))

/-- PARTNER_LOST (04 R105, R112, R137): no valid HEARTBEAT for 6 µs, whether or not one has come before. -/
def execPartnerLost (s : State) : Host.Outcome State Fault Refusal :=
  if s.twin.lost || (s.twin.heard.isNone && s.twin.link == .severed) then .next s
  else .next (State.losePartner { s with twin := { s.twin with missCnt := Bits.inc s.twin.missCnt } } s.twin.eligHeard)

/-- The twin unit itself is faulted (01 R21, R22, 04 R106): its lanes and its role line go; the module drives its shared
stages for two more cycles of its reference task. -/
def State.twinUnitFault (s : State) : State :=
  let lead := s.holdsToken
  let joined := s.twin.link != .severed
  let s := s.lanesDown
  let s := { s with twin := { s.twin with
    ownLow := false, keeper := false, link := .severed, heard := none, phase := 0, isolated := true
    split := some (s.nowNs, 0), yielding := none, openElig := none
    regions := if s.twin.regions.contains Region.twin then s.twin.regions else s.twin.regions ++ [Region.twin]
    lastTake := if lead && joined then lastTakeWord 2 6 0 s.unitNo else s.twin.lastTake } }
  (if lead then (if joined then s.twinRecord 1 0xFFFFFFFF else s).pnlYielded else s).endFollow

/-- KEEPER_LAPSE (04 R106): a module that neither failed nor yields has lost its heartbeat generator.
(DEDUCED, log 41) -/
def execKeeperLapse (s : State) : Host.Outcome State Fault Refusal :=
  if !s.twin.ownLow then .next { s with twin := { s.twin with keeper := false } } else .next s.twinUnitFault

/-- A promotion that waited for the partner's line (04 R112, R128). (DEDUCED, log 35) -/
def State.lineHigh (s : State) : State :=
  let s := { s with twin := { s.twin with partnerLow := false, high1us := true } }
  match s.twin.openElig with
  | some e =>
    let s := { s with twin := { s.twin with openElig := none } }
    if !s.twin.started || s.holdsToken then s
    else if e then s.promote 1 0 else { s with twin := { s.twin with blocked := true } }.setEvent .twin 14
  | none =>
    if s.twin.isolated && s.twin.started && !s.twin.ownLow && s.twin.link == .severed && !s.mod.failed && !s.twin.regions.contains Region.twin then s.coldPromote
    else s

/-- PARTNER_ROLE_LINE_HIGH (04 R109, R112, R140). -/
def execPartnerRoleLineHigh (s : State) : Host.Outcome State Fault Refusal := .next s.lineHigh

/-- The yield is complete: the partner has pulled its line (04 R127, R130). Commands that were not forwarded are lost
(14 R420). -/
def State.yielded (s : State) (y : Yielding) : State :=
  let kind := if y.region.isNone then 3 else 2
  let region := match y.region with | some r => r.code | none => 0
  let lost := s.cyc.buf ++ (match s.cfg.asking with | some e => [(ProgMode.stop, e.2)] | none => [])
  let s := { s with
    twin := { s.twin with yielding := none, lastTake := lastTakeWord kind region 0 s.unitNo }
    cyc := { s.cyc with buf := [] }, time := s.time.follow, cfg := { s.cfg with asking := none } }
  let s := lost.foldl (fun s e => s.finish e.2 stTakeoverAbort 0) s
  ((s.twinRecord 1 0xFFFFFFFF).brakeAbortAll.pnlYielded).finish y.origin stOk 0

/-- PARTNER_ROLE_LINE_LOW (04 R107, R108). -/
def execPartnerRoleLineLow (s : State) : Host.Outcome State Fault Refusal :=
  let s := { s with twin := { s.twin with partnerLow := true, high1us := false } }
  match s.twin.yielding with
  | some y => .next (s.yielded y)
  | none => .next s

/-- ROLE_CONFLICT (04 R107): the module in slot B releases its line and becomes SHADOW; without a link it is isolated.
(DEDUCED, log 41) -/
def execRoleConflict (s : State) : Host.Outcome State Fault Refusal :=
  if !(s.twin.ownLow && s.twin.partnerLow) then .next s
  else
    let s := s.setEvent .twin 12
    if !s.twin.slotB then .next s
    else
      let alone := s.twin.link == .severed
      let t := { s.twin with ownLow := false, keeper := false, isolated := s.twin.isolated || alone
                             split := if alone && s.twin.engaged then some (s.nowNs, 0) else s.twin.split }
      .next (State.pnlYielded { s with twin := t, time := if alone then s.time else s.time.follow })

/-- SPLIT_BRAIN_RELEASE (04 R134). -/
def execSplitBrainRelease (s : State) : Host.Outcome State Fault Refusal :=
  match s.twin.split with
  | some (t, c) =>
    if (if s.refTask.isSome then decide (2 ≤ c) else decide (t + 2000000 ≤ s.nowNs)) then
      .next { s with twin := { s.twin with split := none, engaged := false }, dio := s.dio.engageAll false, aio := s.aio.faultReleaseAll }
    else .next s
  | none => .next s

/-! The exchange in each cycle (04 R115-R122). -/

/-- SAMPLES (04 R115). -/
def execSamples (f : OlviaHdr) (n : Fin 32) (k : DWord) (vals : List InVal) (s : State) : Host.Outcome State Fault Refusal :=
  .next (s.onFrame f (fun s => s.modTwin n (fun w => { w with samples := some (k, vals) })))

/-- AGREED (04 R116). -/
def execAgreed (f : OlviaHdr) (n : Fin 32) (k : DWord) (vals : List InVal) (s : State) : Host.Outcome State Fault Refusal :=
  .next (s.onFrame f (fun s => if s.follows then s.modTwin n (fun w => { w with agreed := some (k, vals) }) else s))

/-- A SHADOW has missed part of the exchange of a cycle (04 R116, R120): JOINED it releases its stages at Ta; it catches up anew. -/
def State.exchangeMissed (s : State) (n : Nat) : State :=
  let s := s.setEvent .twin 11
  (s.modTwin n (fun w => { w with release := w.release || s.twin.link == .joined })).startCopy

/-- EXCHANGE_MISS (04 R116). -/
def execExchangeMiss (n : Fin 32) (s : State) : Host.Outcome State Fault Refusal :=
  let w := s.twin.task n
  match (s.task n).run with
  | some r =>
    if s.follows && s.agrees && !r.agreed && (w.samplesOf r.k).isNone && (w.agreedOf r.k).isNone && decide (r.t0 + 40000 ≤ s.nowNs) then
      .next (s.exchangeMissed n)
    else .next s
  | none => .next s

/-- A task that starts no cycle is proved when the partner's image hash equals its own (04 R124 step 5). -/
def State.imageMatch (s : State) (n : Nat) (h : DWord) : State :=
  let s := s.modTwin n (fun w => { w with image := some h })
  if s.twin.link == .catchingUp && s.twin.seqDone && (s.task n).run.isNone && ((s.task n).mode != .run || (s.task n).pol != .active)
      && imageHash (s.progTask n) (s.task n).image == h then
    (s.modTwin n (fun w => { w with proved := true })).tryJoin
  else s

/-- A HASH frame to use (04 R117-R119, R124). -/
def State.takeHash (s : State) (n : Nat) (m : HashMsg) : State :=
  if s.twin.link = .severed then s
  else match m with
    | .commit k h a d =>
      let s := s.modTwin n (fun w => { w with partner := some { k := k, hash := h, audit := a, diff := d }, step := true })
      (s.judge n).judgeFault n
    | .fault k => (s.modTwin n (fun w => { w with fault := some k })).judge n
    | .image h => s.imageMatch n h

/-- HASH (04 R117-R119, R124). -/
def execHash (f : OlviaHdr) (n : Fin 32) (m : HashMsg) (s : State) : Host.Outcome State Fault Refusal :=
  .next (s.onFrame f (fun s => s.takeHash n m))

/-- VERDICT_DEADLINE (04 R119): the LEAD gives the verdict that no comparison has given. -/
def execVerdictDeadline (n : Fin 32) (s : State) : Host.Outcome State Fault Refusal :=
  let w := s.twin.task n
  let t := s.task n
  if !s.leads || !(s.twin.link == .joined || w.step) then .next s
  else match t.run with
    | some r =>
      if r.faulted then .next (if w.judged r.k then s else s.sendVerdict n r.k 5 0)
      else .next ((s.sendVerdict n r.k 3 0).xchVerdict n r.k 3 (s.applyInstant n))
    | none =>
      match w.ownFault with
      | some k =>
        if t.cycle.toNat < k.toNat ∧ !w.judged k then .next (s.sendVerdict n k 5 0) else .next s
      | none =>
        match w.own with
        | some o => if t.toApply ∧ !w.judged o.k then .next (s.sendVerdict n o.k 4 0) else .next s
        | none => .next s

/-- The kind of a mismatch as the SHADOW finds it in what it holds itself. -/
def TwinTask.kindHere (w : TwinTask) (k : DWord) : Nat :=
  if w.ownFault = some k then 4
  else match w.own, w.partner with
    | some o, some p => match mismatchKind o p with | 0 => 4 | d => d
    | _, _ => 4

/-- A VERDICT to use on a SHADOW that runs in step (04 R119-R121). -/
def State.obeyVerdict (s : State) (n : Nat) (k : DWord) (code ta : Nat) : State :=
  if !s.follows || !s.agrees then s
  else
    let s := (s.takeVerdict n k code ta ((s.twin.task n).kindHere k)).xchVerdict n k code ta
    if code = 5 then
      let s := s.modTask n (fun t => { t with due := some t.limits.stop, dueFrom := none })
      match (s.task n).run with
      | some r => if r.k = k then s.abandonCycle n else s
      | none => s
    else s

/-- VERDICT (04 R119-R121). -/
def execVerdict (f : OlviaHdr) (n : Fin 32) (k : DWord) (code : Fin 6) (ta : Nat) (s : State) : Host.Outcome State Fault Refusal :=
  .next (s.onFrame f (fun s => s.obeyVerdict n k code ta))

/-- VERDICT_MISSING (04 R120). -/
def execVerdictMissing (n : Fin 32) (s : State) : Host.Outcome State Fault Refusal :=
  let w := s.twin.task n
  let t := s.task n
  let has := match w.verdict with | some (k, _, _) => k == t.cycle || (match t.run with | some r => k == r.k | none => false) | none => false
  if s.follows && s.agrees && (t.toApply || t.run.isSome) && !has && !w.release then .next (s.exchangeMissed n) else .next s

/-- A self-test ends with a result in TWIN_MISMATCH_TASK (04 R122). -/
def State.putResult (s : State) (own pass : Bool) : State :=
  let lead := own == s.holdsToken
  let v := if pass then 1 else 2
  let w := s.twin.mismTask
  let w := if lead then (w &&& 0xF3FFFFFF#32) ||| Bits.fld v 26 else (w &&& 0xFCFFFFFF#32) ||| Bits.fld v 24
  { s with twin := { s.twin with mismTask := w, ownResult := if own then some pass else s.twin.ownResult
                                 peerResult := if own then s.twin.peerResult else some pass } }

/-- Does an engine still run the self-test of its own fence (04 R139)? -/
def FabBlk.selfTesting (f : FabBlk) : Bool :=
  (List.range 16).any (fun e => (f.engine e).state == .fenced || (f.engine e).state == .selfTest)

/-- MISMATCH_SELF_TEST_DONE (04 R121): the LEAD's self-test follows that of a fence (R139). -/
def execMismatchSelfTestDone (pass : Bool) (s : State) : Host.Outcome State Fault Refusal :=
  if !s.twin.testing || s.twin.ownResult.isSome || (s.holdsToken && s.fab.selfTesting) then .next s
  else
    let s := (s.putResult true pass).olvia (.result pass)
    if !pass && !s.holdsToken then .next s.failModule else .next s.mismatchOutcome

/-- A RESULT frame to use (04 R103, R121, 05 R147, 13 R387). -/
def State.takeResult (s : State) (m : ResultMsg) : State :=
  match m with
    | .selfTest pass => if s.twin.testing && s.twin.peerResult.isNone then (s.putResult false pass).mismatchOutcome else s
    | .staging r =>
      if s.xch.cur.state ≠ .staging then s
      else if r ≠ 0 then s.stageRefused r
      else State.staged { s with xch := { s.xch with peerOk := true } }
    | .config r =>
      match s.cfg.asking with
      | some (c, o) =>
        let s := { s with cfg := { s.cfg with asking := none } }
        if r = 0 then s.acceptConfig c o else s.configRefused o 0xA
      | none => s
    | .memFault side seq detail time cycle =>
      (s.request { source := 12, code := 0x101, time := time, cycle := cycle, detail := detail, mirror := some (side, seq) }).1

/-- RESULT (04 R103, R121, 05 R147, 13 R387). -/
def execResult (f : OlviaHdr) (m : ResultMsg) (s : State) : Host.Outcome State Fault Refusal :=
  .next (s.onFrame f (fun s => s.takeResult m))

/-! POLICY (04 R92, R103). -/

/-- The SHADOW hears of a mode command with the cycles at which it applies; with none named it takes effect at once
(02 R50, R54), and in a state copy it ends the sequential state (04 R124 step 3). -/
def State.policyMode (s : State) (m : ProgMode) (at' : List (Nat × DWord)) : State :=
  let mine := (s.cyc.fwd.filter (fun e => e.1 == m)).map Prod.snd
  let s := { s with cyc := { s.cyc with fwd := s.cyc.fwd.filter (fun e => e.1 != m), target := m } }
  let left := (at'.filter (fun e => (s.taskCfg e.1).configured)).map (fun e => (e.1, Effect.cycle e.2))
  if left.isEmpty then
    let s := if m = .hold ∧ s.cyc.mode ≠ .hold then s.shadowHold else s
    let s := State.finishAll { s with cyc := { s.cyc with mode := m, pends := [], tasks := Tbl.map {} (fun t => { t with mode := m }) s.cyc.tasks } } mine stOk 0
    if s.twin.link = .catchingUp ∧ s.twin.phase = 4 then s.inStep else s
  else { s with cyc := { s.cyc with pends := s.cyc.pends ++ [{ target := m, left := left, origins := mine }] } }

/-- The LEAD's answer to a command that this SHADOW forwarded. -/
def State.policyAnswer (s : State) (m : ProgMode) (status detail : Nat) : State :=
  match takeFirst (fun (e : ProgMode × Origin) => e.1 == m) s.cyc.fwd with
  | some (e, rest) => State.finish { s with cyc := { s.cyc with fwd := rest } } e.2 status detail
  | none => s

/-- A POLICY frame to use (02 R50, 03 R92, 05 R148, 16 R450). -/
def State.takePolicyMsg (s : State) (m : PolicyMsg) : State :=
  if s.twin.link = .severed then s
  else match m with
    | .forward mode => if s.leads then { s with cyc := { s.cyc with buf := s.cyc.buf ++ [(mode, .partner)] } } else s
    | .answer mode st d => s.policyAnswer mode st d
    | .mode mode l => if s.follows then s.policyMode mode l else s
    | .act n stop k => if s.follows then s.modTask n (fun t => { t with due := some stop, dueFrom := some k }) else s
    | .restart n k => if s.follows then s.modTask n (fun t => { t with restart := some (.cycle k, .partner) }) else s
    | .limits n l k => if s.follows then s.modTask n (fun t => { t with next := some (.cycle k, l) }) else s
    | .go k => if s.follows then s.xchGo k else s
    | .abort r => if s.follows then s.xchAbort r else s
    | .arm p k =>
      match s.xch.pkg with
      | some g => if s.follows && s.xch.cur.state == .staged then s.arm g .partner p k else s
      | none => s
    | .discard => if s.follows && s.xch.cur.state == .staged then s.discard else s
    | .switch e =>
      match s.cfg.staged.body with
      | some c => if s.follows then s.pendConfig c e .partner else s
      | none => s

/-- POLICY (02 R50, 03 R92, 05 R148, 16 R450). -/
def execPolicy (f : OlviaHdr) (m : PolicyMsg) (s : State) : Host.Outcome State Fault Refusal :=
  .next (s.onFrame f (fun s => s.takePolicyMsg m))

/-- A SHADOW takes the LEAD's poll state of a unit (04 R131). -/
def RxUnit.takePoll (p : RxPoll) (x : RxUnit) : RxUnit :=
  { x with failRun := p.fails, state := if p.lost && x.state == .onLine then .lost else x.state }

/-- A SHADOW takes the LEAD's sequence state of a transmit context and of its pair (04 R131). -/
def NetBlk.takeSeq (d : NetBlk) (n : Nat) (seq : Word) (pair : Nat) (redSeq : Half) : NetBlk :=
  { d.modCtx n (fun c => { c with seq := seq }) with redSeq := Tbl.set 0#16 d.redSeq pair redSeq }

/-- A SEQSTATE frame to use (04 R131, 06 R187, 07 R215, 11 R345, 12 R354). -/
def State.takeSeqMsg (s : State) (m : SeqMsg) : State :=
  if s.twin.link = .severed then s
  else match m with
    | .panel p => s.pnlRemote p
    | .axis e ago => if s.follows then s.axRemote e ago else s
    | .delay p ns => if s.follows then s.delayMeasured p ns else s
    | .stream c q p r => if s.follows then { s with net := s.net.takeSeq c q p r } else s
    | .rick u x => if s.follows then { s with cfg := { s.cfg with units := Tbl.mod {} s.cfg.units (u.val + 1) (RxUnit.takePoll x) } } else s
    | .slot n t => if s.follows then s.slotMirror n t else s

/-- SEQSTATE (04 R131, 06 R187, 07 R215, 11 R345, 12 R354). -/
def execSeqstate (f : OlviaHdr) (m : SeqMsg) (s : State) : Host.Outcome State Fault Refusal :=
  .next (s.onFrame f (fun s => s.takeSeqMsg m))

/-! Yield and handover (04 R112, R127, R130). -/

/-- A YIELD to use (04 R112, R128): the role lines agree, since YIELD follows 1 µs of a high line. -/
def State.takeYield (s : State) (r : Region) (handover : Bool) : State :=
  if !s.follows then s
  else
    let s := { s with twin := { s.twin with partnerLow := false, high1us := true } }
    if s.eligible then s.promote (if handover then 3 else 2) (if handover then 0 else r.code)
    else s.setEvent .twin 14

/-- YIELD (04 R112, R128). -/
def execYield (f : OlviaHdr) (r : Region) (handover : Bool) (s : State) : Host.Outcome State Fault Refusal :=
  .next (s.onFrame f (fun s => s.takeYield r handover))

/-- A refused handover (04 R130). (DEDUCED, log 41) -/
def State.handoverRefused (s : State) (o : Origin) (code : Nat) : State :=
  ({ s with twin := { s.twin with lastTake := lastTakeWord 5 0 code 0#4 } }.setEvent .twin 9).finish o stRefused code

/-- Does the partner's last HEARTBEAT show it SHADOW? -/
def State.partnerShadow (s : State) : Bool := match s.twin.heard with | some h => h.role == 2 | none => false

/-- YIELD_FAIL (04 R127): the partner's line has not gone low and its HEARTBEAT shows it still SHADOW; the line is pulled once the
partner's has read high for 1 µs. A handover that fails so is refused as if the partner were not eligible. (DESIGN CHOICE, log 86) -/
def execYieldFail (s : State) : Host.Outcome State Fault Refusal :=
  match s.twin.yielding with
  | some y =>
    if s.twin.partnerLow || !s.twin.high1us || !s.partnerShadow then .next s
    else
      let s := { s with twin := { s.twin with keeper := true, ownLow := true, yielding := none } }
      .next (if y.region.isNone then s.handoverRefused y.origin 2 else s)
  | none => .next s

/-- The condition of R130 that fails first, 0 for none. -/
def State.handoverReason (s : State) : Nat :=
  if s.role ≠ .lead then 1 else if !s.partnerEligible then 2 else if s.exchangeArmed then 3 else if s.cyc.mode = .hold then 4 else 0

/-- HANDOVER (04 R130): the yield begins at the next station tick. (DESIGN CHOICE, log 86) -/
def execHandover (o : Origin) (s : State) : Host.Outcome State Fault Refusal :=
  match s.handoverReason with
  | 0 =>
    if s.twin.handover.isSome || s.twin.yielding.isSome then .next (s.handoverRefused o 2)
    else .next (State.passed { s with twin := { s.twin with handover := some o } } o)
  | c => .next (s.handoverRefused o c)

/-- The station tick after an accepted handover: its conditions are looked at once more (04 R139). -/
def State.handoverTick (s : State) : State :=
  match s.twin.handover with
  | some o =>
    let s := { s with twin := { s.twin with handover := none } }
    match s.handoverReason with
    | 0 => s.yieldNow none o
    | c => s.handoverRefused o c
  | none => s

/-! State copy (04 R123-R125). -/

/-- A join is refused for a signature (04 R123). -/
def State.copyRefused (s : State) : State := s.joinGivenUp

/-- A program image from the LEAD comes into the inactive slot; the module runs it, and the slot becomes the active one at the join
(04 R123). (DEDUCED, log 40) -/
def State.copyProgram (s : State) (p : Program) : State :=
  if !(match p.signer with | some k => s.cfg.keyStore.imageKeys.contains k | none => false) then s.copyRefused
  else { s with cfg := { s.cfg with prog := some p, base := if s.cfg.joinProg then s.cfg.base else s.cfg.prog, joinProg := true, progOk := true }
                xch := { s.xch with reverse := none }, twin := { s.twin with peer := { s.twin.peer with prog := p.hash } } }

/-- Bytes of a task's committed image: a part of the full image, or the lines of one cycle (04 R124 steps 1 and 2). -/
def State.copyImage (s : State) (n : Nat) (k : DWord) (bytes : List (Nat × Byte)) (part : Option (Nat × Nat)) : State :=
  let t := s.task n
  match part with
  | some (off, len) =>
    let kept := List.filter (fun (e : Nat × Byte) => !(decide (off ≤ e.1) && decide (e.1 < off + len))) t.image
    let pct := s.copyPercent n (off + len)
    { s.setTask n ({ t with cycle := k, run := none, toApply := false }.setImage (Tbl.setAll 0#8 kept bytes)) with
      twin := { s.twin with phase := if 100 ≤ pct then 3 else 2, copyTask := n, percent := min 100 pct } }
  | none =>
    if t.cycle.toNat < k.toNat ∧ t.run.isNone then
      s.setTask n ({ t with cycle := k, run := none, toApply := false }.setImage (Tbl.setAll 0#8 t.image bytes))
    else s

/-- The sequential state of the LEAD (04 R124 step 3). (DEDUCED, log 44) -/
def State.copySeq (s : State) (axes : List (Fin 4 × Axis)) (journal : List (Fin 16 × JEntry)) (seqs : List (Nat × Word))
    (redSeq : List (Nat × Half)) (polls : List (Fin 6 × RxPoll)) (counts : List (Nat × Nat × Word)) : State :=
  let s := journal.foldl (fun s e => s.pnlMirror e.1 e.2) s
  let s := counts.foldl (fun s e => s.modTask e.1 (fun t => { t with consec := e.2.1, overruns := e.2.2 })) s
  { s with
    ax := axes.foldl (fun d e => d.set e.1 e.2) s.ax
    cfg := { s.cfg with units := polls.foldl (fun l e => Tbl.mod {} l (e.1.val + 1) (RxUnit.takePoll e.2)) s.cfg.units }
    net := { seqs.foldl (fun (d : NetBlk) e => d.modCtx e.1 (fun c => { c with seq := e.2 })) s.net with redSeq := Tbl.setAll 0#16 [] redSeq }
    twin := { s.twin with axDiff := false, phase := 4, percent := 100 } }

/-- Does a SHADOW take state copy frames now (04 R124)? -/
def State.copying (s : State) : Bool := s.twin.link == .catchingUp && s.twin.phase != 0

/-- A COPY frame to use (04 R123, R124, 05 R147, 16 R451). -/
def State.takeCopy (s : State) (m : CopyMsg) : State :=
  if !s.follows then s
  else match m with
    | .package p g =>
      if s.twin.link = .joined ∧ s.xch.cur.state = .idle then
        State.stageWhole { s with xch := s.xch.clear.write { state := .staging } } .partner p g
      else s
    | .config c =>
      if s.twin.link = .joined then s.judgeConfig c
      else if !s.copying then s
      else if !s.configSigned c then s.copyRefused
      else State.adoptConfig { s with twin := { s.twin with peer := { s.twin.peer with cfg := c.hash } } } c
    | .program p => if s.copying then s.copyProgram p else s
    | .image n k b w => if s.copying ∧ n < 32 then s.copyImage n k b w else s
    | .seqState ax j q r p c => if s.copying then s.copySeq ax j q r p c else s

/-- COPY (04 R123, R124, 05 R147, 16 R451). -/
def execCopy (f : OlviaHdr) (m : CopyMsg) (s : State) : Host.Outcome State Fault Refusal :=
  .next (s.onFrame f (fun s => s.takeCopy m))

/-- STATE_COPY_TIMEOUT (04 R125). -/
def execStateCopyTimeout (s : State) : Host.Outcome State Fault Refusal :=
  if s.twin.link = .catchingUp ∧ s.twin.phase ≠ 0 ∧ s.twin.copyNs + 60000000000 ≤ s.nowNs then
    .next (State.startCopy ({ s with twin := { s.twin with joinReason := 4 } }.setEvent .twin 8))
  else .next s

end Sys2Proof.Machine
end

