-- ==== Sys2Proof/Machine/Faults.lean ====
section
/-! DEFINITION. Machine/Faults.lean: presence contacts and the faults of the containment regions (00 R2, 01 R18-R22,
11 R341, R345, 12 R369). -/
namespace Sys2Proof.Machine

/-- SEAT_OPEN (00 R2, 04 R106): the module drives nothing outside, waits for no role and holds none until it has taken one anew.
(DEDUCED, log 42) -/
def execSeatOpen (s : State) : Host.Outcome State Fault Refusal :=
  if !s.twin.seated then .next s
  else
    let s := s.lanesDown
    let s := { s with
      twin := { s.twin with seated := false, ownLow := false, keeper := false, engaged := false, started := false, waiting := false
                            link := .severed, heard := none, phase := 0, yielding := none, split := none, openElig := none, isolated := true }
      dio := s.dio.engageAll false, aio := s.aio.faultReleaseAll }
    let s := s.axCold
    .next ((s.setSafe { s.safe with seated := false }).brakeAbortAll.pnlYielded.endFollow)

/-- PARTNER_SEAT_OPEN (01 R20, 04 R101, R111, R137). -/
def execPartnerSeatOpen (s : State) : Host.Outcome State Fault Refusal :=
  if !s.twin.partner then .next s
  else
    let elig := s.eligible
    let s := State.safePartnerGone { s with twin := { s.twin with partner := false } }
    let s := if s.twin.started && !s.twin.lost then s.losePartner elig else s
    .next s.lanesDown

/-- PARTNER_SEAT_CLOSE (01 R20, 04 R101): lane training may start. -/
def execPartnerSeatClose (s : State) : Host.Outcome State Fault Refusal :=
  let ready := fun (t : TwinBlk) (l : Nat) => t.setLane l { t.lane l with next := s.nowNs }
  .next { s with twin := ready (ready { s.twin with partner := true } 0) 1 }

/-- CYCLE_CONTROLLER_FAULT (01 R21, R22). -/
def execCycleControllerFault (s : State) : Host.Outcome State Fault Refusal := .next s.failModule

/-- TIME_UNIT_FAULT (01 R21, R22). -/
def execTimeUnitFault (s : State) : Host.Outcome State Fault Refusal := .next s.failModule

/-- RETAINED_STORE_UE (01 R21). -/
def execRetainedStoreUe (s : State) : Host.Outcome State Fault Refusal := .next s.failModule

/-- SV_FAULT (01 R22): host rings and network software pause, a LEAD yields. -/
def execSvFault (s : State) : Host.Outcome State Fault Refusal := .next (s.regionFault .sv)

/-- SV_RESTART_DONE (01 R22). (DEDUCED, log 43) -/
def execSvRestartDone (s : State) : Host.Outcome State Fault Refusal :=
  .next { s with twin := { s.twin with regions := s.twin.regions.filter (fun r => r != Region.sv) } }

/-- TWIN_UNIT_FAULT (01 R22). -/
def execTwinUnitFault (s : State) : Host.Outcome State Fault Refusal := .next s.twinUnitFault

/-- NETWORK_UNIT_FAULT (01 R22): the port pair is isolated, a LEAD yields. -/
def execNetworkUnitFault (pair : Fin 2) (s : State) : Host.Outcome State Fault Refusal :=
  .next (State.regionFault { s with net := { s.net with nodeFault := Tbl.set false s.net.nodeFault pair true } } .net)

/-- PANEL_UNIT_FAULT (12 R369), reported in any role (01 R22). -/
def execPanelUnitFault (s : State) : Host.Outcome State Fault Refusal := .next ((s.pnlUnitStop.report .pnl 8 noObj (s.pnl.status s.panelDriving)).regionFault .pnl)

/-- AXIS_BRIDGE_TEST_DONE (11 R341): on a LEAD, a failed test places the fault in the module's axis unit. -/
def execAxisBridgeTestDone (a : Fin 4) (pass : Bool) (s : State) : Host.Outcome State Fault Refusal :=
  let x := s.ax.get a
  if !pass && s.holdsToken && x.state == .faulted && (x.fault == 2 || x.fault == 3 || x.fault == 4) then .next (s.regionFault .ax)
  else .next s

/-- GATED_BRIDGE_TEST (11 R345, 04 R113): a pass ends what a failure began; with every bridge good the fault of the axis unit
has cleared (01 R22). -/
def execGatedBridgeTest (a : Fin 4) (pass : Bool) (s : State) : Host.Outcome State Fault Refusal :=
  if s.role ≠ .shadow then .next s
  else
    let s := { s with ax := s.ax.set a { s.ax.get a with bridgeBad := !pass } }
    let clear := pass && (List.finRange 4).all (fun b => !(s.ax.get b).bridgeBad)
    let s := if clear then { s with twin := { s.twin with regions := s.twin.regions.filter (fun r => r != Region.ax) } } else s
    if pass then .next s else .next (s.report .ax 12 a (s.ax.get a).status)

end Sys2Proof.Machine
end

