-- ==== Sys2Proof/Machine/Rec.lean ====
section
/-! DEFINITION. Machine/Rec.lean: writing records, hold-offs, quota windows, memory faults of the recorder and its start-up
(13 R373-R393). -/
namespace Sys2Proof.Machine

/-- The slots of the ember ring (13 R377). -/
def emberSlots : Nat := 262144

/-- The first slot of a good block from `slot` on, within `k` blocks (13 R377, R390). -/
def Recorder.goodSlot (r : Recorder) : Nat → Nat → Nat
  | 0, slot => slot
  | k + 1, slot => if r.emberGood slot then slot else Recorder.goodSlot r k ((slot / 128 + 1) * 128 % emberSlots)

/-- The record that a request becomes, under the next sequence number (13 R373, R375, R376, R386, R387). -/
def State.recordOf (s : State) (q : RecReq) : Record :=
  let n := s.recorder.head + 1#64
  { seq := n, time := q.time, cycle := q.cycle, originSeq := (match q.mirror with | some e => e.2 | none => n)
    side := (match q.mirror with | some e => e.1 | none => s.unitNo)
    source := BitVec.ofNat 8 q.source, code := BitVec.ofNat 16 q.code, peat := decide (n.toNat < 65536)
    mirrored := q.mirror.isSome, detail := q.detail, words := q.words }

/-- A record is written into the ember ring, and into the peat layer while its number is below 65 536; the peat layer is never
overwritten (13 R374-R377). (DEDUCED, log 73) -/
def Recorder.put (r : Recorder) (a : Record) : Recorder :=
  let p := r.goodSlot 2048 r.slot
  { r with head := a.seq, slot := (p + 1) % emberSlots, ember := Tbl.set {} r.ember p a
           peat := if a.peat && r.peat.all (fun e => e.1 != a.seq.toNat) then Tbl.insert a.seq.toNat a r.peat else r.peat }

/-- A request is written, with the event entry and the completion that waited for its number (13 R374, 14 R405, R413). -/
def State.writeReq (s : State) (q : RecReq) : State :=
  let a := s.recordOf q
  let s := { s with recorder := s.recorder.put a }
  let s := if q.entry then s.eventEntry { source := q.source, code := q.code, detail := q.detail, recSeq := a.seq } else s
  let s := s.setEventIf (a.seq == 0xFFFF#64) .recorder 6
  let s := s.setEventIf (q.source == 12 && q.code == 0x100) .recorder 4
  s.complete q.origin stOk 0 0#64 (Bits.bytes64 a.seq)

/-- The CAPTURE_OVERRUN records that are owed (13 R382). -/
def State.reportLost (s : State) : State :=
  let owed := s.recorder.trigs.filter (fun e => decide (0 < e.2.lost))
  let clear := fun (t : TrigState) => { t with lost := 0 }
  owed.foldl (fun s e =>
    State.note { s with recorder := { s.recorder with trigs := Tbl.mod {} s.recorder.trigs e.1 clear } } 12 0x102
      (BitVec.ofNat 64 (e.1 * 4294967296 + min e.2.lost 4294967295))) s

/-- The supervisor writes the record at the front of the queue. (DEDUCED, log 53) -/
def State.writeFront (s : State) : State :=
  match s.recorder.queue with
  | [] => s
  | q :: rest => State.writeReq { s with recorder := { s.recorder with queue := rest } } q

/-- RECORD_WRITE (13 R374, R382): not while the supervisor restarts (01 R22). (DEDUCED, log 53) -/
def execRecordWrite (s : State) : Host.Outcome State Fault Refusal :=
  if s.recorder.failed || s.svDown then .next s else .next s.reportLost.writeFront

/-- Has the hold-off of a trigger run out at TAI ns `now` (13 R381)? -/
def Recorder.heldOut (r : Recorder) (now n : Nat) : Bool :=
  let t := Tbl.get {} r.trigs n
  t.holding && decide (t.firedNs + (Tbl.get {} r.trigDefs n).holdoff * 1000000 ≤ now)

/-- HOLDOFF_EXPIRY (13 R381): once the trigger's HOLDOFF has elapsed since it fired. -/
def execHoldoffExpiry (n : Fin 256) (s : State) : Host.Outcome State Fault Refusal :=
  let f := fun (t : TrigState) => { t with holding := false }
  if !s.recorder.heldOut s.nowNs n then .next s
  else .next { s with recorder := { s.recorder with trigs := Tbl.mod {} s.recorder.trigs n f } }

/-- The trigger definitions of a configuration switch apply from the station tick after it; the hold-off of a definition
that changed is cleared (13 R379, R393). -/
def Recorder.takeDefs (r : Recorder) : Recorder :=
  match r.nextDefs with
  | none => r
  | some d =>
    let changed := fun (n : Nat) => Tbl.get {} d n != Tbl.get {} r.trigDefs n
    let trigs := Tbl.mapRange {} (fun n (t : TrigState) => if changed n then { t with holding := false } else t) r.trigs 0 256
    { r with trigDefs := d, nextDefs := none, trigs := trigs }

/-- Put a request before every request that was captured no earlier. -/
def enqueueFirst (q : RecReq) : List RecReq → List RecReq
  | [] => [q]
  | a :: l => if a.time.toNat < q.time.toNat then a :: enqueueFirst q l else q :: a :: l

/-- A SUPPRESSED record opens the window after refusals of a source; it is never refused (13 R384). -/
def State.suppressed (s : State) (src n : Nat) : State :=
  let q : RecReq := { source := 12, code := 0x100, time := s.tickStart, cycle := s.refCycle
                      detail := BitVec.ofNat 64 (src * 4294967296 + min n 4294967295) }
  { s with recorder := { s.recorder with use := Tbl.mod 0 s.recorder.use 12 (· + 1), queue := enqueueFirst q s.recorder.queue } }

/-- The quota window of TAI second `sec` opens: the counts of the last one end, with a record for each source that it refused
(13 R384). -/
def State.openWindow (s : State) (sec : Nat) : State :=
  let s1 := { s with recorder := { s.recorder with winSec := sec, use := [], refused := [] } }
  if s.recorder.failed then s1
  else s.recorder.refused.reverse.foldl (fun s e => s.suppressed e.1 e.2) s1

/-- QUOTA_WINDOW (13 R384): windows are aligned to TAI seconds, so one opens in a second that has none yet. -/
def execQuotaWindow (s : State) : Host.Outcome State Fault Refusal :=
  .next (if s.nowNs / 1000000000 = s.recorder.winSec then s else s.openWindow (s.nowNs / 1000000000))

/-- The recorder enters FAILED: what waits is not written, its entries still reach the host (13 R391); the hardware keeps the
captures that it holds (13 R382). (DEDUCED, log 98) -/
def State.recFail (s : State) : State :=
  if s.recorder.failed then s
  else
    let q := s.recorder.queue
    let kept := fun (q : RecReq) => q.source == 16 && q.origin == .self
    let s := { s with recorder := { s.recorder with failed := true, queue := q.filter kept } }.setEvent .recorder 2
    (q.filter (fun e => !kept e)).foldl (fun s q =>
      let s := if q.entry then s.eventEntry { source := q.source, code := q.code, detail := q.detail } else s
      s.finish q.origin stRefused 0) s

def RecArea.code : RecArea → Nat
  | .peat => 1 | .ember => 2 | .index => 3 | .bookkeeping => 4

/-- A block of the recorder partition is marked bad. -/
def Recorder.markBad (r : Recorder) (a : RecArea) (b : Nat) : Recorder :=
  { r with bad := if r.bad.contains (a, b) then r.bad else r.bad ++ [(a, b)]
           bookBad := if a == .bookkeeping && !r.bookBad.contains b then r.bookBad ++ [b] else r.bookBad }

/-- The peat block whose records lie in block `b` of the peat area: a spare, numbered from 512 on, holds those of the block it
stands for, and a block that a spare has replaced holds none. (DEDUCED, log 98) -/
def Recorder.peatBlock (r : Recorder) (b : Nat) : Option Nat :=
  if b < 512 then if r.spares.contains b then none else some b
  else match r.spares[b - 512]? with
    | none => none
    | some x => if (r.spares.drop (b - 511)).contains x then none else some x

/-- A bad peat block: a spare takes the records that can be read, a LOST record stands for each other; without a spare
they are lost (13 R390). -/
def Recorder.peatSpare (r : Recorder) (b : Nat) (readable : List Nat) (lost : Nat → Record) : Recorder :=
  match r.peatBlock b with
  | none => r
  | some b =>
    if 64 ≤ r.spares.length then
      { r with peatLost := if r.peatLost.contains b then r.peatLost else r.peatLost ++ [b]
               peat := r.peat.filter (fun e => e.1 / 128 != b) }
    else
      { r with spares := r.spares ++ [b]
               peat := List.map (fun (e : Nat × Record) =>
                 if e.1 / 128 == b && !readable.contains e.1 then (e.1, lost e.1) else e) r.peat }

/-- The LOST record that stands in for a peat record (13 R390, *Record codes without an event bit*); its TIME and CYCLE are
those of the replacement. (DEDUCED, log 98) -/
def State.lostRecord (s : State) (n : Nat) : Record :=
  { seq := BitVec.ofNat 64 n, time := s.tickStart, cycle := s.refCycle, originSeq := BitVec.ofNat 64 n, side := s.unitNo
    source := 12#8, code := 0x103#16, peat := true, lost := true }

/-- The request of a MEM_FAULT record (13 *Record codes without an event bit*). -/
def State.memReq (s : State) (d : DWord) : RecReq :=
  { source := 12, code := 0x101, time := s.tickStart, cycle := s.refCycle, detail := d }

/-- A memory fault enters the annex, which keeps the newest 64 entries (13 R392). -/
def Recorder.annexPut (r : Recorder) (e : Record) : Recorder :=
  if r.annexOk then
    { r with annex := (r.annex ++ [{ e with seq := BitVec.ofNat 64 r.annexTotal, peat := false }]).drop (r.annex.length - 63)
             annexTotal := r.annexTotal + 1 }
  else r

/-- A MEM_FAULT is recorded, or only told to the host, and mirrored to the partner (13 R384, R387, R391). -/
def State.memReport (s : State) (d : DWord) : State :=
  if s.recorder.failed || s.recorder.overQuota 12 then
    let s := if s.recorder.failed then s else { s with recorder := s.recorder.countRefusal 12 }.setEvent .recorder 3
    (s.olvia (.memFault s.unitNo 0xFFFFFFFFFFFFFFFF#64 d s.tickStart s.refCycle)).eventEntry { source := 12, code := 0x101, detail := d }
  else
    let s := s.olvia (.memFault s.unitNo (s.recorder.head + 1#64) d s.tickStart s.refCycle)
    State.writeReq { s with recorder := { s.recorder with use := Tbl.mod 0 s.recorder.use 12 (· + 1) } } { s.memReq d with entry := true }

/-- Is more of the ember ring bad than it can spare (13 R391)? -/
def Recorder.emberWorn (r : Recorder) : Bool := decide (512 < (r.bad.filter (fun e => e.1 == .ember)).length)

/-- Is the bookkeeping lost, or more of the ember ring bad than it can spare (13 R391)? -/
def Recorder.dead (r : Recorder) : Bool := decide (2 ≤ r.bookBad.length) || r.emberWorn

/-- The newest record, when it lies in block `b` of the ember ring: a failure of the verification after its write leaves it
to be written again (13 R374, R389 step 5). -/
def Recorder.newestIn (r : Recorder) (b : Nat) : Option Record :=
  (r.ember.find? (fun e => e.1 / 128 == b && e.2.seq == r.head)).map Prod.snd

/-- A record is written again into the next good slot, with the same sequence number (13 R389 step 5). -/
def Recorder.rewrite (r : Recorder) (a : Record) : Recorder :=
  let p := r.goodSlot 2048 r.slot
  { r with slot := (p + 1) % emberSlots, ember := Tbl.set {} r.ember p a }

/-- DETAIL of a MEM_FAULT record (13 *Record codes without an event bit*). -/
def memDetail (area : RecArea) (block : Nat) (verify : Bool) : DWord :=
  BitVec.ofNat 64 ((block % 65536) * 2 ^ 48 + area.code * 2 ^ 40 + (if verify then 2 else 1) * 2 ^ 32)

/-- MEM_FAULT (13 R387, R389-R392): `verify` is a write-verify failure, else an uncorrectable error; `readable` lists the
records of a peat block that can still be read. Annex first, then the partner and the host, then the ember ring, then the
record whose write failed. (DEDUCED, log 98) -/
def execMemFault (area : RecArea) (block : Nat) (verify : Bool) (readable : List Nat) (s : State) :
    Host.Outcome State Fault Refusal :=
  let d := memDetail area block verify
  let again := if verify && area == .ember then s.recorder.newestIn block else none
  let readable := if verify then s.recorder.head.toNat :: readable else readable
  let s := { s with recorder := s.recorder.markBad area block }.setEventIf (!s.recorder.bad.contains (area, block)) .recorder 1
  let s := { s with recorder := s.recorder.annexPut (s.recordOf (s.memReq d)) }
  let s := State.setEventN 3 s .recorder 0 false
  let s := if area = RecArea.peat ∧ !s.recorder.failed then { s with recorder := s.recorder.peatSpare block readable s.lostRecord } else s
  let s := (if s.recorder.dead then s.recFail else s).memReport d
  match again with
  | some a => .next (if s.recorder.failed then s else { s with recorder := s.recorder.rewrite a })
  | none => .next s

/-- The recorder at start-up (13 R388, R391): what was held was written on the hold-up; `bookA` and `bookB` say which
bookkeeping copy has a correct CRC-32C, `rebuilt` whether the index serves to rebuild them. Hold-offs and quota windows come
from the bookkeeping. Both copies hold the same head, since a record is written whole. (DEDUCED, log 98) -/
def Recorder.startUp (r : Recorder) (bookA bookB rebuilt : Bool) : Recorder :=
  let lost := r.failed || ((r.bookBad.contains 0 || !bookA) && (r.bookBad.contains 1 || !bookB))
  { head := r.head, slot := r.slot, ember := r.ember, peat := r.peat, peatLost := r.peatLost, bad := r.bad
    spares := r.spares, annex := r.annex, annexTotal := r.annexTotal, annexOk := r.annexOk
    failed := r.emberWorn || (lost && !rebuilt), bookBad := if lost && rebuilt then [] else r.bookBad
    winSec := r.winSec, use := if lost then [] else r.use, refused := if lost then [] else r.refused
    trigs := if lost then [] else Tbl.map {} (fun (t : TrigState) => { holding := t.holding, firedNs := t.firedNs }) r.trigs }

end Sys2Proof.Machine
end

