-- ==== Sys2Proof/Machine/Boot.lean ====
section
/-! DEFINITION. Machine/Boot.lean: supplies and temperature, the start-up from T_pu to READY, and first commissioning
(15 R440, 16 R444-R460, 17 R466-R469, 18 R480-R485). -/
namespace Sys2Proof.Machine

/-! Supplies and temperature. -/

/-- SUPPLY_LOST (15 R440): `b` is PS-B. -/
def execSupplyLost (b : Bool) (s : State) : Host.Outcome State Fault Refusal :=
  let p := if b then s.mod.psB else s.mod.psA
  if !p.ok then .next s
  else
    let m := if b then { s.mod with psB := { p with ok := false } } else { s.mod with psA := { p with ok := false } }
    let s := { s with mod := m }
    .next (s.recordEvent .mod (if b then 4 else 3) noObj (s.mod.reg 0))

/-- SUPPLY_BACK (15 R440, 18 R480): a powered module measures 17.0 V for 10 ms. -/
def execSupplyBack (b : Bool) (s : State) : Host.Outcome State Fault Refusal :=
  let p := if b then s.mod.psB else s.mod.psA
  if p.ok || s.mod.powered && decide (p.up < 1000) then .next s
  else
    let m := if b then { s.mod with psB := { p with ok := true } } else { s.mod with psA := { p with ok := true } }
    let s := { s with mod := m }
    .next (if s.mod.powered then s.recordEvent .mod 5 noObj (s.mod.reg 0) else s)

/-- THERMAL_WARN (15 R440, 18 R491): on once COLD_RAIL has stood above 72 °C for 1 s, off below 68 °C; the warning changes nothing
else. -/
def execThermalWarn (on : Bool) (s : State) : Host.Outcome State Fault Refusal :=
  if on = s.mod.warn || on && decide (s.mod.coldHot < 100000) || !on && decide (680 ≤ s.mod.coldRail) then .next s
  else
    let s := { s with mod := { s.mod with warn := on } }
    .next (if on then s.recordEvent .mod 7 noObj (s.mod.reg 0) else s)

/-- DIE_OVERTEMP (18 R485): DIE has stayed above 115 °C for 1 s. -/
def execDieOvertemp (s : State) : Host.Outcome State Fault Refusal :=
  .next (if s.mod.powered && decide (100000 ≤ s.mod.dieHot) then s.failModule else s)

/-! Power-up. -/

/-- What the retained store keeps of a task (02 R40-R47). -/
def TaskSt.retained (t : TaskSt) : TaskSt :=
  { bank := t.bank, imgA := t.imgA, imgB := t.imgB, staged := t.staged, rec0 := t.rec0, rec1 := t.rec1, recNext := t.recNext
    floor0 := t.floor0, floor1 := t.floor1, floorNext := t.floorNext, overruns := t.overruns, exchanged := t.exchanged && t.staged }

/-- What the control area and the image store keep of an exchange (05 R157, R158). -/
def XchBlk.retained (x : XchBlk) : XchBlk :=
  let y : XchBlk := { cur := x.cur, old := x.old, len := x.len, total := x.total, pkg := x.pkg, signer := x.signer
                      stage := x.stage, finals := x.finals, cfgDone := x.cfgDone, switched := x.switched, reverse := x.reverse
                      completes := x.completes, txNs := if x.cur.state == .switching || x.cur.state == .settling then some 0 else none }
  if x.cur.state = .staging then y.clear.write {} else y

/-- What the image store keeps (16 R443). An image received in a state copy that never joined is not the active one (04 R123). -/
def CfgBlk.retained (c : CfgBlk) : CfgBlk :=
  { slotLoaded := c.slotLoaded, slotA := c.slotA, slotB := c.slotB, keys0 := c.keys0, keys1 := c.keys1, prog := if c.joinProg then c.base else c.prog
    progB := c.progB, base := if c.joinProg then c.prog else c.base, firmA := c.firmA, firmB := c.firmB, firmOnB := c.firmOnB, safeA := c.safeA
    safeB := c.safeB, safeOnB := c.safeOnB, marker := c.marker, commCnt := c.commCnt }

/-- The commits whose record write had begun are completed on the hold-up, and the records held are written (02 R45,
13 R388). (DEDUCED, log 54) -/
def State.finishHoldup (s : State) : State :=
  let s := (List.range 32).foldl (fun (s : State) n =>
    match (s.task n).run with
    | some r => match r.tc with | some tc => s.commit n r tc | none => s
    | none => s) s
  if s.recorder.failed then s else s.recorder.queue.foldl (fun s _ => s.writeFront) s

/-- The latched diagnostics of the safety outputs end with the restart (10 R315). -/
def Safe.restart (x : Safe) : Safe :=
  if x.cellPower then { x with laneP := false, pFaultNs := none, so := Tbl.map {} (fun (o : So) => { o with active := [], lastDiag := none, faultNs := none, expired := false, escal := false, ovlNs := none, onNs := none, xtlPasses := 0 }) x.so }
  else { cellPower := true, seated := x.seated, armed := x.armed, xtlIn := x.xtlIn }

/-- The module at T_pu: what is kept through the loss of power, and reset values for the rest. An engine that fails its power-up
self-test is RETIRED. (DEDUCED, log 54) (DESIGN CHOICE, log 85) -/
def State.powerUp (s : State) (psA psB romOk bookA bookB rebuilt : Bool) (failing : List (Fin 16)) : State :=
  let engines := failing.foldl (fun (t : Tbl Engine) (e : Fin 16) => Tbl.set {} t e.val { state := .retired }) []
  { mod := { revision := s.mod.revision, fwRelease := s.mod.fwRelease, serial := s.mod.serial, psA := { ok := psA }
             psB := { ok := psB }, powered := true }
    mnt := { attached := s.mnt.attached, romVer := s.mnt.romVer, romOk := romOk, bootCnt := Bits.inc s.mnt.bootCnt }
    recorder := s.recorder.startUp bookA bookB rebuilt
    safe := s.safe.restart
    ax := AxBlk.mapAll { ax := Tbl.map {} (fun (x : Axis) => { savedSeq := x.savedSeq, savedPos := x.savedPos }) s.ax.ax } Axis.resume
    pnl := { current := s.pnl.current, target := s.pnl.target, pg := s.pnl.pg
             slots := Tbl.map {} (fun (x : PSlot) => { cur := x.cur, old := x.old }) s.pnl.slots }
    cyc := { resumeCnt := s.cyc.resumeCnt, tasks := Tbl.map {} TaskSt.retained s.cyc.tasks }
    fab := { engines := engines }
    twin := { slotB := s.twin.slotB, seated := s.twin.seated, partner := s.twin.partner, partnerLow := s.twin.partnerLow, high1us := s.twin.high1us }
    xch := s.xch.retained
    cfg := s.cfg.retained
    free := s.free, pending := s.pending }

/-- POWER_UP (16 R444, 13 R388, 10 R315): `torn` says that a torn slot follows the head of the recorder, `bookA` and
`bookB` that a bookkeeping copy has a correct CRC, `rebuilt` that the recorder can rebuild its bookkeeping from the index, `failing` lists the engines that fail their power-up self-test. -/
def execPowerUp (psA psB romOk torn bookA bookB rebuilt : Bool) (failing : List (Fin 16)) (s : State) : Host.Outcome State Fault Refusal :=
  if s.mod.powered || !(psA || psB) then .next s
  else
    let was := s.recorder.failed
    let s := (s.finishHoldup.powerUp psA psB romOk bookA bookB rebuilt failing).setEventIf torn .recorder 7
    .next ((s.setEventIf s.fab.reserveLost .fab 3).setEventIf (s.recorder.failed && !was) .recorder 2)

/-- Does a firmware slot verify (16 R446)? -/
def firmOk (f : Option FirmObj) (intact : Bool) : Bool := intact && match f with | some x => x.ok | none => false

/-- FIRMWARE_VERIFIED (16 R444, R446, 17 R466): with no slot that verifies the module stays in the Kindling ROM. -/
def execFirmwareVerified (okA okB : Bool) (s : State) : Host.Outcome State Fault Refusal :=
  if !s.mod.powered || s.cfg.phase != .rom then .next s
  else
    let a := firmOk s.cfg.firmA okA
    let b := firmOk s.cfg.firmB okB
    let own := if s.cfg.firmOnB then b else a
    let other := if s.cfg.firmOnB then a else b
    let s := s.setEventIf (!own) .cfg 2
    if !own && !other then .next s
    else
      let onB := if own then s.cfg.firmOnB else !s.cfg.firmOnB
      let rel := match if onB then s.cfg.firmB else s.cfg.firmA with | some f => f.release | none => s.mod.fwRelease
      let s := State.setEventIf { s with cfg := { s.cfg with firmOnB := onB, phase := .verify }, mod := { s.mod with fwRelease := rel } } (!own) .cfg 3
      .next (s.note 0 0x100 (rel ++ BitVec.ofNat 32 s.mnt.romVer))

/-! The objects. -/

/-- A configuration slot as start-up finds it (16 R447, R448). (DEDUCED, log 55) -/
def State.slotFound (s : State) (q : CfgSlot) (intact : Bool) : CfgSlot :=
  match q.body with
  | none => if q.use = .empty then q else { q with header := false, use := .badCrc }
  | some c =>
    if !intact then { q with body := none, header := false, use := .badCrc }
    else if !q.header then { q with use := .badCrc }
    else if !s.configSigned c then { q with use := .badSignature }
    else { q with use := .valid }

def SlotUse.bad (u : SlotUse) : Bool := u == .badCrc || u == .badSignature

/-- Does an object verify against the image keys (16 R446)? -/
def State.imageKey (s : State) (k : Option Nat) : Bool :=
  match k with
  | some k => s.cfg.keyStore.imageKeys.contains k
  | none => false

/-- The program image is verified (16 R446, 03 R69, R70). -/
def State.verifyProg (s : State) (intact : Bool) : State :=
  match s.cfg.prog with
  | none => s
  | some p =>
    let ok := intact && s.imageKey p.signer && p.structureOk
    State.setEventIf { s with cfg := { s.cfg with progOk := ok } } (!ok) .cfg 2

/-- The checks of the image that need the configuration (07 R203). -/
def State.checkStreams (s : State) : State :=
  match s.cfg.prog with
  | none => s
  | some p =>
    let bad := s.cfg.progOk && s.cfg.loaded && !(p.streamsOk s.cfg.cur && p.brakeOk s.safe.brakeCtxs)
    State.setEventIf { s with cfg := { s.cfg with progOk := s.cfg.progOk && !bad } } bad .cfg 2

/-- The safety configuration is verified; a module with no active one takes its verified slot (16 R446, 17 R469). -/
def State.verifySafe (s : State) (okA okB : Bool) : State :=
  let good := fun (o : Option SafetyObj) (i : Bool) => i && match o with | some x => s.imageKey x.signer && !x.bad | none => false
  let a := good s.cfg.safeA okA
  let b := good s.cfg.safeB okB
  let seq : Option SafetyObj → Nat := fun o => match o with | some x => x.seq | none => 0
  let active := (if s.cfg.safeOnB then s.cfg.safeB else s.cfg.safeA).isSome
  let onB := if active then s.cfg.safeOnB else if a && b then decide (seq s.cfg.safeA < seq s.cfg.safeB) else b
  let ok := if onB then b else a
  let s := State.setEventIf { s with cfg := { s.cfg with safeOnB := onB, safeOk := ok } } (active && !ok) .cfg 2
  let o := if onB then s.cfg.safeB else s.cfg.safeA
  match o with
  | some x =>
    if ok then s.setSafe (s.safe.take x)
    else s.setSafe { s.safe with pairs := [], fns := [], laneH := {}, id := 0#64, idOk := false, laneHOk := false }
  | none => s.setSafe { s.safe with pairs := [], fns := [], laneH := {}, id := 0#64, idOk := false, laneHOk := false }

/-! First commissioning (16 R459, R460). -/

/-- A task as first commissioning leaves it: its initial image at cycle 0, the cycle floor record with 0 (02 R43, R47). -/
def TaskSt.commissioned (t : TaskSt) (p : TaskProg) : TaskSt :=
  TaskSt.setImage { limits := t.limits, floor0 := some 0#64, floorNext := true, stopDue := true, overruns := t.overruns } (Tbl.setAll 0#8 [] p.init)

/-- The exchange areas of a program before any write. -/
def Program.startAreas (p : Program) : Tbl AreaSt :=
  (p.areas.filter (fun e => !e.2.read)).foldl (fun st e => Tbl.set {} st e.1 e.2.start) []

/-- Steps 1 and 2: the program partition and the exchange record are cleared, the initial images written.
(DEDUCED, log 56) -/
def State.clearPartition (s : State) : State :=
  let prog := s.cfg.prog.getD {}
  let x := s.xch.drop.clear.write {}
  { s with
    xch := { x with old := {} }
    cyc := { s.cyc with tasks := (List.range 32).foldl (fun t n => Tbl.set {} t n ((s.task n).commissioned (Tbl.get {} prog.tasks n))) []
                        areas := prog.startAreas, pends := [], steps := [], bps := [], mode := .stop, target := .stop }
    ax := s.ax.mapAll (fun x => { Axis.cold { x with pos := 0, x := 0, lastSeq := 0#32, savedSeq := 0#32, savedPos := 0 } with homed := false }) }

/-- Is COMMISSION accepted (16 R459)? -/
def State.commissionOk (s : State) : Bool :=
  s.cyc.mode == .stop && s.cyc.target == .stop && s.twin.link == .severed && s.cfg.loaded && s.cfg.marker.isNone
    && match s.cfg.armed with | some t => decide (s.nowNs ≤ t + 10000000000) | none => false

/-- COMMISSION of CFG_CMD. -/
def State.commission (s : State) : State :=
  if s.commissionOk then
    State.clearPartition (State.pnlComplete { s with cfg := { s.cfg with marker := some (s.cfg.slotLoaded, s.cfg.active.seq) } })
  else s.setEvent .cfg 11

/-- COMMISSION (16 R459, R460). (DEDUCED, log 56) -/
def execCommission (s : State) : Host.Outcome State Fault Refusal := .next s.commission

/-- COMMISSION_DONE (16 R460): steps 3 to 6. (DEDUCED, log 56) -/
def execCommissionDone (s : State) : Host.Outcome State Fault Refusal :=
  if s.cfg.marker.isNone || !s.cfg.loaded then .next s
  else
    let n := Bits.inc s.cfg.commCnt
    let s := { s with
      cfg := { s.cfg with keys0 := some s.cfg.cur.keys, keys1 := some s.cfg.cur.keys, keyBad0 := false, keyBad1 := false
                          marker := none, armed := none, commCnt := n }
      cyc := { s.cyc with resumeCnt := 0#32, tasks := Tbl.map {} (fun t => { t with overruns := 0#32 }) s.cyc.tasks }
      xch := { s.xch with completes := 0#32 }
      recorder := { s.recorder with annexTotal := 0 }
      pnl := { s.pnl with slots := s.pnl.slots.filter (fun e => match e.2.cur with | some j => j.active | none => false) } }
    .next ((s.note 0 0x102 (n.setWidth 64)).setEvent .cfg 10)

/-- COMMISSION_ARM_EXPIRY (16 R459): 10 s after ARM was accepted; the register keeps its value (15 R429). -/
def execCommissionArmExpiry (s : State) : Host.Outcome State Fault Refusal :=
  match s.cfg.armed with
  | some t => .next (if t + 10000000000 ≤ s.nowNs then { s with cfg := { s.cfg with armed := none } } else s)
  | none => .next s

/-- The chosen configuration comes into force at start-up; a marker makes first commissioning repeat (16 R447, R460). -/
def State.chooseConfig (s : State) : State :=
  let a := s.cfg.slotA.use == .valid
  let b := s.cfg.slotB.use == .valid
  let named := match s.cfg.marker with
    | some (onB, q) => some (onB, if onB then b && s.cfg.slotB.seq == q else a && s.cfg.slotA.seq == q)
    | none => none
  let pick := match named with
    | some (onB, true) => some onB
    | some (_, false) => none
    | none => if a && b then some (decide (s.cfg.slotA.seq.toNat < s.cfg.slotB.seq.toNat)) else if a then some false else if b then some true else none
  match pick with
  | none =>
    let s := if named.isSome then State.clearPartition { s with cfg := { s.cfg with marker := none } } else s
    { s with cfg := { s.cfg with phase := .noConfig } }.setEvent .cfg 4
  | some onB =>
    let q := if onB then s.cfg.slotB else s.cfg.slotA
    let c := q.body.getD {}
    let cfg := if onB then { s.cfg with slotLoaded := true, slotB := { q with use := .active } }
      else { s.cfg with slotLoaded := false, slotA := { q with use := .active } }
    let s := State.loadConfig { s with cfg := cfg } c true
    let s := { s with pnl := s.pnl.startUp }
    if named.isSome then State.clearPartition { s with cfg := { s.cfg with fresh := true } } else s

/-- A slot of a task's commit records or of its cycle floor record reads back with a wrong CRC (02 R42, R47). -/
def TaskSt.recordBad (second : Bool) (t : TaskSt) : TaskSt :=
  let f := fun (r : CommitRec) => { r with crc := ~~~r.crc }
  if second then { t with rec1 := t.rec1.map f } else { t with rec0 := t.rec0.map f }
def TaskSt.floorBad (second : Bool) (t : TaskSt) : TaskSt := if second then { t with floor1 := none } else { t with floor0 := none }

/-- OBJECTS_VERIFIED (16 R444-R448, R460, 17 R469, 02 R42). -/
def execObjectsVerified (i : Intact) (s : State) : Host.Outcome State Fault Refusal :=
  if s.cfg.phase != .verify || s.cfg.loaded then .next s
  else
    let s := { s with cfg := { s.cfg with keyBad0 := !i.key0, keyBad1 := !i.key1 } }
    let s := i.floors.foldl (fun s e => s.modTask e.1 (TaskSt.floorBad e.2)) (i.records.foldl (fun s e => s.modTask e.1 (TaskSt.recordBad e.2)) s)
    let s := i.journal.foldl (fun (s : State) (k : Fin 16) => { s with pnl := s.pnl.setSlot k.val (s.pnl.slot k.val).torn }) s
    let s := if i.xch then s else { s with xch := { s.xch with cur := s.xch.old } }
    let a := s.slotFound s.cfg.slotA i.cfgA
    let b := s.slotFound s.cfg.slotB i.cfgB
    let s := State.setEventIf { s with cfg := { s.cfg with slotA := a, slotB := b } } (a.use.bad || b.use.bad) .cfg 2
    .next (((s.verifyProg i.prog).verifySafe i.safeA i.safeB).chooseConfig).checkStreams

/-- The safety cell as the start of its lanes finds it (10 R292, R305): `ok` says that the safety configuration verified.
(DEDUCED, log 52) -/
def Safe.lanesFresh (x : Safe) (ok : Bool) : Safe :=
  let y := { x with laneHOk := ok && x.cellPower }
  let y := (List.range 16).foldl (fun x p => x.modSip p SipPair.freshH) y
  (List.range 8).foldl (fun x n => x.modSo n So.freshH) y

/-- LANES_START (16 R444, R453, 06 R170, 10 R292, R305): lane H starts only on a verified safety configuration.
(DEDUCED, log 52) -/
def execLanesStart (energised : BitVec 8) (s : State) : Host.Outcome State Fault Refusal :=
  let go := (s.cfg.phase == .verify && s.cfg.loaded && s.cfg.marker.isNone) || s.cfg.phase == .noConfig
  if !go || s.cfg.lanes then .next s
  else
    let s := (s.setSafe (s.safe.lanesFresh s.cfg.safeOk)).lanePStart energised
    let s := s.reportIf (!s.cfg.safeOk) .safe 14 noObj 0#32
    .next { s with time := s.time.setTotal 0
                   cfg := { s.cfg with lanes := true, searchAt := s.mod.uptime, phase := if s.cfg.phase == .verify then .twinSearch else s.cfg.phase } }

/-! The starting role (04 R114, 02 R48). -/

/-- TC of the newest valid commit record, as seconds and ns. -/
def State.newestCommit (s : State) : Option (Nat × Nat) :=
  s.cyc.tasks.foldl (fun (b : Option (Nat × Nat)) e =>
    match e.2.record, b with
    | some r, some (x, y) => if x < r.sec.toNat ∨ (x = r.sec.toNat ∧ y < r.ns.toNat) then some (r.sec.toNat, r.ns.toNat) else b
    | some r, none => some (r.sec.toNat, r.ns.toNat)
    | none, _ => b) none

/-- Does this module's image continue after a joint start: the later TC, slot A when equal (02 R48, 16 R453)? -/
def State.imageContinues (s : State) : Bool :=
  match s.newestCommit, s.twin.peer.newest with
  | some (a, b), some (x, y) => decide (x < a) || (x == a && decide (y < b)) || (x == a && y == b && !s.twin.slotB)
  | some _, none => true
  | none, some _ => false
  | none, none => !s.twin.slotB

/-- The phase after the role is taken during a start-up. -/
def Phase.afterRole (p : Phase) (lead : Bool) : Phase := if p == .twinSearch then (if lead then .rick else .time) else p

/-- The module pulls its role line; a module that is READY engages its stages. (DEDUCED, log 57) -/
def State.becomeLead (s : State) : State :=
  let s := { s with
    twin := { s.twin with started := true, began := true, waiting := false, isolated := false, ownLow := true, keeper := true, engaged := s.mod.ready }
    cfg := { s.cfg with phase := s.cfg.phase.afterRole true } }
  let s := if s.mod.ready then s.engageFree else s
  if s.twin.linkUp && s.twin.seated && s.twin.partner then s.joinCheck else s

/-- The module becomes SHADOW: isolated until the link comes up. (DEDUCED, log 57) -/
def State.becomeShadow (s : State) : State :=
  let up := s.twin.linkUp && s.twin.seated && s.twin.partner
  let s := { s with
    twin := { s.twin with started := true, began := true, waiting := false, isolated := true, ownLow := false, keeper := false, engaged := false }
    cfg := { s.cfg with phase := s.cfg.phase.afterRole false } }
  if up then s.joinCheck else s

/-- The row of *Starting role* that matches (04 R114). (DEDUCED, log 42) (DEDUCED, log 57) -/
def State.takeRole (s : State) : State :=
  let wait := { s with twin := { s.twin with waiting := true, waitAt := s.mod.uptime } }
  if !s.twin.partner then wait
  else if s.twin.partnerLow ∨ !s.twin.high1us then s.becomeShadow
  else if s.twin.linkUp then (if s.imageContinues then s.becomeLead else s.becomeShadow)
  else wait

/-- Has twin search ended: the link is up, the partner holds its role line, it is not seated, or TWIN_WAIT has expired (16 R453)? -/
def State.searchOver (s : State) : Bool :=
  s.twin.linkUp || s.twin.partnerLow || !s.twin.partner || decide (s.cfg.searchAt + s.cfg.cur.twinWait * 10000 ≤ s.mod.uptime)

/-- TWIN_SEARCH_END (16 R453, 04 R114). -/
def execTwinSearchEnd (s : State) : Host.Outcome State Fault Refusal :=
  if s.cfg.phase != .twinSearch || s.twin.started || s.twin.waiting || !s.twin.seated || !s.searchOver then .next s else .next s.takeRole

/-- STARTING_ROLE_WAIT (04 R114): after 100 µs in slot A, 1 ms in slot B; an unseated module takes no role (01 R18), and one whose twin unit has failed pulls no line
(01 R21, 04 R106). -/
def execStartingRoleWait (s : State) : Host.Outcome State Fault Refusal :=
  if !s.twin.waiting || s.twin.started || s.mod.failed || !s.twin.seated
      || decide (s.mod.uptime < s.twin.waitAt + (if s.twin.slotB then 100 else 10)) then .next s
  else if s.twin.partnerLow ∨ !s.twin.high1us ∨ s.twin.regions.contains Region.twin then .next s.becomeShadow
  else .next s.becomeLead

/-- SEAT_CLOSE (01 R18): SLOT_ID has been stable for 10 ms with the module's own contact closed. A module that had taken a
role and lost it with its seat takes one anew. (DEDUCED, log 42) -/
def execSeatClose (slotB : Bool) (s : State) : Host.Outcome State Fault Refusal :=
  let s := State.setSafe { s with twin := { s.twin with seated := true, slotB := slotB } } { s.safe with seated := true }
  .next (if s.twin.began && !s.mod.failed && !s.twin.started && !s.twin.waiting then s.takeRole else s)

/-! Time and resume. -/

/-- SYNC_WAIT_EXPIRY (06 R170): SYNC_WAIT has passed with no grandmaster heard; time starts after the last commit, by the time spent
waiting. -/
def execSyncWaitExpiry (s : State) : Host.Outcome State Fault Refusal :=
  if !s.cfg.lanes || s.cfg.settled || s.time.disc != .freeRun || decide (s.time.total < Bits.get s.time.cfg 0 8 * 1000000000) then .next s
  else
    let last := match s.newestCommit with | some (a, b) => a * 1000000000 + b | none => 0
    .next { s with time := s.time.setTotal (last + s.time.total), cfg := { s.cfg with settled := true } }

/-- Is the time source settled (16 R444)? In FOLLOW, when the LEAD's is. -/
def State.timeSettled (s : State) : Bool :=
  if s.time.disc = .follow then (match s.twin.heard with | some h => h.settled | none => false) else s.cfg.settled

/-- A task resumes from its valid commit record, or from its initial image (02 R47). -/
def State.resumeTask (s : State) (n : Nat) (run : Bool) : State :=
  let t := s.task n
  let t := { t with mode := if run then .run else .stop, toApply := run, stopDue := !run, resumed := true, freeRun := s.time.disc == Discipline.freeRun
                    gone := match s.cfg.prog with | some p => !p.tasks.any (fun e => e.1 == n) | none => false }
  match t.record with
  | some r =>
    s.setTask n (TaskSt.setImage { t with bank := r.bank, cycle := r.cycle, resumeTc := some (r.sec.toNat * 1000000000 + r.ns.toNat) }
      (if r.bank then t.imgB else t.imgA))
  | none =>
    let t := { t with cycle := t.floor + 0x10000#64 }
    (s.setTask n (t.setImage (Tbl.setAll 0#8 [] (s.oldTask n).init))).setEvent .cyc 9

/-- An exchange that the loss of power met (05 R158). -/
def State.resumeXch (s : State) : State :=
  match s.xch.cur.state, s.xch.pkg with
  | .armed, _ => s.xchAbort 0x14
  | .switching, some p =>
    let s := s.setEvent .xch 9
    let left := (s.exchangeTasks p).filter (fun n => !Bits.bit s.xch.switched n)
    (left.foldl (fun s n => s.carry p n (if s.xch.cur.inStop && s.xch.cur.carried then Tbl.get [] s.xch.stage n else p.carryTask s.oldImage n)) s).settle p
  | _, _ => s

/-- Warm resume without a running partner (02 R47): RUN needs a valid image and its proof (02 R52, 03 R87). RESUMED is set here,
RESUMING lasts to the first T0 of any task. (DESIGN CHOICE, log 81) -/
def State.warmResume (s : State) : State :=
  let want := Bits.bit s.cfg.cur.cyc 0 && !s.xch.cur.inStop
  let why := s.runReason
  let run := want && why == 0
  let m : ProgMode := if run then .run else .stop
  let s := { s with cyc := { s.cyc with mode := m, target := m, resuming := true, resumeCnt := Bits.inc s.cyc.resumeCnt
                                        areas := (s.cfg.prog.getD {}).startAreas } }
  let s := s.configuredTasks.foldl (fun s n => s.resumeTask n run) s
  let s := if want && !run then
      { s with cyc := { s.cyc with refuseCnt := Bits.inc s.cyc.refuseCnt } }.setEvent .cyc 5 else s
  let s := s.setEventIf (why == 3) .fab 10
  (s.setEvent .cyc 4).resumeXch

/-- READY (16 R444, R445): a module that acts for the station engages its stages, a LEAD starts the state copy. -/
def State.becomeReady (s : State) : State :=
  let s := { s with mod := { s.mod with ready := true }, cfg := { s.cfg with phase := .ready, settled := true } }.setEvent .cfg 13
  if s.holdsToken then
    let s := State.engageFree { s with twin := { s.twin with engaged := true } }
    if s.twin.link = .catchingUp then s.startCopy else s
  else s

/-- TIME_SOURCE_SETTLED (16 R444, 02 R47, R48): a LEAD, a SOLO and an isolated SHADOW resume; a SHADOW copies. An exchange that was
armed is aborted in any role (05 R158). -/
def execTimeSourceSettled (s : State) : Host.Outcome State Fault Refusal :=
  if s.cfg.phase != .time || !s.twin.started || !s.timeSettled then .next s
  else
    let s := if (s.holdsToken || s.twin.link == .severed) && !s.cfg.fresh then s.warmResume
      else if s.xch.cur.state = .armed then s.xchAbort 0x14 else s
    .next s.becomeReady

/-! Module firmware. -/

/-- The whole module restarts: it starts up from what it keeps, with its supplies as they are (17 R465). (DEDUCED, log 60) -/
def State.restart (s : State) : State :=
  let s := { s with ax := s.ax.mapAll (Axis.save s.nowNs) }.finishHoldup
  s.powerUp s.mod.psA.ok s.mod.psB.ok s.mnt.romOk true true true []

/-- ACTIVATE_FW_MODULE (17 R464, R465, 16 R446): in the Kindling ROM, with no firmware that verifies, it makes the slot that
was written the active one. A release of another line, in STOP, is taken in any role by a restart of the whole module.
(DEDUCED, log 60) -/
def execActivateFwModule (o : Origin) (s : State) : Host.Outcome State Fault Refusal :=
  match s.cfg.idleFirm with
  | none => .next (s.finish o stRefused 1)
  | some f =>
    let other := decide (f.line ≠ Bits.get s.mod.fwRelease 24 8)
    if !f.ok then .next (s.finish o stRefused 1)
    else if s.cfg.phase = .rom then .next (State.finish { s with cfg := { s.cfg with firmOnB := !s.cfg.firmOnB } } o stOk 0)
    else if other ∧ s.cyc.mode ≠ .stop then .next (s.finish o stRefused 2)
    else if !(List.range 16).all (fun e => (s.fab.engine e).fw == .updated) then .next (s.finish o stRefused 4)
    else if !other && !(s.follows && s.twin.link == .joined) then .next (s.finish o stRefused 5)
    else if s.exchangeArmed then .next (s.finish o stRefused 6)
    else if other then .next (State.restart { s with cfg := { s.cfg with firmOnB := !s.cfg.firmOnB } })
    else
      let s := State.passed { s with cfg := { s.cfg with fwOrg := some o, fwWait := true } } o
      .next (if s.configuredTasks.isEmpty then s.fwRestart else s)

end Sys2Proof.Machine
end

