-- ==== Sys2Proof/Machine/Operands.lean ====
section
/-! DEFINITION. Machine/Operands.lean: the operand form of a command: the submission descriptor, and which opcodes the rings
before READY and the maintenance port take (14 R404, R405, 15 R441, 16 R445). -/
namespace Sys2Proof.Machine

/-- Is the opcode listed in *Opcodes*? (DEDUCED, log 61) -/
def descListed (d : Desc) : Bool := decide (d.opcode.toNat ≤ 0x12)

/-- Does the command read or write a data buffer? -/
def descBuffered (d : Desc) : Bool :=
  match d.opcode.toNat with
  | 0x05 => true
  | 0x0A => true
  | 0x0C => true
  | 0x0D => true
  | 0x0E => true
  | 0x0F => Bits.leAt d.params 8 1 != 0
  | 0x12 => Bits.leAt d.params 2 1 == 1
  | _ => false

/-- The bits of byte `i` of PARAMS that an opcode uses (14 *Opcodes*); the others are reserved. -/
def paramMask (opcode i : Nat) : Nat :=
  let upTo := fun (n : Nat) => if i < n then 255 else 0
  match opcode with
  | 0x01 => upTo 8
  | 0x02 => upTo 1
  | 0x04 => if i = 1 then 15 else upTo 9
  | 0x05 => if i = 16 then 3 else upTo 16
  | 0x06 => if i = 0 then 255 else if 8 ≤ i then upTo 16 else 0
  | 0x0A => if i = 16 then 3 else upTo 18
  | 0x0B => upTo 2
  | 0x0C | 0x11 => if i = 1 then 0 else upTo 4
  | 0x0D | 0x10 => upTo 1
  | 0x0E => if i = 10 then 3 else upTo 10
  | 0x0F => upTo 9
  | 0x12 => upTo 16
  | _ => 0

/-- Are the reserved bytes of PARAMS 0 (14 R404)? -/
def paramsOk (d : Desc) : Bool :=
  (List.range 40).all (fun i => Nat.land ((d.params.getD i 0#8).toNat) (255 - paramMask d.opcode.toNat i) == 0)

/-- Are the fields that every descriptor has in range (14 R404)? (DEDUCED, log 61) -/
def descOk (d : Desc) : Bool :=
  !d.reserved && paramsOk d && d.dataAddr.toNat % 4 == 0 && d.dataLen % 4 == 0 && decide (d.dataLen ≤ 1048576)
    && (descBuffered d || d.dataLen == 0 && d.dataAddr == 0#64)

/-- The words of a list of bytes. -/
def wordsOf (bs : List Byte) (n : Nat) : List Word := (List.range n).map (fun i => BitVec.ofNat 32 (Bits.leAt bs (4 * i) 4))

/-- May a descriptor be taken before READY (16 R445)? -/
def earlyOpcode (d : Desc) : Bool :=
  match d.opcode.toNat with
  | 0x00 => true
  | 0x0A => true
  | 0x0B => Bits.leAt d.params 0 1 == 1
  | 0x0E => true
  | _ => false

/-- The opcodes that a COMMAND message may carry (15 R441). -/
def mntOpcodes : List Nat := [0x01, 0x03, 0x05, 0x06, 0x07, 0x08, 0x09, 0x0A, 0x0B, 0x0E, 0x0F, 0x10, 0x11]

end Sys2Proof.Machine
end

