-- ==== Sys2Proof/Machine/Rick.lean ====
section
/-! DEFINITION. Machine/Rick.lean: the rick links: enumeration, authentication, polls, replies, acknowledgements and the loss
and return of RX units (02 R58-R62, 16 R454-R458). -/
namespace Sys2Proof.Machine

/-- An unanswered enumeration of a unit is forgotten when a new one starts. -/
def RxUnit.unseen (x : RxUnit) : RxUnit := { x with seen := false }

/-- ENUM is sent from both ends and IDENT frames are collected for 1 ms (16 R455). (DEDUCED, log 58) -/
def State.enumerate (s : State) (cmd : Bool) : State :=
  let c := { s.cfg with collecting := true, enumAt := some s.mod.uptime, enumCmd := s.cfg.enumCmd || cmd, enumCnt := Bits.inc s.cfg.enumCnt
                        units := Tbl.map {} RxUnit.unseen s.cfg.units }
  State.rickSend { s with cfg := c } .enum

/-- May the module enumerate: a LEAD or SOLO whose start-up has come so far (16 R455)? -/
def State.enumerates (s : State) : Bool :=
  s.holdsToken && s.twin.started && !s.mod.failed
    && (s.cfg.phase == .rick || s.cfg.phase == .time || s.cfg.phase == .resume || s.cfg.phase == .ready)

/-- Have `n` ticks passed since an instant, or was there none? -/
def State.elapsed (s : State) (at' : Option Nat) (n : Nat) : Bool :=
  match at' with
  | some t => decide (t + n ≤ s.mod.uptime)
  | none => true

/-- Is an enumeration of the module's own due (16 R455): at the end of twin search, and every 10 s while the rick is REFUSED or a
unit is not ON_LINE? -/
def State.enumDue (s : State) : Bool :=
  (s.cfg.phase == .rick && s.cfg.enumAt.isNone)
    || (s.elapsed s.cfg.enumAt 1000000 && (s.cfg.rick == .refused
      || (List.range' 1 6).any (fun u => s.cfg.enrolled u && (s.cfg.unit u).state != .onLine)))

/-- ENUMERATE (16 R455, R461): on the command of CFG_CMD (`cmd`), which a SHADOW refuses, else at the end of twin search and
every 10 s while the rick is REFUSED or a unit is not ON_LINE. The command begins anew over one of the module's own.
(DEDUCED, log 58) -/
def execEnumerate (cmd : Bool) (s : State) : Host.Outcome State Fault Refusal :=
  if cmd && (s.cfg.enumCmd || !s.enumerates) then .next (s.setEvent .cfg 12)
  else if !s.enumerates || (!cmd && (s.cfg.collecting || !s.enumDue)) then .next s
  else .next (s.enumerate cmd)

/-- Is a unit reached from one end only, or from an end at all? -/
def RxUnit.half (x : RxUnit) : Bool := (x.hops0 == 0) != (x.hops1 == 0)
def RxUnit.reached (x : RxUnit) : Bool := x.hops0 != 0 || x.hops1 != 0

/-- The ring closes or breaks (16 R458): the break is named by the units reached from RL0. (DEDUCED, log 58) -/
def State.ringCheck (s : State) : State :=
  let us := (List.range' 1 6).map s.cfg.unit
  let broken := us.any RxUnit.half
  let c := { s.cfg with
    broken := broken, breakAt := (us.filter (fun x => x.hops0 != 0)).length
    rl0 := us.any (fun x => x.hops0 != 0), rl1 := us.any (fun x => x.hops1 != 0) }
  let was := s.cfg.broken
  (State.setEventIf { s with cfg := c } (broken && !was) .cfg 8).setEventIf (was && !broken) .cfg 9

/-- Does a unit answer as the key section enrols it: its serial number, and its position as counted from RL0 (16 R456)? -/
def State.enrolledAt (s : State) (u : Nat) (serial : DWord) (hops0 : Nat) : Bool :=
  match s.cfg.cur.keys.units.find? (fun e => e.1 == u) with
  | some (_, k) => k.serial == serial && (hops0 == 0 || hops0 == u)
  | none => false

/-- A unit fails its authentication (16 R456, R457): it is lost or stays lost. -/
def State.authFail (s : State) (u : Nat) : State :=
  (s.modUnit u (fun x => { x with state := .authFailed, polled := false, good := [], outs := Tbl.map {} (fun (o : RxOut) => { o with dropped := !o.acked }) x.outs })).setEvent .cfg 7

/-- IDENT (16 R455, R456): a SHADOW records what it hears. (DEDUCED, log 58) -/
def execIdent (serial : DWord) (position : Fin 6) (hops0 hops1 : Fin 8) (s : State) : Host.Outcome State Fault Refusal :=
  let u := position.val + 1
  if !s.twin.started || (s.holdsToken && !s.cfg.collecting) then .next s
  else
    let ok := s.enrolledAt u serial hops0
    let s := s.modUnit u (fun x => { x with
      seen := true, hops0 := hops0, hops1 := hops1, position := u
      state := if x.state == .onLine then .onLine else .authenticating })
    let s := s.ringCheck
    .next (if ok then (if (s.cfg.unit u).state = .authenticating then s.rickSend (.auth u) else s) else s.authFail u)

/-- Path delays as measured (16 R455). -/
def State.setDelays (s : State) (delays : List (Fin 6 × Nat)) : State :=
  delays.foldl (fun s e => s.modUnit (e.1.val + 1) (fun x => { x with delay := e.2 })) s

/-- A unit that did not answer is reached from no end, and is in no handshake (16 R457). -/
def RxUnit.unheard (x : RxUnit) : RxUnit :=
  { x with hops0 := 0, hops1 := 0, state := match x.state with | .authenticating => .absent | .authFailed => .absent | t => t }

/-- A unit at the end of an enumeration. -/
def State.unitUnheard (s : State) (u : Nat) : State := if (s.cfg.unit u).seen then s else s.modUnit u RxUnit.unheard

/-- ENUM_COLLECT_END (16 R455, R457): after 1 ms; an enrolled unit that did not answer is absent or lost. -/
def execEnumCollectEnd (delays : List (Fin 6 × Nat)) (s : State) : Host.Outcome State Fault Refusal :=
  if !s.cfg.collecting || !s.elapsed s.cfg.enumAt 100 then .next s
  else
    let s := { s with cfg := { s.cfg with collecting := false, enumCmd := false, delayAt := some s.mod.uptime } }
    let s := (List.range' 1 6).foldl State.unitUnheard s
    .next (s.setDelays delays).ringCheck

/-- The session key of a unit: from its own key, serial number and enrolled position and one random value of each side (16 R456).
(DESIGN CHOICE, log 99) -/
def State.unitKey (s : State) (u : Nat) (randM randU : BitVec 128) : BitVec 256 :=
  match s.cfg.cur.keys.units.find? (fun e => e.1 == u) with
  | some (_, k) => Config.rickKey k.key k.serial u randM randU
  | none => 0#256

/-- RX_AUTH (02 R62, 16 R456, R457): a handshake completes with the random values of the module and of the unit, or it or a later
frame fails its tag. -/
def execRxAuth (u : Fin 6) (ok : Bool) (randM randU : BitVec 128) (s : State) : Host.Outcome State Fault Refusal :=
  let n := u.val + 1
  let x := s.cfg.unit n
  if !ok then .next (if x.state = .authenticating ∨ x.state = .onLine then s.authFail n else s)
  else if x.state ≠ .authenticating ∨ !s.cfg.enrolled n then .next s
  else
    let s := s.modUnit n (fun x => { x with state := .onLine, failRun := 0, polled := false, answered := false, since := s.nowNs,
                                                   good := [], outs := [], key := s.unitKey n randM randU, ctr := 0#64 })
    let s := { s with cyc := { s.cyc with tasks := Tbl.map {} (fun t => { t with back := t.back ||| 2 ^ n }) s.cyc.tasks } }
    .next (s.recordEvent .cyc 3 n (s.cfgReg false (0x100 + 16 * n)))

/-- RICK_FORMED (16 R457): every answering unit has authenticated, or one has failed and the rick is refused; a formed rick
stays formed. -/
def execRickFormed (s : State) : Host.Outcome State Fault Refusal :=
  let seen := ((List.range' 1 6).map s.cfg.unit).filter RxUnit.seen
  if s.cfg.collecting || seen.any (fun x => x.state == .authenticating) || !s.enumerates && s.cfg.phase == .rick then .next s
  else
    let bad := seen.any (fun x => x.state == .authFailed)
    let phase := if s.cfg.phase = .rick then Phase.time else s.cfg.phase
    let s := { s with cfg := { s.cfg with phase := phase } }
    if s.cfg.rick = .formed then .next s
    else if bad then .next (State.setEvent { s with cfg := { s.cfg with rick := .refused } } .cfg 6)
    else .next (State.setEvent { s with cfg := { s.cfg with rick := .formed } } .cfg 5)

/-- PATH_DELAY_MEASURE (16 R455): every 1 s. -/
def execPathDelayMeasure (delays : List (Fin 6 × Nat)) (s : State) : Host.Outcome State Fault Refusal :=
  if s.mod.failed || !s.elapsed s.cfg.delayAt 100000 then .next s
  else .next (State.setDelays { s with cfg := { s.cfg with delayAt := some s.mod.uptime } } delays)

/-- The LEAD tells the SHADOW how the poll state of a unit has changed (04 R131). -/
def State.tellPoll (s : State) (was : RxPoll) (u : Nat) : State :=
  if s.leads && (s.cfg.unit u).poll != was then s.olvia (.seq (.rick (Fin.ofNat 6 (u - 1)) (s.cfg.unit u).poll)) else s

/-- One poll of a unit; the poll before it without a valid reply counts (02 R60). -/
def State.pollUnit (s : State) (u : Nat) : State :=
  let x := s.cfg.unit u
  if x.state ≠ .onLine then s
  else
    let miss := x.polled && !x.answered
    let s := s.modUnit u (fun x => { x with
      failRun := if miss then x.failRun + 1 else x.failRun, failCnt := if miss then Bits.inc x.failCnt else x.failCnt
      polled := true, answered := false })
    (s.rickFrame u (fun h => .poll h u s.tickNo s.tickStart.toNat x.delay)).tellPoll x.poll u

/-- RICK_POLL (02 R60, 16 R457): once in each station tick; no unit is polled unless the rick is formed; a SHADOW hears the polls and counts too. -/
def execRickPoll (s : State) : Host.Outcome State Fault Refusal :=
  if s.cfg.rick != .formed || s.mod.failed || !s.elapsed s.cfg.pollAt 1 then .next s
  else .next ((List.range' 1 6).foldl State.pollUnit { s with cfg := { s.cfg with pollAt := some s.mod.uptime } })

/-- The newest samples of each task. -/
def takeSamples (new old : List RxSamples) : List RxSamples :=
  new ++ old.filter (fun g => !new.any (fun h => h.task == g.task))

/-- REPLY (02 R58, R60, R63, 16 R445, R458): before READY no reply enters an input set. A unit declared lost on the tick of a T0
still delivers the samples of that T0. -/
def execReply (u : Fin 6) (hops0 hops1 : Fin 8) (samples : List RxSamples) (s : State) : Host.Outcome State Fault Refusal :=
  let n := u.val + 1
  let x := s.cfg.unit n
  if s.cfg.rick != .formed then .next s
  else if x.state = .lost then
    let due := samples.filter (fun g => g.t0 / 10000 == x.lostAt)
    .next (s.modUnit n (fun x => { x with good := if s.mod.ready then takeSamples due x.good else x.good }))
  else if x.state ≠ .onLine then .next s
  else
    let s := s.modUnit n (fun x => { x with
      answered := true, failRun := 0, hops0 := hops0, hops1 := hops1
      good := if s.mod.ready then takeSamples samples x.good else x.good })
    .next (s.ringCheck.tellPoll x.poll n)

/-- ACK (02 R61). -/
def execAck (u : Fin 6) (n : Fin 32) (k : DWord) (s : State) : Host.Outcome State Fault Refusal :=
  let v := u.val + 1
  let o := Tbl.get {} (s.cfg.unit v).outs n
  if (s.cfg.unit v).state == .onLine && o.cycle == k && !o.dropped && (s.cfg.unit v).outs.any (fun e => e.1 == n.val) then
    .next (s.modUnit v (fun x => { x with outs := Tbl.set {} x.outs n { o with acked := true } }))
  else .next s

/-- Has the last poll gone without a valid reply, and how many polls in a row have (02 R60)? -/
def RxUnit.miss (x : RxUnit) : Bool := x.polled && !x.answered
def RxUnit.missed (x : RxUnit) : Nat := x.failRun + if x.miss then 1 else 0

/-- UNIT_LOST (02 R60, R61): three consecutive polls without a valid reply, the last one among them. -/
def execUnitLost (u : Fin 6) (s : State) : Host.Outcome State Fault Refusal :=
  let n := u.val + 1
  let x := s.cfg.unit n
  if x.state ≠ .onLine ∨ x.missed < 3 then .next s
  else
    let s := s.modUnit n (fun x => { x with
      state := .lost, polled := false, lostAt := s.tickNo, failCnt := if x.miss then Bits.inc x.failCnt else x.failCnt, outs := Tbl.map {} (fun (o : RxOut) => { o with dropped := !o.acked }) x.outs })
    .next ((s.recordEvent .cyc 2 n (s.cfgReg false (0x100 + 16 * n))).tellPoll x.poll n)

/-- RX_ACK_DEADLINE (02 R61): 20 µs before the task's next T0 the outputs of a unit that has not acknowledged are discarded. -/
def execRxAckDeadline (n : Fin 32) (s : State) : Host.Outcome State Fault Refusal :=
  if (s.taskCfg n).kind = 1 ∧ s.tickNo + 2 < (s.taskCfg n).nextTick s.tickNo then .next s
  else
  let f := fun (x : RxUnit) => { x with outs := List.map (fun (e : Nat × RxOut) => if e.1 == n.val && !e.2.acked then (e.1, { e.2 with dropped := true }) else e) x.outs }
  .next { s with cfg := { s.cfg with units := Tbl.map {} f s.cfg.units } }

end Sys2Proof.Machine
end

