-- ==== Sys2Proof/Machine/HostCmd.lean ====
section
/-! DEFINITION. Machine/HostCmd.lean: the opcodes that no other unit's file gives a meaning (14 *Opcodes*, R405-R411), and
carrying out a descriptor by its opcode. -/
namespace Sys2Proof.Machine

/-- NOP (14 R405). -/
def execNop (o : Origin) (s : State) : Host.Outcome State Fault Refusal := .next (s.finish o stOk 0)

/-- MODE (14 R405): the mode byte names the command of the cycle controller. -/
def execMode (o : Origin) (mode task billet off : Nat) (s : State) : Host.Outcome State Fault Refusal :=
  match mode with
  | 1 => execModeRun o s
  | 2 => execModeStop o s
  | 3 => execModeHold o s
  | 4 => execModeStep o task s
  | 5 => execBreakSet o task billet off s
  | 6 => execBreakClear o task billet off s
  | _ => .next (s.finish o stBadParam 0)

/-! Host exchange and read areas. -/

/-- The declaration of an area: each task's areas are those of the program that the task runs (14 R406 ff., 05 R150).
(DESIGN CHOICE, log 21) -/
def State.areaDef (s : State) (n : Nat) : Option AreaDef :=
  let find := fun (l : Tbl AreaDef) => (l.find? (fun e => e.1 == n)).map Prod.snd
  let new := match s.xch.pkg with
    | some p => (find p.prog.areas).filter (fun d => s.onNew d.task)
    | none => none
  match new with
  | some d => some d
  | none => (s.cfg.prog.bind (fun p => find p.areas)).filter (fun d => !s.onNew d.task)

/-- The declaration of a host area: host areas are numbered 0 to 255 (14 *Host values and the cycle*); the Modbus exchange areas
stand in the same table from 256 on (log 21). -/
def State.hostArea (s : State) (n : Nat) : Option AreaDef := if n < 256 then s.areaDef n else none

/-- The pending copy of an area after a write: what it held before the present station tick stays beside it. -/
def AreaSt.store (a : AreaSt) (tick now off : Nat) (bytes : List Byte) : AreaSt :=
  let a := if a.last.isSome && a.tick == tick then a else { a with data0 := a.data, writes0 := a.writes, last0 := a.last }
  { a with data := a.data.take off ++ bytes ++ a.data.drop (off + bytes.length)
           writes := a.writes + 1#32, last := some now, tick := tick }

/-- Write into the pending copy of an exchange area. -/
def State.storeArea (s : State) (n off : Nat) (bytes : List Byte) : State :=
  let f := fun (a : AreaSt) => a.store s.tickNo s.nowNs off bytes
  { s with cyc := { s.cyc with areas := Tbl.mod {} s.cyc.areas n f } }

/-- The next scheduled T0 of a task in TAI ns (14 R407). (DESIGN CHOICE, log 20) -/
def State.nextSchedT0 (s : State) (n : Nat) : Nat :=
  if (s.taskCfg n).angle then Config.nextT0 s.free % 2 ^ 64 else (s.taskCfg n).nextTick s.tickNo * 10000

/-- AREA_WRITE (14 R407, R408). -/
def execAreaWrite (o : Origin) (area off : Nat) (bytes : List Byte) (s : State) : Host.Outcome State Fault Refusal :=
  match s.hostArea area with
  | none => .next (s.finish o stBadParam 0)
  | some d =>
    if d.read || decide (d.len < off + bytes.length) then .next (s.finish o stBadParam 0)
    else
      let t0 := s.nextSchedT0 d.task
      let s := State.storeArea { s with free := s.free + 1 } area off bytes
      .next (s.complete o stOk 0 0#64 (BitVec.ofNat 8 d.task :: List.replicate 7 0#8 ++ Bits.natBytes 8 t0))

/-- The number of bytes rounded up to a multiple of 4. -/
def round4 (n : Nat) : Nat := (n + 3) / 4 * 4

/-- Write to a data buffer of the host. The answer to a maintenance command carries no data (15 *Maintenance messages*). -/
def State.toBuffer (s : State) (o : Origin) (addr : DWord) (bytes : List Byte) : State :=
  match o with
  | .host _ _ => if bytes.isEmpty then s else { s with host := s.host.emit (.data addr bytes) }
  | _ => s

/-- AREA_READ (14 R409). -/
def execAreaRead (o : Origin) (area : Nat) (addr : DWord) (len : Nat) (s : State) : Host.Outcome State Fault Refusal :=
  match s.hostArea area with
  | none => .next (s.finish o stBadParam 0)
  | some d =>
    if !d.read || decide (len < round4 d.len) then .next (s.finish o stBadParam 0)
    else
      let t := s.task d.task
      let bytes := Tbl.getList 0#8 t.image d.off d.len ++ List.replicate (round4 d.len - d.len) 0#8
      .next ((s.toBuffer o addr bytes).complete o stOk 0 t.cycle (Bits.natBytes 4 d.len))

/-! The recorder. -/

/-- The 512 bytes of a place that could not be read (14 R411). (DEDUCED, log 62) -/
def busyPlace : List Byte :=
  List.replicate 8 0xFF#8 ++ List.replicate 48 0#8 ++ List.replicate 8 0xFF#8 ++ List.replicate 448 0#8

/-- The places of a REC_READ in order: the number read first, and each record or nothing where it cannot be read. -/
def Recorder.places (r : Recorder) (first count : Nat) (peat annex : Bool) : Nat × List (Option Record) :=
  if annex then (first, (r.annex.drop first).take count |>.map some)
  else
    let from' := if peat then first else max first r.oldest
    let last := if r.head = 0xFFFFFFFFFFFFFFFF#64 then 0 else r.head.toNat + 1
    let stop := if peat then min last 65536 else last
    (from', (List.range (min count (stop - from'))).map (fun i =>
      if peat then r.inPeat (from' + i) else r.inEmber (from' + i)))

/-- The bytes of a place. -/
def placeBytes : Option Record → List Byte
  | some a => a.wordList.flatMap Bits.bytes32
  | none => busyPlace

/-- Are the parameters of a REC_READ in range? (DEDUCED, log 62) -/
def recReadOk (first count : Nat) (annex : Bool) (len : Nat) : Bool :=
  decide (1 ≤ count) && decide (count ≤ 2048) && decide (count * 512 ≤ len) && (!annex || decide (first < 64))

/-- REC_READ (14 R411, 13 R378). (DEDUCED, log 62) -/
def execRecRead (o : Origin) (first count : Nat) (peat annex : Bool) (addr : DWord) (len : Nat) (s : State) :
    Host.Outcome State Fault Refusal :=
  if !recReadOk first count annex len then .next (s.finish o stBadParam 0)
  else
    let p := s.recorder.places first count peat annex
    let busy := (p.2.filter (fun e => e.isNone)).length
    let s := s.toBuffer o addr (p.2.flatMap placeBytes)
    .next (s.complete o (if busy = 0 then stOk else stBusy) 0 0#64
      (Bits.natBytes 8 p.1 ++ Bits.natBytes 2 (p.2.length - busy) ++ Bits.natBytes 2 busy))

/-- REC_NOTE (14 R405, 13 *Record codes without an event bit*). -/
def execRecNote (o : Origin) (detail : DWord) (words : List Word) (s : State) : Host.Outcome State Fault Refusal :=
  if 112 < words.length then .next (s.finish o stBadParam 0)
  else
    let q : RecReq := { source := 13, code := 0x100, time := s.tickStart, cycle := s.refCycle, detail := detail, words := words, origin := o }
    let r := s.request q
    .next (if r.2 then r.1.passed o else r.1.finish o stRefused 0)

/-- TRIGGER (13 R380-R384, 14 R405). -/
def execTrigger (o : Origin) (n : Nat) (s : State) : Host.Outcome State Fault Refusal :=
  let d := Tbl.get {} s.recorder.trigDefs n
  if !d.valid || d.kind != .host then .next (s.finish o stRefused 1)
  else if s.recorder.failed then .next (s.finish o stRefused 0)
  else match s.capture n s.refCycle o with
    | (s, .held) => .next (s.finish o stRefused 2)
    | (s, .refused) => .next ((s.setEvent .recorder 3).finish o stRefused 3)
    | (s, .lost) => .next ((s.setEvent .recorder 5).finish o stRefused 0)
    | (s, .taken) => .next (s.passed o)

/-- QUOTA (13 R385). -/
def execQuota (o : Origin) (source quota : Nat) (s : State) : Host.Outcome State Fault Refusal :=
  if 16 < source ∨ 65535 < quota then .next (s.finish o stBadParam 0)
  else .next (State.finish { s with recorder := { s.recorder with quota := Tbl.set 0 s.recorder.quota source (quota + 1) } } o stOk 0)

/-- PANEL (14 R405): the request block goes to the panel unit. -/
def execPanel (o : Origin) (id : Half) (op : PanelOp) (s : State) : Host.Outcome State Fault Refusal :=
  .next (s.panelRequest o id op)

/-! A descriptor by its opcode. -/

/-- The state that a meaning leads to. -/
def State.after (s : State) (r : Host.Outcome State Fault Refusal) : State :=
  match r with
  | .next t => t
  | _ => s

/-- ACTIVATE by its target. -/
def State.activate (s : State) (o : Origin) (target engine : Nat) : State :=
  match target with
  | 1 => s.after (execActivateConfig o s)
  | 2 => s.after (execActivateSafety o s)
  | 3 =>
    if engine = 16 then s.after (execActivateFwModule o s)
    else if h : engine < 16 then s.after (execActivateFwEngine o ⟨engine, h⟩ s)
    else s.finish o stBadParam 0
  | _ => s.finish o stBadParam 0

/-- BUDGET with the fields that VALID marks. -/
def State.budgetCmd (s : State) (o : Origin) (ps : List Byte) : State :=
  let v := BitVec.ofNat 8 (Bits.leAt ps 1 1)
  let opt := fun (b : Nat) (n : Nat) => if v.getLsbD b then some n else none
  let pol := Bits.leAt ps 2 1
  if v.getLsbD 3 && decide (1 < pol) then s.finish o (if s.actsAsLead then stBadParam else stNotLead) 0
  else s.after (execBudget o (Bits.leAt ps 0 1) (opt 0 (Bits.leAt ps 4 4)) (opt 1 (Bits.leAt ps 8 1)) (opt 2 (Bits.leAt ps 3 1))
    (if v.getLsbD 3 then some (pol == 1) else none) s)

/-- A descriptor's command is carried out (14 R405): `data` came from its data buffer, `obj` and `pkg` are the object and the
package that a finished transfer spells. -/
def State.carryOut (s : State) (o : Origin) (d : Desc) (data : List Byte) (obj : ImageObj) (pkg : Package × Option Nat) : State :=
  let ps := d.params
  let p := fun (i n : Nat) => Bits.leAt ps i n
  let flags := BitVec.ofNat 8 (p 16 1)
  match d.opcode.toNat with
  | 0x00 => s.after (execNop o s)
  | 0x01 => s.after (execMode o (p 0 1) (p 1 1) (p 2 2) (p 4 4) s)
  | 0x02 => s.after (execTaskRestart o (p 0 1) s)
  | 0x03 => s.after (execHandover o s)
  | 0x04 => s.budgetCmd o ps
  | 0x05 => s.after (execStage o (p 0 8) (p 8 8) d.dataLen (flags.getLsbD 0) (flags.getLsbD 1) pkg s)
  | 0x06 => s.after (execArm o (p 0 1) (BitVec.ofNat 64 (p 8 8)) s)
  | 0x07 => s.after (execDisarm o s)
  | 0x08 => s.after (execDiscard o s)
  | 0x09 => s.after (execRollback o s)
  | 0x0A => s.after (execImageWrite o (p 17 1) (p 0 8) (p 8 8) d.dataLen (flags.getLsbD 0) (flags.getLsbD 1) obj s)
  | 0x0B => s.activate o (p 0 1) (p 1 1)
  | 0x0C => s.after (execAreaWrite o (p 0 1) (p 2 2) (data.take d.dataLen) s)
  | 0x0D => s.after (execAreaRead o (p 0 1) d.dataAddr d.dataLen s)
  | 0x0E => s.after (execRecRead o (p 0 8) (p 8 2) ((p 10 1) % 2 == 1) ((p 10 1) / 2 % 2 == 1) d.dataAddr d.dataLen s)
  | 0x0F =>
    if d.dataLen ≠ 4 * p 8 1 then s.finish o stBadParam 0
    else s.after (execRecNote o (BitVec.ofNat 64 (p 0 8)) (wordsOf data (p 8 1)) s)
  | 0x10 => s.after (execTrigger o (p 0 1) s)
  | 0x11 => s.after (execQuota o (p 0 1) (p 2 2) s)
  | 0x12 => s.after (execPanel o (BitVec.ofNat 16 (p 0 2)) (panelOpOf ps (data.take d.dataLen)) s)
  | _ => s.finish o stBadOpcode 0

end Sys2Proof.Machine
end

