-- ==== Sys2Proof/Machine/Flags.lean ====
section
/-! DEFINITION. Machine/Flags.lean: the defined bits of the EVENT registers, and what a field takes of a value written to it
(00 R8-R10). -/
namespace Sys2Proof.Machine

/-- The defined bits of the EVENT and EVENT_EN registers of a block, by block code. -/
def eventMask (b : Nat) : Word :=
  BitVec.ofNat 32 (2 ^ ([9, 10, 12, 16, 10, 15, 11, 17, 20, 19, 14, 9, 8, 8, 14, 6].getD b 0) - 1)

/-- A field whose new value the field's table does not list keeps its value (00 R10). -/
def keepUnlisted (old new : Word) (i n : Nat) (listed : Nat → Bool) : Word :=
  if listed (Bits.get new i n) then new
  else (new &&& ~~~(BitVec.ofNat 32 (2 ^ n - 1) <<< i)) ||| Bits.fld (Bits.get old i n) i

/-- The value that HOST_SQn_CFG, or the CFG register of another ring, would take (14 R422, 00 R9, R10). -/
def legalSq (old new : Word) : Word :=
  let w := keepUnlisted old (new &&& 0x8F07FF00#32) 24 4 (fun v => decide (v ≤ 12))
  keepUnlisted old w 8 8 (fun v => decide (1 ≤ v) && decide (v ≤ 64))
def legalOut (old new : Word) : Word :=
  let w := keepUnlisted old (new &&& 0x8F1FFFFF#32) 24 4 (fun v => decide (v ≤ 12))
  keepUnlisted old (keepUnlisted old w 8 7 (fun v => decide (1 ≤ v))) 0 8 (fun v => decide (1 ≤ v))

/-- A value as a selector or another RW register takes it (00 R10). -/
def listedValue (off : Nat) (old new : Word) : Word :=
  if off = 0x0420 then keepUnlisted old new 0 5 (fun v => decide (v < 24))
  else if off = 0x3034 then keepUnlisted old new 0 8 (fun v => decide (v ≤ 16))
  else new

end Sys2Proof.Machine
end

