-- ==== Sys2Proof/Machine/HostRing.lean ====
section
/-! DEFINITION. Machine/HostRing.lean: service passes, doorbells, the ring states, interrupts and the link of the HOST block
(14 R396-R403, R415-R419, R496). -/
namespace Sys2Proof.Machine

/-! Service passes. -/

def SubRing.size (q : SubRing) : Nat := 2 ^ Bits.get q.cfg 24 4
def SubRing.used (q : SubRing) : Nat := (q.tail + q.size - q.head) % q.size
def SubRing.burst (q : SubRing) : Nat := min 64 (max 1 (Bits.get q.cfg 8 8))

/-- Entries of a completion ring reserved for descriptors that have been taken (14 R401). -/
def HostBlk.reserved (h : HostBlk) (cq : Nat) : Nat := (h.taken.filter (fun t => (h.sq t.sq).bound == cq)).length

/-- A taken descriptor is judged; one without a data buffer is carried out (14 R402, R404, R405). -/
def State.beginDesc (s : State) (o : Origin) (d : Desc) : State :=
  if !descListed d then s.finish o stBadOpcode 0
  else if !descOk d then s.finish o stBadParam 0
  else if descBuffered d then s
  else s.carryOut o d [] .none ({}, none)

/-- The next descriptor of a submission ring is taken: HEAD advances past it (14 R398). (DEDUCED, log 61) -/
def State.takeDesc (s : State) (n : Fin 8) (d : Desc) : State :=
  let q := s.host.sq n.val
  let reading := descListed d && descOk d && descBuffered d
  let h := s.host.setSq n.val { q with head := (q.head + 1) % q.size, waiting := false }
  State.beginDesc { s with host := { h with taken := h.taken ++ [{ sq := n.val, desc := d, reading := reading, sinceNs := s.nowNs }] } } (.host n d.tag) d

/-- Serve one ring: at most `k` descriptors of those that stand in its memory from HEAD on (14 R401, R402). CQ_FULL counts a
wait once, when it begins. (DEDUCED, log 61) -/
def State.serveRing (n : Fin 8) : Nat → List Desc → State → State
  | 0, _, s => s
  | _, [], s => s
  | k + 1, d :: l, s =>
    let q := s.host.sq n.val
    let c := s.host.cq q.bound
    if q.state ≠ .enabled ∨ c.state ≠ .enabled then s
    else if d.fence && s.host.inFlight n.val != 0 then s
    else if !s.mod.ready && !earlyOpcode d then s
    else if c.room ≤ s.host.reserved q.bound then
      if q.waiting then s
      else { s with host := (s.host.setCq q.bound { c with full := Bits.sat 17 c.full 1 }).setSq n.val { q with waiting := true } }
    else State.serveRing n k l (s.takeDesc n d)

/-- Does the Kindling ROM alone, or a module before READY, leave a COMMAND message waiting (16 R445, R446)? -/
def State.mntWaits (s : State) (d : Desc) : Bool :=
  if s.cfg.phase = .rom then !(d.opcode.toNat == 0x0A && Bits.leAt d.params 17 1 == 3 || d.opcode.toNat == 0x0B && Bits.leAt d.params 0 1 == 3)
  else !s.mod.ready && !earlyOpcode d

/-- A COMMAND message is taken, unless a restart of the module has ended it. -/
def State.takeMnt (s : State) (c : MntCmd) : State :=
  if !s.mnt.cmds.contains c then s else
  let mark := fun (x : MntCmd) => if x.desc.tag == c.desc.tag then { x with taken := true } else x
  let s := { s with mnt := { s.mnt with cmds := s.mnt.cmds.map mark } }
  let d := { c.desc with dataAddr := 0#64 }
  if !mntOpcodes.contains d.opcode.toNat then s.finish (.maint d.tag) stBadOpcode 0
  else if !descOk d then s.finish (.maint d.tag) stBadParam 0
  else s.carryOut (.maint d.tag) d c.data c.obj c.pkg

/-- The COMMAND messages join the pass after the submission rings, in the order in which they came. -/
def State.serveMnt (s : State) : State :=
  (s.mnt.cmds.filter (fun c => !c.taken && !s.mntWaits c.desc)).foldl State.takeMnt s

/-- SERVICE_PASS (14 R401, R402): `descs` is what the enabled rings hold in host memory from HEAD on. -/
def execServicePass (descs : List (Fin 8 × List Desc)) (s : State) : Host.Outcome State Fault Refusal :=
  if s.mod.failed || s.svDown then .next s
  else
    let ring := fun (s : State) (n : Fin 8) =>
      let q := s.host.sq n.val
      let l := match descs.find? (fun e => e.1 == n) with | some e => e.2 | none => []
      if s.host.busMaster then State.serveRing n (min q.burst q.used) l s else s
    .next ((List.finRange 8).foldl ring s).serveMnt

/-- Take a descriptor whose data buffer is being accessed out of that state. -/
def HostBlk.readDone (h : HostBlk) (sq : Nat) (tag : Word) : Option (Taken × HostBlk) :=
  match takeFirst (fun t => t.isFor sq tag && t.reading) h.taken with
  | none => none
  | some (t, rest) => some (t, { h with taken := rest ++ [{ t with reading := false }] })

/-- DATA_READ_DONE (14 R402): the data buffer has been read, or can be written; `obj` and `pkg` are the object and the
package that a finished transfer spells. While the supervisor restarts the rings pause (01 R21). -/
def execDataReadDone (sq : Fin 8) (tag : Word) (data : List Byte) (obj : ImageObj) (pkg : Package × Option Nat) (s : State) :
    Host.Outcome State Fault Refusal :=
  if !s.host.busMaster || s.svDown || s.mod.failed then .next s
  else match s.host.readDone sq.val tag with
    | none => .next s
    | some (t, h) => .next (State.carryOut { s with host := h } (.host sq tag) t.desc data obj pkg)

/-- Does the command read its data buffer, so that the read can run into the completion timeout (14 R395)? -/
def descReads (d : Desc) : Bool := !(d.opcode == 0x0D#8 || d.opcode == 0x0E#8)

/-- Can the access of a taken descriptor's data buffer have failed so by TAI ns `now` (14 R395, R417)? -/
def Taken.failsBy (t : Taken) (how : DmaFail) (now : Nat) : Bool :=
  how != .timeout || (descReads t.desc && decide (t.sinceNs + 50000000 ≤ now))

/-- DMA_FAILURE (14 R417): `places` is how many places of a REC_READ were written before. A completion timeout takes 50 ms. -/
def execDmaFailure (sq : Fin 8) (tag : Word) (how : DmaFail) (places : Nat) (s : State) : Host.Outcome State Fault Refusal :=
  match s.host.readDone sq.val tag with
  | none => .next s
  | some (t, h) =>
    if !t.failsBy how s.nowNs then .next s
    else
    let s := { s with host := { h with dmaErrCnt := Bits.inc h.dmaErrCnt } }
    let ps := t.desc.params
    let done := if t.desc.opcode = 0x0E#8 ∧ places ≠ 0 then
        (s.recorder.places (Bits.leAt ps 0 8) (min places (Bits.leAt ps 8 2)) (Bits.leAt ps 10 1 % 2 == 1) (Bits.leAt ps 10 1 / 2 % 2 == 1)).2.flatMap placeBytes
      else []
    .next (((s.toBuffer (.host sq tag) t.desc.dataAddr done).setEvent .host 1).finish (.host sq tag) stBadAddress 0)

/-! Ring states. -/

/-- Does an entry belong to a ring? -/
def HostOut.inRing (o : HostOut) : RingId → Bool
  | .sq _ => false
  | .cq n => match o with | .completion c _ _ _ => c == n.val | _ => false
  | .eq => match o with | .event _ _ _ => true | _ => false

/-- A ring enters ERROR and writes nothing further (14 R403, R416, R418). -/
def State.ringError (s : State) (r : RingId) (kind index : Nat) : State :=
  let info := fun (rk n : Nat) => Bits.fld kind 28 ||| Bits.fld rk 26 ||| Bits.fld n 23 ||| Bits.fld (index % 4096) 0
  let h := match r with
    | .sq n => { s.host.setSq n.val { s.host.sq n.val with state := .error } with errInfo := info 0 n.val }
    | .cq n => { s.host.setCq n.val { s.host.cq n.val with state := .error } with errInfo := info 1 n.val }
    | .eq => { s.host with eq := { s.host.eq with state := .error }, errInfo := info 2 0 }
  { s with host := { h with kept := h.kept.filter (fun o => !o.inRing r) } }.setEvent .host 0

/-- Is a ring ENABLED? -/
def HostBlk.enabled (h : HostBlk) : RingId → Bool
  | .sq n => (h.sq n.val).state == .enabled
  | .cq n => (h.cq n.val).state == .enabled
  | .eq => h.eq.state == .enabled

/-- RING_ACCESS_FAILURE (14 R418). -/
def execRingAccessFailure (r : RingId) (index : Nat) (_how : DmaFail) (s : State) : Host.Outcome State Fault Refusal :=
  if !s.host.enabled r then .next s
  else .next (s.ringError r (match r with | .sq _ => 3 | _ => 4) index)

/-- A write to HOST_SQn_TAIL (14 R416). -/
def State.tailDoorbell (s : State) (n : Fin 8) (tail : Nat) : State :=
  let q := s.host.sq n.val
  if q.state ≠ .enabled ∨ tail = q.tail then s
  else if q.size ≤ tail ∨ q.size - 1 - q.used < (tail + q.size - q.tail) % q.size then s.ringError (.sq n) 1 tail
  else { s with host := s.host.setSq n.val { q with tail := tail } }

/-- Is a new HEAD in the written region of a completion or event ring? -/
def OutRing.headOk (q : OutRing) (head : Nat) : Bool :=
  decide (head < q.size) && decide ((head + q.size - q.head) % q.size ≤ q.used)

/-- A write to HOST_CQn_HEAD (14 R416). -/
def State.cqDoorbell (s : State) (n : Fin 8) (head : Nat) : State :=
  let q := s.host.cq n.val
  if q.state ≠ .enabled ∨ head = q.head then s
  else if !q.headOk head then s.ringError (.cq n) 2 head
  else { s with host := s.host.setCq n.val { q with head := head } }

/-- A write to HOST_EQ_HEAD (14 R416). -/
def State.eqDoorbell (s : State) (head : Nat) : State :=
  let q := s.host.eq
  if q.state ≠ .enabled ∨ head = q.head then s
  else if !q.headOk head then s.ringError .eq 2 head
  else { s with host := { s.host with eq := { q with head := head } } }

/-- A submission ring stops: what has not been passed to its unit ends with ABORTED (14 R403). (DEDUCED, log 63) -/
def State.stopSq (s : State) (n : Fin 8) : State :=
  let l := s.host.taken.filter (fun t => t.sq == n.val && !t.passed)
  let s := { s with host := s.host.setSq n.val { s.host.sq n.val with state := .stopping, aborted := !l.isEmpty } }
  l.foldl (fun s t => s.finish (.host n t.desc.tag) stAborted 0) s

/-- RING_STOPPED (14 R403). -/
def execRingStopped (n : Fin 8) (s : State) : Host.Outcome State Fault Refusal :=
  let q := s.host.sq n.val
  if q.state ≠ .stopping ∨ s.host.inFlight n.val ≠ 0 then .next s
  else .next (State.setEventIf { s with host := s.host.setSq n.val { q with state := .disabled, aborted := false } } q.aborted .host 7)

/-- HOST_SQn_CFG takes a value (14 R403, R422). A new size or bound ring of a ring that is not DISABLED is ignored.
(DEDUCED, log 63) -/
def State.putSqCfg (s : State) (n : Fin 8) (w : Word) : State :=
  let q := s.host.sq n.val
  let w := legalSq q.cfg w
  let on := Bits.bit w 31
  let w0 := Bits.clrBit w 31
  if q.state = .disabled then
    let c := Bits.get w 16 3
    let ok := decide (1 ≤ Bits.get w 24 4) && decide (Bits.get w 24 4 ≤ 12) && (s.host.cq c).state == .enabled
    if !on then { s with host := s.host.setSq n.val { q with cfg := w0 } }
    else if ok then { s with host := s.host.setSq n.val { q with cfg := w, head := 0, tail := 0, state := .enabled, aborted := false } }
    else { s with host := s.host.setSq n.val { q with cfg := w0 } }.setEvent .host 2
  else
    let size := decide (Bits.get w 24 4 ≠ Bits.get q.cfg 24 4) || decide (Bits.get w 16 3 ≠ Bits.get q.cfg 16 3)
    let keep := 0x0F070000#32
    let w1 := (w &&& ~~~keep) ||| (q.cfg &&& keep)
    let s := s.setEventIf size .host 2
    if on || q.state == .stopping then
      { s with host := s.host.setSq n.val { s.host.sq n.val with cfg := if q.state = .stopping then Bits.clrBit w1 31 else w1 } }
    else
      State.stopSq { s with host := s.host.setSq n.val { s.host.sq n.val with cfg := Bits.clrBit w1 31 } } n

/-- The ring after its CFG register takes a value, and whether the write was refused: `bound` says that an enabled
submission ring is bound to it (14 R403). -/
def OutRing.putCfg (q : OutRing) (w : Word) (bound : Bool) : OutRing × Bool :=
  let w := legalOut q.cfg w
  let on := Bits.bit w 31
  let w0 := Bits.clrBit w 31
  if q.state = .disabled then
    let ok := decide (1 ≤ Bits.get w 24 4) && decide (Bits.get w 24 4 ≤ 12)
    if !on then ({ q with cfg := w0 }, false)
    else if ok then ({ q with cfg := w, head := 0, tail := 0, phase := true, state := .enabled, dropped := 0, irqPend := 0 }, false)
    else ({ q with cfg := w0 }, true)
  else
    let size := decide (Bits.get w 24 4 ≠ Bits.get q.cfg 24 4)
    let keep := 0x0F000000#32
    let w1 := (w &&& ~~~keep) ||| (q.cfg &&& keep)
    if on then ({ q with cfg := w1 }, size)
    else if q.state = .enabled ∧ bound then ({ q with cfg := Bits.setBit w1 31 }, true)
    else ({ q with cfg := Bits.clrBit w1 31, state := .disabled, irqPend := 0 }, size)

/-- HOST_CQn_CFG takes a value; entries kept for the ring are dropped when it is disabled. (DEDUCED, log 63) -/
def State.putCqCfg (s : State) (n : Fin 8) (w : Word) : State :=
  let h := s.host
  let bound := (List.range 8).any (fun i => (h.sq i).state == .enabled && (h.sq i).bound == n.val)
  let r := (h.cq n.val).putCfg w bound
  let kept := if r.1.state = .disabled then h.kept.filter (fun o => !o.inRing (.cq n)) else h.kept
  let p := r.1.due
  let h := { h.setCq n.val p.1 with kept := kept }
  State.setEventIf { s with host := if p.2 then h.interrupt p.1.vector else h } r.2 .host 2

/-- HOST_EQ_CFG takes a value. -/
def State.putEqCfg (s : State) (w : Word) : State :=
  let h := s.host
  let r := h.eq.putCfg w false
  let kept := if r.1.state = .disabled then h.kept.filter (fun o => !o.inRing .eq) else h.kept
  let p := r.1.due
  let h := { h with eq := p.1, kept := kept }
  State.setEventIf { s with host := if p.2 then h.interrupt p.1.vector else h } r.2 .host 2

/-! Interrupts and Bus Master Enable. -/

/-- Has COALESCE_TIME passed since the first pending entry at TAI ns `now` (14 R415)? -/
def OutRing.coalesced (r : OutRing) (now : Nat) : Bool := r.irqPend != 0 && decide (r.irqNs + Bits.get r.cfg 0 8 * 10000 ≤ now)

/-- MSIX_COALESCE_TIMEOUT (14 R415). -/
def execMsixCoalesceTimeout (r : RingId) (s : State) : Host.Outcome State Fault Refusal :=
  let h := s.host
  match r with
  | .sq _ => .next s
  | .cq n =>
    let q := h.cq n.val
    if !q.coalesced (s.nowNs + 9999) then .next s
    else .next { s with host := (h.setCq n.val { q with irqPend := 0 }).interrupt q.vector }
  | .eq =>
    if !h.eq.coalesced (s.nowNs + 9999) then .next s
    else .next { s with host := ({ h with eq := { h.eq with irqPend := 0 } } : HostBlk).interrupt h.eq.vector }

/-- Messages whose vector has come out of its mask are sent from the pending bit array (PCIe; log 5). -/
def HostBlk.unmask (h : HostBlk) : HostBlk :=
  if !h.busMaster || !h.msixEn then h
  else (List.range 32).foldl (fun (h : HostBlk) v =>
    if Bits.bit h.pba v && !h.masked v then { h with pba := Bits.clrBit h.pba v, sent := h.sent ++ [.msix v] } else h) h

/-- BUS_MASTER_ENABLE (14 R496), with the MSI-X enable and function mask that the host has set. -/
def execBusMasterEnable (msixEn msixMask : Bool) (s : State) : Host.Outcome State Fault Refusal :=
  let h : HostBlk := { s.host with busMaster := true, msixEn := msixEn, msixMask := msixMask }
  let h1 : HostBlk := { h with sent := h.sent ++ h.kept, kept := [], keptMsix := [] }
  .next { s with host := (h.keptMsix.foldl HostBlk.interrupt h1).unmask }

/-- BUS_MASTER_DISABLE (14 R496). -/
def execBusMasterDisable (s : State) : Host.Outcome State Fault Refusal :=
  .next { s with host := { s.host with busMaster := false } }

/-! The link. -/

/-- The HOST block returns to its reset values, and with it what the host requester holds for itself (14 R419, 15 R427);
an open transfer from a host ring is discarded. -/
def State.hostReset (s : State) : State :=
  let open' := s.xch.cur.state == .staging && !s.xch.written && (match s.xch.stageOrg with | .host _ _ => true | _ => false)
  { s with
    host := { sent := s.host.sent }
    mod := { s.mod with host := {} }
    event := Tbl.set 0#32 s.event Block.host.code 0#32
    eventEn := Tbl.set 0#32 s.eventEn Block.host.code 0#32
    recorder := { s.recorder with window := Tbl.erase s.recorder.window 0 }
    cfg := { s.cfg with transfers := s.cfg.transfers.filter (fun e => 8 ≤ e.2.sq) }
    xch := if open' then s.xch.clear.write {} else s.xch }

/-- An event of the link with its record. -/
def State.linkEvent (s : State) (bit : Nat) : State := s.recordEvent .host bit noObj (s.host.reg 0)

/-- PCIE_LINK_DOWN (14 R419). -/
def execPcieLinkDown (s : State) : Host.Outcome State Fault Refusal :=
  if !s.host.linkUp then .next s else .next (s.hostReset.linkEvent 4)
/-- PCIE_HOT_RESET (14 R419): the link goes down with it. -/
def execPcieHotReset (s : State) : Host.Outcome State Fault Refusal :=
  if !s.host.linkUp then .next s else .next (s.hostReset.linkEvent 4)

/-- FLR (14 R419): the link stays up. -/
def execFlr (s : State) : Host.Outcome State Fault Refusal :=
  if !s.host.linkUp then .next s
  else
    let h := s.host
    let s1 := s.hostReset
    .next (State.linkEvent { s1 with host := { s1.host with linkUp := h.linkUp, speed := h.speed, width := h.width } } 6)

/-- PCIE_LINK_UP (14 R419): the link does not train while the module is in the Kindling ROM (16 *Start-up check failures*). -/
def execPcieLinkUp (speed width : BitVec 2) (s : State) : Host.Outcome State Fault Refusal :=
  if s.host.linkUp || s.cfg.phase == .rom then .next s
  else .next (State.linkEvent { s with host := { s.host with linkUp := true, speed := speed, width := width } } 5)

end Sys2Proof.Machine
end

