-- ==== Sys2Proof/Machine/Regs.lean ====
section
/-! DEFINITION. Machine/Regs.lean: the register interface: which registers there are, who may write them, guarded writes, bit
aliases, read latches and parity (15 R423-R438, 00 R8-R10). -/
namespace Sys2Proof.Machine

/-! Which registers there are. -/

/-- The access codes of the register maps (00 R8). -/
inductive Access where
  | ro | rw | w1c | sc | g
deriving DecidableEq, Repr

/-- Runs of registers as (first offset, how many words). -/
def regRuns : List (Nat × Nat) :=
  [(0x0000, 15), (0x0040, 9), (0x0400, 14), (0x0500, 128), (0x0700, 64), (0x0800, 19), (0x0900, 128), (0x0B00, 64),
   (0x0C00, 19), (0x1000, 15), (0x1400, 15), (0x1440, 20), (0x1490, 6), (0x14B0, 4), (0x1800, 5), (0x1818, 18),
   (0x1864, 1), (0x1870, 2), (0x1880, 16), (0x1900, 32), (0x1C00, 3), (0x1C10, 9), (0x1C40, 48), (0x1D00, 96), (0x1E80, 96)]
  ++ [(0x2000, 5), (0x2020, 24), (0x2100, 128), (0x2400, 20), (0x2500, 16), (0x2800, 5), (0x2900, 15), (0x2940, 15),
   (0x2980, 15), (0x29C0, 15), (0x2A00, 16), (0x2C00, 19), (0x3000, 20), (0x3200, 128), (0x3400, 5), (0x3640, 6),
   (0x3800, 17), (0x3910, 24), (0x3C00, 10)]

/-- Is there a register at an offset of BAR0? -/
def isReg (off : Nat) : Bool :=
  off % 4 == 0
    && (regRuns.any (fun r => decide (r.1 ≤ off) && decide (off < r.1 + 4 * r.2))
      || (decide (0x3440 ≤ off) && decide (off < 0x3640) && decide (off % 0x20 < 0x18)))

/-- A register of a ring: of what kind of ring, its number and the offset in the ring's registers. -/
def ringReg (off : Nat) : Option (RingId × Nat) :=
  if h : 0x3440 ≤ off ∧ off < 0x3540 then some (.sq ⟨(off - 0x3440) / 0x20, by omega⟩, (off - 0x3440) % 0x20)
  else if h : 0x3540 ≤ off ∧ off < 0x3640 then some (.cq ⟨(off - 0x3540) / 0x20, by omega⟩, (off - 0x3540) % 0x20)
  else if 0x3640 ≤ off ∧ off < 0x3658 then some (.eq, off - 0x3640)
  else none

/-- The access code of the writable fields of a register and the bits that hold them. -/
def accessOf (off : Nat) : Access × Word :=
  match ringReg off with
  | some (_, 0x00) => (.rw, 0xFFFFF000#32)
  | some (_, 0x04) => (.rw, 0xFFFFFFFF#32)
  | some (_, 0x08) => (.g, 0xFFFFFFFF#32)
  | some (_, 0x0C) => (.rw, 0xFFF#32)
  | some (_, _) => (.ro, 0#32)
  | none =>
    if off % 0x400 = 4 then (.w1c, eventMask (off / 0x400))
    else if off % 0x400 = 8 then (.rw, eventMask (off / 0x400))
    else if 0x1C40 ≤ off ∧ off < 0x1D00 ∧ off % 0x20 = 0 then (.w1c, 0x01000000#32)
    else if off = 0x0048 ∨ off = 0x004C ∨ off = 0x0050 ∨ off = 0x005C then (.rw, 0xFFFFFFFF#32)
    else if off = 0x0060 then (.g, 0xFFFFFFFF#32)
    else if off = 0x0418 then (.w1c, 0xFFFFFFFF#32)
    else if off = 0x0420 then (.rw, 0x1F1F#32)
    else if off = 0x0818 ∨ off = 0x2C24 then (.rw, 0xF#32)
    else if off = 0x1490 ∨ off = 0x302C ∨ off = 0x3034 then (.rw, 0xFF#32)
    else if off = 0x1860 then (.rw, 0x3FF#32)
    else if off = 0x2438 then (.rw, 0x3F#32)
    else if off = 0x3044 ∨ off = 0x3048 then (.rw, 0xFFFFFFFF#32)
    else if off = 0x380C then (.sc, 0x3#32)
    else if off = 0x3810 then (.g, 0x1#32)
    else if off = 0x3C0C then (.sc, 0x7#32)
    else (.ro, 0#32)

/-- Is a register kept once per requester (15 R427)? -/
def perRequester (off : Nat) : Bool :=
  [0x0420, 0x0818, 0x1490, 0x1860, 0x2438, 0x2C24, 0x302C, 0x3034, 0x3044, 0x3048].contains off

/-! Errors. -/

def State.setReq (s : State) (who : Requester) (r : ReqState) : State :=
  match who with
  | .host => { s with mod := { s.mod with host := r } }
  | .maint => { s with mod := { s.mod with maint := r } }

/-- An access error (15 R424). -/
def State.accessErr (s : State) : State :=
  { s with mod := { s.mod with accessCnt := Bits.inc s.mod.accessCnt } }.setEvent .mod 1

/-- A write that a right forbids (15 R426). -/
def State.rightRefused (s : State) (who : Requester) : State :=
  let s := s.accessErr
  if who = Requester.maint then s.setEvent .mnt 5 else s

/-- A guard error (15 R431). (DEDUCED, log 65) -/
def State.guardErr (s : State) (who : Requester) (kind off : Nat) : State :=
  { s with mod := { s.mod with
      guardCnt := Bits.inc s.mod.guardCnt
      guardInfo := Bits.ofBool (who == Requester.maint) 31 ||| Bits.fld kind 28 ||| Bits.fld off 0 } }.setEvent .mod 0

/-- May a requester write the writable fields of a register (15 R426)? -/
def State.mayWrite (s : State) (who : Requester) (off : Nat) : Bool :=
  match who with
  | .host => true
  | .maint => (match s.mnt.session with | some r => r.write | none => false) && off / 0x400 != 13

/-! Writes. -/

/-- A base register of a ring takes a value while the ring is DISABLED (14 R403). -/
def State.putBase (s : State) (r : RingId) (high : Bool) (w : Word) : State :=
  let h := s.host
  let off := match r with | .sq n => (h.sq n.val).state | .cq n => (h.cq n.val).state | .eq => h.eq.state
  if off ≠ .disabled then s.setEvent .host 2
  else match r with
    | .sq n => { s with host := h.setSq n.val (if high then { h.sq n.val with baseHi := w } else { h.sq n.val with baseLo := w }) }
    | .cq n => { s with host := h.setCq n.val (if high then { h.cq n.val with baseHi := w } else { h.cq n.val with baseLo := w }) }
    | .eq => { s with host := { h with eq := if high then { h.eq with baseHi := w } else { h.eq with baseLo := w } } }

/-- A doorbell register is written (14 R416). -/
def State.doorbell (s : State) (r : RingId) (w : Word) : State :=
  match r with
  | .sq n => s.tailDoorbell n (Bits.get w 0 12)
  | .cq n => s.cqDoorbell n (Bits.get w 0 12)
  | .eq => s.eqDoorbell (Bits.get w 0 12)

/-- A selector of a requester takes a value; REC_WIN_SEQ_HI loads the window (13 R394). -/
def State.putSel (s : State) (who : Requester) (off : Nat) (w : Word) : State :=
  let r := s.req who
  let s := s.setReq who { r with sels := Tbl.set 0#32 r.sels off w }
  if off = 0x3048 then
    let k := match who with | .host => 0 | .maint => 1
    { s with recorder := { s.recorder with window := Tbl.insert k (s.sel who 0x3044, w) (Tbl.erase s.recorder.window k) } }
  else s

/-- An RW register takes a value. -/
def State.putRw (s : State) (who : Requester) (off : Nat) (w : Word) : State :=
  match ringReg off with
  | some (r, 0x00) => s.putBase r false w
  | some (r, 0x04) => s.putBase r true w
  | some (r, _) => s.doorbell r w
  | none =>
    if perRequester off then s.putSel who off w
    else if off % 0x400 = 8 then { s with eventEn := Tbl.set 0#32 s.eventEn (off / 0x400) w }
    else match off with
      | 0x0048 => { s with mod := { s.mod with guardCnt := w } }
      | 0x004C => { s with mod := { s.mod with accessCnt := w } }
      | 0x0050 => { s with mod := { s.mod with parityCnt := w } }
      | 0x005C => { s with mod := { s.mod with scratch := w } }
      | _ => s

/-- The bits of a W1C register that are written 1 are cleared. -/
def State.clear1 (s : State) (off : Nat) (w : Word) : State :=
  if off % 0x400 = 4 then { s with event := Tbl.set 0#32 s.event (off / 0x400) (Tbl.get 0#32 s.event (off / 0x400) &&& ~~~w) }
  else if off = 0x0418 then { s with cyc := { s.cyc with lateMask := s.cyc.lateMask &&& ~~~w } }
  else if Bits.bit w 24 then
    let c := (off - 0x1C40) / 0x20
    { s with dio := s.dio.setCell c { s.dio.getCell c with supplyLost := false } }
  else s

/-- A bit of MNT_CMD is written 1 (15 R442). -/
def State.mntStart (s : State) (b : Nat) : State :=
  let m := s.mnt
  let busy := match b with | 0 => m.identify | 1 => m.scrubNow | _ => m.holdTest
  if busy then s.setEvent .mnt 4
  else { s with mnt := match b with
    | 0 => { m with identify := true, identAt := s.mod.uptime }
    | 1 => { m with scrubNow := true, scrubLeft := 1 }
    | _ => { m with holdTest := true, testAt := s.mod.uptime } }

/-- A bit of CFG_CMD is written 1 (16 R461). -/
def State.cfgStart (s : State) (b : Nat) : State :=
  if b = 0 then s.after (execEnumerate true s)
  else if s.commissioning then s.setEvent .cfg 12 else s.commission

/-- The commands of an SC register whose bits are written 1 start. -/
def State.startCmds (s : State) (off : Nat) (w : Word) : State :=
  if off = 0x3C0C then ((List.range 3).filter (fun b => Bits.bit w b)).foldl State.mntStart s
  else ((List.range 2).filter (fun b => Bits.bit w b)).foldl State.cfgStart s

/-- A guarded register takes its value: the complement has been accepted (15 R430). -/
def State.putGuarded (s : State) (off : Nat) (w : Word) : State :=
  match ringReg off with
  | some (.sq n, _) => s.putSqCfg n w
  | some (.cq n, _) => s.putCqCfg n w
  | some (.eq, _) => s.putEqCfg w
  | none =>
    if off = 0x0060 then { s with mod := { s.mod with scratchG := w } }
    else { s with cfg := { s.cfg with armReg := Bits.bit w 0, armed := if Bits.bit w 0 then some s.nowNs else none } }

/-- The bits in `mask` of a register that is not guarded are written (00 R8-R10). (DEDUCED, log 65) -/
def State.writeBits (s : State) (who : Requester) (off : Nat) (w mask : Word) : State :=
  let a := accessOf off
  let m := mask &&& a.2
  match a.1 with
  | .rw =>
    let old := s.readReg who off &&& a.2
    s.putRw who off (listedValue off old ((old &&& ~~~m) ||| (w &&& m)))
  | .w1c => s.clear1 off (w &&& m)
  | .sc => s.startCmds off (w &&& m)
  | _ => s

/-- A value reaches a guarded register: it pends (15 R430, R431). -/
def State.valueStep (s : State) (who : Requester) (off : Nat) (w : Word) : State :=
  let s := if (s.req who).pending.isSome then s.guardErr who 6 off else s
  s.setReq who { s.req who with pending := some (off, w) }

/-- A complement reaches the port of a register (15 R430, R431); `expired` is the offset whose guard had expired.
(DEDUCED, log 65) -/
def State.complement (s : State) (who : Requester) (off : Nat) (w : Word) (expired : Option Nat) : State :=
  if expired = some off then s
  else if (accessOf off).1 ≠ .g then s.guardErr who 7 off
  else if !s.mayWrite who off then s.rightRefused who
  else match (s.req who).pending with
    | none => s.guardErr who 4 off
    | some (o, v) =>
      let s := s.setReq who { s.req who with pending := none }
      if o ≠ off then s.guardErr who 3 off
      else if w ≠ ~~~v then s.guardErr who 2 off
      else s.putGuarded off v

/-- A write to a register or to one of its bits (15 R425, R426, R430, R432). -/
def State.regWrite (s : State) (who : Requester) (off : Nat) (w mask : Word) (viaAlias : Bool) : State :=
  let a := accessOf off
  if !isReg off || a.2 &&& mask == 0#32 then s
  else if !s.mayWrite who off then s.rightRefused who
  else if a.1 = .g then (if viaAlias then s.guardErr who 5 off else s.valueStep who off w)
  else s.writeBits who off w mask

/-- A word of the MSI-X table is written; a pending vector that comes out of its mask is sent (15 R423; log 5). -/
def State.msixWrite (s : State) (i : Nat) (w : Word) : State :=
  { s with host := ({ s.host with msixTable := Tbl.set 0#32 s.host.msixTable i (w ^^^ msixDefault i) } : HostBlk).unmask }

/-- A 32-bit write of a requester anywhere in BAR0 (15 R423-R432). The next write ends an expired guard. -/
def State.busWrite (s : State) (who : Requester) (off : Nat) (w : Word) : State :=
  let expired := (s.req who).expired
  let s := s.setReq who { s.req who with expired := none }
  if 0x100000 ≤ off then s
  else if 0x80000 ≤ off then
    if off % 4 ≠ 0 then s.accessErr
    else
      let b := off % 128 / 4
      s.regWrite who ((off - 0x80000) / 128 * 4) (Bits.ofBool (Bits.bit w 0) b) (1#32 <<< b) true
  else if 0x8000 ≤ off then
    if off < 0x8200 ∧ off % 4 = 0 then s.msixWrite ((off - 0x8000) / 4) w else s
  else if off % 4 ≠ 0 then s.accessErr
  else if 0x4000 ≤ off then
    if isReg (off - 0x4000) then s.complement who (off - 0x4000) w expired else s
  else s.regWrite who off w 0xFFFFFFFF#32 false

/-! Reads. -/

/-- The low words of the 64-bit registers under the read-latching rule (15 R434). -/
def lowWords : List Nat :=
  [0x0024, 0x0040, 0x0430, 0x0830, 0x0C38, 0x0C40, 0x100C, 0x1498, 0x240C, 0x2414, 0x2444, 0x2C34, 0x300C, 0x3014, 0x3820,
   0x3828, 0x3C20]
  ++ (List.range 32).map (fun n => 0x0700 + 8 * n)
  ++ (List.range 8).map (fun n => 0x1900 + 0x20 * (n / 2) + 8 * (n % 2))
  ++ (List.range 4).map (fun a => 0x2930 + 0x40 * a) ++ (List.range 8).map (fun a => 0x2A00 + 8 * a)
  ++ (List.range 6).map (fun u => 0x3914 + 0x10 * u)

/-- The other members of a read group by its latching register (15 R435). -/
def groupOf (off : Nat) : List Nat :=
  if off = 0x1410 then [0x1414, 0x1418, 0x141C]
  else if 0x1448 ≤ off ∧ off < 0x1480 ∧ off % 16 = 8 then [off + 4, 0x1480 + (off - 0x1448) / 4]
  else if off = 0x18A0 then [0x18A4, 0x18A8, 0x18AC, 0x18B0, 0x18B4, 0x18B8, 0x18BC]
  else if 0x291C ≤ off ∧ off < 0x2A00 ∧ off % 0x40 = 0x1C then [off + 4, off + 8, off + 12]
  else []

/-- What a read of a register copies into the reader's shadow. -/
def latches (off : Nat) : List Nat := if lowWords.contains off then [off + 4] else groupOf off

/-- Is a register read from the shadow? -/
def shadowed (off : Nat) : Bool :=
  (decide (4 ≤ off) && lowWords.contains (off - 4))
    || ([0x1410, 0x1448, 0x1458, 0x1468, 0x1478, 0x18A0, 0x291C, 0x295C, 0x299C, 0x29DC].any (fun l => (groupOf l).contains off))

/-- The latch of a read: the other words as they stand now. -/
def State.latch (s : State) (who : Requester) (l : List Nat) : State :=
  let r := s.req who
  s.setReq who { r with shadow := l.foldl (fun t o => Tbl.set 0#32 t o (s.readReg who o)) r.shadow }

/-- The value of a register that a requester sees: its shadow for a word that a latch holds (15 R434, R435). -/
def State.seen (s : State) (who : Requester) (off : Nat) : Word :=
  if shadowed off then Tbl.get 0#32 (s.req who).shadow off else s.readReg who off

/-- A 32-bit read of a requester anywhere in BAR0: the word and the state after it (15 R423-R435). An alias reads
the bit of the register as the requester sees it. (DEDUCED, log 65) -/
def State.busRead (s : State) (who : Requester) (off : Nat) : Word × State :=
  if 0x100000 ≤ off then (0#32, s)
  else if 0x80000 ≤ off then
    if off % 4 ≠ 0 then (0#32, s.accessErr)
    else if !isReg ((off - 0x80000) / 128 * 4) then (0#32, s)
    else (Bits.ofBool (Bits.bit (s.seen who ((off - 0x80000) / 128 * 4)) (off % 128 / 4)) 0, s)
  else if 0x8000 ≤ off then
    if off % 4 ≠ 0 then (0#32, s)
    else if off < 0x8200 then (s.host.msixWord ((off - 0x8000) / 4), s)
    else if off = 0x9000 then (s.host.pba, s) else (0#32, s)
  else if off % 4 ≠ 0 then (0#32, s.accessErr)
  else if 0x4000 ≤ off || !isReg off then (0#32, s)
  else if shadowed off then (s.seen who off, s)
  else (s.seen who off, s.latch who (latches off))

/-! The commands. -/

/-- REGISTER_WRITE (15 R423-R429). -/
def execRegisterWrite (who : Requester) (off : Nat) (w : Word) (s : State) : Host.Outcome State Fault Refusal :=
  .next (s.busWrite who off w)

/-- BAD_ACCESS (15 R424): an access to a register, a complement port or an alias of a bit that is not 32 bits wide and aligned. -/
def execBadAccess (who : Requester) (write : Bool) (s : State) : Host.Outcome State Fault Refusal :=
  let s := if write then s.setReq who { s.req who with expired := none } else s
  .next s.accessErr

/-- GUARDED_VALUE_WRITE (15 R430). -/
def execGuardedValueWrite (who : Requester) (off : Nat) (w : Word) (s : State) : Host.Outcome State Fault Refusal :=
  if isReg off && (accessOf off).1 == .g then .next (s.busWrite who off w) else .next s

/-- No complement has been accepted within 1 µs of the value: the pending write is LATE (15 R431). -/
def State.guardLate (s : State) (who : Requester) : State :=
  match (s.req who).pending with
  | none => s
  | some (o, _) => (s.setReq who { s.req who with pending := none, expired := some o }).guardErr who 1 o

/-- COMPLEMENT_WRITE (15 R430, R431): `off` is the offset of the register whose port is written, `ns` the time since the
requester's value was accepted. -/
def execComplementWrite (who : Requester) (off : Nat) (w : Word) (ns : Nat) (s : State) : Host.Outcome State Fault Refusal :=
  let s := if 1000 < ns then s.guardLate who else s
  if off < 0x4000 then .next (s.busWrite who (off + 0x4000) w) else .next s

/-- GUARD_LATE (15 R431). -/
def execGuardLate (who : Requester) (s : State) : Host.Outcome State Fault Refusal := .next (s.guardLate who)

/-- BIT_ALIAS_WRITE (15 R432, R433). -/
def execBitAliasWrite (who : Requester) (off : Nat) (b : Fin 32) (v : Bool) (s : State) : Host.Outcome State Fault Refusal :=
  if off % 4 = 0 ∧ off < 0x4000 then .next (s.busWrite who (0x80000 + off * 32 + b.val * 4) (Bits.ofBool v 0)) else .next s

/-- LOW_WORD_READ (15 R434). -/
def execLowWordRead (who : Requester) (off : Nat) (s : State) : Host.Outcome State Fault Refusal :=
  if lowWords.contains off then .next (s.busRead who off).2 else .next s

/-- GROUP_LATCH_READ (15 R435). -/
def execGroupLatchRead (who : Requester) (off : Nat) (s : State) : Host.Outcome State Fault Refusal :=
  if (groupOf off).isEmpty then .next s else .next (s.busRead who off).2

/-- SQ_TAIL_DOORBELL (14 R416); bits [11:0] of the word written are TAIL, as in the other doorbells. -/
def execSqTailDoorbell (n : Fin 8) (tail : Nat) (s : State) : Host.Outcome State Fault Refusal :=
  .next (s.busWrite .host (0x344C + 0x20 * n.val) (BitVec.ofNat 32 tail))
/-- CQ_HEAD_DOORBELL (14 R416). -/
def execCqHeadDoorbell (n : Fin 8) (head : Nat) (s : State) : Host.Outcome State Fault Refusal :=
  .next (s.busWrite .host (0x354C + 0x20 * n.val) (BitVec.ofNat 32 head))
/-- EQ_HEAD_DOORBELL (14 R416). -/
def execEqHeadDoorbell (head : Nat) (s : State) : Host.Outcome State Fault Refusal :=
  .next (s.busWrite .host 0x364C (BitVec.ofNat 32 head))

/-- REC_WIN_SELECT (13 R394): a write to REC_WIN_SEQ_HI. -/
def execRecWinSelect (who : Requester) (w : Word) (s : State) : Host.Outcome State Fault Refusal := .next (s.busWrite who 0x3048 w)

/-! Parity and the scrubber. -/

/-- Runs of registers that hold a field taken from the active or the safety configuration. -/
def cfgRuns : List (Nat × Nat) :=
  [(0x040C, 1), (0x0424, 1), (0x140C, 1), (0x14B0, 4), (0x180C, 2), (0x1820, 12), (0x1D00, 96), (0x200C, 1), (0x2060, 1), (0x2070, 1),
   (0x2100, 32), (0x240C, 2), (0x2904, 6), (0x2944, 6), (0x2984, 6), (0x29C4, 6), (0x2A00, 16), (0x2C0C, 5), (0x3038, 1), (0x3814, 1)]

/-- Does a register carry a parity bit (15 R436)? -/
def hasParity (off : Nat) : Bool :=
  let a := accessOf off
  isReg off && (a.1 == .g || (a.1 == .rw && !([0x48, 0x4C, 0x50] : List Nat).contains off)
    || cfgRuns.any (fun r => decide (r.1 ≤ off) && decide (off < r.1 + 4 * r.2))
    || (decide (0x0500 ≤ off) && decide (off < 0x0700) && decide (off % 16 < 12))
    || (decide (0x0900 ≤ off) && decide (off < 0x0B00) && (off % 16 == 0 || off % 16 == 12))
    || (decide (0x1440 ≤ off) && decide (off < 0x1480) && off % 16 == 4)
    || (decide (0x1C40 ≤ off) && decide (off < 0x1D00) && [4, 12, 16, 20].contains (off % 0x20))
    || (decide (0x2500 ≤ off) && decide (off < 0x2540) && off % 8 == 4)
    || (decide (0x3910 ≤ off) && decide (off < 0x3970) && [4, 8].contains (off % 16)))

/-- A parity mismatch is found: the register is reloaded from its reference, which is its value in the model; a reference that
cannot be read is an uncorrectable error of the retained store (15 R437, R438). (DESIGN CHOICE, log 67) -/
def State.parityErr (s : State) (off : Nat) (found : Word) (intact : Bool) : State :=
  if !hasParity off then s
  else
    let s := State.recordEvent { s with mod := { s.mod with parityCnt := Bits.inc s.mod.parityCnt } } .mod 2 off found
    if intact then s else s.failModule

/-- SCRUB_PASS (15 R437, R438): a pass of `us` µs has found these offsets, the values found and whether the reference could
be read. (DESIGN CHOICE, log 67) -/
def execScrubPass (us : Nat) (found : List (Nat × Word × Bool)) (s : State) : Host.Outcome State Fault Refusal :=
  let s := found.foldl (fun (s : State) e => s.parityErr e.1 e.2.1 e.2.2) s
  .next { s with
    mod := { s.mod with passes := s.mod.passes + 1, longestUs := max s.mod.longestUs us }
    mnt := { s.mnt with scrubLeft := s.mnt.scrubLeft - 1 } }

/-- PARITY_CHECKED_READ (15 R437). (DESIGN CHOICE, log 67) -/
def execParityCheckedRead (who : Requester) (off : Nat) (found : Word) (intact : Bool) (s : State) :
    Host.Outcome State Fault Refusal :=
  .next (if hasParity off then ((s.parityErr off found intact).busRead who off).2 else s)

end Sys2Proof.Machine
end

