-- ==== Sys2Proof/Machine/Mnt.lean ====
section
/-! DEFINITION. Machine/Mnt.lean: the commands of MNT_CMD, the hold-up measurement and the maintenance port (15 R440-R442). -/
namespace Sys2Proof.Machine

/-! MNT_CMD. -/

/-- The hold-up time has been measured, in 0.1 ms (15 R440). -/
def State.holdupMeasured (s : State) (tenths : Nat) : State :=
  State.setEventIf { s with mod := { s.mod with holdup := tenths, holdupOk := decide (240 ≤ tenths) } } (decide (tenths < 240)) .mod 6

/-- HOLDUP_MEASURE (15 R440): every 60 s; a loss of both supplies abandons it (18 R491). -/
def execHoldupMeasure (tenths : Nat) (s : State) : Host.Outcome State Fault Refusal :=
  let due := match s.mod.holdupAt with
    | some t => decide (t + 6000000 ≤ s.mod.uptime)
    | none => true
  if !s.mod.powered || !due then .next s
  else .next (State.holdupMeasured { s with mod := { s.mod with holdupAt := some s.mod.uptime } } tenths)

/-- HOLDUP_TEST (15 R442): the host writes 1 to its bit of MNT_CMD; the maintenance port does so with MNT_WRITE.
(DEDUCED, log 66) -/
def execHoldupTest (s : State) : Host.Outcome State Fault Refusal := .next (s.busWrite .host 0x3C0C 4#32)

/-- SCRUB_NOW (15 R438, R442); `busy` says that a pass is running, after which one more pass has to run.
(DEDUCED, log 66) -/
def execScrubNow (who : Requester) (busy : Bool) (s : State) : Host.Outcome State Fault Refusal :=
  let t := s.busWrite who 0x3C0C 2#32
  let started := !s.mnt.scrubNow && t.mnt.scrubNow
  .next (if started && busy then { t with mnt := { t.mnt with scrubLeft := 2 } } else t)

/-- IDENTIFY (15 R442), as HOLDUP_TEST. (DEDUCED, log 66) -/
def execIdentify (s : State) : Host.Outcome State Fault Refusal := .next (s.busWrite .host 0x3C0C 1#32)

/-- MNT_CMD_DONE (15 R442): bit `cmd` of MNT_CMD completes: IDENTIFY after 10 s, HOLDUP_TEST after 200 µs with `tenths`
measured, SCRUB_NOW once it has seen its passes. -/
def execMntCmdDone (cmd : Fin 3) (tenths : Nat) (s : State) : Host.Outcome State Fault Refusal :=
  if !s.mod.powered then .next s
  else match cmd.val with
  | 0 => if s.mnt.identify && decide (s.mnt.identAt + 1000000 ≤ s.mod.uptime) then .next (State.setEvent { s with mnt := { s.mnt with identify := false } } .mnt 3) else .next s
  | 1 =>
    if s.mnt.scrubNow && s.mnt.scrubLeft == 0 then .next (State.setEvent { s with mnt := { s.mnt with scrubNow := false } } .mnt 3)
    else .next s
  | _ =>
    if s.mnt.holdTest && decide (s.mnt.testAt + 20 ≤ s.mod.uptime) then
      .next (State.setEvent (State.holdupMeasured { s with mnt := { s.mnt with holdTest := false } } tenths) .mnt 3)
    else .next s

/-! The maintenance port. -/

/-- Can the port take a message: a USB host is attached and the module has supply? -/
def State.mntOn (s : State) : Bool := s.mnt.attached && s.mod.powered

/-- The port queues an answer. -/
def State.answer (s : State) (a : MntOut) : State := { s with mnt := { s.mnt with sent := s.mnt.sent ++ [a] } }

/-- A message has been received whole. -/
def State.message (s : State) : State :=
  { s with mnt := { s.mnt with msgCnt := s.mnt.msgCnt + 1#64, lastMsg := s.nowNs } }

/-- An OPEN fails: after 5 failures within 60 s, OPEN is refused for 300 s (15 R441). -/
def State.openFailed (s : State) : State :=
  let m := s.mnt
  let now := s.nowNs
  let fails := if m.lockout then [] else m.fails.filter (fun t => decide (now < t + 60000000000)) ++ [now]
  let full := decide (5 ≤ fails.length)
  (State.setEvent { s with mnt := { m with
    authCnt := Bits.inc m.authCnt, fails := if full then [] else fails, lockout := m.lockout || full, lockNs := if full then now else m.lockNs } } .mnt 2).answer .refused

/-- The rights that an enrolled key grants (17 *Keys*). -/
def CfgBlk.rights (c : CfgBlk) (key : Nat) : Option Rights := (c.keyStore.maintKeys.find? (fun e => e.1 == key)).map Prod.snd

/-- MNT_OPEN (15 R441): `key` is the key whose authentication exchange succeeded. (DEDUCED, log 68) -/
def execMntOpen (key : Option Nat) (s : State) : Host.Outcome State Fault Refusal :=
  if !s.mntOn then .next s
  else
    let s := s.message
    match key.bind s.cfg.rights with
    | some r =>
      if s.mnt.lockout then .next s.openFailed
      else .next ((State.setEvent { s with mnt := { s.mnt with session := some r, sessKey := key.getD 0 } } .mnt 0).answer .opened)
    | none => .next s.openFailed

/-- MNT_CLOSE (15 R441). -/
def execMntClose (s : State) : Host.Outcome State Fault Refusal :=
  if !s.mntOn then .next s
  else
    let s := s.message
    if s.mnt.session.isNone then .next (s.answer .refused) else .next (s.closeSession.answer .closed)

/-- Does the open session hold a right, outside the Kindling ROM (16 *Start-up check failures*)? -/
def State.mntRight (s : State) (p : Rights → Bool) : Bool :=
  s.cfg.phase != .rom && match s.mnt.session with | some r => p r | none => false

/-- Words read one after another in ascending offset. -/
def State.readWords (s : State) (off : Nat) : Nat → List Word × State
  | 0 => ([], s)
  | n + 1 =>
    let r := s.busRead .maint off
    let l := State.readWords r.2 (off + 4) n
    (r.1 :: l.1, l.2)

/-- MNT_READ (15 R441). -/
def execMntRead (off count : Nat) (s : State) : Host.Outcome State Fault Refusal :=
  if !s.mntOn then .next s
  else
    let s := s.message
    if !s.mntRight Rights.read || count = 0 || decide (64 < count) then .next (s.answer .refused)
    else
      let r := s.readWords off count
      .next (r.2.answer (.words r.1))

/-- MNT_WRITE (15 R426, R441): a session without the WRITE right is refused, and its write counts as one that a right forbids. -/
def execMntWrite (off : Nat) (w : Word) (s : State) : Host.Outcome State Fault Refusal :=
  if !s.mntOn then .next s
  else
    let s := s.message
    if s.mnt.session.isNone || s.cfg.phase == .rom then .next (s.answer .refused)
    else if s.mntRight Rights.write then .next ((s.busWrite .maint off w).answer .written)
    else .next ((s.busWrite .maint off w).answer .refused)

/-- MNT_COMMAND (15 R441): the message waits for the next service pass. (DEDUCED, log 68) -/
def execMntCommand (d : Desc) (data : List Byte) (obj : ImageObj) (pkg : Package × Option Nat) (s : State) :
    Host.Outcome State Fault Refusal :=
  if !s.mntOn then .next s
  else
    let s := s.message
    if match s.mnt.session with | some r => r.command | none => false then
      .next { s with mnt := { s.mnt with cmds := s.mnt.cmds ++ [{ desc := d, data := data, obj := obj, pkg := pkg }] } }
    else .next (s.answer .refused)

/-- MNT_IDLE_TIMEOUT (15 R441): 900 s after the last message. (DEDUCED, log 68) -/
def execMntIdleTimeout (s : State) : Host.Outcome State Fault Refusal :=
  if s.nowNs < s.mnt.lastMsg + 900000000000 then .next s else .next s.closeSession

/-- MNT_CABLE_REMOVED (15 R441). -/
def execMntCableRemoved (s : State) : Host.Outcome State Fault Refusal :=
  .next (State.closeSession { s with mnt := { s.mnt with attached := false } })

/-- MNT_CABLE_ATTACHED (15 R442). -/
def execMntCableAttached (s : State) : Host.Outcome State Fault Refusal :=
  .next { s with mnt := { s.mnt with attached := true } }

/-- MNT_LOCKOUT_END (15 R441): after 300 s the count of failures starts afresh. -/
def execMntLockoutEnd (s : State) : Host.Outcome State Fault Refusal :=
  if !s.mnt.lockout || decide (s.nowNs < s.mnt.lockNs + 300000000000) then .next s
  else .next { s with mnt := { s.mnt with lockout := false, fails := [] } }

end Sys2Proof.Machine
end

