-- ==== Sys2Proof/Machine/Modbus.lean ====
section
/-! DEFINITION. Machine/Modbus.lean: the Modbus/TCP server (07 R221). -/
namespace Sys2Proof.Machine

/-- The function codes that the server supports. -/
def modbusCodes : List Nat := [0x01, 0x02, 0x03, 0x04, 0x05, 0x06, 0x0F, 0x10, 0x17]

/-- The declaration of a Modbus exchange area. (DESIGN CHOICE, log 21) -/
def State.modbusArea (s : State) (n : Nat) : Option AreaDef := if 256 ≤ n then s.areaDef n else none

/-- Does an operation lie within what it names? (PRESUMED, log 69) -/
def State.modbusOk (s : State) (o : ModbusOp) : Bool :=
  match o with
  | .read task off len => (s.taskCfg task).configured && decide (off + len ≤ (s.progTask task).size)
  | .write area off bytes => match s.modbusArea area with
    | some d => !d.read && decide (off + bytes.length ≤ d.len)
    | none => false

/-- The bytes that a request reads. -/
def State.modbusRead (s : State) (o : ModbusOp) : List Byte :=
  match o with
  | .read task off len => (s.task task).bytes { off := off, len := len }
  | .write _ _ _ => []

/-- What a request writes. (PRESUMED, log 69) -/
def State.modbusWrite (s : State) (o : ModbusOp) : State :=
  match o with
  | .read _ _ _ => s
  | .write area off bytes => s.storeArea area off bytes

/-- The server sends a segment with `n` bytes of Modbus (PRESUMED, log 69: 40 bytes of IP and TCP, 7 of MBAP). -/
def State.netAnswer (s : State) (n : Nat) (mk : List (Nat × Nat) → Option Half → NetOut) : State :=
  s.svSend (2 * Bits.get s.net.pairCfg 14 1) (18 + 40 + 7 + n) true mk

/-- What a request of a supported kind does: the writes come before the reads (function code 0x17); the exception codes are those of
Modbus. (PRESUMED, log 69) -/
def State.modbusServe (s : State) (conn fn : Nat) (ops : List ModbusOp) : State :=
  if !modbusCodes.contains fn then s.netAnswer 2 (fun on q => .modbusError on q conn fn 1)
  else if !ops.all s.modbusOk then s.netAnswer 2 (fun on q => .modbusError on q conn fn 2)
  else
    let t := ops.foldl State.modbusWrite s
    let bytes := ops.flatMap t.modbusRead
    t.netAnswer (2 + bytes.length) (fun on q => .modbus on q conn fn bytes)

/-- MODBUS_REQUEST (07 R221): only the module whose gate is open serves, from READY on, at most 8 connections; a segment of a
connection that is not open is answered with RST. -/
def execModbusRequest (conn : Nat) (seg : TcpSeg) (fn : Nat) (ops : List ModbusOp) (s : State) : Host.Outcome State Fault Refusal :=
  let isOpen := s.net.conns.contains conn
  if !s.gateOpen || !s.mod.ready || s.svDown || !Bits.bit s.net.pairCfg 15 || s.net.isolated (Bits.get s.net.pairCfg 14 1) then .next s
  else if !isOpen && (seg != .syn || decide (8 ≤ s.net.conns.length)) then .next (s.netAnswer 0 (fun on q => .reset on q conn))
  else
    let others := s.net.conns.filter (fun c => c != conn)
    let t := s.modbusServe conn fn ops
    .next { t with net := { t.net with conns := if seg = .fin then others else others ++ [conn] } }

end Sys2Proof.Machine
end

