-- ==== Sys2Proof/Machine/Tick.lean ====
section
/-! DEFINITION. Machine/Tick.lean: the station tick (06 R162): wall time advances, and what waits for a tick begins. -/
namespace Sys2Proof.Machine

/-- How many T0s of a periodic task lie at station ticks up to and with `tick` (02 R29). -/
def TaskCfg.countTo (c : TaskCfg) (tick : Nat) : Nat :=
  if c.kind = 1 ∧ c.ticks ≠ 0 ∧ c.phaseTicks ≤ tick then (tick - c.phaseTicks) / c.ticks + 1 else 0

/-- The T0s of a task that a forward step from tick `a` to tick `b` passes are skipped; DELTA_T of the next cycle leaves the
step of `ns` ns out (06 R167). (DESIGN CHOICE, log 24) -/
def State.stepTask (a b ns : Nat) (s : State) (n : Nat) : State :=
  let t := s.task n
  if t.mode = .stop ∨ t.lastT0.isNone then s
  else
    let k := (s.taskCfg n).countTo (b - 1) - (s.taskCfg n).countTo a
    let late := if (s.taskCfg n).angle then t.lastT0.map (· + ns) else t.lastT0
    let s := s.setTask n { t with prevT0 := t.prevT0.map (· + ns), lastT0 := late, skip := t.skip + k }
    State.setEventIf { s with cyc := { s.cyc with skipCnt := s.cyc.skipCnt + BitVec.ofNat 64 k } } (decide (0 < k)) .cyc 6

/-- Wall time reaches the next station tick, a forward step with it (06 R162, R167). (DESIGN CHOICE, log 24) -/
def State.advance (s : State) : State :=
  let step := s.time.fwdStep
  let a := s.tickNo
  let b := (s.nowNs + step) / 10000 + 1
  let s := { s with time := TimeBlk.setTotal { s.time with fwdStep := 0, frac := 0, stepCnt := if step = 0 then s.time.stepCnt else Bits.inc s.time.stepCnt } (b * 10000) }
  if step = 0 then s
  else
    let any := s.taskRunning
    (s.configuredTasks.foldl (State.stepTask a b step) s).setEventIf any .time 6

/-- The time unit and the angle clocks at a station tick (06 R164, R166, R175, R178, R180). -/
def State.timeTick (s : State) (env : TickEnv) : State :=
  let t := s.time.slewTick
  let t := { t with holdTicks := if t.disc = Discipline.holdover then t.holdTicks + 1 else t.holdTicks }
  let t := t.mains env
  let t := (List.range 4).foldl (fun (t : TimeBlk) c => t.setClock c (AngleClock.tick (s.time.clock c) (t.clock c) (s.free + c))) t
  { s with time := t, free := s.free + 4 }

/-- A station supply measured, with the time for which it has stood at or above 17.0 V (15 R440). -/
def Supply.measure (p : Supply) (mv : Nat) : Supply := { p with mv := mv, up := if 17000 ≤ mv then p.up + 1 else 0 }

/-- What the module measures of itself (15 R440, 11 R342, 18 R485), with the errors that its memories have corrected (03 R84,
01 R21: DESIGN CHOICE, log 100). -/
def State.measureTick (s : State) (env : TickEnv) : State :=
  let m := { s.mod with
    psA := s.mod.psA.measure env.psA, psB := s.mod.psB.measure env.psB
    coldRail := env.cold, die := env.die, power := env.power, uptime := s.mod.uptime + 1
    coldHot := if 720 < env.cold then s.mod.coldHot + 1 else 0
    dieHot := if 1150 < env.die then s.mod.dieHot + 1 else 0
    storeCorr := s.mod.storeCorr + env.store }
  { s with mod := m, ax := (s.ax.measure env.vmMv).stationTick, fab := { s.fab with corrected := Bits.sat 16 s.fab.corrected env.sram } }

/-- The trigger definitions of a configuration switch apply from this tick on (13 R379). -/
def State.recTick (s : State) : State := { s with recorder := s.recorder.takeDefs }

/-- What has waited for a station tick begins (02 R53, 04 R130, 10 R309, R321, 16 R452). (DEDUCED, log 70) -/
def State.dueTick (s : State) : State :=
  if s.mod.failed then s else s.handoverTick.safetyTick.cfgTick.copyTick.mirrorTick.brakeDues.netTick.recTick

/-- STATION_TICK (06 R162): the tick that ends settles the mode commands it has taken; the next one begins. A module without
supply has no tick, and its time unit runs once start-up has begun it. (DESIGN CHOICE, log 24) (DEDUCED, log 70) -/
def execStationTick (env : TickEnv) (s : State) : Host.Outcome State Fault Refusal :=
  if !s.mod.powered then .next s
  else
    let s := s.measureTick env
    if !s.cfg.lanes then .next s
    else
      let s := if s.mod.failed then s else s.modeTick
      .next ((s.advance.timeTick env).dueTick)

end Sys2Proof.Machine
end

