-- ==== Sys2Proof/Machine/Dispatch.lean ====
section
/-! DEFINITION. Machine/Dispatch.lean: one arm per command, each one direct call of its meaning. -/
namespace Sys2Proof.Machine

/-- The effect of a command on everything but the queue. -/
def exec (i : Instr) (s : State) : Host.Outcome State Fault Refusal :=
  match i with
  | .seatClose slotB => Sys2Proof.Machine.execSeatClose slotB s
  | .xtlArm n => Sys2Proof.Machine.execXtlArm n s
  | .xtlDemandChange n demand => Sys2Proof.Machine.execXtlDemandChange n demand s
  | .networkUnitFault pair => Sys2Proof.Machine.execNetworkUnitFault pair s
  | .taskT0 n env => Sys2Proof.Machine.execTaskT0 n env s
  | .angleFiring n entry forward ns env => Sys2Proof.Machine.execAngleFiring n entry forward ns env s
  | .fallbackT0 n firing env => Sys2Proof.Machine.execFallbackT0 n firing env s
  | .agreedImageComplete n => Sys2Proof.Machine.execAgreedImageComplete n s
  | .rickInputDeadline n => Sys2Proof.Machine.execRickInputDeadline n s
  | .engineExamine es => Sys2Proof.Machine.execEngineExamine es s
  | .billetLoadDone e => Sys2Proof.Machine.execBilletLoadDone e s
  | .billetRetire e ok us ns => Sys2Proof.Machine.execBilletRetire e ok us ns s
  | .commitDurable n => Sys2Proof.Machine.execCommitDurable n s
  | .commitDeadline n => Sys2Proof.Machine.execCommitDeadline n s
  | .billetFault e us => Sys2Proof.Machine.execBilletFault e us s
  | .billetRunaway e addr us => Sys2Proof.Machine.execBilletRunaway e addr us s
  | .engineFence e us => Sys2Proof.Machine.execEngineFence e us s
  | .engineSelfTestDone e pass => Sys2Proof.Machine.execEngineSelfTestDone e pass s
  | .engineFwLoaded e => Sys2Proof.Machine.execEngineFwLoaded e s
  | .sramUe line engines => Sys2Proof.Machine.execSramUe line engines s
  | .sramLineReloaded line => Sys2Proof.Machine.execSramLineReloaded line s
  | .breakpointReached e off => Sys2Proof.Machine.execBreakpointReached e off s
  | .modeRun o => Sys2Proof.Machine.execModeRun o s
  | .modeStop o => Sys2Proof.Machine.execModeStop o s
  | .modeHold o => Sys2Proof.Machine.execModeHold o s
  | .modeStep o n => Sys2Proof.Machine.execModeStep o n s
  | .breakSet o n billet off => Sys2Proof.Machine.execBreakSet o n billet off s
  | .breakClear o n billet off => Sys2Proof.Machine.execBreakClear o n billet off s
  | .taskRestart o n => Sys2Proof.Machine.execTaskRestart o n s
  | .budget o n budget quota limit stop => Sys2Proof.Machine.execBudget o n budget quota limit stop s
  | .laneBlockLockLoss l => Sys2Proof.Machine.execLaneBlockLockLoss l s
  | .laneTrainAttempt l => Sys2Proof.Machine.execLaneTrainAttempt l s
  | .laneTrainTimeout l => Sys2Proof.Machine.execLaneTrainTimeout l s
  | .laneTrained l => Sys2Proof.Machine.execLaneTrained l s
  | .handshake l ok peer randA randB => Sys2Proof.Machine.execHandshake l ok peer randA randB s
  | .olviaAuthFail l => Sys2Proof.Machine.execOlviaAuthFail l s
  | .heartbeat f h => Sys2Proof.Machine.execHeartbeat f h s
  | .samples f n k vals => Sys2Proof.Machine.execSamples f n k vals s
  | .agreed f n k vals => Sys2Proof.Machine.execAgreed f n k vals s
  | .exchangeMiss n => Sys2Proof.Machine.execExchangeMiss n s
  | .hash f n m => Sys2Proof.Machine.execHash f n m s
  | .verdictDeadline n => Sys2Proof.Machine.execVerdictDeadline n s
  | .verdict f n k code ta => Sys2Proof.Machine.execVerdict f n k code ta s
  | .verdictMissing n => Sys2Proof.Machine.execVerdictMissing n s
  | .policy f m => Sys2Proof.Machine.execPolicy f m s
  | .seqstate f m => Sys2Proof.Machine.execSeqstate f m s
  | .yield f r handover => Sys2Proof.Machine.execYield f r handover s
  | .copy f m => Sys2Proof.Machine.execCopy f m s
  | .result f m => Sys2Proof.Machine.execResult f m s
  | .mismatchSelfTestDone pass => Sys2Proof.Machine.execMismatchSelfTestDone pass s
  | .handover o => Sys2Proof.Machine.execHandover o s
  | .stage o off total len first last pkg => Sys2Proof.Machine.execStage o off total len first last pkg s
  | .arm o n k => Sys2Proof.Machine.execArm o n k s
  | .disarm o => Sys2Proof.Machine.execDisarm o s
  | .discard o => Sys2Proof.Machine.execDiscard o s
  | .rollback o => Sys2Proof.Machine.execRollback o s
  | .carryComplete n => Sys2Proof.Machine.execCarryComplete n s
  | .sync sender domain first second => Sys2Proof.Machine.execSync sender domain first second s
  | .mainsLock g => Sys2Proof.Machine.execMainsLock g s
  | .mainsUnlock g => Sys2Proof.Machine.execMainsUnlock g s
  | .zEdge sh offNs => Sys2Proof.Machine.execZEdge sh offNs s
  | .shaftStandstill sh => Sys2Proof.Machine.execShaftStandstill sh s
  | .shaftOverspeed sh => Sys2Proof.Machine.execShaftOverspeed sh s
  | .slotFix n => Sys2Proof.Machine.execSlotFix n s
  | .slotMissed n => Sys2Proof.Machine.execSlotMissed n s
  | .slotFire n => Sys2Proof.Machine.execSlotFire n s
  | .slotPulseEnd n => Sys2Proof.Machine.execSlotPulseEnd n s
  | .inputEdgeCapture ch rising ns => Sys2Proof.Machine.execInputEdgeCapture ch rising ns s
  | .periodicLaunch ctx => Sys2Proof.Machine.execPeriodicLaunch ctx s
  | .streamFrameRx f => Sys2Proof.Machine.execStreamFrameRx f s
  | .hsrForward f => Sys2Proof.Machine.execHsrForward f s
  | .srcMacForget ctx => Sys2Proof.Machine.execSrcMacForget ctx s
  | .ddWindowClear ctx => Sys2Proof.Machine.execDdWindowClear ctx s
  | .portLinkDown p => Sys2Proof.Machine.execPortLinkDown p s
  | .portLinkUp p => Sys2Proof.Machine.execPortLinkUp p s
  | .modbusRequest conn seg fn ops => Sys2Proof.Machine.execModbusRequest conn seg fn ops s
  | .addressServiceRequest p r len => Sys2Proof.Machine.execAddressServiceRequest p r len s
  | .cellFrame cell crcOk seq f => Sys2Proof.Machine.execCellFrame cell crcOk seq f s
  | .crossingWatchdog c => Sys2Proof.Machine.execCrossingWatchdog c s
  | .wireBreakBandChange ch band => Sys2Proof.Machine.execWireBreakBandChange ch band s
  | .dioInputChange ch level => Sys2Proof.Machine.execDioInputChange ch level s
  | .overload ch => Sys2Proof.Machine.execOverload ch s
  | .cellOverload c currentsMa => Sys2Proof.Machine.execCellOverload c currentsMa s
  | .overloadRetry ch failed => Sys2Proof.Machine.execOverloadRetry ch failed s
  | .overtemp ch above => Sys2Proof.Machine.execOvertemp ch above s
  | .openWire ch present => Sys2Proof.Machine.execOpenWire ch present s
  | .shortSupply ch present ownOut partnerOut => Sys2Proof.Machine.execShortSupply ch present ownOut partnerOut s
  | .stuckOn ch => Sys2Proof.Machine.execStuckOn ch s
  | .cross a b => Sys2Proof.Machine.execCross a b s
  | .shareLow ch present => Sys2Proof.Machine.execShareLow ch present s
  | .testPulseStart ch demand => Sys2Proof.Machine.execTestPulseStart ch demand s
  | .testPulseEnd ch meas => Sys2Proof.Machine.execTestPulseEnd ch meas s
  | .cellUv1 c => Sys2Proof.Machine.execCellUv1 c s
  | .cellWarnClear c => Sys2Proof.Machine.execCellWarnClear c s
  | .cellSag c => Sys2Proof.Machine.execCellSag c s
  | .cellSagExit c => Sys2Proof.Machine.execCellSagExit c s
  | .cellSupplyLost c => Sys2Proof.Machine.execCellSupplyLost c s
  | .cellSupplyReturn c mv => Sys2Proof.Machine.execCellSupplyReturn c mv s
  | .cellRecovered c mv => Sys2Proof.Machine.execCellRecovered c mv s
  | .loopCrossingWatchdog c => Sys2Proof.Machine.execLoopCrossingWatchdog c s
  | .loopCellFault c => Sys2Proof.Machine.execLoopCellFault c s
  | .loopSupplyLow c => Sys2Proof.Machine.execLoopSupplyLow c s
  | .loopSupplyNormal c => Sys2Proof.Machine.execLoopSupplyNormal c s
  | .loopSupplyLost c => Sys2Proof.Machine.execLoopSupplyLost c s
  | .loopSupplyBack c mv => Sys2Proof.Machine.execLoopSupplyBack c mv s
  | .aioConversionDone results => Sys2Proof.Machine.execAioConversionDone results s
  | .aioBandChange ch na above => Sys2Proof.Machine.execAioBandChange ch na above s
  | .loopFeedReclose ch kept => Sys2Proof.Machine.execLoopFeedReclose ch kept s
  | .trimUpdate ch meanErr sawCompliance => Sys2Proof.Machine.execTrimUpdate ch meanErr sawCompliance s
  | .makeupEnter ch samples recentChange atLimit => Sys2Proof.Machine.execMakeupEnter ch samples recentChange atLimit s
  | .makeupExit ch iP => Sys2Proof.Machine.execMakeupExit ch iP s
  | .sourceRampEnd ch => Sys2Proof.Machine.execSourceRampEnd ch s
  | .sourceFault ch iOwn => Sys2Proof.Machine.execSourceFault ch iOwn s
  | .compliance ch present => Sys2Proof.Machine.execCompliance ch present s
  | .openLoop ch present => Sys2Proof.Machine.execOpenLoop ch present s
  | .readbackDiff ch present => Sys2Proof.Machine.execReadbackDiff ch present s
  | .calWindowStart partnerRamping partnerSource => Sys2Proof.Machine.execCalWindowStart partnerRamping partnerSource s
  | .calWindowEnd offsetNa gainPpm => Sys2Proof.Machine.execCalWindowEnd offsetNa gainPpm s
  | .shaftLineFault sh present => Sys2Proof.Machine.execShaftLineFault sh present s
  | .quadErr sh => Sys2Proof.Machine.execQuadErr sh s
  | .encSupplyFault sh present => Sys2Proof.Machine.execEncSupplyFault sh present s
  | .laneHSipDemand p c1 c2 => Sys2Proof.Machine.execLaneHSipDemand p c1 c2 s
  | .laneHDelayDone n => Sys2Proof.Machine.execLaneHDelayDone n s
  | .lanePDemand d => Sys2Proof.Machine.execLanePDemand d s
  | .demandWithdrawn d => Sys2Proof.Machine.execDemandWithdrawn d s
  | .timedStopDelay f => Sys2Proof.Machine.execTimedStopDelay f s
  | .discrepancyLatch lane p => Sys2Proof.Machine.execDiscrepancyLatch lane p s
  | .discrepancyClear lane p => Sys2Proof.Machine.execDiscrepancyClear lane p s
  | .resetRelease p l1 l2 d => Sys2Proof.Machine.execResetRelease p l1 l2 d s
  | .comparatorTest lane t pass => Sys2Proof.Machine.execComparatorTest lane t pass s
  | .lanePStart energised => Sys2Proof.Machine.execLanePStart energised s
  | .escalation n => Sys2Proof.Machine.execEscalation n s
  | .edmTimeout f fb => Sys2Proof.Machine.execEdmTimeout f fb s
  | .sbcBoostEnd n => Sys2Proof.Machine.execSbcBoostEnd n s
  | .brakeTestStart f => Sys2Proof.Machine.execBrakeTestStart f s
  | .brakeTestEnd f slip => Sys2Proof.Machine.execBrakeTestEnd f slip s
  | .brakeTestFail f slip => Sys2Proof.Machine.execBrakeTestFail f slip s
  | .brakeTestAbort f why slip => Sys2Proof.Machine.execBrakeTestAbort f why slip s
  | .safetyTestStart n demand => Sys2Proof.Machine.execSafetyTestStart n demand s
  | .safetyTestStepEnd n step pass => Sys2Proof.Machine.execSafetyTestStepEnd n step pass s
  | .repairTimeExpiry n => Sys2Proof.Machine.execRepairTimeExpiry n s
  | .soOverloadRetry n failed => Sys2Proof.Machine.execSoOverloadRetry n failed s
  | .axisEnable a seq => Sys2Proof.Machine.execAxisEnable a seq s
  | .axisDisable a seq => Sys2Proof.Machine.execAxisDisable a seq s
  | .axisAppend a seq entries => Sys2Proof.Machine.execAxisAppend a seq entries s
  | .axisReplace a seq entries => Sys2Proof.Machine.execAxisReplace a seq entries s
  | .axisStop a seq => Sys2Proof.Machine.execAxisStop a seq s
  | .axisEstop a seq => Sys2Proof.Machine.execAxisEstop a seq s
  | .axisVelocity a seq vel acc => Sys2Proof.Machine.execAxisVelocity a seq vel acc s
  | .axisHome a seq h => Sys2Proof.Machine.execAxisHome a seq h s
  | .axisSetRates a seq aOvr dOvr => Sys2Proof.Machine.execAxisSetRates a seq aOvr dOvr s
  | .axisClearFault a seq absent => Sys2Proof.Machine.execAxisClearFault a seq absent s
  | .axisProfileTick a => Sys2Proof.Machine.execAxisProfileTick a s
  | .axisLimitEdge a sw active edgePos => Sys2Proof.Machine.execAxisLimitEdge a sw active edgePos s
  | .axisHomingEdge a sw active edgePos => Sys2Proof.Machine.execAxisHomingEdge a sw active edgePos s
  | .axisStall a => Sys2Proof.Machine.execAxisStall a s
  | .axisHoldDelay a => Sys2Proof.Machine.execAxisHoldDelay a s
  | .axisBridgeFault a f => Sys2Proof.Machine.execAxisBridgeFault a f s
  | .axisBridgeTestDone a pass => Sys2Proof.Machine.execAxisBridgeTestDone a pass s
  | .gatedBridgeTest a pass => Sys2Proof.Machine.execGatedBridgeTest a pass s
  | .vmLow mv => Sys2Proof.Machine.execVmLow mv s
  | .vmOver mv => Sys2Proof.Machine.execVmOver mv s
  | .axisStateSave a => Sys2Proof.Machine.execAxisStateSave a s
  | .epFrameStart late => Sys2Proof.Machine.execEpFrameStart late s
  | .panelWrite o id rect len bytes => Sys2Proof.Machine.execPanelWrite o id rect len bytes s
  | .panelPresent o id => Sys2Proof.Machine.execPanelPresent o id s
  | .panelUpdate o id rect wf => Sys2Proof.Machine.execPanelUpdate o id rect wf s
  | .panelTemp o id t => Sys2Proof.Machine.execPanelTemp o id t s
  | .panelPowerOn o id => Sys2Proof.Machine.execPanelPowerOn o id s
  | .panelPowerOff o id => Sys2Proof.Machine.execPanelPowerOff o id s
  | .ptempMeasure t => Sys2Proof.Machine.execPtempMeasure t s
  | .pnlPgFall row => Sys2Proof.Machine.execPnlPgFall row s
  | .holdoffExpiry n => Sys2Proof.Machine.execHoldoffExpiry n s
  | .memFault area block verify readable => Sys2Proof.Machine.execMemFault area block verify readable s
  | .recWinSelect who w => Sys2Proof.Machine.execRecWinSelect who w s
  | .servicePass descs => Sys2Proof.Machine.execServicePass descs s
  | .dataReadDone sq tag data obj pkg => Sys2Proof.Machine.execDataReadDone sq tag data obj pkg s
  | .dmaFailure sq tag how places => Sys2Proof.Machine.execDmaFailure sq tag how places s
  | .ringAccessFailure r index how => Sys2Proof.Machine.execRingAccessFailure r index how s
  | .nop o => Sys2Proof.Machine.execNop o s
  | .mode o mode task billet off => Sys2Proof.Machine.execMode o mode task billet off s
  | .imageWrite o target off total len first last obj => Sys2Proof.Machine.execImageWrite o target off total len first last obj s
  | .activateConfig o => Sys2Proof.Machine.execActivateConfig o s
  | .activateSafety o => Sys2Proof.Machine.execActivateSafety o s
  | .activateFwEngine o e => Sys2Proof.Machine.execActivateFwEngine o e s
  | .activateFwModule o => Sys2Proof.Machine.execActivateFwModule o s
  | .areaWrite o area off bytes => Sys2Proof.Machine.execAreaWrite o area off bytes s
  | .areaRead o area addr len => Sys2Proof.Machine.execAreaRead o area addr len s
  | .recRead o first count peat annex addr len => Sys2Proof.Machine.execRecRead o first count peat annex addr len s
  | .recNote o detail words => Sys2Proof.Machine.execRecNote o detail words s
  | .trigger o n => Sys2Proof.Machine.execTrigger o n s
  | .quota o source quota => Sys2Proof.Machine.execQuota o source quota s
  | .panel o id op => Sys2Proof.Machine.execPanel o id op s
  | .sqTailDoorbell n tail => Sys2Proof.Machine.execSqTailDoorbell n tail s
  | .cqHeadDoorbell n head => Sys2Proof.Machine.execCqHeadDoorbell n head s
  | .eqHeadDoorbell head => Sys2Proof.Machine.execEqHeadDoorbell head s
  | .ringStopped n => Sys2Proof.Machine.execRingStopped n s
  | .msixCoalesceTimeout r => Sys2Proof.Machine.execMsixCoalesceTimeout r s
  | .busMasterEnable msixEn msixMask => Sys2Proof.Machine.execBusMasterEnable msixEn msixMask s
  | .pcieLinkUp speed width => Sys2Proof.Machine.execPcieLinkUp speed width s
  | .registerWrite who off w => Sys2Proof.Machine.execRegisterWrite who off w s
  | .badAccess who write => Sys2Proof.Machine.execBadAccess who write s
  | .guardedValueWrite who off w => Sys2Proof.Machine.execGuardedValueWrite who off w s
  | .complementWrite who off w ns => Sys2Proof.Machine.execComplementWrite who off w ns s
  | .guardLate who => Sys2Proof.Machine.execGuardLate who s
  | .bitAliasWrite who off b v => Sys2Proof.Machine.execBitAliasWrite who off b v s
  | .lowWordRead who off => Sys2Proof.Machine.execLowWordRead who off s
  | .groupLatchRead who off => Sys2Proof.Machine.execGroupLatchRead who off s
  | .scrubPass us found => Sys2Proof.Machine.execScrubPass us found s
  | .holdupMeasure tenths => Sys2Proof.Machine.execHoldupMeasure tenths s
  | .scrubNow who busy => Sys2Proof.Machine.execScrubNow who busy s
  | .mntCmdDone cmd tenths => Sys2Proof.Machine.execMntCmdDone cmd tenths s
  | .mntOpen key => Sys2Proof.Machine.execMntOpen key s
  | .mntRead off count => Sys2Proof.Machine.execMntRead off count s
  | .mntWrite off w => Sys2Proof.Machine.execMntWrite off w s
  | .mntCommand d data obj pkg => Sys2Proof.Machine.execMntCommand d data obj pkg s
  | .supplyLost b => Sys2Proof.Machine.execSupplyLost b s
  | .supplyBack b => Sys2Proof.Machine.execSupplyBack b s
  | .thermalWarn on => Sys2Proof.Machine.execThermalWarn on s
  | .powerUp psA psB romOk torn bookA bookB rebuilt failing => Sys2Proof.Machine.execPowerUp psA psB romOk torn bookA bookB rebuilt failing s
  | .firmwareVerified okA okB => Sys2Proof.Machine.execFirmwareVerified okA okB s
  | .objectsVerified found => Sys2Proof.Machine.execObjectsVerified found s
  | .lanesStart energised => Sys2Proof.Machine.execLanesStart energised s
  | .enumerate cmd => Sys2Proof.Machine.execEnumerate cmd s
  | .enumCollectEnd delays => Sys2Proof.Machine.execEnumCollectEnd delays s
  | .ident serial position hops0 hops1 => Sys2Proof.Machine.execIdent serial position hops0 hops1 s
  | .rxAuth u ok randM randU => Sys2Proof.Machine.execRxAuth u ok randM randU s
  | .pathDelayMeasure delays => Sys2Proof.Machine.execPathDelayMeasure delays s
  | .reply u hops0 hops1 samples => Sys2Proof.Machine.execReply u hops0 hops1 samples s
  | .ack u n k => Sys2Proof.Machine.execAck u n k s
  | .unitLost u => Sys2Proof.Machine.execUnitLost u s
  | .rxAckDeadline n => Sys2Proof.Machine.execRxAckDeadline n s
  | .edmFaultClear f => Sys2Proof.Machine.execEdmFaultClear f s
  | .soOverload n => Sys2Proof.Machine.execSoOverload n s
  | .soOpenLoad n => Sys2Proof.Machine.execSoOpenLoad n s
  | .fwStuck n => Sys2Proof.Machine.execFwStuck n s
  | .lowSideClosureFail n => Sys2Proof.Machine.execLowSideClosureFail n s
  | .shaftCountEdge sh a b offNs => Sys2Proof.Machine.execShaftCountEdge sh a b offNs s
  | .gridSenseSaturated g => Sys2Proof.Machine.execGridSenseSaturated g s
  | .parityCheckedRead who off found intact => Sys2Proof.Machine.execParityCheckedRead who off found intact s
  | .ptpAnnounce m => Sys2Proof.Machine.execPtpAnnounce m s
  | .ptpDelayResponse p ns => Sys2Proof.Machine.execPtpDelayResponse p ns s
  | .resetPress p l1 l2 => Sys2Proof.Machine.execResetPress p l1 l2 s
  | .stationTick env => Sys2Proof.Machine.execStationTick env s
  | .seatOpen => Sys2Proof.Machine.execSeatOpen s
  | .partnerSeatOpen => Sys2Proof.Machine.execPartnerSeatOpen s
  | .partnerSeatClose => Sys2Proof.Machine.execPartnerSeatClose s
  | .cycleControllerFault => Sys2Proof.Machine.execCycleControllerFault s
  | .svFault => Sys2Proof.Machine.execSvFault s
  | .twinUnitFault => Sys2Proof.Machine.execTwinUnitFault s
  | .timeUnitFault => Sys2Proof.Machine.execTimeUnitFault s
  | .retainedStoreUe => Sys2Proof.Machine.execRetainedStoreUe s
  | .powerLoss => Sys2Proof.Machine.execPowerLoss s
  | .heartbeatSend => Sys2Proof.Machine.execHeartbeatSend s
  | .partnerLost => Sys2Proof.Machine.execPartnerLost s
  | .keeperLapse => Sys2Proof.Machine.execKeeperLapse s
  | .partnerRoleLineHigh => Sys2Proof.Machine.execPartnerRoleLineHigh s
  | .partnerRoleLineLow => Sys2Proof.Machine.execPartnerRoleLineLow s
  | .roleConflict => Sys2Proof.Machine.execRoleConflict s
  | .splitBrainRelease => Sys2Proof.Machine.execSplitBrainRelease s
  | .startingRoleWait => Sys2Proof.Machine.execStartingRoleWait s
  | .yieldFail => Sys2Proof.Machine.execYieldFail s
  | .stateCopyTimeout => Sys2Proof.Machine.execStateCopyTimeout s
  | .stagingComplete => Sys2Proof.Machine.execStagingComplete s
  | .precarryComplete => Sys2Proof.Machine.execPrecarryComplete s
  | .settleComplete => Sys2Proof.Machine.execSettleComplete s
  | .syncTimeout => Sys2Proof.Machine.execSyncTimeout s
  | .quarantineExpiry => Sys2Proof.Machine.execQuarantineExpiry s
  | .holdoverExpired => Sys2Proof.Machine.execHoldoverExpired s
  | .syncWaitExpiry => Sys2Proof.Machine.execSyncWaitExpiry s
  | .budgetWindow => Sys2Proof.Machine.execBudgetWindow s
  | .calWindowAbandon => Sys2Proof.Machine.execCalWindowAbandon s
  | .lanePFault => Sys2Proof.Machine.execLanePFault s
  | .laneHFault => Sys2Proof.Machine.execLaneHFault s
  | .lsSupplyLow => Sys2Proof.Machine.execLsSupplyLow s
  | .lsSupplyBack => Sys2Proof.Machine.execLsSupplyBack s
  | .lcdFrameStart => Sys2Proof.Machine.execLcdFrameStart s
  | .frontBackCopyDone => Sys2Proof.Machine.execFrontBackCopyDone s
  | .tempTimeout => Sys2Proof.Machine.execTempTimeout s
  | .pnlPgRise => Sys2Proof.Machine.execPnlPgRise s
  | .panelUnitFault => Sys2Proof.Machine.execPanelUnitFault s
  | .recordWrite => Sys2Proof.Machine.execRecordWrite s
  | .quotaWindow => Sys2Proof.Machine.execQuotaWindow s
  | .pcieLinkDown => Sys2Proof.Machine.execPcieLinkDown s
  | .pcieHotReset => Sys2Proof.Machine.execPcieHotReset s
  | .flr => Sys2Proof.Machine.execFlr s
  | .holdupTest => Sys2Proof.Machine.execHoldupTest s
  | .identify => Sys2Proof.Machine.execIdentify s
  | .mntClose => Sys2Proof.Machine.execMntClose s
  | .mntIdleTimeout => Sys2Proof.Machine.execMntIdleTimeout s
  | .mntCableRemoved => Sys2Proof.Machine.execMntCableRemoved s
  | .mntLockoutEnd => Sys2Proof.Machine.execMntLockoutEnd s
  | .dieOvertemp => Sys2Proof.Machine.execDieOvertemp s
  | .twinSearchEnd => Sys2Proof.Machine.execTwinSearchEnd s
  | .timeSourceSettled => Sys2Proof.Machine.execTimeSourceSettled s
  | .configSwitchInstant => Sys2Proof.Machine.execConfigSwitchInstant s
  | .rickFormed => Sys2Proof.Machine.execRickFormed s
  | .rickPoll => Sys2Proof.Machine.execRickPoll s
  | .commission => Sys2Proof.Machine.execCommission s
  | .commissionDone => Sys2Proof.Machine.execCommissionDone s
  | .commissionArmExpiry => Sys2Proof.Machine.execCommissionArmExpiry s
  | .safetyCellPowerLost => Sys2Proof.Machine.execSafetyCellPowerLost s
  | .safetyCellPowerBack => Sys2Proof.Machine.execSafetyCellPowerBack s
  | .svRestartDone => Sys2Proof.Machine.execSvRestartDone s
  | .vmHigh => Sys2Proof.Machine.execVmHigh s
  | .vmLowClear => Sys2Proof.Machine.execVmLowClear s
  | .busMasterDisable => Sys2Proof.Machine.execBusMasterDisable s
  | .mntCableAttached => Sys2Proof.Machine.execMntCableAttached s
  | .supervisionFrameSend => Sys2Proof.Machine.execSupervisionFrameSend s
  | .slewDone => Sys2Proof.Machine.execSlewDone s

end Sys2Proof.Machine
end

