-- ==== Sys2Proof/Safety.lean ====
section
/-! DEFINITION. Safety.lean: what holds of every state that the module can be in, and the parts of a state that statements
compare. -/
namespace Sys2Proof.Machine

/-- A submission ring is sound when it is DISABLED or its size is legal and HEAD and TAIL lie in it (14 R398, R422). -/
def SubRing.Ok (q : SubRing) : Prop :=
  q.state = .disabled ∨ (1 ≤ Bits.get q.cfg 24 4 ∧ Bits.get q.cfg 24 4 ≤ 12 ∧ q.head < q.size ∧ q.tail < q.size)

/-- Every submission ring is sound. -/
def State.RingsOk (s : State) : Prop := ∀ n, (s.host.sq n).Ok

/-- What every command keeps: sound submission rings, and a fault annex of at most 64 entries (13 R392). -/
def State.Inv (s : State) : Prop := s.RingsOk ∧ s.recorder.annex.length ≤ 64

/-! What a report touches and nothing else: EVENT bits, the requests and counts of the recorder, the event ring with the
interrupts and the sent log of the host, the sent log of the maintenance port and the count of free values. A statement that
says what a command changes compares states apart from these. -/

/-- The event ring without what an entry moves. -/
def OutRing.bare (q : OutRing) : OutRing := { q with tail := 0, phase := true, full := 0, dropped := 0, irqPend := 0, irqNs := 0 }

/-- The host block without what an event entry moves. -/
def HostBlk.bare (h : HostBlk) : HostBlk := { h with pba := 0#32, eq := h.eq.bare, kept := [], keptMsix := [], sent := [] }

/-- The host block without what an event entry or a completion moves. -/
def HostBlk.core (h : HostBlk) : HostBlk := { h.bare with taken := [], cqs := [] }

/-- The recorder without what a request or a capture moves. -/
def Recorder.bare (r : Recorder) : Recorder :=
  { r with queue := [], use := [], refuseCnt := [], refused := [], trigs := [], overrunCnt := 0#32 }

/-- The maintenance port without its log of answers. -/
def MntBlk.bare (m : MntBlk) : MntBlk := { m with sent := [] }

/-- The maintenance port without what an event entry or a completion moves. -/
def MntBlk.core (m : MntBlk) : MntBlk := { m with sent := [], cmds := [] }

/-- The state without what a report moves. -/
def State.bare (s : State) : State :=
  { s with event := [], free := 0, recorder := s.recorder.bare, host := s.host.bare, mnt := s.mnt.bare }

/-- The parts of a state; `done` is what the completion of a command moves: taken descriptors, completion rings and waiting
maintenance commands. -/
inductive Part where
  | mod | mnt | recorder | host | done | time | dio | aio | safe | ax | pnl | net | cyc | fab | twin | xch | cfg
deriving DecidableEq, Repr

/-- The state without what a report moves and without the parts listed: two states that agree on this differ nowhere else. -/
def State.sans (l : List Part) (s : State) : State :=
  { eventEn := s.eventEn
    mod := if .mod ∈ l then {} else s.mod
    mnt := if .mnt ∈ l then {} else if .done ∈ l then s.mnt.core else s.mnt.bare
    recorder := if .recorder ∈ l then {} else s.recorder.bare
    host := if .host ∈ l then {} else if .done ∈ l then s.host.core else s.host.bare
    time := if .time ∈ l then {} else s.time
    dio := if .dio ∈ l then {} else s.dio
    aio := if .aio ∈ l then {} else s.aio
    safe := if .safe ∈ l then {} else s.safe
    ax := if .ax ∈ l then {} else s.ax
    pnl := if .pnl ∈ l then {} else s.pnl
    net := if .net ∈ l then {} else s.net
    cyc := if .cyc ∈ l then {} else s.cyc
    fab := if .fab ∈ l then {} else s.fab
    twin := if .twin ∈ l then {} else s.twin
    xch := if .xch ∈ l then {} else s.xch
    cfg := if .cfg ∈ l then {} else s.cfg
    pending := s.pending }

/-- An EVENT bit is set. -/
def State.raised (s : State) (b : Block) (n : Nat) : Bool := Bits.bit (s.eventReg b) n

/-- The EVENT bits that any report may set besides its own: REC 3 and 5 when a source is over its quota or a capture is lost, and
HOST 3 when the event ring is full (13 R382, R384, 14 R414). -/
def reportBits : List (Block × Nat) := [(.recorder, 3), (.recorder, 5), (.host, 3)]

/-- From `s` to `t` every EVENT bit that stands stays, the bits of `l` are set, and no other is but those of `reportBits`. -/
def State.Raises (s t : State) (l : List (Block × Nat)) : Prop :=
  (∀ b n, s.raised b n = true → t.raised b n = true) ∧ (∀ e ∈ l, t.raised e.1 e.2 = true) ∧
    ∀ b n, t.raised b n = true → s.raised b n = true ∨ (b, n) ∈ l ∨ (b, n) ∈ reportBits

/-- From `s` to `t` every EVENT bit that stands stays, and none is set but bits of `l` and of `reportBits`. -/
def State.MayRaise (s t : State) (l : List (Block × Nat)) : Prop :=
  (∀ b n, s.raised b n = true → t.raised b n = true) ∧
    ∀ b n, t.raised b n = true → s.raised b n = true ∨ (b, n) ∈ l ∨ (b, n) ∈ reportBits

/-- The command answers a next state that is `u` but for what reports move, and that sets exactly the EVENT bits of `l`. -/
def RunsTo (i : Instr) (s u : State) (l : List (Block × Nat)) : Prop :=
  ∃ t, exec i s = .next t ∧ t.bare = u.bare ∧ s.Raises t l

/-- As `RunsTo`, but for what the completions of commands move as well. -/
def EndsTo (i : Instr) (s u : State) (l : List (Block × Nat)) : Prop :=
  ∃ t, exec i s = .next t ∧ t.sans [.done] = u.sans [.done] ∧ s.Raises t l

/-- From `s` to `t` only the parts listed and what reports move may change, and EVENT bits of `m` and of `reportBits` may be set. -/
def Moves (s t : State) (l : List Part) (m : List (Block × Nat)) : Prop := t.sans l = s.sans l ∧ s.MayRaise t m

/-- The command answers the next state `t`, which differs from `s` only in the parts listed and in what reports move, and sets at
most the EVENT bits of `l`. -/
def Changes (i : Instr) (s t : State) (parts : List Part) (l : List (Block × Nat)) : Prop :=
  exec i s = .next t ∧ t.sans parts = s.sans parts ∧ s.MayRaise t l

/-- The twin unit without what sending a frame moves. -/
def TwinBlk.quiet (t : TwinBlk) : TwinBlk := { t with sent := [], heads := [], txSeq := 0#32, txCtr := [] }

/-- A function without what lane P times of it. -/
def FnState.untimed (v : FnState) : FnState := { v with on := false, swNs := 0, fbSeen := false, openNs := none, offNs := none }

/-- The cell `y` is `x` but for tests that ended, holds that were lost, the count of tests preempted, and the times that the lanes keep of
outputs and functions: what follows a change of the cell (10 R296, R302, R303, R307-R309, R314). -/
structure Settled (x y : Safe) : Prop where
  rest : y = { x with so := y.so, fn := y.fn, preempted := y.preempted }
  so   : ∀ n, y.getSo n = { x.getSo n with test := (y.getSo n).test, held := (y.getSo n).held, onNs := (y.getSo n).onNs, openNs := (y.getSo n).openNs }
  fn   : ∀ f, (y.getFn f).untimed = (x.getFn f).untimed
  test : ∀ n, (y.getSo n).test = (x.getSo n).test ∨ (y.getSo n).test = none
  held : ∀ n, (y.getSo n).held = (x.getSo n).held ∨ (y.getSo n).held = false

/-- A task that only its own cycle waits for at a T0: the module decides for itself, no exchange, restart, limit, mode or policy is
due for it, it runs, it stays in the program, and it has neither outputs to apply nor a release of its stages to make. -/
structure State.Calm (s : State) (n : Nat) : Prop where
  decides  : s.follows = false
  link     : s.twin.link ≠ .catchingUp
  exchange : s.xch.cur.state = .idle
  firmware : s.cfg.fwWait = false
  changing : n ∉ s.cfg.changing
  modes    : s.cyc.pends = []
  limits   : (s.task n).next = none
  restart  : (s.task n).restart = none
  due      : (s.task n).due = none
  policy   : (s.task n).pol = .active
  mode     : (s.task n).mode = .run
  outputs  : (s.task n).toApply = false
  stays    : (s.task n).gone = false
  release  : (s.twin.task n).release = false

/-- The state once a register write of a requester has been seen: it ends the requester's expired guard (15 R430). -/
def State.written (s : State) (who : Requester) : State := s.setReq who { s.req who with expired := none }

/-- The state after an axis has met a command record with the sequence number `seq`: LAST_SEQ and the position are kept in the
retained store too (11 R328, R344). -/
def State.axAfter (s : State) (a : Nat) (seq : Word) (x : Axis) : State :=
  { s with ax := ({ s.ax with past := Tbl.set [] s.ax.past a [] } : AxBlk).set a { x with lastSeq := seq, savedSeq := seq, savedPos := x.pos, savedNs := s.nowNs } }

end Sys2Proof.Machine
end

