-- ==== Sys2Proof/Certificates/Slice0/Obligations.lean ====
section
/-! DEFINITION. Certificates/Slice0/Obligations.lean: what is claimed of the model. A claim about a command names its
constructor; the result of a command is said with `RunsTo`, `EndsTo` and `Changes` of Safety.lean, whose comparison of whole
states is the frame: every part of the state that a claim does not name stands. -/

open Sys2Proof Sys2Proof.Machine

/-- Reserved offsets (15 R425): in the registers, their complement ports and bit aliases, the MSI-X area and beyond. -/
def Obligations.ReservedOffsets : Prop :=
  ∀ (s : State) (who : Requester) (off : Nat) (w : Word),
    ((off < 0x8000 ∧ off % 4 = 0 ∧ isReg (off % 0x4000) = false) ∨ (0x8200 ≤ off ∧ off < 0x80000 ∧ off ≠ 0x9000) ∨
      (0x80000 ≤ off ∧ off < 0x100000 ∧ off % 4 = 0 ∧ isReg ((off - 0x80000) / 128 * 4) = false)) →
    s.busRead who off = (0#32, s) ∧ exec (.registerWrite who off w) s = .next (s.written who)

/-- The role that a module shows (04 R110). -/
def Obligations.RoleShown : Prop :=
  ∀ s : State, s.twin.began = true →
    (s.holdsToken = true ∧ s.twin.link = .severed → s.role = .solo) ∧
    (s.holdsToken = true ∧ (s.twin.link = .joined ∨ s.twin.link = .catchingUp) → s.role = .lead) ∧
    (s.holdsToken = false → s.role = .shadow)

/-- The front indicators (18 R490; which channels are field channels, and what a module without supply shows: log 101). -/
def Obligations.FrontIndicators : Prop :=
  (∀ s : State, s.mod.powered = false → s.indicators.pwr = .off) ∧
  ∀ s : State, s.mod.powered = true →
    s.indicators.pwr = (if s.mod.ready then .on .green else .flash .green) ∧
    (s.role = .lead → s.indicators.role = .on .green) ∧ (s.role = .solo → s.indicators.role = .flash .green) ∧
    (s.role = .shadow → s.indicators.role = if s.twin.isolated then .flash .amber else .on .amber) ∧
    (s.twin.link = .joined → s.indicators.twin = .on .green) ∧ (s.twin.link = .catchingUp → s.indicators.twin = .flash .green) ∧
    (s.twin.link = .severed → s.indicators.twin = .off) ∧
    (s.indicators.field = .on .red ↔ (∃ n, n < 96 ∧ (s.dio.getCh n).diag ≠ 0) ∨ ∃ n, n < 32 ∧ (s.aio.getCh n).diag ≠ 0) ∧
    (s.indicators.safe = .on .green ↔ s.safe.laneP = true ∧ s.safe.laneHOk = true ∧ s.safe.idOk = true) ∧
    (s.indicators.safe = .on .red ↔ s.safe.laneP = false ∨ s.safe.laneHOk = false ∨ s.safe.idOk = false) ∧
    (s.indicators.fault = .on .red ↔ s.mod.failed = true) ∧
    (s.mod.failed = false → (s.indicators.fault = .flash .red ↔ s.cfg.phase = .noConfig ∨ s.cfg.phase = .rom)) ∧
    s.indicators.identify = s.mnt.identify

/-- A step takes the command at the front of the queue and runs it; with none waiting the block idles (log 2). -/
def Obligations.StepRunsFront : Prop :=
  (∀ (c : Instr) (rest : List Instr) (s : State), s.pending = c :: rest → step s = exec c { s with pending := rest }) ∧
  (∀ s : State, s.pending = [] → step s = .next s)

/-- What reset leaves: no event, no role, no command waiting, the ROM running, nothing engaged, rings and tables at the values of their registers
(16 R444, 15 R440, 04 R110, 14 R403).
Readings of the model: log 22. -/
def Obligations.ResetValues : Prop :=
  State.reset.event = [] ∧ State.reset.eventEn = [] ∧ State.reset.pending = [] ∧ State.reset.role = .none ∧ State.reset.cfg.phase = .rom ∧
  State.reset.mod.ready = false ∧ State.reset.mod.failed = false ∧ State.reset.cyc.mode = .stop ∧ State.reset.twin.link = .severed ∧
  State.reset.xch.cur.state = .idle ∧ State.reset.recorder.peat = [] ∧ State.reset.recorder.annex = [] ∧
  (∀ n, (State.reset.host.sq n).state = .disabled) ∧ State.reset.time.disc = .freeRun

/-- What every command keeps holds after reset. -/
def Obligations.ResetInv : Prop := State.reset.Inv

/-- No command stops the module and none touches the queue of the commands that wait: each answers a next state.
Readings of the model: log 1. -/
def Obligations.EveryCommandAnswers : Prop := ∀ (i : Instr) (s : State), ∃ t, exec i s = .next t ∧ t.pending = s.pending

/-- A step keeps sound submission rings, and a fault annex of at most 64 entries (14 R398, 13 R392). -/
def Obligations.StepKeepsInv : Prop := ∀ s t : State, s.Inv → step s = .next t → t.Inv

/-- The peat layer is never erased or overwritten: only a memory fault of the block that holds a record takes it away (13 R376, R390).
Readings of the model: log 73. -/
def Obligations.PeatIsKept : Prop := ∀ (s t : State), step s = .next t → ∀ e ∈ s.recorder.peat,
  e ∈ t.recorder.peat ∨ ∃ block verify readable rest, s.pending = .memFault .peat block verify readable :: rest ∧ s.recorder.peatBlock block = some (e.1 / 128)

/-- What a report, an event entry and a completion are, with no trigger of kind EVENT configured (13 R373, R383-R385, 14 R399, R412-R414; TIME of an
event entry is the start of the tick and a free part of it, log 4). -/
def Obligations.ReportsAndCompletions : Prop :=
  (∀ (s : State) (b : Block) (n obj : Nat) (w : Word), s.recorder.trigDefs = [] → s.recorder.failed = false → s.recorder.overQuota b.code = false →
    s.report b n obj w = { s with
      event := Tbl.set 0#32 s.event b.code (Bits.setBit (s.eventReg b) n)
      recorder := s.recorder.obtain { source := b.code, code := n, time := s.tickStart, cycle := s.refCycle, detail := mkDetail obj w, entry := true } }) ∧
  (∀ (s : State) (b : Block) (n obj : Nat) (w : Word), s.recorder.trigDefs = [] → s.recorder.failed = false → s.recorder.overQuota b.code = true →
    s.enabledBit .recorder 3 = false →
    s.recordEvent b n obj w = (if s.enabledBit b n then State.eventEntry { s with
        event := Tbl.set 0#32 (Tbl.set 0#32 s.event b.code (Bits.setBit (s.eventReg b) n)) Block.recorder.code
          (Bits.setBit (Tbl.get 0#32 (Tbl.set 0#32 s.event b.code (Bits.setBit (s.eventReg b) n)) Block.recorder.code) 3)
        recorder := s.recorder.countRefusal b.code } { source := b.code, code := n, detail := mkDetail obj w }
      else { s with
        event := Tbl.set 0#32 (Tbl.set 0#32 s.event b.code (Bits.setBit (s.eventReg b) n)) Block.recorder.code
          (Bits.setBit (Tbl.get 0#32 (Tbl.set 0#32 s.event b.code (Bits.setBit (s.eventReg b) n)) Block.recorder.code) 3)
        recorder := s.recorder.countRefusal b.code })) ∧
  (∀ (s : State) (e : EventEntry), s.host.eq.state = .enabled → s.host.eq.room ≠ 0 → s.host.eq.dropped = 0 → s.host.busMaster = true →
    Bits.bit s.host.eq.cfg 15 = false → s.mnt.session = none →
    s.eventEntry e = { s with
      free := s.free + 1
      host := { s.host with eq := s.host.eq.advance, sent := s.host.sent ++ [.event (s.host.eq.addr s.host.eq.tail) s.host.eq.phase { e with time := s.detectNs }] } }) ∧
  (∀ (s : State) (e : EventEntry), s.host.eq.state = .enabled → s.host.eq.room = 0 → s.recorder.trigDefs = [] →
    s.eventEntry e = { s with
      free := s.free + 1
      event := Tbl.set 0#32 s.event Block.host.code (Bits.setBit (s.eventReg .host) 3)
      host := { s.host with eq := { s.host.eq with full := Bits.sat 17 s.host.eq.full 1, dropped := s.host.eq.dropped + 1 } } }) ∧
  (∀ (s : State) (e : EventEntry), s.host.eq.state ≠ .enabled → s.eventEntry e = { s with free := s.free + 1 }) ∧
  (∀ (s : State) (k : Fin 8) (x : Taken) (l : List Taken) (status detail : Nat), s.mod.failed = false → s.host.taken = x :: l → x.sq = k.val →
    (s.host.cq (s.host.sq k).bound).state = .enabled → s.host.busMaster = true → Bits.bit (s.host.cq (s.host.sq k).bound).cfg 15 = false →
    s.finish (.host k x.desc.tag) status detail = { s with
      free := s.free + 1
      host := { ({ s.host with taken := l } : HostBlk).setCq (s.host.sq k).bound (s.host.cq (s.host.sq k).bound).advance with
        sent := s.host.sent ++ [.completion (s.host.sq k).bound ((s.host.cq (s.host.sq k).bound).addr (s.host.cq (s.host.sq k).bound).tail) (s.host.cq (s.host.sq k).bound).phase
          { tag := x.desc.tag, opcode := x.desc.opcode, status := status, detail := detail, sq := k.val
            sqHead := (s.host.sq k).head, time := s.detectNs, cycle := 0#64, result := [] }] } }) ∧
  (∀ (s : State) (c : MntCmd) (l : List MntCmd) (status detail : Nat), s.mnt.cmds = c :: l → s.mnt.session.isSome = true →
    s.finish (.maint c.desc.tag) status detail = { s with mnt := { s.mnt with
      cmds := l, sent := s.mnt.sent ++ [.completion c.desc.tag c.desc.opcode status detail 0#64 []] } })

/-- Writes and latching reads of registers (00 R8, R9, 15 R423-R435).
Readings of the model: log 65. -/
def Obligations.RegisterAccess : Prop :=
  (∀ (s : State) (w : Word), exec (.registerWrite .host 0x5C w) s = .next { s with mod := { s.mod with
    scratch := w, host := { s.mod.host with expired := none } } }) ∧
  (∀ (s : State) (b : Fin 16) (w : Word), exec (.registerWrite .host (0x400 * b.val + 4) w) s = .next { s.written .host with
    event := Tbl.set 0#32 s.event b (Tbl.get 0#32 s.event b &&& ~~~(w &&& eventMask b)) }) ∧
  (∀ (s : State) (who : Requester) (off : Nat) (w : Word), off < 0x4000 → off % 4 = 0 → (isReg off = false ∨ (accessOf off).2 = 0#32) →
    exec (.registerWrite who off w) s = .next (s.written who)) ∧
  (∀ (s : State) (who : Requester) (off : Nat) (w : Word), off < 0x8000 → off % 4 ≠ 0 →
    RunsTo (.registerWrite who off w) s { s.written who with mod := { (s.written who).mod with accessCnt := Bits.inc s.mod.accessCnt } } [(.mod, 1)]) ∧
  (∀ (s : State) (w : Word), s.mnt.session = none → RunsTo (.registerWrite .maint 0x5C w) s { s with mod := { s.mod with
    accessCnt := Bits.inc s.mod.accessCnt, maint := { s.mod.maint with expired := none } } } [(.mod, 1), (.mnt, 5)]) ∧
  (∀ (s : State) (who : Requester), RunsTo (.badAccess who false) s { s with mod := { s.mod with accessCnt := Bits.inc s.mod.accessCnt } } [(.mod, 1)]) ∧
  (∀ (s : State) (w : Word), s.mod.host.pending = none → exec (.guardedValueWrite .host 0x60 w) s = .next { s with mod := { s.mod with
    host := { s.mod.host with expired := none, pending := some (0x60, w) } } }) ∧
  (∀ (s : State) (w v : Word) (o : Nat), s.mod.host.pending = some (o, v) → RunsTo (.guardedValueWrite .host 0x60 w) s { s with mod := { s.mod with
    guardCnt := Bits.inc s.mod.guardCnt, guardInfo := 0x60000060#32
    host := { s.mod.host with expired := none, pending := some (0x60, w) } } } [(.mod, 0)]) ∧
  (∀ (s : State) (v : Word) (ns : Nat), ns ≤ 1000 → s.mod.host.pending = some (0x60, v) → s.mod.host.expired = none →
    exec (.complementWrite .host 0x60 (~~~v) ns) s = .next { s with mod := { s.mod with scratchG := v, host := { s.mod.host with pending := none } } }) ∧
  (∀ (s : State) (v w : Word) (ns : Nat), ns ≤ 1000 → s.mod.host.pending = some (0x60, v) → s.mod.host.expired = none → w ≠ ~~~v →
    RunsTo (.complementWrite .host 0x60 w ns) s { s with mod := { s.mod with
      guardCnt := Bits.inc s.mod.guardCnt, guardInfo := 0x20000060#32, host := { s.mod.host with pending := none } } } [(.mod, 0)]) ∧
  (∀ (s : State) (v w : Word) (o ns : Nat), ns ≤ 1000 → s.mod.host.pending = some (o, v) → o ≠ 0x60 → s.mod.host.expired = none →
    RunsTo (.complementWrite .host 0x60 w ns) s { s with mod := { s.mod with
      guardCnt := Bits.inc s.mod.guardCnt, guardInfo := 0x30000060#32, host := { s.mod.host with pending := none } } } [(.mod, 0)]) ∧
  (∀ (s : State) (w : Word) (ns : Nat), ns ≤ 1000 → s.mod.host.pending = none → s.mod.host.expired = none →
    RunsTo (.complementWrite .host 0x60 w ns) s { s with mod := { s.mod with guardCnt := Bits.inc s.mod.guardCnt, guardInfo := 0x40000060#32 } } [(.mod, 0)]) ∧
  (∀ (s : State) (w : Word) (ns : Nat), ns ≤ 1000 → s.mod.host.expired = some 0x60 →
    exec (.complementWrite .host 0x60 w ns) s = .next { s with mod := { s.mod with host := { s.mod.host with expired := none } } }) ∧
  (∀ (s : State) (v w : Word) (ns : Nat), 1000 < ns → s.mod.host.pending = some (0x60, v) →
    RunsTo (.complementWrite .host 0x60 w ns) s { s with mod := { s.mod with
      guardCnt := Bits.inc s.mod.guardCnt, guardInfo := 0x10000060#32, host := { s.mod.host with pending := none, expired := none } } } [(.mod, 0)]) ∧
  (∀ (s : State) (v : Word), s.mod.host.pending = some (0x60, v) → RunsTo (.guardLate .host) s { s with mod := { s.mod with
    guardCnt := Bits.inc s.mod.guardCnt, guardInfo := 0x10000060#32, host := { s.mod.host with pending := none, expired := some 0x60 } } } [(.mod, 0)]) ∧
  (∀ (s : State) (b : Fin 32) (v : Bool), exec (.bitAliasWrite .host 0x5C b v) s = .next { s with mod := { s.mod with
    scratch := (s.mod.scratch &&& ~~~(1#32 <<< b.val)) ||| (Bits.ofBool v b &&& (1#32 <<< b.val)), host := { s.mod.host with expired := none } } }) ∧
  (∀ (s : State) (b : Fin 32) (v : Bool), RunsTo (.bitAliasWrite .host 0x60 b v) s { s with mod := { s.mod with
    guardCnt := Bits.inc s.mod.guardCnt, guardInfo := 0x50000060#32, host := { s.mod.host with expired := none } } } [(.mod, 0)]) ∧
  (∀ (s : State) (who : Requester) (off : Nat), off ∈ lowWords → exec (.lowWordRead who off) s = .next (s.setReq who { s.req who with
    shadow := Tbl.set 0#32 (s.req who).shadow (off + 4) (s.readReg who (off + 4)) })) ∧
  (∀ (s : State) (who : Requester) (off : Nat), off ∈ [0x1410, 0x1448, 0x1458, 0x1468, 0x1478, 0x18A0, 0x291C, 0x295C, 0x299C, 0x29DC] →
    exec (.groupLatchRead who off) s = .next (s.setReq who { s.req who with
      shadow := (groupOf off).foldl (fun t o => Tbl.set 0#32 t o (s.readReg who o)) (s.req who).shadow }))

/-- The scrubber, parity, the hold-up and the commands of MNT_CMD (15 R436-R440, R442).
Readings of the model: logs 66 and 67. -/
def Obligations.ScrubAndHoldup : Prop :=
  (∀ (s : State) (us : Nat), exec (.scrubPass us []) s = .next { s with
    mod := { s.mod with passes := s.mod.passes + 1, longestUs := max s.mod.longestUs us }, mnt := { s.mnt with scrubLeft := s.mnt.scrubLeft - 1 } }) ∧
  (∀ (s : State) (us off : Nat) (w : Word), hasParity off = true → RunsTo (.scrubPass us [(off, w, true)]) s { s with
    mod := { s.mod with parityCnt := Bits.inc s.mod.parityCnt, passes := s.mod.passes + 1, longestUs := max s.mod.longestUs us }
    mnt := { s.mnt with scrubLeft := s.mnt.scrubLeft - 1 } } [(.mod, 2)]) ∧
  (∀ (s : State) (w : Word), RunsTo (.parityCheckedRead .host 0x5C w true) s { s with
    mod := { s.mod with parityCnt := Bits.inc s.mod.parityCnt } } [(.mod, 2)]) ∧
  (∀ (s : State) (who : Requester) (off : Nat) (w : Word) (ok : Bool), hasParity off = false → exec (.parityCheckedRead who off w ok) s = .next s) ∧
  (∀ (s : State), s.mnt.identify = false → exec .identify s = .next { s.written .host with mnt := { s.mnt with identify := true, identAt := s.mod.uptime } }) ∧
  (∀ (s : State), s.mnt.identify = true → RunsTo .identify s (s.written .host) [(.mnt, 4)]) ∧
  (∀ (s : State), s.mnt.holdTest = false → exec .holdupTest s = .next { s.written .host with mnt := { s.mnt with holdTest := true, testAt := s.mod.uptime } }) ∧
  (∀ (s : State), s.mnt.holdTest = true → RunsTo .holdupTest s (s.written .host) [(.mnt, 4)]) ∧
  (∀ (s : State) (busy : Bool), s.mnt.scrubNow = false → exec (.scrubNow .host busy) s = .next { s.written .host with
    mnt := { s.mnt with scrubNow := true, scrubLeft := if busy then 2 else 1 } }) ∧
  (∀ (s : State) (n : Nat), s.mod.powered = true → (∀ t, s.mod.holdupAt = some t → t + 6000000 ≤ s.mod.uptime) →
    RunsTo (.holdupMeasure n) s { s with mod := { s.mod with holdupAt := some s.mod.uptime, holdup := n, holdupOk := decide (240 ≤ n) } } (if n < 240 then [(.mod, 6)] else [])) ∧
  (∀ (s : State) (n t : Nat), (s.mod.powered = false ∨ (s.mod.holdupAt = some t ∧ s.mod.uptime < t + 6000000)) → exec (.holdupMeasure n) s = .next s) ∧
  (∀ (s : State) (n : Nat), s.mod.powered = true → s.mnt.identify = true → s.mnt.identAt + 1000000 ≤ s.mod.uptime → RunsTo (.mntCmdDone 0 n) s { s with mnt := { s.mnt with identify := false } } [(.mnt, 3)]) ∧
  (∀ (s : State) (n : Nat), s.mod.powered = true → s.mnt.scrubNow = true → s.mnt.scrubLeft = 0 → RunsTo (.mntCmdDone 1 n) s { s with mnt := { s.mnt with scrubNow := false } } [(.mnt, 3)]) ∧
  (∀ (s : State) (n : Nat), s.mod.powered = true → s.mnt.holdTest = true → s.mnt.testAt + 20 ≤ s.mod.uptime → 240 ≤ n → RunsTo (.mntCmdDone 2 n) s { s with
    mnt := { s.mnt with holdTest := false }, mod := { s.mod with holdup := n, holdupOk := true } } [(.mnt, 3)])

/-- The maintenance port (15 R426, R427, R441, R442).
Readings of the model: log 68. -/
def Obligations.MaintenancePort : Prop :=
  (∀ (s : State) (k : Nat) (r : Rights), s.mntOn = true → s.mnt.lockout = false → s.cfg.rights k = some r → RunsTo (.mntOpen (some k)) s { s with
    mnt := { s.mnt with msgCnt := s.mnt.msgCnt + 1#64, lastMsg := s.nowNs, session := some r, sessKey := k } } [(.mnt, 0)]) ∧
  (∀ (s : State), s.mntOn = true → s.mnt.lockout = false →
    (s.mnt.fails.filter (fun t => decide (s.nowNs < t + 60000000000))).length < 4 → RunsTo (.mntOpen none) s { s with
    mnt := { s.mnt with msgCnt := s.mnt.msgCnt + 1#64, lastMsg := s.nowNs, authCnt := Bits.inc s.mnt.authCnt
                        fails := s.mnt.fails.filter (fun t => decide (s.nowNs < t + 60000000000)) ++ [s.nowNs] } } [(.mnt, 2)]) ∧
  (∀ (s : State), s.mntOn = true → s.mnt.lockout = false →
    4 ≤ (s.mnt.fails.filter (fun t => decide (s.nowNs < t + 60000000000))).length → RunsTo (.mntOpen none) s { s with
    mnt := { s.mnt with msgCnt := s.mnt.msgCnt + 1#64, lastMsg := s.nowNs, authCnt := Bits.inc s.mnt.authCnt, fails := [], lockout := true, lockNs := s.nowNs } } [(.mnt, 2)]) ∧
  (∀ (s : State) (k : Option Nat), s.mntOn = true → s.mnt.lockout = true → RunsTo (.mntOpen k) s { s with
    mnt := { s.mnt with msgCnt := s.mnt.msgCnt + 1#64, lastMsg := s.nowNs, authCnt := Bits.inc s.mnt.authCnt, fails := [] } } [(.mnt, 2)]) ∧
  (∀ (s : State) (r : Rights), s.mntOn = true → s.mnt.session = some r → RunsTo .mntClose s { s with
    mnt := { s.mnt with msgCnt := s.mnt.msgCnt + 1#64, lastMsg := s.nowNs, session := none }
    mod := { s.mod with maint := {} }
    recorder := { s.recorder with window := Tbl.erase s.recorder.window 1 } } [(.mnt, 1)]) ∧
  (∀ (s : State) (r : Rights), s.mnt.session = some r → s.mnt.lastMsg + 900000000000 ≤ s.nowNs → RunsTo .mntIdleTimeout s { s with
    mnt := { s.mnt with session := none }, mod := { s.mod with maint := {} }, recorder := { s.recorder with window := Tbl.erase s.recorder.window 1 } } [(.mnt, 1)]) ∧
  (∀ (s : State) (r : Rights), s.mnt.session = some r → RunsTo .mntCableRemoved s { s with
    mnt := { s.mnt with session := none, attached := false }, mod := { s.mod with maint := {} }, recorder := { s.recorder with window := Tbl.erase s.recorder.window 1 } } [(.mnt, 1)]) ∧
  (∀ (s : State), s.mnt.session = none → exec .mntCableRemoved s = .next { s with mnt := { s.mnt with attached := false } }) ∧
  (∀ (s : State), exec .mntCableAttached s = .next { s with mnt := { s.mnt with attached := true } }) ∧
  (∀ (s : State), s.nowNs < s.mnt.lastMsg + 900000000000 → exec .mntIdleTimeout s = .next s) ∧
  (∀ (s : State), s.mnt.lockout = true → s.mnt.lockNs + 300000000000 ≤ s.nowNs → exec .mntLockoutEnd s = .next { s with mnt := { s.mnt with lockout := false, fails := [] } }) ∧
  (∀ (s : State), (s.mnt.lockout = false ∨ s.nowNs < s.mnt.lockNs + 300000000000) → exec .mntLockoutEnd s = .next s) ∧
  (∀ (s : State) (r : Rights), s.mntOn = true → s.mnt.session = some r → r.read = true → s.cfg.phase ≠ .rom →
    exec (.mntRead 0x5C 1) s = .next { s with
      mnt := { s.mnt with msgCnt := s.mnt.msgCnt + 1#64, lastMsg := s.nowNs, sent := s.mnt.sent ++ [.words [s.mod.scratch]] } }) ∧
  (∀ (s : State) (r : Rights) (off n : Nat), s.mntOn = true → s.mnt.session = some r → (r.read = false ∨ n = 0 ∨ 64 < n) →
    exec (.mntRead off n) s = .next { s with mnt := { s.mnt with msgCnt := s.mnt.msgCnt + 1#64, lastMsg := s.nowNs, sent := s.mnt.sent ++ [.refused] } }) ∧
  (∀ (s : State) (r : Rights) (w : Word), s.mntOn = true → s.mnt.session = some r → r.write = true → s.cfg.phase ≠ .rom →
    exec (.mntWrite 0x5C w) s = .next { s with
      mod := { s.mod with scratch := w, maint := { s.mod.maint with expired := none } }
      mnt := { s.mnt with msgCnt := s.mnt.msgCnt + 1#64, lastMsg := s.nowNs, sent := s.mnt.sent ++ [.written] } }) ∧
  (∀ (s : State) (r : Rights) (w : Word), s.mntOn = true → s.mnt.session = some r → r.write = false → s.cfg.phase ≠ .rom →
    RunsTo (.mntWrite 0x5C w) s { s with
      mod := { s.mod with accessCnt := Bits.inc s.mod.accessCnt, maint := { s.mod.maint with expired := none } }
      mnt := { s.mnt with msgCnt := s.mnt.msgCnt + 1#64, lastMsg := s.nowNs } } [(.mod, 1), (.mnt, 5)]) ∧
  (∀ (s : State) (r : Rights) (d : Desc) (data : List Byte) (o : ImageObj) (p : Package × Option Nat), s.mntOn = true → s.mnt.session = some r → r.command = true →
    exec (.mntCommand d data o p) s = .next { s with
      mnt := { s.mnt with msgCnt := s.mnt.msgCnt + 1#64, lastMsg := s.nowNs, cmds := s.mnt.cmds ++ [{ desc := d, data := data, obj := o, pkg := p }] } })

/-- Supplies, temperature and the start-up up to the starting role (15 R440, 16 R444-R448, R453, 18 R480, 13 R388, 10 R305).
Readings of the model: logs 52, 54, 55, 81, 85 and 98. -/
def Obligations.StartUp : Prop :=
  (∀ (s : State), s.mod.psA.ok = true → RunsTo (.supplyLost false) s { s with mod := { s.mod with psA := { s.mod.psA with ok := false } } } [(.mod, 3)]) ∧
  (∀ (s : State), s.mod.psB.ok = true → RunsTo (.supplyLost true) s { s with mod := { s.mod with psB := { s.mod.psB with ok := false } } } [(.mod, 4)]) ∧
  (∀ (s : State), s.mod.psA.ok = false → s.mod.powered = true → 1000 ≤ s.mod.psA.up →
    RunsTo (.supplyBack false) s { s with mod := { s.mod with psA := { s.mod.psA with ok := true } } } [(.mod, 5)]) ∧
  (∀ (s : State), s.mod.psB.ok = false → s.mod.powered = true → 1000 ≤ s.mod.psB.up →
    RunsTo (.supplyBack true) s { s with mod := { s.mod with psB := { s.mod.psB with ok := true } } } [(.mod, 5)]) ∧
  (∀ (s : State), s.mod.warn = false → 100000 ≤ s.mod.coldHot → RunsTo (.thermalWarn true) s { s with mod := { s.mod with warn := true } } [(.mod, 7)]) ∧
  (∀ (s : State), s.mod.warn = true → s.mod.coldRail < 680 → exec (.thermalWarn false) s = .next { s with mod := { s.mod with warn := false } }) ∧
  (∀ (s : State) (rom bb rb : Bool) (l : List (Fin 16)), s.mod.powered = false → (∀ n : Nat, (s.task n).run = none) → s.recorder.queue = [] → s.recorder.failed = false →
    s.recorder.emberWorn = false → s.recorder.bookBad = [] → l.length ≤ 2 →
    ∃ t, exec (.powerUp true true rom false true bb rb l) s = .next t ∧ t.event = [] ∧ t.eventEn = [] ∧ t.mod.powered = true ∧ t.mod.ready = false ∧
      t.mod.serial = s.mod.serial ∧ t.mnt.bootCnt = Bits.inc s.mnt.bootCnt ∧ t.cfg.phase = .rom ∧ t.cfg.slotA = s.cfg.slotA ∧ t.cfg.slotB = s.cfg.slotB ∧
      t.cfg.keys0 = s.cfg.keys0 ∧ t.recorder.head = s.recorder.head ∧ t.recorder.peat = s.recorder.peat ∧ t.recorder.ember = s.recorder.ember ∧ t.recorder.failed = false ∧
      t.host = {} ∧ t.time = {} ∧ t.dio = {} ∧ t.aio = {} ∧ t.net = {} ∧ t.pending = s.pending ∧
      ∀ e : Fin 16, (t.fab.engine e).state = if e ∈ l then .retired else .available) ∧
  (∀ (s : State) (rom bb rb : Bool) (a b c : Fin 16), s.mod.powered = false → (∀ n : Nat, (s.task n).run = none) → s.recorder.queue = [] → s.recorder.failed = false →
    s.recorder.emberWorn = false → s.recorder.bookBad = [] → a ≠ b → a ≠ c → b ≠ c →
    ∃ t, exec (.powerUp true true rom false true bb rb [a, b, c]) s = .next t ∧ t.raised .fab 3 = true) ∧
  (∀ (s : State) (a b rom torn ba bb rb : Bool) (l : List (Fin 16)), (s.mod.powered = true ∨ (a = false ∧ b = false)) → exec (.powerUp a b rom torn ba bb rb l) s = .next s) ∧
  (∀ (s : State) (f : FirmObj) (other : Bool), s.mod.powered = true → s.cfg.phase = .rom → s.cfg.firmOnB = false → s.cfg.firmA = some f → f.ok = true →
    RunsTo (.firmwareVerified true other) s { s with cfg := { s.cfg with phase := .verify }, mod := { s.mod with fwRelease := f.release } } []) ∧
  (∀ (s : State) (f : FirmObj), s.mod.powered = true → s.cfg.phase = .rom → s.cfg.firmOnB = false → s.cfg.firmB = some f → f.ok = true →
    RunsTo (.firmwareVerified false true) s { s with cfg := { s.cfg with phase := .verify, firmOnB := true }, mod := { s.mod with fwRelease := f.release } } [(.cfg, 2), (.cfg, 3)]) ∧
  (∀ (s : State), s.mod.powered = true → s.cfg.phase = .rom → RunsTo (.firmwareVerified false false) s s [(.cfg, 2)]) ∧
  (∀ (s : State) (c : StationCfg) (q : DWord) (u : SlotUse), s.cfg.phase = .verify → s.cfg.loaded = false → s.cfg.keyBad0 = false → s.cfg.keyBad1 = false → s.cfg.marker = none →
    s.cfg.slotA = { body := some c, seq := q, header := true, use := u } → s.cfg.slotB = {} → s.configSigned c = true → s.cfg.prog = none → s.cfg.safeA = none →
    s.cfg.safeB = none →
    ∃ t, Changes (.objectsVerified {}) s t [.recorder, .time, .dio, .aio, .safe, .ax, .pnl, .net, .cyc, .cfg] [(.time, 7), (.time, 8), (.pnl, 0)] ∧
      t.cfg.cur = c ∧ t.cfg.loaded = true ∧ t.cfg.slotLoaded = false ∧ t.cfg.slotA.use = .active ∧ t.cfg.phase = .verify ∧ t.time.cfg = c.timeCfg ∧
      t.net.pairCfg = c.pairCfg ∧ t.recorder.trigDefs = c.trigs ∧ t.cfg.taskCfgs = c.tasks) ∧
  (∀ (s : State), s.cfg.phase = .verify → s.cfg.loaded = false → s.cfg.keyBad0 = false → s.cfg.keyBad1 = false → s.cfg.marker = none → s.cfg.slotA = {} → s.cfg.slotB = {} → s.cfg.prog = none →
    s.cfg.safeA = none → s.cfg.safeB = none →
    ∃ t, Changes (.objectsVerified {}) s t [.safe, .cfg] [(.cfg, 4)] ∧ t.cfg.phase = .noConfig ∧ t.raised .cfg 4 = true ∧ t.safe.laneHOk = false) ∧
  (∀ (s : State) (on : BitVec 8), s.cfg.phase = .verify → s.cfg.loaded = true → s.cfg.marker = none → s.cfg.lanes = false → s.cfg.safeOk = false →
    ∃ t, Changes (.lanesStart on) s t [.safe, .time, .cfg] [(.safe, 14), (.safe, 15)] ∧ t.cfg.lanes = true ∧ t.cfg.phase = .twinSearch ∧
      t.raised .safe 14 = true ∧ t.safe.laneHOk = false ∧ t.time.sec = 0#64 ∧ t.time.ns = 0#32)

/-- The starting role and the way to READY (04 R114, 16 R444, R445, R453, 02 R47, R48).
Readings of the model: logs 57 and 81. -/
def Obligations.RoleAndReady : Prop :=
  (∀ (s : State), s.cfg.phase = .twinSearch → s.twin.started = false → s.twin.waiting = false → s.twin.seated = true →
    (s.twin.partner = false ∨ (s.twin.partnerLow = false ∧ s.twin.high1us = true ∧ s.twin.linkUp = false ∧ s.cfg.searchAt + s.cfg.cur.twinWait * 10000 ≤ s.mod.uptime)) →
    exec .twinSearchEnd s = .next { s with twin := { s.twin with waiting := true, waitAt := s.mod.uptime } }) ∧
  (∀ (s : State), s.cfg.phase = .twinSearch → s.twin.started = false → s.twin.waiting = false → s.twin.seated = true → s.twin.partner = true →
    s.twin.partnerLow = true → s.twin.linkUp = false →
    exec .twinSearchEnd s = .next { s with
      twin := { s.twin with started := true, began := true, waiting := false, isolated := true, ownLow := false, keeper := false, engaged := false }
      cfg := { s.cfg with phase := .time } }) ∧
  (∀ (s : State), s.twin.started = true ∨ s.twin.waiting = true ∨ s.twin.seated = false → exec .twinSearchEnd s = .next s) ∧
  (∀ (s : State), s.twin.partner = true → s.twin.partnerLow = false → s.twin.linkUp = false → s.mod.uptime < s.cfg.searchAt + s.cfg.cur.twinWait * 10000 →
    exec .twinSearchEnd s = .next s) ∧
  (∀ (s : State), s.cfg.phase = .time → s.twin.started = true → s.timeSettled = true → s.holdsToken = false → s.twin.link ≠ .severed → s.xch.cur.state ≠ .armed →
    RunsTo .timeSourceSettled s { s with mod := { s.mod with ready := true }, cfg := { s.cfg with phase := .ready, settled := true } } [(.cfg, 13)]) ∧
  (∀ (s : State), s.cfg.phase = .time → s.twin.started = true → s.timeSettled = true → s.holdsToken = true → s.cfg.fresh = true →
    s.twin.link ≠ .catchingUp → s.xch.cur.state ≠ .armed →
    ∃ t, Changes .timeSourceSettled s t [.mod, .dio, .aio, .twin, .cfg] [(.cfg, 13)] ∧ t.raised .cfg 13 = true ∧ t.mod.ready = true ∧
      t.cfg.phase = .ready ∧ t.twin = { s.twin with engaged := true }) ∧
  (∀ (s : State) (n : Nat) (run : Bool), s.cfg.phase = .time → s.twin.started = true → s.timeSettled = true → s.holdsToken = true →
    s.cfg.fresh = false → s.twin.link ≠ .catchingUp → s.configuredTasks = [n] → s.xch.cur.state = .idle →
    (Bits.bit s.cfg.cur.cyc 0 && !s.xch.cur.inStop) = run → (run = true → s.runReason = 0) →
    ∃ t, Changes .timeSourceSettled s t [.mod, .dio, .aio, .cyc, .twin, .cfg] [(.cfg, 13), (.cyc, 4), (.cyc, 9), (.fab, 10)] ∧
      t.raised .cyc 4 = true ∧ (s.runReason = 3 → t.raised .fab 10 = true) ∧ t.mod.ready = true ∧ t.cfg.phase = .ready ∧ t.twin = { s.twin with engaged := true } ∧
      t.cyc.mode = (if run then .run else .stop) ∧ t.cyc.resumeCnt = Bits.inc s.cyc.resumeCnt ∧
      (t.task n).mode = (if run then .run else .stop) ∧
      (∀ r, (s.task n).record = some r → (t.task n).cycle = r.cycle ∧ (t.task n).bank = r.bank ∧
        (t.task n).image = (if r.bank then (s.task n).imgB else (s.task n).imgA)) ∧
      ((s.task n).record = none → (t.task n).cycle = (s.task n).floor + 0x10000#64 ∧ t.raised .cyc 9 = true))

/-- First commissioning (16 R459, R460).
Readings of the model: log 56. -/
def Obligations.Commissioning : Prop :=
  (∀ (s : State), s.commissionOk = false → RunsTo .commission s s [(.cfg, 11)]) ∧
  (∀ (s : State), s.commissionOk = true → ∃ t, Changes .commission s t [.ax, .pnl, .cyc, .xch, .cfg] [] ∧
    t.cfg = { s.cfg with marker := some (s.cfg.slotLoaded, s.cfg.active.seq) } ∧ t.xch.cur = {} ∧ t.xch.old = {} ∧ t.cyc.mode = .stop ∧
    t.cyc.target = .stop ∧ t.cyc.bps = [] ∧ t.cyc.steps = [] ∧
    ∀ n : Nat, n < 32 → (t.task n).cycle = 0#64 ∧ (t.task n).run = none ∧ (t.task n).record = none ∧ (t.task n).floor = 0#64) ∧
  (∀ (s : State), s.cfg.marker.isSome = true → s.cfg.loaded = true → RunsTo .commissionDone s { s with
    cfg := { s.cfg with keys0 := some s.cfg.cur.keys, keys1 := some s.cfg.cur.keys, keyBad0 := false, keyBad1 := false
                        marker := none, armed := none, commCnt := Bits.inc s.cfg.commCnt }
    cyc := { s.cyc with resumeCnt := 0#32, tasks := Tbl.map {} (fun t => { t with overruns := 0#32 }) s.cyc.tasks }
    xch := { s.xch with completes := 0#32 }
    recorder := { s.recorder with annexTotal := 0 }
    pnl := { s.pnl with slots := s.pnl.slots.filter (fun e => match e.2.cur with | some j => j.active | none => false) } } [(.cfg, 10)]) ∧
  (∀ (s : State), s.cfg.marker = none → exec .commissionDone s = .next s) ∧
  (∀ (s : State) (t : Nat), s.cfg.armed = some t → t + 10000000000 ≤ s.nowNs → exec .commissionArmExpiry s = .next { s with cfg := { s.cfg with armed := none } }) ∧
  (∀ (s : State), (∀ t, s.cfg.armed = some t → s.nowNs < t + 10000000000) → exec .commissionArmExpiry s = .next s)

/-- The station tick (06 R162, R164, R167, 15 R440): wall time reaches the next whole 10 µs, a forward step with it.
Readings of the model: logs 24, 70, 90, 92 and 100. -/
def Obligations.StationTick : Prop :=
  (∀ (s : State) (e : TickEnv), s.mod.powered = false → exec (.stationTick e) s = .next s) ∧
  (∀ (s : State) (e : TickEnv), s.mod.powered = true → s.cfg.lanes = false → exec (.stationTick e) s = .next { s with
    mod := { s.mod with psA := { s.mod.psA with mv := e.psA, up := if 17000 ≤ e.psA then s.mod.psA.up + 1 else 0 }
                        psB := { s.mod.psB with mv := e.psB, up := if 17000 ≤ e.psB then s.mod.psB.up + 1 else 0 }
                        coldRail := e.cold, die := e.die, power := e.power, uptime := s.mod.uptime + 1
                        coldHot := if 720 < e.cold then s.mod.coldHot + 1 else 0, dieHot := if 1150 < e.die then s.mod.dieHot + 1 else 0
                        storeCorr := s.mod.storeCorr + e.store }
    ax := (s.ax.measure e.vmMv).stationTick
    fab := { s.fab with corrected := Bits.sat 16 s.fab.corrected e.sram } }) ∧
  (∀ (s : State) (e : TickEnv), s.mod.powered = true → s.cfg.lanes = true → s.time.sec.toNat < 2 ^ 64 - 2 ^ 40 → s.time.ns.toNat < 1000000000 →
    s.time.fwdStep < 2 ^ 64 →
    (s.mod.failed = true ∨ (s.cyc.buf = [] ∧ s.cyc.pends = [] ∧ s.twin.handover = none ∧ s.cfg.safeOrg = none ∧ s.cfg.asking = none ∧
      s.safe.valid = [] ∧ (s.leads = false ∨ s.twin.link = .joined) ∧ s.xch.cur.state ≠ .settling ∧ s.recorder.nextDefs = none)) →
    ∃ t, Changes (.stationTick e) s t [.mod, .ax, .time, .net, .cyc, .fab] [(.time, 6), (.cyc, 6), (.net, 7)] ∧
      t.nowNs = ((s.nowNs + s.time.fwdStep) / 10000 + 1) * 10000 ∧ t.time.fwdStep = 0 ∧ (s.time.fwdStep = 0 → t.cyc = s.cyc) ∧
      t.mod.uptime = s.mod.uptime + 1 ∧ t.mod.psA.mv = e.psA ∧ t.mod.psB.mv = e.psB ∧ t.mod.die = e.die ∧ t.mod.power = e.power ∧ t.fab = { s.fab with corrected := Bits.sat 16 s.fab.corrected e.sram } ∧ (s.mod.failed = true → t.net = s.net) ∧
      t.time.holdTicks = (if s.time.disc = .holdover then s.time.holdTicks + 1 else s.time.holdTicks))

/-- A failed module, a faulted region, and the seats (00 R2, 01 R18-R22, 04 R106, R111).
Readings of the model: logs 41, 42, 43 and 74. -/
def Obligations.ModuleFaults : Prop :=
  (∀ (s : State) (i : Instr), i ∈ ([.cycleControllerFault, .timeUnitFault, .retainedStoreUe, .dieOvertemp] : List Instr) → s.mod.failed = false →
    (i = .dieOvertemp → s.mod.powered = true ∧ 100000 ≤ s.mod.dieHot) →
    ∃ t, Changes i s t [.mod, .twin, .dio, .aio, .ax, .fab, .cyc, .safe] [(.mod, 8), (.safe, 5), (.twin, 6), (.ax, 13)] ∧ t.raised .mod 8 = true ∧
      t.mod = { s.mod with failed := true } ∧ (t.twin.lane 0).state = .down ∧ (t.twin.lane 1).state = .down ∧
      t.twin = { s.twin with lanes := t.twin.lanes, copies := t.twin.copies, ownLow := false, keeper := false, engaged := false, link := .severed, started := false
                             waiting := false, heard := none, yielding := none, handover := none, testing := false, split := none, openElig := none, phase := 0 } ∧
      t.dio = s.dio.engageAll false ∧ t.aio = s.aio.faultReleaseAll ∧ t.ax = s.ax.mapAll Axis.cold ∧ t.cyc.halted = true) ∧
  (∀ (s : State) (i : Instr), i ∈ ([.cycleControllerFault, .timeUnitFault, .retainedStoreUe] : List Instr) → s.mod.failed = true → exec i s = .next s) ∧
  (∀ s : State, (s.mod.powered = false ∨ s.mod.dieHot < 100000) → exec .dieOvertemp s = .next s) ∧
  (∀ (s : State) (r : List Region), s.leads = false → s.twin.regions = r → Region.sv ∉ r →
    RunsTo .svFault s { s with twin := { s.twin with regions := r ++ [.sv] } } []) ∧
  (∀ s : State, s.leads = true → s.partnerEligible = true → s.twin.yielding = none → s.twin.regions = [] → s.twin.linkUp = true →
    RunsTo .svFault s { s with twin := TwinBlk.send { s.twin with
      regions := [.sv], keeper := false, ownLow := false, yielding := some { region := some .sv, origin := .self } } (.yield .sv false) } []) ∧
  (∀ s : State, RunsTo .svRestartDone s { s with twin := { s.twin with regions := s.twin.regions.filter (fun r => r != Region.sv) } } []) ∧
  (∀ (s : State) (p : Fin 2), s.leads = false → s.twin.regions = [] →
    RunsTo (.networkUnitFault p) s { s with twin := { s.twin with regions := [.net] }, net := { s.net with nodeFault := Tbl.set false s.net.nodeFault p true } } []) ∧
  (∀ (s : State) (i : Instr), i = .twinUnitFault ∨ (i = .keeperLapse ∧ s.twin.ownLow = true) → s.twin.regions = [] →
    ∃ t, Changes i s t [.twin, .time, .pnl, .done] [(.time, 0), (.time, 1), (.pnl, 2), (.twin, 6), (.twin, 1)] ∧ (s.leads = true → t.raised .twin 1 = true) ∧
      (t.twin.lane 0).state = .down ∧ (t.twin.lane 1).state = .down ∧
      t.twin = { s.twin with lanes := t.twin.lanes, copies := t.twin.copies, ownLow := false, keeper := false, link := .severed, heard := none, phase := 0, isolated := true, split := some (s.nowNs, 0), yielding := none, openElig := none, regions := [.twin], lastTake := if s.leads then lastTakeWord 2 6 0 s.unitNo else s.twin.lastTake }) ∧
  (∀ s : State, s.twin.ownLow = false → RunsTo .keeperLapse s { s with twin := { s.twin with keeper := false } } []) ∧
  (∀ (s : State) (b : Bool), (s.twin.began = false ∨ s.mod.failed = true ∨ s.twin.started = true ∨ s.twin.waiting = true) →
    RunsTo (.seatClose b) s (State.setSafe { s with twin := { s.twin with seated := true, slotB := b } } { s.safe with seated := true }) []) ∧
  (∀ (s : State) (b : Bool), s.twin.began = true → s.mod.failed = false → s.twin.started = false → s.twin.waiting = false → s.twin.partner = false →
    RunsTo (.seatClose b) s (State.setSafe { s with twin := { s.twin with seated := true, slotB := b, waiting := true, waitAt := s.mod.uptime } } { s.safe with seated := true }) []) ∧
  (∀ s : State, s.twin.seated = false → exec .seatOpen s = .next s) ∧
  (∀ s : State, s.twin.seated = true →
    ∃ t, Changes .seatOpen s t [.twin, .dio, .aio, .ax, .safe, .pnl, .time, .done] [(.twin, 6), (.safe, 5), (.pnl, 2), (.time, 0), (.time, 1), (.ax, 13)] ∧
      t.twin.seated = false ∧ t.safe.seated = false ∧ t.twin.waiting = false ∧ t.twin.started = false ∧ t.twin.ownLow = false ∧ t.twin.engaged = false ∧ t.twin.link = .severed ∧ t.twin.isolated = true ∧
      t.dio = s.dio.engageAll false ∧ t.aio = s.aio.faultReleaseAll ∧ t.ax = s.ax.mapAll Axis.cold) ∧
  (∀ s : State, RunsTo .partnerSeatClose s { s with twin := ({ s.twin with partner := true } : TwinBlk).setLane 0 { s.twin.lane 0 with next := s.nowNs } |>.setLane 1 { s.twin.lane 1 with next := s.nowNs } } []) ∧
  (∀ s : State, s.twin.partner = true → s.twin.started = false →
    ∃ t, Changes .partnerSeatOpen s t [.twin, .safe] [(.twin, 6), (.safe, 5)] ∧ t.twin.partner = false ∧ (t.twin.lane 0).state = .down ∧ (t.twin.lane 1).state = .down)

/-- The T0 instants of a task (02 R29-R33, R37, R49, R57, R63).
Readings of the model: logs 24, 77, 78, 79 and 81. -/
def Obligations.CycleInstants : Prop :=
  (∀ (s : State) (n : Fin 32) (env : T0Env), s.t0Open n s.tickStart.toNat = true → (s.taskCfg n).fallsOn s.tickNo = true → s.Calm n →
    (s.task n).run = none → (∀ x, (s.task n).lastTc = some x → x + 30000 ≤ s.tickStart.toNat) →
    ∃ t, Changes (.taskT0 n env) s t [.dio, .aio, .safe, .time, .net, .cyc, .fab, .twin] [(.net, 10), (.cyc, 7), (.fab, 6), (.fab, 7), (.safe, 5)] ∧
      (∃ r, (t.task n).run = some r ∧ r.k = (s.task n).cycle + 1#64 ∧ r.t0 = s.tickStart.toNat ∧ r.agreed = false ∧ r.retired = [] ∧ r.tc = none) ∧
      (t.task n).lastT0 = some s.tickStart.toNat ∧ (t.task n).prevT0 = some s.tickStart.toNat ∧ (t.task n).skip = 0 ∧
      (t.task n).cycle = (s.task n).cycle ∧ (t.task n).image = (s.task n).image ∧ (t.task n).draft = (s.task n).draft ∧
      (∀ x, (s.task n).resumed = false → (s.task n).prevT0 = some x → (t.task n).deltaT = s.tickStart.toNat - x) ∧
      ∀ m : Nat, m ≠ n → t.task m = s.task m) ∧
  (∀ (s : State) (n : Fin 32) (env : T0Env) (r : CycleRun), s.t0Open n s.tickStart.toNat = true → (s.taskCfg n).fallsOn s.tickNo = true → s.Calm n →
    (s.task n).run = some r →
    ∃ t, Changes (.taskT0 n env) s t [.dio, .aio, .net, .cyc, .twin] [(.cyc, 6)] ∧ t.raised .cyc 6 = true ∧
      t.cyc = { s.cyc with
        resuming := false, skipCnt := s.cyc.skipCnt + 1#64
        tasks := Tbl.set {} s.cyc.tasks n { s.task n with lastT0 := some s.tickStart.toNat, stopDue := false, stale := true, skip := (s.task n).skip + 1 } }) ∧
  (∀ (s : State) (n : Fin 32) (e : Fin 24) (f : Bool) (ns : Fin 10000) (env : T0Env) (t0 : Nat), t0 = s.tickStart.toNat + (ns.val + 9) / 10 * 10 →
    s.t0Open n t0 = true → (s.taskCfg n).angle = true → e.val < (s.taskCfg n).firingCount → (s.taskCfg n).counts f = true →
    (s.time.clock (s.taskCfg n).clock).locked = true → s.Calm n → (∀ x, (s.task n).lastT0 = some x → x + 250000 ≤ t0) →
    (s.task n).run = none → (∀ x, (s.task n).lastTc = some x → x + 30000 ≤ t0) →
    ∃ t, Changes (.angleFiring n e f ns env) s t [.dio, .aio, .safe, .time, .net, .cyc, .fab, .twin] [(.net, 10), (.cyc, 7), (.fab, 6), (.fab, 7), (.safe, 5)] ∧
      (∃ r, (t.task n).run = some r ∧ r.k = (s.task n).cycle + 1#64 ∧ r.t0 = t0 ∧ r.agreed = false) ∧
      (t.task n).lastT0 = some t0 ∧ (t.task n).prevT0 = some t0 ∧ (t.task n).skip = 0 ∧
      (∀ x, (s.task n).resumed = false → (s.task n).prevT0 = some x → (t.task n).deltaT = t0 - x)) ∧
  (∀ (s : State) (n : Fin 32) (e : Fin 24) (f : Bool) (ns : Fin 10000) (env : T0Env) (t0 x : Nat), t0 = s.tickStart.toNat + (ns.val + 9) / 10 * 10 →
    s.t0Open n t0 = true → (s.taskCfg n).angle = true → e.val < (s.taskCfg n).firingCount → (s.taskCfg n).counts f = true →
    (s.time.clock (s.taskCfg n).clock).locked = true → (s.task n).lastT0 = some x → t0 < x + 250000 →
    RunsTo (.angleFiring n e f ns env) s { s with cyc := { s.cyc with
      skipCnt := s.cyc.skipCnt + 1#64, tasks := Tbl.set {} s.cyc.tasks n { s.task n with skip := (s.task n).skip + 1 } } } [(.cyc, 6)]) ∧
  (∀ (s : State) (n : Fin 32) (env : T0Env), s.t0Open n s.tickStart.toNat = true → (s.taskCfg n).angle = true → s.fallbackAt n ≤ s.tickNo → s.Calm n →
    (s.task n).run = none → (∀ x, (s.task n).lastTc = some x → x + 30000 ≤ s.tickStart.toNat) →
    ∃ t, Changes (.fallbackT0 n false env) s t [.dio, .aio, .safe, .time, .net, .cyc, .fab, .twin] [(.net, 10), (.cyc, 7), (.fab, 6), (.fab, 7), (.safe, 5)] ∧
      (∃ r, (t.task n).run = some r ∧ r.k = (s.task n).cycle + 1#64 ∧ r.t0 = s.tickStart.toNat ∧ r.agreed = false) ∧
      (t.task n).lastT0 = some s.tickStart.toNat ∧ (t.task n).skip = 0 ∧ t.raised .cyc 7 = true) ∧
  (∀ (s : State) (n : Fin 32) (env : T0Env), RunsTo (.fallbackT0 n true env) s s [])

/-- The course of a cycle after its T0, to its durable commit (02 R36-R47, R59, 03 R71, 04 R115).
Readings of the model: logs 30 and 84. -/
def Obligations.CycleCourse : Prop :=
  (∀ (s : State) (n : Fin 32) (r : CycleRun), (s.task n).run = some r → r.agreed = false → r.faulted = false → (s.holdsToken = true ∨ s.twin.link = .severed ∨ s.heldAlone = true) →
    ∃ t, Changes (.agreedImageComplete n) s t [.cyc, .fab, .twin] [(.fab, 6), (.fab, 7)] ∧
      (∃ m g, t.task n = { s.task n with
        run := some { r with inputs := (s.formImage n r).1, agreed := true, released := m }
        csw := Bits.putBit (s.task n).csw 23 (degraded (s.progTask n).inputs (s.formImage n r).1 true r.rick), lastGood := g }) ∧
      t.twin.substCnt = s.twin.substCnt + BitVec.ofNat 64 (s.formImage n r).2) ∧
  (∀ (s : State) (n : Fin 32) (r : CycleRun) (l : List InVal), (s.task n).run = some r → r.agreed = false → r.faulted = false → s.holdsToken = false →
    s.twin.link ≠ .severed → s.heldAlone = false → (s.twin.task n).agreedOf r.k = some l →
    ∃ t, Changes (.agreedImageComplete n) s t [.cyc, .fab, .twin] [(.fab, 6), (.fab, 7)] ∧
      (∃ m g, t.task n = { s.task n with
        run := some { r with inputs := ownMembers (s.progTask n).inputs r.inputs l, agreed := true, released := m }
        csw := Bits.putBit (s.task n).csw 23 (degraded (s.progTask n).inputs (ownMembers (s.progTask n).inputs r.inputs l) true r.rick), lastGood := g }) ∧
      (t.twin.task n).differs = (((s.twin.task n).samplesOf r.k).isSome && (s.formImage n r).1 != ownMembers (s.progTask n).inputs r.inputs l)) ∧
  (∀ (s : State) (n : Fin 32) (r : CycleRun), (s.task n).run = some r → r.rick = false → r.t0 + Bits.get s.cfg.cur.cyc 8 8 * 10000 ≤ s.nowNs →
    ∃ t, Changes (.rickInputDeadline n) s t [.cyc, .fab] [(.fab, 6), (.fab, 7)] ∧
      ∃ r', (t.task n).run = some r' ∧ r' = { r with rick := true, inputs := r'.inputs, released := r'.released } ∧
        (∀ (i u ch : Nat) (v : InVal), (s.progTask n).inputs[i]? = some (InKind.rx u ch) → r.inputs[i]? = some v →
          ∃ held, r'.inputs[i]? = some (s.rxValue n r.t0 u ch held)) ∧
        ∀ (i : Nat) (k : InKind) (v : InVal), (s.progTask n).inputs[i]? = some k → (∀ u ch, k ≠ InKind.rx u ch) → r.inputs[i]? = some v → r'.inputs[i]? = some v) ∧
  (∀ (s : State) (n : Fin 32) (r : CycleRun), (s.task n).run = some r → r.tc = none → r.faulted = false → r.late = false →
    (∀ d, r.deadline = some d → d ≤ s.nowNs) →
    RunsTo (.commitDeadline n) s { s with cyc := { s.cyc with
      lateMask := Bits.setBit s.cyc.lateMask n, tasks := Tbl.set {} s.cyc.tasks n { s.task n with run := some { r with late := true } } } } [(.cyc, 0)]) ∧
  (∀ (s : State) (n : Fin 32) (r : CycleRun) (tc : Nat), (s.task n).run = some r → r.tc = some tc → r.faulted = false → r.agreed = true →
    (s.progTask n).billets.all (fun b => r.retired.contains b.num) = true → s.twin.link = .severed → s.xch.cur.state = .idle →
    ∃ t, Changes (.commitDurable n) s t [.cyc, .twin, .done, .cfg] [] ∧ (t.task n).run = none ∧ (t.task n).cycle = r.k ∧ (t.task n).toApply = true ∧
      (t.task n).bank = !(s.task n).bank ∧ (t.task n).image = (s.task n).draft ∧ (t.task n).draft = (s.task n).draft ∧ (t.task n).lastTc = some tc ∧
      (t.task n).late = r.late ∧
      (if (s.task n).recNext then (t.task n).rec1 else (t.task n).rec0) = some (CommitRec.sealed {
        task := n, cycle := r.k, sec := BitVec.ofNat 64 (tc / 1000000000), ns := BitVec.ofNat 32 (tc % 1000000000), bank := !(s.task n).bank
        hash := commitHash (s.progTask n) (s.task n).draft r.k }) ∧
      ∀ m : Nat, m ≠ n → t.task m = s.task m) ∧
  (∀ s : State, s.mod.powered = false → exec .powerLoss s = .next s) ∧
  (∀ s : State, s.mod.powered = true →
    ∃ t, Changes .powerLoss s t [.mod, .cyc, .fab, .pnl, .ax] [] ∧ t.cyc.halted = true ∧ t.fab = s.fab.stopAll ∧ t.ax = s.ax.mapAll (Axis.save s.nowNs) ∧
      t.mod = { s.mod with powered := false, psA := { s.mod.psA with ok := false }, psB := { s.mod.psB with ok := false } } ∧
      ∀ n ∈ s.configuredTasks, ∀ r, (s.task n).run = some r →
        if r.tc = none then (t.task n).run = none ∧ (t.task n).draft = (s.task n).image else t.task n = s.task n)

/-- Program modes, steps, breakpoints, restarts and limits (02 R50-R53, R493, 03 R91-R94).
Readings of the model: logs 25, 26, 27, 28 and 79. -/
def Obligations.ProgramModes : Prop :=
  (∀ (s : State) (o : Origin), EndsTo (.modeRun o) s { s with cyc := { s.cyc with buf := s.cyc.buf ++ [(.run, o)] } } []) ∧
  (∀ (s : State) (o : Origin), EndsTo (.modeStop o) s { s with cyc := { s.cyc with buf := s.cyc.buf ++ [(.stop, o)] } } []) ∧
  (∀ (s : State) (o : Origin), EndsTo (.modeHold o) s { s with cyc := { s.cyc with buf := s.cyc.buf ++ [(.hold, o)] } } []) ∧
  (∀ (s : State) (o : Origin), s.cyc.buf = [(.stop, o)] → s.configuredTasks ≠ [] → s.cyc.target = .run → s.twin.link = .severed → s.xch.cur.state = .idle →
    o ≠ .partner →
    s.modeTick = { s with cyc := { s.cyc with
      buf := [], target := .stop, pends := s.cyc.pends ++ [{ target := .stop, left := s.configuredTasks.map (fun n => (n, .tick s.tickNo)), origins := [o] }] } }) ∧
  (∀ (s : State) (o p : Origin), s.cyc.buf = [(.run, o), (.stop, p)] → s.configuredTasks ≠ [] → s.cyc.target = .stop → s.cyc.pends = [] →
    o ≠ .partner → p ≠ .partner →
    Moves s s.modeTick [.cyc, .done] [(.cyc, 5)] ∧ s.modeTick.raised .cyc 5 = true ∧
      s.modeTick.cyc = { s.cyc with buf := [], refuseCnt := Bits.inc s.cyc.refuseCnt }) ∧
  (∀ (s : State) (o : Origin) (n : Nat), s.cyc.target = .hold → s.exchangeArmed = false → (s.taskCfg n).configured = true → s.atBreakpoint n = false →
    EndsTo (.modeStep o n) s { s with cyc := { s.cyc with steps := s.cyc.steps ++ [{ task := n, tick := s.tickNo, origin := o }] } } []) ∧
  (∀ (s : State) (o : Origin) (n : Nat), (s.cyc.target ≠ .hold ∨ s.exchangeArmed = true) →
    EndsTo (.modeStep o n) s { s with cyc := { s.cyc with refuseCnt := Bits.inc s.cyc.refuseCnt } } [(.cyc, 5)]) ∧
  (∀ (s : State) (o : Origin) (n b off : Nat), s.cyc.target ≠ .stop → s.holdAllowed = true → s.exchangeArmed = false → (s.taskCfg n).configured = true →
    (n, b, off) ∉ s.cyc.bps →
    EndsTo (.breakSet o n b off) s { s with cyc := { s.cyc with bps := s.cyc.bps ++ [(n, b, off)] } } []) ∧
  (∀ (s : State) (o : Origin) (n b off : Nat), s.cyc.target ≠ .stop → s.holdAllowed = false →
    EndsTo (.breakSet o n b off) s { s with cyc := { s.cyc with refuseCnt := Bits.inc s.cyc.refuseCnt } } [(.cyc, 5)]) ∧
  (∀ (s : State) (o : Origin) (n b off : Nat),
    EndsTo (.breakClear o n b off) s { s with cyc := { s.cyc with bps := s.cyc.bps.filter (fun x => x != (n, b, off)) } } []) ∧
  (∀ (s : State) (o : Origin) (n : Nat), s.actsAsLead = true → n < 32 → (s.task n).pol ≠ .active → (s.task n).restart = none → s.leads = false →
    EndsTo (.taskRestart o n) s { s with cyc := { s.cyc with tasks := Tbl.set {} s.cyc.tasks n { s.task n with restart := some (s.effectOf n, o) } } } []) ∧
  (∀ (s : State) (o : Origin) (n : Nat), s.actsAsLead = false → EndsTo (.taskRestart o n) s s []) ∧
  (∀ (s : State) (o : Origin) (n b q l : Nat) (st : Bool), s.actsAsLead = true → n < 32 →
    limitsOk { budget := b, quota := q, ovrLimit := l, stop := st } = true → s.leads = false →
    EndsTo (.budget o n (some b) (some q) (some l) (some st)) s { s with cyc := { s.cyc with tasks := Tbl.set {} s.cyc.tasks n {
      s.task n with next := some (s.effectOf n, { budget := b, quota := q, ovrLimit := l, stop := st }) } } } [])

/-- How engines take, load and run billets, and what a billet computes (03 R71-R81, R88, R95-R97).
Readings of the model: logs 19 and 83. -/
def Obligations.Billets : Prop :=
  (∀ (s : State) (e : Fin 16) (b : BRef) (l : List BRef), s.idleEngine e = true → (s.fab.engine e).deque = b :: l → s.quotaAdmits b.task = true → s.fab.queue = [] → b.rerun = false →
    RunsTo (.engineExamine [e]) s { s with fab := s.fab.setEngine e { s.fab.engine e with deque := l, run := some { ref := b } } } []) ∧
  (∀ (s : State) (e : Fin 16) (b : BRef) (l : List BRef), s.idleEngine e = true → (s.fab.engine e).deque = b :: l → s.quotaAdmits b.task = true → s.fab.queue = [] → b.rerun = true →
    RunsTo (.engineExamine [e]) s { s with fab := { s.fab.setEngine e { s.fab.engine e with deque := l, run := some { ref := b } } with
      rerunCnt := Bits.inc s.fab.rerunCnt } } [(.fab, 2)]) ∧
  (∀ (s : State) (e d : Fin 16) (b : BRef) (l : List Nat), s.idleEngine e = true → (s.fab.engine e).deque = [] → d ≠ e →
    s.fab.candidates e = d.val :: l → (s.fab.engine d).deque.getLast? = some b → s.quotaAdmits b.task = true → s.fab.queue = [] → b.rerun = false →
    RunsTo (.engineExamine [e]) s { s with fab := (({ s.fab with stealCnt := s.fab.stealCnt + 1#64 } : FabBlk).setEngine d { s.fab.engine d with
      deque := (s.fab.engine d).deque.erase b }).setEngine e { s.fab.engine e with run := some { ref := b } } } []) ∧
  (∀ (s : State) (e : Fin 16) (r : Running) (b : Billet), (s.fab.engine e).run = some r → s.billet r.ref = some b → r.loaded = false →
    RunsTo (.billetLoadDone e) s { s with fab := s.fab.setEngine e { s.fab.engine e with run := some { r with loaded := true, mem := s.loadLocal r.ref.task b } } } []) ∧
  (∀ (s : State) (n : Nat) (b : Billet) (r : CycleRun) (e : MemSpace × Span), (s.task n).run = some r → e ∈ b.reads →
    (s.loadLocal n b).code = b.ops ∧ (s.loadLocal n b).deltaT = (s.task n).deltaT ∧
      { space := e.1, off := e.2.off, bytes := s.rangeBytes n r e.1 e.2 } ∈ (s.loadLocal n b).data) ∧
  (∀ (sg : Bool) (n : Nat) (a b : DWord), regInt sg n b = 0 →
    Arith.eval (.quot sg n) a b = 0#64 ∧ Arith.eval (.rem sg n) a b = intReg n (regInt sg n a)) ∧
  (∀ (n : Nat) (a b : DWord), n ≤ 8 → (Arith.eval (.add n) a b).toNat = (a.toNat + b.toNat) % 2 ^ (8 * n)) ∧
  (∀ (n : Nat) (a b : DWord), n ≤ 8 → (Arith.eval (.mul n) a b).toNat = a.toNat * b.toNat % 2 ^ (8 * n)) ∧
  (∀ (b : Billet) (m : LocalMem) (l : List BOp) (pc : Nat) (x : BRun) (a n i e : Nat), b.outside a n = some e →
    Billet.steps b m (.store a n i :: l) 0 pc x = .fault 1 (BitVec.ofNat 32 e)) ∧
  (∀ (b : Billet) (m : LocalMem) (l : List BOp) (pc : Nat) (x : BRun) (d a n e : Nat) (sp : MemSpace), x.read m sp a n = .error e →
    Billet.steps b m (.load d sp a n :: l) 0 pc x = .fault 2 (BitVec.ofNat 32 e)) ∧
  (∀ (b : Billet) (m : LocalMem) (l : List BOp) (pc : Nat) (x : BRun) (d a i : Nat), b.outside a 1 = none →
    Billet.steps b m (.store a 1 i :: .load d .draft a 1 :: l) 0 pc x =
      Billet.steps b m l 0 (pc + 2) ((x.write a (Bits.natBytes 1 (x.reg i).toNat)).put d (BitVec.ofNat 64 ((x.reg i).toNat % 256)))) ∧
  (∀ (b : Billet) (m : LocalMem) (pc : Nat) (x : BRun), Billet.steps b m [] 0 pc x = .done x.burst)

/-- How a billet's work reaches the draft, and what a billet fault does (02 R36, 03 R74, R75, R88-R92).
Readings of the model: logs 19, 29, 80 and 84. -/
def Obligations.BilletEnds : Prop :=
  (∀ (s : State) (e : Fin 16) (burst : List (Nat × Byte)) (us : Nat) (ns : Fin 10000) (g : Running) (b : Billet) (r : CycleRun),
    (s.fab.engine e).run = some g → s.billet g.ref = some b → g.loaded = true → g.held = false → b.run g.mem = .done burst →
    (s.task g.ref.task).run = some r → r.faulted = false →
    (s.progTask g.ref.task).billets.all (fun x => (r.retired ++ [b.num]).contains x.num) = false →
    ∃ t, Changes (.billetRetire e true us ns) s t [.fab, .cyc] [(.fab, 6), (.fab, 7)] ∧ (t.fab.engine e).run = none ∧
      (∃ m, t.task g.ref.task = { (s.task g.ref.task).setDraft (burst.foldl (fun d x => Tbl.set 0#8 d x.1 x.2) (s.task g.ref.task).draft) with
        run := some { r with retired := r.retired ++ [b.num], lines := burstLines burst r.lines, use := r.use + us, released := m } })) ∧
  (∀ (s : State) (e : Fin 16) (burst : List (Nat × Byte)) (us : Nat) (ns : Fin 10000) (g : Running) (b : Billet) (r : CycleRun),
    (s.fab.engine e).run = some g → s.billet g.ref = some b → g.loaded = true → g.held = false → b.run g.mem = .done burst →
    (s.task g.ref.task).run = some r → r.faulted = false →
    (s.progTask g.ref.task).billets.all (fun x => (r.retired ++ [b.num]).contains x.num) = true →
    r.late = false → (∀ d, r.deadline = some d → s.tickStart.toNat + ns ≤ d) → (r.budget = 0 ∨ r.use + us ≤ r.budget) → s.xch.cur.state = .idle →
    ∃ t, Changes (.billetRetire e true us ns) s t [.fab, .cyc] [(.fab, 6), (.fab, 7)] ∧ (t.fab.engine e).run = none ∧
      (∃ m, t.task g.ref.task = { (s.task g.ref.task).setDraft (burst.foldl (fun d x => Tbl.set 0#8 d x.1 x.2) (s.task g.ref.task).draft) with
        run := some { r with retired := r.retired ++ [b.num], lines := burstLines burst r.lines, use := r.use + us, released := m
                             tc := some (s.tickStart.toNat + ns) }
        use := r.use + us, overran := false, consec := 0 })) ∧
  (∀ (s : State) (e : Fin 16) (us : Nat) (ns : Fin 10000), RunsTo (.billetRetire e false us ns) s s []) ∧
  (∀ (s : State) (e : Fin 16) (ok : Bool) (us : Nat) (ns : Fin 10000) (g : Running) (b : Billet) (kind : Nat) (addr : Word),
    (s.fab.engine e).run = some g → s.billet g.ref = some b → b.run g.mem = .fault kind addr → RunsTo (.billetRetire e ok us ns) s s []) ∧
  (∀ (s : State) (e : Fin 16) (us : Nat) (g : Running) (b : Billet) (burst : List (Nat × Byte)),
    (s.fab.engine e).run = some g → s.billet g.ref = some b → b.run g.mem = .done burst → RunsTo (.billetFault e us) s s []) ∧
  (∀ (s : State) (e : Fin 16) (kind : Nat) (addr : Word) (us : Nat) (g : Running) (b : Billet) (r : CycleRun),
    (s.fab.engine e).run = some g → s.billet g.ref = some b → b.run g.mem = .fault kind addr → g.loaded = true → g.held = false → (s.task g.ref.task).run = some r → s.follows = false → s.leads = false → s.xch.cur.state = .idle →
    ∃ t, Changes (.billetFault e us) s t [.fab, .cyc, .twin] [(.fab, 1)] ∧ t.raised .fab 1 = true ∧ t.fab.faultAddr = addr ∧
      t.fab.faultInfo = Bits.fld kind 28 ||| Bits.fld e 24 |||
        Bits.fld (g.ref.task % 32) 16 ||| Bits.fld (g.ref.num % 4096) 0 ∧
      (t.task g.ref.task).due = some (s.task g.ref.task).limits.stop ∧ (t.task g.ref.task).dueFrom = none ∧
      (t.task g.ref.task).cycle = (s.task g.ref.task).cycle ∧ (t.task g.ref.task).image = (s.task g.ref.task).image ∧
      (((t.task g.ref.task).run = none ∧ (t.task g.ref.task).draft = (s.task g.ref.task).image) ∨
        (∃ r', (t.task g.ref.task).run = some r' ∧ r'.faulted = true ∧ r'.tc = r.tc)) ∧
      (t.twin.task g.ref.task).ownFault = some r.k) ∧
  (∀ (s : State) (e : Fin 16) (addr : Word) (us : Nat) (g : Running) (b : Billet) (r : CycleRun),
    (s.fab.engine e).run = some g → s.billet g.ref = some b → g.held = false → 4 * b.wcet ≤ us →
    (s.task g.ref.task).run = some r → s.follows = false → s.leads = false → s.xch.cur.state = .idle →
    ∃ t, Changes (.billetRunaway e addr us) s t [.fab, .cyc, .twin] [(.fab, 1)] ∧ t.raised .fab 1 = true ∧ t.fab.faultAddr = addr ∧
      t.fab.faultInfo = Bits.fld 4 28 ||| Bits.fld e 24 ||| Bits.fld (g.ref.task % 32) 16 ||| Bits.fld (g.ref.num % 4096) 0 ∧
      (t.task g.ref.task).due = some (s.task g.ref.task).limits.stop ∧ (t.task g.ref.task).dueFrom = none ∧
      (t.task g.ref.task).cycle = (s.task g.ref.task).cycle ∧ (t.task g.ref.task).image = (s.task g.ref.task).image ∧
      (((t.task g.ref.task).run = none ∧ (t.task g.ref.task).draft = (s.task g.ref.task).image) ∨
        (∃ r', (t.task g.ref.task).run = some r' ∧ r'.faulted = true ∧ r'.tc = r.tc)) ∧
      (t.twin.task g.ref.task).ownFault = some r.k)

/-- Fences, self-tests and firmware of engines, faulty SRAM lines, breakpoints (02 R51, 03 R68, R81-R84, R98, 17 R463).
Readings of the model: logs 26, 29, 71 and 82. -/
def Obligations.Engines : Prop :=
  (∀ (s : State) (e : Fin 16) (us : Nat), (s.fab.engine e).state = .available ∨ (s.fab.engine e).state = .draining ∨ (s.fab.engine e).state = .drained →
    ∃ t, Changes (.engineFence e us) s t [.fab, .cyc] [(.fab, 0), (.fab, 3)] ∧ t.raised .fab 0 = true ∧ (t.fab.engine e).state = .selfTest ∧
      (t.fab.engine e).run = none ∧ (t.fab.engine e).fences = (s.fab.engine e).recent s.time.sec.toNat ++ [s.time.sec.toNat] ∧
      (∀ g r, (s.fab.engine e).run = some g → (s.task g.ref.task).run = some r → r.faulted = false →
        (t.fab.engine e).deque = (s.fab.engine e).deque ++ [{ g.ref with rerun := true }]) ∧
      ((s.fab.engine e).run = none → (t.fab.engine e).deque = (s.fab.engine e).deque)) ∧
  (∀ (s : State) (e : Fin 16), (s.fab.engine e).state = .selfTest → (s.fab.engine e).fw = .active →
    ((s.fab.engine e).recent s.time.sec.toNat).length < 3 → s.fab.fwCmd = none →
    RunsTo (.engineSelfTestDone e true) s { s with fab := s.fab.setEngine e { s.fab.engine e with state := .available, since := s.tickNo + 1 } } [(.fab, 5)]) ∧
  (∀ (s : State) (e : Fin 16), (s.fab.engine e).state = .selfTest → (s.fab.engine e).fw = .active → s.fab.fwCmd = none →
    RunsTo (.engineSelfTestDone e false) s { s with fab := s.fab.setEngine e { s.fab.engine e with state := .retired } } [(.fab, 4)]) ∧
  (∀ (s : State) (e : Fin 16) (p : Bool), (s.fab.engine e).state = .selfTest → (s.fab.engine e).fw = .active →
    3 ≤ ((s.fab.engine e).recent s.time.sec.toNat).length → s.fab.fwCmd = none →
    RunsTo (.engineSelfTestDone e p) s { s with fab := s.fab.setEngine e { s.fab.engine e with state := .retired } } [(.fab, 4)]) ∧
  (∀ (s : State) (e : Fin 16) (o : Origin), (s.fab.engine e).state = .selfTest → (s.fab.engine e).fw = .trying → s.fab.fwCmd = some (e.val, o) →
    EndsTo (.engineSelfTestDone e true) s { s with fab := { s.fab.setEngine e { s.fab.engine e with
      state := .available, fw := .updated, since := s.tickNo + 1 } with fwCmd := none } } [(.fab, 5)]) ∧
  (∀ (s : State) (e : Fin 16) (o : Origin), (s.fab.engine e).state = .drained → s.fab.fwCmd = some (e.val, o) →
    RunsTo (.engineFwLoaded e) s { s with fab := s.fab.setEngine e { s.fab.engine e with state := .selfTest, fw := .trying } } []) ∧
  (∀ (s : State) (line : Nat), RunsTo (.sramUe line []) s { s with fab := { s.fab with
    reloads := s.fab.reloads ++ [(line, [])], uncorr := Bits.sat 16 s.fab.uncorr 1 } } [(.fab, 9)]) ∧
  (∀ (s : State) (line us : Nat) (e : Fin 16) (g : Running) (r : CycleRun), (s.fab.engine e).run = some g → (s.task g.ref.task).run = some r →
    ∃ t, Changes (.sramUe line [(e, us)]) s t [.fab, .cyc] [(.fab, 9)] ∧ t.raised .fab 9 = true ∧ (t.fab.engine e).run = none ∧
      t.fab.reloads = s.fab.reloads ++ [(line, [(e.val, g.ref)])] ∧ t.fab.uncorr = Bits.sat 16 s.fab.uncorr 1 ∧
      t.task g.ref.task = { s.task g.ref.task with run := some { r with use := r.use + us } }) ∧
  (∀ (s : State) (line e : Nat) (b : BRef) (r : CycleRun) (l : List (Nat × List (Nat × BRef))), s.fab.reloads = (line, [(e, b)]) :: l →
    (s.task b.task).run = some r → r.faulted = false →
    RunsTo (.sramLineReloaded line) s { s with fab := ({ s.fab with reloads := l } : FabBlk).setEngine e { s.fab.engine e with
      deque := (s.fab.engine e).deque ++ [{ b with rerun := true }] } } []) ∧
  (∀ (s : State) (e : Fin 16) (off : Nat) (g : Running), (s.fab.engine e).run = some g → g.loaded = true → s.cyc.bpHit = none → s.cyc.target = .run → (s.task g.ref.task).mode = .run →
    s.cyc.bps.contains (g.ref.task, g.ref.num, off) = true → s.role ≠ .shadow → s.leads = false →
    ∃ t, Changes (.breakpointReached e off) s t [.fab, .cyc] [(.fab, 3)] ∧ (t.fab.engine e).run = some { g with held := true } ∧
      t.cyc.bpHit = some (g.ref.task, e.val) ∧ t.cyc.mode = .hold ∧ t.cyc.target = .hold ∧ (t.task g.ref.task).mode = .hold ∧
      (∀ m ∈ s.configuredTasks, m ≠ g.ref.task → ∃ p ∈ t.cyc.pends, p.target = .hold ∧ (m, .tick s.tickNo) ∈ p.left))

/-- The lanes of the link and the heartbeat (04 R100-R105, R111, R126).
Readings of the model: logs 1, 72, 89 and 91. -/
def Obligations.TwinLanes : Prop :=
  (∀ (s : State) (l : Fin 2), (s.twin.lane l).state = .up →
    RunsTo (.laneBlockLockLoss l) s { s with twin := { s.twin.setLane l { state := .down, next := s.nowNs, errors := min ((s.twin.lane l).errors + 1) 16383 } with
      copies := s.twin.copies.filter (fun e => e.1 == l.val) } } [(.twin, 6)]) ∧
  (∀ (s : State) (l : Fin 2), (s.twin.lane l).state = .down → (s.twin.lane l).training = false → s.lanesRun = true → s.twin.seated = true → s.twin.partner = true →
    (s.twin.lane l).next ≤ s.nowNs →
    RunsTo (.laneTrainAttempt l) s { s with twin := s.twin.setLane l { s.twin.lane l with training := true, next := s.nowNs + 10000000 } } []) ∧
  (∀ (s : State) (l : Fin 2), (s.twin.lane l).training = true → (s.twin.lane l).state ≠ .up → (s.twin.lane l).next ≤ s.nowNs + 8000000 →
    (s.twin.lane l).errors ≤ 16383 →
    RunsTo (.laneTrainTimeout l) s { s with twin := { s.twin.setLane l { state := .down, next := (s.twin.lane l).next, errors := (s.twin.lane l).errors } with
      copies := s.twin.copies.filter (fun e => e.1 == l.val) } } []) ∧
  (∀ (s : State) (l : Fin 2), (s.twin.lane l).training = true → (s.twin.lane l).state = .down →
    RunsTo (.laneTrained l) s { s with twin := s.twin.setLane l { s.twin.lane l with state := .handshake } } []) ∧
  (∀ (s : State) (l : Fin 2) (p : PeerId) (k : Nat) (ra rb : BitVec 128), (s.twin.lane l).state = .handshake → s.cfg.keyStore.pairKey = some k → p.pairKey = some k →
    s.twin.linkUp = true ∨ s.twin.started = false →
    RunsTo (.handshake l true p ra rb) s { s with twin := { s.twin.setLane l { s.twin.lane l with
      state := .up, training := false, fails := [], key := Config.sessionKey k ra rb } with peer := p, txCtr := Tbl.set 0#64 s.twin.txCtr l.val 0#64 } } []) ∧
  (∀ (s : State) (l : Fin 2) (ok : Bool) (p : PeerId) (ra rb : BitVec 128), (s.twin.lane l).state = .handshake → ok = false ∨ p.pairKey = none ∨ s.cfg.keyStore.pairKey ≠ p.pairKey →
    (s.twin.lane l).errors ≤ 16383 →
    RunsTo (.handshake l ok p ra rb) s { s with twin := { s.twin.setLane l { state := .down, next := (s.twin.lane l).next, errors := (s.twin.lane l).errors } with
      copies := s.twin.copies.filter (fun e => e.1 == l.val) } } []) ∧
  (∀ (s : State) (l : Fin 2), ((s.twin.lane l).fails.filter (fun t => decide (s.nowNs < t + 1000000))).length < 7 →
    RunsTo (.olviaAuthFail l) s { s with twin := { s.twin.setLane l { s.twin.lane l with
      fails := (s.twin.lane l).fails.filter (fun t => decide (s.nowNs < t + 1000000)) ++ [s.nowNs], errors := min ((s.twin.lane l).errors + 1) 16383 } with
      authCnt := Bits.inc s.twin.authCnt } } [(.twin, 7)]) ∧
  (∀ (s : State) (l : Fin 2), 7 ≤ ((s.twin.lane l).fails.filter (fun t => decide (s.nowNs < t + 1000000))).length → (s.twin.lane l).state = .up →
    ∃ t, Changes (.olviaAuthFail l) s t [.twin] [(.twin, 6), (.twin, 7)] ∧ (t.twin.lane l).state = .down ∧ t.raised .twin 6 = true ∧ t.raised .twin 7 = true) ∧
  (∀ s : State, s.mod.failed = false → s.twin.regions = [] → s.twin.linkUp = true →
    RunsTo .heartbeatSend s { s with twin := s.twin.send (.heartbeat s.heartbeatNow) } []) ∧
  (∀ (t : TwinBlk) (o : OlviaOut) (l : Fin 2), (t.send o).sent = t.sent ++ [o] ∧ (t.send o).txSeq = t.txSeq + 1#32 ∧
    Tbl.get 0#64 (t.send o).txCtr l.val = Tbl.get 0#64 t.txCtr l.val + (if (t.lane l).state = .up then 1#64 else 0#64)) ∧
  (∀ (t : TwinBlk) (f g : OlviaHdr), (t.lane 0).state = .up → (t.lane 1).state = .up → t.fresh f = true → g.seq = f.seq → g.lane ≠ f.lane →
    (t.noteCopy f).fresh g = false) ∧
  (∀ (s : State) (f : OlviaHdr) (h : Heartbeat), s.mod.failed = false → s.twin.fresh f = false →
    RunsTo (.heartbeat f h) s { s with twin := s.twin.noteCopy f } []) ∧
  (∀ (s : State) (f : OlviaHdr) (h : Heartbeat), s.twin.fresh f = true → s.mod.failed = false → s.leads = true → s.twin.link = .joined → h.link = 2 →
    ∃ t, Changes (.heartbeat f h) s t [.twin, .xch] [] ∧ t.twin = { s.twin.noteCopy f with
        heard := some h, lost := false, peer := { s.twin.peer with safetyId := h.safetyId }, tickOff := 0, shown := true, eligHeard := t.twin.eligHeard } ∧
      t.xch = { s.xch with ready := h.precarry }) ∧
  (∀ (s : State) (f : OlviaHdr) (h : Heartbeat), s.twin.fresh f = true → s.mod.failed = false → s.follows = true → s.twin.link = .joined → h.link = 2 →
    s.time.disc ≠ .follow → s.twin.axDiff = false → h.axCheck ≠ s.ax.heartbeatCheck →
    ∃ t, Changes (.heartbeat f h) s t [.twin, .xch, .time] [(.twin, 13)] ∧ t.raised .twin 13 = true ∧ t.twin = { s.twin.noteCopy f with
        heard := some h, lost := false, peer := { s.twin.peer with safetyId := h.safetyId }, tickOff := -h.tickOff, axDiff := true, shown := true
        eligHeard := t.twin.eligHeard } ∧
      t.xch = { s.xch with ready := h.precarry } ∧ t.time = { s.time with tickBad := none })

/-- Loss of the partner, promotion, yield, handover and the role lines (04 R106-R114, R127-R140).
Readings of the model: logs 33, 34, 35, 41, 57 and 86. -/
def Obligations.TwinRoles : Prop :=
  (∀ s : State, (s.twin.lost = true ∨ (s.twin.heard = none ∧ s.twin.link = .severed)) → RunsTo .partnerLost s s []) ∧
  (∀ s : State, s.twin.lost = false → (s.twin.heard.isSome = true ∨ s.twin.link ≠ .severed) → s.holdsToken = true → s.twin.yielding = none →
    ∃ t, Changes .partnerLost s t [.twin, .time, .pnl, .done] [(.twin, 0), (.time, 0), (.time, 1)] ∧ t.raised .twin 0 = true ∧
      t.twin = { s.twin with link := .severed, lost := true, heard := none, phase := 0, testing := false, suspect := false
                             missCnt := Bits.inc s.twin.missCnt } ∧
      t.pnl.done = [] ∧ t.pnl.waiting = s.pnl.waiting.map (fun r => { r with acked := true })) ∧
  (∀ s : State, s.twin.lost = false → (s.twin.heard.isSome = true ∨ s.twin.link ≠ .severed) → s.twin.started = true → s.twin.ownLow = false →
    s.twin.eligHeard = true → s.twin.yielding = none → s.twin.partnerLow = false → s.twin.high1us = true →
    ∃ t, Changes .partnerLost s t [.twin, .xch, .cfg, .cyc, .time, .ax, .pnl, .net, .safe]
        [(.twin, 0), (.twin, 1), (.safe, 5), (.time, 0), (.time, 1), (.ax, 0), (.ax, 1), (.ax, 13), (.pnl, 7), (.net, 4), (.net, 7), (.net, 9)] ∧
      t.raised .twin 0 = true ∧ t.raised .twin 1 = true ∧ t.twin.quiet = ({ s.twin with
        link := .severed, lost := true, heard := none, phase := 0, testing := false, suspect := false, missCnt := Bits.inc s.twin.missCnt
        ownLow := true, keeper := true, takeCnt := Bits.inc s.twin.takeCnt, openElig := none, lastTake := lastTakeWord 1 0 0 s.partnerUnit } : TwinBlk).quiet) ∧
  (∀ s : State, s.twin.lost = false → (s.twin.heard.isSome = true ∨ s.twin.link ≠ .severed) → s.twin.started = true → s.twin.ownLow = false →
    s.twin.eligHeard = false → s.twin.yielding = none → s.twin.partnerLow = false → s.twin.high1us = true →
    ∃ t, Changes .partnerLost s t [.twin, .time] [(.twin, 0), (.twin, 14), (.time, 0), (.time, 1)] ∧ t.raised .twin 14 = true ∧ t.twin.blocked = true ∧
      t.twin.ownLow = s.twin.ownLow) ∧
  (∀ s : State, s.twin.lost = false → (s.twin.heard.isSome = true ∨ s.twin.link ≠ .severed) → s.twin.started = true → s.twin.yielding = none →
    s.twin.partner = true → s.twin.partnerLow = true →
    ∃ t, Changes .partnerLost s t [.twin, .time] [(.twin, 0), (.twin, 3), (.time, 0), (.time, 1)] ∧ t.raised .twin 3 = true ∧ t.twin.isolated = true ∧
      t.twin.split = (if s.twin.isolated then s.twin.split else some (s.nowNs, 0)) ∧ t.twin.splitCnt = Bits.inc s.twin.splitCnt ∧
      t.twin.ownLow = s.twin.ownLow ∧ t.twin.engaged = s.twin.engaged) ∧
  (∀ s : State, s.twin.lost = false → (s.twin.heard.isSome = true ∨ s.twin.link ≠ .severed) → s.twin.yielding.isSome = true → s.twin.partnerLow = false →
    ∃ t, Changes .partnerLost s t [.twin, .time, .pnl, .done] [(.twin, 0), (.time, 0), (.time, 1)] ∧ t.raised .twin 0 = true ∧
      t.twin.ownLow = true ∧ t.twin.keeper = true ∧ t.twin.yielding = none) ∧
  (∀ s : State, s.twin.openElig = none → s.twin.isolated = false →
    RunsTo .partnerRoleLineHigh s { s with twin := { s.twin with partnerLow := false, high1us := true } } []) ∧
  (∀ s : State, s.twin.yielding = none → RunsTo .partnerRoleLineLow s { s with twin := { s.twin with partnerLow := true, high1us := false } } []) ∧
  (∀ (s : State) (r : Region), s.twin.yielding = some { region := some r, origin := .self } → s.cyc.buf = [] → s.cfg.asking = none →
    ∃ t, Changes .partnerRoleLineLow s t [.twin, .time, .pnl, .cyc, .cfg, .safe, .done] [(.twin, 1), (.safe, 5), (.pnl, 2)] ∧ t.raised .twin 1 = true ∧ t.time = s.time.follow ∧
      t.twin = { s.twin with partnerLow := true, high1us := false, yielding := none, lastTake := lastTakeWord 2 r.code 0 s.unitNo }) ∧
  (∀ s : State, s.twin.ownLow = true → s.twin.partnerLow = true → s.twin.slotB = false → RunsTo .roleConflict s s [(.twin, 12)]) ∧
  (∀ s : State, s.twin.ownLow = true → s.twin.partnerLow = true → s.twin.slotB = true → s.twin.link ≠ .severed →
    ∃ t, Changes .roleConflict s t [.twin, .time, .pnl, .done] [(.twin, 12), (.pnl, 2)] ∧ t.raised .twin 12 = true ∧ t.time = s.time.follow ∧
      t.twin = { s.twin with ownLow := false, keeper := false }) ∧
  (∀ (s : State) (t c : Nat), s.twin.split = some (t, c) → s.refTask.isSome = true → 2 ≤ c →
    RunsTo .splitBrainRelease s { s with twin := { s.twin with split := none, engaged := false }, dio := s.dio.engageAll false, aio := s.aio.faultReleaseAll } []) ∧
  (∀ s : State, s.twin.waiting = true → s.twin.started = false → s.mod.failed = false → s.twin.partnerLow = false → s.twin.high1us = true → s.mod.ready = false →
    s.twin.linkUp = false → s.twin.seated = true → s.twin.regions.contains Region.twin = false → s.twin.waitAt + (if s.twin.slotB then 100 else 10) ≤ s.mod.uptime →
    RunsTo .startingRoleWait s { s with
      twin := { s.twin with started := true, began := true, waiting := false, isolated := false, ownLow := true, keeper := true, engaged := false }
      cfg := { s.cfg with phase := if s.cfg.phase = .twinSearch then .rick else s.cfg.phase } } []) ∧
  (∀ s : State, s.twin.waiting = true → s.twin.started = false → s.mod.failed = false → s.twin.partnerLow = true → s.twin.linkUp = false →
    s.twin.seated = true → s.twin.waitAt + (if s.twin.slotB then 100 else 10) ≤ s.mod.uptime →
    RunsTo .startingRoleWait s { s with
      twin := { s.twin with started := true, began := true, waiting := false, isolated := true, ownLow := false, keeper := false, engaged := false }
      cfg := { s.cfg with phase := if s.cfg.phase = .twinSearch then .time else s.cfg.phase } } []) ∧
  (∀ s : State, (s.twin.seated = false ∨ s.mod.uptime < s.twin.waitAt + (if s.twin.slotB then 100 else 10)) → RunsTo .startingRoleWait s s []) ∧
  (∀ (s : State) (f : OlviaHdr) (r : Region), s.twin.fresh f = true → s.follows = true → s.eligible = true → s.twin.ownLow = false →
    ∃ t, Changes (.yield f r false) s t [.twin, .xch, .cfg, .cyc, .time, .ax, .pnl, .net, .safe]
        [(.twin, 1), (.safe, 5), (.time, 0), (.time, 1), (.ax, 0), (.ax, 1), (.ax, 13), (.pnl, 7), (.net, 4), (.net, 7), (.net, 9)] ∧
      t.raised .twin 1 = true ∧ t.twin.quiet = ({ s.twin.noteCopy f with
        partnerLow := false, high1us := true, ownLow := true, keeper := true
        takeCnt := Bits.inc s.twin.takeCnt, openElig := none, lastTake := lastTakeWord 2 r.code 0 s.partnerUnit } : TwinBlk).quiet) ∧
  (∀ (s : State) (r : Region), s.twin.yielding = some { region := some r, origin := .self } → s.twin.partnerLow = false → s.twin.high1us = true →
    s.partnerShadow = true → RunsTo .yieldFail s { s with twin := { s.twin with keeper := true, ownLow := true, yielding := none } } []) ∧
  (∀ (s : State) (o : Origin), s.handoverReason = 0 → s.twin.handover = none → s.twin.yielding = none →
    EndsTo (.handover o) s { s with twin := { s.twin with handover := some o } } []) ∧
  (∀ (s : State) (o : Origin), s.handoverReason = 0 → (s.twin.handover.isSome = true ∨ s.twin.yielding.isSome = true) →
    EndsTo (.handover o) s { s with twin := { s.twin with lastTake := lastTakeWord 5 0 2 0#4 } } [(.twin, 9)]) ∧
  (∀ (s : State) (o : Origin), s.handoverReason ≠ 0 →
    EndsTo (.handover o) s { s with twin := { s.twin with lastTake := lastTakeWord 5 0 s.handoverReason 0#4 } } [(.twin, 9)])

/-- The exchange of a cycle and its verdict (04 R115-R122).
Readings of the model: logs 32, 76 and 89. -/
def Obligations.TwinCycle : Prop :=
  (∀ (s : State) (f : OlviaHdr) (n : Fin 32) (k : DWord) (v : List InVal), s.twin.fresh f = true →
    RunsTo (.samples f n k v) s { s with twin := (s.twin.noteCopy f).setTask n { s.twin.task n with samples := some (k, v) } } []) ∧
  (∀ (s : State) (f : OlviaHdr) (n : Fin 32) (k : DWord) (v : List InVal), s.twin.fresh f = true → s.follows = true →
    RunsTo (.agreed f n k v) s { s with twin := (s.twin.noteCopy f).setTask n { s.twin.task n with agreed := some (k, v) } } []) ∧
  (∀ (s : State) (f : OlviaHdr) (n : Fin 32) (k : DWord) (v : List InVal) (m : HashMsg) (c : Fin 6) (ta : Nat), s.twin.fresh f = false →
    RunsTo (.samples f n k v) s { s with twin := s.twin.noteCopy f } [] ∧ RunsTo (.agreed f n k v) s { s with twin := s.twin.noteCopy f } [] ∧
    RunsTo (.hash f n m) s { s with twin := s.twin.noteCopy f } [] ∧ RunsTo (.verdict f n k c ta) s { s with twin := s.twin.noteCopy f } []) ∧
  (∀ (s : State) (n : Fin 32) (r : CycleRun), (s.task n).run = some r → s.follows = true → s.twin.link = .joined → r.agreed = false →
    (s.twin.task n).samplesOf r.k = none → (s.twin.task n).agreedOf r.k = none → r.t0 + 40000 ≤ s.nowNs →
    ∃ t, Changes (.exchangeMiss n) s t [.twin, .dio, .aio, .fab, .time, .cyc, .xch] [(.twin, 5), (.twin, 11)] ∧ t.raised .twin 11 = true ∧
      t.twin.link = .catchingUp ∧ t.twin.tasks = Tbl.map {} TwinTask.restart (s.twin.setTask n { s.twin.task n with release := true }).tasks) ∧
  (∀ (s : State) (f : OlviaHdr) (n : Fin 32) (k h a : DWord), s.twin.fresh f = true → s.leads = true → s.twin.link = .joined →
    (s.twin.task n).own = some { k := k, hash := h, audit := a, diff := false } → (s.twin.task n).fault = none → (s.twin.task n).ownFault = none → (s.twin.task n).verdict = none →
    RunsTo (.hash f n (.commit k h a false)) s { s with twin := ((s.twin.noteCopy f).send (.verdict n k 1 (s.applyInstant n))).setTask n { s.twin.task n with
      partner := some { k := k, hash := h, audit := a, diff := false }, step := true, verdict := some (k, 1, s.applyInstant n), keep := false
      matched := (s.twin.task n).matched + 1 } } []) ∧
  (∀ (s : State) (f : OlviaHdr) (n : Fin 32) (k h a h' : DWord), s.twin.fresh f = true → s.leads = true → s.twin.link = .joined → h ≠ h' →
    (s.twin.task n).own = some { k := k, hash := h', audit := a, diff := false } → (s.twin.task n).fault = none → (s.twin.task n).ownFault = none → (s.twin.task n).verdict = none →
    ∃ t, Changes (.hash f n (.commit k h a false)) s t [.twin] [(.twin, 2)] ∧ t.raised .twin 2 = true ∧ t.twin.testing = true ∧ t.twin.mismCycle = k ∧
      t.twin.mismCnt = Bits.inc s.twin.mismCnt ∧ t.twin.mismTask = Bits.fld 1 28 ||| Bits.fld n 0 ∧ (t.twin.task n).verdict = some (k, 2, s.applyInstant n) ∧
      (t.twin.task n).release = (s.twin.task n).release) ∧
  (∀ (s : State) (f : OlviaHdr) (n : Fin 32) (k : DWord), s.twin.fresh f = true → s.follows = true →
    RunsTo (.hash f n (.fault k)) s { s with twin := (s.twin.noteCopy f).setTask n { s.twin.task n with fault := some k } } []) ∧
  (∀ (s : State) (f : OlviaHdr) (n : Fin 32) (h : DWord), s.twin.fresh f = true → s.twin.link = .joined →
    RunsTo (.hash f n (.image h)) s { s with twin := (s.twin.noteCopy f).setTask n { s.twin.task n with image := some h } } []) ∧
  (∀ (s : State) (n : Fin 32) (r : CycleRun), s.leads = true → s.twin.link = .joined → (s.task n).run = some r → r.faulted = false → s.xch.cur.state = .idle →
    s.twin.linkUp = true →
    RunsTo (.verdictDeadline n) s { s with twin := (s.twin.send (.verdict n r.k 3 (s.applyInstant n))).setTask n { s.twin.task n with
      verdict := some (r.k, 3, s.applyInstant n), keep := true, matched := 0 } } []) ∧
  (∀ (s : State) (f : OlviaHdr) (n : Fin 32) (k : DWord) (ta : Nat), s.twin.fresh f = true → s.follows = true → s.twin.link = .joined → s.xch.cur.state = .idle →
    RunsTo (.verdict f n k 1 ta) s { s with twin := (s.twin.noteCopy f).setTask n { s.twin.task n with
      verdict := some (k, 1, ta), keep := false, matched := (s.twin.task n).matched + 1 } } []) ∧
  (∀ (s : State) (f : OlviaHdr) (n : Fin 32) (k : DWord) (ta : Nat), s.twin.fresh f = true → s.follows = true → s.twin.link = .joined → s.xch.cur.state = .idle →
    ∃ t, Changes (.verdict f n k 2 ta) s t [.twin] [(.twin, 2)] ∧ t.twin.suspect = true ∧ t.twin.testing = true ∧ (t.twin.task n).release = true) ∧
  (∀ (s : State) (n : Fin 32), s.follows = true → s.twin.link = .joined → (s.task n).toApply = true → (s.task n).run = none → (s.twin.task n).verdict = none →
    (s.twin.task n).release = false →
    ∃ t, Changes (.verdictMissing n) s t [.twin, .dio, .aio, .fab, .time, .cyc, .xch] [(.twin, 5), (.twin, 11)] ∧ t.raised .twin 11 = true ∧
      t.twin.link = .catchingUp ∧ t.twin.tasks = Tbl.map {} TwinTask.restart (s.twin.setTask n { s.twin.task n with release := true }).tasks)

/-- POLICY, SEQSTATE, COPY and RESULT frames, the self-test after a mismatch and the timeout of the state copy (03 R92, 04 R121-R125, R131).
Readings of the model: logs 31, 44, 89 and 90. -/
def Obligations.TwinCopy : Prop :=
  (∀ (s : State) (f : OlviaHdr) (m : ProgMode), s.twin.fresh f = true → s.leads = true →
    RunsTo (.policy f (.forward m)) s { s with twin := s.twin.noteCopy f, cyc := { s.cyc with buf := s.cyc.buf ++ [(m, .partner)] } } []) ∧
  (∀ (s : State) (f : OlviaHdr) (m : ProgMode), s.twin.fresh f = true → s.follows = true → s.twin.link = .joined → s.cyc.fwd = [] → m ≠ .hold →
    RunsTo (.policy f (.mode m [])) s { s with
      twin := s.twin.noteCopy f
      cyc := { s.cyc with target := m, mode := m, pends := [], tasks := Tbl.map {} (fun t => { t with mode := m }) s.cyc.tasks } } []) ∧
  (∀ (s : State) (f : OlviaHdr), s.twin.fresh f = true → s.follows = true → s.twin.began = true → s.twin.link = .joined → s.cyc.fwd = [] → s.cyc.mode ≠ .hold →
    ∃ t, Changes (.policy f (.mode .hold [])) s t [.twin, .dio, .aio, .cyc] [] ∧ t.cyc.mode = .hold ∧ t.cyc.target = .hold ∧ t.twin.link = .catchingUp ∧
      t.twin.phase = 0 ∧ t.twin.engaged = false ∧ t.dio = s.dio.engageAll false) ∧
  (∀ (s : State) (f : OlviaHdr) (n : Nat) (b : Bool) (k : DWord), s.twin.fresh f = true → s.follows = true →
    RunsTo (.policy f (.act n b k)) s { s.setTask n { s.task n with due := some b, dueFrom := some k } with twin := s.twin.noteCopy f } []) ∧
  (∀ (s : State) (f : OlviaHdr) (n : Nat) (k : DWord), s.twin.fresh f = true → s.follows = true →
    RunsTo (.policy f (.restart n k)) s { s.setTask n { s.task n with restart := some (.cycle k, .partner) } with twin := s.twin.noteCopy f } []) ∧
  (∀ (s : State) (f : OlviaHdr) (n : Nat) (l : TaskLimits) (k : DWord), s.twin.fresh f = true → s.follows = true →
    RunsTo (.policy f (.limits n l k)) s { s.setTask n { s.task n with next := some (.cycle k, l) } with twin := s.twin.noteCopy f } []) ∧
  (∀ (s : State) (f : OlviaHdr) (n hz : Nat), s.twin.fresh f = true → s.twin.link ≠ .severed →
    RunsTo (.seqstate f (.panel (.rate n hz))) s { s with
      twin := s.twin.noteCopy f
      pnl := { s.pnl with hz := hz, nextNs := s.pnl.nextNs.map (fun _ => (s.pnl.frameNs + 1000000000 / hz) / 10 * 10) } } []) ∧
  (∀ (s : State) (f : OlviaHdr) (e : AxEvent) (ago : Nat), s.twin.fresh f = true → s.follows = true →
    ∃ t, Changes (.seqstate f (.axis e ago)) s t [.ax, .twin] [(.ax, 0), (.ax, 1), (.ax, 13)]) ∧
  (∀ (s : State) (f : OlviaHdr) (p : Fin 4) (ns : Nat), s.twin.fresh f = true → s.follows = true → (s.net.port p).newest = none →
    RunsTo (.seqstate f (.delay p ns)) s { s with
      twin := s.twin.noteCopy f
      net := s.net.setPort p { s.net.port p with newest := some ns, delay := if s.net.frozen then (s.net.port p).delay else ns } } []) ∧
  (∀ (s : State) (f : OlviaHdr) (c : Nat) (q : Word) (p : Nat) (r : Half), s.twin.fresh f = true → s.follows = true →
    RunsTo (.seqstate f (.stream c q p r)) s { s with
      twin := s.twin.noteCopy f, net := { s.net.setCtx c { s.net.ctx c with seq := q } with redSeq := Tbl.set 0#16 s.net.redSeq p r } } []) ∧
  (∀ (s : State) (f : OlviaHdr) (u : Fin 6) (x : RxPoll), s.twin.fresh f = true → s.follows = true →
    RunsTo (.seqstate f (.rick u x)) s { s with
      twin := s.twin.noteCopy f, cfg := { s.cfg with units := Tbl.mod {} s.cfg.units (u.val + 1) (RxUnit.takePoll x) } } []) ∧
  (∀ (s : State) (f : OlviaHdr) (n : Nat) (k : DWord) (l : List (Nat × Byte)) (off len : Nat), s.twin.fresh f = true → s.follows = true →
    s.twin.link = .catchingUp → s.twin.phase ≠ 0 → n < 32 →
    ∃ t, Changes (.copy f (.image n k l (some (off, len)))) s t [.cyc, .twin] [] ∧ (t.task n).cycle = k ∧ (t.task n).run = none ∧ (t.task n).toApply = false ∧
      (t.task n).image = Tbl.setAll 0#8 (List.filter (fun (e : Nat × Byte) => !(decide (off ≤ e.1) && decide (e.1 < off + len))) (s.task n).image) l ∧
      t.twin = { s.twin.noteCopy f with phase := if 100 ≤ s.copyPercent n (off + len) then 3 else 2, copyTask := n
                                        percent := min 100 (s.copyPercent n (off + len)) }) ∧
  (∀ (s : State) (f : OlviaHdr) (n : Nat) (k : DWord) (l : List (Nat × Byte)), s.twin.fresh f = true → s.follows = true →
    s.twin.link = .catchingUp → s.twin.phase ≠ 0 → n < 32 → (s.task n).cycle.toNat < k.toNat → (s.task n).run = none →
    ∃ t, Changes (.copy f (.image n k l none)) s t [.cyc, .twin] [] ∧ (t.task n).cycle = k ∧ (t.task n).toApply = false ∧
      (t.task n).image = Tbl.setAll 0#8 (s.task n).image l ∧ t.twin = s.twin.noteCopy f) ∧
  (∀ (s : State) (f : OlviaHdr) (x : List (Fin 4 × Axis)) (q : List (Nat × Word)) (r : List (Nat × Half)) (p : List (Fin 6 × RxPoll)) (c : List (Nat × Nat × Word)),
    s.twin.fresh f = true → s.follows = true → s.twin.link = .catchingUp → s.twin.phase ≠ 0 →
    ∃ t, Changes (.copy f (.seqState x [] q r p c)) s t [.cyc, .ax, .cfg, .net, .twin] [] ∧ t.twin = { s.twin.noteCopy f with axDiff := false, phase := 4, percent := 100 } ∧
      t.ax = x.foldl (fun d e => d.set e.1 e.2) s.ax ∧ t.net.redSeq = Tbl.setAll 0#16 [] r) ∧
  (∀ (s : State) (f : OlviaHdr) (p : Program) (g : Nat), s.twin.fresh f = true → s.follows = true → s.twin.link = .catchingUp → s.twin.phase ≠ 0 →
    p.signer = some g → g ∈ s.cfg.keyStore.imageKeys →
    RunsTo (.copy f (.program p)) s { s with
      cfg := { s.cfg with prog := some p, base := if s.cfg.joinProg then s.cfg.base else s.cfg.prog, joinProg := true, progOk := true }
      xch := { s.xch with reverse := none }, twin := { s.twin.noteCopy f with peer := { s.twin.peer with prog := p.hash } } } []) ∧
  (∀ (s : State) (f : OlviaHdr) (p : Program), s.twin.fresh f = true → s.follows = true → s.twin.link = .catchingUp → s.twin.phase ≠ 0 →
    (∀ g, p.signer = some g → g ∉ s.cfg.keyStore.imageKeys) →
    ∃ t, Changes (.copy f (.program p)) s t [.twin, .pnl, .done] [(.twin, 8)] ∧ t.raised .twin 8 = true ∧
      t.twin = { s.twin.noteCopy f with joinReason := 1, link := .severed, phase := 0 }) ∧
  (∀ (s : State) (f : OlviaHdr) (b : Bool), s.twin.fresh f = true → s.twin.testing = true → s.twin.peerResult = none → s.twin.ownResult = none →
    ∃ t, Changes (.result f (.selfTest b)) s t [.twin] [] ∧ t.twin.peerResult = some b ∧
      t.twin.mismTask = (s.twin.mismTask &&& (if s.holdsToken then 0xFCFFFFFF#32 else 0xF3FFFFFF#32)) ||| Bits.fld (if b then 1 else 2) (if s.holdsToken then 24 else 26)) ∧
  (∀ s : State, s.twin.testing = true → s.twin.ownResult = none → s.twin.peerResult = none → s.twin.linkUp = true → (s.holdsToken = true → s.fab.selfTesting = false) →
    ∃ t, Changes (.mismatchSelfTestDone true) s t [.twin] [] ∧ t.twin.ownResult = some true ∧ t.twin.sent = s.twin.sent ++ [.result true] ∧
      t.twin.mismTask = (s.twin.mismTask &&& (if s.holdsToken then 0xF3FFFFFF#32 else 0xFCFFFFFF#32)) ||| Bits.fld 1 (if s.holdsToken then 26 else 24)) ∧
  (∀ s : State, s.holdsToken = true → s.fab.selfTesting = true → ∀ b, RunsTo (.mismatchSelfTestDone b) s s []) ∧
  (∀ s : State, s.twin.link = .catchingUp → s.twin.phase ≠ 0 → s.twin.copyNs + 60000000000 ≤ s.nowNs → s.holdsToken = false → s.cyc.mode ≠ .hold → s.exchanging = false →
    s.releasePending = false →
    ∃ t, Changes .stateCopyTimeout s t [.twin, .dio, .aio, .fab, .time, .cyc, .xch] [(.twin, 5), (.twin, 8)] ∧ t.raised .twin 5 = true ∧ t.raised .twin 8 = true ∧
      t.twin.link = .catchingUp ∧ t.twin.phase = 1 ∧ t.twin.copyNs = s.nowNs ∧ t.twin.joinReason = 4 ∧ t.twin.engaged = false ∧ t.time = s.time.follow ∧
      t.dio = s.dio.engageAll false)

/-- The commands of an exchange on a module that acts alone (05 R144-R149, R159, R160).
Readings of the model: logs 17, 36 and 37. -/
def Obligations.ExchangeCommands : Prop :=
  (∀ (s : State) (o : Origin) (total len : Nat) (pkg : Package × Option Nat), s.actsAsLead = true → s.xch.cur.state = .idle → len ≤ total →
    EndsTo (.stage o 0 total len true false pkg) s { s with
      xch := { ({ s.xch.clear with stageOrg := o } : XchBlk).write { state := .staging } with len := len, total := total } } []) ∧
  (∀ (s : State) (o : Origin) (total : Nat) (pkg : Package × Option Nat), s.actsAsLead = true → s.leads = false → s.xch.cur.state = .idle →
    EndsTo (.stage o 0 total total true true pkg) s { s with
      xch := { ({ s.xch.clear with stageOrg := o } : XchBlk).write { state := .staging } with
        len := total, total := total, pkg := some pkg.1, signer := pkg.2, written := true, ownOk := false, peerOk := false, stageOrg := o } } []) ∧
  (∀ (s : State) (o : Origin) (off total len : Nat) (f l : Bool) (pkg : Package × Option Nat), s.actsAsLead = false →
    EndsTo (.stage o off total len f l pkg) s s []) ∧
  (∀ (s : State) (o : Origin) (off total len : Nat) (f l : Bool) (pkg : Package × Option Nat), s.actsAsLead = true → s.xch.cur.state ≠ .idle →
    s.xch.cur.state ≠ .staging →
    EndsTo (.stage o off total len f l pkg) s { s with xch := { s.xch with reason := 8, refuses := Bits.inc s.xch.refuses } } []) ∧
  (∀ (s : State) (p : Package), s.xch.pkg = some p → s.xch.cur.state = .staging → s.xch.written = true → s.xch.ownOk = false → s.twin.link = .severed →
    s.stagingReason p s.xch.signer = 0 →
    EndsTo .stagingComplete s { s with xch := { ({ s.xch with ownOk := true } : XchBlk).write { state := .staged } with reason := 0 }, cfg := { s.cfg with base := none } } [(.xch, 0)]) ∧
  (∀ (s : State) (p : Package) (r : Nat), s.xch.pkg = some p → s.xch.cur.state = .staging → s.xch.written = true → s.xch.ownOk = false →
    s.twin.link = .severed → s.stagingReason p s.xch.signer = r → r ≠ 0 →
    EndsTo .stagingComplete s { s with
      xch := { s.xch.clear.write {} with reason := r, refuses := Bits.inc (s.xch.clear.write {}).refuses }, cfg := { s.cfg with base := none } }
      ((.xch, 1) :: if r = 4 then [(.fab, 10)] else [])) ∧
  (∀ (s : State) (o : Origin) (n : Nat) (k : DWord) (p : Package), s.actsAsLead = true → s.leads = false → s.xch.cur.state = .staged → s.xch.pkg = some p →
    s.armReason p n k = 0 → s.atStop = false →
    EndsTo (.arm o n k) s { s with xch := ({ s.xch.drop with
      discarded := 0#32, added := 0#32, converted := 0#32, armOrg := o, reason := 0 } : XchBlk).write { state := .armed, pivot := n, n := k } } [(.xch, 2)]) ∧
  (∀ (s : State) (o : Origin) (n : Nat) (k : DWord) (p : Package) (r : Nat), s.actsAsLead = true → s.xch.cur.state = .staged → s.xch.pkg = some p →
    s.armReason p n k = r → r ≠ 0 →
    EndsTo (.arm o n k) s { s with xch := { s.xch with reason := r, refuses := Bits.inc s.xch.refuses } } [(.xch, 3)]) ∧
  (∀ (s : State) (o : Origin), s.actsAsLead = true → s.leads = false → s.xch.cur.state = .armed →
    EndsTo (.disarm o) s { s with xch := { s.xch.drop.write { s.xch.cur with state := .staged } with
      reason := 0x10, aborts := Bits.inc s.xch.aborts } } [(.xch, 4)]) ∧
  (∀ (s : State) (o : Origin), s.actsAsLead = true → s.leads = false → s.xch.cur.state = .staged →
    EndsTo (.discard o) s { s with xch := s.xch.drop.clear.write {}, cfg := { s.cfg with base := none } } []) ∧
  (∀ (s : State) (o : Origin) (m : CarryMap) (b : Program), s.actsAsLead = true → s.leads = false → s.xch.cur.state = .idle → s.xch.reverse = some m →
    s.cfg.base = some b →
    ∃ p : Package, p.prog = b ∧ p.carry = m ∧ EndsTo (.rollback o) s { s with xch := { s.xch.clear.write { state := .staging } with
      pkg := some p, signer := b.signer, written := true, ownOk := false, peerOk := false, stageOrg := o } } []) ∧
  (∀ (s : State) (o : Origin), s.actsAsLead = true → s.xch.cur.state = .idle → s.xch.reverse = none →
    EndsTo (.rollback o) s { s with xch := { s.xch with reason := 6, refuses := Bits.inc s.xch.refuses } } []) ∧
  (∀ (s : State) (p : Package), s.xch.pkg = some p → s.xch.cur.state = .armed → s.xch.done = false →
    RunsTo .precarryComplete s { s with xch := { s.xch with done := true, percent := 100, stage := s.precarryAll p } } [])

/-- The switch of a task, of all tasks in STOP, and the end of an exchange (05 R144, R150-R157).
Readings of the model: logs 37, 38, 39, 40 and 92. -/
def Obligations.ExchangeSwitch : Prop :=
  (∀ (s : State) (n : Fin 32) (p : Package), s.xch.pkg = some p → s.carryReady p n = true →
    ∃ t, Changes (.carryComplete n) s t [.cyc, .xch] [(.xch, 5), (.xch, 8)] ∧ Bits.bit t.xch.switched n = true ∧
      (t.task n).image = p.carryTask s.oldImage n ∧ (t.task n).draft = p.carryTask s.oldImage n ∧ (t.task n).exchanged = true ∧ (t.task n).staged = true ∧
      (∀ m : Nat, m ≠ n → t.task m = s.task m)) ∧
  (∀ (s : State) (o : Origin) (n : Nat) (k : DWord) (p : Package), s.actsAsLead = true → s.leads = false → s.xch.cur.state = .staged → s.xch.pkg = some p →
    s.armReason p n k = 0 → s.atStop = true →
    ∃ t, Changes (.arm o n k) s t [.cyc, .xch, .done] [(.xch, 2), (.xch, 5), (.xch, 8)] ∧ t.raised .xch 2 = true ∧ t.xch.cur.state = .settling ∧
      t.xch.cur.inStop = true ∧ ∀ m ∈ s.exchangeTasks p, Bits.bit t.xch.switched m = true) ∧
  (∀ (s : State) (p : Package), s.xch.pkg = some p → s.settleReady = true → s.twin.link = .severed → p.cfg = none →
    ∃ t, Changes .settleComplete s t [.cfg, .cyc, .xch, .done] [(.xch, 6)] ∧ t.raised .xch 6 = true ∧
      t.cfg = { s.cfg with prog := some p.prog, base := s.cfg.prog, progB := !s.cfg.progB, progOk := true } ∧
      t.xch.cur = {} ∧ t.xch.reverse = p.reverse ∧ t.xch.completes = Bits.inc s.xch.completes)

/-- The discipline of wall time (06 R164, R166, R170, 07 R211, R213, R216).
Readings of the model: logs 13, 15 and 48. -/
def Obligations.Discipline : Prop :=
  (∀ (s : State) (b : Announce) (x : SyncStamp), bestMaster s.net.masters = some b → s.time.disc = .freeRun → s.net.redundant s.net.ptpPair = false →
    ∃ t, Changes (.sync b.sender (Bits.get s.net.ptpCfg 16 8) (some x) none) s t [.time, .net] [] ∧
      t.time = { s.time with offset := x.recv - x.sent - (s.net.port (2 * s.net.ptpPair + s.net.ptpPort)).delay, disc := .acquiring, within := 0 } ∧
      t.net.missed0 = 0 ∧ t.net.heard0 = true) ∧
  (∀ (s : State) (m : DWord) (d : Nat) (x y : Option SyncStamp), (∀ b, bestMaster s.net.masters = some b → b.sender ≠ m) ∨ d ≠ Bits.get s.net.ptpCfg 16 8 →
    RunsTo (.sync m d x y) s s []) ∧
  (∀ (s : State) (b : Announce) (x : SyncStamp) (o : Int), bestMaster s.net.masters = some b → s.time.disc = .locked → s.net.redundant s.net.ptpPair = false →
    o = x.recv - x.sent - (s.net.port (2 * s.net.ptpPair + s.net.ptpPort)).delay → near (o + s.time.residual / 100000) = false →
    ∃ t, Changes (.sync b.sender (Bits.get s.net.ptpCfg 16 8) (some x) none) s t [.time, .net] [(.time, 2)] ∧ t.raised .time 2 = true ∧ t.time.disc = .quarantine ∧
      t.time.pending = o ∧ t.time.quarCnt = Bits.inc s.time.quarCnt ∧ t.time.quarSyncs = 0 ∧ t.time.slew = 0 ∧ t.time.sec = s.time.sec ∧ t.time.ns = s.time.ns) ∧
  (∀ (s : State), s.time.disc = .locked ∨ s.time.disc = .quarantine →
    RunsTo .syncTimeout s { s with time := { s.time with disc := .holdover, pending := 0, within := 0, holdTicks := 0, expired := false } } [(.time, 1)]) ∧
  (∀ (s : State), s.time.quarSyncs < 8 → RunsTo .quarantineExpiry s s []) ∧
  (∀ (s : State), s.time.disc = .quarantine → 8 ≤ s.time.quarSyncs → s.net.pathCheck = true →
    ∃ t, Changes .quarantineExpiry s t [.time, .net] [(.time, 0), (.time, 3)] ∧ t.raised .time 0 = true ∧ t.raised .time 3 = true ∧
      t.time.disc = .locked ∧ t.time.asymmetry = false ∧ t.time.pending = 0 ∧ t.time.residual = -s.time.pending * 100000 ∧
      t.net = { s.net with frozen := false }) ∧
  (∀ (s : State), s.time.disc = .quarantine → 8 ≤ s.time.quarSyncs → s.net.pathCheck = false →
    RunsTo .quarantineExpiry s { s with
      time := { s.time with disc := .holdover, asymmetry := true, pending := 0, holdTicks := 0, expired := false }
      net := s.net.checked false } [(.time, 1), (.time, 4)]) ∧
  (∀ (s : State), s.time.disc = .holdover → 60000000 ≤ s.time.holdTicks → s.time.expired = false →
    RunsTo .holdoverExpired s { s with time := { s.time with expired := true } } [(.time, 5)]) ∧
  (∀ (s : State), s.time.residual.natAbs ≤ s.time.slew.natAbs → RunsTo .slewDone s { s with time := { s.time with residual := 0, slew := 0 } } []) ∧
  (∀ (s : State), s.time.slew.natAbs < s.time.residual.natAbs → RunsTo .slewDone s s []) ∧
  (∀ (s : State) (a b : Nat), s.cfg.lanes = true → s.cfg.settled = false → s.time.disc = .freeRun → s.newestCommit = some (a, b) →
    Bits.get s.time.cfg 0 8 * 1000000000 ≤ s.time.total →
    RunsTo .syncWaitExpiry s { s with
      time := s.time.setTotal (a * 1000000000 + b + s.time.total), cfg := { s.cfg with settled := true } } [])

/-- The angle clocks and their shaft inputs (06 R175-R179, 09 R286, R287).
Readings of the model: logs 14 and 51. -/
def Obligations.AngleClocks : Prop :=
  (∀ (s : State) (g : Fin 4), (s.time.clock 0).mode = 1 → (s.time.clock 0).diff = false → (s.time.clock 0).srcA = g → (s.time.clock 0).locked = false →
    (s.time.clock 1).mode = 0 →
    RunsTo (.mainsLock g) s { s with aio := s.aio.setGs g { s.aio.getGs g with locked := true }
                                     time := s.time.setClock 0 { s.time.clock 0 with state := .locked } } [(.time, 7)]) ∧
  (∀ (s : State) (g : Fin 4), (s.time.clock 0).mode = 1 → (s.time.clock 0).srcA = g → (s.time.clock 0).locked = true → (s.time.clock 1).mode = 0 →
    RunsTo (.mainsUnlock g) s { s with aio := s.aio.setGs g { s.aio.getGs g with locked := false }
                                       time := s.time.setClock 0 { s.time.clock 0 with state := .search } } [(.time, 8)]) ∧
  (∀ (s : State) (sh : Fin 2) (off : Fin 10000) (i : Nat), s.time.shaftClock sh = some i → (s.aio.getSh sh).lineFault = false → (s.time.clock i).cpt ≠ 0 →
    (s.time.clock i).state = .search ∨ (s.time.clock i).state = .unreferenced →
    RunsTo (.zEdge sh off) s { s with time := s.time.setClock i { s.time.clock i with
      base := Bits.hi (s.time.clock i).own ++ Bits.fld (Bits.get (s.time.clock i).zcfg 16 16) 16
      cnt := 0, between := 0, held := none, refErr := false, state := .locked } } [(.time, 7)]) ∧
  (∀ (s : State) (sh : Fin 2) (i : Nat), s.time.shaftClock sh = some i → (s.time.clock i).state = .locked →
    (∀ e, (s.time.clock i).since = some e → ((Bits.get (s.time.clock i).zcfg 0 8 * 10000000 : Nat) : Int) < e + 10000) →
    RunsTo (.shaftStandstill sh) s { s with time := s.time.setClock i { s.time.clock i with
      state := .standstill, rate := 0, between := (s.time.clock i).betweenAt 0 } } [(.time, 8)]) ∧
  (∀ (s : State) (sh : Fin 2) (i : Nat) (e : Int), s.time.shaftClock sh = some i → (s.time.clock i).since = some e →
    e + 10000 ≤ ((Bits.get (s.time.clock i).zcfg 0 8 * 10000000 : Nat) : Int) →
    RunsTo (.shaftStandstill sh) s s []) ∧
  (∀ (s : State) (sh : Fin 2) (i : Nat), s.time.shaftClock sh = some i → (s.time.clock i).state = .locked →
    RunsTo (.shaftOverspeed sh) s { s with time := s.time.setClock i { s.time.clock i with state := .overspeed, held := none } } [(.time, 8), (.time, 10)]) ∧
  (∀ (s : State) (sh : Fin 2) (i : Nat) (ns : Fin 10000), s.time.shaftClock sh = some i → (s.time.clock i).mode = 3 → (s.time.clock i).state = .locked →
    (s.aio.getSh sh).a = false → (s.aio.getSh sh).b = false → (s.time.clock i).held = none →
    (∀ e, (s.time.clock i).since = some e → 250 ≤ e + (ns.val : Int)) →
    ∃ t, Changes (.shaftCountEdge sh true false ns) s t [.aio, .time] [] ∧ (t.time.clock i).cnt = (s.time.clock i).cnt + 1 ∧
      (t.time.clock i).back = false ∧ (t.time.clock i).state = .locked ∧ (t.time.clock i).base = (s.time.clock i).base ∧
      t.aio.getSh sh = { s.aio.getSh sh with a := true, b := false, valid := true, count := (s.aio.getSh sh).count + 1#32 }) ∧
  (∀ (s : State) (sh : Fin 2) (i : Nat) (ns : Fin 10000) (e : Int), s.time.shaftClock sh = some i → (s.time.clock i).mode = 3 → (s.time.clock i).state = .locked →
    (s.aio.getSh sh).a = false → (s.aio.getSh sh).b = false → (s.time.clock i).since = some e → 0 ≤ e + (ns.val : Int) → e + (ns.val : Int) < 250 →
    ∃ t, Changes (.shaftCountEdge sh true false ns) s t [.aio, .time] [(.time, 8), (.time, 10)] ∧ t.raised .time 10 = true ∧ t.raised .time 8 = true ∧
      (t.time.clock i).cnt = (s.time.clock i).cnt + 1 ∧ (t.time.clock i).state = .overspeed) ∧
  (∀ (s : State) (sh : Fin 2), s.time.shaftClock sh = none → (s.aio.getSh sh).lineFault = false → Bits.bit (s.aio.getSh sh).cfg 31 = false →
    RunsTo (.shaftLineFault sh true) s { s with aio := s.aio.setSh sh { s.aio.getSh sh with lineFault := true } } [(.aio, 17)]) ∧
  (∀ (s : State) (sh : Fin 2) (i : Nat), s.time.shaftClock sh = some i → (s.time.clock i).locked = true → (s.aio.getSh sh).lineFault = false →
    Bits.bit (s.aio.getSh sh).cfg 31 = false →
    RunsTo (.shaftLineFault sh true) s { s with
      aio := s.aio.setSh sh { s.aio.getSh sh with lineFault := true }
      time := s.time.setClock i { s.time.clock i with state := .unreferenced, refErr := true, held := none } } [(.aio, 17), (.time, 8), (.time, 9)]) ∧
  (∀ (s : State) (sh : Fin 2), s.time.shaftClock sh = none →
    RunsTo (.quadErr sh) s { s with aio := s.aio.setSh sh { s.aio.getSh sh with
      quadErr := true, quadCnt := Bits.inc (s.aio.getSh sh).quadCnt } } [(.aio, 18)]) ∧
  (∀ (s : State) (sh : Fin 2), (s.aio.getSh sh).encSupply = false →
    RunsTo (.encSupplyFault sh true) s { s with aio := s.aio.setSh sh { s.aio.getSh sh with encSupply := true } } [(.aio, 19)])

/-- Angle-event slots and edge captures (06 R183-R186, R189, R191).
Readings of the model: logs 14 and 93. -/
def Obligations.AngleSlots : Prop :=
  (∀ (s : State) (n : Fin 256), (s.time.slot n).state = .armed → (s.time.clock (s.time.slot n).content.clock).locked = true →
    (s.time.slot n).content.rateOk (s.time.clock (s.time.slot n).content.clock).rateNow = true → s.twin.link = .severed →
    (s.time.slot n).passed (s.time.clock (s.time.slot n).content.clock).seen (s.time.clock (s.time.slot n).content.clock).pos = true →
    RunsTo (.slotFix n) s { s with time := s.time.setSlot n { s.time.slot n with
      state := .fixed, tang := s.nowNs / 10 * 10 + 10
      tangTurn := Bits.hi ((s.time.slot n).targetPos (s.time.clock (s.time.slot n).content.clock).seen) } } []) ∧
  (∀ (s : State) (n : Fin 256) (d : Nat), (s.time.slot n).state = .armed → (s.time.clock (s.time.slot n).content.clock).locked = true →
    (s.time.slot n).content.rateOk (s.time.clock (s.time.slot n).content.clock).rateNow = true → s.leads = true →
    (s.time.slot n).passed (s.time.clock (s.time.slot n).content.clock).seen (s.time.clock (s.time.slot n).content.clock).pos = false →
    predictNs ((s.time.slot n).targetPos (s.time.clock (s.time.slot n).content.clock).pos) (s.time.clock (s.time.slot n).content.clock).pos
      (s.time.clock (s.time.slot n).content.clock).rateNow = some d → d < 30000 →
    (s.time.slot n).content.admits (s.time.clock (s.time.slot n).content.clock).rateNow = true →
    ∃ t, Changes (.slotFix n) s t [.time, .twin] [] ∧ (t.time.slot n).state = .fixed ∧ (t.time.slot n).tang = (s.nowNs + d + 9) / 10 * 10 ∧
      (s.twin.linkUp = true → t.twin.sent = s.twin.sent ++ [.seq (.slot n ((s.nowNs + d + 9) / 10 * 10))])) ∧
  (∀ (s : State) (n : Fin 256), s.slotCounts (s.time.slot n) = true → s.slotDue (s.time.slot n) = none → RunsTo (.slotFix n) s s []) ∧
  (∀ (s : State) (n : Fin 256), (s.time.slot n).state = .armed → (s.time.clock (s.time.slot n).content.clock).locked = false →
    (s.time.slot n).content.every = false →
    (s.time.slot n).passed (s.time.clock (s.time.slot n).content.clock).seen ((s.time.clock (s.time.slot n).content.clock).posAt 10000) = true →
    RunsTo (.slotMissed n) s { s with time := { s.time.setSlot n { s.time.slot n with state := .missed, reason := 3 } with
      missCnt := Bits.inc s.time.missCnt } } [(.time, 11)]) ∧
  (∀ (s : State) (n : Fin 256), (s.time.slot n).state = .armed → (s.time.clock (s.time.slot n).content.clock).locked = true →
    (s.time.slot n).content.rateOk (s.time.clock (s.time.slot n).content.clock).rateNow = false → (s.time.slot n).content.every = true →
    (s.time.slot n).passed (s.time.clock (s.time.slot n).content.clock).seen ((s.time.clock (s.time.slot n).content.clock).posAt 10000) = true →
    RunsTo (.slotMissed n) s { s with time := { s.time.setSlot n { s.time.slot n with reason := 4 } with
      missCnt := Bits.inc s.time.missCnt } } []) ∧
  (∀ (s : State) (n : Fin 256), (s.time.slot n).state = .fixed → (s.time.slot n).tang < s.nowNs + 10000 → (s.time.slot n).heldNew = none →
    (s.time.slot n).content.action = 2 →
    Tbl.get none s.time.lastAct (s.time.slot n).content.target ≠ some ((s.time.slot n).tang, false) →
    RunsTo (.slotFire n) s { s with
      time := { s.time.setSlot n (s.time.slot n).fired with
        lastAct := Tbl.set none s.time.lastAct (s.time.slot n).content.target (some ((s.time.slot n).tang, false)) }
      dio := s.dio.slot s.tickNo s.time.sec.toNat (s.time.slot n).content.target false } []) ∧
  (∀ (s : State) (n : Fin 256), (s.time.slot n).state = .fixed → (s.time.slot n).tang < s.nowNs + 10000 → (s.time.slot n).heldNew = none →
    (s.time.slot n).content.action = 3 →
    (∀ b, Tbl.get none s.time.lastAct (s.time.slot n).content.target ≠ some ((s.time.slot n).tang, b)) →
    RunsTo (.slotFire n) s { s with
      time := { s.time.setSlot n (s.time.slot n).fired with
        lastAct := Tbl.set none s.time.lastAct (s.time.slot n).content.target (some ((s.time.slot n).tang, true)) }
      dio := s.dio.slot s.tickNo s.time.sec.toNat (s.time.slot n).content.target true } []) ∧
  (∀ (s : State) (n : Fin 256) (b : Bool), (s.time.slot n).state = .fixed → (s.time.slot n).tang < s.nowNs + 10000 → (s.time.slot n).heldNew = none →
    (s.time.slot n).content.action = 1 → Tbl.get none s.time.lastAct (s.time.slot n).content.target = some ((s.time.slot n).tang, b) →
    RunsTo (.slotFire n) s { s with time := s.time.setSlot n (s.time.slot n).fired } []) ∧
  (∀ (s : State) (n : Fin 256), s.nowNs + 10000 ≤ (s.time.slot n).tang → RunsTo (.slotFire n) s s []) ∧
  (∀ x : AngleSlot, x.fired.state = (if x.content.every then .armed else .fired) ∧ x.fired.fireNs = x.tang ∧ x.fired.fireTurn = x.tangTurn ∧
    x.fired.fireCount = min (x.fireCount + 1) 65535 ∧ (x.fired.pulsing = true ↔ x.content.action = 3)) ∧
  (∀ (s : State) (n : Fin 256), (s.time.slot n).pulsing = true → (s.time.slot n).fireNs + (s.time.slot n).content.pulse.toNat * 1000 < s.nowNs + 10000 →
    Tbl.get none s.time.lastAct (s.time.slot n).content.target ≠ some ((s.time.slot n).fireNs + (s.time.slot n).content.pulse.toNat * 1000, false) →
    RunsTo (.slotPulseEnd n) s { s with
      time := { s.time.setSlot n { s.time.slot n with pulsing := false } with
        lastAct := Tbl.set none s.time.lastAct (s.time.slot n).content.target
          (some ((s.time.slot n).fireNs + (s.time.slot n).content.pulse.toNat * 1000, false)) }
      dio := s.dio.slot s.tickNo s.time.sec.toNat (s.time.slot n).content.target false } []) ∧
  (∀ (s : State) (ch : CapCh) (r : Bool) (ns i n : Nat), s.capClock ch = some i → s.capTasks (capCode ch) = [n] →
    RunsTo (.inputEdgeCapture ch r ns) s { s with time := { s.time with
      accum := Tbl.mod {} s.time.accum (n * 256 + capCode ch) (fun c => c.add
        { ns := ns / 10 * 10, angle := Bits.lo ((s.time.clock i).posAt ((ns : Int) - s.nowNs)), turn := Bits.hi ((s.time.clock i).posAt ((ns : Int) - s.nowNs))
          rising := r, locked := (s.time.clock i).locked }) } } [])

/-- Ports, rings, services and precision time (07 R195, R198, R199, R200, R211-R216, R221, R223).
Readings of the model: logs 15, 16, 69, 94 and 102. -/
def Obligations.NetPorts : Prop :=
  (∀ (s : State) (p : Fin 4), (s.net.port p).link = true → pairOf p ≠ s.net.ptpPair →
    RunsTo (.portLinkDown p) s { s with net := s.net.setPort p { s.net.port p with
      link := false, downs := Bits.inc (s.net.port p).downs } } [(.net, 0)]) ∧
  (∀ (s : State) (p : Fin 4), (s.net.port p).link = true → pairOf p = s.net.ptpPair → s.net.reroute = false →
    RunsTo (.portLinkDown p) s { s with net := { s.net.setPort p { s.net.port p with
      link := false, downs := Bits.inc (s.net.port p).downs } with reroute := true, rerouted := true } } [(.net, 0), (.net, 2)]) ∧
  (∀ (s : State) (p : Fin 4), (s.net.port p).link = false →
    RunsTo (.portLinkUp p) s { s with net := s.net.setPort p { s.net.port p with link := true } } [(.net, 1)]) ∧
  (∀ (s : State) (f : RingFrame), s.gateOpen = true → s.net.pairMode (pairOf f.port) = 2 → s.net.isolated (pairOf f.port) = false →
    s.net.macOf f.port ≠ f.src → s.net.fwdSeen = [] → f.ptp = none → f.length ≤ s.net.longest (pairOf f.port) →
    RunsTo (.hsrForward f) s { s with net := {
      (s.net.modPort f.port (fun x => { x with fwd := Bits.inc x.fwd })).modPort (2 * pairOf f.port + (1 - f.port.val % 2))
        (fun x => { x with tx := x.tx + 1#64
                           busy := max x.busy (s.fitOn (2 * pairOf f.port + (1 - f.port.val % 2)) f.ns (wireNs f.length) + wireNs f.length) }) with
      fwdSeen := [(f.port.val, f.src, f.redSeq, f.ns)]
      sent := s.net.sent ++ [.forward (2 * pairOf f.port + (1 - f.port.val % 2))
        (s.fitOn (2 * pairOf f.port + (1 - f.port.val % 2)) f.ns (wireNs f.length)) f.src f.redSeq none] } } []) ∧
  (∀ (s : State) (f : RingFrame) (ns : Nat), (f.port.val, f.src, f.redSeq, ns) ∈ s.net.fwdSeen → f.ns < ns + 400000000 →
    RunsTo (.hsrForward f) s s []) ∧
  (∀ (s : State), s.gateOpen = true → s.net.redundant 0 = true → s.net.isolated 0 = false → s.net.redundant 1 = false →
    ∃ t, Changes .supervisionFrameSend s t [.net] [] ∧
      t.net.sent = s.net.sent ++ [.supervision [(0, s.fitOn 0 s.nowNs (wireNs 70)), (1, s.fitOn 1 s.nowNs (wireNs 70))] (some (Tbl.get 0#16 s.net.redSeq 0))] ∧
      t.net.redSeq = Tbl.set 0#16 s.net.redSeq 0 (Tbl.get 0#16 s.net.redSeq 0 + 1#16)) ∧
  (∀ (s : State), s.gateOpen = false → RunsTo .supervisionFrameSend s s []) ∧
  (∀ (s : State) (p : Fin 4) (n : Nat), s.gateOpen = true → s.svDown = false → s.net.isolated (pairOf p) = false → s.net.redundant (pairOf p) = false →
    Tbl.get 0#32 s.net.ips p ≠ 0#32 →
    RunsTo (.addressServiceRequest p (.arp (Tbl.get 0#32 s.net.ips p)) n) s { s with net := {
      s.net.modPort p (fun x => { x with tx := x.tx + 1#64, busy := max x.busy (s.fitOn p s.nowNs (wireNs (max 64 n)) + wireNs (max 64 n)) }) with
      sent := s.net.sent ++ [.answer [(p.val, s.fitOn p s.nowNs (wireNs (max 64 n)))] none (.arp (Tbl.get 0#32 s.net.ips p))] } } []) ∧
  (∀ (s : State) (p : Fin 4) (n : Nat), s.gateOpen = true → s.svDown = false → s.net.isolated (pairOf p) = false → s.net.redundant (pairOf p) = true →
    Tbl.get 0#32 s.net.ips (2 * pairOf p) ≠ 0#32 →
    ∃ t on, Changes (.addressServiceRequest p (.echo (Tbl.get 0#32 s.net.ips (2 * pairOf p))) n) s t [.net] [] ∧
      t.net.sent = s.net.sent ++ [.answer on (some (Tbl.get 0#16 s.net.redSeq (pairOf p))) (.echo (Tbl.get 0#32 s.net.ips (2 * pairOf p)))] ∧
      on.map Prod.fst = [2 * pairOf p, 2 * pairOf p + 1] ∧
      t.net.redSeq = Tbl.set 0#16 s.net.redSeq (pairOf p) (Tbl.get 0#16 s.net.redSeq (pairOf p) + 1#16)) ∧
  (∀ (s : State) (m b : Announce) (l : List Announce), m.domain = Bits.get s.net.ptpCfg 16 8 →
    l = ((s.net.mastersAt m.heard).filter (fun o => o.sender != m.sender)) ++ [m] → l.length ≤ 8 → bestMaster l = some b →
    ∃ t, Changes (.ptpAnnounce m) s t [.time, .net] [(.time, 14)] ∧ t.net = { s.net with masters := l } ∧
      t.time = { s.time with utcValid := b.utcValid, utcOffset := b.utcOffset, leap59 := b.leap59, leap61 := b.leap61 }) ∧
  (∀ (s : State) (p : Fin 4) (ns : Nat), s.gateOpen = true → s.leads = false → (s.net.port p).newest = none → s.net.frozen = false →
    RunsTo (.ptpDelayResponse p ns) s { s with net := s.net.setPort p { s.net.port p with newest := some ns, delay := ns } } []) ∧
  (∀ (s : State) (p : Fin 4) (ns : Nat), s.gateOpen = true → s.leads = true → s.twin.linkUp = true → (s.net.port p).newest = none → s.net.frozen = false →
    RunsTo (.ptpDelayResponse p ns) s { s with
      twin := s.twin.send (.seq (.delay p ns)), net := s.net.setPort p { s.net.port p with newest := some ns, delay := ns } } []) ∧
  (∀ (s : State) (conn n off len : Nat), s.gateOpen = true → s.mod.ready = true → s.svDown = false → Bits.bit s.net.pairCfg 15 = true →
    s.net.isolated (Bits.get s.net.pairCfg 14 1) = false → s.net.redundant (Bits.get s.net.pairCfg 14 1) = false → conn ∈ s.net.conns →
    (s.taskCfg n).configured = true → off + len ≤ (s.progTask n).size →
    ∃ t on, Changes (.modbusRequest conn .data 3 [.read n off len]) s t [.net] [] ∧
      t.net.sent = s.net.sent ++ [.modbus on none conn 3 (Tbl.getList 0#8 (s.task n).image off len)] ∧
      on.map Prod.fst = [2 * Bits.get s.net.pairCfg 14 1] ∧ t.net.conns = s.net.conns.filter (fun c => c != conn) ++ [conn]) ∧
  (∀ (s : State) (conn fn : Nat) (seg : TcpSeg) (ops : List ModbusOp), s.gateOpen = true → s.mod.ready = true → s.svDown = false →
    Bits.bit s.net.pairCfg 15 = true → s.net.isolated (Bits.get s.net.pairCfg 14 1) = false → s.net.redundant (Bits.get s.net.pairCfg 14 1) = false →
    conn ∉ s.net.conns → 8 ≤ s.net.conns.length →
    ∃ t on, Changes (.modbusRequest conn seg fn ops) s t [.net] [] ∧ t.net.sent = s.net.sent ++ [.reset on none conn] ∧ t.net.conns = s.net.conns)

/-- Stream contexts (07 R201-R209). -/
def Obligations.Streams : Prop :=
  (∀ (s : State) (n : Fin 1024) (t0 k l : Nat), s.taskSched (s.net.ctx n).task = some (t0, k) → s.mayLaunch (s.net.ctx n) = true →
    (s.net.ctx n).slotLaunch = false → k % (s.net.ctx n).every = 0 → s.gateOpen = true → (s.net.ctx n).budget = 0 → (s.net.ctx n).tsReq = false →
    l = t0 + (s.net.ctx n).offset * 10 → l < s.nowNs + 10000 → (s.net.ctx n).launched ≠ some t0 → s.brakeOn n = none →
    ∃ t on, Changes (.periodicLaunch n) s t [.net, .safe, .twin] [(.net, 4), (.net, 7), (.net, 9)] ∧ t.safe = s.safe ∧ on.map Prod.fst = (s.net.ctx n).ports ∧
      t.net.sent = s.net.sent ++ [.stream n on (if s.net.redundant (s.net.ctx n).pair then some (Tbl.get 0#16 s.net.redSeq (s.net.ctx n).pair) else none)
        (if (s.net.ctx n).encap = 2 then some 1 else none) ((s.net.ctx n).header (s.streamFlags (s.net.ctx n).task) l) (s.net.ctx n).payload] ∧
      t.net.ctx n = { s.net.ctx n with
        launched := some t0, seq := (s.net.ctx n).seq + 1#32, lastTime := l
        windowUse := (s.net.ctx n).useAt l + (s.net.ctx n).frameLen (s.net.redundant (s.net.ctx n).pair), winMs := l / 1000000
        lateCnt := if on.any (fun e => decide (l + 1000 < e.2)) then min ((s.net.ctx n).lateCnt + 1) 65535 else (s.net.ctx n).lateCnt } ∧
      (on.any (fun e => decide (l + 1000 < e.2)) = true → t.raised .net 9 = true) ∧
      t.net.redSeq = (if s.net.redundant (s.net.ctx n).pair then
        Tbl.set 0#16 s.net.redSeq (s.net.ctx n).pair (Tbl.get 0#16 s.net.redSeq (s.net.ctx n).pair + 1#16) else s.net.redSeq)) ∧
  (∀ (s : State) (n : Fin 1024) (t0 k : Nat), s.taskSched (s.net.ctx n).task = some (t0, k) →
    (s.nowNs + 10000 ≤ t0 + (s.net.ctx n).offset * 10 ∨ (s.net.ctx n).launched = some t0 ∨ k % (s.net.ctx n).every ≠ 0) →
    RunsTo (.periodicLaunch n) s s []) ∧
  (∀ (s : State) (n : Fin 1024) (t0 k l : Nat), s.taskSched (s.net.ctx n).task = some (t0, k) → s.mayLaunch (s.net.ctx n) = true →
    (s.net.ctx n).slotLaunch = false → k % (s.net.ctx n).every = 0 → s.gateOpen = true → l = t0 + (s.net.ctx n).offset * 10 →
    (s.net.ctx n).budget ≠ 0 → (s.net.ctx n).budget < (s.net.ctx n).useAt l + (s.net.ctx n).frameLen (s.net.redundant (s.net.ctx n).pair) →
    l < s.nowNs + 10000 → (s.net.ctx n).launched ≠ some t0 → s.brakeOn n = none →
    RunsTo (.periodicLaunch n) s { s with net := s.net.setCtx n { s.net.ctx n with
      launched := some t0, dropCnt := min ((s.net.ctx n).dropCnt + 1) 65535 } } [(.net, 4)]) ∧
  (∀ (s : State) (n : Fin 1024) (t0 k : Nat), s.taskSched (s.net.ctx n).task = some (t0, k) → s.mayLaunch (s.net.ctx n) = true →
    (s.net.ctx n).slotLaunch = false → k % (s.net.ctx n).every = 0 → s.gateOpen = false → t0 + (s.net.ctx n).offset * 10 < s.nowNs + 10000 →
    (s.net.ctx n).launched ≠ some t0 → s.net.due.length < 1024 →
    RunsTo (.periodicLaunch n) s { s with net := { s.net.setCtx n { s.net.ctx n with launched := some t0 } with
      due := s.net.due ++ [(n.val, t0 + (s.net.ctx n).offset * 10)] } } []) ∧
  (∀ (s : State), RunsTo .budgetWindow s { s with net := { s.net with
    ctxs := Tbl.map {} (fun c => if c.winMs < s.nowNs / 1000000 then { c with windowUse := 0, winMs := s.nowNs / 1000000 } else c) s.net.ctxs } } []) ∧
  (∀ (s : State) (n : Fin 1024), (s.net.ctx n).receive = true → (s.net.ctx n).lastTime + 60000000000 ≤ s.nowNs →
    RunsTo (.srcMacForget n) s { s with net := s.net.setCtx n { s.net.ctx n with srcMac := 0, anySeq := true } } []) ∧
  (∀ (s : State) (n : Fin 1024), (s.net.ctx n).receive = true → (s.net.ctx n).lastTime + 400000000 ≤ s.nowNs →
    RunsTo (.ddWindowClear n) s { s with net := s.net.setCtx n { s.net.ctx n with ddOpen := false, ddMask := 0#32 } } []) ∧
  (∀ (s : State) (f : RxFrame), s.net.longest (pairOf f.port) < f.length → RunsTo (.streamFrameRx f) s s []) ∧
  (∀ (s : State) (f : RxFrame), s.net.isolated (pairOf f.port) = false → f.length ≤ s.net.longest (pairOf f.port) → f.fcsOk = false →
    RunsTo (.streamFrameRx f) s { s with net := s.net.setPort f.port { s.net.port f.port with
      rx := (s.net.port f.port).rx + 1#64, err := Bits.inc (s.net.port f.port).err } } []) ∧
  (∀ (s : State) (f : RxFrame) (n : Nat) (c : StreamCtx), s.net.isolated (pairOf f.port) = false → f.length ≤ s.net.longest (pairOf f.port) → f.fcsOk = true → s.gateOpen = true →
    f.kind ≠ .supervision → s.net.ctxs.find? (fun e => e.2.matchesRx f) = some (n, c) → (s.net.ctx n).srcMac = f.src → f.src ≠ 0 →
    (s.net.ctx n).judge (s.net.redundant (s.net.ctx n).pair) f = .accept →
    RunsTo (.streamFrameRx f) s { s with net := ((s.net.setPort f.port { s.net.port f.port with rx := (s.net.port f.port).rx + 1#64 }).setCtx n
        ((s.net.ctx n).take (s.net.redundant (s.net.ctx n).pair) f)) } []) ∧
  (∀ (s : State) (f : RxFrame) (n : Nat) (c : StreamCtx), s.net.isolated (pairOf f.port) = false → f.length ≤ s.net.longest (pairOf f.port) → f.fcsOk = true → s.gateOpen = true →
    f.kind ≠ .supervision → s.net.ctxs.find? (fun e => e.2.matchesRx f) = some (n, c) → (s.net.ctx n).srcMac ≠ 0 → (s.net.ctx n).srcMac ≠ f.src →
    RunsTo (.streamFrameRx f) s { s with net := ((s.net.setPort f.port { s.net.port f.port with rx := (s.net.port f.port).rx + 1#64 }).setCtx n
        { s.net.ctx n with dropCnt := min ((s.net.ctx n).dropCnt + 1) 65535 }) } [(.net, 6)])

/-- The protections of a stage (08 R239, R242, R243, *Channel diagnostics*): each clause gives the channel's new value and says
that nothing else changes but what the report moves.
Readings of the model: log 49. -/
def Obligations.DioStageProtection : Prop :=
  (∀ (s : State) (ch : Fin 96), (s.dio.getCh ch).drives → (s.dio.cellOf ch).supply.good →
    DioDiag.overload ∉ (s.dio.getCh ch).active →
    RunsTo (.overload ch) s { s with dio := s.dio.setCh ch { s.dio.getCh ch with
      ovlOpen := true, pulse := none, active := .overload :: (s.dio.getCh ch).active, lastDiag := some .overload } } [(.dio, 0)]) ∧
  (∀ (s : State) (ch : Fin 96), (s.dio.getCh ch).isOutput → DioDiag.overtemp ∉ (s.dio.getCh ch).active →
    RunsTo (.overtemp ch true) s { s with dio := s.dio.setCh ch { s.dio.getCh ch with
      tempOpen := true, pulse := none, active := .overtemp :: (s.dio.getCh ch).active, lastDiag := some .overtemp } } [(.dio, 2)]) ∧
  (∀ (s : State) (ch : Fin 96), (s.dio.getCh ch).isOutput →
    RunsTo (.overtemp ch false) s { s with dio := s.dio.setCh ch { s.dio.getCh ch with
      tempOpen := false, active := (s.dio.getCh ch).active.filter (· != .overtemp) } } []) ∧
  (∀ (s : State) (ch : Fin 96), (s.dio.getCh ch).isOutput → (s.dio.cellOf ch).supply.good →
    (s.dio.getCh ch).drives ∨ (s.dio.getCh ch).openOffEn → DioDiag.openWire ∉ (s.dio.getCh ch).active →
    RunsTo (.openWire ch true) s { s with dio := s.dio.setCh ch { s.dio.getCh ch with
      active := .openWire :: (s.dio.getCh ch).active, lastDiag := some .openWire } } [(.dio, 3)]) ∧
  (∀ (s : State) (ch : Fin 96), (s.dio.getCh ch).drives → s.partnerEngaged → (s.dio.cellOf ch).supply.live →
    DioDiag.shareLow ∉ (s.dio.getCh ch).active →
    RunsTo (.shareLow ch true) s { s with dio := s.dio.setCh ch { s.dio.getCh ch with
      active := .shareLow :: (s.dio.getCh ch).active, lastDiag := some .shareLow } } [(.dio, 7)]) ∧
  (∀ (s : State) (ch : Fin 96), (s.dio.getCh ch).isOutput → (s.dio.getCh ch).engaged → (s.dio.getCh ch).drives = false →
    (s.dio.cellOf ch).supply.live → DioDiag.stuckOn ∉ (s.dio.getCh ch).active →
    RunsTo (.stuckOn ch) s { s with dio := s.dio.setCh ch { s.dio.getCh ch with
      isolated := true, pulse := none, active := .stuckOn :: (s.dio.getCh ch).active, lastDiag := some .stuckOn } } [(.dio, 5)])

/-- Retries, shorts, crosses and the cell's overload (08 R239, R242, R244, R245).
Readings of the model: log 49. -/
def Obligations.DioCellFaults : Prop :=
  (∀ (s : State) (ch : Fin 96), (s.dio.getCh ch).ovlOpen → (s.dio.getCh ch).exhausted = false → (s.dio.getCh ch).force →
    (s.dio.getCh ch).engaged → (s.dio.cellOf ch).supply.good →
    ∃ t, Changes (.overloadRetry ch true) s t [.dio] [] ∧
      t.dio.getCh ch = { s.dio.getCh ch with retry := (s.dio.getCh ch).retry + 1, exhausted := decide (10 ≤ (s.dio.getCh ch).retry + 1), offSeen := false } ∧
      ∀ i, i ≠ ch.val → t.dio.getCh i = s.dio.getCh i) ∧
  (∀ (s : State) (ch : Fin 96), (s.dio.getCh ch).ovlOpen → (s.dio.getCh ch).exhausted = false → (s.dio.getCh ch).force →
    (s.dio.getCh ch).engaged → (s.dio.cellOf ch).supply.good →
    ∃ t, Changes (.overloadRetry ch false) s t [.dio] [] ∧
      t.dio.getCh ch = { s.dio.getCh ch with retry := 0, ovlOpen := false, active := (s.dio.getCh ch).active.filter (fun x => x != .cellOverload && x != .overload) } ∧
      ∀ i, i ≠ ch.val → t.dio.getCh i = s.dio.getCh i) ∧
  (∀ (s : State) (ch : Fin 96), (s.dio.getCh ch).isOutput → (s.dio.getCh ch).drives = false → (s.dio.cellOf ch).supply.live →
    s.dio.crossOn ch = false → DioDiag.shortSupply ∉ (s.dio.getCh ch).active →
    RunsTo (.shortSupply ch true false false) s { s with dio := s.dio.setCh ch { s.dio.getCh ch with
      active := .shortSupply :: (s.dio.getCh ch).active, lastDiag := some .shortSupply } } [(.dio, 4)]) ∧
  (∀ (s : State) (i j : Fin 96), i ≠ j → (s.dio.getCh i).isOutput → (s.dio.getCh j).isOutput → (s.dio.cellOf i).supply.live →
    (s.dio.cellOf j).supply.live → ((s.dio.getCh i).drives = false ∧ (s.dio.getCh j).drives = true) ∨ (s.dio.getCh j).pulse = some .dark →
    ∃ t, Changes (.cross i j) s t [.dio] [(.dio, 6)] ∧ (t.dio.getCh i).partner = j ∧ (t.dio.getCh j).partner = i ∧
      DioDiag.cross ∈ (t.dio.getCh i).active ∧ DioDiag.cross ∈ (t.dio.getCh j).active ∧
      (∀ n, n ≠ i.val → n ≠ j.val → t.dio.getCh n = s.dio.getCh n) ∧ t.dio.cell = s.dio.cell) ∧
  (∀ (s : State) (c : Fin 6) (l : List Nat), 4400 < l.foldl (· + ·) 0 → (s.dio.getCell c).supply.live →
    ∃ t, Changes (.cellOverload c l) s t [.dio] [(.dio, 1)] ∧ (t.dio.getCell c).overload = true ∧
      (∀ i, i ≠ c.val → t.dio.getCell i = s.dio.getCell i) ∧
      ∀ n, if n ∈ cellOverloadOpens ((((l.take 16).zipIdx.map (fun e => (16 * c.val + e.2, e.1))).filter (fun e => (s.dio.getCh e.1).drives)).reverse)
          (l.foldl (· + ·) 0)
        then (t.dio.getCh n).ovlOpen = true ∧ (t.dio.getCh n).pulse = none ∧ DioDiag.cellOverload ∈ (t.dio.getCh n).active
        else t.dio.getCh n = s.dio.getCh n)

/-- Inputs and test pulses (08 R232-R234, R246-R249).
Readings of the model: log 49. -/
def Obligations.DioInputsAndPulses : Prop :=
  (∀ (s : State) (ch : Fin 96) (v : Bool), (s.dio.getCh ch).isInput →
    RunsTo (.dioInputChange ch v) s { s with dio := s.dio.setCh ch { s.dio.getCh ch with value := v } } []) ∧
  (∀ (s : State) (ch : Fin 96) (b : WbBand), (s.dio.getCh ch).isWb → (s.dio.getCh ch).band ≠ some b →
    ∃ t, Changes (.wireBreakBandChange ch b) s t [.dio] [(.dio, 9), (.dio, 10)] ∧ (t.dio.getCh ch).band = some b ∧
      (t.dio.getCh ch).value = (match b with | .openContact => false | .closedContact => true | _ => (s.dio.getCh ch).value) ∧
      (DioDiag.wireBreak ∈ (t.dio.getCh ch).active ↔ b = .wireBreak) ∧ (DioDiag.inputShort ∈ (t.dio.getCh ch).active ↔ b = .short) ∧
      (∀ i, i ≠ ch.val → t.dio.getCh i = s.dio.getCh i) ∧ t.dio.cell = s.dio.cell) ∧
  (∀ (s : State) (ch : Fin 96) (k : PulseKind), s.time.ns.toNat = 2000000 + ch * 1250000 → (s.dio.getCh ch).testInterval ≠ 0 →
    s.time.sec.toNat % (s.dio.getCh ch).testInterval = ch % (s.dio.getCh ch).testInterval → s.dio.pulseKind ch = some k →
    RunsTo (.testPulseStart ch false) s { s with dio := s.dio.setCh ch { s.dio.getCh ch with pulse := some k, pulseTick := s.tickNo, again := none } } []) ∧
  (∀ (s : State) (ch : Fin 96) (k : PulseKind), s.time.ns.toNat = 2000000 + ch * 1250000 → (s.dio.getCh ch).testInterval ≠ 0 →
    s.time.sec.toNat % (s.dio.getCh ch).testInterval = ch % (s.dio.getCh ch).testInterval → s.dio.pulseKind ch = some k →
    RunsTo (.testPulseStart ch true) s { s with
      dio := (s.dio.setCh ch { s.dio.getCh ch with again := some (s.time.sec.toNat + 1) }).setCell (ch / 16) { s.dio.cellOf ch with
        preempted := Bits.sat 16 (s.dio.cellOf ch).preempted 1 } } []) ∧
  (∀ (s : State) (ch : Fin 96) (m : PulseMeas), (s.dio.getCh ch).pulse = some .bright → (s.dio.getCh ch).pulseTick + (s.dio.getCh ch).pulseTicks .bright ≤ s.tickNo → brightOk m s.solo →
    RunsTo (.testPulseEnd ch m) s { s with dio := s.dio.setCh ch { s.dio.getCh ch with
      pulse := none, active := (s.dio.getCh ch).active.filter (· != .pulseFail) } } []) ∧
  (∀ (s : State) (ch : Fin 96) (m : PulseMeas), (s.dio.getCh ch).pulse = some .bright → (s.dio.getCh ch).pulseTick + (s.dio.getCh ch).pulseTicks .bright ≤ s.tickNo → brightOk m s.solo = false →
    DioDiag.pulseFail ∉ (s.dio.getCh ch).active →
    RunsTo (.testPulseEnd ch m) s { s with
      dio := (s.dio.setCh ch { s.dio.getCh ch with
        pulse := none, active := .pulseFail :: (s.dio.getCh ch).active, lastDiag := some .pulseFail }).setCell (ch / 16) { s.dio.cellOf ch with
        failed := Bits.sat 16 (s.dio.cellOf ch).failed 1 } } [(.dio, 8)]) ∧
  (∀ (s : State) (ch : Fin 96) (m : PulseMeas), (s.dio.getCh ch).pulse = some .dark → (s.dio.getCh ch).pulseTick + (s.dio.getCh ch).pulseTicks .dark ≤ s.tickNo → m.outward = false → m.cross = none →
    m.lowSince = false → m.fell →
    RunsTo (.testPulseEnd ch m) s { s with dio := s.dio.setCh ch { s.dio.getCh ch with
      pulse := none, active := (s.dio.getCh ch).active.filter (· != .shortSupply) } } []) ∧
  (∀ (s : State) (ch : Fin 96) (m : PulseMeas) (k : PulseKind), (s.dio.getCh ch).pulse = some k →
    s.tickNo < (s.dio.getCh ch).pulseTick + (s.dio.getCh ch).pulseTicks k → RunsTo (.testPulseEnd ch m) s s [])

/-- The supplies of the field cells and of the loop cells (08 R250-R252, 09 R261).
Readings of the model: log 49. -/
def Obligations.CellSupplies : Prop :=
  (∀ (s : State) (c : Fin 6), (s.dio.getCell c).supply = .normal →
    RunsTo (.cellUv1 c) s { s with dio := s.dio.setCell c { s.dio.getCell c with supply := .warn } } [(.dio, 11)]) ∧
  (∀ (s : State) (c : Fin 6), (s.dio.getCell c).supply = .warn →
    RunsTo (.cellWarnClear c) s { s with dio := s.dio.setCell c { s.dio.getCell c with supply := .normal } } []) ∧
  (∀ (s : State) (c : Fin 6), (s.dio.getCell c).supply.good →
    ∃ t, Changes (.cellSag c) s t [.dio] [(.dio, 12)] ∧ t.raised .dio 12 ∧ t.dio.getCell c = { s.dio.getCell c with supply := .sag } ∧
      (∀ n : Nat, n / 16 = c.val → DioDiag.undervoltage ∈ (t.dio.getCh n).active ∧ (t.dio.getCh n).pulse = none ∧ (t.dio.getCh n).force = (s.dio.getCh n).force) ∧
      ∀ n : Nat, n / 16 ≠ c.val → t.dio.getCh n = s.dio.getCh n) ∧
  (∀ (s : State) (c : Fin 6), (s.dio.getCell c).supply = .sag →
    ∃ t, Changes (.cellSagExit c) s t [.dio] [] ∧ t.dio.getCell c = { s.dio.getCell c with supply := .warn } ∧
      (∀ n : Nat, n / 16 = c.val → DioDiag.undervoltage ∉ (t.dio.getCh n).active ∧ (t.dio.getCh n).force = (s.dio.getCh n).force ∧
        ((s.dio.getCh n).deferred → (s.dio.getCh n).restore = .none → (t.dio.getCh n).restore = .resume)) ∧
      ∀ n : Nat, n / 16 ≠ c.val → t.dio.getCh n = s.dio.getCh n) ∧
  (∀ (s : State) (c : Fin 6), (s.dio.getCell c).supply.live →
    ∃ t, Changes (.cellSupplyLost c) s t [.dio] [(.dio, 13)] ∧ t.raised .dio 13 ∧
      t.dio.getCell c = { s.dio.getCell c with supply := .lost, supplyLost := true } ∧
      (∀ n : Nat, n / 16 = c.val → DioDiag.supplyLost ∈ (t.dio.getCh n).active ∧ (t.dio.getCh n).force = false ∧ (t.dio.getCh n).deferred = false) ∧
      ∀ n : Nat, n / 16 ≠ c.val → t.dio.getCh n = s.dio.getCh n) ∧
  (∀ (s : State) (c : Fin 6) (mv : Nat), (s.dio.getCell c).supply = .lost → 18000 ≤ mv →
    RunsTo (.cellSupplyReturn c mv) s { s with dio := s.dio.setCell c { s.dio.getCell c with supply := .recovering, recovTick := s.tickNo } } []) ∧
  (∀ (s : State) (c : Fin 6) (mv : Nat), (s.dio.getCell c).supply = .recovering → mv < 18000 →
    RunsTo (.cellSupplyReturn c mv) s { s with dio := s.dio.setCell c { s.dio.getCell c with supply := .lost } } []) ∧
  (∀ (s : State) (c : Fin 6) (mv : Nat), (s.dio.getCell c).supply = .recovering → 18000 ≤ mv → (s.dio.getCell c).recovTick + 1000 ≤ s.tickNo →
    ∃ t, Changes (.cellRecovered c mv) s t [.dio] [(.dio, 11), (.dio, 14)] ∧ t.raised .dio 14 ∧ (mv < 19200 → t.raised .dio 11) ∧
      t.dio.getCell c = { s.dio.getCell c with supply := if mv < 19200 then .warn else .normal } ∧
      (∀ n : Nat, n / 16 = c.val → DioDiag.supplyLost ∉ (t.dio.getCh n).active ∧
        ((s.dio.getCh n).isOutput → (t.dio.getCh n).restore = if (s.dio.getCh n).staysOff then .stayOff else .resume)) ∧
      ∀ n : Nat, n / 16 ≠ c.val → t.dio.getCh n = s.dio.getCh n) ∧
  (∀ (s : State) (c : Fin 2), (s.aio.getCell c).supply = .normal →
    RunsTo (.loopSupplyLow c) s { s with aio := s.aio.setCell c { s.aio.getCell c with supply := .low } } [(.aio, 11)]) ∧
  (∀ (s : State) (c : Fin 2), (s.aio.getCell c).supply = .low →
    RunsTo (.loopSupplyNormal c) s { s with aio := s.aio.setCell c { s.aio.getCell c with supply := .normal } } []) ∧
  (∀ (s : State) (c : Fin 2), (s.aio.getCell c).supply ≠ .lost → s.aio.window = false →
    ∃ t, Changes (.loopSupplyLost c) s t [.aio] [(.aio, 12)] ∧ t.raised .aio 12 ∧ t.aio.getCell c = { s.aio.getCell c with supply := .lost } ∧
      (∀ n : Nat, n / 16 = c.val → ((s.aio.getCh n).isOutput → (t.aio.getCh n).share = .released ∧ (t.aio.getCh n).target = 0 ∧ AioDiag.loopSupply ∈ (t.aio.getCh n).active) ∧
        ((s.aio.getCh n).isLoop → (t.aio.getCh n).feedOpen = true ∧ AioDiag.loopSupply ∈ (t.aio.getCh n).active)) ∧
      ∀ n : Nat, n / 16 ≠ c.val → t.aio.getCh n = s.aio.getCh n) ∧
  (∀ (s : State) (c : Fin 2) (mv : Nat), (s.aio.getCell c).supply = .lost → 18000 ≤ mv →
    ∃ t, Changes (.loopSupplyBack c mv) s t [.aio] [(.aio, 13)] ∧ t.raised .aio 13 ∧
      t.aio.getCell c = { s.aio.getCell c with supply := if 22000 ≤ mv then .normal else .low } ∧
      (∀ n : Nat, n / 16 = c.val → AioDiag.loopSupply ∉ (t.aio.getCh n).active ∧
        ((s.aio.getCh n).isOutput → (t.aio.getCh n).rampAtT0 = ((s.aio.getCh n).engaged && !(s.aio.getCell c).fault))) ∧
      ∀ n : Nat, n / 16 ≠ c.val → t.aio.getCh n = s.aio.getCh n)

/-- The crossings of the field cells and the loop cells (08 R226-R228, 09 R258, R259): frames and the watchdogs.
Readings of the model: log 7. -/
def Obligations.Crossings : Prop :=
  (∀ (s : State) (c : Fin 6) (seq : Nat), (s.dio.getCell c).seqDown < seq → (s.dio.getCell c).safe = false →
    RunsTo (.cellFrame (.field c) true seq .down) s { s with dio := s.dio.setCell c { s.dio.getCell c with
      seqDown := seq, safe := false, engage := s.sharedEngaged, partnerEng := s.partnerEngaged, sense := s.holdsToken } } []) ∧
  (∀ (s : State) (c : Fin 6) (seq : Nat) (f : CrossFrame),
    RunsTo (.cellFrame (.field c) false seq f) s { s with dio := s.dio.setCell c { s.dio.getCell c with
      crcCnt := Bits.inc (s.dio.getCell c).crcCnt } } [(.dio, 16)]) ∧
  (∀ (s : State) (c : Fin 2) (seq : Nat) (u : UpFrame), (s.aio.getCell c).seqUp < seq →
    RunsTo (.cellFrame (.loop c) true seq (.up u)) s { s with aio := s.aio.setCell c { s.aio.getCell c with
      seqUp := seq, laplus := u.supplyMv % 65536, current := u.currentMa % 65536 } } []) ∧
  (∀ (s : State) (c : Fin 2) (seq : Nat) (f : CrossFrame),
    RunsTo (.cellFrame (.loop c) false seq f) s { s with aio := s.aio.setCell c { s.aio.getCell c with
      crcCnt := Bits.inc (s.aio.getCell c).crcCnt } } [(.aio, 15)]) ∧
  (∀ (s : State) (c : Fin 6), (s.dio.getCell c).safe = false →
    ∃ t, Changes (.crossingWatchdog c) s t [.dio] [(.dio, 15)] ∧ t.raised .dio 15 ∧ t.dio.getCell c = { s.dio.getCell c with safe := true } ∧
      (∀ n : Nat, n / 16 = c.val → DioDiag.crossing ∈ (t.dio.getCh n).active ∧ (t.dio.getCh n).pulse = none ∧
        ((s.dio.getCell c).engage → (s.dio.getCh n).engaged → (t.dio.getCh n).force =
          if (s.dio.getCell c).partnerEng || !(s.dio.getCell c).supply.live then false
          else if (s.dio.getCh n).safeCode = 1 then true
          else if (s.dio.getCh n).safeCode = 2 then (s.dio.getCh n).force else false) ∧
        ((s.dio.getCell c).engage = false → (t.dio.getCh n).force = (s.dio.getCh n).force)) ∧
      ∀ n : Nat, n / 16 ≠ c.val → t.dio.getCh n = s.dio.getCh n) ∧
  (∀ (s : State) (c : Fin 2), (s.aio.getCell c).safe = false →
    ∃ t, Changes (.loopCrossingWatchdog c) s t [.aio] [(.aio, 14)] ∧ t.raised .aio 14 ∧ t.aio.getCell c = { s.aio.getCell c with safe := true } ∧
      (∀ n : Nat, n / 16 = c.val → AioDiag.crossing ∈ (t.aio.getCh n).active ∧
        ((s.aio.getCh n).isOutput → (s.aio.getCell c).partnerEng → (t.aio.getCh n).share = .released ∧ (t.aio.getCh n).target = 0)) ∧
      ∀ n : Nat, n / 16 ≠ c.val → t.aio.getCh n = s.aio.getCh n) ∧
  (∀ (s : State) (c : Fin 2),
    ∃ t, Changes (.loopCellFault c) s t [.aio] [(.aio, 14)] ∧ t.raised .aio 14 ∧ t.aio.getCell c = { s.aio.getCell c with fault := true } ∧
      (∀ n : Nat, n / 16 = c.val → (t.aio.getCh n).share = .released ∧ (t.aio.getCh n).target = 0 ∧ AioDiag.crossing ∈ (t.aio.getCh n).active) ∧
      ∀ n : Nat, n / 16 ≠ c.val → t.aio.getCh n = s.aio.getCh n)

/-- The shared source of an analogue output (09 R267-R274).
Readings of the model: log 50. -/
def Obligations.AioSources : Prop :=
  (∀ (s : State) (ch : Fin 32) (e : Int), (s.aio.getCh ch).share = .half → (s.aio.getCh ch).inCompl = false → (s.aio.getCh ch).cal = false →
    (s.aio.cellOf ch).safe = false → RunsTo (.trimUpdate ch e false) s { s with aio := s.aio.setCh ch { s.aio.getCh ch with
      trim := max (-50000) (min 50000 ((s.aio.getCh ch).trim + e / 2))
      target := ((s.aio.getCh ch).cmd : Int) / 2 + max (-50000) (min 50000 ((s.aio.getCh ch).trim + e / 2)) } } []) ∧
  (∀ (s : State) (ch : Fin 32) (l : List (Int × Int)) (iT iOwn : Int) (b : Bool), (s.aio.getCh ch).engaged → (s.aio.getCh ch).share = .half ∨ (s.aio.getCh ch).share = .full →
    (s.aio.getCh ch).inCompl = false → (s.aio.getCh ch).cal = false → (s.aio.cellOf ch).safe = false → l.getLast? = some (iT, iOwn) →
    (s.aio.getCh ch).pe ≠ s.partnerEngaged →
    RunsTo (.makeupEnter ch l b false) s { s with aio := s.aio.setCh ch { s.aio.getCh ch with
      pe := s.partnerEngaged, share := .makeup, trim := 0, iP := iT - iOwn, target := max 0 (min ((s.aio.getCh ch).cmd - (iT - iOwn)) 24500000) } } [(.aio, 7)]) ∧
  (∀ (s : State) (ch : Fin 32) (x y z : Int × Int), (s.aio.getCh ch).engaged → (s.aio.getCh ch).share = .half ∨ (s.aio.getCh ch).share = .full →
    (s.aio.getCh ch).inCompl = false → (s.aio.getCh ch).cal = false → (s.aio.cellOf ch).safe = false → (s.aio.getCh ch).ramp = .none →
    (∀ e ∈ [x, y, z], (s.aio.getCh ch).deviates e.1 e.2 = true) →
    RunsTo (.makeupEnter ch [x, y, z] false false) s { s with aio := s.aio.setCh ch { s.aio.getCh ch with
      pe := s.partnerEngaged, share := .makeup, trim := 0, iP := z.1 - z.2, target := max 0 (min ((s.aio.getCh ch).cmd - (z.1 - z.2)) 24500000) } } [(.aio, 7)]) ∧
  (∀ (s : State) (ch : Fin 32) (i : Int), (s.aio.getCh ch).share = .makeup → (s.aio.getCh ch).cal = false → (s.aio.cellOf ch).safe = false → s.partnerEngaged = false → i < 120000 →
    RunsTo (.makeupExit ch i) s { s with aio := s.aio.setCh ch { s.aio.getCh ch with
      share := .full, trim := 0, iP := i, target := (s.aio.getCh ch).cmd } } []) ∧
  (∀ (s : State) (ch : Fin 32) (i : Int), (s.aio.getCh ch).share = .makeup → (s.aio.getCh ch).cal = false → (s.aio.cellOf ch).safe = false → s.partnerEngaged →
    (i - ((s.aio.getCh ch).cmd : Int) / 2).natAbs ≤ 120000 →
    RunsTo (.makeupExit ch i) s { s with aio := s.aio.setCh ch { s.aio.getCh ch with
      share := .half, trim := 0, iP := i, target := ((s.aio.getCh ch).cmd : Int) / 2 } } []) ∧
  (∀ (s : State) (ch : Fin 32), (s.aio.getCh ch).ramp = .release →
    RunsTo (.sourceRampEnd ch) s { s with aio := s.aio.setCh ch { s.aio.getCh ch with
      share := .released, ramp := .none, trim := 0, target := 0, own := 0, rampAtT0 := false } } []) ∧
  (∀ (s : State) (ch : Fin 32) (i : Int), (s.aio.getCh ch).isOutput → (s.aio.getCh ch).share ≠ .released → (s.aio.getCh ch).inCompl = false →
    120000 < (i - (s.aio.getCh ch).target).natAbs → AioDiag.sourceFault ∉ (s.aio.getCh ch).active →
    RunsTo (.sourceFault ch i) s { s with aio := s.aio.setCh ch { s.aio.getCh ch with
      share := .released, ramp := .none, trim := 0, target := 0, own := 0, rampAtT0 := false, srcFault := true
      active := .sourceFault :: (s.aio.getCh ch).active, lastDiag := some .sourceFault } } [(.aio, 6)]) ∧
  (∀ (s : State) (ch : Fin 32), (s.aio.getCh ch).isOutput → (s.aio.getCh ch).share ≠ .released → AioDiag.openLoop ∉ (s.aio.getCh ch).active →
    AioDiag.compliance ∉ (s.aio.getCh ch).active →
    RunsTo (.compliance ch true) s { s with aio := s.aio.setCh ch { s.aio.getCh ch with
      inCompl := true, active := .compliance :: (s.aio.getCh ch).active, lastDiag := some .compliance } } [(.aio, 5)]) ∧
  (∀ (s : State) (ch : Fin 32), (s.aio.getCh ch).isOutput → (s.aio.getCh ch).share ≠ .released → 1000000 ≤ (s.aio.getCh ch).cmd →
    AioDiag.openLoop ∉ (s.aio.getCh ch).active →
    RunsTo (.openLoop ch true) s { s with aio := s.aio.setCh ch { s.aio.getCh ch with
      active := .openLoop :: (s.aio.getCh ch).active.filter (· != .compliance), lastDiag := some .openLoop } } [(.aio, 4)]) ∧
  (∀ (s : State) (ch : Fin 32), (s.aio.getCh ch).mode ≠ 0 → AioDiag.readbackDiff ∉ (s.aio.getCh ch).active →
    RunsTo (.readbackDiff ch true) s { s with aio := s.aio.setCh ch { s.aio.getCh ch with
      active := .readbackDiff :: (s.aio.getCh ch).active, lastDiag := some .readbackDiff } } [(.aio, 8)])

/-- Conversions, bands, the loop feed and the grid-sense inputs (09 R263-R265, R283).
Readings of the model: logs 50 and 51. -/
def Obligations.AioInputs : Prop :=
  (∀ (s : State) (ch : Fin 32) (na : Int), (s.aio.getCh ch).cal = false → Bits.get (s.aio.getCh ch).cfg 16 8 ≠ 0 →
    ∃ t, Changes (.aioConversionDone [(ch, na)]) s t [.aio] [] ∧ (t.aio.getCh ch).raw = na ∧ (t.aio.getCh ch).fresh = true ∧
      (t.aio.getCh ch).share = (s.aio.getCh ch).share ∧ (t.aio.getCh ch).target = (s.aio.getCh ch).target ∧
      (∀ i, i ≠ ch.val → t.aio.getCh i = s.aio.getCh i) ∧ t.aio.cell = s.aio.cell) ∧
  (∀ (s : State) (ch : Fin 32) (na : Int) (x : AioDiag), (s.aio.getCh ch).isInput → aioBandOf (s.aio.getCh ch).ne43 na ≠ (s.aio.getCh ch).band →
    (aioBandOf (s.aio.getCh ch).ne43 na).diag = some x →
    ((s.aio.getCh ch).feedOpen = false ∨ (s.aio.getCh ch).band ≠ .overCurrent) →
    ∃ t, Changes (.aioBandChange ch na false) s t [.aio] [(.aio, x.bit)] ∧ (t.aio.getCh ch).band = aioBandOf (s.aio.getCh ch).ne43 na ∧
      x ∈ (t.aio.getCh ch).active ∧ (t.aio.getCh ch).feedOpen = (s.aio.getCh ch).feedOpen ∧ ∀ i, i ≠ ch.val → t.aio.getCh i = s.aio.getCh i) ∧
  (∀ (s : State) (ch : Fin 32) (na : Int) (x : AioDiag), (s.aio.getCh ch).cal = false → Bits.get (s.aio.getCh ch).cfg 16 8 = 0 → (s.aio.getCh ch).isInput →
    (s.aio.getCh ch).band ≠ .overCurrent → aioBandOf (s.aio.getCh ch).ne43 na ≠ (s.aio.getCh ch).band → (aioBandOf (s.aio.getCh ch).ne43 na).diag = some x →
    ∃ t, Changes (.aioConversionDone [(ch, na)]) s t [.aio] [(.aio, x.bit)] ∧ (t.aio.getCh ch).raw = na ∧ (t.aio.getCh ch).fresh = true ∧
      (t.aio.getCh ch).band = aioBandOf (s.aio.getCh ch).ne43 na ∧ x ∈ (t.aio.getCh ch).active ∧ ∀ i, i ≠ ch.val → t.aio.getCh i = s.aio.getCh i) ∧
  (∀ (s : State) (ch : Fin 32) (na : Int), (s.aio.getCh ch).isLoop → (s.aio.getCh ch).band ≠ .overCurrent → 25000000 < na →
    ∃ t, Changes (.aioBandChange ch na true) s t [.aio] [(.aio, 3)] ∧ (t.aio.getCh ch).band = .overCurrent ∧
      AioDiag.overCurrent ∈ (t.aio.getCh ch).active ∧ (t.aio.getCh ch).feedOpen = true ∧ ∀ i, i ≠ ch.val → t.aio.getCh i = s.aio.getCh i) ∧
  (∀ (s : State) (ch : Fin 32), (s.aio.getCh ch).isLoop → (s.aio.getCh ch).feedOpen → AioDiag.overCurrent ∈ (s.aio.getCh ch).active →
    RunsTo (.loopFeedReclose ch true) s { s with aio := s.aio.setCh ch { s.aio.getCh ch with
      feedOpen := false, band := .measuring, active := (s.aio.getCh ch).active.filter (· != .overCurrent) } } []) ∧
  (∀ (s : State) (g : Fin 4),
    RunsTo (.gridSenseSaturated g) s { s with aio := s.aio.setGs g { s.aio.getGs g with saturated := true, valid := true } } [(.aio, 16)])

/-- Calibration windows (09 R277-R281).
Readings of the model: log 50. -/
def Obligations.AioCalibration : Prop :=
  (∀ (s : State) (n : Nat) (w : Bool), Bits.bit s.aio.calCfg 31 → s.aio.window = false → s.calInstant → s.aio.nextCal s.aio.calCh = some (n, w) →
    s.calBlocked n false true = false →
    RunsTo (.calWindowStart false true) s { s with aio := { s.aio.setCh n { s.aio.getCh n with cal := true } with
      window := true, calCh := n, lastStart := some s.nowNs, rotations := if w then Bits.sat 16 s.aio.rotations 1 else s.aio.rotations } } []) ∧
  (∀ (s : State) (n : Nat) (w : Bool) (p q : Bool), Bits.bit s.aio.calCfg 31 → s.aio.window = false → s.calInstant → s.aio.nextCal s.aio.calCh = some (n, w) →
    s.calBlocked n p q →
    RunsTo (.calWindowStart p q) s { s with aio := { s.aio.setCell (n / 16) { s.aio.getCell (n / 16) with
      deferred := Bits.sat 8 (s.aio.getCell (n / 16)).deferred 1 } with
      calCh := n, rotations := if w then Bits.sat 16 s.aio.rotations 1 else s.aio.rotations } } [(.aio, 10)]) ∧
  (∀ (s : State) (o g : Int), s.aio.window → s.aio.calCh < 31 → (s.aio.getCh s.aio.calCh).calPasses o g →
    RunsTo (.calWindowEnd o g) s { s with aio := { ((s.aio.setCh s.aio.calCh { s.aio.getCh s.aio.calCh with
        cal := false, offset := o, gain := g, calFails := 0, active := (s.aio.getCh s.aio.calCh).active.filter (· != .calFail) }).setCell (s.aio.calCh / 16)
          { s.aio.cellOf s.aio.calCh with done := Bits.sat 16 (s.aio.cellOf s.aio.calCh).done 1 }) with
      window := false, calCh := s.aio.calCh + 1 } } []) ∧
  (∀ (s : State) (o g : Int), s.aio.window → (s.aio.getCh s.aio.calCh).calPasses o g = false →
    ∃ t, Changes (.calWindowEnd o g) s t [.aio] [(.aio, 9)] ∧ t.raised .aio 9 ∧ t.aio.window = false ∧
      AioDiag.calFail ∈ (t.aio.getCh s.aio.calCh).active ∧ (t.aio.getCh s.aio.calCh).offset = (s.aio.getCh s.aio.calCh).offset ∧
      (t.aio.getCh s.aio.calCh).gain = (s.aio.getCh s.aio.calCh).gain) ∧
  (∀ (s : State), s.aio.window → (s.aio.getCh s.aio.calCh).isOutput →
    RunsTo .calWindowAbandon s { s with aio := { ((s.aio.setCh s.aio.calCh { s.aio.getCh s.aio.calCh with cal := false }).setCell (s.aio.calCh / 16)
        { s.aio.cellOf s.aio.calCh with deferred := Bits.sat 8 (s.aio.cellOf s.aio.calCh).deferred 1 }) with window := false } } [(.aio, 10)])

/-- Safety outputs (01 R20, 10 R308, R313, R317, R323).
Readings of the model: logs 9, 52 and 95. -/
def Obligations.SafetyOutputs : Prop :=
  (∀ (s : State) (n : Fin 8), s.partnerSeated = true → ∃ t, Changes (.xtlArm n) s t [.safe] [] ∧
    Settled { s.safe with armed := Bits.setBit s.safe.armed n, xtlIn := Bits.clrBit s.safe.xtlIn n } t.safe) ∧
  (∀ (s : State) (n : Fin 8) (d : Bool), Bits.bit s.safe.armed n = true → ∃ t, Changes (.xtlDemandChange n d) s t [.safe] [] ∧
    Settled { s.safe with xtlIn := Bits.putBit s.safe.xtlIn n d } t.safe) ∧
  (∀ (s : State) (n : Fin 8), s.safe.hsOn n = true → SoDiag.overload ∉ (s.safe.getSo n).active →
    ∃ t, Changes (.soOverload n) s t [.safe] [(.safe, 11)] ∧ t.raised .safe 11 = true ∧ t.safe.hsOn n = false ∧ SoDiag.overload ∈ (t.safe.getSo n).active ∧
      (t.safe.getSo n).ovlNs = some s.nowNs ∧ ∀ f, (t.safe.getFn f).untimed = (s.safe.getFn f).untimed) ∧
  (∀ (s : State) (n : Fin 8) (t0 : Nat), (s.safe.getSo n).ovlNs = some t0 → s.safe.laneP = true → t0 + 1000000000 ≤ s.nowNs →
    (∃ t, Changes (.soOverloadRetry n false) s t [.safe] [] ∧
      Settled (s.safe.setSo n { s.safe.getSo n with ovlNs := none, active := (s.safe.getSo n).active.filter (· != .overload) }) t.safe) ∧
    (∃ t, Changes (.soOverloadRetry n true) s t [.safe] [] ∧ Settled (s.safe.setSo n { s.safe.getSo n with ovlNs := some s.nowNs }) t.safe)) ∧
  (∀ (s : State) (n : Fin 8), s.safe.on100 s.nowNs n = true → SoDiag.openLoad ∉ (s.safe.getSo n).active →
    ∃ t, Changes (.soOpenLoad n) s t [.safe] [(.safe, 12)] ∧ t.raised .safe 12 = true ∧
      Settled (s.safe.setSo n { s.safe.getSo n with active := .openLoad :: (s.safe.getSo n).active, lastDiag := some .openLoad }) t.safe) ∧
  (∀ (s : State) (n : Fin 8), s.safe.hsOn n = true → ∃ t, Changes (.fwStuck n) s t [.safe] [(.safe, 8)] ∧ t.raised .safe 8 = true ∧
    Settled (s.safe.setSo n { s.safe.getSo n with active := .fwStuck :: (s.safe.getSo n).active, lastDiag := some .fwStuck }) t.safe ∧
    t.safe.hsOn n = false) ∧
  (∀ (s : State) (n : Fin 8), s.safe.lsClosed s.nowNs n = true → s.partnerSeated = true → SoDiag.closureFail ∉ (s.safe.getSo n).active →
    ∃ t, Changes (.lowSideClosureFail n) s t [.safe] [(.safe, 10)] ∧ t.raised .safe 10 = true ∧
      Settled (s.safe.setSo n { s.safe.getSo n with
        active := .closureFail :: (s.safe.getSo n).active, lastDiag := some .closureFail,
        faultNs := if (s.safe.getSo n).faultNs.isNone then some s.nowNs else (s.safe.getSo n).faultNs }) t.safe) ∧
  (∀ (s : State) (n : Fin 8) (t0 : Nat), s.safe.hsOn n = true → (s.safe.getSo n).onNs = some t0 → t0 + 200000000 ≤ s.nowNs → s.safe.valid.any (fun e => e.2.so n && e.2.type == .sbc) = true →
    ∃ t, Changes (.sbcBoostEnd n) s t [.safe] [] ∧ Settled (s.safe.setSo n { s.safe.getSo n with held := true }) t.safe) ∧
  (∀ (s : State) (n : Fin 8) (t0 : Nat), s.safe.laneP = true → (s.safe.getSo n).expired = false → (s.safe.getSo n).faultNs = some t0 → t0 + Bits.get (s.safe.getSo n).cfg 8 8 * 3600000000000 ≤ s.nowNs →
    ∃ t, Changes (.repairTimeExpiry n) s t [.safe] [(.safe, 16)] ∧ t.raised .safe 16 = true ∧ (t.safe.getSo n).expired = true ∧
      ∀ f e, (f, e) ∈ s.safe.valid → e.so n = true → (s.safe.getFn f).phase ≠ .unused → (t.safe.getFn f).phase = .faulted ∧ FnCause.repairTime ∈ (t.safe.getFn f).faults)

/-- The safety lanes and their supplies (10 R290, R292, R295, R297, R305, R306, R314, R494).
Readings of the model: logs 52 and 95. -/
def Obligations.SafetyLanes : Prop :=
  (∀ (s : State) (p : Fin 16) (c1 c2 : Bool), s.safe.cellPower = true → ∃ t, Changes (.laneHSipDemand p c1 c2) s t [.safe] [] ∧
    t.safe.getSip p = { s.safe.getSip p with
      h1 := c1, h2 := c2
      disH := if c1 != c2 then some ((s.safe.getSip p).disH.getD s.nowNs) else none
      stepH := (s.safe.getSip p).stepH || ((s.safe.getSip p).discH && c1 && c2) } ∧
    (∀ q : Fin 16, q ≠ p → t.safe.getSip q = s.safe.getSip q) ∧ (∀ f, (t.safe.getFn f).untimed = (s.safe.getFn f).untimed) ∧
    (pairUsed (Tbl.get 0#32 s.safe.laneH.pairs p) = true → c1 = true ∨ c2 = true → t.safe.demandH p = true ∧
      ∀ n : Fin 8, Bits.bit (Tbl.get {} s.safe.laneH.so n).masks p = true → t.safe.lsClosed s.nowNs n = false)) ∧
  (∀ (s : State) (n : Fin 8) (t0 : Nat), (s.safe.getSo n).hDelay = some t0 → t0 + (Tbl.get {} s.safe.laneH.so n).delayH * 9900 ≤ s.nowNs →
    ∃ t, Changes (.laneHDelayDone n) s t [.safe] [] ∧
    Settled (s.safe.setSo n { s.safe.getSo n with hDelay := none, hDoneNs := some s.nowNs }) t.safe ∧ t.safe.lsClosed s.nowNs n = false) ∧
  (∀ (s : State) (e : BitVec 8), s.safe.laneP = false → s.safe.cellPower = true → s.cfg.lanes = true →
    (∀ t0, s.safe.pFaultNs = some t0 → t0 + 100000000 ≤ s.nowNs) →
    ∃ t, Changes (.lanePStart e) s t [.safe] [(.safe, 15)] ∧ t.safe.laneP = true ∧ t.safe.pFaultNs = none ∧ t.safe.idOk = s.safe.laneHAgrees ∧
    (∀ p : Fin 16, t.safe.getSip p = { s.safe.getSip p with discP := false, stepP := false, disP := none, failP1 := false, failP2 := false, pressNs := none }) ∧
    (s.safe.laneHAgrees = false → t.raised .safe 15 = true)) ∧
  (∀ s : State, s.safe.cellPower = true → ∃ t, Changes .lanePFault s t [.safe] [(.safe, 14)] ∧ t.raised .safe 14 = true ∧
    Settled { s.safe with laneP := false, pFaultNs := some s.nowNs } t.safe ∧ ∀ n : Fin 8, t.safe.hsOn n = false) ∧
  (∀ s : State, ∃ t, Changes .laneHFault s t [.safe] [(.safe, 14), (.safe, 0)] ∧ t.raised .safe 14 = true ∧ t.safe.laneHOk = false ∧
    ∀ n : Fin 8, t.safe.lsClosed s.nowNs n = false ∧ t.safe.ownXtl s.nowNs n = true) ∧
  (∀ (s : State) (p : Fin 16) (two : Bool), s.comparatorDue .h (.sip p two) = true → s.safe.compFailed .h (.sip p two) = false →
    ∃ t, Changes (.comparatorTest .h (.sip p two) false) s t [.safe] [(.safe, 14), (.safe, 0)] ∧ t.raised .safe 14 = true ∧
    t.safe.getSip p = (if two then { s.safe.getSip p with failH2 := true } else { s.safe.getSip p with failH1 := true }) ∧
    (pairUsed (Tbl.get 0#32 s.safe.laneH.pairs p) = true → t.safe.demandH p = true)) ∧
  (∀ (s : State) (l : Lane) (p : Fin 16) (two : Bool), s.comparatorDue l (.sip p two) = true →
    ∃ t, Changes (.comparatorTest l (.sip p two) true) s t [.safe] [(.safe, 5)] ∧ t.safe.compFailed l (.sip p two) = false) ∧
  (∀ (s : State) (l : Lane) (c : CompTerm) (b : Bool), s.comparatorDue l c = false → exec (.comparatorTest l c b) s = .next s) ∧
  (∀ s : State, s.safe.lsOk = true → ∃ t, Changes .lsSupplyLow s t [.safe] [(.safe, 13), (.safe, 0)] ∧ t.raised .safe 13 = true ∧ t.safe.lsOk = false ∧
    ∀ n : Fin 8, t.safe.hsOn n = false) ∧
  (∀ s : State, ∃ t, Changes .lsSupplyBack s t [.safe] [(.safe, 5)] ∧ t.safe.lsOk = true ∧ t.safe.lsLow12 = false ∧ t.safe.sip = s.safe.sip) ∧
  (∀ s : State, s.mod.powered = false → ∃ t, Changes .safetyCellPowerLost s t [.safe] [] ∧
    Settled { s.safe with cellPower := false, laneP := false, pFaultNs := none, laneHOk := false, lsOk := false, lsLow12 := true } t.safe ∧
    ∀ n : Fin 8, t.safe.hsClosed s.nowNs n = false ∧ t.safe.lsClosed s.nowNs n = false ∧ t.safe.ownXtl s.nowNs n = true) ∧
  (∀ s : State, s.safe.cellPower = false → ∃ t, Changes .safetyCellPowerBack s t [.safe] [] ∧ t.safe.cellPower = true ∧ t.safe.laneHOk = true ∧
    t.safe.laneP = s.safe.laneP ∧ ∀ p : Fin 16, t.safe.getSip p = { s.safe.getSip p with
      h1 := true, h2 := true, disH := none, discH := false, stepH := false, failH1 := false, failH2 := false }) ∧
  (∀ (s : State) (n : Fin 8), s.safe.seated = false → s.safe.lsClosed s.nowNs n = false ∧ s.safe.hsOn n = false ∧ s.safe.hsClosed s.nowNs n = false)

/-- Safety functions (10 R296, R299, R300, R303, R304, R307).
Readings of the model: logs 52 and 95. -/
def Obligations.SafetyFunctions : Prop :=
  (∀ (s : State) (p : Fin 16) (l1 l2 : Bool) (f : Nat) (e : FnEntry), s.safe.laneP = true → (f, e) ∈ s.safe.valid → e.sip p = true →
    pairUsed (Tbl.get 0#32 s.safe.pairs p) = true → levelDemand (Tbl.get 0#32 s.safe.pairs p) l1 l2 = true → (s.safe.entry f).type ≠ .timedStop →
    (s.safe.getFn f).phase = .active ∨ (s.safe.getFn f).phase = .awaitReset →
    ∃ t, Changes (.lanePDemand (.sip p l1 l2)) s t [.safe] [(.safe, 0)] ∧ (t.safe.getFn f).phase = .demanded ∧
      t.safe.getSip p = { s.safe.getSip p with
        l1 := l1, l2 := l2
        disP := if levelDisagree (Tbl.get 0#32 s.safe.pairs p) l1 l2 then some ((s.safe.getSip p).disP.getD s.nowNs) else none
        stepP := (s.safe.getSip p).stepP || ((s.safe.getSip p).discP && levelBoth (Tbl.get 0#32 s.safe.pairs p) l1 l2) }) ∧
  (∀ (s : State) (f : Nat) (e : FnEntry), s.safe.laneP = true → (f, e) ∈ s.safe.valid → (∀ d, (f, d) ∈ s.safe.valid → d = e) →
    s.safe.fnDemand e = none → e.monitors = false → (s.safe.getFn f).phase = .demanded →
    ∃ t, Changes (.demandWithdrawn .lsSupply) s t [.safe] [(.safe, 5)] ∧ (t.safe.getFn f).phase = (if e.manual then .awaitReset else .active)) ∧
  (∀ (s : State) (f : Fin 64), s.safe.laneP = true → (s.safe.getFn f).phase = .timing →
    (s.safe.getFn f).timingNs + (s.safe.entry f).delayMs * 999000 ≤ s.nowNs → ∃ t, Changes (.timedStopDelay f) s t [.safe] [(.safe, 0)] ∧ t.raised .safe 0 = true ∧
    Settled { s.safe.setFn f { s.safe.getFn f with phase := .demanded } with tripCnt := Bits.inc s.safe.tripCnt } t.safe) ∧
  (∀ (s : State) (p : Fin 16) (f : Nat) (e : FnEntry) (t0 : Nat), s.safe.laneP = true → pairUsed (Tbl.get 0#32 s.safe.pairs p) = true →
    (s.safe.getSip p).disP = some t0 → t0 + discNs (Tbl.get 0#32 s.safe.pairs p) ≤ s.nowNs → (s.safe.getSip p).discP = false →
    (f, e) ∈ s.safe.valid → e.sip p = true → (s.safe.getFn f).phase = .demanded →
    ∃ t, Changes (.discrepancyLatch .p p) s t [.safe] [(.safe, 0), (.safe, 1)] ∧ t.raised .safe 1 = true ∧ (t.safe.getSip p).discP = true ∧
      t.safe.discCnt = Bits.inc s.safe.discCnt ∧ (t.safe.getFn f).phase = .faulted ∧ FnCause.discrepancy ∈ (t.safe.getFn f).faults) ∧
  (∀ (s : State) (p : Fin 16) (t0 : Nat), s.safe.cellPower = true → pairUsed (Tbl.get 0#32 s.safe.laneH.pairs p) = true →
    (s.safe.getSip p).disH = some t0 → t0 + discNs (Tbl.get 0#32 s.safe.laneH.pairs p) ≤ s.nowNs → (s.safe.getSip p).discH = false →
    ∃ t, Changes (.discrepancyLatch .h p) s t [.safe] [(.safe, 1)] ∧ t.raised .safe 1 = true ∧ (t.safe.getSip p).discH = true ∧
      t.safe.discCnt = Bits.inc s.safe.discCnt) ∧
  (∀ (s : State) (p : Fin 16), s.safe.cellPower = true → (s.safe.getSip p).discH = true → (s.safe.getSip p).stepH = true →
    (s.safe.getSip p).hDemand = false → ∃ t, Changes (.discrepancyClear .h p) s t [.safe] [] ∧
    Settled (s.safe.setSip p { s.safe.getSip p with discH := false, stepH := false }) t.safe) ∧
  (∀ (s : State) (p : Fin 16), (s.safe.getSip p).stepH = false → exec (.discrepancyClear .h p) s = .next s) ∧
  (∀ (s : State) (p : Fin 16), (s.safe.getSip p).stepP = false → exec (.discrepancyClear .p p) s = .next s) ∧
  (∀ (s : State) (p : Fin 16) (l1 l2 : Bool), s.safe.laneP = true → pairUsed (Tbl.get 0#32 s.safe.pairs p) = true →
    levelDemand (Tbl.get 0#32 s.safe.pairs p) l1 l2 = true → ∃ t, Changes (.resetPress p l1 l2) s t [.safe] [] ∧
      (t.safe.getSip p).pressNs = some ((s.safe.getSip p).pressNs.getD s.nowNs) ∧ (t.safe.getSip p).l1 = l1 ∧ (t.safe.getSip p).l2 = l2 ∧
      (∀ q : Fin 16, q ≠ p → t.safe.getSip q = s.safe.getSip q) ∧ ∀ f, (t.safe.getFn f).untimed = (s.safe.getFn f).untimed) ∧
  (∀ (s : State) (p : Fin 16) (l1 l2 : Bool) (t0 f : Nat) (e : FnEntry), (s.safe.getSip p).pressNs = some t0 → s.safe.laneP = true →
    levelDemand (Tbl.get 0#32 s.safe.pairs p) l1 l2 = false → 100000000 ≤ s.nowNs - t0 → s.nowNs - t0 ≤ 5000000000 →
    (s.safe.getSip p).discP = false → (f, e) ∈ s.safe.valid →
    ((s.safe.sampleP s.nowNs p l1 l2).modSip p (fun v => { v with pressNs := none })).resets p f e = true →
    ∃ t, Changes (.resetRelease p l1 l2 none) s t [.safe] [(.safe, 5), (.safe, 17)] ∧ t.raised .safe 17 = true ∧ (t.safe.getFn f).phase = .active ∧
      (t.safe.getSip p).pressNs = none) ∧
  (∀ (s : State) (f : Fin 64) (fb : Bool), s.safe.laneP = true → (s.safe.entry f).valid = true → (s.safe.entry f).monitors = true →
    (s.safe.getFn f).phase ≠ .unused → (s.safe.getFn f).fbSeen = false → fb = (s.safe.getFn f).on →
    (s.safe.getFn f).swNs + (s.safe.entry f).fbTime * 10000000 ≤ s.nowNs →
    ∃ t, Changes (.edmTimeout f fb) s t [.safe] [(.safe, 2)] ∧ t.raised .safe 2 = true ∧ (t.safe.getFn f).phase = .faulted ∧
      (t.safe.getFn f).cause = .edm ∧ (t.safe.getFb (s.safe.entry f).fb).level = fb) ∧
  (∀ (s : State) (f : Fin 64) (t0 : Nat), s.safe.laneP = true → (s.safe.getFn f).openNs = some t0 → t0 + 1000000000 ≤ s.nowNs →
    (s.safe.getFn f).phase = .faulted → (s.safe.getFn f).faults = [.edm] →
    ∃ t, Changes (.edmFaultClear f) s t [.safe] [] ∧ (t.safe.getFn f).phase = .awaitReset ∧ (t.safe.getFn f).faults = []) ∧
  (∀ (s : State) (n : Fin 8) (t0 f : Nat) (e : FnEntry), (s.safe.getSo n).escal = false → (s.safe.getSo n).openNs = some t0 → t0 + 12000000 ≤ s.nowNs →
    (f, e) ∈ s.safe.valid → e.so n = true → (s.safe.getFn f).phase ≠ .unused →
    ∃ t, Changes (.escalation n) s t [.safe] [(.safe, 7)] ∧ (t.safe.getSo n).escal = true ∧ SoDiag.escalated ∈ (t.safe.getSo n).active ∧
      (t.safe.getFn f).phase = .faulted)

/-- Brake tests and the tests of the safety outputs (10 R309, R311, R313).
Readings of the model: logs 70 and 96. -/
def Obligations.SafetyTests : Prop :=
  (∀ (s : State) (f : Fin 64), s.brakeReady f = true → ∃ t, Changes (.brakeTestStart f) s t [.safe] [] ∧
    Settled (s.safe.setFn f { s.safe.getFn f with
      running := true, testNo := (s.safe.getFn f).testNo + 1#16, asked := false, abort := false, startNs := s.nowNs, slip := 0#32
      startPos := s.clockAngle (s.safe.entry f).clock, startCnt := (s.aio.getSh (s.clockShaft (s.safe.entry f).clock)).count }) t.safe) ∧
  (∀ (s : State) (f : Fin 64) (w : Word), (s.safe.getFn f).running = true → s.safe.laneP = true → (s.safe.getFn f).startNs + 6000000000 ≤ s.nowNs →
    w.toNat ≤ (s.safe.entry f).slipLimit.toNat → s.clockSteady (s.safe.entry f).clock = true →
    ∃ t, Changes (.brakeTestEnd f w) s t [.safe] [(.safe, 4)] ∧ t.raised .safe 4 = true ∧
      ((s.safe.getFn f).faults = [.brakeTest] → (s.safe.getFn f).phase = .faulted →
        (t.safe.getFn f).untimed = { (s.safe.getFn f).untimed with
          running := false, result := .pass, slip := w, due := false, lastPass := some s.time.sec.toNat, phase := .awaitReset, faults := [] }) ∧
      ((s.safe.getFn f).phase ≠ .faulted → (t.safe.getFn f).untimed = { (s.safe.getFn f).untimed with
          running := false, result := .pass, slip := w, due := false, lastPass := some s.time.sec.toNat })) ∧
  (∀ (s : State) (f : Fin 64) (w : Word), (s.safe.getFn f).running = true → s.safe.laneP = true → s.nowNs ≤ (s.safe.getFn f).startNs + 6000000000 →
    (s.safe.entry f).slipLimit.toNat < w.toNat → (s.safe.getFn f).phase ≠ .unused →
    ∃ t, Changes (.brakeTestFail f w) s t [.safe] [(.safe, 3)] ∧ t.raised .safe 3 = true ∧ (t.safe.getFn f).phase = .faulted ∧
      (t.safe.getFn f).cause = .brakeTest ∧ (t.safe.getFn f).result = .fail ∧ (t.safe.getFn f).slip = w ∧ (t.safe.getFn f).running = false) ∧
  (∀ (s : State) (f : Fin 64) (w : Word), (s.safe.getFn f).running = true → s.safe.laneP = true →
    s.clockSteady (s.safe.entry f).clock = false ∨ (s.safe.getFn f).permit = false →
    ∃ t, Changes (.brakeTestAbort f .aborted w) s t [.safe] [(.safe, 5)] ∧ t.raised .safe 5 = true ∧
      Settled (s.safe.setFn f { s.safe.getFn f with running := false, abort := true, result := .aborted, slip := w }) t.safe) ∧
  (∀ (s : State) (f : Fin 64) (w : Word), (s.safe.getFn f).running = true → s.safe.laneP = true → (s.safe.entry f).rxEn = true →
    1500000000 ≤ s.nowNs - (s.safe.getFn f).startNs → s.nowNs - (s.safe.getFn f).startNs ≤ 4000000000 →
    ∃ t, Changes (.brakeTestAbort f .inconclusive w) s t [.safe] [(.safe, 5)] ∧ t.raised .safe 5 = true ∧
      Settled (s.safe.setFn f { s.safe.getFn f with running := false, abort := true, result := .inconclusive, slip := w }) t.safe) ∧
  (∀ (s : State) (n : Fin 8) (k : Bool), s.safetyTestDue n = true → s.safe.testKind s.nowNs n = some k →
    RunsTo (.safetyTestStart n false) s { s with safe := s.safe.setSo n { s.safe.getSo n with test := some (s.nowNs, k) } } []) ∧
  (∀ (s : State) (n : Fin 8) (k : Bool), s.safetyTestDue n = true → s.safe.testKind s.nowNs n = some k →
    RunsTo (.safetyTestStart n true) s { s with safe := { s.safe with preempted := min (s.safe.preempted + 1) 65535 } } []) ∧
  (∀ (s : State) (n : Fin 8), (s.safe.getSo n).stepOver s.nowNs .closure = true →
    RunsTo (.safetyTestStepEnd n .closure true) s { s with safe := s.safe.setSo n { s.safe.getSo n with test := none } } []) ∧
  (∀ (s : State) (n : Fin 8), (s.safe.getSo n).stepOver s.nowNs .hsDark = true → SoDiag.hsStuck ∉ (s.safe.getSo n).active →
    ∃ t, Changes (.safetyTestStepEnd n .hsDark false) s t [.safe] [(.safe, 8)] ∧ t.raised .safe 8 = true ∧
      t.safe.failed = min (s.safe.failed + 1) 65535 ∧ SoDiag.hsStuck ∈ (t.safe.getSo n).active ∧ (t.safe.getSo n).faultNs.isSome = true)

/-- The commands of an axis (11 R328, R331-R333, R338, R340).
Readings of the model: logs 11 and 45. -/
def Obligations.AxisCommands : Prop :=
  (∀ (s : State) (a : Fin 4) (seq : Word), seq ≠ (s.ax.get a).lastSeq → (s.ax.get a).state = .disabled → s.ax.vm = .normal ∨ s.ax.vm = .high →
    RunsTo (.axisEnable a seq) s (s.axAfter a seq { s.ax.get a with
      state := .idle, bridge := true, hold := true, offLeft := 0, mask := 2000, result := 0 }) []) ∧
  (∀ (s : State) (a : Fin 4) (seq : Word), seq ≠ (s.ax.get a).lastSeq → (s.ax.get a).state = .idle →
    RunsTo (.axisDisable a seq) s (s.axAfter a seq { s.ax.get a with state := .disabled, offLeft := 10000, hold := true, result := 0 }) []) ∧
  (∀ (s : State) (a : Fin 4) (seq : Word), seq ≠ (s.ax.get a).lastSeq → (s.ax.get a).state = .moving →
    RunsTo (.axisStop a seq) s (s.axAfter a seq { s.ax.get a with
      queue := [], motion := .stop (s.ax.get a).presentD, state := .stopping, endResult := 9, result := 0, toDisabled := false
      braking := false, exit := none, decelPending := false }) []) ∧
  (∀ (s : State) (a : Fin 4) (seq : Word), seq ≠ (s.ax.get a).lastSeq → (s.ax.get a).state = .moving →
    RunsTo (.axisEstop a seq) s (s.axAfter a seq { s.ax.get a with
      queue := [], motion := .stop (s.ax.get a).cfg.eDecel.toNat, state := .stopping, endResult := 9, result := 0, toDisabled := false
      braking := false, exit := none, decelPending := false }) []) ∧
  (∀ (s : State) (a : Fin 4) (seq : Word) (es : List MoveEntry), seq ≠ (s.ax.get a).lastSeq → (s.ax.get a).takesMoves = true → (s.ax.get a).queue ≠ [] →
    (s.ax.get a).judge (s.ax.get a).lastTarget (16 - (s.ax.get a).queue.length) es = none →
    RunsTo (.axisAppend a seq es) s (s.axAfter a seq { s.ax.get a with
      queue := (s.ax.get a).queue ++ resolve (s.ax.get a).lastTarget es, state := .moving, motion := .moves, result := 0 }) []) ∧
  (∀ (s : State) (a : Fin 4) (seq : Word) (e : MoveEntry), seq ≠ (s.ax.get a).lastSeq → (s.ax.get a).takesMoves = true →
    (s.ax.get a).judge (s.ax.get a).pos 16 [e] = none →
    RunsTo (.axisReplace a seq [e]) s (s.axAfter a seq { s.ax.get a with
      queue := [{ target := if e.relative then (s.ax.get a).pos + e.target else e.target, v := e.v, a := e.a, d := e.d, j := e.j, blend := e.blend }]
      state := .moving, motion := .moves, result := 0, braking := false, exit := none, decelPending := false, acc := 0
      curA := if (s.ax.get a).aOvr = 0 then e.a else (s.ax.get a).aOvr, curD := if (s.ax.get a).dOvr = 0 then e.d else (s.ax.get a).dOvr }) []) ∧
  (∀ (s : State) (a : Fin 4) (seq : Word) (v : Int) (acc : Nat), seq ≠ (s.ax.get a).lastSeq → (s.ax.get a).takesMoves = true → v.natAbs ≤ 5120000 →
    acc ≤ 1000000 → ((s.ax.get a).limn = false ∨ 0 ≤ v) → ((s.ax.get a).limp = false ∨ v ≤ 0) →
    RunsTo (.axisVelocity a seq v acc) s (s.axAfter a seq { s.ax.get a with
      queue := [], motion := .run v acc, state := .moving, result := 0, braking := false, exit := none, decelPending := false }) []) ∧
  (∀ (s : State) (a : Fin 4) (seq : Word) (h : HomeCmd), seq ≠ (s.ax.get a).lastSeq → (s.ax.get a).state = .idle → h.mode = 5 → h.vel ≤ 5120000 →
    h.acc ≤ 1000000 → h.dec ≤ 1000000 →
    RunsTo (.axisHome a seq h) s (s.axAfter a seq { s.ax.get a with
      pos := h.offset, x := h.offset * 1000000000000, homed := true, unverified := false, homing := none, result := 1 }) [(.ax, 2)]) ∧
  (∀ (s : State) (a : Fin 4) (seq : Word) (ra rd : Nat) (v : Int) (acc : Nat), seq ≠ (s.ax.get a).lastSeq → (s.ax.get a).state = .moving →
    (s.ax.get a).motion = .run v acc → ra ≤ 1000000 → rd ≤ 1000000 →
    RunsTo (.axisSetRates a seq ra rd) s (s.axAfter a seq { s.ax.get a with aOvr := ra, dOvr := rd, result := 0 }) []) ∧
  (∀ (s : State) (a : Fin 4) (seq : Word), seq ≠ (s.ax.get a).lastSeq → (s.ax.get a).state = .faulted → (s.ax.get a).motion = .still → s.ax.vm = .normal →
    RunsTo (.axisClearFault a seq true) s (s.axAfter a seq { s.ax.get a with state := .disabled, fault := 0, bridge := false, result := 0 }) [])

/-- The motion of an axis, its switches, stalls and standstill (11 R327, R330, R336-R339, R344).
Readings of the model: logs 10, 46 and 97. -/
def Obligations.AxisMotion : Prop :=
  (∀ (s : State) (a : Fin 4), ∃ t, Changes (.axisProfileTick a) s t [.ax] [(.ax, 2), (.ax, 3)] ∧
    t.ax.get a = { (s.ax.get a).tick (Config.profileRound s.free) with
      stepNs := if ((s.ax.get a).tick (Config.profileRound s.free)).pos = (s.ax.get a).pos then ((s.ax.get a).tick (Config.profileRound s.free)).stepNs else s.nowNs } ∧ t.ax.vm = s.ax.vm ∧ ∀ i : Nat, i ≠ a → t.ax.get i = s.ax.get i) ∧
  (∀ (x : Axis) (up : Bool) (vel : Int) (acc : Nat), x.nextCfg = none → x.motion = .run vel acc → x.homed = false → x.state = .homing →
    (x.tick up).v = (if x.v < vel * 1000000 then min (x.v + 256 * acc) (vel * 1000000) else max (x.v - 256 * acc) (vel * 1000000)) ∧
    (x.tick up).state = .homing) ∧
  (∀ (x : Axis) (up : Bool) (d : Nat), x.nextCfg = none → x.motion = .stop d → x.state = .stopping → x.homing = none → x.toDisabled = false →
    (if x.v < 0 then min (x.v + 256 * d) 0 else max (x.v - 256 * d) 0) = 0 →
    (x.tick up).state = .idle ∧ (x.tick up).v = 0 ∧ (x.tick up).result = x.endResult ∧ (x.tick up).pos = x.pos) ∧
  (∀ (s : State) (a : Fin 4) (p : Int), (s.ax.get a).state = .moving → (s.ax.get a).v < 0 → (s.ax.get a).limn = false → s.holdsToken = true →
    RunsTo (.axisLimitEdge a .limn true p) s { s with ax := { s.ax.set a { s.ax.get a with
      limn := true, queue := [], motion := .stop (s.ax.get a).cfg.eDecel.toNat, state := .stopping, endResult := 7, toDisabled := false
      braking := false, exit := none, decelPending := false, limitStops := min ((s.ax.get a).limitStops + 1) 65535 } with
      sent := s.ax.sent ++ [.edge a .limn true s.nowNs p] } } [(.ax, 1)]) ∧
  (∀ (s : State) (a : Fin 4) (sw : AxSwitch) (act : Bool) (p : Int), (s.ax.get a).state ≠ .homing → (s.ax.get a).switch sw ≠ act → s.holdsToken = false → s.solo = false →
    RunsTo (.axisLimitEdge a sw act p) s { s with ax := { s.ax.set a ((s.ax.get a).setSwitch sw act) with
      own := (AxEvent.edge a sw act s.nowNs p :: s.ax.own).take 64 } } []) ∧
  (∀ (s : State) (a : Fin 4) (p : Int) (h : Homing), (s.ax.get a).state = .homing → (s.ax.get a).homing = some h → h.cmd.mode = 0 → h.phase = .search →
    (s.ax.get a).home = false → s.holdsToken = true →
    RunsTo (.axisHomingEdge a .home true p) s { s with ax := { s.ax.set a { s.ax.get a with
      home := true, homing := some { h with ref := some p, phase := .finish }, capture := p, motion := .stop h.cmd.dec
      state := .stopping, endResult := 1, toDisabled := false } with sent := s.ax.sent ++ [.edge a .home true s.nowNs p] } } []) ∧
  (∀ (s : State) (a : Fin 4), (s.ax.get a).stallWatched = true → (s.ax.get a).state = .moving → (s.ax.get a).unverified = true → s.holdsToken = true →
    ∃ t, Changes (.axisStall a) s t [.ax] [(.ax, 0)] ∧ t.raised .ax 0 = true ∧ t.ax.get a = { s.ax.get a with
      x := (s.ax.get a).pos * 1000000000000, v := 0, acc := 0, motion := .still, braking := false, exit := none, queue := [], state := .faulted
      fault := 1, result := 9, hold := true, homing := none, decelPending := false, stalls := min ((s.ax.get a).stalls + 1) 65535 }) ∧
  (∀ (s : State) (a : Fin 4), (s.ax.get a).bridge = true → (s.ax.get a).v = 0 →
    (s.ax.get a).stepNs + Bits.get (s.ax.get a).cfg.config 8 7 * 10000000 ≤ s.nowNs →
    RunsTo (.axisHoldDelay a) s { s with ax := s.ax.set a { s.ax.get a with hold := true } } []) ∧
  (∀ (s : State) (a : Fin 4) (sw : AxSwitch) (act : Bool) (p : Int), (s.ax.get a).switch sw = act →
    exec (.axisLimitEdge a sw act p) s = .next s ∧ exec (.axisHomingEdge a sw act p) s = .next s) ∧
  (∀ (s : State) (a : Fin 4), (s.ax.get a).motion ≠ .still → (s.ax.get a).savedNs + 1000000 ≤ s.nowNs →
    RunsTo (.axisStateSave a) s { s with ax := s.ax.set a { s.ax.get a with
      savedSeq := (s.ax.get a).lastSeq, savedPos := (s.ax.get a).pos, savedNs := s.nowNs } } [])

/-- Bridges and the motor supply (11 R341, R342, R345, 01 R22).
Readings of the model: log 12. -/
def Obligations.AxisFaults : Prop :=
  (∀ (s : State) (a : Fin 4), (s.ax.get a).state ≠ .disabled → (s.ax.get a).unverified = true →
    ∃ t, Changes (.axisBridgeFault a .overcurrent) s t [.ax] [(.ax, 6)] ∧ t.raised .ax 6 = true ∧ (t.ax.get a).state = .faulted ∧ (t.ax.get a).fault = 2 ∧
      (t.ax.get a).bridge = false ∧ (t.ax.get a).queue = [] ∧ (t.ax.get a).v = 0 ∧ (t.ax.get a).pos = (s.ax.get a).pos ∧
      ∀ i : Nat, i ≠ a → t.ax.get i = s.ax.get i) ∧
  (∀ (s : State) (a : Fin 4), (s.ax.get a).state = .moving → (s.ax.get a).unverified = true →
    ∃ t, Changes (.axisBridgeFault a (.overtemp false)) s t [.ax] [(.ax, 7)] ∧ t.raised .ax 7 = true ∧ (t.ax.get a).state = .faulted ∧ (t.ax.get a).fault = 3 ∧
      (t.ax.get a).motion = .stop (s.ax.get a).cfg.eDecel.toNat ∧ (t.ax.get a).bridge = (s.ax.get a).bridge ∧ (t.ax.get a).v = (s.ax.get a).v) ∧
  (∀ (s : State) (a : Fin 4), s.holdsToken = true → (s.ax.get a).state = .faulted → (s.ax.get a).fault = 2 → s.partnerEligible = false → s.twin.regions = [] →
    RunsTo (.axisBridgeTestDone a false) s { s with twin := { s.twin with regions := [.ax] } } []) ∧
  (∀ (s : State) (a : Fin 4), s.role = .shadow →
    RunsTo (.gatedBridgeTest a false) s { s with ax := s.ax.set a { s.ax.get a with bridgeBad := true } } [(.ax, 12)]) ∧
  (∀ (s : State) (a : Fin 4), s.role = .shadow → (∀ b : Fin 4, b ≠ a → (s.ax.get b).bridgeBad = false) →
    RunsTo (.gatedBridgeTest a true) s { s with
      ax := s.ax.set a { s.ax.get a with bridgeBad := false }
      twin := { s.twin with regions := s.twin.regions.filter (fun r => r != Region.ax) } } []) ∧
  (∀ (s : State) (a b : Fin 4), s.role = .shadow → b ≠ a → (s.ax.get b).bridgeBad = true →
    RunsTo (.gatedBridgeTest a true) s { s with ax := s.ax.set a { s.ax.get a with bridgeBad := false } } []) ∧
  (∀ (s : State) (mv : Nat), mv < 10500 → s.ax.vm ≠ .low →
    ∃ t, Changes (.vmLow mv) s t [.ax] [(.ax, 9), (.ax, 13)] ∧ t.raised .ax 9 = true ∧ t.ax.vm = .low ∧ t.ax.mv = mv ∧
      ∀ a : Fin 4, (s.ax.get a).state ≠ .disabled → (t.ax.get a).state = .faulted ∧ (t.ax.get a).fault = 5 ∧ (t.ax.get a).bridge = false) ∧
  (∀ (s : State) (mv : Nat), 55000 < mv → s.ax.vm ≠ .above →
    ∃ t, Changes (.vmOver mv) s t [.ax] [(.ax, 11), (.ax, 13)] ∧ t.raised .ax 11 = true ∧ t.ax.vm = .above ∧ t.ax.mv = mv ∧
      ∀ a : Fin 4, (s.ax.get a).state ≠ .disabled → (t.ax.get a).state = .faulted ∧ (t.ax.get a).fault = 6 ∧ (t.ax.get a).bridge = false) ∧
  (∀ s : State, 52000 < s.ax.mv → s.ax.vm = .normal → RunsTo .vmHigh s { s with ax := { s.ax with vm := .high } } [(.ax, 10)]) ∧
  (∀ s : State, 11500 ≤ s.ax.mv → s.ax.mv ≤ 52000 → s.ax.vm = .low → RunsTo .vmLowClear s { s with ax := { s.ax with vm := .normal } } [])

/-- Panel requests (12 R355, R359, R361-R363).
Readings of the model: log 47. -/
def Obligations.PanelRequests : Prop :=
  (∀ (s : State) (o : Origin) (id : Half) (r : Rect) (len : Nat) (bs : List Byte), s.panelDriving = true → s.pnl.judge (.write r len bs) = none → s.pnl.waiting = [] →
    s.pnl.mode = 1 → s.pnl.copying = false →
    EndsTo (.panelWrite o id r len bs) s { s with pnl := { s.pnl with
      back := Tbl.setAll 0 s.pnl.back (s.pnl.pixels r bs), sent := if s.joined then s.pnl.sent ++ [.request id (.write r len bs)] else s.pnl.sent
      done := if s.joined then s.pnl.done ++ [{ id := id, op := .write r len bs, origin := o, acked := false }] else s.pnl.done } } []) ∧
  (∀ (s : State) (o : Origin) (id : Half) (r : Rect) (len : Nat) (bs : List Byte), s.panelDriving = true → s.pnl.judge (.write r len bs) = none → s.pnl.waiting = [] →
    s.pnl.mode = 2 → s.pnl.refresh = false → s.pnl.covered r = true →
    EndsTo (.panelWrite o id r len bs) s { s with pnl := { s.pnl with
      waiting := [{ id := id, op := .write r len bs, origin := o, acked := !s.joined }], sent := if s.joined then s.pnl.sent ++ [.request id (.write r len bs)] else s.pnl.sent } } []) ∧
  (∀ (s : State) (o : Origin) (id : Half), s.panelDriving = true → s.pnl.judge .present = none → s.pnl.nextNs = none →
    EndsTo (.panelPresent o id) s { s with pnl := { s.pnl with
      waiting := s.pnl.waiting ++ [{ id := id, op := .present, origin := o, acked := !s.joined }]
      sent := if s.joined then s.pnl.sent ++ [.request id .present] else s.pnl.sent } } []) ∧
  (∀ (s : State) (o : Origin) (id : Half) (t u : Nat), s.panelDriving = true → s.pnl.judge .present = none → s.pnl.nextNs = some t → s.pnl.inFrame = true →
    s.pnl.copying = false → u = max ((s.pnl.frameNs + 1000000000 / s.pnl.rateActive) / 10 * 10) ((s.tickNo + 1) * 10000) → u < t →
    EndsTo (.panelPresent o id) s { s with pnl := { s.pnl with
      waiting := s.pnl.waiting ++ [{ id := id, op := .present, origin := o, acked := !s.joined }], nextNs := some u
      sent := if s.joined then s.pnl.sent ++ (.request id .present :: (if s.leads then [.early (s.pnl.frameNo + 1) u] else [])) else s.pnl.sent } } []) ∧
  (∀ (s : State) (o : Origin) (id : Half) (r : Rect) (wf : Fin 8), s.panelDriving = true → s.pnl.judge (.update r wf) = none →
    EndsTo (.panelUpdate o id r wf) s { s with pnl := { s.pnl with
      waiting := s.pnl.waiting ++ [{ id := id, op := .update r wf, origin := o, acked := !s.joined }]
      sent := if s.joined then s.pnl.sent ++ [.request id (.update r wf)] else s.pnl.sent } } []) ∧
  (∀ (s : State) (o : Origin) (id : Half) (v : Int), s.panelDriving = true → s.pnl.judge (.temp v) = none → Bits.bit s.pnl.cfg.config 26 = true →
    ∃ t, Changes (.panelTemp o id v) s t [.pnl, .done] [(.pnl, 0)] ∧ t.pnl.temp = v ∧ t.pnl.tempValid = true ∧ t.pnl.tempNs = s.nowNs ∧
      t.pnl.band = s.pnl.cfg.wave.bandOf v ∧ (s.pnl.cfg.wave.bandOf v ≠ s.pnl.band → t.raised .pnl 0 = true)) ∧
  (∀ (s : State) (o : Origin) (id : Half), s.panelDriving = true → s.pnl.judge .powerOn = none → s.pnl.power = false → s.joined = false →
    EndsTo (.panelPowerOn o id) s { s with pnl := { s.pnl with power := true, frameCnt := 0#64 } } []) ∧
  (∀ (s : State) (o : Origin) (id : Half), s.panelDriving = true → s.pnl.judge .powerOff = none → s.joined = false →
    EndsTo (.panelPowerOff o id) s { s with pnl := { s.pnl with power := false } } []) ∧
  (∀ (s : State) (o : Origin) (id : Half) (r : Rect) (len : Nat) (bs : List Byte) (wf : Fin 8) (v : Int), s.panelDriving = false →
    ∀ i ∈ ([.panelWrite o id r len bs, .panelPresent o id, .panelUpdate o id r wf, .panelTemp o id v, .panelPowerOn o id, .panelPowerOff o id] : List Instr),
      EndsTo i s { s with pnl := { s.pnl with refuseCnt := Bits.inc s.pnl.refuseCnt } } [(.pnl, 2)])

/-- Panel frames, temperature and power good (12 R353-R359, R362-R366, R369).
Readings of the model: log 47. -/
def Obligations.PanelFrames : Prop :=
  (∀ (s : State) (t : Nat) (r : PReq) (rest : List PReq), s.pnl.nextNs = some t → s.pnl.lcdRuns = true → t < (s.tickNo + 1) * 10000 → s.pnl.inFrame = true →
    s.pnl.copying = false → takeFirst (fun r => r.op == .present) s.pnl.waiting = some (r, rest) → s.pnl.hz = s.pnl.rateActive →
    EndsTo .lcdFrameStart s { s with pnl := { s.pnl with
      front := s.pnl.back, back := s.pnl.front, copying := true, waiting := rest
      done := if r.acked || !s.joined then s.pnl.done else s.pnl.done ++ [r], frameNo := s.pnl.frameNo + 1, frameNs := t
      nextNs := some ((t + 1000000000 / s.pnl.rateActive) / 10 * 10), idle := 0, frameCnt := s.pnl.frameCnt + 1#64 } } [(.pnl, 1)]) ∧
  (∀ (s : State) (t : Nat), s.pnl.nextNs = some t → s.pnl.lcdRuns = true → t < (s.tickNo + 1) * 10000 → s.pnl.inFrame = true →
    s.pnl.copying = true → s.pnl.idleFrames = 0 → s.pnl.hz = s.pnl.rateActive →
    RunsTo .lcdFrameStart s { s with pnl := { s.pnl with
      frameNo := s.pnl.frameNo + 1, frameNs := t
      nextNs := some ((t + 1000000000 / s.pnl.rateActive) / 10 * 10), idle := s.pnl.idle + 1, frameCnt := s.pnl.frameCnt + 1#64 } } []) ∧
  (∀ s : State, s.pnl.copying = true → s.pnl.waiting = [] →
    RunsTo .frontBackCopyDone s { s with pnl := { s.pnl with back := s.pnl.front, copying := false } } []) ∧
  (∀ (s : State) (t : Nat) (r : PReq) (q : Rect) (wf : Nat), s.epInstant = some t → s.pnl.mode = 2 → s.pnl.power = true → s.pnl.pg = true → s.pnl.faulted = false →
    s.holdsToken = true → s.joined = false → s.pnl.inFrame = false → s.pnl.slots = [] → s.pnl.refresh = false → r.op = .update q wf → s.pnl.waiting = [r] →
    0 < s.pnl.framesOf wf →
    ∃ u, Changes (.epFrameStart []) s u [.pnl] [] ∧ u.pnl.waiting = [] ∧ u.pnl.frameCnt = s.pnl.frameCnt + 1#64 ∧ (u.pnl.slot 0).running = true ∧
      (u.pnl.slot 0).next = 1 ∧ (u.pnl.slot 0).req = some r ∧
      (u.pnl.slot 0).cur = some (sealEntry { jseq := 1, id := r.id, active := true, completion := false, wf := wf, band := s.pnl.band, rect := q, frame := 0
                                             frames := s.pnl.framesOf wf, row := 0, start := BitVec.ofNat 64 t })) ∧
  (∀ (s : State) (v : Int), Bits.bit s.pnl.cfg.config 26 = false → (∀ u, s.pnl.measNs = some u → u + 1000000000 ≤ s.nowNs) →
    ∃ t, Changes (.ptempMeasure (some v)) s t [.pnl] [(.pnl, 0)] ∧
      t.pnl = { s.pnl with temp := v, tempValid := true, band := s.pnl.cfg.wave.bandOf v, measNs := some s.nowNs } ∧
      (s.pnl.cfg.wave.bandOf v ≠ s.pnl.band → t.raised .pnl 0 = true)) ∧
  (∀ s : State, Bits.bit s.pnl.cfg.config 26 = false → (∀ u, s.pnl.measNs = some u → u + 1000000000 ≤ s.nowNs) →
    RunsTo (.ptempMeasure none) s { s with pnl := { s.pnl with measNs := some s.nowNs } } [(.pnl, 5)]) ∧
  (∀ s : State, Bits.bit s.pnl.cfg.config 26 = true → s.pnl.tempNs + 600000000000 ≤ s.nowNs → RunsTo .tempTimeout s s [(.pnl, 5)]) ∧
  (∀ (s : State) (row : Option Nat), s.pnl.pg = true →
    ∃ t, Changes (.pnlPgFall row) s t [.pnl] [(.pnl, 4)] ∧ t.pnl.pg = false ∧ t.pnl.nextNs = none ∧ (s.pnl.power = true → t.raised .pnl 4 = true) ∧
      (∀ i : Nat, i < 16 → (s.pnl.slot i).cur.isSome → (t.pnl.slot i).running = false) ∧
      (∀ (i : Nat) (e : JEntry) (n : Nat), i < 16 → (s.pnl.slot i).cur = some e → (s.pnl.slot i).running = true → (s.pnl.slot i).driven = true →
        (s.pnl.slot i).fixing = false → row = some n → (t.pnl.slot i).cur = some (sealEntry { e with row := n, jseq := e.jseq + 1 }))) ∧
  (∀ s : State, s.pnl.pg = false → s.pnl.mode = 1 →
    RunsTo .pnlPgRise s { s with pnl := { s.pnl with
      pg := true, inFrame := false, nextNs := some ((s.time.sec.toNat + 1) * 1000000000), idle := 0
      hz := s.pnl.rateActive } } []) ∧
  (∀ s : State, s.pnl.pg = false → s.pnl.mode = 2 → s.panelDriving = true →
    ∃ t, Changes .pnlPgRise s t [.pnl] [] ∧ t.pnl.pg = true ∧ ∀ (i : Nat) (e : JEntry), i < 16 → (s.pnl.slot i).cur = some e → e.active = true → (s.pnl.slot i).running = false →
      (t.pnl.slot i).running = true ∧ (t.pnl.slot i).cur = some (sealEntry { e with completion := true, jseq := e.jseq + 1 }) ∧
      (t.pnl.slot i).fix = (if e.row = 0 then none else some (e.row, e.rect.y + e.rect.h)) ∧
      (t.pnl.slot i).next = (if e.row = 0 then e.frame else e.frame + 1)) ∧
  (∀ s : State, s.leads = false → s.twin.regions = [] →
    ∃ t, Changes .panelUnitFault s t [.pnl, .twin] [(.pnl, 8)] ∧ t.raised .pnl 8 = true ∧ t.pnl.faulted = true ∧ t.pnl.nextNs = none ∧
      t.twin = { s.twin with regions := [.pnl] })

/-- What the recorder does by itself, and the window selection (13 R374-R377, R381-R392, R394).
Readings of the model: logs 53, 73 and 98. -/
def Obligations.RecorderEvents : Prop :=
  (∀ (s : State) (q : RecReq) (l : List RecReq), s.recorder.failed = false → s.svDown = false → s.recorder.queue = q :: l →
    (∀ e ∈ s.recorder.trigs, e.2.lost = 0) →
    ∃ t, Changes .recordWrite s t [.recorder, .done] [(.recorder, 4), (.recorder, 6)] ∧ t.recorder.head = s.recorder.head + 1#64 ∧
      Tbl.get {} t.recorder.ember (s.recorder.goodSlot 2048 s.recorder.slot) = s.recordOf q ∧
      t.recorder.slot = (s.recorder.goodSlot 2048 s.recorder.slot + 1) % 262144 ∧
      (∀ k r, (k, r) ∈ s.recorder.peat → (k, r) ∈ t.recorder.peat) ∧
      ((s.recorder.head + 1#64).toNat < 65536 → s.recorder.peat.all (fun e => e.1 != (s.recorder.head + 1#64).toNat) = true →
        ((s.recorder.head + 1#64).toNat, s.recordOf q) ∈ t.recorder.peat)) ∧
  (∀ (s : State), s.recorder.failed = true → RunsTo .recordWrite s s []) ∧
  (∀ (s : State) (n : Fin 256), (Tbl.get {} s.recorder.trigs n).holding = true →
    (Tbl.get {} s.recorder.trigs n).firedNs + (Tbl.get {} s.recorder.trigDefs n).holdoff * 1000000 ≤ s.nowNs →
    exec (.holdoffExpiry n) s = .next { s with recorder := { s.recorder with
      trigs := Tbl.set {} s.recorder.trigs n { Tbl.get {} s.recorder.trigs n with holding := false } } }) ∧
  (∀ (s : State) (n : Fin 256), s.nowNs < (Tbl.get {} s.recorder.trigs n).firedNs + (Tbl.get {} s.recorder.trigDefs n).holdoff * 1000000 →
    exec (.holdoffExpiry n) s = .next s) ∧
  (∀ (s : State), s.nowNs / 1000000000 = s.recorder.winSec → exec .quotaWindow s = .next s) ∧
  (∀ (s : State), s.nowNs / 1000000000 ≠ s.recorder.winSec → s.recorder.refused = [] ∨ s.recorder.failed = true →
    exec .quotaWindow s = .next { s with recorder := { s.recorder with winSec := s.nowNs / 1000000000, use := [], refused := [] } }) ∧
  (∀ (s : State) (src n : Nat), s.nowNs / 1000000000 ≠ s.recorder.winSec → s.recorder.failed = false → s.recorder.refused = [(src, n)] →
    exec .quotaWindow s = .next { s with recorder := { s.recorder with
      winSec := s.nowNs / 1000000000, use := Tbl.set 0 [] 12 1, refused := []
      queue := enqueueFirst { source := 12, code := 0x100, time := s.tickStart, cycle := s.refCycle
                              detail := BitVec.ofNat 64 (src * 4294967296 + min n 4294967295) } s.recorder.queue } }) ∧
  (∀ (s : State) (a : RecArea) (b : Nat) (v : Bool) (rd : List Nat),
    ∃ t, Changes (.memFault a b v rd) s t [.recorder, .twin, .done] [(.recorder, 0), (.recorder, 1), (.recorder, 2), (.recorder, 3), (.recorder, 4), (.recorder, 6)] ∧
      t.raised .recorder 0 = true ∧ ((a, b) ∉ s.recorder.bad → t.raised .recorder 1 = true) ∧ (a, b) ∈ t.recorder.bad ∧
      (s.recorder.annexOk = true → t.recorder.annexTotal = s.recorder.annexTotal + 1)) ∧
  (∀ (s : State) (w : Word), exec (.recWinSelect .host w) s = .next { s with
    mod := { s.mod with host := { s.mod.host with expired := none, sels := Tbl.set 0#32 s.mod.host.sels 0x3048 w } }
    recorder := { s.recorder with window := Tbl.insert 0 (s.sel .host 0x3044, w) (Tbl.erase s.recorder.window 0) } }) ∧
  (∀ (s : State) (r : Rights) (w : Word), s.mnt.session = some r → r.write = true → exec (.recWinSelect .maint w) s = .next { s with
    mod := { s.mod with maint := { s.mod.maint with expired := none, sels := Tbl.set 0#32 s.mod.maint.sels 0x3048 w } }
    recorder := { s.recorder with window := Tbl.insert 1 (s.sel .maint 0x3044, w) (Tbl.erase s.recorder.window 1) } }) ∧
  (∀ (s : State) (w : Word), s.mnt.session = none → RunsTo (.recWinSelect .maint w) s { s with
    mod := { s.mod with accessCnt := Bits.inc s.mod.accessCnt, maint := { s.mod.maint with expired := none } } } [(.mod, 1), (.mnt, 5)])

/-- Taking a descriptor, the access to its data buffer and the failure of that access (14 R401, R402, R417).
Readings of the model: log 61. -/
def Obligations.DescriptorService : Prop :=
  (∀ (s : State) (l : List (Fin 8 × List Desc)), (s.mod.failed = true ∨ s.svDown = true) → exec (.servicePass l) s = .next s) ∧
  (∀ (s : State) (n : Fin 8) (d : Desc), s.mod.failed = false → s.svDown = false → s.host.busMaster = true → s.mnt.cmds = [] →
    (s.host.sq n).state = .enabled → (s.host.cq (s.host.sq n).bound).state = .enabled → s.host.taken = [] → 0 < (s.host.sq n).used →
    0 < (s.host.cq (s.host.sq n).bound).room → d.opcode = 0#8 → descOk d = true →
    EndsTo (.servicePass [(n, [d])]) s { s with host := s.host.setSq n { s.host.sq n with head := ((s.host.sq n).head + 1) % (s.host.sq n).size, waiting := false } } []) ∧
  (∀ (s : State) (n : Fin 8) (d : Desc), s.mod.failed = false → s.svDown = false → s.host.busMaster = true → s.mnt.cmds = [] →
    (s.host.sq n).state = .enabled → (s.host.cq (s.host.sq n).bound).state = .enabled → d.fence = false → s.mod.ready = true → 0 < (s.host.sq n).used →
    (s.host.cq (s.host.sq n).bound).room ≤ s.host.reserved (s.host.sq n).bound →
    exec (.servicePass [(n, [d])]) s = .next (if (s.host.sq n).waiting then s else { s with
      host := (s.host.setCq (s.host.sq n).bound { s.host.cq (s.host.sq n).bound with full := Bits.sat 17 (s.host.cq (s.host.sq n).bound).full 1 }).setSq n
        { s.host.sq n with waiting := true } })) ∧
  (∀ (s : State) (n : Fin 8) (d : Desc), s.mod.failed = false → s.svDown = false → s.host.busMaster = true → s.mnt.cmds = [] →
    (s.host.sq n).state = .enabled → (s.host.cq (s.host.sq n).bound).state = .enabled → s.host.taken = [] → s.mod.ready = true → 0 < (s.host.sq n).used →
    0 < (s.host.cq (s.host.sq n).bound).room → descListed d = true → descOk d = true → descBuffered d = true →
    exec (.servicePass [(n, [d])]) s = .next { s with host := {
      s.host.setSq n { s.host.sq n with head := ((s.host.sq n).head + 1) % (s.host.sq n).size, waiting := false } with
      taken := [{ sq := n.val, desc := d, reading := true, sinceNs := s.nowNs }] } }) ∧
  (∀ (s : State) (n : Fin 8) (d : Desc) (k : Nat) (data : List Byte) (o : ImageObj) (p : Package × Option Nat), s.host.busMaster = true →
    s.svDown = false → s.mod.failed = false → s.host.taken = [{ sq := n.val, desc := d, reading := true, sinceNs := k }] → d.opcode = 0x0F#8 → d.dataLen = 4 * Bits.leAt d.params 8 1 →
    Bits.leAt d.params 8 1 ≤ 112 → s.recorder.failed = false → s.recorder.overQuota 13 = false →
    exec (.dataReadDone n d.tag data o p) s = .next { s with
      host := { s.host with taken := [{ sq := n.val, desc := d, reading := false, sinceNs := k, passed := true }] }
      recorder := s.recorder.obtain { source := 13, code := 0x100, time := s.tickStart, cycle := s.refCycle
                                      detail := BitVec.ofNat 64 (Bits.leAt d.params 0 8), words := wordsOf data (Bits.leAt d.params 8 1)
                                      origin := .host n d.tag } }) ∧
  (∀ (s : State) (n : Fin 8) (tag : Word) (data : List Byte) (o : ImageObj) (p : Package × Option Nat), s.host.busMaster = false ∨ s.svDown = true ∨ s.mod.failed = true →
    exec (.dataReadDone n tag data o p) s = .next s) ∧
  (∀ (s : State) (n : Fin 8) (tag : Word) (how : DmaFail) (places : Nat) (a : Taken), a ∈ s.host.taken → a.sq = n.val → a.desc.tag = tag → a.reading = true →
    (∀ b ∈ s.host.taken, b.sq = n.val → b.desc.tag = tag → b.reading = true → b.failsBy how s.nowNs = true) →
    EndsTo (.dmaFailure n tag how places) s { s with host := { s.host with dmaErrCnt := Bits.inc s.host.dmaErrCnt } } [(.host, 1)])

/-- Bus Master Enable and the link (14 R415, R419, R496).
Readings of the model: log 63. -/
def Obligations.HostLink : Prop :=
  (∀ (s : State) (en mask : Bool), s.host.pba = 0#32 → s.host.keptMsix = [] → exec (.busMasterEnable en mask) s = .next { s with host := { s.host with
    busMaster := true, msixEn := en, msixMask := mask, sent := s.host.sent ++ s.host.kept, kept := [] } }) ∧
  (∀ (s : State) (en mask : Bool), ∃ t, exec (.busMasterEnable en mask) s = .next t ∧
    t.bare = (State.bare { s with host := { s.host with busMaster := true, msixEn := en, msixMask := mask } }) ∧ t.event = s.event ∧
    t.host.kept = [] ∧ t.host.keptMsix = [] ∧ ∃ l, t.host.sent = s.host.sent ++ s.host.kept ++ l) ∧
  (∀ (s : State), exec .busMasterDisable s = .next { s with host := { s.host with busMaster := false } }) ∧
  (∀ (s : State) (i : Instr), i ∈ [Instr.pcieLinkDown, .pcieHotReset] → s.host.linkUp = true → s.xch.cur.state ≠ .staging →
    ∃ t, exec i s = .next t ∧ t.bare = (State.bare { s with
        eventEn := Tbl.set 0#32 s.eventEn 13 0#32
        mod := { s.mod with host := {} }
        recorder := { s.recorder with window := Tbl.erase s.recorder.window 0 }
        host := {}
        cfg := { s.cfg with transfers := s.cfg.transfers.filter (fun e => 8 ≤ e.2.sq) } }) ∧
      State.Raises { s with event := Tbl.set 0#32 s.event 13 0#32 } t [(.host, 4)]) ∧
  (∀ (s : State), s.host.linkUp = true → s.xch.cur.state ≠ .staging →
    ∃ t, exec .flr s = .next t ∧ t.bare = (State.bare { s with
        eventEn := Tbl.set 0#32 s.eventEn 13 0#32
        mod := { s.mod with host := {} }
        recorder := { s.recorder with window := Tbl.erase s.recorder.window 0 }
        host := { linkUp := true, speed := s.host.speed, width := s.host.width }
        cfg := { s.cfg with transfers := s.cfg.transfers.filter (fun e => 8 ≤ e.2.sq) } }) ∧
      State.Raises { s with event := Tbl.set 0#32 s.event 13 0#32 } t [(.host, 6)]) ∧
  (∀ (s : State) (i : Instr) (n : Fin 8) (tag : Word), i ∈ [Instr.pcieLinkDown, .pcieHotReset, .flr] → s.host.linkUp = true → s.xch.cur.state = .staging →
    s.xch.written = false → s.xch.stageOrg = .host n tag → ∃ t, exec i s = .next t ∧ t.xch.cur.state = .idle ∧ t.xch.len = 0) ∧
  (∀ (s : State) (sp wd : BitVec 2), s.host.linkUp = false → s.cfg.phase ≠ .rom →
    RunsTo (.pcieLinkUp sp wd) s { s with host := { s.host with linkUp := true, speed := sp, width := wd } } [(.host, 5)]) ∧
  (∀ (s : State) (sp wd : BitVec 2), s.cfg.phase = .rom → exec (.pcieLinkUp sp wd) s = .next s)

/-- The doorbells, the states of a ring and its interrupts (14 R398, R399, R403, R415, R416, R418, *Host block registers*).
Readings of the model: logs 5 and 63. -/
def Obligations.RingStates : Prop :=
  (∀ (s : State) (n : Fin 8) (tail : Nat), (s.host.sq n).state = .enabled → tail ≠ (s.host.sq n).tail → tail < (s.host.sq n).size → tail < 4096 →
    (tail + (s.host.sq n).size - (s.host.sq n).tail) % (s.host.sq n).size ≤ (s.host.sq n).size - 1 - (s.host.sq n).used →
    RunsTo (.sqTailDoorbell n tail) s { s.written .host with host := s.host.setSq n { s.host.sq n with tail := tail } } []) ∧
  (∀ (s : State) (n : Fin 8) (tail : Nat), (s.host.sq n).state = .enabled → tail ≠ (s.host.sq n).tail → tail < 4096 →
    ((s.host.sq n).size ≤ tail ∨
      (s.host.sq n).size - 1 - (s.host.sq n).used < (tail + (s.host.sq n).size - (s.host.sq n).tail) % (s.host.sq n).size) →
    RunsTo (.sqTailDoorbell n tail) s { s.written .host with host := {
      s.host.setSq n { s.host.sq n with state := .error } with
      errInfo := BitVec.ofNat 32 (1 * 2 ^ 28 + n.val * 2 ^ 23) ||| BitVec.ofNat 32 tail
      kept := s.host.kept.filter (fun o => !o.inRing (.sq n)) } } [(.host, 0)]) ∧
  (∀ (s : State) (n : Fin 8) (head : Nat), (s.host.cq n).state = .enabled → head ≠ (s.host.cq n).head → head < (s.host.cq n).size → head < 4096 →
    (head + (s.host.cq n).size - (s.host.cq n).head) % (s.host.cq n).size ≤ (s.host.cq n).used →
    RunsTo (.cqHeadDoorbell n head) s { s.written .host with host := s.host.setCq n { s.host.cq n with head := head } } []) ∧
  (∀ (s : State) (n : Fin 8) (head : Nat), (s.host.cq n).state = .enabled → head ≠ (s.host.cq n).head → head < 4096 →
    ((s.host.cq n).size ≤ head ∨ (s.host.cq n).used < (head + (s.host.cq n).size - (s.host.cq n).head) % (s.host.cq n).size) →
    RunsTo (.cqHeadDoorbell n head) s { s.written .host with host := {
      s.host.setCq n { s.host.cq n with state := .error } with
      errInfo := BitVec.ofNat 32 (2 * 2 ^ 28 + 1 * 2 ^ 26 + n.val * 2 ^ 23) ||| BitVec.ofNat 32 head
      kept := s.host.kept.filter (fun o => !o.inRing (.cq n)) } } [(.host, 0)]) ∧
  (∀ (s : State) (head : Nat), s.host.eq.state = .enabled → head ≠ s.host.eq.head → head < s.host.eq.size → head < 4096 →
    (head + s.host.eq.size - s.host.eq.head) % s.host.eq.size ≤ s.host.eq.used →
    RunsTo (.eqHeadDoorbell head) s { s.written .host with host := { s.host with eq := { s.host.eq with head := head } } } []) ∧
  (∀ (s : State) (head : Nat), s.host.eq.state = .enabled → head ≠ s.host.eq.head → head < 4096 →
    (s.host.eq.size ≤ head ∨ s.host.eq.used < (head + s.host.eq.size - s.host.eq.head) % s.host.eq.size) →
    RunsTo (.eqHeadDoorbell head) s { s.written .host with host := { s.host with
      eq := { s.host.eq with state := .error }
      errInfo := BitVec.ofNat 32 (2 * 2 ^ 28 + 2 * 2 ^ 26) ||| BitVec.ofNat 32 head
      kept := s.host.kept.filter (fun o => !o.inRing .eq) } } [(.host, 0)]) ∧
  (∀ (s : State) (n : Fin 8) (i : Nat) (how : DmaFail), (s.host.sq n).state = .enabled →
    RunsTo (.ringAccessFailure (.sq n) i how) s { s with host := {
      s.host.setSq n { s.host.sq n with state := .error } with
      errInfo := BitVec.ofNat 32 (3 * 2 ^ 28 + n.val * 2 ^ 23) ||| BitVec.ofNat 32 (i % 4096)
      kept := s.host.kept.filter (fun o => !o.inRing (.sq n)) } } [(.host, 0)]) ∧
  (∀ (s : State) (n : Fin 8) (i : Nat) (how : DmaFail), (s.host.cq n).state = .enabled →
    RunsTo (.ringAccessFailure (.cq n) i how) s { s with host := {
      s.host.setCq n { s.host.cq n with state := .error } with
      errInfo := BitVec.ofNat 32 (4 * 2 ^ 28 + 1 * 2 ^ 26 + n.val * 2 ^ 23) ||| BitVec.ofNat 32 (i % 4096)
      kept := s.host.kept.filter (fun o => !o.inRing (.cq n)) } } [(.host, 0)]) ∧
  (∀ (s : State) (n : Fin 8), (s.host.sq n).state = .stopping → s.host.inFlight n = 0 →
    RunsTo (.ringStopped n) s { s with host := s.host.setSq n { s.host.sq n with state := .disabled, aborted := false } }
      (if (s.host.sq n).aborted then [(.host, 7)] else [])) ∧
  (∀ (s : State) (n : Fin 8), (s.host.cq n).irqPend ≠ 0 →
    (s.host.cq n).irqNs + Bits.get (s.host.cq n).cfg 0 8 * 10000 ≤ s.nowNs + 9999 → exec (.msixCoalesceTimeout (.cq n)) s = .next { s with
    host := (s.host.setCq n { s.host.cq n with irqPend := 0 }).interrupt (Bits.get (s.host.cq n).cfg 16 5) }) ∧
  (∀ (s : State), s.host.eq.irqPend ≠ 0 → s.host.eq.irqNs + Bits.get s.host.eq.cfg 0 8 * 10000 ≤ s.nowNs + 9999 → s.host.busMaster = true → s.host.msixEn = true → s.host.masked (Bits.get s.host.eq.cfg 16 5) = false →
    exec (.msixCoalesceTimeout .eq) s = .next { s with host := { s.host with
      eq := { s.host.eq with irqPend := 0 }
      sent := s.host.sent ++ [.msix (Bits.get s.host.eq.cfg 16 5)] } }) ∧
  (∀ (s : State) (n : Fin 8), (s.host.cq n).irqPend = 0 ∨ s.nowNs + 9999 < (s.host.cq n).irqNs + Bits.get (s.host.cq n).cfg 0 8 * 10000 →
    exec (.msixCoalesceTimeout (.cq n)) s = .next s)

/-- The opcodes of the HOST block that no other unit carries out (13 R380-R385, 14 R405-R411).
Readings of the model: logs 20, 21 and 62. -/
def Obligations.HostCommands : Prop :=
  (∀ (s : State) (n : Fin 8) (d : Desc), s.mod.failed = false → s.host.taken = [{ sq := n.val, desc := d }] → s.host.busMaster = true →
    (s.host.cq (s.host.sq n).bound).state = .enabled → Bits.bit (s.host.cq (s.host.sq n).bound).cfg 15 = false →
    exec (.nop (.host n d.tag)) s = .next { s with free := s.free + 1, host := {
      s.host.setCq (s.host.sq n).bound (s.host.cq (s.host.sq n).bound).advance with
      taken := []
      sent := s.host.sent ++ [.completion (s.host.sq n).bound ((s.host.cq (s.host.sq n).bound).addr (s.host.cq (s.host.sq n).bound).tail) (s.host.cq (s.host.sq n).bound).phase
        { tag := d.tag, opcode := d.opcode, status := 0, detail := 0, sq := n.val, sqHead := (s.host.sq n).head, time := s.detectNs }] } }) ∧
  (∀ (s : State) (d : Desc) (r : Rights), s.mnt.cmds = [{ desc := d }] → s.mnt.session = some r → exec (.nop (.maint d.tag)) s = .next { s with
    mnt := { s.mnt with cmds := [], sent := s.mnt.sent ++ [.completion d.tag d.opcode 0 0 0#64 []] } }) ∧
  (∀ (s : State) (o : Origin) (t b off : Nat),
    EndsTo (.mode o 1 t b off) s { s with cyc := { s.cyc with buf := s.cyc.buf ++ [(.run, o)] } } [] ∧
    EndsTo (.mode o 2 t b off) s { s with cyc := { s.cyc with buf := s.cyc.buf ++ [(.stop, o)] } } [] ∧
    EndsTo (.mode o 3 t b off) s { s with cyc := { s.cyc with buf := s.cyc.buf ++ [(.hold, o)] } } [] ∧
    exec (.mode o 4 t b off) s = exec (.modeStep o t) s ∧ exec (.mode o 5 t b off) s = exec (.breakSet o t b off) s ∧
    EndsTo (.mode o 6 t b off) s { s with cyc := { s.cyc with bps := s.cyc.bps.filter (fun x => x != (t, b, off)) } } []) ∧
  (∀ (s : State) (o : Origin) (m t b off : Nat), 6 < m → exec (.mode o m t b off) s = .next (s.finish o 3 0)) ∧
  (∀ (s : State) (o : Origin) (n off : Nat) (bs : List Byte) (d : AreaDef), n < 256 → s.areaDef n = some d → d.read = false → off + bs.length ≤ d.len →
    EndsTo (.areaWrite o n off bs) s { s with cyc := { s.cyc with areas := Tbl.set {} s.cyc.areas n ((Tbl.get {} s.cyc.areas n).store s.tickNo s.nowNs off bs) } } []) ∧
  (∀ (s : State) (o : Origin) (n off : Nat) (bs : List Byte) (d : AreaDef), s.areaDef n = some d → (d.read = true ∨ d.len < off + bs.length) →
    exec (.areaWrite o n off bs) s = .next (s.finish o 3 0)) ∧
  (∀ (s : State) (o : Origin) (n len : Nat) (addr : DWord) (d : AreaDef), n < 256 → s.areaDef n = some d → d.read = true → (d.len + 3) / 4 * 4 ≤ len →
    exec (.areaRead o n addr len) s = .next ((s.toBuffer o addr
      (Tbl.getList 0#8 (s.task d.task).image d.off d.len ++ List.replicate ((d.len + 3) / 4 * 4 - d.len) 0#8)).complete o 0 0 (s.task d.task).cycle (Bits.natBytes 4 d.len))) ∧
  (∀ (s : State) (o : Origin) (n : Nat) (addr : DWord) (r : Record), s.recorder.head.toNat = n → n + 1 < 2 ^ 64 → s.recorder.oldest ≤ n →
    s.recorder.inEmber n = some r →
    exec (.recRead o n 1 false false addr 512) s = .next ((s.toBuffer o addr (r.wordList.flatMap Bits.bytes32)).complete o 0 0 0#64
      (Bits.natBytes 8 n ++ Bits.natBytes 2 1 ++ Bits.natBytes 2 0))) ∧
  (∀ (s : State) (o : Origin) (first count len : Nat) (peat annex : Bool) (addr : DWord), (count = 0 ∨ 2048 < count ∨ len < count * 512) →
    exec (.recRead o first count peat annex addr len) s = .next (s.finish o 3 0)) ∧
  (∀ (s : State) (o : Origin) (dt : DWord) (ws : List Word), ws.length ≤ 112 → s.recorder.failed = false → s.recorder.overQuota 13 = false →
    exec (.recNote o dt ws) s = .next (State.passed { s with
      recorder := s.recorder.obtain { source := 13, code := 0x100, time := s.tickStart, cycle := s.refCycle, detail := dt, words := ws, origin := o } } o)) ∧
  (∀ (s : State) (o : Origin) (dt : DWord) (ws : List Word), ws.length ≤ 112 → s.recorder.failed = false → s.recorder.overQuota 13 = true →
    EndsTo (.recNote o dt ws) s s [(.recorder, 3)]) ∧
  (∀ (s : State) (o : Origin) (n : Nat) (d : TrigDef), Tbl.get {} s.recorder.trigDefs n = d → d.valid = true → d.kind = .host → s.recorder.failed = false →
    (Tbl.get {} s.recorder.trigs n).holding = false → (s.recorder.fired s.nowNs n).overQuota 16 = false → s.recorder.depth < 64 →
    exec (.trigger o n) s = .next (State.passed { s with recorder := (s.recorder.fired s.nowNs n).obtain { source := 16, code := n, time := s.tickStart, cycle := s.refCycle, words := s.snapshot d.snaps, origin := o } } o)) ∧
  (∀ (s : State) (o : Origin) (n : Nat) (d : TrigDef), Tbl.get {} s.recorder.trigDefs n = d → (d.valid = false ∨ d.kind ≠ .host) →
    exec (.trigger o n) s = .next (s.finish o 1 1)) ∧
  (∀ (s : State) (o : Origin) (src q : Nat), src ≤ 16 → q ≤ 65535 →
    EndsTo (.quota o src q) s { s with recorder := { s.recorder with quota := Tbl.set 0 s.recorder.quota src (q + 1) } } []) ∧
  (∀ (s : State) (o : Origin) (id : Half) (r : Rect) (wf : Fin 8), s.panelDriving = true → s.pnl.judge (.update r wf) = none →
    EndsTo (.panel o id (.update r wf)) s { s with pnl := { s.pnl with
      waiting := s.pnl.waiting ++ [{ id := id, op := .update r wf, origin := o, acked := !s.joined }]
      sent := if s.joined then s.pnl.sent ++ [.request id (.update r wf)] else s.pnl.sent } } [])

/-- Image writes and activations (14 R405, R406, 16 R448-R451, 17 R463-R465, 10 R321).
Readings of the model: logs 17, 55, 59 and 60. -/
def Obligations.ImagesAndActivation : Prop :=
  (∀ (s : State) (o : Origin) (k total len : Nat) (obj : ImageObj), 1 ≤ k → k ≤ 3 → len ≤ total → total ≤ slotSize k → s.slotBusy k = false →
    ∃ t, exec (.imageWrite o k 0 total len true false obj) s = .next t ∧ t.sans [.done] = State.sans [.done] { s with cfg := { s.cfg with
      transfers := Tbl.insert k { sq := originRing o, len := len, total := total } (Tbl.erase s.cfg.transfers k) } } ∧ s.Raises t []) ∧
  (∀ (s : State) (o : Origin) (k off total len : Nat) (obj : ImageObj), 1 ≤ k → k ≤ 3 → off + len ≤ total → total ≤ slotSize k → s.slotBusy k = false →
    s.cfg.transfers.any (fun e => e.1 == k) = true → Tbl.get {} s.cfg.transfers k = { sq := originRing o, len := off, total := total } →
    ∃ t, exec (.imageWrite o k off total len false false obj) s = .next t ∧ t.sans [.done] = State.sans [.done] { s with cfg := { s.cfg with
      transfers := Tbl.insert k { sq := originRing o, len := off + len, total := total } (Tbl.erase s.cfg.transfers k) } } ∧ s.Raises t []) ∧
  (∀ (s : State) (o : Origin) (k total : Nat) (obj : ImageObj), 1 ≤ k → k ≤ 3 → total ≤ slotSize k → s.slotBusy k = false → s.objectOk k obj = true →
    ∃ t, exec (.imageWrite o k 0 total total true true obj) s = .next t ∧ t.sans [.done] = State.sans [.done] { s with
      cfg := ({ s.cfg with transfers := Tbl.erase s.cfg.transfers k } : CfgBlk).putObject obj } ∧ s.Raises t []) ∧
  (∀ (s : State) (o : Origin) (k total : Nat) (obj : ImageObj), 1 ≤ k → k ≤ 3 → total ≤ slotSize k → s.slotBusy k = false → s.objectOk k obj = false →
    exec (.imageWrite o k 0 total total true true obj) s =
      .next (State.finish { s with cfg := { s.cfg with transfers := Tbl.erase s.cfg.transfers k } } o 1 1)) ∧
  (∀ (s : State) (o : Origin) (c : StationCfg), s.cfg.staged.body = some c → s.switchReason (some c) = 0 → s.cfg.phase ≠ .noConfig → s.twin.link = .severed →
    s.cyc.mode ≠ .run →
    ∃ t, exec (.activateConfig o) s = .next t ∧ t.sans [.done] = State.sans [.done] { s with cfg := { s.cfg.writeHeader with
      pend := some { cfg := c, effect := .tick (s.tickNo + 199), task := none, origin := o }, refTask := 0, reason := 0 } } ∧ s.Raises t []) ∧
  (∀ (s : State) (o : Origin) (c : StationCfg) (n : Nat), s.cfg.staged.body = some c → s.switchReason (some c) = 0 → s.cfg.phase ≠ .noConfig →
    s.twin.link = .severed → s.cyc.mode = .run → s.refTask = some n →
    ∃ t, exec (.activateConfig o) s = .next t ∧ t.sans [.done] = State.sans [.done] { s with cfg := { s.cfg.writeHeader with
      pend := some { cfg := c, effect := .tick (s.tickNo + 199), task := some n, origin := o }, refTask := n, reason := 0 } } ∧ s.Raises t []) ∧
  (∀ (s : State) (o : Origin), s.switchReason s.cfg.staged.body ≠ 0 →
    ∃ t, exec (.activateConfig o) s = .next t ∧ t.sans [.done] = State.sans [.done] { s with cfg := { s.cfg with reason := s.switchReason s.cfg.staged.body, refuseCnt := Bits.inc s.cfg.refuseCnt } } ∧ s.Raises t ((.cfg, 1) :: if s.switchReason s.cfg.staged.body == 4 then [(.fab, 10)] else [])) ∧
  (∀ (s : State) (o : Origin) (c : StationCfg), s.cfg.staged.body = some c → s.switchReason (some c) = 0 → s.cfg.phase ≠ .noConfig →
    s.leads = true → s.twin.link = .joined → s.twin.linkUp = true →
    ∃ t, exec (.activateConfig o) s = .next t ∧ t.sans [.done] = State.sans [.done] { s with cfg := { s.cfg with asking := some (c, o) }, twin := s.twin.send (.copy (.config c)) } ∧ s.Raises t []) ∧
  (∀ (s : State) (o : Origin) (c : StationCfg), s.cfg.staged.body = some c → s.switchReason (some c) = 0 → s.cfg.phase = .noConfig →
    ∃ t, exec (.activateConfig o) s = .next t ∧ t.cfg.slotLoaded = !s.cfg.slotLoaded ∧ t.cfg.cur = c ∧ t.cfg.loaded = true ∧
      t.cfg.phase = (if s.cfg.lanes then .twinSearch else .verify) ∧ t.cfg.searchAt = s.mod.uptime ∧
      t.cfg.switchCnt = Bits.inc s.cfg.switchCnt ∧ t.raised .cfg 0 = true) ∧
  (∀ (s : State) (p : CfgSwitch) (k : Nat), s.cfg.pend = some p → p.task = none → p.effect = .tick k → k < s.tickNo → s.twin.link = .severed →
    ∃ t, exec .configSwitchInstant s = .next t ∧
      Changes .configSwitchInstant s t [.mod, .mnt, .recorder, .done, .time, .dio, .aio, .ax, .pnl, .net, .cyc, .cfg] [(.cfg, 0), (.time, 7), (.time, 8), (.pnl, 0), (.mnt, 1)] ∧
      t.raised .cfg 0 = true ∧ t.cfg.slotLoaded = !s.cfg.slotLoaded ∧ t.cfg.cur = p.cfg ∧ t.cfg.pend = none ∧ t.cfg.switchCnt = Bits.inc s.cfg.switchCnt ∧
      t.recorder.quota = p.cfg.quotas ∧
      (if s.cfg.loaded then t.recorder.nextDefs = some p.cfg.trigs ∧ t.recorder.trigDefs = s.recorder.trigDefs else t.recorder.trigDefs = p.cfg.trigs) ∧
      t.time.cfg = p.cfg.timeCfg ∧ t.net.pairCfg = p.cfg.pairCfg ∧ t.pnl.cfg = p.cfg.pnl) ∧
  (∀ (s : State), s.cfg.pend = none → exec .configSwitchInstant s = .next s) ∧
  (∀ (s : State) (o : Origin) (x : SafetyObj), s.follows = true → s.twin.link = .joined → s.cfg.idleSafe = some x → s.objectOk 2 (.safety x) = true → s.cfg.safeOrg = none →
    ∃ t, exec (.activateSafety o) s = .next t ∧ t.sans [.done] = State.sans [.done] { s with cfg := { s.cfg with safeOrg := some o } } ∧ s.Raises t []) ∧
  (∀ (s : State) (o : Origin), s.twin.link ≠ .joined → exec (.activateSafety o) s = .next (s.finish o 1 5)) ∧
  (∀ (s : State) (o : Origin) (e : Fin 16) (f : FirmObj), s.cfg.idleFirm = some f → f.ok = true →
    (f.line = Bits.get s.mod.fwRelease 24 8 ∨ s.cyc.mode = .stop) → s.fab.count Engine.counts = 16 →
    s.exchangeArmed = false →
    ∃ t, exec (.activateFwEngine o e) s = .next t ∧ t.sans [.done] = State.sans [.done] { s with fab := {
      s.fab.setEngine e { s.fab.engine e with state := if (s.fab.engine e).run.isNone then .drained else .draining } with
      fwCmd := some (e.val, o) } } ∧ s.Raises t []) ∧
  (∀ (s : State) (o : Origin) (e : Fin 16) (f : FirmObj), s.cfg.idleFirm = some f → f.ok = true →
    (f.line = Bits.get s.mod.fwRelease 24 8 ∨ s.cyc.mode = .stop) → s.fab.count (fun x => x.state == .available) < 16 →
    ∃ t, exec (.activateFwEngine o e) s = .next t ∧ t.sans [.done] = State.sans [.done] { s with fab := { s.fab with drainCnt := Bits.inc s.fab.drainCnt } } ∧ s.Raises t [(.fab, 11)]) ∧
  (∀ (s : State) (o : Origin) (f : FirmObj), s.cfg.idleFirm = some f → f.ok = true → s.cfg.phase = .rom →
    ∃ t, exec (.activateFwModule o) s = .next t ∧ t.sans [.done] = State.sans [.done] { s with cfg := { s.cfg with firmOnB := !s.cfg.firmOnB } } ∧ s.Raises t []) ∧
  (∀ (s : State) (o : Origin) (f : FirmObj), s.cfg.idleFirm = some f → f.ok = true → s.cfg.phase ≠ .rom → f.line = Bits.get s.mod.fwRelease 24 8 →
    (List.range 16).all (fun e => (s.fab.engine e).fw == .updated) = true → s.follows = true → s.twin.link = .joined → s.exchangeArmed = false →
    s.configuredTasks ≠ [] →
    ∃ t, exec (.activateFwModule o) s = .next t ∧ t.sans [.done] = State.sans [.done] { s with cfg := { s.cfg with fwOrg := some o, fwWait := true } } ∧ s.Raises t []) ∧
  (∀ (s : State) (o : Origin) (f : FirmObj), s.cfg.idleFirm = some f → f.ok = true → s.cfg.phase ≠ .rom → f.line ≠ Bits.get s.mod.fwRelease 24 8 →
    s.cyc.mode = .stop → (List.range 16).all (fun e => (s.fab.engine e).fw == .updated) = true → s.exchangeArmed = false →
    exec (.activateFwModule o) s = .next (State.restart { s with cfg := { s.cfg with firmOnB := !s.cfg.firmOnB } }))

/-- Enumeration and authentication of the RX units (16 R455-R458, 02 R62).
Readings of the model: logs 58 and 99. -/
def Obligations.RickEnumeration : Prop :=
  (∀ (s : State) (c : Bool), s.enumerates = true → s.gateOpen = true → (c = true → s.cfg.enumCmd = false) →
    (c = false → s.cfg.collecting = false ∧ s.enumDue = true) →
    exec (.enumerate c) s = .next { s with cfg := { s.cfg with
      collecting := true, enumAt := some s.mod.uptime, enumCmd := s.cfg.enumCmd || c, enumCnt := Bits.inc s.cfg.enumCnt, units := Tbl.map {} RxUnit.unseen s.cfg.units
      sent := s.cfg.sent ++ [.enum] } }) ∧
  (∀ (s : State), s.enumerates = false ∨ s.cfg.enumCmd = true → RunsTo (.enumerate true) s s [(.cfg, 12)]) ∧
  (∀ (s : State), s.enumerates = false ∨ s.cfg.collecting = true ∨ s.enumDue = false → exec (.enumerate false) s = .next s) ∧
  (∀ (s : State) (ds : List (Fin 6 × Nat)), s.cfg.collecting = true → s.elapsed s.cfg.enumAt 100 = true → ∃ t, Changes (.enumCollectEnd ds) s t [.cfg] [(.cfg, 8), (.cfg, 9)] ∧
    t.cfg.collecting = false ∧ t.cfg.enumCmd = false ∧
    (∀ u : Nat, (s.cfg.unit u).seen = true → ∃ d, t.cfg.unit u = { s.cfg.unit u with delay := d }) ∧
    (∀ u : Nat, 1 ≤ u → u ≤ 6 → (s.cfg.unit u).seen = false → (t.cfg.unit u).hops0 = 0 ∧ (t.cfg.unit u).hops1 = 0 ∧
      (t.cfg.unit u).state ≠ .authenticating) ∧
    (t.cfg.broken = true ↔ ∃ u : Nat, 1 ≤ u ∧ u ≤ 6 ∧ (t.cfg.unit u).half = true)) ∧
  (∀ (s : State) (ds : List (Fin 6 × Nat)), s.cfg.collecting = false ∨ s.elapsed s.cfg.enumAt 100 = false → exec (.enumCollectEnd ds) s = .next s) ∧
  (∀ (s : State) (q : DWord) (p : Fin 6) (a b : Fin 8), s.twin.started = true → (s.holdsToken = true → s.cfg.collecting = true) →
    s.enrolledAt (p.val + 1) q a = true → (s.cfg.unit (p.val + 1)).state = .absent → s.gateOpen = true → s.mod.failed = false →
    ∃ t, Changes (.ident q p a b) s t [.cfg] [(.cfg, 8), (.cfg, 9)] ∧
      t.cfg.unit (p.val + 1) = { s.cfg.unit (p.val + 1) with
        seen := true, hops0 := a, hops1 := b, position := p.val + 1, state := .authenticating } ∧
      (∀ u : Nat, u ≠ p.val + 1 → t.cfg.unit u = s.cfg.unit u) ∧ t.cfg.sent = s.cfg.sent ++ [.auth (p.val + 1)]) ∧
  (∀ (s : State) (q : DWord) (p : Fin 6) (a b : Fin 8), s.twin.started = true → (s.holdsToken = true → s.cfg.collecting = true) →
    s.enrolledAt (p.val + 1) q a = false →
    ∃ t, Changes (.ident q p a b) s t [.cfg] [(.cfg, 7), (.cfg, 8), (.cfg, 9)] ∧ t.raised .cfg 7 = true ∧
      (t.cfg.unit (p.val + 1)).state = .authFailed ∧ t.cfg.sent = s.cfg.sent ∧ (∀ u : Nat, u ≠ p.val + 1 → t.cfg.unit u = s.cfg.unit u)) ∧
  (∀ (s : State) (q : DWord) (p : Fin 6) (a b : Fin 8), s.holdsToken = true → s.cfg.collecting = false → exec (.ident q p a b) s = .next s) ∧
  (∀ (s : State) (u : Fin 6) (m x : BitVec 128), (s.cfg.unit (u.val + 1)).state = .authenticating → s.cfg.enrolled (u.val + 1) = true →
    ∃ t, Changes (.rxAuth u true m x) s t [.cyc, .cfg] [(.cyc, 3)] ∧ t.raised .cyc 3 = true ∧ (t.cfg.unit (u.val + 1)).state = .onLine ∧
      (t.cfg.unit (u.val + 1)).failRun = 0 ∧ (t.cfg.unit (u.val + 1)).since = s.nowNs ∧ (t.cfg.unit (u.val + 1)).good = [] ∧
      (t.cfg.unit (u.val + 1)).key = s.unitKey (u.val + 1) m x ∧ (t.cfg.unit (u.val + 1)).ctr = 0#64 ∧
      ∀ v : Nat, v ≠ u.val + 1 → t.cfg.unit v = s.cfg.unit v) ∧
  (∀ (s : State) (u : Fin 6) (m x : BitVec 128), ((s.cfg.unit (u.val + 1)).state = .authenticating ∨ (s.cfg.unit (u.val + 1)).state = .onLine) →
    ∃ t, Changes (.rxAuth u false m x) s t [.cfg] [(.cfg, 7)] ∧ t.raised .cfg 7 = true ∧ (t.cfg.unit (u.val + 1)).state = .authFailed ∧
      (t.cfg.unit (u.val + 1)).good = [] ∧ ∀ v : Nat, v ≠ u.val + 1 → t.cfg.unit v = s.cfg.unit v) ∧
  (∀ (s : State), s.cfg.collecting = false → s.enumerates = true → s.cfg.rick ≠ .formed → (∀ u : Nat, (s.cfg.unit u).seen = true → (s.cfg.unit u).state = .onLine) →
    RunsTo .rickFormed s { s with cfg := { s.cfg with rick := .formed, phase := if s.cfg.phase = .rick then .time else s.cfg.phase } } [(.cfg, 5)]) ∧
  (∀ (s : State) (u : Fin 6), s.cfg.collecting = false → s.enumerates = true → s.cfg.rick ≠ .formed →
    (∀ v : Nat, (s.cfg.unit v).seen = true → (s.cfg.unit v).state ≠ .authenticating) →
    (s.cfg.unit (u.val + 1)).seen = true → (s.cfg.unit (u.val + 1)).state = .authFailed →
    RunsTo .rickFormed s { s with cfg := { s.cfg with rick := .refused, phase := if s.cfg.phase = .rick then .time else s.cfg.phase } } [(.cfg, 6)])

/-- Polls, replies, acknowledgements and losses of RX units (02 R58, R60, R61, 16 R455, R457, R458).
Readings of the model: logs 58 and 99. -/
def Obligations.RickService : Prop :=
  (∀ (s : State) (u : Fin 6) (d : Nat), s.mod.failed = false → s.elapsed s.cfg.delayAt 100000 = true → exec (.pathDelayMeasure [(u, d)]) s =
    .next { s with cfg := { s.cfg with delayAt := some s.mod.uptime, units := Tbl.mod {} s.cfg.units (u.val + 1) (fun x => { x with delay := d }) } }) ∧
  (∀ (s : State) (l : List (Fin 6 × Nat)), s.mod.failed = true ∨ s.elapsed s.cfg.delayAt 100000 = false → exec (.pathDelayMeasure l) s = .next s) ∧
  (∀ (s : State), s.cfg.rick ≠ .formed ∨ s.mod.failed = true ∨ s.elapsed s.cfg.pollAt 1 = false → exec .rickPoll s = .next s) ∧
  (∀ (s : State), s.cfg.rick = .formed → s.mod.failed = false → s.elapsed s.cfg.pollAt 1 = true → ∃ t, Changes .rickPoll s t [.cfg, .twin] [] ∧
    (∀ u : Nat, (s.cfg.unit u).state ≠ .onLine → t.cfg.unit u = s.cfg.unit u) ∧
    (∀ u : Nat, 1 ≤ u → u ≤ 6 → (s.cfg.unit u).state = .onLine → t.cfg.unit u = { s.cfg.unit u with
      polled := true, answered := false, ctr := (s.cfg.unit u).ctr + 1#64
      failRun := if (s.cfg.unit u).polled = true ∧ (s.cfg.unit u).answered = false then (s.cfg.unit u).failRun + 1 else (s.cfg.unit u).failRun
      failCnt := if (s.cfg.unit u).polled = true ∧ (s.cfg.unit u).answered = false then Bits.inc (s.cfg.unit u).failCnt
        else (s.cfg.unit u).failCnt })) ∧
  (∀ (s : State) (u : Fin 6) (a b : Fin 8) (l : List RxSamples), s.cfg.rick = .formed → (s.cfg.unit (u.val + 1)).state = .onLine →
    ∃ t, Changes (.reply u a b l) s t [.cfg, .twin] [(.cfg, 8), (.cfg, 9)] ∧
      t.cfg.unit (u.val + 1) = { s.cfg.unit (u.val + 1) with
        answered := true, failRun := 0, hops0 := a, hops1 := b
        good := if s.mod.ready then takeSamples l (s.cfg.unit (u.val + 1)).good else (s.cfg.unit (u.val + 1)).good } ∧
      (∀ v : Nat, v ≠ u.val + 1 → t.cfg.unit v = s.cfg.unit v) ∧
      (t.cfg.broken = true ↔ ∃ v : Nat, 1 ≤ v ∧ v ≤ 6 ∧ (t.cfg.unit v).half = true)) ∧
  (∀ (s : State) (u : Fin 6) (a b : Fin 8) (l : List RxSamples), s.cfg.rick = .formed → (s.cfg.unit (u.val + 1)).state = .lost →
    exec (.reply u a b l) s = .next (s.modUnit (u.val + 1) (fun x => { x with
      good := if s.mod.ready then takeSamples (l.filter (fun g => g.t0 / 10000 == x.lostAt)) x.good else x.good }))) ∧
  (∀ (s : State) (u : Fin 6) (a b : Fin 8) (l : List RxSamples), s.cfg.rick ≠ .formed ∨ (s.cfg.unit (u.val + 1)).state ≠ .onLine ∧ (s.cfg.unit (u.val + 1)).state ≠ .lost →
    exec (.reply u a b l) s = .next s) ∧
  (∀ (s : State) (u : Fin 6) (n : Fin 32) (o : RxOut), (s.cfg.unit (u.val + 1)).state = .onLine → Tbl.get {} (s.cfg.unit (u.val + 1)).outs n = o →
    (s.cfg.unit (u.val + 1)).outs.any (fun e => e.1 == n.val) = true → o.dropped = false →
    ∃ t, exec (.ack u n o.cycle) s = .next t ∧ Tbl.get {} (t.cfg.unit (u.val + 1)).outs n = { o with acked := true } ∧
      t = { s with cfg := { s.cfg with units := t.cfg.units } } ∧ ∀ v : Nat, v ≠ u.val + 1 → t.cfg.unit v = s.cfg.unit v) ∧
  (∀ (s : State) (u : Fin 6), (s.cfg.unit (u.val + 1)).state = .onLine → 3 ≤ (s.cfg.unit (u.val + 1)).missed →
    ∃ t, Changes (.unitLost u) s t [.cfg, .twin] [(.cyc, 2)] ∧ t.raised .cyc 2 = true ∧ (t.cfg.unit (u.val + 1)).state = .lost ∧
      (t.cfg.unit (u.val + 1)).polled = false ∧ (t.cfg.unit (u.val + 1)).lostAt = s.tickNo ∧
      (t.cfg.unit (u.val + 1)).outs = Tbl.map {} (fun (o : RxOut) => { o with dropped := !o.acked }) (s.cfg.unit (u.val + 1)).outs ∧
      ∀ v : Nat, v ≠ u.val + 1 → t.cfg.unit v = s.cfg.unit v) ∧
  (∀ (s : State) (u : Fin 6), (s.cfg.unit (u.val + 1)).missed < 3 → exec (.unitLost u) s = .next s) ∧
  (∀ (s : State) (n : Fin 32), (s.taskCfg n).kind = 1 → (s.taskCfg n).nextTick s.tickNo ≤ s.tickNo + 2 → ∃ t, exec (.rxAckDeadline n) s = .next t ∧ t = { s with cfg := { s.cfg with units := t.cfg.units } } ∧
    ∀ (v : Nat) (x : RxUnit), (v, x) ∈ s.cfg.units → x ≠ {} → ∃ y, (v, y) ∈ t.cfg.units ∧ y = { x with outs := y.outs } ∧
      y.outs.length = x.outs.length ∧
      ∀ (m : Nat) (o : RxOut), (m, o) ∈ x.outs → (m, if m = n.val ∧ o.acked = false then { o with dropped := true } else o) ∈ y.outs)
end

