-- ==== Sys2Proof/Laws/Kept.lean ====
section
/-! SUPPORT. Laws/Kept.lean: what hardly any command touches: the queue, the peat layer, the fault annex, the submission
rings, the serial number, the revision and the ROM version. -/
set_option Elab.async false
namespace Sys2Proof.Machine

/-- The part of a state that only the writing of records, the rings' own commands and a start-up move. -/
def State.kept (s : State) : List Instr × Tbl Record × List Record × Tbl SubRing × DWord × Word × List Nat :=
  (s.pending, s.recorder.peat, s.recorder.annex, s.host.sqs, s.mod.serial, s.mod.revision, s.recorder.spares)

theorem State.kept_pending {s t : State} (h : t.kept = s.kept) : t.pending = s.pending := congrArg (fun x => x.1) h
theorem State.kept_peat {s t : State} (h : t.kept = s.kept) : t.recorder.peat = s.recorder.peat := congrArg (fun x => x.2.1) h
theorem State.kept_annex {s t : State} (h : t.kept = s.kept) : t.recorder.annex = s.recorder.annex := congrArg (fun x => x.2.2.1) h
theorem State.kept_spares {s t : State} (h : t.kept = s.kept) : t.recorder.spares = s.recorder.spares := congrArg (fun x => x.2.2.2.2.2.2) h
theorem State.kept_sqs {s t : State} (h : t.kept = s.kept) : t.host.sqs = s.host.sqs := congrArg (fun x => x.2.2.2.1) h

/-- Two states agree on the kept part when they agree on the blocks that hold it. -/
theorem State.kept_of {s t : State} (hp : t.pending = s.pending) (hr : t.recorder = s.recorder) (hh : t.host = s.host)
    (hm : t.mod = s.mod) : t.kept = s.kept := by simp [State.kept, hp, hr, hh, hm]

theorem State.kept_foldl {α : Type} (f : State → α → State) (h : ∀ s a, (f s a).kept = s.kept) (l : List α) (s : State) :
    (l.foldl f s).kept = s.kept := by
  induction l generalizing s with
  | nil => rfl
  | cons a l ih => simp only [List.foldl_cons, ih, h]

theorem State.kept_fold {α : Type} (f : State → α → State) (h : ∀ s a, (f s a).kept = s.kept) (l : List α) {s : State}
    {k : List Instr × Tbl Record × List Record × Tbl SubRing × DWord × Word × List Nat} (hs : s.kept = k) : (l.foldl f s).kept = k :=
  (State.kept_foldl f h l s).trans hs

theorem State.kept_foldl_fst {α β : Type} (f : State × β → α → State × β) (h : ∀ a x, (f a x).1.kept = a.1.kept) (l : List α)
    (a : State × β) : (l.foldl f a).1.kept = a.1.kept := by
  induction l generalizing a with
  | nil => rfl
  | cons x l ih => simp only [List.foldl_cons, ih, h]

theorem State.kept_ite (c : Prop) [Decidable c] (a b : State) : (if c then a else b).kept = if c then a.kept else b.kept :=
  apply_ite State.kept c a b

@[simp] theorem State.kept_mk (s : State) (event eventEn : Tbl Word) (mod : ModBlk) (mnt : MntBlk) (recorder : Recorder) (host : HostBlk)
    (time : TimeBlk) (dio : Dio) (aio : Aio) (safe : Safe) (ax : AxBlk) (pnl : PnlBlk) (net : NetBlk) (cyc : CycBlk) (fab : FabBlk)
    (twin : TwinBlk) (xch : XchBlk) (cfg : CfgBlk) (free : Nat) (hp : recorder.peat = s.recorder.peat)
    (ha : recorder.annex = s.recorder.annex) (hq : host.sqs = s.host.sqs) (hs : mod.serial = s.mod.serial)
    (hr : mod.revision = s.mod.revision) (hx : recorder.spares = s.recorder.spares) :
    (State.mk event eventEn mod mnt recorder host time dio aio safe ax pnl net cyc fab twin xch cfg free s.pending).kept = s.kept := by
  simp [State.kept, hp, ha, hq, hs, hr, hx]

/-! The host block and the recorder keep theirs. -/

@[simp] theorem HostBlk.sqs_emit (h : HostBlk) (o : HostOut) : (h.emit o).sqs = h.sqs := by unfold HostBlk.emit; split <;> rfl
@[simp] theorem HostBlk.sqs_interrupt (h : HostBlk) (v : Nat) : (h.interrupt v).sqs = h.sqs := by
  unfold HostBlk.interrupt; split
  · rfl
  · split
    · rfl
    · split <;> rfl
@[simp] theorem HostBlk.sqs_eqPut (h : HostBlk) (e : EventEntry) : (h.eqPut e).sqs = h.sqs := by
  unfold HostBlk.eqPut; simp only; split <;> simp
@[simp] theorem HostBlk.sqs_setCq (h : HostBlk) (n : Nat) (q : OutRing) : (h.setCq n q).sqs = h.sqs := by cases h; rfl
@[simp] theorem HostBlk.sqs_cqPut (h : HostBlk) (cq : Nat) (c : Completion) : (h.cqPut cq c).sqs = h.sqs := by
  unfold HostBlk.cqPut; simp only; split
  · rfl
  · split <;> simp
@[simp] theorem Recorder.peat_countRefusal (r : Recorder) (n : Nat) : (r.countRefusal n).peat = r.peat := by cases r; rfl
@[simp] theorem Recorder.annex_countRefusal (r : Recorder) (n : Nat) : (r.countRefusal n).annex = r.annex := by cases r; rfl
@[simp] theorem Recorder.peat_obtain (r : Recorder) (q : RecReq) : (r.obtain q).peat = r.peat := by cases r; rfl
@[simp] theorem Recorder.annex_obtain (r : Recorder) (q : RecReq) : (r.obtain q).annex = r.annex := by cases r; rfl
@[simp] theorem Recorder.peat_fired (r : Recorder) (now n : Nat) : (r.fired now n).peat = r.peat := by cases r; rfl
@[simp] theorem Recorder.spares_countRefusal (r : Recorder) (n : Nat) : (r.countRefusal n).spares = r.spares := by cases r; rfl
@[simp] theorem Recorder.spares_obtain (r : Recorder) (q : RecReq) : (r.obtain q).spares = r.spares := by cases r; rfl
@[simp] theorem Recorder.spares_fired (r : Recorder) (now n : Nat) : (r.fired now n).spares = r.spares := by cases r; rfl
@[simp] theorem Recorder.annex_fired (r : Recorder) (now n : Nat) : (r.fired now n).annex = r.annex := by cases r; rfl

/-! The shared operations. -/

@[simp] theorem State.kept_mntEvent (s : State) (e : EventEntry) : (s.mntEvent e).kept = s.kept := by
  unfold State.mntEvent; repeat' split
  all_goals simp
@[simp] theorem State.kept_eventPut (s : State) (e : EventEntry) : (s.eventPut e).1.kept = s.kept := by
  unfold State.eventPut; simp only; repeat' split
  all_goals simp
@[simp] theorem State.kept_rawEvent (s : State) (b : Block) (bit : Nat) : (s.rawEvent b bit).kept = s.kept := by simp [State.rawEvent]
@[simp] theorem State.kept_entryNow (s : State) (e : EventEntry) : (s.entryNow e).1.kept = s.kept := by simp [State.entryNow]
@[simp] theorem State.kept_capture (s : State) (n : Nat) (k : DWord) (o : Origin) : (s.capture n k o).1.kept = s.kept := by
  unfold State.capture; simp only; repeat' split
  all_goals simp
@[simp] theorem State.kept_ownEvent (s : State) (b : Block) (bit : Nat) (entry : Bool) : (s.ownEvent b bit entry).1.kept = s.kept := by
  cases entry <;> simp [State.ownEvent]
@[simp] theorem State.kept_setEventN (k : Nat) (s : State) (b : Block) (bit : Nat) (entry : Bool) :
    (State.setEventN k s b bit entry).kept = s.kept := by
  induction k generalizing s b bit entry with
  | zero => unfold State.setEventN; simp only; split <;> simp
  | succ k ih =>
    unfold State.setEventN; simp only
    split <;> (try rw [ih]) <;> (rw [State.kept_foldl]; · simp) <;>
    · intro s n
      have h := State.kept_capture s n s.refCycle .self
      generalize s.capture n s.refCycle .self = c at h
      obtain ⟨s', c⟩ := c
      cases c <;> first | exact h | exact (ih _ _ _ _).trans h
@[simp] theorem State.kept_eventEntry (s : State) (e : EventEntry) : (s.eventEntry e).kept = s.kept := by
  unfold State.eventEntry; simp only; split <;> simp
@[simp] theorem State.kept_ite' (c : Prop) [Decidable c] (a b s : State) (ha : a.kept = s.kept) (hb : b.kept = s.kept) :
    (if c then a else b).kept = s.kept := by split <;> assumption

@[simp] theorem State.kept_setTask (s : State) (n : Nat) (t : TaskSt) : (s.setTask n t).kept = s.kept := by simp [State.setTask]
@[simp] theorem State.kept_modTask (s : State) (n : Nat) (f : TaskSt → TaskSt) : (s.modTask n f).kept = s.kept := by
  simp [State.modTask]
@[simp] theorem State.kept_olvia (s : State) (o : OlviaOut) : (s.olvia o).kept = s.kept := by unfold State.olvia; split <;> simp
theorem State.kept_onFrame (s : State) (f : OlviaHdr) (g : State → State) (h : ∀ t, (g t).kept = t.kept) :
    (s.onFrame f g).kept = s.kept := by
  unfold State.onFrame; simp only []; split <;> simp [h]

theorem keeps_next {s t : State} (h : t.kept = s.kept) :
    ∃ t', (Host.Outcome.next t : Host.Outcome State Fault Refusal) = .next t' ∧ t'.kept = s.kept := ⟨t, rfl, h⟩

end Sys2Proof.Machine
end

