-- ==== Sys2Proof/Laws/KeptIo.lean ====
section
/-! SUPPORT. Laws/KeptIo.lean: what the commands of the input and output blocks leave alone. -/
set_option Elab.async false
set_option maxRecDepth 4000
set_option linter.all false
namespace Sys2Proof.Machine

/-! Machine/Ops.lean -/

@[simp] theorem State.kept_setEvent (s : State) (b : Block) (bit : Nat) :
    (State.setEvent s b bit).kept = s.kept := by
  simp [State.setEvent]
@[simp] theorem State.kept_setEventIf (s : State) (c : Bool) (b : Block) (bit : Nat) :
    (State.setEventIf s c b bit).kept = s.kept := by
  unfold State.setEventIf
  (repeat' split) <;> simp
@[simp] theorem State.kept_request (s : State) (q : RecReq) :
    (State.request s q).1.kept = s.kept := by
  unfold State.request
  (repeat' split) <;> simp
@[simp] theorem State.kept_note (s : State) (src code : Nat) (detail : DWord) :
    (State.note s src code detail).kept = s.kept := by
  simp [State.note]
@[simp] theorem State.kept_eventRecord (s : State) (entry : Bool) (b : Block) (bit obj : Nat) (status : Word) :
    (State.eventRecord s entry b bit obj status).kept = s.kept := by
  unfold State.eventRecord
  simp only []
  (repeat' split) <;> first | (with_reducible rfl) | (simp; done)
@[simp] theorem State.kept_report (s : State) (b : Block) (bit obj : Nat) (status : Word) :
    (State.report s b bit obj status).kept = s.kept := by
  simp [State.report]
@[simp] theorem State.kept_recordEvent (s : State) (b : Block) (bit obj : Nat) (status : Word) :
    (State.recordEvent s b bit obj status).kept = s.kept := by
  simp [State.recordEvent]
@[simp] theorem State.kept_reportIf (s : State) (c : Bool) (b : Block) (bit obj : Nat) (status : Word) :
    (State.reportIf s c b bit obj status).kept = s.kept := by
  unfold State.reportIf
  (repeat' split) <;> simp

/-! Machine/Dio.lean -/

@[simp] theorem State.kept_dioRaise (s : State) (n : Nat) (x : DioDiag) :
    (State.dioRaise s n x).kept = s.kept := by
  unfold State.dioRaise
  (repeat' split) <;> simp
@[simp] theorem State.kept_dioClear (s : State) (n : Nat) (x : DioDiag) :
    (State.dioClear s n x).kept = s.kept := by
  simp [State.dioClear]
@[simp] theorem State.kept_dioDiag (s : State) (n : Nat) (x : DioDiag) (present : Bool) :
    (State.dioDiag s n x present).kept = s.kept := by
  unfold State.dioDiag
  (repeat' split) <;> simp
@[simp] theorem State.kept_dioBadFrame (s : State) (c : Nat) :
    (State.dioBadFrame s c).kept = s.kept := by
  simp [State.dioBadFrame]
@[simp] theorem State.kept_dioDown (s : State) (c seq : Nat) :
    (State.dioDown s c seq).kept = s.kept := by
  simp [State.dioDown]
@[simp] theorem State.kept_dioUp (s : State) (c seq : Nat) (f : UpFrame) :
    (State.dioUp s c seq f).kept = s.kept := by
  simp [State.dioUp]
@[simp] theorem State.kept_dioFrame (s : State) (c : Nat) (crcOk : Bool) (seq : Nat) (f : CrossFrame) :
    (State.dioFrame s c crcOk seq f).kept = s.kept := by
  unfold State.dioFrame
  simp only []
  (repeat' split) <;> first | (with_reducible rfl) | (simp; done)
theorem kept_execCrossingWatchdog (c : Fin 6) (s : State) :
    ∃ s', execCrossingWatchdog c s = .next s' ∧ s'.kept = s.kept := by
  unfold execCrossingWatchdog
  simp only []
  (repeat' split) <;> (with_reducible refine keeps_next ?_) <;> first | (with_reducible rfl) | (simp; done)
theorem kept_execWireBreakBandChange (ch : Fin 96) (band : WbBand) (s : State) :
    ∃ s', execWireBreakBandChange ch band s = .next s' ∧ s'.kept = s.kept := by
  unfold execWireBreakBandChange
  simp only []
  (repeat' split) <;> (with_reducible refine keeps_next ?_) <;> first | (with_reducible rfl) | (simp; done)
theorem kept_execDioInputChange (ch : Fin 96) (level : Bool) (s : State) :
    ∃ s', execDioInputChange ch level s = .next s' ∧ s'.kept = s.kept := by
  unfold execDioInputChange
  (repeat' split) <;> (with_reducible refine keeps_next ?_) <;> first | (with_reducible rfl) | (simp; done)
theorem kept_execOverload (ch : Fin 96) (s : State) :
    ∃ s', execOverload ch s = .next s' ∧ s'.kept = s.kept := by
  unfold execOverload
  simp only []
  (repeat' split) <;> (with_reducible refine keeps_next ?_) <;> first | (with_reducible rfl) | (simp; done)
theorem kept_execCellOverload (c : Fin 6) (currentsMa : List Nat) (s : State) :
    ∃ s', execCellOverload c currentsMa s = .next s' ∧ s'.kept = s.kept := by
  unfold execCellOverload
  simp only []
  (repeat' split) <;> (with_reducible refine keeps_next ?_) <;> first | (with_reducible rfl) | (simp; done) | (simp [State.kept_foldl]; done) | (exact State.kept_fold _ (fun s a => by first | (simp; done) | ((repeat' split) <;> simp)) _ (by simp))
theorem kept_execOverloadRetry (ch : Fin 96) (failed : Bool) (s : State) :
    ∃ s', execOverloadRetry ch failed s = .next s' ∧ s'.kept = s.kept := by
  unfold execOverloadRetry
  simp only []
  (repeat' split) <;> (with_reducible refine keeps_next ?_) <;> first | (with_reducible rfl) | (simp; done)
theorem kept_execOvertemp (ch : Fin 96) (above : Bool) (s : State) :
    ∃ s', execOvertemp ch above s = .next s' ∧ s'.kept = s.kept := by
  unfold execOvertemp
  (repeat' split) <;> (with_reducible refine keeps_next ?_) <;> first | (with_reducible rfl) | (simp; done)
theorem kept_execOpenWire (ch : Fin 96) (present : Bool) (s : State) :
    ∃ s', execOpenWire ch present s = .next s' ∧ s'.kept = s.kept := by
  unfold execOpenWire
  simp only []
  (repeat' split) <;> (with_reducible refine keeps_next ?_) <;> first | (with_reducible rfl) | (simp; done)
theorem kept_execShortSupply (ch : Fin 96) (present ownOut partnerOut : Bool) (s : State) :
    ∃ s', execShortSupply ch present ownOut partnerOut s = .next s' ∧ s'.kept = s.kept := by
  unfold execShortSupply
  simp only []
  (repeat' split) <;> (with_reducible refine keeps_next ?_) <;> first | (with_reducible rfl) | (simp; done)
@[simp] theorem State.kept_dioIsolate (s : State) (n : Nat) :
    (State.dioIsolate s n).kept = s.kept := by
  simp [State.dioIsolate]
theorem kept_execStuckOn (ch : Fin 96) (s : State) :
    ∃ s', execStuckOn ch s = .next s' ∧ s'.kept = s.kept := by
  unfold execStuckOn
  simp only []
  (repeat' split) <;> (with_reducible refine keeps_next ?_) <;> first | (with_reducible rfl) | (simp; done)
@[simp] theorem State.kept_dioCross (s : State) (i j : Nat) :
    (State.dioCross s i j).kept = s.kept := by
  simp [State.dioCross]
theorem kept_execCross (i j : Fin 96) (s : State) :
    ∃ s', execCross i j s = .next s' ∧ s'.kept = s.kept := by
  unfold execCross
  simp only []
  (repeat' split) <;> (with_reducible refine keeps_next ?_) <;> first | (with_reducible rfl) | (simp; done)
theorem kept_execShareLow (ch : Fin 96) (present : Bool) (s : State) :
    ∃ s', execShareLow ch present s = .next s' ∧ s'.kept = s.kept := by
  unfold execShareLow
  simp only []
  (repeat' split) <;> (with_reducible refine keeps_next ?_) <;> first | (with_reducible rfl) | (simp; done)
theorem kept_execTestPulseStart (ch : Fin 96) (demand : Bool) (s : State) :
    ∃ s', execTestPulseStart ch demand s = .next s' ∧ s'.kept = s.kept := by
  unfold execTestPulseStart
  (repeat' split) <;> (with_reducible refine keeps_next ?_) <;> first | (with_reducible rfl) | (simp; done)
@[simp] theorem State.kept_darkEnd (s : State) (n : Nat) (m : PulseMeas) : (s.darkEnd n m).kept = s.kept := by
  unfold State.darkEnd
  split
  · simp
  · split
    · simp
    · extract_lets x
      have hx : x.kept = s.kept := by simp only [x]; split <;> simp
      clear_value x
      split
      · simp [hx]
      · split <;> simp [hx]
@[simp] theorem State.kept_brightEnd (s : State) (n : Nat) (m : PulseMeas) :
    (State.brightEnd s n m).kept = s.kept := by
  unfold State.brightEnd
  (repeat' split) <;> simp
theorem kept_execTestPulseEnd (ch : Fin 96) (meas : PulseMeas) (s : State) :
    ∃ s', execTestPulseEnd ch meas s = .next s' ∧ s'.kept = s.kept := by
  unfold execTestPulseEnd
  simp only []
  (repeat' split) <;> (with_reducible refine keeps_next ?_) <;> first | (with_reducible rfl) | (simp; done)
theorem kept_execCellUv1 (c : Fin 6) (s : State) :
    ∃ s', execCellUv1 c s = .next s' ∧ s'.kept = s.kept := by
  unfold execCellUv1
  (repeat' split) <;> (with_reducible refine keeps_next ?_) <;> first | (with_reducible rfl) | (simp; done)
theorem kept_execCellWarnClear (c : Fin 6) (s : State) :
    ∃ s', execCellWarnClear c s = .next s' ∧ s'.kept = s.kept := by
  unfold execCellWarnClear
  (repeat' split) <;> (with_reducible refine keeps_next ?_) <;> first | (with_reducible rfl) | (simp; done)
theorem kept_execCellSag (c : Fin 6) (s : State) :
    ∃ s', execCellSag c s = .next s' ∧ s'.kept = s.kept := by
  unfold execCellSag
  (repeat' split) <;> (with_reducible refine keeps_next ?_) <;> first | (with_reducible rfl) | (simp; done)
theorem kept_execCellSagExit (c : Fin 6) (s : State) :
    ∃ s', execCellSagExit c s = .next s' ∧ s'.kept = s.kept := by
  unfold execCellSagExit
  (repeat' split) <;> (with_reducible refine keeps_next ?_) <;> first | (with_reducible rfl) | (simp; done)
theorem kept_execCellSupplyLost (c : Fin 6) (s : State) :
    ∃ s', execCellSupplyLost c s = .next s' ∧ s'.kept = s.kept := by
  unfold execCellSupplyLost
  (repeat' split) <;> (with_reducible refine keeps_next ?_) <;> first | (with_reducible rfl) | (simp; done)
theorem kept_execCellSupplyReturn (c : Fin 6) (mv : Nat) (s : State) :
    ∃ s', execCellSupplyReturn c mv s = .next s' ∧ s'.kept = s.kept := by
  unfold execCellSupplyReturn
  simp only []
  (repeat' split) <;> (with_reducible refine keeps_next ?_) <;> first | (with_reducible rfl) | (simp; done)
theorem kept_execCellRecovered (c : Fin 6) (mv : Nat) (s : State) :
    ∃ s', execCellRecovered c mv s = .next s' ∧ s'.kept = s.kept := by
  unfold execCellRecovered
  (repeat' split) <;> (with_reducible refine keeps_next ?_) <;> first | (with_reducible rfl) | (simp; done)

/-! Machine/Aio.lean -/

@[simp] theorem State.kept_aioRaise (s : State) (n : Nat) (x : AioDiag) :
    (State.aioRaise s n x).kept = s.kept := by
  unfold State.aioRaise
  (repeat' split) <;> simp
@[simp] theorem State.kept_aioClear (s : State) (n : Nat) (x : AioDiag) :
    (State.aioClear s n x).kept = s.kept := by
  simp [State.aioClear]
@[simp] theorem State.kept_aioDiag (s : State) (n : Nat) (x : AioDiag) (present : Bool) :
    (State.aioDiag s n x present).kept = s.kept := by
  unfold State.aioDiag
  (repeat' split) <;> simp
@[simp] theorem State.kept_aioBadFrame (s : State) (c : Nat) :
    (State.aioBadFrame s c).kept = s.kept := by
  simp [State.aioBadFrame]
@[simp] theorem State.kept_aioDown (s : State) (c seq : Nat) :
    (State.aioDown s c seq).kept = s.kept := by
  simp [State.aioDown]
@[simp] theorem State.kept_aioUp (s : State) (c seq : Nat) (f : UpFrame) :
    (State.aioUp s c seq f).kept = s.kept := by
  simp [State.aioUp]
@[simp] theorem State.kept_aioFrame (s : State) (c : Nat) (crcOk : Bool) (seq : Nat) (f : CrossFrame) :
    (State.aioFrame s c crcOk seq f).kept = s.kept := by
  unfold State.aioFrame
  simp only []
  (repeat' split) <;> first | (with_reducible rfl) | (simp; done)
theorem kept_execCellFrame (cell : CellId) (crcOk : Bool) (seq : Nat) (f : CrossFrame) (s : State) :
    ∃ s', execCellFrame cell crcOk seq f s = .next s' ∧ s'.kept = s.kept := by
  unfold execCellFrame
  (repeat' split) <;> (with_reducible refine keeps_next ?_) <;> first | (with_reducible rfl) | (simp; done)
@[simp] theorem State.kept_calDefer (s : State) (c : Nat) :
    (State.calDefer s c).kept = s.kept := by
  simp [State.calDefer]
@[simp] theorem State.kept_calAbandon (s : State) :
    (State.calAbandon s).kept = s.kept := by
  simp [State.calAbandon]
theorem kept_execLoopCrossingWatchdog (c : Fin 2) (s : State) :
    ∃ s', execLoopCrossingWatchdog c s = .next s' ∧ s'.kept = s.kept := by
  unfold execLoopCrossingWatchdog
  simp only []
  (repeat' split) <;> (with_reducible refine keeps_next ?_) <;> first | (with_reducible rfl) | (simp; done)
theorem kept_execLoopCellFault (c : Fin 2) (s : State) :
    ∃ s', execLoopCellFault c s = .next s' ∧ s'.kept = s.kept := by
  exact keeps_next (by simp)
theorem kept_execLoopSupplyLow (c : Fin 2) (s : State) :
    ∃ s', execLoopSupplyLow c s = .next s' ∧ s'.kept = s.kept := by
  unfold execLoopSupplyLow
  (repeat' split) <;> (with_reducible refine keeps_next ?_) <;> first | (with_reducible rfl) | (simp; done)
theorem kept_execLoopSupplyNormal (c : Fin 2) (s : State) :
    ∃ s', execLoopSupplyNormal c s = .next s' ∧ s'.kept = s.kept := by
  unfold execLoopSupplyNormal
  (repeat' split) <;> (with_reducible refine keeps_next ?_) <;> first | (with_reducible rfl) | (simp; done)
theorem kept_execLoopSupplyLost (c : Fin 2) (s : State) :
    ∃ s', execLoopSupplyLost c s = .next s' ∧ s'.kept = s.kept := by
  unfold execLoopSupplyLost
  (repeat' split) <;> (with_reducible refine keeps_next ?_) <;> first | (with_reducible rfl) | (simp; done)
theorem kept_execLoopSupplyBack (c : Fin 2) (mv : Nat) (s : State) :
    ∃ s', execLoopSupplyBack c mv s = .next s' ∧ s'.kept = s.kept := by
  unfold execLoopSupplyBack
  (repeat' split) <;> (with_reducible refine keeps_next ?_) <;> first | (with_reducible rfl) | (simp; done)
@[simp] theorem State.kept_bandTo (s : State) (n : Nat) (b : AioBand) :
    (State.bandTo s n b).kept = s.kept := by
  unfold State.bandTo
  simp only []
  (repeat' split) <;> first | (with_reducible rfl) | (simp; done)
theorem kept_execAioConversionDone (results : List (Fin 32 × Int)) (s : State) :
    ∃ s', execAioConversionDone results s = .next s' ∧ s'.kept = s.kept := by
  unfold execAioConversionDone
  simp only []
  (repeat' split) <;> (with_reducible refine keeps_next ?_) <;> first | (with_reducible rfl) | (simp; done) | (simp [State.kept_foldl]; done) | (exact State.kept_fold _ (fun s a => by first | (simp; done) | ((repeat' split) <;> simp)) _ (by simp))
theorem kept_execAioBandChange (ch : Fin 32) (na : Int) (above : Bool) (s : State) :
    ∃ s', execAioBandChange ch na above s = .next s' ∧ s'.kept = s.kept := by
  exact keeps_next (by simp)
theorem kept_execLoopFeedReclose (ch : Fin 32) (kept : Bool) (s : State) :
    ∃ s', execLoopFeedReclose ch kept s = .next s' ∧ s'.kept = s.kept := by
  unfold execLoopFeedReclose
  simp only []
  (repeat' split) <;> (with_reducible refine keeps_next ?_) <;> first | (with_reducible rfl) | (simp; done)
theorem kept_execTrimUpdate (ch : Fin 32) (meanErr : Int) (sawCompliance : Bool) (s : State) :
    ∃ s', execTrimUpdate ch meanErr sawCompliance s = .next s' ∧ s'.kept = s.kept := by
  unfold execTrimUpdate
  simp only []
  (repeat' split) <;> (with_reducible refine keeps_next ?_) <;> first | (with_reducible rfl) | (simp; done)
theorem kept_execMakeupEnter (ch : Fin 32) (samples : List (Int × Int)) (recentChange atLimit : Bool) (s : State) :
    ∃ s', execMakeupEnter ch samples recentChange atLimit s = .next s' ∧ s'.kept = s.kept := by
  unfold execMakeupEnter
  simp only []
  (repeat' split) <;> (with_reducible refine keeps_next ?_) <;> first | (with_reducible rfl) | (simp; done)
theorem kept_execMakeupExit (ch : Fin 32) (iP : Int) (s : State) :
    ∃ s', execMakeupExit ch iP s = .next s' ∧ s'.kept = s.kept := by
  unfold execMakeupExit
  simp only []
  (repeat' split) <;> (with_reducible refine keeps_next ?_) <;> first | (with_reducible rfl) | (simp; done)
theorem kept_execSourceRampEnd (ch : Fin 32) (s : State) :
    ∃ s', execSourceRampEnd ch s = .next s' ∧ s'.kept = s.kept := by
  unfold execSourceRampEnd
  (repeat' split) <;> (with_reducible refine keeps_next ?_) <;> first | (with_reducible rfl) | (simp; done)
theorem kept_execSourceFault (ch : Fin 32) (iOwn : Int) (s : State) :
    ∃ s', execSourceFault ch iOwn s = .next s' ∧ s'.kept = s.kept := by
  unfold execSourceFault
  simp only []
  (repeat' split) <;> (with_reducible refine keeps_next ?_) <;> first | (with_reducible rfl) | (simp; done)
theorem kept_execCompliance (ch : Fin 32) (present : Bool) (s : State) :
    ∃ s', execCompliance ch present s = .next s' ∧ s'.kept = s.kept := by
  unfold execCompliance
  simp only []
  (repeat' split) <;> (with_reducible refine keeps_next ?_) <;> first | (with_reducible rfl) | (simp; done)
theorem kept_execOpenLoop (ch : Fin 32) (present : Bool) (s : State) :
    ∃ s', execOpenLoop ch present s = .next s' ∧ s'.kept = s.kept := by
  unfold execOpenLoop
  simp only []
  (repeat' split) <;> (with_reducible refine keeps_next ?_) <;> first | (with_reducible rfl) | (simp; done)
theorem kept_execReadbackDiff (ch : Fin 32) (present : Bool) (s : State) :
    ∃ s', execReadbackDiff ch present s = .next s' ∧ s'.kept = s.kept := by
  unfold execReadbackDiff
  (repeat' split) <;> (with_reducible refine keeps_next ?_) <;> first | (with_reducible rfl) | (simp; done)
theorem kept_execCalWindowStart (partnerRamping partnerSource : Bool) (s : State) :
    ∃ s', execCalWindowStart partnerRamping partnerSource s = .next s' ∧ s'.kept = s.kept := by
  unfold execCalWindowStart
  (repeat' split) <;> (with_reducible refine keeps_next ?_) <;> first | (with_reducible rfl) | (simp; done)
theorem kept_execCalWindowEnd (offsetNa gainPpm : Int) (s : State) :
    ∃ s', execCalWindowEnd offsetNa gainPpm s = .next s' ∧ s'.kept = s.kept := by
  unfold execCalWindowEnd
  simp only []
  (repeat' split) <;> (with_reducible refine keeps_next ?_) <;> first | (with_reducible rfl) | (simp; done)
theorem kept_execCalWindowAbandon (s : State) :
    ∃ s', execCalWindowAbandon s = .next s' ∧ s'.kept = s.kept := by
  unfold execCalWindowAbandon
  (repeat' split) <;> (with_reducible refine keeps_next ?_) <;> first | (with_reducible rfl) | (simp; done)
theorem kept_execGridSenseSaturated (g : Fin 4) (s : State) :
    ∃ s', execGridSenseSaturated g s = .next s' ∧ s'.kept = s.kept := by
  exact keeps_next (by simp)

/-! Machine/Ax.lean -/

@[simp] theorem State.kept_axEvents (s : State) (l : List Nat) :
    (State.axEvents s l).kept = s.kept := by
  unfold State.axEvents
  exact State.kept_foldl _ (fun s a => by first | (simp; done) | ((repeat' split) <;> simp)) _ _
@[simp] theorem State.kept_axCmd (s : State) (a : Nat) (seq : Word) (f : Axis → AxAns) :
    (State.axCmd s a seq f).kept = s.kept := by
  unfold State.axCmd
  simp only []
  (repeat' split) <;> first | (with_reducible rfl) | (simp; done)
theorem kept_execAxisEnable (a : Fin 4) (seq : Word) (s : State) :
    ∃ s', execAxisEnable a seq s = .next s' ∧ s'.kept = s.kept := by
  exact keeps_next (by simp)
theorem kept_execAxisDisable (a : Fin 4) (seq : Word) (s : State) :
    ∃ s', execAxisDisable a seq s = .next s' ∧ s'.kept = s.kept := by
  exact keeps_next (by simp)
theorem kept_execAxisAppend (a : Fin 4) (seq : Word) (entries : List MoveEntry) (s : State) :
    ∃ s', execAxisAppend a seq entries s = .next s' ∧ s'.kept = s.kept := by
  exact keeps_next (by simp)
theorem kept_execAxisReplace (a : Fin 4) (seq : Word) (entries : List MoveEntry) (s : State) :
    ∃ s', execAxisReplace a seq entries s = .next s' ∧ s'.kept = s.kept := by
  exact keeps_next (by simp)
theorem kept_execAxisStop (a : Fin 4) (seq : Word) (s : State) :
    ∃ s', execAxisStop a seq s = .next s' ∧ s'.kept = s.kept := by
  exact keeps_next (by simp)
theorem kept_execAxisEstop (a : Fin 4) (seq : Word) (s : State) :
    ∃ s', execAxisEstop a seq s = .next s' ∧ s'.kept = s.kept := by
  exact keeps_next (by simp)
theorem kept_execAxisVelocity (a : Fin 4) (seq : Word) (vel : Int) (acc : Nat) (s : State) :
    ∃ s', execAxisVelocity a seq vel acc s = .next s' ∧ s'.kept = s.kept := by
  exact keeps_next (by simp)
theorem kept_execAxisHome (a : Fin 4) (seq : Word) (h : HomeCmd) (s : State) :
    ∃ s', execAxisHome a seq h s = .next s' ∧ s'.kept = s.kept := by
  exact keeps_next (by simp)
theorem kept_execAxisSetRates (a : Fin 4) (seq : Word) (aOvr dOvr : Nat) (s : State) :
    ∃ s', execAxisSetRates a seq aOvr dOvr s = .next s' ∧ s'.kept = s.kept := by
  exact keeps_next (by simp)
theorem kept_execAxisClearFault (a : Fin 4) (seq : Word) (absent : Bool) (s : State) :
    ∃ s', execAxisClearFault a seq absent s = .next s' ∧ s'.kept = s.kept := by
  exact keeps_next (by simp)
@[simp] theorem State.kept_axApply (s : State) (a : Nat) (bs : List Byte) (absent : Bool) :
    (State.axApply s a bs absent).kept = s.kept := by
  simp [State.axApply]
theorem kept_execAxisProfileTick (a : Fin 4) (s : State) :
    ∃ s', execAxisProfileTick a s = .next s' ∧ s'.kept = s.kept := by
  exact keeps_next (by simp)
@[simp] theorem State.kept_axPut (s : State) (a : Nat) (x : Axis) (evs : List Nat) :
    (State.axPut s a x evs).kept = s.kept := by
  simp [State.axPut]
@[simp] theorem State.kept_axEdge (s : State) (a : Nat) (sw : AxSwitch) (active : Bool) (p : Int) :
    (State.axEdge s a sw active p).kept = s.kept := by
  unfold State.axEdge
  simp only []
  (repeat' split) <;> first | (with_reducible rfl) | (simp; done)
@[simp] theorem State.kept_axStall (s : State) (a : Nat) (p : Int) :
    (State.axStall s a p).kept = s.kept := by
  simp [State.axStall]
@[simp] theorem State.kept_axOwnEdge (s : State) (a : Nat) (sw : AxSwitch) (active : Bool) (p : Int) :
    (State.axOwnEdge s a sw active p).kept = s.kept := by
  unfold State.axOwnEdge
  (repeat' split) <;> simp
theorem kept_execAxisLimitEdge (a : Fin 4) (sw : AxSwitch) (active : Bool) (edgePos : Int) (s : State) :
    ∃ s', execAxisLimitEdge a sw active edgePos s = .next s' ∧ s'.kept = s.kept := by
  unfold execAxisLimitEdge
  simp only []
  (repeat' split) <;> (with_reducible refine keeps_next ?_) <;> first | (with_reducible rfl) | (simp; done)
theorem kept_execAxisHomingEdge (a : Fin 4) (sw : AxSwitch) (active : Bool) (edgePos : Int) (s : State) :
    ∃ s', execAxisHomingEdge a sw active edgePos s = .next s' ∧ s'.kept = s.kept := by
  unfold execAxisHomingEdge
  simp only []
  (repeat' split) <;> (with_reducible refine keeps_next ?_) <;> first | (with_reducible rfl) | (simp; done)
theorem kept_execAxisStall (a : Fin 4) (s : State) :
    ∃ s', execAxisStall a s = .next s' ∧ s'.kept = s.kept := by
  unfold execAxisStall
  simp only []
  (repeat' split) <;> (with_reducible refine keeps_next ?_) <;> first | (with_reducible rfl) | (simp; done)
theorem kept_execAxisHoldDelay (a : Fin 4) (s : State) :
    ∃ s', execAxisHoldDelay a s = .next s' ∧ s'.kept = s.kept := by
  unfold execAxisHoldDelay
  simp only []
  (repeat' split) <;> (with_reducible refine keeps_next ?_) <;> first | (with_reducible rfl) | (simp; done)
theorem kept_execAxisStateSave (a : Fin 4) (s : State) :
    ∃ s', execAxisStateSave a s = .next s' ∧ s'.kept = s.kept := by
  unfold execAxisStateSave
  simp only []
  (repeat' split) <;> (with_reducible refine keeps_next ?_) <;> first | (with_reducible rfl) | (simp; done)
@[simp] theorem State.kept_axRemote (s : State) (e : AxEvent) (ago : Nat) : (s.axRemote e ago).kept = s.kept := by
  unfold State.axRemote
  extract_lets f _d x g
  have hx : x.kept = s.kept := by simp only [x]; simp
  have hg : ∀ a, (g a).kept = x.kept := by intro a; simp only [g]; simp
  clear_value g x f
  split <;> simp [hx, hg]
@[simp] theorem State.kept_axTakeover (s : State) :
    (State.axTakeover s).kept = s.kept := by
  unfold State.axTakeover
  exact State.kept_foldl _ (fun s a => by first | (simp; done) | ((repeat' split) <;> simp)) _ _
@[simp] theorem State.kept_axFault (s : State) (a cause bit : Nat) (ramp : Bool) :
    (State.axFault s a cause bit ramp).kept = s.kept := by
  unfold State.axFault
  simp only []
  (repeat' split) <;> first | (with_reducible rfl) | (simp; done)
theorem kept_execAxisBridgeFault (a : Fin 4) (f : BridgeFault) (s : State) :
    ∃ s', execAxisBridgeFault a f s = .next s' ∧ s'.kept = s.kept := by
  unfold execAxisBridgeFault
  (repeat' split) <;> (with_reducible refine keeps_next ?_) <;> first | (with_reducible rfl) | (simp; done)
@[simp] theorem State.kept_vmFault (s : State) (v : VmState) (mv cause bit : Nat) : (s.vmFault v mv cause bit).kept = s.kept := by
  unfold State.vmFault
  extract_lets b s1 s2
  have h : s2.kept = s.kept := State.kept_fold _ (fun s a => by extract_lets; split <;> simp) _ (by simp [s1])
  simp [h]
theorem kept_execVmLow (mv : Nat) (s : State) :
    ∃ s', execVmLow mv s = .next s' ∧ s'.kept = s.kept := by
  unfold execVmLow
  (repeat' split) <;> (with_reducible refine keeps_next ?_) <;> first | (with_reducible rfl) | (simp; done)
theorem kept_execVmOver (mv : Nat) (s : State) :
    ∃ s', execVmOver mv s = .next s' ∧ s'.kept = s.kept := by
  unfold execVmOver
  (repeat' split) <;> (with_reducible refine keeps_next ?_) <;> first | (with_reducible rfl) | (simp; done)
theorem kept_execVmHigh (s : State) :
    ∃ s', execVmHigh s = .next s' ∧ s'.kept = s.kept := by
  unfold execVmHigh
  (repeat' split) <;> (with_reducible refine keeps_next ?_) <;> first | (with_reducible rfl) | (simp; done)
theorem kept_execVmLowClear (s : State) :
    ∃ s', execVmLowClear s = .next s' ∧ s'.kept = s.kept := by
  unfold execVmLowClear
  (repeat' split) <;> (with_reducible refine keeps_next ?_) <;> first | (with_reducible rfl) | (simp; done)
@[simp] theorem State.kept_axProgramStop (s : State) (a : Nat) :
    (State.axProgramStop s a).kept = s.kept := by
  unfold State.axProgramStop
  simp only []
  (repeat' split) <;> first | (with_reducible rfl) | (simp; done)
@[simp] theorem State.kept_axCold (s : State) :
    (State.axCold s).kept = s.kept := by
  simp [State.axCold]

/-! Machine/HostOps.lean -/

@[simp] theorem State.kept_completeHost (s : State) (sq : Nat) (tag : Word) (status detail : Nat) (cycle : DWord) (result : List Byte) :
    (s.completeHost sq tag status detail cycle result).kept = s.kept := by
  unfold State.completeHost; simp only []; split
  · rfl
  · split
    · rfl
    · simp
@[simp] theorem State.kept_completeMnt (s : State) (tag : Word) (status detail : Nat) (cycle : DWord) (result : List Byte) :
    (s.completeMnt tag status detail cycle result).kept = s.kept := by
  unfold State.completeMnt; simp only []; split
  · rfl
  · simp
@[simp] theorem State.kept_complete (s : State) (o : Origin) (status detail : Nat) (cycle : DWord) (result : List Byte) :
    (State.complete s o status detail cycle result).kept = s.kept := by
  unfold State.complete
  (repeat' split) <;> simp
@[simp] theorem State.kept_finish (s : State) (o : Origin) (status detail : Nat) :
    (State.finish s o status detail).kept = s.kept := by
  simp [State.finish]
@[simp] theorem State.kept_passed (s : State) (o : Origin) :
    (State.passed s o).kept = s.kept := by
  unfold State.passed
  (repeat' split) <;> simp

/-! Machine/Safe.lean -/

@[simp] theorem State.kept_setSafe (s : State) (x : Safe) :
    (State.setSafe s x).kept = s.kept := by
  simp [State.setSafe]
@[simp] theorem State.kept_fnTrip (s : State) (f : Nat) (c : FnCause) :
    (State.fnTrip s f c).kept = s.kept := by
  simp [State.fnTrip]
@[simp] theorem State.kept_fnDemand (s : State) (f : Nat) (c : FnCause) :
    (State.fnDemand s f c).kept = s.kept := by
  unfold State.fnDemand
  (repeat' split) <;> simp
@[simp] theorem State.kept_evalDemands (s : State) :
    (State.evalDemands s).kept = s.kept := by
  unfold State.evalDemands
  (repeat' split) <;> first | (with_reducible rfl) | (simp [*]; done) | (simp [*, State.kept_foldl]; done) | (simp +zetaDelta [*]; done) | (exact State.kept_fold _ (fun s a => by first | (simp [*]; done) | ((repeat' split) <;> simp [*])) _ (by simp [*]))
@[simp] theorem State.kept_brakeAbort (s : State) (f : Nat) (why : BrakeEnd) (slip : Word) :
    (State.brakeAbort s f why slip).kept = s.kept := by
  unfold State.brakeAbort
  (repeat' split) <;> simp
@[simp] theorem State.kept_fnActive (s : State) (f : Nat) :
    (State.fnActive s f).kept = s.kept := by
  simp [State.fnActive]
@[simp] theorem State.kept_fnWithdraw (s : State) (f : Nat) (e : FnEntry) :
    (State.fnWithdraw s f e).kept = s.kept := by
  unfold State.fnWithdraw
  (repeat' split) <;> simp
@[simp] theorem State.kept_evalWithdrawn (s : State) :
    (State.evalWithdrawn s).kept = s.kept := by
  unfold State.evalWithdrawn
  (repeat' split) <;> first | (with_reducible rfl) | (simp [*]; done) | (simp [*, State.kept_foldl]; done) | (simp +zetaDelta [*]; done)
@[simp] theorem State.kept_fnFault (s : State) (f : Nat) (c : FnCause) :
    (State.fnFault s f c).kept = s.kept := by
  unfold State.fnFault
  (repeat' split) <;> simp
@[simp] theorem State.kept_fnClear (s : State) (f : Nat) (c : FnCause) :
    (State.fnClear s f c).kept = s.kept := by
  unfold State.fnClear
  simp only []
  (repeat' split) <;> first | (with_reducible rfl) | (simp; done)
@[simp] theorem State.kept_fnFaultAll (s : State) (sel : FnEntry → Bool) (c : FnCause) :
    (State.fnFaultAll s sel c).kept = s.kept := by
  unfold State.fnFaultAll
  exact State.kept_foldl _ (fun s a => by first | (simp; done) | ((repeat' split) <;> simp)) _ _
@[simp] theorem State.kept_fnClearAll (s : State) (sel : FnEntry → Bool) (c : FnCause) :
    (State.fnClearAll s sel c).kept = s.kept := by
  unfold State.fnClearAll
  exact State.kept_foldl _ (fun s a => by first | (simp; done) | ((repeat' split) <;> simp)) _ _
@[simp] theorem State.kept_soRaise (s : State) (n : Nat) (d : SoDiag) :
    (State.soRaise s n d).kept = s.kept := by
  unfold State.soRaise
  simp only []
  (repeat' split) <;> first | (with_reducible rfl) | (simp; done)
theorem kept_execXtlArm (n : Fin 8) (s : State) :
    ∃ s', execXtlArm n s = .next s' ∧ s'.kept = s.kept := by
  unfold execXtlArm
  (repeat' split) <;> (with_reducible refine keeps_next ?_) <;> first | (with_reducible rfl) | (simp; done)
theorem kept_execXtlDemandChange (n : Fin 8) (demand : Bool) (s : State) :
    ∃ s', execXtlDemandChange n demand s = .next s' ∧ s'.kept = s.kept := by
  unfold execXtlDemandChange
  (repeat' split) <;> (with_reducible refine keeps_next ?_) <;> first | (with_reducible rfl) | (simp; done)
theorem kept_execLaneHSipDemand (p : Fin 16) (c1 c2 : Bool) (s : State) :
    ∃ s', execLaneHSipDemand p c1 c2 s = .next s' ∧ s'.kept = s.kept := by
  unfold execLaneHSipDemand
  (repeat' split) <;> (with_reducible refine keeps_next ?_) <;> first | (with_reducible rfl) | (simp; done)
theorem kept_execLaneHDelayDone (n : Fin 8) (s : State) :
    ∃ s', execLaneHDelayDone n s = .next s' ∧ s'.kept = s.kept := by
  unfold execLaneHDelayDone
  (repeat' split) <;> (with_reducible refine keeps_next ?_) <;> first | (with_reducible rfl) | (simp; done)
@[simp] theorem State.kept_laneSample (s : State) (d : Demand) :
    (State.laneSample s d).kept = s.kept := by
  unfold State.laneSample
  (repeat' split) <;> simp
theorem kept_execLanePDemand (d : Demand) (s : State) :
    ∃ s', execLanePDemand d s = .next s' ∧ s'.kept = s.kept := by
  unfold execLanePDemand
  (repeat' split) <;> (with_reducible refine keeps_next ?_) <;> first | (with_reducible rfl) | (simp; done)
theorem kept_execDemandWithdrawn (d : Demand) (s : State) :
    ∃ s', execDemandWithdrawn d s = .next s' ∧ s'.kept = s.kept := by
  unfold execDemandWithdrawn
  (repeat' split) <;> (with_reducible refine keeps_next ?_) <;> first | (with_reducible rfl) | (simp; done)
theorem kept_execTimedStopDelay (f : Fin 64) (s : State) :
    ∃ s', execTimedStopDelay f s = .next s' ∧ s'.kept = s.kept := by
  unfold execTimedStopDelay
  simp only []
  (repeat' split) <;> (with_reducible refine keeps_next ?_) <;> first | (with_reducible rfl) | (simp; done)
theorem kept_execDiscrepancyLatch (lane : Lane) (p : Fin 16) (s : State) :
    ∃ s', execDiscrepancyLatch lane p s = .next s' ∧ s'.kept = s.kept := by
  unfold execDiscrepancyLatch
  simp only []
  (repeat' split) <;> (with_reducible refine keeps_next ?_) <;> first | (with_reducible rfl) | (simp; done)
theorem kept_execDiscrepancyClear (lane : Lane) (p : Fin 16) (s : State) :
    ∃ s', execDiscrepancyClear lane p s = .next s' ∧ s'.kept = s.kept := by
  unfold execDiscrepancyClear
  simp only []
  (repeat' split) <;> (with_reducible refine keeps_next ?_) <;> first | (with_reducible rfl) | (simp; done)
theorem kept_execResetPress (p : Fin 16) (l1 l2 : Bool) (s : State) :
    ∃ s', execResetPress p l1 l2 s = .next s' ∧ s'.kept = s.kept := by
  unfold execResetPress
  simp only []
  (repeat' split) <;> (with_reducible refine keeps_next ?_) <;> first | (with_reducible rfl) | (simp; done)
@[simp] theorem State.kept_resetBy (s : State) (p : Nat) :
    (State.resetBy s p).kept = s.kept := by
  unfold State.resetBy
  exact State.kept_foldl _ (fun s a => by first | (simp; done) | ((repeat' split) <;> simp)) _ _
theorem kept_execResetRelease (p : Fin 16) (l1 l2 : Bool) (d : Option Demand) (s : State) :
    ∃ s', execResetRelease p l1 l2 d s = .next s' ∧ s'.kept = s.kept := by
  unfold execResetRelease
  simp only []
  (repeat' split) <;> (with_reducible refine keeps_next ?_) <;> first | (with_reducible rfl) | (simp; done)
theorem kept_execComparatorTest (lane : Lane) (t : CompTerm) (pass : Bool) (s : State) :
    ∃ s', execComparatorTest lane t pass s = .next s' ∧ s'.kept = s.kept := by
  unfold execComparatorTest
  simp only []
  (repeat' split) <;> (with_reducible refine keeps_next ?_) <;> first | (with_reducible rfl) | (simp; done)
@[simp] theorem State.kept_lanePStart (s : State) (energised : BitVec 8) :
    (State.lanePStart s energised).kept = s.kept := by
  unfold State.lanePStart
  simp only []
  (repeat' split) <;> first | (with_reducible rfl) | (simp; done)
theorem kept_execLanePStart (energised : BitVec 8) (s : State) :
    ∃ s', execLanePStart energised s = .next s' ∧ s'.kept = s.kept := by
  unfold execLanePStart
  (repeat' split) <;> (with_reducible refine keeps_next ?_) <;> first | (with_reducible rfl) | (simp; done)
theorem kept_execLanePFault (s : State) :
    ∃ s', execLanePFault s = .next s' ∧ s'.kept = s.kept := by
  unfold execLanePFault
  (repeat' split) <;> (with_reducible refine keeps_next ?_) <;> first | (with_reducible rfl) | (simp; done)
theorem kept_execLaneHFault (s : State) :
    ∃ s', execLaneHFault s = .next s' ∧ s'.kept = s.kept := by
  exact keeps_next (by simp)
theorem kept_execEscalation (n : Fin 8) (s : State) :
    ∃ s', execEscalation n s = .next s' ∧ s'.kept = s.kept := by
  unfold execEscalation
  simp only []
  (repeat' split) <;> (with_reducible refine keeps_next ?_) <;> first | (with_reducible rfl) | (simp; done)
@[simp] theorem State.kept_safePartnerGone (s : State) :
    (State.safePartnerGone s).kept = s.kept := by
  unfold State.safePartnerGone
  simp only []
  (repeat' split) <;> first | (with_reducible rfl) | (simp; done)
theorem kept_execEdmTimeout (f : Fin 64) (fb : Bool) (s : State) :
    ∃ s', execEdmTimeout f fb s = .next s' ∧ s'.kept = s.kept := by
  unfold execEdmTimeout
  simp only []
  (repeat' split) <;> (with_reducible refine keeps_next ?_) <;> first | (with_reducible rfl) | (simp; done)
theorem kept_execEdmFaultClear (f : Fin 64) (s : State) :
    ∃ s', execEdmFaultClear f s = .next s' ∧ s'.kept = s.kept := by
  unfold execEdmFaultClear
  simp only []
  (repeat' split) <;> (with_reducible refine keeps_next ?_) <;> first | (with_reducible rfl) | (simp; done)
theorem kept_execSbcBoostEnd (n : Fin 8) (s : State) :
    ∃ s', execSbcBoostEnd n s = .next s' ∧ s'.kept = s.kept := by
  unfold execSbcBoostEnd
  simp only []
  (repeat' split) <;> (with_reducible refine keeps_next ?_) <;> first | (with_reducible rfl) | (simp; done)
theorem kept_execBrakeTestStart (f : Fin 64) (s : State) :
    ∃ s', execBrakeTestStart f s = .next s' ∧ s'.kept = s.kept := by
  unfold execBrakeTestStart
  (repeat' split) <;> (with_reducible refine keeps_next ?_) <;> first | (with_reducible rfl) | (simp; done)
theorem kept_execBrakeTestEnd (f : Fin 64) (slip : Word) (s : State) :
    ∃ s', execBrakeTestEnd f slip s = .next s' ∧ s'.kept = s.kept := by
  unfold execBrakeTestEnd
  simp only []
  (repeat' split) <;> (with_reducible refine keeps_next ?_) <;> first | (with_reducible rfl) | (simp; done)
theorem kept_execBrakeTestFail (f : Fin 64) (slip : Word) (s : State) :
    ∃ s', execBrakeTestFail f slip s = .next s' ∧ s'.kept = s.kept := by
  unfold execBrakeTestFail
  simp only []
  (repeat' split) <;> (with_reducible refine keeps_next ?_) <;> first | (with_reducible rfl) | (simp; done)
theorem kept_execBrakeTestAbort (f : Fin 64) (why : BrakeEnd) (slip : Word) (s : State) :
    ∃ s', execBrakeTestAbort f why slip s = .next s' ∧ s'.kept = s.kept := by
  unfold execBrakeTestAbort
  simp only []
  (repeat' split) <;> (with_reducible refine keeps_next ?_) <;> first | (with_reducible rfl) | (simp; done)
@[simp] theorem State.kept_brakeAbortAll (s : State) :
    (State.brakeAbortAll s).kept = s.kept := by
  unfold State.brakeAbortAll
  exact State.kept_foldl _ (fun s a => by first | (simp; done) | ((repeat' split) <;> simp)) _ _
@[simp] theorem State.kept_brakeCommand (s : State) (f : Nat) (permit request : Bool) :
    (State.brakeCommand s f permit request).kept = s.kept := by
  unfold State.brakeCommand
  simp only []
  (repeat' split) <;> first | (with_reducible rfl) | (simp; done)
@[simp] theorem State.kept_brakeDues (s : State) :
    (State.brakeDues s).kept = s.kept := by
  unfold State.brakeDues
  exact State.kept_foldl _ (fun s a => by first | (simp; done) | ((repeat' split) <;> simp)) _ _
@[simp] theorem State.kept_soRequest (s : State) (n : Nat) (on : Bool) :
    (State.soRequest s n on).kept = s.kept := by
  simp [State.soRequest]
@[simp] theorem State.kept_soSlot (s : State) (n : Nat) (on : Bool) :
    (State.soSlot s n on).kept = s.kept := by
  unfold State.soSlot
  (repeat' split) <;> simp
@[simp] theorem State.kept_brakeRx (s : State) (n t0 : Nat) :
    (State.brakeRx s n t0).kept = s.kept := by
  unfold State.brakeRx
  simp only []
  (repeat' split) <;> first | (with_reducible rfl) | (simp; done) | (simp [State.kept_foldl]; done) | (exact State.kept_fold _ (fun s a => by first | (simp; done) | ((repeat' split) <;> simp)) _ (by simp))
theorem kept_execSafetyTestStart (n : Fin 8) (demand : Bool) (s : State) :
    ∃ s', execSafetyTestStart n demand s = .next s' ∧ s'.kept = s.kept := by
  unfold execSafetyTestStart
  (repeat' split) <;> (with_reducible refine keeps_next ?_) <;> first | (with_reducible rfl) | (simp; done)
@[simp] theorem State.kept_pulseFailed (s : State) :
    (State.pulseFailed s).kept = s.kept := by
  simp [State.pulseFailed]
@[simp] theorem State.kept_testOver (s : State) (n : Nat) :
    (State.testOver s n).kept = s.kept := by
  simp [State.testOver]
@[simp] theorem State.kept_xtlPulse (s : State) (n : Nat) (pass : Bool) :
    (State.xtlPulse s n pass).kept = s.kept := by
  unfold State.xtlPulse
  (repeat' split) <;> simp
theorem kept_execSafetyTestStepEnd (n : Fin 8) (step : SafetyStep) (pass : Bool) (s : State) :
    ∃ s', execSafetyTestStepEnd n step pass s = .next s' ∧ s'.kept = s.kept := by
  unfold execSafetyTestStepEnd
  (repeat' split) <;> (with_reducible refine keeps_next ?_) <;> first | (with_reducible rfl) | (simp; done)
theorem kept_execLsSupplyLow (s : State) :
    ∃ s', execLsSupplyLow s = .next s' ∧ s'.kept = s.kept := by
  unfold execLsSupplyLow
  (repeat' split) <;> (with_reducible refine keeps_next ?_) <;> first | (with_reducible rfl) | (simp; done)
theorem kept_execLsSupplyBack (s : State) :
    ∃ s', execLsSupplyBack s = .next s' ∧ s'.kept = s.kept := by
  exact keeps_next (by simp)
theorem kept_execRepairTimeExpiry (n : Fin 8) (s : State) :
    ∃ s', execRepairTimeExpiry n s = .next s' ∧ s'.kept = s.kept := by
  unfold execRepairTimeExpiry
  simp only []
  (repeat' split) <;> (with_reducible refine keeps_next ?_) <;> first | (with_reducible rfl) | (simp; done)
theorem kept_execSoOverload (n : Fin 8) (s : State) :
    ∃ s', execSoOverload n s = .next s' ∧ s'.kept = s.kept := by
  unfold execSoOverload
  (repeat' split) <;> (with_reducible refine keeps_next ?_) <;> first | (with_reducible rfl) | (simp; done)
theorem kept_execSoOverloadRetry (n : Fin 8) (failed : Bool) (s : State) :
    ∃ s', execSoOverloadRetry n failed s = .next s' ∧ s'.kept = s.kept := by
  unfold execSoOverloadRetry
  (repeat' split) <;> (with_reducible refine keeps_next ?_) <;> first | (with_reducible rfl) | (simp; done)
theorem kept_execSoOpenLoad (n : Fin 8) (s : State) :
    ∃ s', execSoOpenLoad n s = .next s' ∧ s'.kept = s.kept := by
  unfold execSoOpenLoad
  (repeat' split) <;> (with_reducible refine keeps_next ?_) <;> first | (with_reducible rfl) | (simp; done)
theorem kept_execFwStuck (n : Fin 8) (s : State) :
    ∃ s', execFwStuck n s = .next s' ∧ s'.kept = s.kept := by
  unfold execFwStuck
  (repeat' split) <;> (with_reducible refine keeps_next ?_) <;> first | (with_reducible rfl) | (simp; done)
theorem kept_execLowSideClosureFail (n : Fin 8) (s : State) :
    ∃ s', execLowSideClosureFail n s = .next s' ∧ s'.kept = s.kept := by
  unfold execLowSideClosureFail
  (repeat' split) <;> (with_reducible refine keeps_next ?_) <;> first | (with_reducible rfl) | (simp; done)
theorem kept_execSafetyCellPowerLost (s : State) :
    ∃ s', execSafetyCellPowerLost s = .next s' ∧ s'.kept = s.kept := by
  unfold execSafetyCellPowerLost
  (repeat' split) <;> (with_reducible refine keeps_next ?_) <;> first | (with_reducible rfl) | (simp; done)
theorem kept_execSafetyCellPowerBack (s : State) :
    ∃ s', execSafetyCellPowerBack s = .next s' ∧ s'.kept = s.kept := by
  unfold execSafetyCellPowerBack
  (repeat' split) <;> (with_reducible refine keeps_next ?_) <;> first | (with_reducible rfl) | (simp; done)
@[simp] theorem State.kept_safeSample (s : State) (so : List (Fin 8 × Bool × Nat)) (fb : List (Fin 8 × Bool)) :
    (State.safeSample s so fb).kept = s.kept := by
  simp [State.safeSample]

/-! Machine/Time.lean -/

@[simp] theorem State.kept_slewBy (s : State) (d : Int) :
    (State.slewBy s d).kept = s.kept := by
  simp [State.slewBy]
@[simp] theorem State.kept_discTo (s : State) (d : Discipline) (bit : Nat) :
    (State.discTo s d bit).kept = s.kept := by
  simp [State.discTo]
@[simp] theorem State.kept_quarantine (s : State) (offset : Int) :
    (State.quarantine s offset).kept = s.kept := by
  simp [State.quarantine]
@[simp] theorem State.kept_acquire (s : State) (offset : Int) :
    (State.acquire s offset).kept = s.kept := by
  unfold State.acquire
  simp only []
  (repeat' split) <;> first | (with_reducible rfl) | (simp; done)
@[simp] theorem State.kept_measured (s : State) (offset : Int) (pathOk : Bool) :
    (State.measured s offset pathOk).kept = s.kept := by
  unfold State.measured
  simp only []
  (repeat' split) <;> first | (with_reducible rfl) | (simp; done)
theorem kept_execSyncTimeout (s : State) :
    ∃ s', execSyncTimeout s = .next s' ∧ s'.kept = s.kept := by
  unfold execSyncTimeout
  (repeat' split) <;> (with_reducible refine keeps_next ?_) <;> first | (with_reducible rfl) | (simp; done)
@[simp] theorem State.kept_quarantineEnd (s : State) (pathOk : Bool) :
    (State.quarantineEnd s pathOk).kept = s.kept := by
  unfold State.quarantineEnd
  (repeat' split) <;> simp
theorem kept_execHoldoverExpired (s : State) :
    ∃ s', execHoldoverExpired s = .next s' ∧ s'.kept = s.kept := by
  unfold execHoldoverExpired
  (repeat' split) <;> (with_reducible refine keeps_next ?_) <;> first | (with_reducible rfl) | (simp; done)
theorem kept_execSlewDone (s : State) :
    ∃ s', execSlewDone s = .next s' ∧ s'.kept = s.kept := by
  unfold execSlewDone
  (repeat' split) <;> (with_reducible refine keeps_next ?_) <;> first | (with_reducible rfl) | (simp; done)
@[simp] theorem State.kept_endFollow (s : State) :
    (State.endFollow s).kept = s.kept := by
  unfold State.endFollow
  (repeat' split) <;> simp
@[simp] theorem State.kept_acPut (s : State) (c : Nat) (x : AngleClock) :
    (State.acPut s c x).kept = s.kept := by
  unfold State.acPut
  simp only []
  (repeat' split) <;> first | (with_reducible rfl) | (simp; done)
@[simp] theorem State.kept_mainsJudge (s : State) :
    (State.mainsJudge s).kept = s.kept := by
  unfold State.mainsJudge
  simp only []
  (repeat' split) <;> first | (with_reducible rfl) | (simp; done) | (simp [State.kept_foldl]; done) | (exact State.kept_fold _ (fun s a => by first | (simp; done) | ((repeat' split) <;> simp)) _ (by simp))
theorem kept_execMainsLock (g : Fin 4) (s : State) :
    ∃ s', execMainsLock g s = .next s' ∧ s'.kept = s.kept := by
  exact keeps_next (by simp)
theorem kept_execMainsUnlock (g : Fin 4) (s : State) :
    ∃ s', execMainsUnlock g s = .next s' ∧ s'.kept = s.kept := by
  exact keeps_next (by simp)
theorem kept_execShaftCountEdge (sh : Fin 2) (a b : Bool) (offNs : Fin 10000) (s : State) :
    ∃ s', execShaftCountEdge sh a b offNs s = .next s' ∧ s'.kept = s.kept := by
  unfold execShaftCountEdge
  simp only []
  (repeat' split) <;> (with_reducible refine keeps_next ?_) <;> first | (with_reducible rfl) | (simp; done)
@[simp] theorem State.kept_acUnreference (s : State) (sh : Nat) :
    (State.acUnreference s sh).kept = s.kept := by
  unfold State.acUnreference
  (repeat' split) <;> simp
theorem kept_execShaftStandstill (sh : Fin 2) (s : State) :
    ∃ s', execShaftStandstill sh s = .next s' ∧ s'.kept = s.kept := by
  unfold execShaftStandstill
  simp only []
  (repeat' split) <;> (with_reducible refine keeps_next ?_) <;> first | (with_reducible rfl) | (simp; done)
theorem kept_execShaftOverspeed (sh : Fin 2) (s : State) :
    ∃ s', execShaftOverspeed sh s = .next s' ∧ s'.kept = s.kept := by
  unfold execShaftOverspeed
  (repeat' split) <;> (with_reducible refine keeps_next ?_) <;> first | (with_reducible rfl) | (simp; done)
theorem kept_execShaftLineFault (sh : Fin 2) (present : Bool) (s : State) :
    ∃ s', execShaftLineFault sh present s = .next s' ∧ s'.kept = s.kept := by
  unfold execShaftLineFault
  simp only []
  (repeat' split) <;> (with_reducible refine keeps_next ?_) <;> first | (with_reducible rfl) | (simp; done)
theorem kept_execQuadErr (sh : Fin 2) (s : State) : ∃ s', execQuadErr sh s = .next s' ∧ s'.kept = s.kept := by
  unfold execQuadErr
  by_cases h : (match s.time.shaftClock sh with | some i => (s.time.clock i).mode | none => 3) ≠ 3
  · exact ⟨s, if_pos h, rfl⟩
  · exact ⟨_, if_neg h, by simp⟩
@[simp] theorem State.kept_after_execQuadErr (sh : Fin 2) (s : State) : (s.after (execQuadErr sh s)).kept = s.kept := by
  obtain ⟨s', h, k⟩ := kept_execQuadErr sh s
  simp [State.after, h, k]
theorem kept_execEncSupplyFault (sh : Fin 2) (present : Bool) (s : State) :
    ∃ s', execEncSupplyFault sh present s = .next s' ∧ s'.kept = s.kept := by
  unfold execEncSupplyFault
  simp only []
  (repeat' split) <;> (with_reducible refine keeps_next ?_) <;> first | (with_reducible rfl) | (simp; done)
@[simp] theorem State.kept_acMirror (s : State) (l : List (DWord × Int)) (leadLocked : Bool) :
    (State.acMirror s l leadLocked).kept = s.kept := by
  unfold State.acMirror
  simp only []
  (repeat' split) <;> first | (with_reducible rfl) | (simp; done) | (simp [State.kept_foldl]; done) | (exact State.kept_fold _ (fun s a => by first | (simp; done) | ((repeat' split) <;> simp)) _ (by simp))
@[simp] theorem State.kept_slotMiss (s : State) (became : Bool) :
    (State.slotMiss s became).kept = s.kept := by
  simp [State.slotMiss]
@[simp] theorem State.kept_slotLoad (s : State) (n : Nat) (c : SlotContent) :
    (State.slotLoad s n c).kept = s.kept := by
  unfold State.slotLoad
  simp only []
  (repeat' split) <;> first | (with_reducible rfl) | (simp; done)
@[simp] theorem State.kept_slotApply (s : State) (n task : Nat) (bs : List Byte) :
    (State.slotApply s n task bs).kept = s.kept := by
  unfold State.slotApply
  simp only []
  (repeat' split) <;> first | (with_reducible rfl) | (simp; done)
@[simp] theorem State.kept_slotFixAt (s : State) (n tang : Nat) (p : DWord) : (s.slotFixAt n tang p).kept = s.kept := by
  unfold State.slotFixAt; simp only []; split <;> simp
@[simp] theorem State.kept_slotMissed (s : State) (n : Nat) :
    (State.slotMissed s n).kept = s.kept := by
  unfold State.slotMissed
  simp only []
  (repeat' split) <;> first | (with_reducible rfl) | (simp; done)
@[simp] theorem State.kept_slotsCross (s : State) (c : Nat) (p : DWord) (tang : Nat) :
    (State.slotsCross s c p tang).kept = s.kept := by
  unfold State.slotsCross
  simp only []
  (repeat' split) <;> first | (with_reducible rfl) | (simp; done) | (simp [State.kept_foldl]; done) | (exact State.kept_fold _ (fun s a => by first | (simp; done) | ((repeat' split) <;> simp)) _ (by simp))
theorem kept_execSlotFix (n : Fin 256) (s : State) :
    ∃ s', execSlotFix n s = .next s' ∧ s'.kept = s.kept := by
  unfold execSlotFix
  simp only []
  (repeat' split) <;> (with_reducible refine keeps_next ?_) <;> first | (with_reducible rfl) | (simp; done)
@[simp] theorem State.kept_slotMirror (s : State) (n tang : Nat) :
    (State.slotMirror s n tang).kept = s.kept := by
  unfold State.slotMirror
  simp only []
  (repeat' split) <;> first | (with_reducible rfl) | (simp; done)
theorem kept_execSlotMissed (n : Fin 256) (s : State) :
    ∃ s', execSlotMissed n s = .next s' ∧ s'.kept = s.kept := by
  unfold execSlotMissed
  simp only []
  (repeat' split) <;> (with_reducible refine keeps_next ?_) <;> first | (with_reducible rfl) | (simp; done)
theorem kept_execZEdge (sh : Fin 2) (offNs : Fin 10000) (s : State) :
    ∃ s', execZEdge sh offNs s = .next s' ∧ s'.kept = s.kept := by
  unfold execZEdge
  simp only []
  (repeat' split) <;> (with_reducible refine keeps_next ?_) <;> first | (with_reducible rfl) | (simp; done)
@[simp] theorem State.kept_slotSwitch (s : State) (so : Bool) (target ns : Nat) (on : Bool) :
    (State.slotSwitch s so target ns on).kept = s.kept := by
  unfold State.slotSwitch
  simp only []
  (repeat' split) <;> first | (with_reducible rfl) | (simp; done)
theorem kept_execSlotPulseEnd (n : Fin 256) (s : State) :
    ∃ s', execSlotPulseEnd n s = .next s' ∧ s'.kept = s.kept := by
  unfold execSlotPulseEnd
  simp only []
  (repeat' split) <;> (with_reducible refine keeps_next ?_) <;> first | (with_reducible rfl) | (simp; done)
theorem kept_execInputEdgeCapture (ch : CapCh) (rising : Bool) (ns : Nat) (s : State) :
    ∃ s', execInputEdgeCapture ch rising ns s = .next s' ∧ s'.kept = s.kept := by
  unfold execInputEdgeCapture
  (repeat' split) <;> (with_reducible refine keeps_next ?_) <;> first | (with_reducible rfl) | (simp; done)

/-! Machine/Net.lean -/

@[simp] theorem State.kept_setReroute (s : State) :
    (State.setReroute s).kept = s.kept := by
  simp [State.setReroute]
theorem kept_execPortLinkDown (p : Fin 4) (s : State) :
    ∃ s', execPortLinkDown p s = .next s' ∧ s'.kept = s.kept := by
  unfold execPortLinkDown
  simp only []
  (repeat' split) <;> (with_reducible refine keeps_next ?_) <;> first | (with_reducible rfl) | (simp; done)
theorem kept_execPortLinkUp (p : Fin 4) (s : State) :
    ∃ s', execPortLinkUp p s = .next s' ∧ s'.kept = s.kept := by
  unfold execPortLinkUp
  (repeat' split) <;> (with_reducible refine keeps_next ?_) <;> first | (with_reducible rfl) | (simp; done)
@[simp] theorem State.kept_tsPut (s : State) (pair : Nat) (e : TsEntry) :
    (State.tsPut s pair e).kept = s.kept := by
  unfold State.tsPut
  simp only []
  (repeat' split) <;> first | (with_reducible rfl) | (simp; done)
@[simp] theorem State.kept_brakeWrite (s : State) (n launch : Nat) :
    (State.brakeWrite s n launch).kept = s.kept := by
  unfold State.brakeWrite
  (repeat' split) <;> simp
@[simp] theorem State.kept_launch (s : State) (n launch : Nat) : (s.launch n launch).kept = s.kept := by
  unfold State.launch
  extract_lets s0 c red len on late r out d1 d2 d3 s1 s2
  have h0 : s0.kept = s.kept := by simp only [s0]; simp
  have h1 : s1.kept = s.kept := by simp only [s1]; simp [h0]
  have h2 : s2.kept = s.kept := by simp only [s2]; split <;> simp [h1]
  clear_value s0 s2
  split
  · simp [h0]
  · split
    · exact h2
    · exact State.kept_fold _ (fun s e => by simp) _ h2
@[simp] theorem State.kept_svSend (s : State) (p len : Nat) (both : Bool) (mk : List (Nat × Nat) → Option Half → NetOut) :
    (State.svSend s p len both mk).kept = s.kept := by
  simp [State.svSend]
@[simp] theorem State.kept_launchDue (s : State) (n launch : Nat) :
    (State.launchDue s n launch).kept = s.kept := by
  unfold State.launchDue
  (repeat' split) <;> simp
theorem kept_execPeriodicLaunch (ctx : Fin 1024) (s : State) :
    ∃ s', execPeriodicLaunch ctx s = .next s' ∧ s'.kept = s.kept := by
  unfold execPeriodicLaunch
  simp only []
  (repeat' split) <;> (with_reducible refine keeps_next ?_) <;> first | (with_reducible rfl) | (simp; done)
theorem kept_execBudgetWindow (s : State) :
    ∃ s', execBudgetWindow s = .next s' ∧ s'.kept = s.kept := by
  exact keeps_next (by simp)
@[simp] theorem State.kept_netTakeover (s : State) :
    (State.netTakeover s).kept = s.kept := by
  unfold State.netTakeover
  exact State.kept_foldl _ (fun s a => by first | (simp; done) | ((repeat' split) <;> simp)) _ _
@[simp] theorem State.kept_slotAct (s : State) (x : AngleSlot) :
    (State.slotAct s x).kept = s.kept := by
  unfold State.slotAct
  simp only []
  (repeat' split) <;> first | (with_reducible rfl) | (simp; done)
theorem kept_execSlotFire (n : Fin 256) (s : State) :
    ∃ s', execSlotFire n s = .next s' ∧ s'.kept = s.kept := by
  unfold execSlotFire
  simp only []
  (repeat' split) <;> (with_reducible refine keeps_next ?_) <;> first | (with_reducible rfl) | (simp; done)
@[simp] theorem State.kept_streamIn (s : State) (n : Nat) (f : RxFrame) :
    (State.streamIn s n f).kept = s.kept := by
  unfold State.streamIn
  simp only []
  (repeat' split) <;> first | (with_reducible rfl) | (simp; done)
@[simp] theorem State.kept_hear (s : State) (n : Nat) (f : RxFrame) :
    (State.hear s n f).kept = s.kept := by
  unfold State.hear
  simp only []
  (repeat' split) <;> first | (with_reducible rfl) | (simp; done)
@[simp] theorem State.kept_toSupervisor (s : State) (f : RxFrame) :
    (State.toSupervisor s f).kept = s.kept := by
  unfold State.toSupervisor
  simp only []
  (repeat' split) <;> first | (with_reducible rfl) | (simp; done)
theorem kept_execStreamFrameRx (f : RxFrame) (s : State) :
    ∃ s', execStreamFrameRx f s = .next s' ∧ s'.kept = s.kept := by
  unfold execStreamFrameRx
  simp only []
  (repeat' split) <;> (with_reducible refine keeps_next ?_) <;> first | (with_reducible rfl) | (simp; done)
theorem kept_execSrcMacForget (ctx : Fin 1024) (s : State) :
    ∃ s', execSrcMacForget ctx s = .next s' ∧ s'.kept = s.kept := by
  unfold execSrcMacForget
  simp only []
  (repeat' split) <;> (with_reducible refine keeps_next ?_) <;> first | (with_reducible rfl) | (simp; done)
theorem kept_execDdWindowClear (ctx : Fin 1024) (s : State) :
    ∃ s', execDdWindowClear ctx s = .next s' ∧ s'.kept = s.kept := by
  unfold execDdWindowClear
  simp only []
  (repeat' split) <;> (with_reducible refine keeps_next ?_) <;> first | (with_reducible rfl) | (simp; done)
@[simp] theorem State.kept_rxDeliver (s : State) (n t0 t : Nat) :
    (State.rxDeliver s n t0 t).1.kept = s.kept := by
  simp [State.rxDeliver]
theorem kept_execHsrForward (f : RingFrame) (s : State) :
    ∃ s', execHsrForward f s = .next s' ∧ s'.kept = s.kept := by
  unfold execHsrForward
  simp only []
  (repeat' split) <;> (with_reducible refine keeps_next ?_) <;> first | (with_reducible rfl) | (simp; done)
@[simp] theorem State.kept_supervise (s : State) (p : Nat) :
    (State.supervise s p).kept = s.kept := by
  unfold State.supervise
  (repeat' split) <;> simp
theorem kept_execSupervisionFrameSend (s : State) :
    ∃ s', execSupervisionFrameSend s = .next s' ∧ s'.kept = s.kept := by
  unfold execSupervisionFrameSend
  (repeat' split) <;> (with_reducible refine keeps_next ?_) <;> first | (with_reducible rfl) | (simp; done)
theorem kept_execAddressServiceRequest (p : Fin 4) (r : AddrReq) (len : Nat) (s : State) :
    ∃ s', execAddressServiceRequest p r len s = .next s' ∧ s'.kept = s.kept := by
  unfold execAddressServiceRequest
  simp only []
  (repeat' split) <;> (with_reducible refine keeps_next ?_) <;> first | (with_reducible rfl) | (simp; done) | (simp [State.kept_foldl]; done) | (exact State.kept_fold _ (fun s a => by first | (simp; done) | ((repeat' split) <;> simp)) _ (by simp))
theorem kept_execPtpAnnounce (m : Announce) (s : State) :
    ∃ s', execPtpAnnounce m s = .next s' ∧ s'.kept = s.kept := by
  unfold execPtpAnnounce
  simp only []
  (repeat' split) <;> (with_reducible refine keeps_next ?_) <;> first | (with_reducible rfl) | (simp; done)
@[simp] theorem State.kept_delayMeasured (s : State) (p ns : Nat) :
    (State.delayMeasured s p ns).kept = s.kept := by
  unfold State.delayMeasured
  simp only []
  (repeat' split) <;> first | (with_reducible rfl) | (simp; done)
theorem kept_execPtpDelayResponse (p : Fin 4) (ns : Nat) (s : State) :
    ∃ s', execPtpDelayResponse p ns s = .next s' ∧ s'.kept = s.kept := by
  unfold execPtpDelayResponse; simp only []
  split
  · exact keeps_next rfl
  · refine keeps_next ?_
    split <;> simp
@[simp] theorem State.kept_delayTick (s : State) :
    (State.delayTick s).kept = s.kept := by
  unfold State.delayTick
  simp only []
  (repeat' split) <;> first | (with_reducible rfl) | (simp; done) | (simp [State.kept_foldl]; done) | (exact State.kept_fold _ (fun s a => by first | (simp; done) | ((repeat' split) <;> simp)) _ (by simp))
@[simp] theorem State.kept_groupTick (s : State) :
    (State.groupTick s).kept = s.kept := by
  unfold State.groupTick
  simp only []
  (repeat' split) <;> first | (with_reducible rfl) | (simp; done) | (simp [State.kept_foldl]; done) | (exact State.kept_fold _ (fun s a => by first | (simp; done) | ((repeat' split) <;> simp)) _ (by simp))
@[simp] theorem State.kept_netTick (s : State) :
    (State.netTick s).kept = s.kept := by
  simp [State.netTick]
@[simp] theorem State.kept_checked (s : State) (ok : Bool) :
    (State.checked s ok).kept = s.kept := by
  simp [State.checked]
@[simp] theorem State.kept_syncInterval (s : State) (first second : Option Int) :
    (State.syncInterval s first second).kept = s.kept := by
  unfold State.syncInterval
  simp only []
  (repeat' split) <;> first | (with_reducible rfl) | (simp; done)
theorem kept_execSync (sender : DWord) (domain : Nat) (first second : Option SyncStamp) (s : State) :
    ∃ s', execSync sender domain first second s = .next s' ∧ s'.kept = s.kept := by
  unfold execSync
  simp only []
  (repeat' split) <;> (with_reducible refine keeps_next ?_) <;> first | (with_reducible rfl) | (simp; done)
theorem kept_execQuarantineExpiry (s : State) :
    ∃ s', execQuarantineExpiry s = .next s' ∧ s'.kept = s.kept := by
  unfold execQuarantineExpiry
  (repeat' split) <;> (with_reducible refine keeps_next ?_) <;> first | (with_reducible rfl) | (simp; done)
@[simp] theorem State.kept_tsDrain (s : State) : s.tsDrain.kept = s.kept := by
  unfold State.tsDrain
  refine State.kept_foldl _ (fun s p => ?_) _ _
  exact State.kept_fold _ (fun s e => by cases h : e.sv <;> simp [h]) _ (by simp)

/-! Machine/FabOps.lean -/

@[simp] theorem State.kept_place (s : State) (b : BRef) (home : Nat) :
    (State.place s b home).kept = s.kept := by
  unfold State.place
  (repeat' split) <;> simp
@[simp] theorem State.kept_releaseBillets (s : State) (n : Nat) :
    (State.releaseBillets s n).kept = s.kept := by
  unfold State.releaseBillets
  exact State.kept_foldl _ (fun s a => by first | (simp; done) | ((repeat' split) <;> simp)) _ _
@[simp] theorem State.kept_refill (s : State) (e : Nat) :
    (State.refill s e).kept = s.kept := by
  unfold State.refill
  (repeat' split) <;> simp
@[simp] theorem State.kept_refillAll (s : State) :
    (State.refillAll s).kept = s.kept := by
  unfold State.refillAll
  exact State.kept_foldl _ (fun s a => by first | (simp; done) | ((repeat' split) <;> simp)) _ _
@[simp] theorem State.kept_quotaRefuse (s : State) (task : Nat) :
    (State.quotaRefuse s task).kept = s.kept := by
  simp [State.quotaRefuse]
@[simp] theorem State.kept_startRun (s : State) (b : BRef) :
    (State.startRun s b).kept = s.kept := by
  unfold State.startRun
  (repeat' split) <;> simp
@[simp] theorem State.kept_takeFrom (s : State) (e d : Nat) (b : BRef) :
    (State.takeFrom s e d b).kept = s.kept := by
  simp [State.takeFrom]
@[simp] theorem State.kept_ownerTake (e : Nat) (s : State) (a : List Nat) (l : List BRef) : (State.ownerTake e s a l).kept = s.kept := by
  induction l generalizing s a with
  | nil => rfl
  | cons b l ih =>
    unfold State.ownerTake
    (repeat' split) <;> simp [ih]
@[simp] theorem State.kept_thiefTake (e : Nat) (tails : List (Nat × BRef)) (s : State) (l : List Nat) :
    (State.thiefTake e tails s l).kept = s.kept := by
  induction l generalizing s with
  | nil => rfl
  | cons d l ih =>
    unfold State.thiefTake
    split
    · exact ih s
    · split
      · simp [ih]
      · split <;> simp [ih]
@[simp] theorem State.kept_examine (s : State) (es : List Nat) : (s.examine es).kept = s.kept := by
  unfold State.examine
  exact State.kept_fold _ (fun s e => State.kept_thiefTake e _ s (s.fab.candidates e)) _
    (State.kept_foldl _ (fun s e => State.kept_ownerTake e s [] (s.fab.engine e).deque) _ _)
@[simp] theorem State.kept_returnBillet (s : State) (e : Nat) (b : BRef) :
    (State.returnBillet s e b).kept = s.kept := by
  unfold State.returnBillet
  (repeat' split) <;> simp
@[simp] theorem State.kept_addUse (s : State) (n us : Nat) :
    (State.addUse s n us).kept = s.kept := by
  simp [State.addUse]
@[simp] theorem State.kept_setFab (s : State) (f : FabBlk) :
    (State.setFab s f).kept = s.kept := by
  simp [State.setFab]
@[simp] theorem State.kept_freeEngine (s : State) (e : Nat) :
    (State.freeEngine s e).kept = s.kept := by
  simp [State.freeEngine]

/-! Machine/Pnl.lean -/

@[simp] theorem State.kept_journal (s : State) (i : Nat) (x : PSlot) (e : JEntry) :
    (State.journal s i x e).kept = s.kept := by
  unfold State.journal
  simp only []
  (repeat' split) <;> first | (with_reducible rfl) | (simp; done)
@[simp] theorem State.kept_pnlSend (s : State) (m : PnlMsg) :
    (State.pnlSend s m).kept = s.kept := by
  unfold State.pnlSend
  (repeat' split) <;> simp
@[simp] theorem State.kept_pnlTell (s : State) (m : PnlMsg) :
    (State.pnlTell s m).kept = s.kept := by
  unfold State.pnlTell
  (repeat' split) <;> simp
@[simp] theorem State.kept_pnlRefuse (s : State) (o : Origin) (code : Nat) :
    (State.pnlRefuse s o code).kept = s.kept := by
  simp [State.pnlRefuse]
@[simp] theorem State.kept_pnlDone (s : State) (r : PReq) :
    (State.pnlDone s r).kept = s.kept := by
  unfold State.pnlDone
  (repeat' split) <;> simp
@[simp] theorem State.kept_drain (s : State) (a l : List PReq) : (State.drain s a l).kept = s.kept := by
  induction l generalizing s a with
  | nil => unfold State.drain; simp
  | cons r l ih =>
    unfold State.drain
    split
    · split <;> simp [ih]
    · exact ih _ _
@[simp] theorem State.kept_pnlServe (s : State) :
    (State.pnlServe s).kept = s.kept := by
  simp [State.pnlServe]
@[simp] theorem State.kept_pnlTemp (s : State) (t : Int) :
    (State.pnlTemp s t).kept = s.kept := by
  simp [State.pnlTemp]
@[simp] theorem State.kept_presentEarly (s : State) :
    (State.presentEarly s).kept = s.kept := by
  unfold State.presentEarly
  simp only []
  (repeat' split) <;> first | (with_reducible rfl) | (simp; done)
@[simp] theorem State.kept_pnlTake (s : State) (r : PReq) :
    (State.pnlTake s r).kept = s.kept := by
  unfold State.pnlTake
  (repeat' split) <;> simp
@[simp] theorem State.kept_panelRequest (s : State) (o : Origin) (id : Half) (op : PanelOp) :
    (State.panelRequest s o id op).kept = s.kept := by
  unfold State.panelRequest
  (repeat' split) <;> simp
theorem kept_execPanelWrite (o : Origin) (id : Half) (rect : Rect) (len : Nat) (bytes : List Byte) (s : State) :
    ∃ s', execPanelWrite o id rect len bytes s = .next s' ∧ s'.kept = s.kept := by
  exact keeps_next (by simp)
theorem kept_execPanelPresent (o : Origin) (id : Half) (s : State) :
    ∃ s', execPanelPresent o id s = .next s' ∧ s'.kept = s.kept := by
  exact keeps_next (by simp)
theorem kept_execPanelUpdate (o : Origin) (id : Half) (rect : Rect) (wf : Fin 8) (s : State) :
    ∃ s', execPanelUpdate o id rect wf s = .next s' ∧ s'.kept = s.kept := by
  exact keeps_next (by simp)
theorem kept_execPanelTemp (o : Origin) (id : Half) (t : Int) (s : State) :
    ∃ s', execPanelTemp o id t s = .next s' ∧ s'.kept = s.kept := by
  exact keeps_next (by simp)
theorem kept_execPanelPowerOn (o : Origin) (id : Half) (s : State) :
    ∃ s', execPanelPowerOn o id s = .next s' ∧ s'.kept = s.kept := by
  exact keeps_next (by simp)
theorem kept_execPanelPowerOff (o : Origin) (id : Half) (s : State) :
    ∃ s', execPanelPowerOff o id s = .next s' ∧ s'.kept = s.kept := by
  exact keeps_next (by simp)
theorem kept_execLcdFrameStart (s : State) :
    ∃ s', execLcdFrameStart s = .next s' ∧ s'.kept = s.kept := by
  unfold execLcdFrameStart
  simp only []
  (repeat' split) <;> (with_reducible refine keeps_next ?_) <;> first | (with_reducible rfl) | (simp; done)
theorem kept_execFrontBackCopyDone (s : State) :
    ∃ s', execFrontBackCopyDone s = .next s' ∧ s'.kept = s.kept := by
  unfold execFrontBackCopyDone
  (repeat' split) <;> (with_reducible refine keeps_next ?_) <;> first | (with_reducible rfl) | (simp; done)
@[simp] theorem State.kept_pnlComplete (s : State) :
    (State.pnlComplete s).kept = s.kept := by
  unfold State.pnlComplete
  simp only []
  (repeat' split) <;> first | (with_reducible rfl) | (simp; done) | (simp [State.kept_foldl]; done) | (exact State.kept_fold _ (fun s a => by first | (simp; done) | ((repeat' split) <;> simp)) _ (by simp))
@[simp] theorem State.kept_endUpdate (s : State) (i : Nat) (x : PSlot) (e : JEntry) :
    (State.endUpdate s i x e).kept = s.kept := by
  unfold State.endUpdate
  (repeat' split) <;> simp
@[simp] theorem State.kept_epEnd (s : State) (i : Nat) :
    (State.epEnd s i).kept = s.kept := by
  unfold State.epEnd
  simp only []
  (repeat' split) <;> first | (with_reducible rfl) | (simp; done)
@[simp] theorem State.kept_epDrive (t : Nat) (late : List (Fin 16)) (s : State) (i : Nat) :
    (State.epDrive t late s i).kept = s.kept := by
  unfold State.epDrive
  simp only []
  (repeat' split) <;> first | (with_reducible rfl) | (simp; done)
@[simp] theorem State.kept_startUpdate (s : State) (i : Nat) (id : Half) (r : Rect) (wf frames : Nat) (req : Option PReq) :
    (State.startUpdate s i id r wf frames req).kept = s.kept := by
  simp [State.startUpdate]
@[simp] theorem State.kept_startWaiting (s : State) (a l : List PReq) : (State.startWaiting s a l).kept = s.kept := by
  induction l generalizing s a with
  | nil => unfold State.startWaiting; simp
  | cons r l ih =>
    unfold State.startWaiting
    split
    · split
      · exact ih _ _
      · split <;> simp [ih]
    · exact ih _ _
@[simp] theorem State.kept_startRefresh (s : State) :
    (State.startRefresh s).kept = s.kept := by
  unfold State.startRefresh
  simp only []
  (repeat' split) <;> first | (with_reducible rfl) | (simp; done)
theorem kept_execEpFrameStart (late : List (Fin 16)) (s : State) :
    ∃ s', execEpFrameStart late s = .next s' ∧ s'.kept = s.kept := by
  unfold execEpFrameStart
  simp only []
  (repeat' split) <;> (with_reducible refine keeps_next ?_) <;> first | (with_reducible rfl) | (simp; done) | (simp [State.kept_foldl]; done) | (exact State.kept_fold _ (fun s a => by first | (simp; done) | ((repeat' split) <;> simp)) _ (by simp))
theorem kept_execPtempMeasure (t : Option Int) (s : State) :
    ∃ s', execPtempMeasure t s = .next s' ∧ s'.kept = s.kept := by
  unfold execPtempMeasure
  simp only []
  (repeat' split) <;> (with_reducible refine keeps_next ?_) <;> first | (with_reducible rfl) | (simp; done)
theorem kept_execTempTimeout (s : State) :
    ∃ s', execTempTimeout s = .next s' ∧ s'.kept = s.kept := by
  unfold execTempTimeout
  (repeat' split) <;> (with_reducible refine keeps_next ?_) <;> first | (with_reducible rfl) | (simp; done)
@[simp] theorem State.kept_pnlStop (s : State) (row : Option Nat) :
    (State.pnlStop s row).kept = s.kept := by
  unfold State.pnlStop
  simp only []
  (repeat' split) <;> first | (with_reducible rfl) | (simp; done) | (simp [State.kept_foldl]; done) | (exact State.kept_fold _ (fun s a => by first | (simp; done) | ((repeat' split) <;> simp)) _ (by simp))
theorem kept_execPnlPgFall (row : Option Nat) (s : State) :
    ∃ s', execPnlPgFall row s = .next s' ∧ s'.kept = s.kept := by
  unfold execPnlPgFall
  (repeat' split) <;> (with_reducible refine keeps_next ?_) <;> first | (with_reducible rfl) | (simp; done)
theorem kept_execPnlPgRise (s : State) :
    ∃ s', execPnlPgRise s = .next s' ∧ s'.kept = s.kept := by
  unfold execPnlPgRise
  (repeat' split) <;> (with_reducible refine keeps_next ?_) <;> first | (with_reducible rfl) | (simp; done)
@[simp] theorem State.kept_pnlAck (s : State) (id : Half) :
    (State.pnlAck s id).kept = s.kept := by
  unfold State.pnlAck
  exact State.kept_foldl _ (fun s a => by first | (simp; done) | ((repeat' split) <;> simp)) _ _
@[simp] theorem State.kept_pnlMirror (s : State) (i : Nat) (e : JEntry) :
    (State.pnlMirror s i e).kept = s.kept := by
  unfold State.pnlMirror
  simp only []
  (repeat' split) <;> first | (with_reducible rfl) | (simp; done)
@[simp] theorem State.kept_pnlRemote (s : State) (m : PnlMsg) :
    (State.pnlRemote s m).kept = s.kept := by
  unfold State.pnlRemote
  (repeat' split) <;> simp
@[simp] theorem State.kept_pnlTakeover (s : State) :
    (State.pnlTakeover s).kept = s.kept := by
  unfold State.pnlTakeover
  simp only []
  (repeat' split) <;> first | (with_reducible rfl) | (simp; done) | (simp [State.kept_foldl]; done) | (exact State.kept_fold _ (fun s a => by first | (simp; done) | ((repeat' split) <;> simp)) _ (by simp))
@[simp] theorem State.kept_pnlAlone (s : State) :
    (State.pnlAlone s).kept = s.kept := by
  unfold State.pnlAlone
  exact State.kept_foldl _ (fun s a => by first | (simp; done) | ((repeat' split) <;> simp)) _ _
@[simp] theorem State.kept_pnlYielded (s : State) :
    (State.pnlYielded s).kept = s.kept := by
  unfold State.pnlYielded
  exact State.kept_foldl _ (fun s a => by first | (simp; done) | ((repeat' split) <;> simp)) _ _
@[simp] theorem State.kept_pnlCold (s : State) :
    (State.pnlCold s).kept = s.kept := by
  unfold State.pnlCold
  (repeat' split) <;> simp
@[simp] theorem State.kept_pnlPowerLoss (s : State) :
    (State.pnlPowerLoss s).kept = s.kept := by
  simp [State.pnlPowerLoss]
@[simp] theorem State.kept_pnlUnitStop (s : State) :
    (State.pnlUnitStop s).kept = s.kept := by
  simp [State.pnlUnitStop]

end Sys2Proof.Machine
end

