-- ==== Sys2Proof/Laws/KeptCyc.lean ====
section
/-! SUPPORT. Laws/KeptCyc.lean: what the commands of the tasks, the fabric, the pair and the program exchange leave alone. -/
set_option Elab.async false
set_option maxRecDepth 4000
set_option linter.all false
namespace Sys2Proof.Machine

/-! Machine/CycOps.lean -/

@[simp] theorem State.kept_finishAll (s : State) (l : List Origin) (status detail : Nat) :
    (State.finishAll s l status detail).kept = s.kept := by
  unfold State.finishAll
  exact State.kept_foldl _ (fun s a => by first | (simp; done) | ((repeat' split) <;> simp)) _ _
@[simp] theorem State.kept_engageDio (s : State) (c : Nat) :
    (State.engageDio s c).kept = s.kept := by
  unfold State.engageDio
  (repeat' split) <;> simp
@[simp] theorem State.kept_engageAio (s : State) (c : Nat) :
    (State.engageAio s c).kept = s.kept := by
  unfold State.engageAio
  (repeat' split) <;> simp
@[simp] theorem State.kept_putDio (s : State) (c : Nat) (on : Bool) :
    (State.putDio s c on).kept = s.kept := by
  simp [State.putDio]
@[simp] theorem State.kept_putAio (s : State) (c : Nat) (cmd : Nat) :
    (State.putAio s c cmd).kept = s.kept := by
  simp [State.putAio]
@[simp] theorem State.kept_applyOne (s : State) (task : Nat) (absent : List (Fin 4)) (o : OutKind) (bs : List Byte) :
    (State.applyOne s task absent o bs).kept = s.kept := by
  unfold State.applyOne
  (repeat' split) <;> simp
@[simp] theorem State.kept_stopOne (s : State) (last program : Bool) (o : OutKind) (bs : List Byte) :
    (State.stopOne s last program o bs).kept = s.kept := by
  unfold State.stopOne
  (repeat' split) <;> simp
@[simp] theorem State.kept_applyCommit (s : State) (n : Nat) (absent : List (Fin 4)) :
    (State.applyCommit s n absent).kept = s.kept := by
  unfold State.applyCommit
  exact State.kept_foldl _ (fun s a => by first | (simp; done) | ((repeat' split) <;> simp)) _ _
@[simp] theorem State.kept_stopOrphans (s : State) (n : Nat) :
    (State.stopOrphans s n).kept = s.kept := by
  unfold State.stopOrphans
  exact State.kept_foldl _ (fun s a => by first | (simp; done) | ((repeat' split) <;> simp)) _ _
@[simp] theorem State.kept_reapply (s : State) (n : Nat) :
    (State.reapply s n).kept = s.kept := by
  unfold State.reapply
  exact State.kept_foldl _ (fun s a => by first | (simp; done) | ((repeat' split) <;> simp)) _ _
@[simp] theorem State.kept_stopOutputs (s : State) (n : Nat) (program : Bool) :
    (State.stopOutputs s n program).kept = s.kept := by
  unfold State.stopOutputs
  simp only []
  (repeat' split) <;> first | (with_reducible rfl) | (simp; done) | (simp [State.kept_foldl]; done) | (exact State.kept_fold _ (fun s a => by first | (simp; done) | ((repeat' split) <;> simp)) _ (by simp))
@[simp] theorem State.kept_shadowHold (s : State) :
    (State.shadowHold s).kept = s.kept := by
  unfold State.shadowHold
  (repeat' split) <;> simp
@[simp] theorem State.kept_leaveBreakpoint (s : State) (n : Nat) (abandon : Bool) :
    (State.leaveBreakpoint s n abandon).kept = s.kept := by
  unfold State.leaveBreakpoint
  (repeat' split) <;> simp
@[simp] theorem State.kept_dropSteps (s : State) (n : Nat) :
    (State.dropSteps s n).kept = s.kept := by
  unfold State.dropSteps
  exact State.kept_foldl _ (fun s a => by first | (simp; done) | ((repeat' split) <;> simp)) _ _
@[simp] theorem State.kept_modeTo (s : State) (n : Nat) (m : ProgMode) : (s.modeTo n m).kept = s.kept := by
  unfold State.modeTo
  extract_lets s1 c s2 s3 w s4
  have h1 : s1.kept = s.kept := by simp only [s1]; split <;> simp
  have h2 : s2.kept = s.kept := by simp only [s2]; simp [h1]
  have h3 : s3.kept = s.kept := by simp only [s3]; split <;> simp [h2]
  have h4 : s4.kept = s.kept := by simp only [s4]; simp [h3]
  clear_value s4
  split <;> simp [h4]
@[simp] theorem State.kept_takeModes (s : State) (n : Nat) : (s.takeModes n).kept = s.kept := by
  unfold State.takeModes
  rw [State.kept_mk _ _ _ _ _ _ _ _ _ _ _ _ _ _ _ _ _ _ _ _ rfl rfl rfl rfl rfl rfl]
  refine State.kept_foldl_fst _ (fun a p => ?_) _ _
  obtain ⟨s, out, b⟩ := a
  simp only []
  split
  · rfl
  · split
    · rfl
    · split <;> simp
@[simp] theorem State.kept_sampleOne (s : State) (n t0 : Nat) (k : InKind) :
    (State.sampleOne s n t0 k).1.kept = s.kept := by
  unfold State.sampleOne
  (repeat' split) <;> simp
@[simp] theorem State.kept_sampleAll (s : State) (n t0 : Nat) : (s.sampleAll n t0).1.kept = s.kept := by
  unfold State.sampleAll
  exact State.kept_foldl_fst _ (fun a k => by simp) _ _
@[simp] theorem State.kept_takeEnv (s : State) (env : T0Env) :
    (State.takeEnv s env).kept = s.kept := by
  simp [State.takeEnv]
@[simp] theorem State.kept_startCycle (s : State) (n t0 : Nat) (env : T0Env) (stepped fallback : Bool) :
    (State.startCycle s n t0 env stepped fallback).kept = s.kept := by
  unfold State.startCycle
  simp only []
  (repeat' split) <;> first | (with_reducible rfl) | (simp; done)
@[simp] theorem State.kept_skipT0 (s : State) (n : Nat) :
    (State.skipT0 s n).kept = s.kept := by
  simp [State.skipT0]
@[simp] theorem State.kept_showState (s : State) (n : Nat) :
    (State.showState s n).kept = s.kept := by
  simp [State.showState]
@[simp] theorem State.kept_standBack (s : State) :
    (State.standBack s).kept = s.kept := by
  simp [State.standBack]
@[simp] theorem State.kept_applyDue (s : State) (n : Nat) (absent : List (Fin 4)) :
    (State.applyDue s n absent).1.kept = s.kept := by
  unfold State.applyDue
  simp only []
  (repeat' split) <;> first | (with_reducible rfl) | (simp; done)
@[simp] theorem State.kept_takeLimits (s : State) (n : Nat) :
    (State.takeLimits s n).kept = s.kept := by
  unfold State.takeLimits
  simp only []
  (repeat' split) <;> first | (with_reducible rfl) | (simp; done)
@[simp] theorem State.kept_takeRestart (s : State) (n : Nat) :
    (State.takeRestart s n).kept = s.kept := by
  unfold State.takeRestart
  simp only []
  (repeat' split) <;> first | (with_reducible rfl) | (simp; done)
@[simp] theorem State.kept_takePolicy (s : State) (n t0 : Nat) (absent : List (Fin 4)) :
    (State.takePolicy s n t0 absent).kept = s.kept := by
  unfold State.takePolicy
  simp only []
  (repeat' split) <;> first | (with_reducible rfl) | (simp; done)
@[simp] theorem State.kept_takeChannelCfg (s : State) (n : Nat) : (s.takeChannelCfg n).kept = s.kept := by
  unfold State.takeChannelCfg
  extract_lets p dio aio net t
  exact State.kept_fold _ (fun s o => by split <;> simp) _ (State.kept_foldl _ (fun s k => by split <;> simp) _ _)
@[simp] theorem State.kept_t0Takes (s : State) (n t0 : Nat) (absent : List (Fin 4)) :
    (State.t0Takes s n t0 absent).kept = s.kept := by
  simp [State.t0Takes]
@[simp] theorem State.kept_t0Cycle (s : State) (n t0 : Nat) (env : T0Env) (fallback : Bool) :
    (State.t0Cycle s n t0 env fallback).kept = s.kept := by
  unfold State.t0Cycle
  simp only []
  (repeat' split) <;> first | (with_reducible rfl) | (simp; done)
@[simp] theorem State.kept_t0Idle (s : State) (n : Nat) (absent : List (Fin 4)) :
    (State.t0Idle s n absent).kept = s.kept := by
  unfold State.t0Idle
  simp only []
  (repeat' split) <;> first | (with_reducible rfl) | (simp; done)
@[simp] theorem State.kept_t0Stop (s : State) (n : Nat) (first : Bool) :
    (State.t0Stop s n first).kept = s.kept := by
  unfold State.t0Stop
  (repeat' split) <;> simp
@[simp] theorem State.kept_t0Carry (s : State) (n : Nat) (absent : List (Fin 4)) :
    (State.t0Carry s n absent).kept = s.kept := by
  simp [State.t0Carry]
@[simp] theorem State.kept_t0 (s : State) (n t0 : Nat) (env : T0Env) (fallback : Bool) :
    (State.t0 s n t0 env fallback).kept = s.kept := by
  unfold State.t0
  simp only []
  (repeat' split) <;> first | (with_reducible rfl) | (simp; done)

/-! Machine/TwinOps.lean -/

@[simp] theorem State.kept_modTwin (s : State) (n : Nat) (f : TwinTask → TwinTask) :
    (State.modTwin s n f).kept = s.kept := by
  simp [State.modTwin]
@[simp] theorem State.kept_twinRecord (s : State) (bit obj : Nat) :
    (State.twinRecord s bit obj).kept = s.kept := by
  simp [State.twinRecord]
@[simp] theorem State.kept_takeImage (s : State) (n : Nat) (r : CycleRun) (l : List InVal) (subst : Nat) (diff : Bool) :
    (State.takeImage s n r l subst diff).kept = s.kept := by
  simp [State.takeImage]
@[simp] theorem State.kept_mismatch (s : State) (n : Nat) (k : DWord) (kind : Nat) :
    (State.mismatch s n k kind).kept = s.kept := by
  simp [State.mismatch]
@[simp] theorem State.kept_sendObjects (s : State) :
    (State.sendObjects s).kept = s.kept := by
  unfold State.sendObjects
  simp only []
  (repeat' split) <;> first | (with_reducible rfl) | (simp; done)
@[simp] theorem State.kept_sendPart (s : State) (n : Nat) (rest : List Nat) :
    (State.sendPart s n rest).kept = s.kept := by
  simp [State.sendPart]
@[simp] theorem State.kept_letGo (s : State) :
    (State.letGo s).kept = s.kept := by
  simp [State.letGo]
@[simp] theorem State.kept_startCopy (s : State) :
    (State.startCopy s).kept = s.kept := by
  unfold State.startCopy
  simp only []
  (repeat' split) <;> first | (with_reducible rfl) | (simp; done)
@[simp] theorem State.kept_engageFree (s : State) :
    (State.engageFree s).kept = s.kept := by
  simp [State.engageFree]
@[simp] theorem State.kept_yieldNow (s : State) (r : Option Region) (o : Origin) :
    (State.yieldNow s r o).kept = s.kept := by
  simp [State.yieldNow]
@[simp] theorem State.kept_fwRestart (s : State) :
    (State.fwRestart s).kept = s.kept := by
  unfold State.fwRestart
  (repeat' split) <;> simp
@[simp] theorem State.kept_joinNow (s : State) :
    (State.joinNow s).kept = s.kept := by
  unfold State.joinNow
  simp only []
  (repeat' split) <;> first | (with_reducible rfl) | (simp; done)
@[simp] theorem State.kept_tryJoin (s : State) :
    (State.tryJoin s).kept = s.kept := by
  unfold State.tryJoin
  (repeat' split) <;> simp
@[simp] theorem State.kept_inStep (s : State) :
    (State.inStep s).kept = s.kept := by
  simp [State.inStep]
@[simp] theorem State.kept_copyTick (s : State) :
    (State.copyTick s).kept = s.kept := by
  unfold State.copyTick
  (repeat' split) <;> simp
@[simp] theorem State.kept_takeVerdict (s : State) (n : Nat) (k : DWord) (code ta kind : Nat) :
    (State.takeVerdict s n k code ta kind).kept = s.kept := by
  unfold State.takeVerdict
  simp only []
  (repeat' split) <;> first | (with_reducible rfl) | (simp; done)
@[simp] theorem State.kept_sendVerdict (s : State) (n : Nat) (k : DWord) (code kind : Nat) :
    (State.sendVerdict s n k code kind).kept = s.kept := by
  simp [State.sendVerdict]
@[simp] theorem State.kept_judge (s : State) (n : Nat) :
    (State.judge s n).kept = s.kept := by
  unfold State.judge
  simp only []
  (repeat' split) <;> first | (with_reducible rfl) | (simp; done)
@[simp] theorem State.kept_judgeFault (s : State) (n : Nat) :
    (State.judgeFault s n).kept = s.kept := by
  unfold State.judgeFault
  simp only []
  (repeat' split) <;> first | (with_reducible rfl) | (simp; done)
@[simp] theorem State.kept_idleProof (s : State) (n : Nat) :
    (State.idleProof s n).kept = s.kept := by
  unfold State.idleProof
  simp only []
  (repeat' split) <;> first | (with_reducible rfl) | (simp; done)
@[simp] theorem State.kept_promote (s : State) (kind region : Nat) :
    (State.promote s kind region).kept = s.kept := by
  simp [State.promote]
@[simp] theorem State.kept_coldPromote (s : State) :
    (State.coldPromote s).kept = s.kept := by
  unfold State.coldPromote
  simp only []
  (repeat' split) <;> first | (with_reducible rfl) | (simp; done)
@[simp] theorem State.kept_shadowAlone (s : State) (elig : Bool) :
    (State.shadowAlone s elig).kept = s.kept := by
  unfold State.shadowAlone
  (repeat' split) <;> simp
@[simp] theorem State.kept_losePartner (s : State) (elig : Bool) :
    (State.losePartner s elig).kept = s.kept := by
  unfold State.losePartner
  simp only []
  (repeat' split) <;> first | (with_reducible rfl) | (simp; done)
@[simp] theorem State.kept_laneDown (s : State) (l : Nat) (error : Bool) :
    (State.laneDown s l error).kept = s.kept := by
  simp [State.laneDown]
@[simp] theorem State.kept_lanesDown (s : State) :
    (State.lanesDown s).kept = s.kept := by
  simp [State.lanesDown]
@[simp] theorem State.kept_failModule (s : State) :
    (State.failModule s).kept = s.kept := by
  unfold State.failModule
  (repeat' split) <;> simp
@[simp] theorem State.kept_regionFault (s : State) (r : Region) :
    (State.regionFault s r).kept = s.kept := by
  unfold State.regionFault
  simp only []
  (repeat' split) <;> first | (with_reducible rfl) | (simp; done)
@[simp] theorem State.kept_mismatchOutcome (s : State) :
    (State.mismatchOutcome s).kept = s.kept := by
  unfold State.mismatchOutcome
  (repeat' split) <;> simp

/-! Machine/CfgOps.lean -/

@[simp] theorem State.kept_loadDio (s : State) (c : StationCfg) (now : Bool) :
    (State.loadDio s c now).kept = s.kept := by
  simp [State.loadDio]
@[simp] theorem State.kept_loadAio (s : State) (c : StationCfg) (now : Bool) :
    (State.loadAio s c now).kept = s.kept := by
  simp [State.loadAio]
@[simp] theorem State.kept_loadTime (s : State) (c : StationCfg) :
    (State.loadTime s c).kept = s.kept := by
  unfold State.loadTime
  simp only []
  (repeat' split) <;> first | (with_reducible rfl) | (simp; done) | (simp [State.kept_foldl]; done) | (exact State.kept_fold _ (fun s a => by first | (simp; done) | ((repeat' split) <;> simp)) _ (by simp))
@[simp] theorem State.kept_loadNet (s : State) (c : StationCfg) (now : Bool) :
    (State.loadNet s c now).kept = s.kept := by
  simp [State.loadNet]
@[simp] theorem State.kept_loadRec (s : State) (c : StationCfg) :
    (State.loadRec s c).kept = s.kept := by
  unfold State.loadRec
  (repeat' split) <;> simp
@[simp] theorem State.kept_loadAx (s : State) (c : StationCfg) :
    (State.loadAx s c).kept = s.kept := by
  simp [State.loadAx]
@[simp] theorem State.kept_loadTasks (s : State) (c : StationCfg) (now : Bool) :
    (State.loadTasks s c now).kept = s.kept := by
  unfold State.loadTasks
  simp only []
  (repeat' split) <;> first | (with_reducible rfl) | (simp; done) | (simp [State.kept_foldl]; done) | (exact State.kept_fold _ (fun s a => by first | (simp; done) | ((repeat' split) <;> simp)) _ (by simp))
@[simp] theorem State.kept_closeSession (s : State) :
    (State.closeSession s).kept = s.kept := by
  unfold State.closeSession
  (repeat' split) <;> simp
@[simp] theorem State.kept_loadKeys (s : State) (c : StationCfg) :
    (State.loadKeys s c).kept = s.kept := by
  unfold State.loadKeys
  simp only []
  (repeat' split) <;> first | (with_reducible rfl) | (simp; done)
@[simp] theorem State.kept_loadUnits (s : State) (c : StationCfg) :
    (State.loadUnits s c).kept = s.kept := by
  simp [State.loadUnits]
@[simp] theorem State.kept_loadConfig (s : State) (c : StationCfg) (now : Bool) :
    (State.loadConfig s c now).kept = s.kept := by
  unfold State.loadConfig
  (repeat' split) <;> simp
@[simp] theorem State.kept_adoptConfig (s : State) (c : StationCfg) :
    (State.adoptConfig s c).kept = s.kept := by
  simp [State.adoptConfig]

/-! Machine/XchOps.lean -/

@[simp] theorem State.kept_xchAbort (s : State) (reason : Nat) :
    (State.xchAbort s reason).kept = s.kept := by
  unfold State.xchAbort
  simp only []
  (repeat' split) <;> first | (with_reducible rfl) | (simp; done)
@[simp] theorem State.kept_switchNow (s : State) (c : StationCfg) :
    (State.switchNow s c).kept = s.kept := by
  unfold State.switchNow
  simp only []
  (repeat' split) <;> first | (with_reducible rfl) | (simp; done)
@[simp] theorem State.kept_packageCfg (s : State) :
    (State.packageCfg s).kept = s.kept := by
  unfold State.packageCfg
  (repeat' split) <;> simp
@[simp] theorem State.kept_xchBeforeT0 (s : State) (n t0 : Nat) :
    (State.xchBeforeT0 s n t0).kept = s.kept := by
  unfold State.xchBeforeT0
  simp only []
  (repeat' split) <;> first | (with_reducible rfl) | (simp; done)
@[simp] theorem State.kept_goAt (s : State) (n : Nat) :
    (State.goAt s n).kept = s.kept := by
  unfold State.goAt
  simp only []
  (repeat' split) <;> first | (with_reducible rfl) | (simp; done)
@[simp] theorem State.kept_xchSwitch (s : State) (tc : Nat) :
    (State.xchSwitch s tc).kept = s.kept := by
  simp [State.xchSwitch]
@[simp] theorem State.kept_xchTc (s : State) (n : Nat) (k : DWord) (tc : Nat) :
    (State.xchTc s n k tc).kept = s.kept := by
  unfold State.xchTc
  simp only []
  (repeat' split) <;> first | (with_reducible rfl) | (simp; done)
@[simp] theorem State.kept_xchCommit (s : State) (n : Nat) :
    (State.xchCommit s n).kept = s.kept := by
  unfold State.xchCommit
  simp only []
  (repeat' split) <;> first | (with_reducible rfl) | (simp; done)
@[simp] theorem State.kept_mirrorTick (s : State) :
    (State.mirrorTick s).kept = s.kept := by
  unfold State.mirrorTick
  (repeat' split) <;> simp
@[simp] theorem State.kept_xchPivotFault (s : State) (n : Nat) :
    (State.xchPivotFault s n).kept = s.kept := by
  unfold State.xchPivotFault
  (repeat' split) <;> simp
@[simp] theorem State.kept_xchGo (s : State) (k : DWord) :
    (State.xchGo s k).kept = s.kept := by
  unfold State.xchGo
  simp only []
  (repeat' split) <;> first | (with_reducible rfl) | (simp; done)
@[simp] theorem State.kept_xchVerdict (s : State) (n : Nat) (k : DWord) (code ta : Nat) :
    (State.xchVerdict s n k code ta).kept = s.kept := by
  unfold State.xchVerdict
  (repeat' split) <;> simp
@[simp] theorem State.kept_carry (s : State) (p : Package) (n : Nat) (new : Tbl Byte) :
    (State.carry s p n new).kept = s.kept := by
  unfold State.carry
  exact State.kept_foldl _ (fun s a => by first | (simp; done) | ((repeat' split) <;> simp)) _ _
@[simp] theorem State.kept_settle (s : State) (p : Package) :
    (State.settle s p).kept = s.kept := by
  unfold State.settle
  (repeat' split) <;> simp
@[simp] theorem State.kept_settled (s : State) (p : Package) :
    (State.settled s p).kept = s.kept := by
  unfold State.settled
  simp only []
  (repeat' split) <;> first | (with_reducible rfl) | (simp; done)

/-! Machine/CycCmd.lean -/

@[simp] theorem State.kept_missedT0 (s : State) (n : Nat) :
    (State.missedT0 s n).kept = s.kept := by
  unfold State.missedT0
  (repeat' split) <;> simp
@[simp] theorem State.kept_taskT0 (s : State) (n t0 : Nat) (env : T0Env) (fallback : Bool) :
    (State.taskT0 s n t0 env fallback).kept = s.kept := by
  unfold State.taskT0
  simp only []
  (repeat' split) <;> first | (with_reducible rfl) | (simp; done)
@[simp] theorem State.kept_takeTaskCfg (s : State) (n : Nat) :
    (State.takeTaskCfg s n).kept = s.kept := by
  unfold State.takeTaskCfg
  (repeat' split) <;> simp
@[simp] theorem State.kept_beforeT0 (s : State) (n t0 : Nat) :
    (State.beforeT0 s n t0).kept = s.kept := by
  simp [State.beforeT0]
theorem kept_execTaskT0 (n : Fin 32) (env : T0Env) (s : State) :
    ∃ s', execTaskT0 n env s = .next s' ∧ s'.kept = s.kept := by
  unfold execTaskT0
  simp only []
  (repeat' split) <;> (with_reducible refine keeps_next ?_) <;> first | (with_reducible rfl) | (simp; done)
theorem kept_execAngleFiring (n : Fin 32) (entry : Fin 24) (forward : Bool) (ns : Fin 10000) (env : T0Env) (s : State) :
    ∃ s', execAngleFiring n entry forward ns env s = .next s' ∧ s'.kept = s.kept := by
  unfold execAngleFiring
  simp only []
  (repeat' split) <;> (with_reducible refine keeps_next ?_) <;> first | (with_reducible rfl) | (simp; done)
theorem kept_execFallbackT0 (n : Fin 32) (firing : Bool) (env : T0Env) (s : State) :
    ∃ s', execFallbackT0 n firing env s = .next s' ∧ s'.kept = s.kept := by
  unfold execFallbackT0
  simp only []
  (repeat' split) <;> (with_reducible refine keeps_next ?_) <;> first | (with_reducible rfl) | (simp; done)
theorem kept_execAgreedImageComplete (n : Fin 32) (s : State) :
    ∃ s', execAgreedImageComplete n s = .next s' ∧ s'.kept = s.kept := by
  unfold execAgreedImageComplete
  simp only []
  (repeat' split) <;> (with_reducible refine keeps_next ?_) <;> first | (with_reducible rfl) | (simp; done)
theorem kept_execRickInputDeadline (n : Fin 32) (s : State) :
    ∃ s', execRickInputDeadline n s = .next s' ∧ s'.kept = s.kept := by
  unfold execRickInputDeadline
  (repeat' split) <;> (with_reducible refine keeps_next ?_) <;> first | (with_reducible rfl) | (simp; done)
@[simp] theorem State.kept_atTc (s : State) (n tc : Nat) :
    (State.atTc s n tc).kept = s.kept := by
  unfold State.atTc
  simp only []
  (repeat' split) <;> first | (with_reducible rfl) | (simp; done)
@[simp] theorem State.kept_fire (s : State) (n : Nat) (cycle : DWord) : (s.fire n cycle).kept = s.kept := by
  unfold State.fire
  have h := State.kept_capture s n cycle .self
  generalize s.capture n cycle .self = c at h
  obtain ⟨t, c⟩ := c
  cases c <;> simpa using h
@[simp] theorem State.kept_commitTriggers (s : State) (n : Nat) (k : DWord) (old new : Tbl Byte) :
    (State.commitTriggers s n k old new).kept = s.kept := by
  unfold State.commitTriggers
  exact State.kept_foldl _ (fun s a => by first | (simp; done) | ((repeat' split) <;> simp)) _ _
@[simp] theorem State.kept_modUnit (s : State) (u : Nat) (f : RxUnit → RxUnit) :
    (State.modUnit s u f).kept = s.kept := by
  simp [State.modUnit]
@[simp] theorem State.kept_rickSend (s : State) (o : RickOut) :
    (State.rickSend s o).kept = s.kept := by
  unfold State.rickSend
  (repeat' split) <;> simp
@[simp] theorem State.kept_rickFrame (s : State) (u : Nat) (f : RickHead → RickOut) :
    (State.rickFrame s u f).kept = s.kept := by
  simp [State.rickFrame]
@[simp] theorem State.kept_sendOuts (s : State) (n : Nat) (k : DWord) (img : Tbl Byte) :
    (State.sendOuts s n k img).kept = s.kept := by
  unfold State.sendOuts
  simp only []
  (repeat' split) <;> first | (with_reducible rfl) | (simp; done) | (simp [State.kept_foldl]; done) | (exact State.kept_fold _ (fun s a => by first | (simp; done) | ((repeat' split) <;> simp)) _ (by simp))
@[simp] theorem State.kept_endSteps (s : State) (n : Nat) :
    (State.endSteps s n).kept = s.kept := by
  simp [State.endSteps]
@[simp] theorem State.kept_tellCommit (s : State) (n : Nat) (r : CycleRun) (own : HashPair) (new : Tbl Byte) :
    (State.tellCommit s n r own new).kept = s.kept := by
  unfold State.tellCommit
  simp only []
  (repeat' split) <;> first | (with_reducible rfl) | (simp; done)
@[simp] theorem State.kept_commit (s : State) (n : Nat) (r : CycleRun) (tc : Nat) :
    (State.commit s n r tc).kept = s.kept := by
  simp [State.commit]
theorem kept_execCommitDeadline (n : Fin 32) (s : State) :
    ∃ s', execCommitDeadline n s = .next s' ∧ s'.kept = s.kept := by
  unfold execCommitDeadline
  (repeat' split) <;> (with_reducible refine keeps_next ?_) <;> first | (with_reducible rfl) | (simp; done)
@[simp] theorem State.kept_settleFault (s : State) (n : Nat) :
    (State.settleFault s n).kept = s.kept := by
  unfold State.settleFault
  (repeat' split) <;> simp
@[simp] theorem State.kept_abandonCycle (s : State) (n : Nat) :
    (State.abandonCycle s n).kept = s.kept := by
  simp [State.abandonCycle]
@[simp] theorem State.kept_billetFault (s : State) (e : Nat) (b : BRef) (kind : Nat) (addr : Word) :
    (State.billetFault s e b kind addr).kept = s.kept := by
  unfold State.billetFault
  simp only []
  (repeat' split) <;> first | (with_reducible rfl) | (simp; done)
@[simp] theorem State.kept_powerOff (s : State) :
    (State.powerOff s).kept = s.kept := by
  simp [State.powerOff]
theorem kept_execPowerLoss (s : State) :
    ∃ s', execPowerLoss s = .next s' ∧ s'.kept = s.kept := by
  unfold execPowerLoss
  simp only []
  (repeat' split) <;> (with_reducible refine keeps_next ?_) <;> first | (with_reducible rfl) | (simp; done) | (simp [State.kept_foldl]; done) | (exact State.kept_fold _ (fun s a => by first | (simp; done) | ((repeat' split) <;> simp)) _ (by simp))

/-! Machine/Fab.lean -/

theorem kept_execEngineExamine (es : List (Fin 16)) (s : State) :
    ∃ s', execEngineExamine es s = .next s' ∧ s'.kept = s.kept := by
  exact keeps_next (by simp)
theorem kept_execBilletLoadDone (e : Fin 16) (s : State) :
    ∃ s', execBilletLoadDone e s = .next s' ∧ s'.kept = s.kept := by
  unfold execBilletLoadDone
  (repeat' split) <;> (with_reducible refine keeps_next ?_) <;> first | (with_reducible rfl) | (simp; done)
@[simp] theorem State.kept_retire (s : State) (n : Nat) (r : CycleRun) (b : Billet) (burst : List (Nat × Byte)) (tc : Nat) :
    (State.retire s n r b burst tc).kept = s.kept := by
  unfold State.retire
  simp only []
  (repeat' split) <;> first | (with_reducible rfl) | (simp; done)
theorem kept_execBilletRetire (e : Fin 16) (ok : Bool) (us : Nat) (ns : Fin 10000) (s : State) :
    ∃ s', execBilletRetire e ok us ns s = .next s' ∧ s'.kept = s.kept := by
  unfold execBilletRetire
  simp only []
  (repeat' split) <;> (with_reducible refine keeps_next ?_) <;> first | (with_reducible rfl) | (simp; done)
theorem kept_execBilletFault (e : Fin 16) (us : Nat) (s : State) :
    ∃ s', execBilletFault e us s = .next s' ∧ s'.kept = s.kept := by
  unfold execBilletFault
  (repeat' split) <;> (with_reducible refine keeps_next ?_) <;> first | (with_reducible rfl) | (simp; done)
theorem kept_execBilletRunaway (e : Fin 16) (addr : Word) (us : Nat) (s : State) :
    ∃ s', execBilletRunaway e addr us s = .next s' ∧ s'.kept = s.kept := by
  unfold execBilletRunaway
  (repeat' split) <;> (with_reducible refine keeps_next ?_) <;> first | (with_reducible rfl) | (simp; done)
theorem kept_execEngineFence (e : Fin 16) (us : Nat) (s : State) :
    ∃ s', execEngineFence e us s = .next s' ∧ s'.kept = s.kept := by
  unfold execEngineFence
  simp only []
  (repeat' split) <;> (with_reducible refine keeps_next ?_) <;> first | (with_reducible rfl) | (simp; done)
@[simp] theorem State.kept_fwEnd (s : State) (e : Nat) (status detail : Nat) :
    (State.fwEnd s e status detail).kept = s.kept := by
  unfold State.fwEnd
  (repeat' split) <;> simp
theorem kept_execEngineSelfTestDone (e : Fin 16) (pass : Bool) (s : State) :
    ∃ s', execEngineSelfTestDone e pass s = .next s' ∧ s'.kept = s.kept := by
  unfold execEngineSelfTestDone
  simp only []
  (repeat' split) <;> (with_reducible refine keeps_next ?_) <;> first | (with_reducible rfl) | (simp; done)
theorem kept_execEngineFwLoaded (e : Fin 16) (s : State) :
    ∃ s', execEngineFwLoaded e s = .next s' ∧ s'.kept = s.kept := by
  unfold execEngineFwLoaded
  simp only []
  (repeat' split) <;> (with_reducible refine keeps_next ?_) <;> first | (with_reducible rfl) | (simp; done)
@[simp] theorem State.kept_startReload (s : State) (line : Nat) (l : List (Nat × BRef)) :
    (State.startReload s line l).kept = s.kept := by
  simp [State.startReload]
theorem kept_execSramUe (line : Nat) (engines : List (Fin 16 × Nat)) (s : State) :
    ∃ s', execSramUe line engines s = .next s' ∧ s'.kept = s.kept := by
  unfold execSramUe
  extract_lets stop r
  have hr : r.1.kept = s.kept := State.kept_foldl_fst _ (fun a x => by simp only [stop]; split <;> simp) _ _
  exact keeps_next (by simp [hr])
@[simp] theorem State.kept_after_execSramUe (line : Nat) (engines : List (Fin 16 × Nat)) (s : State) :
    (s.after (execSramUe line engines s)).kept = s.kept := by
  obtain ⟨s', h, k⟩ := kept_execSramUe line engines s
  simp [State.after, h, k]
theorem kept_execSramLineReloaded (line : Nat) (s : State) :
    ∃ s', execSramLineReloaded line s = .next s' ∧ s'.kept = s.kept := by
  unfold execSramLineReloaded
  simp only []
  (repeat' split) <;> (with_reducible refine keeps_next ?_) <;> first | (with_reducible rfl) | (simp; done) | (simp [State.kept_foldl]; done) | (exact State.kept_fold _ (fun s a => by first | (simp; done) | ((repeat' split) <;> simp)) _ (by simp))
@[simp] theorem State.kept_breakHold (s : State) (n e : Nat) :
    (State.breakHold s n e).kept = s.kept := by
  unfold State.breakHold
  (repeat' split) <;> simp
theorem kept_execBreakpointReached (e : Fin 16) (off : Nat) (s : State) :
    ∃ s', execBreakpointReached e off s = .next s' ∧ s'.kept = s.kept := by
  unfold execBreakpointReached
  (repeat' split) <;> (with_reducible refine keeps_next ?_) <;> first | (with_reducible rfl) | (simp; done)
theorem kept_execActivateFwEngine (o : Origin) (e : Fin 16) (s : State) :
    ∃ s', execActivateFwEngine o e s = .next s' ∧ s'.kept = s.kept := by
  unfold execActivateFwEngine
  simp only []
  (repeat' split) <;> (with_reducible refine keeps_next ?_) <;> first | (with_reducible rfl) | (simp; done)
@[simp] theorem State.kept_after_execActivateFwEngine (o : Origin) (e : Fin 16) (s : State) :
    (s.after (execActivateFwEngine o e s)).kept = s.kept := by
  obtain ⟨s', h, k⟩ := kept_execActivateFwEngine o e s
  simp [State.after, h, k]

/-! Machine/Mode.lean -/

@[simp] theorem State.kept_refuseMode (s : State) (m : ProgMode) (o : Origin) (code : Nat) :
    (State.refuseMode s m o code).kept = s.kept := by
  unfold State.refuseMode
  (repeat' split) <;> simp
@[simp] theorem State.kept_okMode (s : State) (m : ProgMode) (o : Origin) :
    (State.okMode s m o).kept = s.kept := by
  unfold State.okMode
  (repeat' split) <;> simp
@[simp] theorem State.kept_acceptMode (s : State) (m : ProgMode) (origins : List Origin) :
    (State.acceptMode s m origins).kept = s.kept := by
  unfold State.acceptMode
  simp only []
  (repeat' split) <;> first | (with_reducible rfl) | (simp; done)
@[simp] theorem State.kept_judgeMode (s : State) (m : ProgMode) (origins : List Origin) :
    (State.judgeMode s m origins).kept = s.kept := by
  unfold State.judgeMode
  simp only []
  (repeat' split) <;> first | (with_reducible rfl) | (simp; done) | (simp [State.kept_foldl]; done) | (exact State.kept_fold _ (fun s a => by first | (simp; done) | ((repeat' split) <;> simp)) _ (by simp))
@[simp] theorem State.kept_pendsNow (s : State) :
    (State.pendsNow s).kept = s.kept := by
  unfold State.pendsNow
  exact State.kept_foldl _ (fun s a => by first | (simp; done) | ((repeat' split) <;> simp)) _ _
@[simp] theorem State.kept_modeTick (s : State) :
    (State.modeTick s).kept = s.kept := by
  unfold State.modeTick
  simp only []
  (repeat' split) <;> first | (with_reducible rfl) | (simp; done) | (simp [State.kept_foldl]; done) | (exact State.kept_fold _ (fun s a => by first | (simp; done) | ((repeat' split) <;> simp)) _ (by simp))
@[simp] theorem State.kept_bufMode (s : State) (m : ProgMode) (o : Origin) :
    (State.bufMode s m o).kept = s.kept := by
  simp [State.bufMode]
theorem kept_execModeRun (o : Origin) (s : State) :
    ∃ s', execModeRun o s = .next s' ∧ s'.kept = s.kept := by
  exact keeps_next (by simp)
theorem kept_execModeStop (o : Origin) (s : State) :
    ∃ s', execModeStop o s = .next s' ∧ s'.kept = s.kept := by
  exact keeps_next (by simp)
theorem kept_execModeHold (o : Origin) (s : State) :
    ∃ s', execModeHold o s = .next s' ∧ s'.kept = s.kept := by
  exact keeps_next (by simp)
@[simp] theorem State.kept_refuseStep (s : State) (o : Origin) (code : Nat) :
    (State.refuseStep s o code).kept = s.kept := by
  simp [State.refuseStep]
theorem kept_execModeStep (o : Origin) (n : Nat) (s : State) :
    ∃ s', execModeStep o n s = .next s' ∧ s'.kept = s.kept := by
  unfold execModeStep
  (repeat' split) <;> (with_reducible refine keeps_next ?_) <;> first | (with_reducible rfl) | (simp; done)
theorem kept_execBreakSet (o : Origin) (n billet off : Nat) (s : State) :
    ∃ s', execBreakSet o n billet off s = .next s' ∧ s'.kept = s.kept := by
  unfold execBreakSet
  (repeat' split) <;> (with_reducible refine keeps_next ?_) <;> first | (with_reducible rfl) | (simp; done)
theorem kept_execBreakClear (o : Origin) (n billet off : Nat) (s : State) :
    ∃ s', execBreakClear o n billet off s = .next s' ∧ s'.kept = s.kept := by
  exact keeps_next (by simp)
theorem kept_execTaskRestart (o : Origin) (n : Nat) (s : State) :
    ∃ s', execTaskRestart o n s = .next s' ∧ s'.kept = s.kept := by
  unfold execTaskRestart
  simp only []
  (repeat' split) <;> (with_reducible refine keeps_next ?_) <;> first | (with_reducible rfl) | (simp; done)
@[simp] theorem State.kept_after_execTaskRestart (o : Origin) (n : Nat) (s : State) :
    (s.after (execTaskRestart o n s)).kept = s.kept := by
  obtain ⟨s', h, k⟩ := kept_execTaskRestart o n s
  simp [State.after, h, k]
theorem kept_execBudget (o : Origin) (n : Nat) (budget quota limit : Option Nat) (stop : Option Bool) (s : State) :
    ∃ s', execBudget o n budget quota limit stop s = .next s' ∧ s'.kept = s.kept := by
  unfold execBudget
  simp only []
  (repeat' split) <;> (with_reducible refine keeps_next ?_) <;> first | (with_reducible rfl) | (simp; done)
@[simp] theorem State.kept_after_execBudget (o : Origin) (n : Nat) (budget quota limit : Option Nat) (stop : Option Bool) (s : State) :
    (s.after (execBudget o n budget quota limit stop s)).kept = s.kept := by
  obtain ⟨s', h, k⟩ := kept_execBudget o n budget quota limit stop s
  simp [State.after, h, k]

/-! Machine/Xch.lean -/

theorem kept_execCommitDurable (n : Fin 32) (s : State) :
    ∃ s', execCommitDurable n s = .next s' ∧ s'.kept = s.kept := by
  unfold execCommitDurable
  simp only []
  (repeat' split) <;> (with_reducible refine keeps_next ?_) <;> first | (with_reducible rfl) | (simp; done)
@[simp] theorem State.kept_refuseXch (s : State) (o : Origin) (reason : Nat) :
    (State.refuseXch s o reason).kept = s.kept := by
  simp [State.refuseXch]
@[simp] theorem State.kept_stageWhole (s : State) (o : Origin) (p : Package) (signer : Option Nat) :
    (State.stageWhole s o p signer).kept = s.kept := by
  unfold State.stageWhole
  simp only []
  (repeat' split) <;> first | (with_reducible rfl) | (simp; done)
theorem kept_execStage (o : Origin) (off total len : Nat) (first last : Bool) (pkg : Package × Option Nat) (s : State) :
    ∃ s', execStage o off total len first last pkg s = .next s' ∧ s'.kept = s.kept := by
  unfold execStage
  simp only []
  (repeat' split) <;> (with_reducible refine keeps_next ?_) <;> first | (with_reducible rfl) | (simp; done)
@[simp] theorem State.kept_after_execStage (o : Origin) (off total len : Nat) (first last : Bool) (pkg : Package × Option Nat) (s : State) :
    (s.after (execStage o off total len first last pkg s)).kept = s.kept := by
  obtain ⟨s', h, k⟩ := kept_execStage o off total len first last pkg s
  simp [State.after, h, k]
@[simp] theorem State.kept_stageRefused (s : State) (reason : Nat) :
    (State.stageRefused s reason).kept = s.kept := by
  simp [State.stageRefused]
@[simp] theorem State.kept_staged (s : State) :
    (State.staged s).kept = s.kept := by
  unfold State.staged
  (repeat' split) <;> simp
theorem kept_execStagingComplete (s : State) :
    ∃ s', execStagingComplete s = .next s' ∧ s'.kept = s.kept := by
  unfold execStagingComplete
  simp only []
  (repeat' split) <;> (with_reducible refine keeps_next ?_) <;> first | (with_reducible rfl) | (simp; done)
@[simp] theorem State.kept_armInStop (s : State) (p : Package) :
    (State.armInStop s p).kept = s.kept := by
  unfold State.armInStop
  simp only []
  (repeat' split) <;> first | (with_reducible rfl) | (simp; done) | (simp [State.kept_foldl]; done) | (exact State.kept_fold _ (fun s a => by first | (simp; done) | ((repeat' split) <;> simp)) _ (by simp))
@[simp] theorem State.kept_arm (s : State) (p : Package) (o : Origin) (n : Nat) (k : DWord) :
    (State.arm s p o n k).kept = s.kept := by
  unfold State.arm
  simp only []
  (repeat' split) <;> first | (with_reducible rfl) | (simp; done)
theorem kept_execArm (o : Origin) (n : Nat) (k : DWord) (s : State) :
    ∃ s', execArm o n k s = .next s' ∧ s'.kept = s.kept := by
  unfold execArm
  simp only []
  (repeat' split) <;> (with_reducible refine keeps_next ?_) <;> first | (with_reducible rfl) | (simp; done)
@[simp] theorem State.kept_after_execArm (o : Origin) (n : Nat) (k : DWord) (s : State) :
    (s.after (execArm o n k s)).kept = s.kept := by
  obtain ⟨s', h, k⟩ := kept_execArm o n k s
  simp [State.after, h, k]
theorem kept_execDisarm (o : Origin) (s : State) :
    ∃ s', execDisarm o s = .next s' ∧ s'.kept = s.kept := by
  unfold execDisarm
  (repeat' split) <;> (with_reducible refine keeps_next ?_) <;> first | (with_reducible rfl) | (simp; done)
@[simp] theorem State.kept_after_execDisarm (o : Origin) (s : State) :
    (s.after (execDisarm o s)).kept = s.kept := by
  obtain ⟨s', h, k⟩ := kept_execDisarm o s
  simp [State.after, h, k]
@[simp] theorem State.kept_discard (s : State) :
    (State.discard s).kept = s.kept := by
  simp [State.discard]
theorem kept_execDiscard (o : Origin) (s : State) :
    ∃ s', execDiscard o s = .next s' ∧ s'.kept = s.kept := by
  unfold execDiscard
  (repeat' split) <;> (with_reducible refine keeps_next ?_) <;> first | (with_reducible rfl) | (simp; done)
@[simp] theorem State.kept_after_execDiscard (o : Origin) (s : State) :
    (s.after (execDiscard o s)).kept = s.kept := by
  obtain ⟨s', h, k⟩ := kept_execDiscard o s
  simp [State.after, h, k]
theorem kept_execRollback (o : Origin) (s : State) :
    ∃ s', execRollback o s = .next s' ∧ s'.kept = s.kept := by
  unfold execRollback
  (repeat' split) <;> (with_reducible refine keeps_next ?_) <;> first | (with_reducible rfl) | (simp; done)
@[simp] theorem State.kept_after_execRollback (o : Origin) (s : State) :
    (s.after (execRollback o s)).kept = s.kept := by
  obtain ⟨s', h, k⟩ := kept_execRollback o s
  simp [State.after, h, k]
theorem kept_execPrecarryComplete (s : State) :
    ∃ s', execPrecarryComplete s = .next s' ∧ s'.kept = s.kept := by
  unfold execPrecarryComplete
  (repeat' split) <;> (with_reducible refine keeps_next ?_) <;> first | (with_reducible rfl) | (simp; done)
theorem kept_execCarryComplete (n : Fin 32) (s : State) :
    ∃ s', execCarryComplete n s = .next s' ∧ s'.kept = s.kept := by
  unfold execCarryComplete
  (repeat' split) <;> (with_reducible refine keeps_next ?_) <;> first | (with_reducible rfl) | (simp; done)
theorem kept_execSettleComplete (s : State) :
    ∃ s', execSettleComplete s = .next s' ∧ s'.kept = s.kept := by
  unfold execSettleComplete
  (repeat' split) <;> (with_reducible refine keeps_next ?_) <;> first | (with_reducible rfl) | (simp; done)

/-! Machine/Switch.lean -/

@[simp] theorem State.kept_configReason (s : State) (r : Nat) :
    (State.configReason s r).kept = s.kept := by
  simp [State.configReason]
@[simp] theorem State.kept_configRefused (s : State) (o : Origin) (r : Nat) :
    (State.configRefused s o r).kept = s.kept := by
  simp [State.configRefused]
@[simp] theorem State.kept_pendConfig (s : State) (c : StationCfg) (e : Effect) (o : Origin) :
    (State.pendConfig s c e o).kept = s.kept := by
  simp [State.pendConfig]
@[simp] theorem State.kept_acceptConfig (s : State) (c : StationCfg) (o : Origin) :
    (State.acceptConfig s c o).kept = s.kept := by
  unfold State.acceptConfig
  (repeat' split) <;> simp
@[simp] theorem State.kept_judgeConfig (s : State) (c : StationCfg) :
    (State.judgeConfig s c).kept = s.kept := by
  unfold State.judgeConfig
  (repeat' split) <;> simp
@[simp] theorem State.kept_firstConfig (s : State) (c : StationCfg) :
    (State.firstConfig s c).kept = s.kept := by
  simp [State.firstConfig]
theorem kept_execActivateConfig (o : Origin) (s : State) :
    ∃ s', execActivateConfig o s = .next s' ∧ s'.kept = s.kept := by
  unfold execActivateConfig
  (repeat' split) <;> (with_reducible refine keeps_next ?_) <;> first | (with_reducible rfl) | (simp; done)
@[simp] theorem State.kept_after_execActivateConfig (o : Origin) (s : State) :
    (s.after (execActivateConfig o s)).kept = s.kept := by
  obtain ⟨s', h, k⟩ := kept_execActivateConfig o s
  simp [State.after, h, k]
theorem kept_execConfigSwitchInstant (s : State) :
    ∃ s', execConfigSwitchInstant s = .next s' ∧ s'.kept = s.kept := by
  unfold execConfigSwitchInstant
  (repeat' split) <;> (with_reducible refine keeps_next ?_) <;> first | (with_reducible rfl) | (simp; done)
@[simp] theorem State.kept_cfgTick (s : State) :
    (State.cfgTick s).kept = s.kept := by
  unfold State.cfgTick
  simp only []
  (repeat' split) <;> first | (with_reducible rfl) | (simp; done)
theorem kept_execImageWrite (o : Origin) (target off total len : Nat) (first last : Bool) (obj : ImageObj) (s : State) :
    ∃ s', execImageWrite o target off total len first last obj s = .next s' ∧ s'.kept = s.kept := by
  unfold execImageWrite
  simp only []
  (repeat' split) <;> (with_reducible refine keeps_next ?_) <;> first | (with_reducible rfl) | (simp; done)
@[simp] theorem State.kept_after_execImageWrite (o : Origin) (target off total len : Nat) (first last : Bool) (obj : ImageObj) (s : State) :
    (s.after (execImageWrite o target off total len first last obj s)).kept = s.kept := by
  obtain ⟨s', h, k⟩ := kept_execImageWrite o target off total len first last obj s
  simp [State.after, h, k]
theorem kept_execActivateSafety (o : Origin) (s : State) :
    ∃ s', execActivateSafety o s = .next s' ∧ s'.kept = s.kept := by
  unfold execActivateSafety
  (repeat' split) <;> (with_reducible refine keeps_next ?_) <;> first | (with_reducible rfl) | (simp; done)
@[simp] theorem State.kept_after_execActivateSafety (o : Origin) (s : State) :
    (s.after (execActivateSafety o s)).kept = s.kept := by
  obtain ⟨s', h, k⟩ := kept_execActivateSafety o s
  simp [State.after, h, k]
@[simp] theorem State.kept_safetyTick (s : State) :
    (State.safetyTick s).kept = s.kept := by
  unfold State.safetyTick
  (repeat' split) <;> simp

/-! Machine/Twin.lean -/

theorem kept_execLaneBlockLockLoss (l : Fin 2) (s : State) :
    ∃ s', execLaneBlockLockLoss l s = .next s' ∧ s'.kept = s.kept := by
  unfold execLaneBlockLockLoss
  (repeat' split) <;> (with_reducible refine keeps_next ?_) <;> first | (with_reducible rfl) | (simp; done)
theorem kept_execLaneTrainAttempt (l : Fin 2) (s : State) :
    ∃ s', execLaneTrainAttempt l s = .next s' ∧ s'.kept = s.kept := by
  unfold execLaneTrainAttempt
  simp only []
  (repeat' split) <;> (with_reducible refine keeps_next ?_) <;> first | (with_reducible rfl) | (simp; done)
theorem kept_execLaneTrainTimeout (l : Fin 2) (s : State) :
    ∃ s', execLaneTrainTimeout l s = .next s' ∧ s'.kept = s.kept := by
  unfold execLaneTrainTimeout
  simp only []
  (repeat' split) <;> (with_reducible refine keeps_next ?_) <;> first | (with_reducible rfl) | (simp; done)
theorem kept_execLaneTrained (l : Fin 2) (s : State) :
    ∃ s', execLaneTrained l s = .next s' ∧ s'.kept = s.kept := by
  unfold execLaneTrained
  simp only []
  (repeat' split) <;> (with_reducible refine keeps_next ?_) <;> first | (with_reducible rfl) | (simp; done)
@[simp] theorem State.kept_joinCheck (s : State) :
    (State.joinCheck s).kept = s.kept := by
  unfold State.joinCheck
  (repeat' split) <;> simp
@[simp] theorem State.kept_linkJoin (s : State) :
    (State.linkJoin s).kept = s.kept := by
  unfold State.linkJoin
  (repeat' split) <;> simp
theorem kept_execHandshake (l : Fin 2) (ok : Bool) (peer : PeerId) (randA randB : BitVec 128) (s : State) :
    ∃ s', execHandshake l ok peer randA randB s = .next s' ∧ s'.kept = s.kept := by
  unfold execHandshake
  simp only []
  (repeat' split) <;> (with_reducible refine keeps_next ?_) <;> first | (with_reducible rfl) | (simp; done)
theorem kept_execOlviaAuthFail (l : Fin 2) (s : State) :
    ∃ s', execOlviaAuthFail l s = .next s' ∧ s'.kept = s.kept := by
  unfold execOlviaAuthFail
  simp only []
  (repeat' split) <;> (with_reducible refine keeps_next ?_) <;> first | (with_reducible rfl) | (simp; done)
theorem kept_execHeartbeatSend (s : State) :
    ∃ s', execHeartbeatSend s = .next s' ∧ s'.kept = s.kept := by
  unfold execHeartbeatSend
  (repeat' split) <;> (with_reducible refine keeps_next ?_) <;> first | (with_reducible rfl) | (simp; done)
@[simp] theorem State.kept_axCompare (s : State) (h : Heartbeat) :
    (State.axCompare s h).kept = s.kept := by
  unfold State.axCompare
  (repeat' split) <;> simp
@[simp] theorem State.kept_joinGivenUp (s : State) :
    (State.joinGivenUp s).kept = s.kept := by
  simp [State.joinGivenUp]
@[simp] theorem State.kept_linkCompare (s : State) (h : Heartbeat) (was : Nat) :
    (State.linkCompare s h was).kept = s.kept := by
  unfold State.linkCompare
  simp only []
  (repeat' split) <;> first | (with_reducible rfl) | (simp; done)
@[simp] theorem State.kept_takeTick (s : State) (tick : Nat) :
    (State.takeTick s tick).kept = s.kept := by
  unfold State.takeTick
  (repeat' split) <;> simp
@[simp] theorem State.kept_tickCheck (s : State) :
    (State.tickCheck s).kept = s.kept := by
  unfold State.tickCheck
  (repeat' split) <;> simp
@[simp] theorem State.kept_takeHeartbeat (s : State) (h : Heartbeat) :
    (State.takeHeartbeat s h).kept = s.kept := by
  unfold State.takeHeartbeat
  simp only []
  (repeat' split) <;> first | (with_reducible rfl) | (simp; done)
theorem kept_execHeartbeat (f : OlviaHdr) (h : Heartbeat) (s : State) :
    ∃ s', execHeartbeat f h s = .next s' ∧ s'.kept = s.kept := by
  unfold execHeartbeat
  split
  · exact keeps_next rfl
  · exact keeps_next (State.kept_onFrame _ _ _ fun t => by simp)
theorem kept_execPartnerLost (s : State) :
    ∃ s', execPartnerLost s = .next s' ∧ s'.kept = s.kept := by
  unfold execPartnerLost
  (repeat' split) <;> (with_reducible refine keeps_next ?_) <;> first | (with_reducible rfl) | (simp; done)
@[simp] theorem State.kept_twinUnitFault (s : State) :
    (State.twinUnitFault s).kept = s.kept := by
  unfold State.twinUnitFault
  simp only []
  (repeat' split) <;> first | (with_reducible rfl) | (simp; done)
theorem kept_execKeeperLapse (s : State) :
    ∃ s', execKeeperLapse s = .next s' ∧ s'.kept = s.kept := by
  unfold execKeeperLapse
  (repeat' split) <;> (with_reducible refine keeps_next ?_) <;> first | (with_reducible rfl) | (simp; done)
@[simp] theorem State.kept_lineHigh (s : State) :
    (State.lineHigh s).kept = s.kept := by
  unfold State.lineHigh
  simp only []
  (repeat' split) <;> first | (with_reducible rfl) | (simp; done)
theorem kept_execPartnerRoleLineHigh (s : State) :
    ∃ s', execPartnerRoleLineHigh s = .next s' ∧ s'.kept = s.kept := by
  exact keeps_next (by simp)
@[simp] theorem State.kept_yielded (s : State) (y : Yielding) :
    (State.yielded s y).kept = s.kept := by
  unfold State.yielded
  simp only []
  (repeat' split) <;> first | (with_reducible rfl) | (simp; done) | (simp [State.kept_foldl]; done) | (exact State.kept_fold _ (fun s a => by first | (simp; done) | ((repeat' split) <;> simp)) _ (by simp))
theorem kept_execPartnerRoleLineLow (s : State) :
    ∃ s', execPartnerRoleLineLow s = .next s' ∧ s'.kept = s.kept := by
  unfold execPartnerRoleLineLow
  simp only []
  (repeat' split) <;> (with_reducible refine keeps_next ?_) <;> first | (with_reducible rfl) | (simp; done)
theorem kept_execRoleConflict (s : State) :
    ∃ s', execRoleConflict s = .next s' ∧ s'.kept = s.kept := by
  unfold execRoleConflict
  simp only []
  (repeat' split) <;> (with_reducible refine keeps_next ?_) <;> first | (with_reducible rfl) | (simp; done)
theorem kept_execSplitBrainRelease (s : State) :
    ∃ s', execSplitBrainRelease s = .next s' ∧ s'.kept = s.kept := by
  unfold execSplitBrainRelease
  (repeat' split) <;> (with_reducible refine keeps_next ?_) <;> first | (with_reducible rfl) | (simp; done)
theorem kept_execSamples (f : OlviaHdr) (n : Fin 32) (k : DWord) (vals : List InVal) (s : State) :
    ∃ s', execSamples f n k vals s = .next s' ∧ s'.kept = s.kept := by
  unfold execSamples
  exact keeps_next (State.kept_onFrame _ _ _ fun t => by first | (simp; done) | (split <;> simp))
theorem kept_execAgreed (f : OlviaHdr) (n : Fin 32) (k : DWord) (vals : List InVal) (s : State) :
    ∃ s', execAgreed f n k vals s = .next s' ∧ s'.kept = s.kept := by
  unfold execAgreed
  exact keeps_next (State.kept_onFrame _ _ _ fun t => by first | (simp; done) | (split <;> simp))
@[simp] theorem State.kept_exchangeMissed (s : State) (n : Nat) :
    (State.exchangeMissed s n).kept = s.kept := by
  simp [State.exchangeMissed]
theorem kept_execExchangeMiss (n : Fin 32) (s : State) :
    ∃ s', execExchangeMiss n s = .next s' ∧ s'.kept = s.kept := by
  unfold execExchangeMiss
  simp only []
  (repeat' split) <;> (with_reducible refine keeps_next ?_) <;> first | (with_reducible rfl) | (simp; done)
@[simp] theorem State.kept_imageMatch (s : State) (n : Nat) (h : DWord) :
    (State.imageMatch s n h).kept = s.kept := by
  unfold State.imageMatch
  simp only []
  (repeat' split) <;> first | (with_reducible rfl) | (simp; done)
@[simp] theorem State.kept_takeHash (s : State) (n : Nat) (m : HashMsg) :
    (State.takeHash s n m).kept = s.kept := by
  unfold State.takeHash
  (repeat' split) <;> simp
theorem kept_execHash (f : OlviaHdr) (n : Fin 32) (m : HashMsg) (s : State) :
    ∃ s', execHash f n m s = .next s' ∧ s'.kept = s.kept := by
  unfold execHash
  exact keeps_next (State.kept_onFrame _ _ _ fun t => by first | (simp; done) | (split <;> simp))
theorem kept_execVerdictDeadline (n : Fin 32) (s : State) :
    ∃ s', execVerdictDeadline n s = .next s' ∧ s'.kept = s.kept := by
  unfold execVerdictDeadline
  simp only []
  (repeat' split) <;> (with_reducible refine keeps_next ?_) <;> first | (with_reducible rfl) | (simp; done)
@[simp] theorem State.kept_obeyVerdict (s : State) (n : Nat) (k : DWord) (code ta : Nat) :
    (State.obeyVerdict s n k code ta).kept = s.kept := by
  unfold State.obeyVerdict
  simp only []
  (repeat' split) <;> first | (with_reducible rfl) | (simp; done)
theorem kept_execVerdict (f : OlviaHdr) (n : Fin 32) (k : DWord) (code : Fin 6) (ta : Nat) (s : State) :
    ∃ s', execVerdict f n k code ta s = .next s' ∧ s'.kept = s.kept := by
  unfold execVerdict
  exact keeps_next (State.kept_onFrame _ _ _ fun t => by first | (simp; done) | (split <;> simp))
theorem kept_execVerdictMissing (n : Fin 32) (s : State) :
    ∃ s', execVerdictMissing n s = .next s' ∧ s'.kept = s.kept := by
  unfold execVerdictMissing
  simp only []
  (repeat' split) <;> (with_reducible refine keeps_next ?_) <;> first | (with_reducible rfl) | (simp; done)
@[simp] theorem State.kept_putResult (s : State) (own pass : Bool) :
    (State.putResult s own pass).kept = s.kept := by
  simp [State.putResult]
theorem kept_execMismatchSelfTestDone (pass : Bool) (s : State) :
    ∃ s', execMismatchSelfTestDone pass s = .next s' ∧ s'.kept = s.kept := by
  unfold execMismatchSelfTestDone
  simp only []
  (repeat' split) <;> (with_reducible refine keeps_next ?_) <;> first | (with_reducible rfl) | (simp; done)
@[simp] theorem State.kept_takeResult (s : State) (m : ResultMsg) :
    (State.takeResult s m).kept = s.kept := by
  unfold State.takeResult
  (repeat' split) <;> simp
theorem kept_execResult (f : OlviaHdr) (m : ResultMsg) (s : State) :
    ∃ s', execResult f m s = .next s' ∧ s'.kept = s.kept := by
  unfold execResult
  exact keeps_next (State.kept_onFrame _ _ _ fun t => by first | (simp; done) | (split <;> simp))
@[simp] theorem State.kept_policyMode (s : State) (m : ProgMode) (at' : List (Nat × DWord)) :
    (State.policyMode s m at').kept = s.kept := by
  unfold State.policyMode
  simp only []
  (repeat' split) <;> first | (with_reducible rfl) | (simp; done)
@[simp] theorem State.kept_policyAnswer (s : State) (m : ProgMode) (status detail : Nat) :
    (State.policyAnswer s m status detail).kept = s.kept := by
  unfold State.policyAnswer
  (repeat' split) <;> simp
@[simp] theorem State.kept_takePolicyMsg (s : State) (m : PolicyMsg) :
    (State.takePolicyMsg s m).kept = s.kept := by
  unfold State.takePolicyMsg
  (repeat' split) <;> simp
theorem kept_execPolicy (f : OlviaHdr) (m : PolicyMsg) (s : State) :
    ∃ s', execPolicy f m s = .next s' ∧ s'.kept = s.kept := by
  unfold execPolicy
  exact keeps_next (State.kept_onFrame _ _ _ fun t => by first | (simp; done) | (split <;> simp))
@[simp] theorem State.kept_takeSeqMsg (s : State) (m : SeqMsg) :
    (State.takeSeqMsg s m).kept = s.kept := by
  unfold State.takeSeqMsg
  (repeat' split) <;> simp
theorem kept_execSeqstate (f : OlviaHdr) (m : SeqMsg) (s : State) :
    ∃ s', execSeqstate f m s = .next s' ∧ s'.kept = s.kept := by
  unfold execSeqstate
  exact keeps_next (State.kept_onFrame _ _ _ fun t => by first | (simp; done) | (split <;> simp))
@[simp] theorem State.kept_takeYield (s : State) (r : Region) (handover : Bool) :
    (State.takeYield s r handover).kept = s.kept := by
  unfold State.takeYield
  simp only []
  (repeat' split) <;> first | (with_reducible rfl) | (simp; done)
theorem kept_execYield (f : OlviaHdr) (r : Region) (handover : Bool) (s : State) :
    ∃ s', execYield f r handover s = .next s' ∧ s'.kept = s.kept := by
  unfold execYield
  exact keeps_next (State.kept_onFrame _ _ _ fun t => by first | (simp; done) | (split <;> simp))
@[simp] theorem State.kept_handoverRefused (s : State) (o : Origin) (code : Nat) :
    (State.handoverRefused s o code).kept = s.kept := by
  simp [State.handoverRefused]
theorem kept_execYieldFail (s : State) :
    ∃ s', execYieldFail s = .next s' ∧ s'.kept = s.kept := by
  unfold execYieldFail
  (repeat' split) <;> (with_reducible refine keeps_next ?_) <;> first | (with_reducible rfl) | (simp; done)
theorem kept_execHandover (o : Origin) (s : State) :
    ∃ s', execHandover o s = .next s' ∧ s'.kept = s.kept := by
  unfold execHandover
  (repeat' split) <;> (with_reducible refine keeps_next ?_) <;> first | (with_reducible rfl) | (simp; done)
@[simp] theorem State.kept_after_execHandover (o : Origin) (s : State) :
    (s.after (execHandover o s)).kept = s.kept := by
  obtain ⟨s', h, k⟩ := kept_execHandover o s
  simp [State.after, h, k]
@[simp] theorem State.kept_handoverTick (s : State) :
    (State.handoverTick s).kept = s.kept := by
  unfold State.handoverTick
  simp only []
  (repeat' split) <;> first | (with_reducible rfl) | (simp; done)
@[simp] theorem State.kept_copyRefused (s : State) :
    (State.copyRefused s).kept = s.kept := by
  simp [State.copyRefused]
@[simp] theorem State.kept_copyProgram (s : State) (p : Program) :
    (State.copyProgram s p).kept = s.kept := by
  unfold State.copyProgram
  (repeat' split) <;> simp
@[simp] theorem State.kept_copyImage (s : State) (n : Nat) (k : DWord) (bytes : List (Nat × Byte)) (part : Option (Nat × Nat)) :
    (State.copyImage s n k bytes part).kept = s.kept := by
  unfold State.copyImage
  simp only []
  (repeat' split) <;> first | (with_reducible rfl) | (simp; done)
@[simp] theorem State.kept_copySeq (s : State) (axes : List (Fin 4 × Axis)) (journal : List (Fin 16 × JEntry)) (seqs : List (Nat × Word)) (redSeq : List (Nat × Half)) (polls : List (Fin 6 × RxPoll)) (counts : List (Nat × Nat × Word)) :
    (State.copySeq s axes journal seqs redSeq polls counts).kept = s.kept := by
  unfold State.copySeq
  simp only []
  (repeat' split) <;> first | (with_reducible rfl) | (simp; done) | (simp [State.kept_foldl]; done) | (exact State.kept_fold _ (fun s a => by first | (simp; done) | ((repeat' split) <;> simp)) _ (by simp))
@[simp] theorem State.kept_takeCopy (s : State) (m : CopyMsg) :
    (State.takeCopy s m).kept = s.kept := by
  unfold State.takeCopy
  (repeat' split) <;> simp
theorem kept_execCopy (f : OlviaHdr) (m : CopyMsg) (s : State) :
    ∃ s', execCopy f m s = .next s' ∧ s'.kept = s.kept := by
  unfold execCopy
  exact keeps_next (State.kept_onFrame _ _ _ fun t => by first | (simp; done) | (split <;> simp))
theorem kept_execStateCopyTimeout (s : State) :
    ∃ s', execStateCopyTimeout s = .next s' ∧ s'.kept = s.kept := by
  unfold execStateCopyTimeout
  (repeat' split) <;> (with_reducible refine keeps_next ?_) <;> first | (with_reducible rfl) | (simp; done)

/-! Machine/Faults.lean -/

theorem kept_execSeatOpen (s : State) :
    ∃ s', execSeatOpen s = .next s' ∧ s'.kept = s.kept := by
  unfold execSeatOpen
  (repeat' split) <;> (with_reducible refine keeps_next ?_) <;> first | (with_reducible rfl) | (simp; done)
theorem kept_execPartnerSeatOpen (s : State) :
    ∃ s', execPartnerSeatOpen s = .next s' ∧ s'.kept = s.kept := by
  unfold execPartnerSeatOpen
  simp only []
  (repeat' split) <;> (with_reducible refine keeps_next ?_) <;> first | (with_reducible rfl) | (simp; done)
theorem kept_execPartnerSeatClose (s : State) :
    ∃ s', execPartnerSeatClose s = .next s' ∧ s'.kept = s.kept := by
  exact keeps_next (by simp)
theorem kept_execCycleControllerFault (s : State) :
    ∃ s', execCycleControllerFault s = .next s' ∧ s'.kept = s.kept := by
  exact keeps_next (by simp)
theorem kept_execTimeUnitFault (s : State) :
    ∃ s', execTimeUnitFault s = .next s' ∧ s'.kept = s.kept := by
  exact keeps_next (by simp)
theorem kept_execRetainedStoreUe (s : State) :
    ∃ s', execRetainedStoreUe s = .next s' ∧ s'.kept = s.kept := by
  exact keeps_next (by simp)
theorem kept_execSvFault (s : State) :
    ∃ s', execSvFault s = .next s' ∧ s'.kept = s.kept := by
  exact keeps_next (by simp)
theorem kept_execSvRestartDone (s : State) :
    ∃ s', execSvRestartDone s = .next s' ∧ s'.kept = s.kept := by
  exact keeps_next (by simp)
theorem kept_execTwinUnitFault (s : State) :
    ∃ s', execTwinUnitFault s = .next s' ∧ s'.kept = s.kept := by
  exact keeps_next (by simp)
theorem kept_execNetworkUnitFault (pair : Fin 2) (s : State) :
    ∃ s', execNetworkUnitFault pair s = .next s' ∧ s'.kept = s.kept := by
  exact keeps_next (by simp)
theorem kept_execPanelUnitFault (s : State) :
    ∃ s', execPanelUnitFault s = .next s' ∧ s'.kept = s.kept := by
  exact keeps_next (by simp)
theorem kept_execAxisBridgeTestDone (a : Fin 4) (pass : Bool) (s : State) :
    ∃ s', execAxisBridgeTestDone a pass s = .next s' ∧ s'.kept = s.kept := by
  unfold execAxisBridgeTestDone
  simp only []
  (repeat' split) <;> (with_reducible refine keeps_next ?_) <;> first | (with_reducible rfl) | (simp; done)
theorem kept_execGatedBridgeTest (a : Fin 4) (pass : Bool) (s : State) :
    ∃ s', execGatedBridgeTest a pass s = .next s' ∧ s'.kept = s.kept := by
  unfold execGatedBridgeTest
  simp only []
  (repeat' split) <;> (with_reducible refine keeps_next ?_) <;> first | (with_reducible rfl) | (simp; done)

end Sys2Proof.Machine
end

