-- ==== Sys2Proof/Laws/KeptHost.lean ====
section
/-! SUPPORT. Laws/KeptHost.lean: what the commands of the recorder, start-up, the rick, the host block and the maintenance port leave alone. -/
set_option Elab.async false
set_option maxRecDepth 4000
set_option linter.all false
namespace Sys2Proof.Machine

/-! Machine/Rec.lean -/

@[simp] theorem State.kept_reportLost (s : State) :
    (State.reportLost s).kept = s.kept := by
  unfold State.reportLost
  exact State.kept_foldl _ (fun s a => by first | (simp; done) | ((repeat' split) <;> simp)) _ _
theorem kept_execHoldoffExpiry (n : Fin 256) (s : State) :
    ∃ s', execHoldoffExpiry n s = .next s' ∧ s'.kept = s.kept := by
  unfold execHoldoffExpiry
  (repeat' split) <;> (with_reducible refine keeps_next ?_) <;> first | (with_reducible rfl) | (simp; done)
@[simp] theorem State.kept_suppressed (s : State) (src n : Nat) :
    (State.suppressed s src n).kept = s.kept := by
  simp [State.suppressed]
@[simp] theorem State.kept_openWindow (s : State) (sec : Nat) :
    (State.openWindow s sec).kept = s.kept := by
  unfold State.openWindow
  simp only []
  (repeat' split) <;> first | (with_reducible rfl) | (simp; done) | (simp [State.kept_foldl]; done) | (exact State.kept_fold _ (fun s a => by first | (simp; done) | ((repeat' split) <;> simp)) _ (by simp))
theorem kept_execQuotaWindow (s : State) :
    ∃ s', execQuotaWindow s = .next s' ∧ s'.kept = s.kept := by
  unfold execQuotaWindow
  (repeat' split) <;> (with_reducible refine keeps_next ?_) <;> first | (with_reducible rfl) | (simp; done)
@[simp] theorem State.kept_recFail (s : State) :
    (State.recFail s).kept = s.kept := by
  unfold State.recFail
  simp only []
  (repeat' split) <;> first | (with_reducible rfl) | (simp; done) | (simp [State.kept_foldl]; done) | (exact State.kept_fold _ (fun s a => by first | (simp; done) | ((repeat' split) <;> simp)) _ (by simp))

/-! Machine/Boot.lean -/

theorem kept_execSupplyLost (b : Bool) (s : State) :
    ∃ s', execSupplyLost b s = .next s' ∧ s'.kept = s.kept := by
  unfold execSupplyLost
  simp only []
  (repeat' split) <;> (with_reducible refine keeps_next ?_) <;> first | (with_reducible rfl) | (simp; done)
theorem kept_execSupplyBack (b : Bool) (s : State) : ∃ s', execSupplyBack b s = .next s' ∧ s'.kept = s.kept := by
  unfold execSupplyBack
  cases b <;> simp only [] <;> (repeat' split) <;> exact keeps_next (by first | (with_reducible rfl) | simp)
@[simp] theorem State.kept_after_execSupplyBack (b : Bool) (s : State) : (s.after (execSupplyBack b s)).kept = s.kept := by
  obtain ⟨s', h, k⟩ := kept_execSupplyBack b s
  simp [State.after, h, k]
theorem kept_execThermalWarn (on : Bool) (s : State) :
    ∃ s', execThermalWarn on s = .next s' ∧ s'.kept = s.kept := by
  unfold execThermalWarn
  (repeat' split) <;> (with_reducible refine keeps_next ?_) <;> first | (with_reducible rfl) | (simp; done)
theorem kept_execDieOvertemp (s : State) :
    ∃ s', execDieOvertemp s = .next s' ∧ s'.kept = s.kept := by
  unfold execDieOvertemp
  (repeat' split) <;> (with_reducible refine keeps_next ?_) <;> first | (with_reducible rfl) | (simp; done)
theorem kept_execFirmwareVerified (okA okB : Bool) (s : State) :
    ∃ s', execFirmwareVerified okA okB s = .next s' ∧ s'.kept = s.kept := by
  unfold execFirmwareVerified
  simp only []
  (repeat' split) <;> (with_reducible refine keeps_next ?_) <;> first | (with_reducible rfl) | (simp; done)
@[simp] theorem State.kept_verifyProg (s : State) (intact : Bool) :
    (State.verifyProg s intact).kept = s.kept := by
  unfold State.verifyProg
  (repeat' split) <;> simp
@[simp] theorem State.kept_checkStreams (s : State) :
    (State.checkStreams s).kept = s.kept := by
  unfold State.checkStreams
  (repeat' split) <;> simp
@[simp] theorem State.kept_verifySafe (s : State) (okA okB : Bool) :
    (State.verifySafe s okA okB).kept = s.kept := by
  unfold State.verifySafe
  simp only []
  (repeat' split) <;> first | (with_reducible rfl) | (simp; done)
@[simp] theorem State.kept_clearPartition (s : State) :
    (State.clearPartition s).kept = s.kept := by
  simp [State.clearPartition]
@[simp] theorem State.kept_commission (s : State) :
    (State.commission s).kept = s.kept := by
  unfold State.commission
  (repeat' split) <;> simp
theorem kept_execCommission (s : State) :
    ∃ s', execCommission s = .next s' ∧ s'.kept = s.kept := by
  exact keeps_next (by simp)
theorem kept_execCommissionDone (s : State) :
    ∃ s', execCommissionDone s = .next s' ∧ s'.kept = s.kept := by
  unfold execCommissionDone
  (repeat' split) <;> (with_reducible refine keeps_next ?_) <;> first | (with_reducible rfl) | (simp; done)
theorem kept_execCommissionArmExpiry (s : State) :
    ∃ s', execCommissionArmExpiry s = .next s' ∧ s'.kept = s.kept := by
  unfold execCommissionArmExpiry
  (repeat' split) <;> (with_reducible refine keeps_next ?_) <;> first | (with_reducible rfl) | (simp; done)
@[simp] theorem State.kept_chooseConfig (s : State) :
    (State.chooseConfig s).kept = s.kept := by
  unfold State.chooseConfig
  simp only []
  (repeat' split) <;> first | (with_reducible rfl) | (simp; done)
theorem kept_execObjectsVerified (i : Intact) (s : State) :
    ∃ s', execObjectsVerified i s = .next s' ∧ s'.kept = s.kept := by
  unfold execObjectsVerified
  simp only []
  (repeat' split) <;> (with_reducible refine keeps_next ?_) <;> first | (with_reducible rfl) | (simp; done) | (simp [State.kept_foldl]; done) | (exact State.kept_fold _ (fun s a => by first | (simp; done) | ((repeat' split) <;> simp)) _ (by simp))
theorem kept_execLanesStart (energised : BitVec 8) (s : State) :
    ∃ s', execLanesStart energised s = .next s' ∧ s'.kept = s.kept := by
  unfold execLanesStart
  simp only []
  (repeat' split) <;> (with_reducible refine keeps_next ?_) <;> first | (with_reducible rfl) | (simp; done)
@[simp] theorem State.kept_becomeLead (s : State) :
    (State.becomeLead s).kept = s.kept := by
  unfold State.becomeLead
  simp only []
  (repeat' split) <;> first | (with_reducible rfl) | (simp; done)
@[simp] theorem State.kept_becomeShadow (s : State) :
    (State.becomeShadow s).kept = s.kept := by
  unfold State.becomeShadow
  simp only []
  (repeat' split) <;> first | (with_reducible rfl) | (simp; done)
@[simp] theorem State.kept_takeRole (s : State) :
    (State.takeRole s).kept = s.kept := by
  unfold State.takeRole
  (repeat' split) <;> simp
theorem kept_execTwinSearchEnd (s : State) :
    ∃ s', execTwinSearchEnd s = .next s' ∧ s'.kept = s.kept := by
  unfold execTwinSearchEnd
  (repeat' split) <;> (with_reducible refine keeps_next ?_) <;> first | (with_reducible rfl) | (simp; done)
theorem kept_execStartingRoleWait (s : State) :
    ∃ s', execStartingRoleWait s = .next s' ∧ s'.kept = s.kept := by
  unfold execStartingRoleWait
  (repeat' split) <;> (with_reducible refine keeps_next ?_) <;> first | (with_reducible rfl) | (simp; done)
theorem kept_execSeatClose (slotB : Bool) (s : State) :
    ∃ s', execSeatClose slotB s = .next s' ∧ s'.kept = s.kept := by
  unfold execSeatClose
  simp only []
  (repeat' split) <;> (with_reducible refine keeps_next ?_) <;> first | (with_reducible rfl) | (simp; done)
theorem kept_execSyncWaitExpiry (s : State) :
    ∃ s', execSyncWaitExpiry s = .next s' ∧ s'.kept = s.kept := by
  unfold execSyncWaitExpiry
  (repeat' split) <;> (with_reducible refine keeps_next ?_) <;> first | (with_reducible rfl) | (simp; done)
@[simp] theorem State.kept_resumeTask (s : State) (n : Nat) (run : Bool) :
    (State.resumeTask s n run).kept = s.kept := by
  unfold State.resumeTask
  simp only []
  (repeat' split) <;> first | (with_reducible rfl) | (simp; done)
@[simp] theorem State.kept_resumeXch (s : State) :
    (State.resumeXch s).kept = s.kept := by
  unfold State.resumeXch
  simp only []
  (repeat' split) <;> first | (with_reducible rfl) | (simp; done) | (simp [State.kept_foldl]; done) | (exact State.kept_fold _ (fun s a => by first | (simp; done) | ((repeat' split) <;> simp)) _ (by simp))
@[simp] theorem State.kept_warmResume (s : State) :
    (State.warmResume s).kept = s.kept := by
  unfold State.warmResume
  simp only []
  (repeat' split) <;> first | (with_reducible rfl) | (simp; done) | (simp [State.kept_foldl]; done) | (exact State.kept_fold _ (fun s a => by first | (simp; done) | ((repeat' split) <;> simp)) _ (by simp))
@[simp] theorem State.kept_becomeReady (s : State) :
    (State.becomeReady s).kept = s.kept := by
  unfold State.becomeReady
  simp only []
  (repeat' split) <;> first | (with_reducible rfl) | (simp; done)
theorem kept_execTimeSourceSettled (s : State) :
    ∃ s', execTimeSourceSettled s = .next s' ∧ s'.kept = s.kept := by
  unfold execTimeSourceSettled
  (repeat' split) <;> (with_reducible refine keeps_next ?_) <;> first | (with_reducible rfl) | (simp; done)

/-! Machine/Rick.lean -/

@[simp] theorem State.kept_enumerate (s : State) (cmd : Bool) :
    (State.enumerate s cmd).kept = s.kept := by
  simp [State.enumerate]
theorem kept_execEnumerate (cmd : Bool) (s : State) :
    ∃ s', execEnumerate cmd s = .next s' ∧ s'.kept = s.kept := by
  unfold execEnumerate
  (repeat' split) <;> (with_reducible refine keeps_next ?_) <;> first | (with_reducible rfl) | (simp; done)
@[simp] theorem State.kept_after_execEnumerate (cmd : Bool) (s : State) :
    (s.after (execEnumerate cmd s)).kept = s.kept := by
  obtain ⟨s', h, k⟩ := kept_execEnumerate cmd s
  simp [State.after, h, k]
@[simp] theorem State.kept_ringCheck (s : State) :
    (State.ringCheck s).kept = s.kept := by
  simp [State.ringCheck]
@[simp] theorem State.kept_authFail (s : State) (u : Nat) :
    (State.authFail s u).kept = s.kept := by
  simp [State.authFail]
theorem kept_execIdent (serial : DWord) (position : Fin 6) (hops0 hops1 : Fin 8) (s : State) :
    ∃ s', execIdent serial position hops0 hops1 s = .next s' ∧ s'.kept = s.kept := by
  unfold execIdent
  simp only []
  (repeat' split) <;> (with_reducible refine keeps_next ?_) <;> first | (with_reducible rfl) | (simp; done)
@[simp] theorem State.kept_setDelays (s : State) (delays : List (Fin 6 × Nat)) :
    (State.setDelays s delays).kept = s.kept := by
  unfold State.setDelays
  exact State.kept_foldl _ (fun s a => by first | (simp; done) | ((repeat' split) <;> simp)) _ _
@[simp] theorem State.kept_unitUnheard (s : State) (u : Nat) :
    (State.unitUnheard s u).kept = s.kept := by
  unfold State.unitUnheard
  (repeat' split) <;> simp
theorem kept_execEnumCollectEnd (delays : List (Fin 6 × Nat)) (s : State) :
    ∃ s', execEnumCollectEnd delays s = .next s' ∧ s'.kept = s.kept := by
  unfold execEnumCollectEnd
  simp only []
  (repeat' split) <;> (with_reducible refine keeps_next ?_) <;> first | (with_reducible rfl) | (simp; done) | (simp [State.kept_foldl]; done) | (exact State.kept_fold _ (fun s a => by first | (simp; done) | ((repeat' split) <;> simp)) _ (by simp))
theorem kept_execRxAuth (u : Fin 6) (ok : Bool) (randM randU : BitVec 128) (s : State) :
    ∃ s', execRxAuth u ok randM randU s = .next s' ∧ s'.kept = s.kept := by
  unfold execRxAuth
  simp only []
  (repeat' split) <;> (with_reducible refine keeps_next ?_) <;> first | (with_reducible rfl) | (simp; done)
theorem kept_execRickFormed (s : State) :
    ∃ s', execRickFormed s = .next s' ∧ s'.kept = s.kept := by
  unfold execRickFormed
  simp only []
  (repeat' split) <;> (with_reducible refine keeps_next ?_) <;> first | (with_reducible rfl) | (simp; done)
theorem kept_execPathDelayMeasure (delays : List (Fin 6 × Nat)) (s : State) :
    ∃ s', execPathDelayMeasure delays s = .next s' ∧ s'.kept = s.kept := by
  unfold execPathDelayMeasure
  (repeat' split) <;> (with_reducible refine keeps_next ?_) <;> first | (with_reducible rfl) | (simp; done)
@[simp] theorem State.kept_tellPoll (s : State) (was : RxPoll) (u : Nat) :
    (State.tellPoll s was u).kept = s.kept := by
  unfold State.tellPoll
  (repeat' split) <;> simp
@[simp] theorem State.kept_pollUnit (s : State) (u : Nat) :
    (State.pollUnit s u).kept = s.kept := by
  unfold State.pollUnit
  simp only []
  (repeat' split) <;> first | (with_reducible rfl) | (simp; done)
theorem kept_execRickPoll (s : State) :
    ∃ s', execRickPoll s = .next s' ∧ s'.kept = s.kept := by
  unfold execRickPoll
  simp only []
  (repeat' split) <;> (with_reducible refine keeps_next ?_) <;> first | (with_reducible rfl) | (simp; done) | (simp [State.kept_foldl]; done) | (exact State.kept_fold _ (fun s a => by first | (simp; done) | ((repeat' split) <;> simp)) _ (by simp))
theorem kept_execReply (u : Fin 6) (hops0 hops1 : Fin 8) (samples : List RxSamples) (s : State) :
    ∃ s', execReply u hops0 hops1 samples s = .next s' ∧ s'.kept = s.kept := by
  unfold execReply
  simp only []
  (repeat' split) <;> (with_reducible refine keeps_next ?_) <;> first | (with_reducible rfl) | (simp; done)
theorem kept_execAck (u : Fin 6) (n : Fin 32) (k : DWord) (s : State) :
    ∃ s', execAck u n k s = .next s' ∧ s'.kept = s.kept := by
  unfold execAck
  simp only []
  (repeat' split) <;> (with_reducible refine keeps_next ?_) <;> first | (with_reducible rfl) | (simp; done)
theorem kept_execUnitLost (u : Fin 6) (s : State) :
    ∃ s', execUnitLost u s = .next s' ∧ s'.kept = s.kept := by
  unfold execUnitLost
  simp only []
  (repeat' split) <;> (with_reducible refine keeps_next ?_) <;> first | (with_reducible rfl) | (simp; done)
theorem kept_execRxAckDeadline (n : Fin 32) (s : State) :
    ∃ s', execRxAckDeadline n s = .next s' ∧ s'.kept = s.kept := by
  unfold execRxAckDeadline
  (repeat' split) <;> (with_reducible refine keeps_next ?_) <;> first | (with_reducible rfl) | (simp; done)

/-! Machine/HostCmd.lean -/

theorem kept_execNop (o : Origin) (s : State) :
    ∃ s', execNop o s = .next s' ∧ s'.kept = s.kept := by
  exact keeps_next (by simp)
@[simp] theorem State.kept_after_execNop (o : Origin) (s : State) :
    (s.after (execNop o s)).kept = s.kept := by
  obtain ⟨s', h, k⟩ := kept_execNop o s
  simp [State.after, h, k]
theorem kept_execMode (o : Origin) (mode task billet off : Nat) (s : State) :
    ∃ s', execMode o mode task billet off s = .next s' ∧ s'.kept = s.kept := by
  unfold execMode
  split
  · exact kept_execModeRun ..
  · exact kept_execModeStop ..
  · exact kept_execModeHold ..
  · exact kept_execModeStep ..
  · exact kept_execBreakSet ..
  · exact kept_execBreakClear ..
  · exact keeps_next (by simp)
@[simp] theorem State.kept_after_execMode (o : Origin) (mode task billet off : Nat) (s : State) :
    (s.after (execMode o mode task billet off s)).kept = s.kept := by
  obtain ⟨s', h, k⟩ := kept_execMode o mode task billet off s
  simp [State.after, h, k]
@[simp] theorem State.kept_storeArea (s : State) (n off : Nat) (bytes : List Byte) :
    (State.storeArea s n off bytes).kept = s.kept := by
  simp [State.storeArea]
theorem kept_execAreaWrite (o : Origin) (area off : Nat) (bytes : List Byte) (s : State) :
    ∃ s', execAreaWrite o area off bytes s = .next s' ∧ s'.kept = s.kept := by
  unfold execAreaWrite
  (repeat' split) <;> (with_reducible refine keeps_next ?_) <;> first | (with_reducible rfl) | (simp; done)
@[simp] theorem State.kept_after_execAreaWrite (o : Origin) (area off : Nat) (bytes : List Byte) (s : State) :
    (s.after (execAreaWrite o area off bytes s)).kept = s.kept := by
  obtain ⟨s', h, k⟩ := kept_execAreaWrite o area off bytes s
  simp [State.after, h, k]
@[simp] theorem State.kept_toBuffer (s : State) (o : Origin) (addr : DWord) (bytes : List Byte) :
    (State.toBuffer s o addr bytes).kept = s.kept := by
  unfold State.toBuffer
  (repeat' split) <;> simp
theorem kept_execAreaRead (o : Origin) (area : Nat) (addr : DWord) (len : Nat) (s : State) :
    ∃ s', execAreaRead o area addr len s = .next s' ∧ s'.kept = s.kept := by
  unfold execAreaRead
  (repeat' split) <;> (with_reducible refine keeps_next ?_) <;> first | (with_reducible rfl) | (simp; done)
@[simp] theorem State.kept_after_execAreaRead (o : Origin) (area : Nat) (addr : DWord) (len : Nat) (s : State) :
    (s.after (execAreaRead o area addr len s)).kept = s.kept := by
  obtain ⟨s', h, k⟩ := kept_execAreaRead o area addr len s
  simp [State.after, h, k]
theorem kept_execRecRead (o : Origin) (first count : Nat) (peat annex : Bool) (addr : DWord) (len : Nat) (s : State) :
    ∃ s', execRecRead o first count peat annex addr len s = .next s' ∧ s'.kept = s.kept := by
  unfold execRecRead
  (repeat' split) <;> (with_reducible refine keeps_next ?_) <;> first | (with_reducible rfl) | (simp; done)
@[simp] theorem State.kept_after_execRecRead (o : Origin) (first count : Nat) (peat annex : Bool) (addr : DWord) (len : Nat) (s : State) :
    (s.after (execRecRead o first count peat annex addr len s)).kept = s.kept := by
  obtain ⟨s', h, k⟩ := kept_execRecRead o first count peat annex addr len s
  simp [State.after, h, k]
theorem kept_execRecNote (o : Origin) (detail : DWord) (words : List Word) (s : State) :
    ∃ s', execRecNote o detail words s = .next s' ∧ s'.kept = s.kept := by
  unfold execRecNote
  simp only []
  (repeat' split) <;> (with_reducible refine keeps_next ?_) <;> first | (with_reducible rfl) | (simp; done)
@[simp] theorem State.kept_after_execRecNote (o : Origin) (detail : DWord) (words : List Word) (s : State) :
    (s.after (execRecNote o detail words s)).kept = s.kept := by
  obtain ⟨s', h, k⟩ := kept_execRecNote o detail words s
  simp [State.after, h, k]
theorem kept_execTrigger (o : Origin) (n : Nat) (s : State) : ∃ s', execTrigger o n s = .next s' ∧ s'.kept = s.kept := by
  unfold execTrigger
  have h := State.kept_capture s n s.refCycle o
  generalize s.capture n s.refCycle o = c at h
  obtain ⟨t, c⟩ := c
  simp only [] at h ⊢
  split
  · exact keeps_next (by simp)
  · split
    · exact keeps_next (by simp)
    · cases c <;> exact keeps_next (by simp [h])
@[simp] theorem State.kept_after_execTrigger (o : Origin) (n : Nat) (s : State) : (s.after (execTrigger o n s)).kept = s.kept := by
  obtain ⟨s', h, k⟩ := kept_execTrigger o n s
  simp [State.after, h, k]
theorem kept_execQuota (o : Origin) (source quota : Nat) (s : State) :
    ∃ s', execQuota o source quota s = .next s' ∧ s'.kept = s.kept := by
  unfold execQuota
  (repeat' split) <;> (with_reducible refine keeps_next ?_) <;> first | (with_reducible rfl) | (simp; done)
@[simp] theorem State.kept_after_execQuota (o : Origin) (source quota : Nat) (s : State) :
    (s.after (execQuota o source quota s)).kept = s.kept := by
  obtain ⟨s', h, k⟩ := kept_execQuota o source quota s
  simp [State.after, h, k]
theorem kept_execPanel (o : Origin) (id : Half) (op : PanelOp) (s : State) :
    ∃ s', execPanel o id op s = .next s' ∧ s'.kept = s.kept := by
  exact keeps_next (by simp)
@[simp] theorem State.kept_after_execPanel (o : Origin) (id : Half) (op : PanelOp) (s : State) :
    (s.after (execPanel o id op s)).kept = s.kept := by
  obtain ⟨s', h, k⟩ := kept_execPanel o id op s
  simp [State.after, h, k]
@[simp] theorem State.kept_budgetCmd (s : State) (o : Origin) (ps : List Byte) :
    (State.budgetCmd s o ps).kept = s.kept := by
  unfold State.budgetCmd
  simp only []
  (repeat' split) <;> first | (with_reducible rfl) | (simp; done)

/-! Machine/HostRing.lean -/

theorem HostBlk.sqs_readDone {h h' : HostBlk} {sq : Nat} {tag : Word} {t : Taken} (e : h.readDone sq tag = some (t, h')) :
    h'.sqs = h.sqs := by
  unfold HostBlk.readDone at e
  split at e
  · exact absurd e (by simp)
  · injection e with e; injection e with _ e; subst e; rfl
theorem kept_execDmaFailure (sq : Fin 8) (tag : Word) (how : DmaFail) (places : Nat) (s : State) :
    ∃ s', execDmaFailure sq tag how places s = .next s' ∧ s'.kept = s.kept := by
  unfold execDmaFailure
  split
  · exact keeps_next rfl
  · rename_i e
    split
    · exact keeps_next rfl
    · extract_lets t ps done
      clear_value done
      exact keeps_next (by simp [t, HostBlk.sqs_readDone e])
@[simp] theorem State.kept_putCqCfg (s : State) (n : Fin 8) (w : Word) :
    (State.putCqCfg s n w).kept = s.kept := by
  unfold State.putCqCfg
  simp only []
  (repeat' split) <;> first | (with_reducible rfl) | (simp; done)
@[simp] theorem State.kept_putEqCfg (s : State) (w : Word) :
    (State.putEqCfg s w).kept = s.kept := by
  unfold State.putEqCfg
  simp only []
  (repeat' split) <;> first | (with_reducible rfl) | (simp; done)
theorem kept_execMsixCoalesceTimeout (r : RingId) (s : State) :
    ∃ s', execMsixCoalesceTimeout r s = .next s' ∧ s'.kept = s.kept := by
  unfold execMsixCoalesceTimeout
  simp only []
  (repeat' split) <;> (with_reducible refine keeps_next ?_) <;> first | (with_reducible rfl) | (simp; done)
@[simp] theorem HostBlk.sqs_unmask (h : HostBlk) : h.unmask.sqs = h.sqs := by
  unfold HostBlk.unmask
  split
  · rfl
  · rename_i c
    clear c
    generalize List.range 32 = l
    induction l generalizing h with
    | nil => rfl
    | cons v l ih => rw [List.foldl_cons, ih]; split <;> rfl
@[simp] theorem HostBlk.sqs_interrupts (h : HostBlk) (l : List Nat) : (l.foldl HostBlk.interrupt h).sqs = h.sqs := by
  induction l generalizing h with
  | nil => rfl
  | cons v l ih => rw [List.foldl_cons, ih]; simp
theorem kept_execBusMasterEnable (msixEn msixMask : Bool) (s : State) :
    ∃ s', execBusMasterEnable msixEn msixMask s = .next s' ∧ s'.kept = s.kept := by
  unfold execBusMasterEnable
  exact keeps_next (by simp)
theorem kept_execBusMasterDisable (s : State) :
    ∃ s', execBusMasterDisable s = .next s' ∧ s'.kept = s.kept := by
  exact keeps_next (by simp)
@[simp] theorem State.kept_linkEvent (s : State) (bit : Nat) :
    (State.linkEvent s bit).kept = s.kept := by
  simp [State.linkEvent]
theorem kept_execPcieLinkUp (speed width : BitVec 2) (s : State) :
    ∃ s', execPcieLinkUp speed width s = .next s' ∧ s'.kept = s.kept := by
  unfold execPcieLinkUp
  (repeat' split) <;> (with_reducible refine keeps_next ?_) <;> first | (with_reducible rfl) | (simp; done)

/-! Machine/Regs.lean -/

@[simp] theorem State.kept_setReq (s : State) (who : Requester) (r : ReqState) :
    (State.setReq s who r).kept = s.kept := by
  unfold State.setReq
  (repeat' split) <;> simp
@[simp] theorem State.kept_accessErr (s : State) :
    (State.accessErr s).kept = s.kept := by
  simp [State.accessErr]
@[simp] theorem State.kept_rightRefused (s : State) (who : Requester) :
    (State.rightRefused s who).kept = s.kept := by
  unfold State.rightRefused
  (repeat' split) <;> simp
@[simp] theorem State.kept_guardErr (s : State) (who : Requester) (kind off : Nat) :
    (State.guardErr s who kind off).kept = s.kept := by
  simp [State.guardErr]
@[simp] theorem State.kept_putSel (s : State) (who : Requester) (off : Nat) (w : Word) :
    (State.putSel s who off w).kept = s.kept := by
  unfold State.putSel
  (repeat' split) <;> simp
@[simp] theorem State.kept_clear1 (s : State) (off : Nat) (w : Word) :
    (State.clear1 s off w).kept = s.kept := by
  unfold State.clear1
  (repeat' split) <;> simp
@[simp] theorem State.kept_mntStart (s : State) (b : Nat) :
    (State.mntStart s b).kept = s.kept := by
  unfold State.mntStart
  simp only []
  (repeat' split) <;> first | (with_reducible rfl) | (simp; done)
@[simp] theorem State.kept_cfgStart (s : State) (b : Nat) :
    (State.cfgStart s b).kept = s.kept := by
  unfold State.cfgStart
  (repeat' split) <;> simp
@[simp] theorem State.kept_startCmds (s : State) (off : Nat) (w : Word) :
    (State.startCmds s off w).kept = s.kept := by
  unfold State.startCmds
  (repeat' split) <;> first | (with_reducible rfl) | (simp [*]; done) | (simp [*, State.kept_foldl]; done) | (simp +zetaDelta [*]; done)
@[simp] theorem State.kept_valueStep (s : State) (who : Requester) (off : Nat) (w : Word) :
    (State.valueStep s who off w).kept = s.kept := by
  unfold State.valueStep
  (repeat' split) <;> simp
@[simp] theorem State.kept_msixWrite (s : State) (i : Nat) (w : Word) :
    (State.msixWrite s i w).kept = s.kept := by
  simp [State.msixWrite]
@[simp] theorem State.kept_latch (s : State) (who : Requester) (l : List Nat) :
    (State.latch s who l).kept = s.kept := by
  simp [State.latch]
@[simp] theorem State.kept_busRead (s : State) (who : Requester) (off : Nat) : (s.busRead who off).2.kept = s.kept := by
  unfold State.busRead
  (repeat' split) <;> simp
theorem kept_execBadAccess (who : Requester) (write : Bool) (s : State) :
    ∃ s', execBadAccess who write s = .next s' ∧ s'.kept = s.kept := by
  unfold execBadAccess
  (repeat' split) <;> (with_reducible refine keeps_next ?_) <;> first | (with_reducible rfl) | (simp; done)
@[simp] theorem State.kept_guardLate (s : State) (who : Requester) :
    (State.guardLate s who).kept = s.kept := by
  unfold State.guardLate
  (repeat' split) <;> simp
theorem kept_execGuardLate (who : Requester) (s : State) :
    ∃ s', execGuardLate who s = .next s' ∧ s'.kept = s.kept := by
  exact keeps_next (by simp)
theorem kept_execLowWordRead (who : Requester) (off : Nat) (s : State) :
    ∃ s', execLowWordRead who off s = .next s' ∧ s'.kept = s.kept := by
  unfold execLowWordRead
  (repeat' split) <;> (with_reducible refine keeps_next ?_) <;> first | (with_reducible rfl) | (simp; done)
theorem kept_execGroupLatchRead (who : Requester) (off : Nat) (s : State) :
    ∃ s', execGroupLatchRead who off s = .next s' ∧ s'.kept = s.kept := by
  unfold execGroupLatchRead
  (repeat' split) <;> (with_reducible refine keeps_next ?_) <;> first | (with_reducible rfl) | (simp; done)
@[simp] theorem State.kept_parityErr (s : State) (off : Nat) (found : Word) (intact : Bool) :
    (State.parityErr s off found intact).kept = s.kept := by
  unfold State.parityErr
  (repeat' split) <;> simp
theorem kept_execScrubPass (us : Nat) (found : List (Nat × Word × Bool)) (s : State) :
    ∃ s', execScrubPass us found s = .next s' ∧ s'.kept = s.kept := by
  unfold execScrubPass
  simp only []
  (repeat' split) <;> (with_reducible refine keeps_next ?_) <;> first | (with_reducible rfl) | (simp; done) | (simp [State.kept_foldl]; done) | (exact State.kept_fold _ (fun s a => by first | (simp; done) | ((repeat' split) <;> simp)) _ (by simp))
theorem kept_execParityCheckedRead (who : Requester) (off : Nat) (found : Word) (intact : Bool) (s : State) :
    ∃ s', execParityCheckedRead who off found intact s = .next s' ∧ s'.kept = s.kept := by
  unfold execParityCheckedRead
  (repeat' split) <;> (with_reducible refine keeps_next ?_) <;> first | (with_reducible rfl) | (simp; done)

/-! Machine/Mnt.lean -/

@[simp] theorem State.kept_holdupMeasured (s : State) (tenths : Nat) :
    (State.holdupMeasured s tenths).kept = s.kept := by
  simp [State.holdupMeasured]
theorem kept_execHoldupMeasure (tenths : Nat) (s : State) :
    ∃ s', execHoldupMeasure tenths s = .next s' ∧ s'.kept = s.kept := by
  unfold execHoldupMeasure
  simp only []
  (repeat' split) <;> (with_reducible refine keeps_next ?_) <;> first | (with_reducible rfl) | (simp; done)
theorem kept_execMntCmdDone (cmd : Fin 3) (tenths : Nat) (s : State) :
    ∃ s', execMntCmdDone cmd tenths s = .next s' ∧ s'.kept = s.kept := by
  unfold execMntCmdDone
  (repeat' split) <;> (with_reducible refine keeps_next ?_) <;> first | (with_reducible rfl) | (simp; done)
@[simp] theorem State.kept_answer (s : State) (a : MntOut) :
    (State.answer s a).kept = s.kept := by
  simp [State.answer]
@[simp] theorem State.kept_message (s : State) :
    (State.message s).kept = s.kept := by
  simp [State.message]
@[simp] theorem State.kept_openFailed (s : State) :
    (State.openFailed s).kept = s.kept := by
  simp [State.openFailed]
theorem kept_execMntOpen (key : Option Nat) (s : State) :
    ∃ s', execMntOpen key s = .next s' ∧ s'.kept = s.kept := by
  unfold execMntOpen
  simp only []
  (repeat' split) <;> (with_reducible refine keeps_next ?_) <;> first | (with_reducible rfl) | (simp; done)
theorem kept_execMntClose (s : State) :
    ∃ s', execMntClose s = .next s' ∧ s'.kept = s.kept := by
  unfold execMntClose
  simp only []
  (repeat' split) <;> (with_reducible refine keeps_next ?_) <;> first | (with_reducible rfl) | (simp; done)
@[simp] theorem State.kept_readWords (n : Nat) (s : State) (off : Nat) : (State.readWords s off n).2.kept = s.kept := by
  induction n generalizing s off with
  | zero => rfl
  | succ n ih => unfold State.readWords; simp [ih]
theorem kept_execMntRead (off count : Nat) (s : State) : ∃ s', execMntRead off count s = .next s' ∧ s'.kept = s.kept := by
  unfold execMntRead
  simp only []
  (repeat' split) <;> exact keeps_next (by simp)
theorem kept_execMntCommand (d : Desc) (data : List Byte) (obj : ImageObj) (pkg : Package × Option Nat) (s : State) :
    ∃ s', execMntCommand d data obj pkg s = .next s' ∧ s'.kept = s.kept := by
  unfold execMntCommand
  simp only []
  (repeat' split) <;> (with_reducible refine keeps_next ?_) <;> first | (with_reducible rfl) | (simp; done)
theorem kept_execMntIdleTimeout (s : State) :
    ∃ s', execMntIdleTimeout s = .next s' ∧ s'.kept = s.kept := by
  unfold execMntIdleTimeout
  (repeat' split) <;> (with_reducible refine keeps_next ?_) <;> first | (with_reducible rfl) | (simp; done)
theorem kept_execMntCableRemoved (s : State) :
    ∃ s', execMntCableRemoved s = .next s' ∧ s'.kept = s.kept := by
  exact keeps_next (by simp)
theorem kept_execMntCableAttached (s : State) :
    ∃ s', execMntCableAttached s = .next s' ∧ s'.kept = s.kept := by
  exact keeps_next (by simp)
theorem kept_execMntLockoutEnd (s : State) :
    ∃ s', execMntLockoutEnd s = .next s' ∧ s'.kept = s.kept := by
  unfold execMntLockoutEnd
  (repeat' split) <;> (with_reducible refine keeps_next ?_) <;> first | (with_reducible rfl) | (simp; done)

/-! Machine/Modbus.lean -/

@[simp] theorem State.kept_modbusWrite (s : State) (o : ModbusOp) :
    (State.modbusWrite s o).kept = s.kept := by
  unfold State.modbusWrite
  (repeat' split) <;> simp
@[simp] theorem State.kept_netAnswer (s : State) (n : Nat) (mk : List (Nat × Nat) → Option Half → NetOut) :
    (State.netAnswer s n mk).kept = s.kept := by
  simp [State.netAnswer]
@[simp] theorem State.kept_modbusServe (s : State) (conn fn : Nat) (ops : List ModbusOp) :
    (State.modbusServe s conn fn ops).kept = s.kept := by
  unfold State.modbusServe
  simp only []
  (repeat' split) <;> first | (with_reducible rfl) | (simp; done) | (simp [State.kept_foldl]; done) | (exact State.kept_fold _ (fun s a => by first | (simp; done) | ((repeat' split) <;> simp)) _ (by simp))
theorem kept_execModbusRequest (conn : Nat) (seg : TcpSeg) (fn : Nat) (ops : List ModbusOp) (s : State) :
    ∃ s', execModbusRequest conn seg fn ops s = .next s' ∧ s'.kept = s.kept := by
  unfold execModbusRequest
  simp only []
  (repeat' split) <;> (with_reducible refine keeps_next ?_) <;> first | (with_reducible rfl) | (simp; done)

/-! Machine/Tick.lean -/

@[simp] theorem State.kept_stepTask (a b ns : Nat) (s : State) (n : Nat) :
    (State.stepTask a b ns s n).kept = s.kept := by
  unfold State.stepTask
  simp only []
  (repeat' split) <;> first | (with_reducible rfl) | (simp; done)
@[simp] theorem State.kept_advance (s : State) :
    (State.advance s).kept = s.kept := by
  unfold State.advance
  simp only []
  (repeat' split) <;> first | (with_reducible rfl) | (simp; done) | (simp [State.kept_foldl]; done) | (exact State.kept_fold _ (fun s a => by first | (simp; done) | ((repeat' split) <;> simp)) _ (by simp))
@[simp] theorem State.kept_timeTick (s : State) (env : TickEnv) :
    (State.timeTick s env).kept = s.kept := by
  simp [State.timeTick]
@[simp] theorem State.kept_measureTick (s : State) (env : TickEnv) :
    (State.measureTick s env).kept = s.kept := by
  simp [State.measureTick]
@[simp] theorem Recorder.peat_takeDefs (r : Recorder) : r.takeDefs.peat = r.peat := by unfold Recorder.takeDefs; split <;> rfl
@[simp] theorem Recorder.spares_takeDefs (r : Recorder) : r.takeDefs.spares = r.spares := by unfold Recorder.takeDefs; split <;> rfl
@[simp] theorem Recorder.annex_takeDefs (r : Recorder) : r.takeDefs.annex = r.annex := by unfold Recorder.takeDefs; split <;> rfl
@[simp] theorem State.kept_recTick (s : State) : s.recTick.kept = s.kept := by simp [State.recTick]
@[simp] theorem State.kept_dueTick (s : State) :
    (State.dueTick s).kept = s.kept := by
  unfold State.dueTick
  (repeat' split) <;> simp
theorem kept_execStationTick (env : TickEnv) (s : State) :
    ∃ s', execStationTick env s = .next s' ∧ s'.kept = s.kept := by
  unfold execStationTick
  simp only []
  (repeat' split) <;> (with_reducible refine keeps_next ?_) <;> first | (with_reducible rfl) | (simp; done)

end Sys2Proof.Machine
end

