-- ==== Sys2Proof/Laws/Tbl.lean ====
section
/-! SUPPORT. Laws/Tbl.lean: reading after writing, and the canonical form of a sparse table. -/
set_option Elab.async false
namespace Sys2Proof.Tbl
variable {α : Type}

theorem get_erase (d : α) (t : Tbl α) (k i : Nat) : Tbl.get d (Tbl.erase t k) i = if i = k then d else Tbl.get d t i := by
  induction t with
  | nil => simp [Tbl.erase, Tbl.get]
  | cons e t ih =>
    obtain ⟨j, v⟩ := e
    simp only [Tbl.erase, List.filter_cons] at ih ⊢
    by_cases hj : j = k
    · subst hj
      simp only [bne_self_eq_false, Bool.false_eq_true, if_false, ih, Tbl.get]
      by_cases hi : i = j
      · simp [hi]
      · simp [hi, Ne.symm hi]
    · simp only [bne_iff_ne, ne_eq, hj, not_false_eq_true, if_true, Tbl.get, ih]
      by_cases hi : j = i
      · subst hi; simp [hj]
      · simp [hi]

theorem get_insert (d v : α) (t : Tbl α) (k i : Nat) (h : ∀ e ∈ t, e.1 ≠ k) :
    Tbl.get d (Tbl.insert k v t) i = if i = k then v else Tbl.get d t i := by
  induction t with
  | nil =>
    by_cases hi : i = k
    · simp [Tbl.insert, Tbl.get, hi]
    · simp [Tbl.insert, Tbl.get, hi, Ne.symm hi]
  | cons e t ih =>
    obtain ⟨j, w⟩ := e
    have hj : j ≠ k := h (j, w) (by simp)
    unfold Tbl.insert
    split
    · by_cases hi : i = k
      · simp [Tbl.get, hi]
      · simp [Tbl.get, hi, Ne.symm hi]
    · simp only [Tbl.get, ih (fun e m => h e (by simp [m]))]
      by_cases hi : j = i
      · subst hi; simp [hj]
      · simp [hi]

theorem mem_erase {t : Tbl α} {k : Nat} {e : Nat × α} : e ∈ Tbl.erase t k ↔ e ∈ t ∧ e.1 ≠ k := by
  simp [Tbl.erase]

theorem mem_insert {t : Tbl α} {k : Nat} {v : α} {e : Nat × α} : e ∈ Tbl.insert k v t ↔ e = (k, v) ∨ e ∈ t := by
  induction t with
  | nil => simp [Tbl.insert]
  | cons a t ih =>
    obtain ⟨j, w⟩ := a
    unfold Tbl.insert
    split
    · simp
    · simp only [List.mem_cons, ih]
      constructor
      · rintro (h | h | h) <;> simp [h]
      · rintro (h | h | h) <;> simp [h]

/-- What a table reads after one write. -/
theorem get_set [DecidableEq α] (d : α) (t : Tbl α) (k i : Nat) (v : α) :
    Tbl.get d (Tbl.set d t k v) i = if i = k then v else Tbl.get d t i := by
  unfold Tbl.set
  split
  · rename_i h; subst h; exact get_erase v t k i
  · rw [get_insert _ _ _ _ _ (fun e m => (mem_erase.mp m).2), get_erase]
    by_cases hi : i = k <;> simp [hi]

@[simp] theorem get_set_self [DecidableEq α] (d : α) (t : Tbl α) (k : Nat) (v : α) : Tbl.get d (Tbl.set d t k v) k = v := by
  simp [get_set]

theorem get_set_ne [DecidableEq α] (d : α) (t : Tbl α) {k i : Nat} (v : α) (h : i ≠ k) :
    Tbl.get d (Tbl.set d t k v) i = Tbl.get d t i := by simp [get_set, h]

theorem erase_insert (t : Tbl α) (k : Nat) (v : α) : Tbl.erase (Tbl.insert k v t) k = Tbl.erase t k := by
  induction t with
  | nil => simp [Tbl.insert, Tbl.erase]
  | cons a t ih =>
    obtain ⟨j, w⟩ := a
    unfold Tbl.insert
    split
    · simp [Tbl.erase]
    · simp only [Tbl.erase] at ih ⊢
      simp [List.filter_cons, ih]

theorem erase_erase (t : Tbl α) (k : Nat) : Tbl.erase (Tbl.erase t k) k = Tbl.erase t k := by
  simp [Tbl.erase, List.filter_filter]

/-- The later of two writes to one key stands. -/
@[simp] theorem set_set [DecidableEq α] (d : α) (t : Tbl α) (k : Nat) (v w : α) : Tbl.set d (Tbl.set d t k v) k w = Tbl.set d t k w := by
  have h : Tbl.erase (Tbl.set d t k v) k = Tbl.erase t k := by
    unfold Tbl.set
    split
    · exact erase_erase t k
    · rw [erase_insert, erase_erase]
  unfold Tbl.set at h ⊢
  rw [h]

/-- Every key of the table lies above `k`, the keys rise and no default value is listed. -/
theorem wf_cons [DecidableEq α] (d : α) (k : Nat) (v : α) (t : Tbl α) :
    Tbl.wf d ((k, v) :: t) = true ↔ v ≠ d ∧ (∀ e ∈ t, k < e.1) ∧ Tbl.wf d t = true := by
  induction t generalizing k v with
  | nil => simp [Tbl.wf]
  | cons a t ih =>
    obtain ⟨j, w⟩ := a
    have h : Tbl.wf d ((k, v) :: (j, w) :: t) = true ↔ (k < j ∧ v ≠ d) ∧ Tbl.wf d ((j, w) :: t) = true := by simp [Tbl.wf]
    rw [h]
    constructor
    · rintro ⟨⟨hk, hv⟩, hw⟩
      refine ⟨hv, fun e m => ?_, hw⟩
      rcases List.mem_cons.mp m with m | m
      · subst m; exact hk
      · exact Nat.lt_trans hk (((ih j w).mp hw).2.1 e m)
    · rintro ⟨hv, hm, hw⟩
      exact ⟨⟨hm (j, w) (by simp), hv⟩, hw⟩

theorem wf_filter [DecidableEq α] (d : α) (p : Nat × α → Bool) (t : Tbl α) (h : Tbl.wf d t = true) :
    Tbl.wf d (List.filter p t : Tbl α) = true := by
  induction t with
  | nil => simp [Tbl.wf]
  | cons a t ih =>
    obtain ⟨k, v⟩ := a
    obtain ⟨hv, hm, hw⟩ := (wf_cons d k v t).mp h
    rw [List.filter_cons]
    split
    · exact (wf_cons d k v _).mpr ⟨hv, fun e m => hm e (List.mem_filter.mp m).1, ih hw⟩
    · exact ih hw

theorem wf_insert [DecidableEq α] (d : α) (k : Nat) (v : α) (t : Tbl α) (hv : v ≠ d) (h : Tbl.wf d t = true)
    (hk : ∀ e ∈ t, e.1 ≠ k) : Tbl.wf d (Tbl.insert k v t) = true := by
  induction t with
  | nil => simp [Tbl.insert, Tbl.wf, hv]
  | cons a t ih =>
    obtain ⟨j, w⟩ := a
    obtain ⟨hw, hm, ht⟩ := (wf_cons d j w t).mp h
    have hj : j ≠ k := hk (j, w) (by simp)
    unfold Tbl.insert
    split
    · rename_i hlt
      refine (wf_cons d k v _).mpr ⟨hv, fun e m => ?_, h⟩
      rcases List.mem_cons.mp m with m | m
      · subst m; exact hlt
      · exact Nat.lt_trans hlt (hm e m)
    · rename_i hlt
      refine (wf_cons d j w _).mpr ⟨hw, fun e m => ?_, ih ht (fun e m => hk e (by simp [m]))⟩
      rcases mem_insert.mp m with m | m
      · subst m; simp only; omega
      · exact hm e m

/-- A write keeps the canonical form. -/
theorem wf_set [DecidableEq α] (d : α) (t : Tbl α) (k : Nat) (v : α) (h : Tbl.wf d t = true) : Tbl.wf d (Tbl.set d t k v) = true := by
  have he : Tbl.wf d (Tbl.erase t k) = true := wf_filter d _ t h
  unfold Tbl.set
  split
  · exact he
  · rename_i hv
    exact wf_insert d k v _ hv he (fun e m => (mem_erase.mp m).2)

theorem wf_mod [DecidableEq α] (d : α) (t : Tbl α) (k : Nat) (f : α → α) (h : Tbl.wf d t = true) : Tbl.wf d (Tbl.mod d t k f) = true :=
  wf_set d t k _ h

theorem wf_setList [DecidableEq α] (d : α) (vs : List α) (t : Tbl α) (k : Nat) (h : Tbl.wf d t = true) :
    Tbl.wf d (Tbl.setList d t k vs) = true := by
  induction vs generalizing t k with
  | nil => exact h
  | cons v vs ih => exact ih _ _ (wf_set d t k v h)

/-- What a table reads after a write of consecutive keys: outside them, what it read before. -/
theorem get_setList_out [DecidableEq α] (d : α) (vs : List α) (t : Tbl α) (k i : Nat) (h : i < k ∨ k + vs.length ≤ i) :
    Tbl.get d (Tbl.setList d t k vs) i = Tbl.get d t i := by
  induction vs generalizing t k with
  | nil => rfl
  | cons v vs ih =>
    simp only [List.length_cons] at h
    rw [Tbl.setList, ih _ _ (by omega), get_set_ne _ _ _ (by omega)]

/-- What a table reads after a change of consecutive keys. -/
theorem get_mapRange [DecidableEq α] (d : α) (f : Nat → α → α) (n : Nat) (t : Tbl α) (k i : Nat) :
    Tbl.get d (Tbl.mapRange d f t k n) i = if k ≤ i ∧ i < k + n then f i (Tbl.get d t i) else Tbl.get d t i := by
  induction n generalizing t k with
  | zero => simp only [Tbl.mapRange]; rw [if_neg (by omega)]
  | succ n ih =>
    rw [Tbl.mapRange, ih]
    by_cases hk : i = k
    · subst hk
      rw [if_neg (by omega), if_pos (by omega)]; simp
    · rw [get_set_ne _ _ _ hk]
      by_cases h : k + 1 ≤ i ∧ i < k + 1 + n
      · rw [if_pos h, if_pos (by omega)]
      · rw [if_neg h, if_neg (by omega)]

end Sys2Proof.Tbl
end

