-- ==== Sys2Proof/Laws/Keeps.lean ====
section
/-! SUPPORT. Laws/Keeps.lean: what the commands of the rings, the register interface and the recorder keep: the queue, the peat
records and the invariant. -/
set_option Elab.async false
set_option maxRecDepth 4000
namespace Sys2Proof.Machine

/-- From `s` to `t` the queue and every peat record stand, and the invariant is kept. -/
structure Keeps (s t : State) : Prop where
  pending : t.pending = s.pending
  peat : ∀ e ∈ s.recorder.peat, e ∈ t.recorder.peat
  inv : s.Inv → t.Inv

theorem Keeps.refl (s : State) : Keeps s s := ⟨rfl, fun _ h => h, id⟩
theorem Keeps.trans {s t u : State} (a : Keeps s t) (b : Keeps t u) : Keeps s u :=
  ⟨b.pending.trans a.pending, fun e h => b.peat e (a.peat e h), fun h => b.inv (a.inv h)⟩

theorem Keeps.of_rings {s t : State} (hp : t.pending = s.pending) (hr : t.recorder.peat = s.recorder.peat)
    (ha : t.recorder.annex = s.recorder.annex) (hs : s.RingsOk → t.RingsOk) : Keeps s t :=
  ⟨hp, fun _ h => hr ▸ h, fun h => ⟨hs h.1, ha ▸ h.2⟩⟩

/-- What leaves the kept part alone keeps all. -/
theorem Keeps.of_kept {s t : State} (h : t.kept = s.kept) : Keeps s t := by
  refine Keeps.of_rings (State.kept_pending h) (State.kept_peat h) (State.kept_annex h) (fun r n => ?_)
  have hq : t.host.sq n = s.host.sq n := by unfold HostBlk.sq; rw [State.kept_sqs h]
  rw [hq]; exact r n

theorem Keeps.then_kept {s t u : State} (a : Keeps s t) (h : u.kept = t.kept) : Keeps s u := a.trans (.of_kept h)

theorem Keeps.foldl {α : Type} (f : State → α → State) (h : ∀ s a, Keeps s (f s a)) (l : List α) (s : State) :
    Keeps s (l.foldl f s) := by
  induction l generalizing s with
  | nil => exact .refl s
  | cons a l ih => exact (h s a).trans (ih _)

/-- A next state, with what it keeps. -/
theorem keepsNext {s t : State} (h : Keeps s t) :
    ∃ t', (Host.Outcome.next t : Host.Outcome State Fault Refusal) = .next t' ∧ Keeps s t' := ⟨t, rfl, h⟩

/-! Submission rings. -/

theorem HostBlk.sq_setSq (h : HostBlk) (n i : Nat) (q : SubRing) : (h.setSq n q).sq i = if i = n then q else h.sq i :=
  Tbl.get_set _ h.sqs n i q

/-- One ring takes a sound value, whatever else of the host block changes. -/
theorem Keeps.setSq {s t : State} (n : Nat) (q : SubRing) (hp : t.pending = s.pending) (hr : t.recorder = s.recorder)
    (hh : t.host.sqs = (s.host.setSq n q).sqs) (hq : (s.host.sq n).Ok → q.Ok) : Keeps s t := by
  refine .of_rings hp (by rw [hr]) (by rw [hr]) (fun r i => ?_)
  have hi : t.host.sq i = (s.host.setSq n q).sq i := by unfold HostBlk.sq; rw [hh]
  rw [hi, HostBlk.sq_setSq]
  split
  · exact hq (r n)
  · exact r i

theorem SubRing.size_pos (q : SubRing) : 0 < q.size := Nat.two_pow_pos _

theorem Bits.get_eq_extract (w : Word) (i n : Nat) : Bits.get w i n = (w.extractLsb' i n).toNat := by
  simp [Bits.get, BitVec.extractLsb'_toNat, Nat.shiftRight_eq_div_pow]

theorem Bits.sizeLog2_clrBit (w : Word) : Bits.get (Bits.clrBit w 31) 24 4 = Bits.get w 24 4 := by
  rw [Bits.get_eq_extract, Bits.get_eq_extract]; congr 1
  apply BitVec.eq_of_getLsbD_eq
  intro i hi
  have : i = 0 ∨ i = 1 ∨ i = 2 ∨ i = 3 := by omega
  rcases this with rfl | rfl | rfl | rfl <;> simp [Bits.clrBit]

theorem Bits.sizeLog2_keep (w o : Word) :
    Bits.get ((w &&& ~~~0x0F070000#32) ||| (o &&& 0x0F070000#32)) 24 4 = Bits.get o 24 4 := by
  rw [Bits.get_eq_extract, Bits.get_eq_extract]; congr 1
  apply BitVec.eq_of_getLsbD_eq
  intro i hi
  have : i = 0 ∨ i = 1 ∨ i = 2 ∨ i = 3 := by omega
  rcases this with rfl | rfl | rfl | rfl <;> simp

/-- A ring that keeps its size, HEAD and TAIL stays sound in any state but DISABLED. -/
theorem SubRing.Ok.keep {q p : SubRing} (h : q.Ok) (hd : q.state ≠ .disabled) (hc : Bits.get p.cfg 24 4 = Bits.get q.cfg 24 4)
    (hh : p.head = q.head) (ht : p.tail = q.tail) : p.Ok := by
  rcases h with h | h
  · exact absurd h hd
  · right
    unfold SubRing.size at *
    rw [hc, hh, ht]; exact h

theorem State.keeps_ringError (s : State) (r : RingId) (kind index : Nat) (h : s.host.enabled r = true) :
    Keeps s (s.ringError r kind index) := by
  cases r with
  | sq n =>
    refine Keeps.trans (t := { s with host := { s.host.setSq n.val { s.host.sq n.val with state := .error } with
      errInfo := Bits.fld kind 28 ||| Bits.fld 0 26 ||| Bits.fld n.val 23 ||| Bits.fld (index % 4096) 0 } }) ?_ (.of_kept (State.kept_setEvent ..))
    refine Keeps.setSq n.val { s.host.sq n.val with state := .error } rfl rfl rfl (fun ok => ok.keep ?_ rfl rfl rfl)
    intro hd
    simp [HostBlk.enabled, hd] at h
  | cq n => exact .of_kept (by simp [State.ringError])
  | eq => exact .of_kept (by simp [State.ringError])

theorem keeps_execRingAccessFailure (r : RingId) (index : Nat) (how : DmaFail) (s : State) :
    ∃ t, execRingAccessFailure r index how s = .next t ∧ Keeps s t := by
  unfold execRingAccessFailure
  split
  · exact keepsNext (.refl s)
  · rename_i h
    exact keepsNext (s.keeps_ringError r _ index (by simpa using h))

theorem State.keeps_tailDoorbell (s : State) (n : Fin 8) (tail : Nat) : Keeps s (s.tailDoorbell n tail) := by
  unfold State.tailDoorbell
  extract_lets q
  split
  · exact .refl s
  · rename_i h1
    have he : q.state = .enabled := by
      cases hq : q.state <;> simp [hq] at h1 ⊢
    split
    · exact s.keeps_ringError (.sq n) 1 tail (by simp [HostBlk.enabled, ← show q = s.host.sq n.val from rfl, he])
    · rename_i h2
      refine Keeps.setSq n.val { q with tail := tail } rfl rfl rfl (fun ok => ?_)
      rcases ok with ok | ok
      · rw [show (s.host.sq n.val).state = .enabled from he] at ok; cases ok
      · right
        refine ⟨ok.1, ok.2.1, ok.2.2.1, ?_⟩
        show tail < q.size
        omega

theorem State.keeps_cqDoorbell (s : State) (n : Fin 8) (head : Nat) : Keeps s (s.cqDoorbell n head) := by
  unfold State.cqDoorbell
  extract_lets q
  split
  · exact .refl s
  · rename_i h1
    split
    · refine s.keeps_ringError (.cq n) 2 head ?_
      cases hq : q.state <;> simp [hq] at h1
      simp [HostBlk.enabled, ← show q = s.host.cq n.val from rfl, hq]
    · exact .of_kept (by simp)

theorem State.keeps_eqDoorbell (s : State) (head : Nat) : Keeps s (s.eqDoorbell head) := by
  unfold State.eqDoorbell
  extract_lets q
  split
  · exact .refl s
  · rename_i h1
    split
    · refine s.keeps_ringError .eq 2 head ?_
      cases hq : q.state <;> simp [hq] at h1
      simp [HostBlk.enabled, ← show q = s.host.eq from rfl, hq]
    · exact .of_rings rfl rfl rfl id

theorem State.keeps_doorbell (s : State) (r : RingId) (w : Word) : Keeps s (s.doorbell r w) := by
  unfold State.doorbell
  split
  · exact s.keeps_tailDoorbell _ _
  · exact s.keeps_cqDoorbell _ _
  · exact s.keeps_eqDoorbell _

theorem State.keeps_stopSq (s : State) (n : Fin 8) (h : (s.host.sq n.val).state ≠ .disabled) : Keeps s (s.stopSq n) := by
  refine Keeps.trans (t := { s with host := s.host.setSq n.val { s.host.sq n.val with state := .stopping, aborted := !(s.host.taken.filter (fun t => t.sq == n.val && !t.passed)).isEmpty } })
    (Keeps.setSq n.val _ rfl rfl rfl (fun ok => ok.keep h rfl rfl rfl)) (.of_kept ?_)
  exact State.kept_foldl _ (fun s t => by simp) _ _

theorem keeps_execRingStopped (n : Fin 8) (s : State) : ∃ t, execRingStopped n s = .next t ∧ Keeps s t := by
  unfold execRingStopped
  extract_lets q
  split
  · exact keepsNext (.refl s)
  · refine keepsNext (Keeps.then_kept (t := { s with host := s.host.setSq n.val { q with state := .disabled, aborted := false } }) ?_ (by simp))
    exact Keeps.setSq n.val _ rfl rfl rfl (fun _ => Or.inl rfl)

theorem State.keeps_putSqCfg (s : State) (n : Fin 8) (w : Word) : Keeps s (s.putSqCfg n w) := by
  unfold State.putSqCfg
  extract_lets q w' on w0 c ok size keep w1 s1
  have hs1 : s1.kept = s.kept := by simp [s1]
  split
  · rename_i hd
    split
    · exact Keeps.setSq n.val { q with cfg := w0 } rfl rfl rfl (fun _ => Or.inl hd)
    · split
      · rename_i hok
        refine Keeps.setSq n.val { q with cfg := w', head := 0, tail := 0, state := .enabled, aborted := false } rfl rfl rfl
          (fun _ => Or.inr ?_)
        simp only [ok, Bool.and_eq_true, decide_eq_true_eq] at hok
        exact ⟨hok.1.1, hok.1.2, SubRing.size_pos _, SubRing.size_pos _⟩
      · refine Keeps.then_kept (t := { s with host := s.host.setSq n.val { q with cfg := w0 } }) ?_ (by simp)
        exact Keeps.setSq n.val { q with cfg := w0 } rfl rfl rfl (fun _ => Or.inl hd)
  · rename_i hd
    have hsq : s1.host.sq n.val = q := by
      show s1.host.sq n.val = s.host.sq n.val
      unfold HostBlk.sq; rw [State.kept_sqs hs1]
    have hw : Bits.get w1 24 4 = Bits.get q.cfg 24 4 := Bits.sizeLog2_keep w' q.cfg
    split
    · refine (Keeps.of_kept hs1).trans (Keeps.setSq n.val _ rfl rfl rfl (fun ok => ok.keep (by rw [hsq]; exact hd) ?_ rfl rfl))
      rw [hsq]
      show Bits.get (if _ then _ else _) 24 4 = _
      split
      · rw [Bits.sizeLog2_clrBit, hw]
      · exact hw
    · refine (Keeps.of_kept hs1).trans (Keeps.trans (t := { s1 with host := s1.host.setSq n.val { s1.host.sq n.val with cfg := Bits.clrBit w1 31 } }) ?_ ?_)
      · refine Keeps.setSq n.val _ rfl rfl rfl (fun ok => ok.keep (by rw [hsq]; exact hd) ?_ rfl rfl)
        rw [hsq]; exact (Bits.sizeLog2_clrBit w1).trans hw
      · refine State.keeps_stopSq _ n ?_
        rw [HostBlk.sq_setSq, if_pos rfl]
        show (s1.host.sq n.val).state ≠ _
        rw [hsq]; exact hd

theorem State.keeps_putBase (s : State) (r : RingId) (high : Bool) (w : Word) : Keeps s (s.putBase r high w) := by
  unfold State.putBase
  extract_lets h off
  split
  · exact .of_kept (by simp)
  · rename_i hoff
    cases r with
    | sq n =>
      refine Keeps.setSq n.val _ rfl rfl rfl (fun _ => Or.inl ?_)
      have hd : (s.host.sq n.val).state = .disabled := by simpa [off, h] using hoff
      cases high <;> exact hd
    | cq n => exact .of_kept (by simp [h])
    | eq => exact .of_kept (by simp [h])

/-! The recorder. -/

theorem Recorder.peat_put (r : Recorder) (a : Record) : ∀ e ∈ r.peat, e ∈ (r.put a).peat := by
  intro e h
  unfold Recorder.put
  dsimp only
  split
  · exact Tbl.mem_insert.mpr (Or.inr h)
  · exact h
@[simp] theorem Recorder.annex_put (r : Recorder) (a : Record) : (r.put a).annex = r.annex := by cases r; rfl

theorem State.keeps_writeReq (s : State) (q : RecReq) : Keeps s (s.writeReq q) := by
  refine Keeps.trans (t := { s with recorder := s.recorder.put (s.recordOf q) }) ?_ (.of_kept ?_)
  · exact ⟨rfl, Recorder.peat_put _ _, fun h => h⟩
  · unfold State.writeReq
    dsimp only
    split <;> simp

theorem State.keeps_writeFront (s : State) : Keeps s s.writeFront := by
  unfold State.writeFront
  split
  · exact .refl s
  · rename_i q rest _
    exact Keeps.trans (t := { s with recorder := { s.recorder with queue := rest } }) (.of_kept (by simp)) (State.keeps_writeReq _ q)

theorem keeps_execRecordWrite (s : State) : ∃ t, execRecordWrite s = .next t ∧ Keeps s t := by
  unfold execRecordWrite
  split
  · exact keepsNext (.refl s)
  · exact keepsNext ((Keeps.of_kept (by simp)).trans s.reportLost.keeps_writeFront)

theorem State.keeps_finishHoldup (s : State) : Keeps s s.finishHoldup := by
  unfold State.finishHoldup
  refine Keeps.trans (t := (List.range 32).foldl (fun (s : State) n =>
    match (s.task n).run with
    | some r => match r.tc with | some tc => s.commit n r tc | none => s
    | none => s) s) (.of_kept (State.kept_foldl _ (fun s n => by (repeat' split) <;> simp) _ _)) ?_
  dsimp only
  split
  · exact .refl _
  · exact Keeps.foldl _ (fun s _ => s.keeps_writeFront) _ _

theorem State.keeps_powerUp (s : State) (psA psB romOk bookA bookB rebuilt : Bool) (failing : List (Fin 16)) :
    Keeps s (s.powerUp psA psB romOk bookA bookB rebuilt failing) :=
  ⟨rfl, fun _ h => h, fun h => ⟨fun _ => Or.inl rfl, h.2⟩⟩

theorem State.keeps_restart (s : State) : Keeps s s.restart := by
  unfold State.restart
  exact ((Keeps.of_kept (by simp)).trans (State.keeps_finishHoldup _)).trans (State.keeps_powerUp _ _ _ _ _ _ _ _)

theorem State.keeps_restart_cfg (s : State) (c : CfgBlk) : Keeps s (State.restart { s with cfg := c }) :=
  Keeps.trans (t := { s with cfg := c }) (.of_kept (by simp)) (State.keeps_restart _)

theorem keeps_execActivateFwModule (o : Origin) (s : State) : ∃ t, execActivateFwModule o s = .next t ∧ Keeps s t := by
  unfold execActivateFwModule
  split
  · exact keepsNext (.of_kept (by simp))
  · extract_lets other c u
    have hu : u.kept = s.kept := by simp [u]
    clear_value other u
    repeat' split
    all_goals refine keepsNext ?_
    all_goals first
      | exact s.keeps_restart_cfg _
      | (refine .of_kept ?_; simp [hu]; done)

/-! Descriptors. -/

theorem State.keeps_activate (s : State) (o : Origin) (target engine : Nat) : Keeps s (s.activate o target engine) := by
  unfold State.activate
  split
  · exact .of_kept (by simp)
  · exact .of_kept (by simp)
  · split
    · obtain ⟨t, h, k⟩ := keeps_execActivateFwModule o s
      simpa [State.after, h] using k
    · split <;> exact .of_kept (by simp)
  · exact .of_kept (by simp)

theorem State.keeps_carryOut (s : State) (o : Origin) (d : Desc) (data : List Byte) (obj : ImageObj) (pkg : Package × Option Nat) :
    Keeps s (s.carryOut o d data obj pkg) := by
  unfold State.carryOut
  dsimp only
  split <;> first
    | exact s.keeps_activate _ _ _
    | (refine .of_kept ?_; simp; done)
    | (split <;> (refine .of_kept ?_; simp))

theorem State.keeps_beginDesc (s : State) (o : Origin) (d : Desc) : Keeps s (s.beginDesc o d) := by
  unfold State.beginDesc
  repeat' split
  all_goals first | exact .refl s | exact s.keeps_carryOut _ _ _ _ _ | exact .of_kept (by simp)

theorem State.keeps_takeMnt (s : State) (c : MntCmd) : Keeps s (s.takeMnt c) := by
  unfold State.takeMnt
  split
  · exact .refl s
  · dsimp only
    repeat' split
    all_goals first
      | exact (Keeps.of_kept (by simp)).trans (State.keeps_carryOut _ _ _ _ _ _)
      | exact .of_kept (by simp)

theorem State.keeps_serveMnt (s : State) : Keeps s s.serveMnt := Keeps.foldl _ State.keeps_takeMnt _ s

theorem keeps_execDataReadDone (sq : Fin 8) (tag : Word) (data : List Byte) (obj : ImageObj) (pkg : Package × Option Nat) (s : State) :
    ∃ t, execDataReadDone sq tag data obj pkg s = .next t ∧ Keeps s t := by
  unfold execDataReadDone
  split
  · exact keepsNext (.refl s)
  · split
    · exact keepsNext (.refl s)
    · rename_i e
      exact keepsNext ((Keeps.of_kept (by simp [HostBlk.sqs_readDone e])).trans (State.keeps_carryOut _ _ _ _ _ _))

theorem State.keeps_takeDesc (s : State) (n : Fin 8) (d : Desc) : Keeps s (s.takeDesc n d) := by
  unfold State.takeDesc
  extract_lets q reading h
  refine Keeps.trans (t := { s with host := { h with taken := h.taken ++ [{ sq := n.val, desc := d, reading := reading, sinceNs := s.nowNs }] } })
    (Keeps.setSq n.val _ rfl rfl rfl (fun ok => ?_)) (State.keeps_beginDesc _ _ _)
  rcases ok with ok | ok
  · exact Or.inl ok
  · exact Or.inr ⟨ok.1, ok.2.1, Nat.mod_lt _ (SubRing.size_pos _), ok.2.2.2⟩

theorem State.keeps_serveRing (n : Fin 8) (k : Nat) (l : List Desc) (s : State) : Keeps s (State.serveRing n k l s) := by
  induction k generalizing l s with
  | zero => cases l <;> exact .refl s
  | succ k ih =>
    cases l with
    | nil => exact .refl s
    | cons d l =>
      unfold State.serveRing
      extract_lets q c
      split
      · exact .refl s
      · split
        · exact .refl s
        · split
          · exact .refl s
          · split
            · split
              · exact .refl s
              · refine Keeps.setSq n.val { q with waiting := true } rfl rfl rfl (fun ok => ?_)
                rcases ok with ok | ok
                · exact Or.inl ok
                · exact Or.inr ok
            · exact (s.keeps_takeDesc n d).trans (ih l _)

theorem keeps_execServicePass (descs : List (Fin 8 × List Desc)) (s : State) :
    ∃ t, execServicePass descs s = .next t ∧ Keeps s t := by
  unfold execServicePass
  split
  · exact keepsNext (.refl s)
  · refine keepsNext (Keeps.trans (Keeps.foldl _ (fun s n => ?_) _ s) (State.keeps_serveMnt _))
    dsimp only
    split
    · exact s.keeps_serveRing n _ _
    · exact .refl s

/-! The link. -/

theorem State.keeps_hostReset (s : State) : Keeps s s.hostReset := by
  refine .of_rings rfl rfl rfl (fun _ n => Or.inl ?_)
  rfl

theorem keeps_execPcieLinkDown (s : State) : ∃ t, execPcieLinkDown s = .next t ∧ Keeps s t := by
  unfold execPcieLinkDown
  split
  · exact keepsNext (.refl s)
  · exact keepsNext (s.keeps_hostReset.then_kept (by simp))
theorem keeps_execPcieHotReset (s : State) : ∃ t, execPcieHotReset s = .next t ∧ Keeps s t := by
  unfold execPcieHotReset
  split
  · exact keepsNext (.refl s)
  · exact keepsNext (s.keeps_hostReset.then_kept (by simp))
theorem keeps_execFlr (s : State) : ∃ t, execFlr s = .next t ∧ Keeps s t := by
  unfold execFlr
  split
  · exact keepsNext (.refl s)
  · refine keepsNext (s.keeps_hostReset.trans (.of_kept ((State.kept_linkEvent _ _).trans ?_)))
    exact State.kept_mk _ _ _ _ _ _ _ _ _ _ _ _ _ _ _ _ _ _ _ _ rfl rfl rfl rfl rfl rfl

/-! The register interface. -/

theorem State.keeps_putRw (s : State) (who : Requester) (off : Nat) (w : Word) : Keeps s (s.putRw who off w) := by
  unfold State.putRw
  split
  · exact s.keeps_putBase _ _ _
  · exact s.keeps_putBase _ _ _
  · exact s.keeps_doorbell _ _
  · exact .of_kept (by (repeat' split) <;> simp)

theorem State.keeps_putGuarded (s : State) (off : Nat) (w : Word) : Keeps s (s.putGuarded off w) := by
  unfold State.putGuarded
  split
  · exact s.keeps_putSqCfg _ _
  · exact .of_kept (by simp)
  · exact .of_kept (by simp)
  · exact .of_kept (by split <;> simp)

theorem State.keeps_writeBits (s : State) (who : Requester) (off : Nat) (w mask : Word) : Keeps s (s.writeBits who off w mask) := by
  unfold State.writeBits
  dsimp only
  split
  · exact s.keeps_putRw _ _ _
  · exact .of_kept (by simp)
  · exact .of_kept (by simp)
  · exact .refl s

theorem State.keeps_complement (s : State) (who : Requester) (off : Nat) (w : Word) (expired : Option Nat) :
    Keeps s (s.complement who off w expired) := by
  unfold State.complement
  dsimp only
  split
  · exact .refl s
  · split
    · exact .of_kept (by simp)
    · split
      · exact .of_kept (by simp)
      · split
        · exact .of_kept (by simp)
        · split
          · exact .of_kept (by simp)
          · split
            · exact .of_kept (by simp)
            · exact (Keeps.of_kept (by simp)).trans (State.keeps_putGuarded _ _ _)

theorem State.keeps_regWrite (s : State) (who : Requester) (off : Nat) (w mask : Word) (viaAlias : Bool) :
    Keeps s (s.regWrite who off w mask viaAlias) := by
  unfold State.regWrite
  dsimp only
  split
  · exact .refl s
  · split
    · exact .of_kept (by simp)
    · split
      · exact .of_kept (by split <;> simp)
      · exact s.keeps_writeBits _ _ _ _

theorem State.keeps_busWrite (s : State) (who : Requester) (off : Nat) (w : Word) : Keeps s (s.busWrite who off w) := by
  unfold State.busWrite
  dsimp only
  refine Keeps.trans (t := s.setReq who { s.req who with expired := none }) (.of_kept (by simp)) ?_
  generalize s.setReq who { s.req who with expired := none } = t
  split
  · exact .refl t
  · split
    · split
      · exact .of_kept (by simp)
      · exact t.keeps_regWrite _ _ _ _ _
    · split
      · split
        · exact .of_kept (by simp)
        · exact .refl t
      · split
        · exact .of_kept (by simp)
        · split
          · split
            · exact t.keeps_complement _ _ _ _
            · exact .refl t
          · exact t.keeps_regWrite _ _ _ _ _

theorem keeps_execRegisterWrite (who : Requester) (off : Nat) (w : Word) (s : State) :
    ∃ t, execRegisterWrite who off w s = .next t ∧ Keeps s t := keepsNext (s.keeps_busWrite who off w)
theorem keeps_execGuardedValueWrite (who : Requester) (off : Nat) (w : Word) (s : State) :
    ∃ t, execGuardedValueWrite who off w s = .next t ∧ Keeps s t := by
  unfold execGuardedValueWrite
  split
  · exact keepsNext (s.keeps_busWrite ..)
  · exact keepsNext (.refl s)
theorem keeps_execComplementWrite (who : Requester) (off : Nat) (w : Word) (ns : Nat) (s : State) :
    ∃ t, execComplementWrite who off w ns s = .next t ∧ Keeps s t := by
  unfold execComplementWrite
  have h : Keeps s (if 1000 < ns then s.guardLate who else s) := .of_kept (by split <;> simp)
  dsimp only
  split
  · exact keepsNext (h.trans (State.keeps_busWrite ..))
  · exact keepsNext h
theorem keeps_execBitAliasWrite (who : Requester) (off : Nat) (b : Fin 32) (v : Bool) (s : State) :
    ∃ t, execBitAliasWrite who off b v s = .next t ∧ Keeps s t := by
  unfold execBitAliasWrite
  split
  · exact keepsNext (s.keeps_busWrite ..)
  · exact keepsNext (.refl s)
theorem keeps_execSqTailDoorbell (n : Fin 8) (tail : Nat) (s : State) :
    ∃ t, execSqTailDoorbell n tail s = .next t ∧ Keeps s t := keepsNext (s.keeps_busWrite ..)
theorem keeps_execCqHeadDoorbell (n : Fin 8) (head : Nat) (s : State) :
    ∃ t, execCqHeadDoorbell n head s = .next t ∧ Keeps s t := keepsNext (s.keeps_busWrite ..)
theorem keeps_execEqHeadDoorbell (head : Nat) (s : State) :
    ∃ t, execEqHeadDoorbell head s = .next t ∧ Keeps s t := keepsNext (s.keeps_busWrite ..)
theorem keeps_execRecWinSelect (who : Requester) (w : Word) (s : State) :
    ∃ t, execRecWinSelect who w s = .next t ∧ Keeps s t := keepsNext (s.keeps_busWrite ..)
theorem keeps_execHoldupTest (s : State) : ∃ t, execHoldupTest s = .next t ∧ Keeps s t := keepsNext (s.keeps_busWrite ..)
theorem keeps_execIdentify (s : State) : ∃ t, execIdentify s = .next t ∧ Keeps s t := keepsNext (s.keeps_busWrite ..)
theorem keeps_execScrubNow (who : Requester) (busy : Bool) (s : State) : ∃ t, execScrubNow who busy s = .next t ∧ Keeps s t := by
  unfold execScrubNow
  dsimp only
  split
  · exact keepsNext ((s.keeps_busWrite who 0x3C0C 2#32).then_kept (by simp))
  · exact keepsNext (s.keeps_busWrite ..)
theorem keeps_execMntWrite (off : Nat) (w : Word) (s : State) : ∃ t, execMntWrite off w s = .next t ∧ Keeps s t := by
  unfold execMntWrite
  dsimp only
  split
  · exact keepsNext (.refl s)
  · have h : Keeps s s.message := .of_kept (by simp)
    split
    · exact keepsNext (h.then_kept (by simp))
    · split
      · exact keepsNext ((h.trans (s.message.keeps_busWrite .maint off w)).then_kept (by simp))
      · exact keepsNext ((h.trans (s.message.keeps_busWrite .maint off w)).then_kept (by simp))

/-! Start-up and memory faults. -/

theorem keeps_execPowerUp (psA psB romOk torn bookA bookB rebuilt : Bool) (failing : List (Fin 16)) (s : State) :
    ∃ t, execPowerUp psA psB romOk torn bookA bookB rebuilt failing s = .next t ∧ Keeps s t := by
  unfold execPowerUp
  split
  · exact keepsNext (.refl s)
  · exact keepsNext ((s.keeps_finishHoldup.trans (State.keeps_powerUp _ psA psB romOk bookA bookB rebuilt failing)).then_kept (by simp))

@[simp] theorem Recorder.annex_peatSpare (r : Recorder) (b : Nat) (l : List Nat) (f : Nat → Record) : (r.peatSpare b l f).annex = r.annex := by
  unfold Recorder.peatSpare; split
  · rfl
  · split <;> rfl

/-- A spare, or its want, takes away records of the block that it stands for alone. -/
theorem Recorder.peat_peatSpare (r : Recorder) (b : Nat) (l : List Nat) (f : Nat → Record) {e : Nat × Record} (h : e ∈ r.peat)
    (hb : r.peatBlock b ≠ some (e.1 / 128)) : e ∈ (r.peatSpare b l f).peat := by
  unfold Recorder.peatSpare
  split
  · exact h
  · rename_i c hc
    have hne : e.1 / 128 ≠ c := fun x => hb (x ▸ hc)
    split
    · simp [h, hne]
    · exact List.mem_map.mpr ⟨e, h, by simp [hne]⟩

theorem Recorder.annexPut_facts (r : Recorder) (a : Record) : (r.annex.length ≤ 64 → (r.annexPut a).annex.length ≤ 64) ∧
    (r.annexPut a).peat = r.peat ∧ (r.annexPut a).spares = r.spares := by
  unfold Recorder.annexPut
  split
  · refine ⟨fun h => ?_, rfl, rfl⟩
    simp only [List.length_drop, List.length_append, List.length_cons, List.length_nil]
    omega
  · exact ⟨id, rfl, rfl⟩

/-- Telling of a memory fault keeps what no command may lose. -/
theorem State.keeps_memReport (s : State) (d : DWord) : Keeps s (s.memReport d) := by
  unfold State.memReport
  split
  · refine .of_kept ?_
    split <;> simp
  · refine Keeps.trans (.of_kept ?_) (State.keeps_writeReq _ _)
    exact (State.kept_mk _ _ _ _ _ _ _ _ _ _ _ _ _ _ _ _ _ _ _ _ rfl rfl rfl rfl rfl rfl).trans (State.kept_olvia _ _)

/-- MEM_FAULT keeps the queue, the invariant and every peat record outside the block. -/
theorem keeps_execMemFault (area : RecArea) (block : Nat) (verify : Bool) (readable : List Nat) (s : State) :
    ∃ t, execMemFault area block verify readable s = .next t ∧ t.pending = s.pending ∧ (s.Inv → t.Inv) ∧
      ∀ e ∈ s.recorder.peat, (area = .peat → s.recorder.peatBlock block ≠ some (e.1 / 128)) → e ∈ t.recorder.peat := by
  unfold execMemFault
  extract_lets d again l s1 s2 s3 s4 s5
  have h1 : s1.kept = s.kept := (State.kept_setEventIf ..).trans (by simp [Recorder.markBad])
  have f := Recorder.annexPut_facts s1.recorder (s1.recordOf (s1.memReq d))
  have h3 : s3.kept = s2.kept := by simp only [s3]; simp
  have n2 : s2.pending = s.pending := show s1.pending = s.pending from State.kept_pending h1
  have p2 : s3.recorder.peat = s.recorder.peat := (State.kept_peat h3).trans (f.2.1.trans (State.kept_peat h1))
  have b2 : s3.recorder.peatBlock block = s.recorder.peatBlock block := by
    unfold Recorder.peatBlock; rw [State.kept_spares h3, show s2.recorder.spares = _ from f.2.2, State.kept_spares h1]
  have i3 : s.Inv → s3.Inv := fun h => by
    have i := (Keeps.of_kept h1).inv h
    exact (Keeps.of_kept h3).inv ⟨i.1, f.1 i.2⟩
  have n3 : s3.pending = s.pending := (State.kept_pending h3).trans n2
  have h4 : s4.pending = s3.pending ∧ (s3.Inv → s4.Inv) ∧
      ∀ e ∈ s3.recorder.peat, (area = .peat → s3.recorder.peatBlock block ≠ some (e.1 / 128)) → e ∈ s4.recorder.peat := by
    simp only [s4]
    split
    · rename_i c
      exact ⟨rfl, fun h => ⟨h.1, by simpa using h.2⟩, fun e m hb => Recorder.peat_peatSpare _ _ _ _ m (hb c.1)⟩
    · exact ⟨rfl, id, fun e m _ => m⟩
  have k5 : Keeps s4 s5 := by
    simp only [s5]
    refine Keeps.trans (.of_kept ?_) (State.keeps_memReport _ _)
    split <;> simp
  clear_value s5 s4 s3 s1 again
  have fin : s5.pending = s.pending ∧ (s.Inv → s5.Inv) ∧
      ∀ e ∈ s.recorder.peat, (area = .peat → s.recorder.peatBlock block ≠ some (e.1 / 128)) → e ∈ s5.recorder.peat :=
    ⟨k5.pending.trans (h4.1.trans n3), fun h => k5.inv (h4.2.1 (i3 h)),
      fun e m hb => k5.peat e (h4.2.2 e (p2 ▸ m) (fun x => b2 ▸ hb x))⟩
  split
  · split
    · exact ⟨_, rfl, fin⟩
    · exact ⟨_, rfl, fin.1, fin.2.1, fin.2.2⟩
  · exact ⟨_, rfl, fin⟩

end Sys2Proof.Machine
end

