-- ==== Sys2Proof/Laws/Bare.lean ====
section
/-! SUPPORT. Laws/Bare.lean: what the shared operations move: a report moves nothing of the bare state, the completion of a
command nothing of its core; an EVENT bit once set stays set through them. -/
set_option Elab.async false
set_option maxRecDepth 4000
namespace Sys2Proof.Machine

/-! The host block and the recorder. -/

@[simp] theorem HostBlk.bare_emit (h : HostBlk) (o : HostOut) : (h.emit o).bare = h.bare := by
  unfold HostBlk.emit; split <;> rfl
@[simp] theorem HostBlk.bare_interrupt (h : HostBlk) (v : Nat) : (h.interrupt v).bare = h.bare := by
  unfold HostBlk.interrupt; repeat' split
  all_goals rfl
@[simp] theorem OutRing.bare_advance (q : OutRing) : q.advance.bare = q.bare := by
  unfold OutRing.advance; split <;> rfl
@[simp] theorem OutRing.bare_due (q : OutRing) : q.due.1.bare = q.bare := by
  unfold OutRing.due; split <;> rfl
@[simp] theorem OutRing.bare_pend (q : OutRing) (now : Nat) : (q.pend now).1.bare = q.bare := by
  unfold OutRing.pend; split
  · rfl
  · rw [OutRing.bare_due]; rfl
theorem HostBlk.bare_mk_eq (h : HostBlk) (q : OutRing) : ({ h with eq := q } : HostBlk).bare = { h.bare with eq := q.bare } := rfl
@[simp] theorem HostBlk.bare_eq_bare (h : HostBlk) : { h.bare with eq := h.eq.bare } = h.bare := rfl
@[simp] theorem HostBlk.bare_eqPut (h : HostBlk) (e : EventEntry) : (h.eqPut e).bare = h.bare := by
  unfold HostBlk.eqPut; dsimp only; split <;> simp [HostBlk.bare_mk_eq]
theorem HostBlk.core_of_bare {h g : HostBlk} (e : g.bare = h.bare) : g.core = h.core := by unfold HostBlk.core; rw [e]
@[simp] theorem HostBlk.core_emit (h : HostBlk) (o : HostOut) : (h.emit o).core = h.core := HostBlk.core_of_bare (by simp)
@[simp] theorem HostBlk.core_interrupt (h : HostBlk) (v : Nat) : (h.interrupt v).core = h.core := HostBlk.core_of_bare (by simp)
@[simp] theorem HostBlk.core_setCq (h : HostBlk) (n : Nat) (q : OutRing) : (h.setCq n q).core = h.core := by cases h; rfl
@[simp] theorem HostBlk.core_taken (h : HostBlk) (l : List Taken) : ({ h with taken := l } : HostBlk).core = h.core := rfl
@[simp] theorem HostBlk.core_cqPut (h : HostBlk) (cq : Nat) (c : Completion) : (h.cqPut cq c).core = h.core := by
  unfold HostBlk.cqPut; dsimp only; split
  · rfl
  · split <;> simp
@[simp] theorem Recorder.bare_countRefusal (r : Recorder) (n : Nat) : (r.countRefusal n).bare = r.bare := by cases r; rfl
@[simp] theorem Recorder.bare_obtain (r : Recorder) (q : RecReq) : (r.obtain q).bare = r.bare := by cases r; rfl
@[simp] theorem Recorder.bare_fired (r : Recorder) (now n : Nat) : (r.fired now n).bare = r.bare := by cases r; rfl

/-! The bare state. -/

@[simp] theorem State.bare_event (s : State) (e : Tbl Word) : ({ s with event := e } : State).bare = s.bare := rfl
@[simp] theorem State.bare_rawEvent (s : State) (b : Block) (n : Nat) : (s.rawEvent b n).bare = s.bare := rfl
theorem State.bare_host (s : State) {h : HostBlk} (e : h.bare = s.host.bare) : ({ s with host := h } : State).bare = s.bare := by
  simp [State.bare, e]
theorem State.bare_recorder (s : State) {r : Recorder} (e : r.bare = s.recorder.bare) : ({ s with recorder := r } : State).bare = s.bare := by
  simp [State.bare, e]
@[simp] theorem State.bare_mntEvent (s : State) (e : EventEntry) : (s.mntEvent e).bare = s.bare := by
  unfold State.mntEvent; repeat' split
  all_goals rfl
@[simp] theorem State.bare_eventPut (s : State) (e : EventEntry) : (s.eventPut e).1.bare = s.bare := by
  have hq : ∀ (h : HostBlk) (q : OutRing), q.bare = h.eq.bare → ({ h with eq := q } : HostBlk).bare = h.bare := fun h q e => by
    rw [HostBlk.bare_mk_eq, e]; rfl
  unfold State.eventPut; dsimp only
  split
  · rfl
  · split
    · exact s.bare_host (hq _ _ rfl)
    · split
      · rw [State.bare_mntEvent]; exact s.bare_host (by simp)
      · have h1 : ∀ l, (State.mntEvent { s with host := ({ s.host with eq := { s.host.eq with dropped := 0 } } : HostBlk).eqPut l } l).bare = s.bare := by
          intro l
          rw [State.bare_mntEvent]
          exact s.bare_host ((HostBlk.bare_eqPut _ _).trans (hq _ _ rfl))
        split
        · exact (State.bare_host _ (hq _ _ rfl)).trans (h1 _)
        · rw [State.bare_mntEvent]
          exact (State.bare_host _ (by simp)).trans (h1 _)
@[simp] theorem State.bare_entryNow (s : State) (e : EventEntry) : (s.entryNow e).1.bare = s.bare := (State.bare_eventPut _ _).trans rfl
@[simp] theorem State.bare_ownEvent (s : State) (b : Block) (n : Nat) (e : Bool) : (s.ownEvent b n e).1.bare = s.bare := by
  cases e <;> simp [State.ownEvent]
@[simp] theorem State.bare_capture (s : State) (n : Nat) (k : DWord) (o : Origin) : (s.capture n k o).1.bare = s.bare := by
  unfold State.capture; dsimp only
  split
  · rfl
  · split
    · exact s.bare_recorder (by simp)
    · split
      · exact s.bare_recorder ((Recorder.bare_fired _ s.nowNs n).symm ▸ rfl)
      · exact s.bare_recorder (by simp)
@[simp] theorem State.bare_setEventN (k : Nat) (s : State) (b : Block) (bit : Nat) (entry : Bool) :
    (State.setEventN k s b bit entry).bare = s.bare := by
  induction k generalizing s b bit entry with
  | zero => unfold State.setEventN; dsimp only; split <;> simp
  | succ k ih =>
    unfold State.setEventN; dsimp only
    have hf : ∀ (f : State → Nat → State), (∀ s n, (f s n).bare = s.bare) → ∀ (l : List Nat) (s : State), (l.foldl f s).bare = s.bare := by
      intro f hf l
      induction l with
      | nil => intro s; rfl
      | cons a l ih => intro s; exact (ih _).trans (hf s a)
    split <;> (try rw [ih]) <;> (rw [hf]; · simp) <;>
    · intro s n
      have h := State.bare_capture s n s.refCycle .self
      generalize s.capture n s.refCycle .self = c at h
      obtain ⟨s', c⟩ := c
      cases c <;> first | exact h | exact (ih _ _ _ _).trans h
@[simp] theorem State.bare_eventEntry (s : State) (e : EventEntry) : (s.eventEntry e).bare = s.bare := by
  unfold State.eventEntry; dsimp only; split <;> simp
@[simp] theorem State.bare_setEvent (s : State) (b : Block) (n : Nat) : (s.setEvent b n).bare = s.bare := by simp [State.setEvent]
@[simp] theorem State.bare_setEventIf (s : State) (c : Bool) (b : Block) (n : Nat) : (s.setEventIf c b n).bare = s.bare := by
  unfold State.setEventIf; split <;> simp
@[simp] theorem State.bare_request (s : State) (q : RecReq) : (s.request q).1.bare = s.bare := by
  unfold State.request; repeat' split
  · rfl
  · exact (State.bare_setEvent _ _ _).trans (s.bare_recorder (by simp))
  · exact s.bare_recorder (by simp)
@[simp] theorem State.bare_note (s : State) (src code : Nat) (d : DWord) : (s.note src code d).bare = s.bare := by simp [State.note]
@[simp] theorem State.bare_eventRecord (s : State) (e : Bool) (b : Block) (n obj : Nat) (w : Word) : (s.eventRecord e b n obj w).bare = s.bare := by
  unfold State.eventRecord; dsimp only; repeat' split
  all_goals simp
@[simp] theorem State.bare_report (s : State) (b : Block) (n obj : Nat) (w : Word) : (s.report b n obj w).bare = s.bare := by simp [State.report]
@[simp] theorem State.bare_recordEvent (s : State) (b : Block) (n obj : Nat) (w : Word) : (s.recordEvent b n obj w).bare = s.bare := by
  simp [State.recordEvent]
@[simp] theorem State.bare_reportIf (s : State) (c : Bool) (b : Block) (n obj : Nat) (w : Word) : (s.reportIf c b n obj w).bare = s.bare := by
  unfold State.reportIf; split <;> simp

/-! The state without some parts. -/

theorem State.sans_of_bare {s t : State} (h : t.bare = s.bare) (l : List Part) : t.sans l = s.sans l := by
  have e : ∀ u : State, u.sans l = u.bare.sans l := fun _ => rfl
  rw [e, e s, h]
/-- What agrees without some parts agrees without more. -/
theorem State.sans_mono {s t : State} {l m : List Part} (h : t.sans l = s.sans l) (k : ∀ p ∈ l, p ∈ m) : t.sans m = s.sans m := by
  have e : ∀ u : State, u.sans m = (u.sans l).sans m := by
    intro u
    have c : ∀ (p : Part) {α : Type} (x y : α), (if p ∈ m then x else if p ∈ l then x else y) = if p ∈ m then x else y := by
      intro p α x y
      by_cases hp : p ∈ m
      · simp [hp]
      · have hl : p ∉ l := fun h => hp (k p h)
        simp [hp, hl]
    unfold State.sans
    simp only [State.mk.injEq, c, true_and, and_true]
    refine ⟨?_, ?_, ?_⟩
    · by_cases h1 : Part.mnt ∈ m
      · simp [h1]
      · have h2 : Part.mnt ∉ l := fun h => h1 (k _ h)
        by_cases h3 : Part.done ∈ m
        · by_cases h4 : Part.done ∈ l <;> simp only [h1, h2, h3, h4, if_true, if_false] <;> rfl
        · have h4 : Part.done ∉ l := fun h => h3 (k _ h)
          simp only [h1, h2, h3, h4, if_false]; rfl
    · by_cases h1 : Part.recorder ∈ m
      · simp [h1]
      · have h2 : Part.recorder ∉ l := fun h => h1 (k _ h)
        simp only [h1, h2, if_false]; rfl
    · by_cases h1 : Part.host ∈ m
      · simp [h1]
      · have h2 : Part.host ∉ l := fun h => h1 (k _ h)
        by_cases h3 : Part.done ∈ m
        · by_cases h4 : Part.done ∈ l <;> simp only [h1, h2, h3, h4, if_true, if_false] <;> rfl
        · have h4 : Part.done ∉ l := fun h => h3 (k _ h)
          simp only [h1, h2, h3, h4, if_false]; rfl
  rw [e, e s, h]
section
variable (l : List Part)
@[simp] theorem State.sans_setEvent (s : State) (b : Block) (n : Nat) : (s.setEvent b n).sans l = s.sans l := State.sans_of_bare (by simp) l
@[simp] theorem State.sans_setEventIf (s : State) (c : Bool) (b : Block) (n : Nat) : (s.setEventIf c b n).sans l = s.sans l :=
  State.sans_of_bare (by simp) l
@[simp] theorem State.sans_setEventN (k : Nat) (s : State) (b : Block) (n : Nat) (e : Bool) : (State.setEventN k s b n e).sans l = s.sans l :=
  State.sans_of_bare (by simp) l
@[simp] theorem State.sans_eventEntry (s : State) (e : EventEntry) : (s.eventEntry e).sans l = s.sans l := State.sans_of_bare (by simp) l
@[simp] theorem State.sans_note (s : State) (src code : Nat) (d : DWord) : (s.note src code d).sans l = s.sans l := State.sans_of_bare (by simp) l
@[simp] theorem State.sans_report (s : State) (b : Block) (n obj : Nat) (w : Word) : (s.report b n obj w).sans l = s.sans l :=
  State.sans_of_bare (by simp) l
@[simp] theorem State.sans_reportIf (s : State) (c : Bool) (b : Block) (n obj : Nat) (w : Word) : (s.reportIf c b n obj w).sans l = s.sans l :=
  State.sans_of_bare (by simp) l
@[simp] theorem State.sans_recordEvent (s : State) (b : Block) (n obj : Nat) (w : Word) : (s.recordEvent b n obj w).sans l = s.sans l :=
  State.sans_of_bare (by simp) l
@[simp] theorem State.sans_capture (s : State) (n : Nat) (k : DWord) (o : Origin) : (s.capture n k o).1.sans l = s.sans l :=
  State.sans_of_bare (by simp) l
@[simp] theorem State.sans_request (s : State) (q : RecReq) : (s.request q).1.sans l = s.sans l := State.sans_of_bare (by simp) l
end
theorem State.sans_completeHost (l : List Part) (hl : .done ∈ l) (s : State) (sq : Nat) (tag : Word) (status detail : Nat) (cycle : DWord)
    (result : List Byte) : (s.completeHost sq tag status detail cycle result).sans l = s.sans l := by
  unfold State.completeHost; dsimp only; split
  · rfl
  split
  · rfl
  · simp only [State.sans, hl, if_true, HostBlk.core_cqPut, HostBlk.core_taken]
theorem State.sans_completeMnt (l : List Part) (hl : .done ∈ l) (s : State) (tag : Word) (status detail : Nat) (cycle : DWord)
    (result : List Byte) : (s.completeMnt tag status detail cycle result).sans l = s.sans l := by
  unfold State.completeMnt; dsimp only; split
  · rfl
  · simp only [State.sans, hl, if_true]; rfl
theorem State.sans_complete (l : List Part) (hl : .done ∈ l) (s : State) (o : Origin) (status detail : Nat) (cycle : DWord) (result : List Byte) :
    (s.complete o status detail cycle result).sans l = s.sans l := by
  unfold State.complete; split
  · exact State.sans_completeHost l hl ..
  · exact State.sans_completeMnt l hl ..
  · rfl
  · rfl
theorem State.sans_finish (l : List Part) (hl : .done ∈ l) (s : State) (o : Origin) (status detail : Nat) :
    (s.finish o status detail).sans l = s.sans l := State.sans_complete l hl ..
theorem State.sans_passed (l : List Part) (hl : .done ∈ l) (s : State) (o : Origin) : (s.passed o).sans l = s.sans l := by
  unfold State.passed; split
  · simp only [State.sans, hl, if_true, HostBlk.core_taken]
  · simp only [State.sans, hl, if_true, MntBlk.core]
  · rfl

/-! EVENT bits. -/

theorem Bits.bit_setBit (w : Word) (i j : Nat) (h : j < 32) : Bits.bit (Bits.setBit w i) j = (Bits.bit w j || j == i) := by
  unfold Bits.bit Bits.setBit
  rw [BitVec.getLsbD_or]
  congr 1
  rw [BitVec.getLsbD_shiftLeft]
  by_cases hji : j = i
  · subst hji; simp [h]
  · by_cases hl : j < i
    · simp [h, hl, hji]
    · have : j - i ≠ 0 := by omega
      simp [h, hl, hji, BitVec.getLsbD_one, this]

theorem Block.code_inj (a b : Block) : a.code = b.code ↔ a = b := by
  constructor
  · cases a <;> cases b <;> first | (intro; rfl) | (intro h; exact absurd h (by decide))
  · rintro rfl; rfl

/-- The EVENT bits after one bit is set. -/
theorem State.raised_rawEvent (s : State) (b c : Block) (n m : Nat) (h : m < 32) :
    (s.rawEvent b n).raised c m = (s.raised c m || (c == b && m == n)) := by
  unfold State.raised State.eventReg State.rawEvent State.eventReg
  dsimp only
  rw [Tbl.get_set]
  by_cases hc : c = b
  · subst hc; simp [Bits.bit_setBit _ _ _ h]
  · simp [Block.code_inj, hc]

theorem State.raised_lt {s : State} {b : Block} {n : Nat} (h : s.raised b n = true) : n < 32 := by
  unfold State.raised Bits.bit at h
  exact BitVec.lt_of_getLsbD h

theorem State.Raises.refl (s : State) : s.Raises s [] := ⟨fun _ _ h => h, by simp, fun _ _ h => Or.inl h⟩
theorem State.Raises.of_event {s t : State} (h : t.event = s.event) : s.Raises t [] := by
  have e : ∀ b n, t.raised b n = s.raised b n := fun b n => by unfold State.raised State.eventReg; rw [h]
  exact ⟨fun b n r => (e b n).trans r, by simp, fun b n r => Or.inl ((e b n).symm.trans r)⟩
theorem State.Raises.trans {s t u : State} {l m : List (Block × Nat)} (a : s.Raises t l) (b : t.Raises u m) : s.Raises u (l ++ m) := by
  refine ⟨fun c n h => b.1 c n (a.1 c n h), fun e h => ?_, fun c n h => ?_⟩
  · rcases List.mem_append.mp h with h | h
    · exact b.1 _ _ (a.2.1 e h)
    · exact b.2.1 e h
  · rcases b.2.2 c n h with h | h | h
    · rcases a.2.2 c n h with h | h | h
      · exact Or.inl h
      · exact Or.inr (Or.inl (List.mem_append.mpr (Or.inl h)))
      · exact Or.inr (Or.inr h)
    · exact Or.inr (Or.inl (List.mem_append.mpr (Or.inr h)))
    · exact Or.inr (Or.inr h)
/-- Only which bits the list holds matters, and those of reports need not be in it. -/
theorem State.Raises.congr {s t : State} {l m : List (Block × Nat)} (a : s.Raises t l) (h : ∀ e, e ∈ l ↔ e ∈ m) : s.Raises t m :=
  ⟨a.1, fun e k => a.2.1 e ((h e).mpr k), fun b n k => (a.2.2 b n k).imp_right (Or.imp_left (h _).mp)⟩
/-- Bits of reports may be left out of the list. -/
theorem State.Raises.drop {s t : State} {l m : List (Block × Nat)} (a : s.Raises t l) (h : ∀ e ∈ m, e ∈ l)
    (k : ∀ e ∈ l, e ∈ m ∨ e ∈ reportBits) : s.Raises t m := by
  refine ⟨a.1, fun e j => a.2.1 e (h e j), fun b n j => ?_⟩
  rcases a.2.2 b n j with j | j | j
  · exact Or.inl j
  · exact Or.inr (k _ j)
  · exact Or.inr (Or.inr j)

theorem State.raises_rawEvent (s : State) (b : Block) (n : Nat) (h : n < 32) : s.Raises (s.rawEvent b n) [(b, n)] := by
  refine ⟨fun c m r => ?_, fun e m => ?_, fun c m r => ?_⟩
  · rw [State.raised_rawEvent _ _ _ _ _ (State.raised_lt r), r]; rfl
  · rw [List.mem_singleton] at m; subst m
    rw [State.raised_rawEvent _ _ _ _ _ h]; simp
  · rw [State.raised_rawEvent _ _ _ _ _ (State.raised_lt r)] at r
    rcases Bool.or_eq_true .. |>.mp r with r | r
    · exact Or.inl r
    · refine Or.inr (Or.inl ?_)
      simp only [Bool.and_eq_true, beq_iff_eq] at r
      simp [r.1, r.2]
@[simp] theorem State.event_mntEvent (s : State) (e : EventEntry) : (s.mntEvent e).event = s.event := by
  unfold State.mntEvent; repeat' split
  all_goals rfl
@[simp] theorem State.event_eventPut (s : State) (e : EventEntry) : (s.eventPut e).1.event = s.event := by
  unfold State.eventPut; dsimp only; repeat' split
  all_goals simp
@[simp] theorem State.event_entryNow (s : State) (e : EventEntry) : (s.entryNow e).1.event = s.event := by simp [State.entryNow]
theorem State.raises_ownEvent (s : State) (b : Block) (n : Nat) (e : Bool) (h : n < 32) : s.Raises (s.ownEvent b n e).1 [(b, n)] := by
  cases e
  · exact s.raises_rawEvent b n h
  · exact (s.raises_rawEvent b n h).trans (m := []) (.of_event (State.event_entryNow _ _))
@[simp] theorem State.event_capture (s : State) (n : Nat) (k : DWord) (o : Origin) : (s.capture n k o).1.event = s.event := by
  unfold State.capture; dsimp only; repeat' split
  all_goals rfl
theorem State.raises_foldl {α : Type} (f : State → α → State) (h : ∀ (s : State) (a : α), s.Raises (f s a) []) (l : List α) (s : State) :
    s.Raises (l.foldl f s) [] := by
  induction l generalizing s with
  | nil => exact .refl s
  | cons a l ih => exact (h s a).trans (ih _)
/-- EQ_OVERFLOW is a bit that any report may set. -/
theorem State.Raises.host {s t u : State} {l : List (Block × Nat)} (a : s.Raises t l) (c : t.Raises u [(.host, 3)]) : s.Raises u l :=
  (a.trans c).drop (fun e h => List.mem_append.mpr (Or.inl h)) (fun e h => (List.mem_append.mp h).imp_right (fun h => by simp_all [reportBits]))
theorem State.raises_setEventN (k : Nat) (s : State) (b : Block) (n : Nat) (e : Bool) (hn : n < 32) :
    s.Raises (State.setEventN k s b n e) [(b, n)] := by
  induction k generalizing s b n e with
  | zero =>
    unfold State.setEventN; dsimp only; split
    · exact (s.raises_ownEvent b n e hn).host (State.raises_rawEvent _ _ _ (by decide))
    · exact s.raises_ownEvent b n e hn
  | succ k ih =>
    unfold State.setEventN
    extract_lets r s2
    have own : s.Raises s2 [(b, n)] := by
      refine (s.raises_ownEvent b n e hn).trans (State.raises_foldl _ (fun s i => ?_) _ _)
      have h : s.Raises (s.capture i s.refCycle .self).1 [] := .of_event (by simp)
      generalize s.capture i s.refCycle .self = c at h
      obtain ⟨t, c⟩ := c
      cases c
      · exact h
      · exact (h.trans (ih _ _ 3 _ (by decide))).drop (by simp) (by simp [reportBits])
      · exact (h.trans (ih _ _ 5 _ (by decide))).drop (by simp) (by simp [reportBits])
      · exact h
    clear_value s2
    split
    · exact own.host (ih _ _ 3 _ (by decide))
    · exact own
theorem State.raises_eventEntry (s : State) (e : EventEntry) : s.Raises (s.eventEntry e) [] := by
  unfold State.eventEntry; dsimp only; split
  · exact State.Raises.host (.of_event (by simp)) (State.raises_setEventN _ _ _ _ _ (by decide))
  · exact .of_event (by simp)
theorem State.raises_setEvent (s : State) (b : Block) (n : Nat) (h : n < 32) : s.Raises (s.setEvent b n) [(b, n)] :=
  State.raises_setEventN _ _ _ _ _ h
theorem State.raises_setEventIf (s : State) (c : Bool) (b : Block) (n : Nat) (h : n < 32) :
    s.Raises (s.setEventIf c b n) (if c then [(b, n)] else []) := by
  unfold State.setEventIf; split
  · exact s.raises_setEvent b n h
  · exact .refl s
theorem State.raises_request (s : State) (q : RecReq) : s.Raises (s.request q).1 [] := by
  unfold State.request
  split
  · exact .refl s
  · split
    · exact (State.Raises.trans (t := { s with recorder := s.recorder.countRefusal q.source }) (.of_event rfl)
        (State.raises_setEvent _ _ 3 (by decide))).drop (by simp) (by simp [reportBits])
    · exact State.Raises.of_event (t := { s with recorder := s.recorder.obtain q }) rfl
theorem State.raises_note (s : State) (src code : Nat) (d : DWord) : s.Raises (s.note src code d) [] := s.raises_request _
theorem State.raises_eventRecord (s : State) (e : Bool) (b : Block) (n obj : Nat) (w : Word) (h : n < 32) :
    s.Raises (s.eventRecord e b n obj w) [(b, n)] := by
  unfold State.eventRecord
  extract_lets s1 d r
  refine (State.raises_setEventN 3 s b n false h).trans (m := []) ((State.raises_request s1 _).trans (t := r.1) (m := []) ?_)
  split
  · exact .refl _
  · split
    · exact State.raises_eventEntry _ _
    · exact .refl _
theorem State.raises_report (s : State) (b : Block) (n obj : Nat) (w : Word) (h : n < 32) : s.Raises (s.report b n obj w) [(b, n)] :=
  s.raises_eventRecord _ _ _ _ _ h
theorem State.raises_reportIf (s : State) (c : Bool) (b : Block) (n obj : Nat) (w : Word) (h : n < 32) :
    s.Raises (s.reportIf c b n obj w) (if c then [(b, n)] else []) := by
  unfold State.reportIf; split
  · exact s.raises_report b n obj w h
  · exact .refl s
theorem State.raises_recordEvent (s : State) (b : Block) (n obj : Nat) (w : Word) (h : n < 32) : s.Raises (s.recordEvent b n obj w) [(b, n)] :=
  s.raises_eventRecord _ _ _ _ _ h
/-- What an operation sets is set, and stays set. -/
theorem State.Raises.raised {s t : State} {b : Block} {n : Nat} (h : s.Raises t [(b, n)]) : t.raised b n = true := h.2.1 (b, n) (by simp)
theorem State.raised_setEvent (s : State) (b : Block) (n : Nat) (h : n < 32) : (s.setEvent b n).raised b n = true :=
  (s.raises_setEvent b n h).raised
theorem State.raised_report (s : State) (b : Block) (n obj : Nat) (w : Word) (h : n < 32) : (s.report b n obj w).raised b n = true :=
  (s.raises_report b n obj w h).raised
theorem State.raised_recordEvent (s : State) (b : Block) (n obj : Nat) (w : Word) (h : n < 32) : (s.recordEvent b n obj w).raised b n = true :=
  (s.raises_recordEvent b n obj w h).raised

/-! At most some EVENT bits. -/

theorem State.Raises.may {s t : State} {l m : List (Block × Nat)} (h : s.Raises t l) (k : ∀ e ∈ l, e ∈ m ∨ e ∈ reportBits) : s.MayRaise t m :=
  ⟨h.1, fun b n r => (h.2.2 b n r).imp_right (fun h => h.elim (fun h => k _ h) Or.inr)⟩
theorem State.MayRaise.trans {s t u : State} {l : List (Block × Nat)} (a : s.MayRaise t l) (b : t.MayRaise u l) : s.MayRaise u l :=
  ⟨fun c n h => b.1 c n (a.1 c n h), fun c n h => (b.2 c n h).elim (fun h => a.2 c n h) Or.inr⟩
theorem State.MayRaise.mono {s t : State} {l m : List (Block × Nat)} (a : s.MayRaise t l) (h : ∀ e ∈ l, e ∈ m ∨ e ∈ reportBits) : s.MayRaise t m :=
  ⟨a.1, fun b n r => (a.2 b n r).imp_right (fun k => k.elim (fun k => h _ k) Or.inr)⟩
theorem State.MayRaise.refl (s : State) (l : List (Block × Nat)) : s.MayRaise s l := ⟨fun _ _ h => h, fun _ _ h => Or.inl h⟩
theorem State.MayRaise.of_event {s t : State} (h : t.event = s.event) (l : List (Block × Nat)) : s.MayRaise t l :=
  (State.Raises.of_event h).may (by simp)
theorem State.MayRaise.foldl {α : Type} {m : List (Block × Nat)} (f : State → α → State) (h : ∀ (s : State) (a : α), s.MayRaise (f s a) m)
    (l : List α) (s : State) : s.MayRaise (l.foldl f s) m := by
  induction l generalizing s with
  | nil => exact .refl s m
  | cons a l ih => exact (h s a).trans (ih _)

@[simp] theorem State.event_complete (s : State) (o : Origin) (status detail : Nat) (cycle : DWord) (result : List Byte) :
    (s.complete o status detail cycle result).event = s.event := by
  unfold State.complete
  split
  · unfold State.completeHost; dsimp only; (repeat' split) <;> rfl
  · unfold State.completeMnt; dsimp only; split <;> rfl
  · rfl
  · rfl
@[simp] theorem State.event_finish (s : State) (o : Origin) (status detail : Nat) : (s.finish o status detail).event = s.event := by
  simp [State.finish]
@[simp] theorem State.event_passed (s : State) (o : Origin) : (s.passed o).event = s.event := by
  unfold State.passed; split <;> rfl

end Sys2Proof.Machine
end

