-- ==== Sys2Proof/Laws/State.lean ====
section
/-! SUPPORT. Laws/State.lean: each field of the state after each shared operation that does not touch it. -/
set_option Elab.async false
namespace Sys2Proof.Machine

/-- The fields that no report touches can be read off the bare state. -/
theorem State.field_of_bare {α : Type} (f : State → α) (h : ∀ s : State, f s.bare = f s) {s t : State} (e : t.bare = s.bare) : f t = f s := by
  rw [← h t, e, h s]
/-- And off the state without what completions move. -/
theorem State.field_of_done {α : Type} (f : State → α) (h : ∀ s : State, f (s.sans [.done]) = f s) {s t : State}
    (e : t.sans [.done] = s.sans [.done]) : f t = f s := by
  rw [← h t, e, h s]

@[simp] theorem State.eventEn_setEventN (k : Nat) (s : State) (b : Block) (n : Nat) (e : Bool) : (State.setEventN k s b n e).eventEn = s.eventEn :=
  State.field_of_bare State.eventEn (fun _ => rfl) (State.bare_setEventN k s b n e)
@[simp] theorem State.mod_setEventN (k : Nat) (s : State) (b : Block) (n : Nat) (e : Bool) : (State.setEventN k s b n e).mod = s.mod :=
  State.field_of_bare State.mod (fun _ => rfl) (State.bare_setEventN k s b n e)
@[simp] theorem State.time_setEventN (k : Nat) (s : State) (b : Block) (n : Nat) (e : Bool) : (State.setEventN k s b n e).time = s.time :=
  State.field_of_bare State.time (fun _ => rfl) (State.bare_setEventN k s b n e)
@[simp] theorem State.dio_setEventN (k : Nat) (s : State) (b : Block) (n : Nat) (e : Bool) : (State.setEventN k s b n e).dio = s.dio :=
  State.field_of_bare State.dio (fun _ => rfl) (State.bare_setEventN k s b n e)
@[simp] theorem State.aio_setEventN (k : Nat) (s : State) (b : Block) (n : Nat) (e : Bool) : (State.setEventN k s b n e).aio = s.aio :=
  State.field_of_bare State.aio (fun _ => rfl) (State.bare_setEventN k s b n e)
@[simp] theorem State.safe_setEventN (k : Nat) (s : State) (b : Block) (n : Nat) (e : Bool) : (State.setEventN k s b n e).safe = s.safe :=
  State.field_of_bare State.safe (fun _ => rfl) (State.bare_setEventN k s b n e)
@[simp] theorem State.ax_setEventN (k : Nat) (s : State) (b : Block) (n : Nat) (e : Bool) : (State.setEventN k s b n e).ax = s.ax :=
  State.field_of_bare State.ax (fun _ => rfl) (State.bare_setEventN k s b n e)
@[simp] theorem State.pnl_setEventN (k : Nat) (s : State) (b : Block) (n : Nat) (e : Bool) : (State.setEventN k s b n e).pnl = s.pnl :=
  State.field_of_bare State.pnl (fun _ => rfl) (State.bare_setEventN k s b n e)
@[simp] theorem State.net_setEventN (k : Nat) (s : State) (b : Block) (n : Nat) (e : Bool) : (State.setEventN k s b n e).net = s.net :=
  State.field_of_bare State.net (fun _ => rfl) (State.bare_setEventN k s b n e)
@[simp] theorem State.cyc_setEventN (k : Nat) (s : State) (b : Block) (n : Nat) (e : Bool) : (State.setEventN k s b n e).cyc = s.cyc :=
  State.field_of_bare State.cyc (fun _ => rfl) (State.bare_setEventN k s b n e)
@[simp] theorem State.fab_setEventN (k : Nat) (s : State) (b : Block) (n : Nat) (e : Bool) : (State.setEventN k s b n e).fab = s.fab :=
  State.field_of_bare State.fab (fun _ => rfl) (State.bare_setEventN k s b n e)
@[simp] theorem State.twin_setEventN (k : Nat) (s : State) (b : Block) (n : Nat) (e : Bool) : (State.setEventN k s b n e).twin = s.twin :=
  State.field_of_bare State.twin (fun _ => rfl) (State.bare_setEventN k s b n e)
@[simp] theorem State.xch_setEventN (k : Nat) (s : State) (b : Block) (n : Nat) (e : Bool) : (State.setEventN k s b n e).xch = s.xch :=
  State.field_of_bare State.xch (fun _ => rfl) (State.bare_setEventN k s b n e)
@[simp] theorem State.cfg_setEventN (k : Nat) (s : State) (b : Block) (n : Nat) (e : Bool) : (State.setEventN k s b n e).cfg = s.cfg :=
  State.field_of_bare State.cfg (fun _ => rfl) (State.bare_setEventN k s b n e)
@[simp] theorem State.pending_setEventN (k : Nat) (s : State) (b : Block) (n : Nat) (e : Bool) : (State.setEventN k s b n e).pending = s.pending :=
  State.field_of_bare State.pending (fun _ => rfl) (State.bare_setEventN k s b n e)
@[simp] theorem State.eventEn_setEvent (s : State) (b : Block) (n : Nat) : (s.setEvent b n).eventEn = s.eventEn :=
  State.field_of_bare State.eventEn (fun _ => rfl) (State.bare_setEvent s b n)
@[simp] theorem State.mod_setEvent (s : State) (b : Block) (n : Nat) : (s.setEvent b n).mod = s.mod :=
  State.field_of_bare State.mod (fun _ => rfl) (State.bare_setEvent s b n)
@[simp] theorem State.time_setEvent (s : State) (b : Block) (n : Nat) : (s.setEvent b n).time = s.time :=
  State.field_of_bare State.time (fun _ => rfl) (State.bare_setEvent s b n)
@[simp] theorem State.dio_setEvent (s : State) (b : Block) (n : Nat) : (s.setEvent b n).dio = s.dio :=
  State.field_of_bare State.dio (fun _ => rfl) (State.bare_setEvent s b n)
@[simp] theorem State.aio_setEvent (s : State) (b : Block) (n : Nat) : (s.setEvent b n).aio = s.aio :=
  State.field_of_bare State.aio (fun _ => rfl) (State.bare_setEvent s b n)
@[simp] theorem State.safe_setEvent (s : State) (b : Block) (n : Nat) : (s.setEvent b n).safe = s.safe :=
  State.field_of_bare State.safe (fun _ => rfl) (State.bare_setEvent s b n)
@[simp] theorem State.ax_setEvent (s : State) (b : Block) (n : Nat) : (s.setEvent b n).ax = s.ax :=
  State.field_of_bare State.ax (fun _ => rfl) (State.bare_setEvent s b n)
@[simp] theorem State.pnl_setEvent (s : State) (b : Block) (n : Nat) : (s.setEvent b n).pnl = s.pnl :=
  State.field_of_bare State.pnl (fun _ => rfl) (State.bare_setEvent s b n)
@[simp] theorem State.net_setEvent (s : State) (b : Block) (n : Nat) : (s.setEvent b n).net = s.net :=
  State.field_of_bare State.net (fun _ => rfl) (State.bare_setEvent s b n)
@[simp] theorem State.cyc_setEvent (s : State) (b : Block) (n : Nat) : (s.setEvent b n).cyc = s.cyc :=
  State.field_of_bare State.cyc (fun _ => rfl) (State.bare_setEvent s b n)
@[simp] theorem State.fab_setEvent (s : State) (b : Block) (n : Nat) : (s.setEvent b n).fab = s.fab :=
  State.field_of_bare State.fab (fun _ => rfl) (State.bare_setEvent s b n)
@[simp] theorem State.twin_setEvent (s : State) (b : Block) (n : Nat) : (s.setEvent b n).twin = s.twin :=
  State.field_of_bare State.twin (fun _ => rfl) (State.bare_setEvent s b n)
@[simp] theorem State.xch_setEvent (s : State) (b : Block) (n : Nat) : (s.setEvent b n).xch = s.xch :=
  State.field_of_bare State.xch (fun _ => rfl) (State.bare_setEvent s b n)
@[simp] theorem State.cfg_setEvent (s : State) (b : Block) (n : Nat) : (s.setEvent b n).cfg = s.cfg :=
  State.field_of_bare State.cfg (fun _ => rfl) (State.bare_setEvent s b n)
@[simp] theorem State.pending_setEvent (s : State) (b : Block) (n : Nat) : (s.setEvent b n).pending = s.pending :=
  State.field_of_bare State.pending (fun _ => rfl) (State.bare_setEvent s b n)
@[simp] theorem State.eventEn_setEventIf (s : State) (c : Bool) (b : Block) (n : Nat) : (s.setEventIf c b n).eventEn = s.eventEn :=
  State.field_of_bare State.eventEn (fun _ => rfl) (State.bare_setEventIf s c b n)
@[simp] theorem State.mod_setEventIf (s : State) (c : Bool) (b : Block) (n : Nat) : (s.setEventIf c b n).mod = s.mod :=
  State.field_of_bare State.mod (fun _ => rfl) (State.bare_setEventIf s c b n)
@[simp] theorem State.time_setEventIf (s : State) (c : Bool) (b : Block) (n : Nat) : (s.setEventIf c b n).time = s.time :=
  State.field_of_bare State.time (fun _ => rfl) (State.bare_setEventIf s c b n)
@[simp] theorem State.dio_setEventIf (s : State) (c : Bool) (b : Block) (n : Nat) : (s.setEventIf c b n).dio = s.dio :=
  State.field_of_bare State.dio (fun _ => rfl) (State.bare_setEventIf s c b n)
@[simp] theorem State.aio_setEventIf (s : State) (c : Bool) (b : Block) (n : Nat) : (s.setEventIf c b n).aio = s.aio :=
  State.field_of_bare State.aio (fun _ => rfl) (State.bare_setEventIf s c b n)
@[simp] theorem State.safe_setEventIf (s : State) (c : Bool) (b : Block) (n : Nat) : (s.setEventIf c b n).safe = s.safe :=
  State.field_of_bare State.safe (fun _ => rfl) (State.bare_setEventIf s c b n)
@[simp] theorem State.ax_setEventIf (s : State) (c : Bool) (b : Block) (n : Nat) : (s.setEventIf c b n).ax = s.ax :=
  State.field_of_bare State.ax (fun _ => rfl) (State.bare_setEventIf s c b n)
@[simp] theorem State.pnl_setEventIf (s : State) (c : Bool) (b : Block) (n : Nat) : (s.setEventIf c b n).pnl = s.pnl :=
  State.field_of_bare State.pnl (fun _ => rfl) (State.bare_setEventIf s c b n)
@[simp] theorem State.net_setEventIf (s : State) (c : Bool) (b : Block) (n : Nat) : (s.setEventIf c b n).net = s.net :=
  State.field_of_bare State.net (fun _ => rfl) (State.bare_setEventIf s c b n)
@[simp] theorem State.cyc_setEventIf (s : State) (c : Bool) (b : Block) (n : Nat) : (s.setEventIf c b n).cyc = s.cyc :=
  State.field_of_bare State.cyc (fun _ => rfl) (State.bare_setEventIf s c b n)
@[simp] theorem State.fab_setEventIf (s : State) (c : Bool) (b : Block) (n : Nat) : (s.setEventIf c b n).fab = s.fab :=
  State.field_of_bare State.fab (fun _ => rfl) (State.bare_setEventIf s c b n)
@[simp] theorem State.twin_setEventIf (s : State) (c : Bool) (b : Block) (n : Nat) : (s.setEventIf c b n).twin = s.twin :=
  State.field_of_bare State.twin (fun _ => rfl) (State.bare_setEventIf s c b n)
@[simp] theorem State.xch_setEventIf (s : State) (c : Bool) (b : Block) (n : Nat) : (s.setEventIf c b n).xch = s.xch :=
  State.field_of_bare State.xch (fun _ => rfl) (State.bare_setEventIf s c b n)
@[simp] theorem State.cfg_setEventIf (s : State) (c : Bool) (b : Block) (n : Nat) : (s.setEventIf c b n).cfg = s.cfg :=
  State.field_of_bare State.cfg (fun _ => rfl) (State.bare_setEventIf s c b n)
@[simp] theorem State.pending_setEventIf (s : State) (c : Bool) (b : Block) (n : Nat) : (s.setEventIf c b n).pending = s.pending :=
  State.field_of_bare State.pending (fun _ => rfl) (State.bare_setEventIf s c b n)
@[simp] theorem State.eventEn_note (s : State) (src code : Nat) (d : DWord) : (s.note src code d).eventEn = s.eventEn :=
  State.field_of_bare State.eventEn (fun _ => rfl) (State.bare_note s src code d)
@[simp] theorem State.mod_note (s : State) (src code : Nat) (d : DWord) : (s.note src code d).mod = s.mod :=
  State.field_of_bare State.mod (fun _ => rfl) (State.bare_note s src code d)
@[simp] theorem State.time_note (s : State) (src code : Nat) (d : DWord) : (s.note src code d).time = s.time :=
  State.field_of_bare State.time (fun _ => rfl) (State.bare_note s src code d)
@[simp] theorem State.dio_note (s : State) (src code : Nat) (d : DWord) : (s.note src code d).dio = s.dio :=
  State.field_of_bare State.dio (fun _ => rfl) (State.bare_note s src code d)
@[simp] theorem State.aio_note (s : State) (src code : Nat) (d : DWord) : (s.note src code d).aio = s.aio :=
  State.field_of_bare State.aio (fun _ => rfl) (State.bare_note s src code d)
@[simp] theorem State.safe_note (s : State) (src code : Nat) (d : DWord) : (s.note src code d).safe = s.safe :=
  State.field_of_bare State.safe (fun _ => rfl) (State.bare_note s src code d)
@[simp] theorem State.ax_note (s : State) (src code : Nat) (d : DWord) : (s.note src code d).ax = s.ax :=
  State.field_of_bare State.ax (fun _ => rfl) (State.bare_note s src code d)
@[simp] theorem State.pnl_note (s : State) (src code : Nat) (d : DWord) : (s.note src code d).pnl = s.pnl :=
  State.field_of_bare State.pnl (fun _ => rfl) (State.bare_note s src code d)
@[simp] theorem State.net_note (s : State) (src code : Nat) (d : DWord) : (s.note src code d).net = s.net :=
  State.field_of_bare State.net (fun _ => rfl) (State.bare_note s src code d)
@[simp] theorem State.cyc_note (s : State) (src code : Nat) (d : DWord) : (s.note src code d).cyc = s.cyc :=
  State.field_of_bare State.cyc (fun _ => rfl) (State.bare_note s src code d)
@[simp] theorem State.fab_note (s : State) (src code : Nat) (d : DWord) : (s.note src code d).fab = s.fab :=
  State.field_of_bare State.fab (fun _ => rfl) (State.bare_note s src code d)
@[simp] theorem State.twin_note (s : State) (src code : Nat) (d : DWord) : (s.note src code d).twin = s.twin :=
  State.field_of_bare State.twin (fun _ => rfl) (State.bare_note s src code d)
@[simp] theorem State.xch_note (s : State) (src code : Nat) (d : DWord) : (s.note src code d).xch = s.xch :=
  State.field_of_bare State.xch (fun _ => rfl) (State.bare_note s src code d)
@[simp] theorem State.cfg_note (s : State) (src code : Nat) (d : DWord) : (s.note src code d).cfg = s.cfg :=
  State.field_of_bare State.cfg (fun _ => rfl) (State.bare_note s src code d)
@[simp] theorem State.pending_note (s : State) (src code : Nat) (d : DWord) : (s.note src code d).pending = s.pending :=
  State.field_of_bare State.pending (fun _ => rfl) (State.bare_note s src code d)
@[simp] theorem State.eventEn_report (s : State) (b : Block) (n obj : Nat) (w : Word) : (s.report b n obj w).eventEn = s.eventEn :=
  State.field_of_bare State.eventEn (fun _ => rfl) (State.bare_report s b n obj w)
@[simp] theorem State.mod_report (s : State) (b : Block) (n obj : Nat) (w : Word) : (s.report b n obj w).mod = s.mod :=
  State.field_of_bare State.mod (fun _ => rfl) (State.bare_report s b n obj w)
@[simp] theorem State.time_report (s : State) (b : Block) (n obj : Nat) (w : Word) : (s.report b n obj w).time = s.time :=
  State.field_of_bare State.time (fun _ => rfl) (State.bare_report s b n obj w)
@[simp] theorem State.dio_report (s : State) (b : Block) (n obj : Nat) (w : Word) : (s.report b n obj w).dio = s.dio :=
  State.field_of_bare State.dio (fun _ => rfl) (State.bare_report s b n obj w)
@[simp] theorem State.aio_report (s : State) (b : Block) (n obj : Nat) (w : Word) : (s.report b n obj w).aio = s.aio :=
  State.field_of_bare State.aio (fun _ => rfl) (State.bare_report s b n obj w)
@[simp] theorem State.safe_report (s : State) (b : Block) (n obj : Nat) (w : Word) : (s.report b n obj w).safe = s.safe :=
  State.field_of_bare State.safe (fun _ => rfl) (State.bare_report s b n obj w)
@[simp] theorem State.ax_report (s : State) (b : Block) (n obj : Nat) (w : Word) : (s.report b n obj w).ax = s.ax :=
  State.field_of_bare State.ax (fun _ => rfl) (State.bare_report s b n obj w)
@[simp] theorem State.pnl_report (s : State) (b : Block) (n obj : Nat) (w : Word) : (s.report b n obj w).pnl = s.pnl :=
  State.field_of_bare State.pnl (fun _ => rfl) (State.bare_report s b n obj w)
@[simp] theorem State.net_report (s : State) (b : Block) (n obj : Nat) (w : Word) : (s.report b n obj w).net = s.net :=
  State.field_of_bare State.net (fun _ => rfl) (State.bare_report s b n obj w)
@[simp] theorem State.cyc_report (s : State) (b : Block) (n obj : Nat) (w : Word) : (s.report b n obj w).cyc = s.cyc :=
  State.field_of_bare State.cyc (fun _ => rfl) (State.bare_report s b n obj w)
@[simp] theorem State.fab_report (s : State) (b : Block) (n obj : Nat) (w : Word) : (s.report b n obj w).fab = s.fab :=
  State.field_of_bare State.fab (fun _ => rfl) (State.bare_report s b n obj w)
@[simp] theorem State.twin_report (s : State) (b : Block) (n obj : Nat) (w : Word) : (s.report b n obj w).twin = s.twin :=
  State.field_of_bare State.twin (fun _ => rfl) (State.bare_report s b n obj w)
@[simp] theorem State.xch_report (s : State) (b : Block) (n obj : Nat) (w : Word) : (s.report b n obj w).xch = s.xch :=
  State.field_of_bare State.xch (fun _ => rfl) (State.bare_report s b n obj w)
@[simp] theorem State.cfg_report (s : State) (b : Block) (n obj : Nat) (w : Word) : (s.report b n obj w).cfg = s.cfg :=
  State.field_of_bare State.cfg (fun _ => rfl) (State.bare_report s b n obj w)
@[simp] theorem State.pending_report (s : State) (b : Block) (n obj : Nat) (w : Word) : (s.report b n obj w).pending = s.pending :=
  State.field_of_bare State.pending (fun _ => rfl) (State.bare_report s b n obj w)
@[simp] theorem State.eventEn_reportIf (s : State) (c : Bool) (b : Block) (n obj : Nat) (w : Word) : (s.reportIf c b n obj w).eventEn = s.eventEn :=
  State.field_of_bare State.eventEn (fun _ => rfl) (State.bare_reportIf s c b n obj w)
@[simp] theorem State.mod_reportIf (s : State) (c : Bool) (b : Block) (n obj : Nat) (w : Word) : (s.reportIf c b n obj w).mod = s.mod :=
  State.field_of_bare State.mod (fun _ => rfl) (State.bare_reportIf s c b n obj w)
@[simp] theorem State.time_reportIf (s : State) (c : Bool) (b : Block) (n obj : Nat) (w : Word) : (s.reportIf c b n obj w).time = s.time :=
  State.field_of_bare State.time (fun _ => rfl) (State.bare_reportIf s c b n obj w)
@[simp] theorem State.dio_reportIf (s : State) (c : Bool) (b : Block) (n obj : Nat) (w : Word) : (s.reportIf c b n obj w).dio = s.dio :=
  State.field_of_bare State.dio (fun _ => rfl) (State.bare_reportIf s c b n obj w)
@[simp] theorem State.aio_reportIf (s : State) (c : Bool) (b : Block) (n obj : Nat) (w : Word) : (s.reportIf c b n obj w).aio = s.aio :=
  State.field_of_bare State.aio (fun _ => rfl) (State.bare_reportIf s c b n obj w)
@[simp] theorem State.safe_reportIf (s : State) (c : Bool) (b : Block) (n obj : Nat) (w : Word) : (s.reportIf c b n obj w).safe = s.safe :=
  State.field_of_bare State.safe (fun _ => rfl) (State.bare_reportIf s c b n obj w)
@[simp] theorem State.ax_reportIf (s : State) (c : Bool) (b : Block) (n obj : Nat) (w : Word) : (s.reportIf c b n obj w).ax = s.ax :=
  State.field_of_bare State.ax (fun _ => rfl) (State.bare_reportIf s c b n obj w)
@[simp] theorem State.pnl_reportIf (s : State) (c : Bool) (b : Block) (n obj : Nat) (w : Word) : (s.reportIf c b n obj w).pnl = s.pnl :=
  State.field_of_bare State.pnl (fun _ => rfl) (State.bare_reportIf s c b n obj w)
@[simp] theorem State.net_reportIf (s : State) (c : Bool) (b : Block) (n obj : Nat) (w : Word) : (s.reportIf c b n obj w).net = s.net :=
  State.field_of_bare State.net (fun _ => rfl) (State.bare_reportIf s c b n obj w)
@[simp] theorem State.cyc_reportIf (s : State) (c : Bool) (b : Block) (n obj : Nat) (w : Word) : (s.reportIf c b n obj w).cyc = s.cyc :=
  State.field_of_bare State.cyc (fun _ => rfl) (State.bare_reportIf s c b n obj w)
@[simp] theorem State.fab_reportIf (s : State) (c : Bool) (b : Block) (n obj : Nat) (w : Word) : (s.reportIf c b n obj w).fab = s.fab :=
  State.field_of_bare State.fab (fun _ => rfl) (State.bare_reportIf s c b n obj w)
@[simp] theorem State.twin_reportIf (s : State) (c : Bool) (b : Block) (n obj : Nat) (w : Word) : (s.reportIf c b n obj w).twin = s.twin :=
  State.field_of_bare State.twin (fun _ => rfl) (State.bare_reportIf s c b n obj w)
@[simp] theorem State.xch_reportIf (s : State) (c : Bool) (b : Block) (n obj : Nat) (w : Word) : (s.reportIf c b n obj w).xch = s.xch :=
  State.field_of_bare State.xch (fun _ => rfl) (State.bare_reportIf s c b n obj w)
@[simp] theorem State.cfg_reportIf (s : State) (c : Bool) (b : Block) (n obj : Nat) (w : Word) : (s.reportIf c b n obj w).cfg = s.cfg :=
  State.field_of_bare State.cfg (fun _ => rfl) (State.bare_reportIf s c b n obj w)
@[simp] theorem State.pending_reportIf (s : State) (c : Bool) (b : Block) (n obj : Nat) (w : Word) : (s.reportIf c b n obj w).pending = s.pending :=
  State.field_of_bare State.pending (fun _ => rfl) (State.bare_reportIf s c b n obj w)
@[simp] theorem State.eventEn_recordEvent (s : State) (b : Block) (n obj : Nat) (w : Word) : (s.recordEvent b n obj w).eventEn = s.eventEn :=
  State.field_of_bare State.eventEn (fun _ => rfl) (State.bare_recordEvent s b n obj w)
@[simp] theorem State.mod_recordEvent (s : State) (b : Block) (n obj : Nat) (w : Word) : (s.recordEvent b n obj w).mod = s.mod :=
  State.field_of_bare State.mod (fun _ => rfl) (State.bare_recordEvent s b n obj w)
@[simp] theorem State.time_recordEvent (s : State) (b : Block) (n obj : Nat) (w : Word) : (s.recordEvent b n obj w).time = s.time :=
  State.field_of_bare State.time (fun _ => rfl) (State.bare_recordEvent s b n obj w)
@[simp] theorem State.dio_recordEvent (s : State) (b : Block) (n obj : Nat) (w : Word) : (s.recordEvent b n obj w).dio = s.dio :=
  State.field_of_bare State.dio (fun _ => rfl) (State.bare_recordEvent s b n obj w)
@[simp] theorem State.aio_recordEvent (s : State) (b : Block) (n obj : Nat) (w : Word) : (s.recordEvent b n obj w).aio = s.aio :=
  State.field_of_bare State.aio (fun _ => rfl) (State.bare_recordEvent s b n obj w)
@[simp] theorem State.safe_recordEvent (s : State) (b : Block) (n obj : Nat) (w : Word) : (s.recordEvent b n obj w).safe = s.safe :=
  State.field_of_bare State.safe (fun _ => rfl) (State.bare_recordEvent s b n obj w)
@[simp] theorem State.ax_recordEvent (s : State) (b : Block) (n obj : Nat) (w : Word) : (s.recordEvent b n obj w).ax = s.ax :=
  State.field_of_bare State.ax (fun _ => rfl) (State.bare_recordEvent s b n obj w)
@[simp] theorem State.pnl_recordEvent (s : State) (b : Block) (n obj : Nat) (w : Word) : (s.recordEvent b n obj w).pnl = s.pnl :=
  State.field_of_bare State.pnl (fun _ => rfl) (State.bare_recordEvent s b n obj w)
@[simp] theorem State.net_recordEvent (s : State) (b : Block) (n obj : Nat) (w : Word) : (s.recordEvent b n obj w).net = s.net :=
  State.field_of_bare State.net (fun _ => rfl) (State.bare_recordEvent s b n obj w)
@[simp] theorem State.cyc_recordEvent (s : State) (b : Block) (n obj : Nat) (w : Word) : (s.recordEvent b n obj w).cyc = s.cyc :=
  State.field_of_bare State.cyc (fun _ => rfl) (State.bare_recordEvent s b n obj w)
@[simp] theorem State.fab_recordEvent (s : State) (b : Block) (n obj : Nat) (w : Word) : (s.recordEvent b n obj w).fab = s.fab :=
  State.field_of_bare State.fab (fun _ => rfl) (State.bare_recordEvent s b n obj w)
@[simp] theorem State.twin_recordEvent (s : State) (b : Block) (n obj : Nat) (w : Word) : (s.recordEvent b n obj w).twin = s.twin :=
  State.field_of_bare State.twin (fun _ => rfl) (State.bare_recordEvent s b n obj w)
@[simp] theorem State.xch_recordEvent (s : State) (b : Block) (n obj : Nat) (w : Word) : (s.recordEvent b n obj w).xch = s.xch :=
  State.field_of_bare State.xch (fun _ => rfl) (State.bare_recordEvent s b n obj w)
@[simp] theorem State.cfg_recordEvent (s : State) (b : Block) (n obj : Nat) (w : Word) : (s.recordEvent b n obj w).cfg = s.cfg :=
  State.field_of_bare State.cfg (fun _ => rfl) (State.bare_recordEvent s b n obj w)
@[simp] theorem State.pending_recordEvent (s : State) (b : Block) (n obj : Nat) (w : Word) : (s.recordEvent b n obj w).pending = s.pending :=
  State.field_of_bare State.pending (fun _ => rfl) (State.bare_recordEvent s b n obj w)
@[simp] theorem State.eventEn_eventEntry (s : State) (e : EventEntry) : (s.eventEntry e).eventEn = s.eventEn :=
  State.field_of_bare State.eventEn (fun _ => rfl) (State.bare_eventEntry s e)
@[simp] theorem State.mod_eventEntry (s : State) (e : EventEntry) : (s.eventEntry e).mod = s.mod :=
  State.field_of_bare State.mod (fun _ => rfl) (State.bare_eventEntry s e)
@[simp] theorem State.time_eventEntry (s : State) (e : EventEntry) : (s.eventEntry e).time = s.time :=
  State.field_of_bare State.time (fun _ => rfl) (State.bare_eventEntry s e)
@[simp] theorem State.dio_eventEntry (s : State) (e : EventEntry) : (s.eventEntry e).dio = s.dio :=
  State.field_of_bare State.dio (fun _ => rfl) (State.bare_eventEntry s e)
@[simp] theorem State.aio_eventEntry (s : State) (e : EventEntry) : (s.eventEntry e).aio = s.aio :=
  State.field_of_bare State.aio (fun _ => rfl) (State.bare_eventEntry s e)
@[simp] theorem State.safe_eventEntry (s : State) (e : EventEntry) : (s.eventEntry e).safe = s.safe :=
  State.field_of_bare State.safe (fun _ => rfl) (State.bare_eventEntry s e)
@[simp] theorem State.ax_eventEntry (s : State) (e : EventEntry) : (s.eventEntry e).ax = s.ax :=
  State.field_of_bare State.ax (fun _ => rfl) (State.bare_eventEntry s e)
@[simp] theorem State.pnl_eventEntry (s : State) (e : EventEntry) : (s.eventEntry e).pnl = s.pnl :=
  State.field_of_bare State.pnl (fun _ => rfl) (State.bare_eventEntry s e)
@[simp] theorem State.net_eventEntry (s : State) (e : EventEntry) : (s.eventEntry e).net = s.net :=
  State.field_of_bare State.net (fun _ => rfl) (State.bare_eventEntry s e)
@[simp] theorem State.cyc_eventEntry (s : State) (e : EventEntry) : (s.eventEntry e).cyc = s.cyc :=
  State.field_of_bare State.cyc (fun _ => rfl) (State.bare_eventEntry s e)
@[simp] theorem State.fab_eventEntry (s : State) (e : EventEntry) : (s.eventEntry e).fab = s.fab :=
  State.field_of_bare State.fab (fun _ => rfl) (State.bare_eventEntry s e)
@[simp] theorem State.twin_eventEntry (s : State) (e : EventEntry) : (s.eventEntry e).twin = s.twin :=
  State.field_of_bare State.twin (fun _ => rfl) (State.bare_eventEntry s e)
@[simp] theorem State.xch_eventEntry (s : State) (e : EventEntry) : (s.eventEntry e).xch = s.xch :=
  State.field_of_bare State.xch (fun _ => rfl) (State.bare_eventEntry s e)
@[simp] theorem State.cfg_eventEntry (s : State) (e : EventEntry) : (s.eventEntry e).cfg = s.cfg :=
  State.field_of_bare State.cfg (fun _ => rfl) (State.bare_eventEntry s e)
@[simp] theorem State.pending_eventEntry (s : State) (e : EventEntry) : (s.eventEntry e).pending = s.pending :=
  State.field_of_bare State.pending (fun _ => rfl) (State.bare_eventEntry s e)
@[simp] theorem State.eventEn_capture (s : State) (n : Nat) (k : DWord) (o : Origin) : ((s.capture n k o).1).eventEn = s.eventEn :=
  State.field_of_bare State.eventEn (fun _ => rfl) (State.bare_capture s n k o)
@[simp] theorem State.mod_capture (s : State) (n : Nat) (k : DWord) (o : Origin) : ((s.capture n k o).1).mod = s.mod :=
  State.field_of_bare State.mod (fun _ => rfl) (State.bare_capture s n k o)
@[simp] theorem State.time_capture (s : State) (n : Nat) (k : DWord) (o : Origin) : ((s.capture n k o).1).time = s.time :=
  State.field_of_bare State.time (fun _ => rfl) (State.bare_capture s n k o)
@[simp] theorem State.dio_capture (s : State) (n : Nat) (k : DWord) (o : Origin) : ((s.capture n k o).1).dio = s.dio :=
  State.field_of_bare State.dio (fun _ => rfl) (State.bare_capture s n k o)
@[simp] theorem State.aio_capture (s : State) (n : Nat) (k : DWord) (o : Origin) : ((s.capture n k o).1).aio = s.aio :=
  State.field_of_bare State.aio (fun _ => rfl) (State.bare_capture s n k o)
@[simp] theorem State.safe_capture (s : State) (n : Nat) (k : DWord) (o : Origin) : ((s.capture n k o).1).safe = s.safe :=
  State.field_of_bare State.safe (fun _ => rfl) (State.bare_capture s n k o)
@[simp] theorem State.ax_capture (s : State) (n : Nat) (k : DWord) (o : Origin) : ((s.capture n k o).1).ax = s.ax :=
  State.field_of_bare State.ax (fun _ => rfl) (State.bare_capture s n k o)
@[simp] theorem State.pnl_capture (s : State) (n : Nat) (k : DWord) (o : Origin) : ((s.capture n k o).1).pnl = s.pnl :=
  State.field_of_bare State.pnl (fun _ => rfl) (State.bare_capture s n k o)
@[simp] theorem State.net_capture (s : State) (n : Nat) (k : DWord) (o : Origin) : ((s.capture n k o).1).net = s.net :=
  State.field_of_bare State.net (fun _ => rfl) (State.bare_capture s n k o)
@[simp] theorem State.cyc_capture (s : State) (n : Nat) (k : DWord) (o : Origin) : ((s.capture n k o).1).cyc = s.cyc :=
  State.field_of_bare State.cyc (fun _ => rfl) (State.bare_capture s n k o)
@[simp] theorem State.fab_capture (s : State) (n : Nat) (k : DWord) (o : Origin) : ((s.capture n k o).1).fab = s.fab :=
  State.field_of_bare State.fab (fun _ => rfl) (State.bare_capture s n k o)
@[simp] theorem State.twin_capture (s : State) (n : Nat) (k : DWord) (o : Origin) : ((s.capture n k o).1).twin = s.twin :=
  State.field_of_bare State.twin (fun _ => rfl) (State.bare_capture s n k o)
@[simp] theorem State.xch_capture (s : State) (n : Nat) (k : DWord) (o : Origin) : ((s.capture n k o).1).xch = s.xch :=
  State.field_of_bare State.xch (fun _ => rfl) (State.bare_capture s n k o)
@[simp] theorem State.cfg_capture (s : State) (n : Nat) (k : DWord) (o : Origin) : ((s.capture n k o).1).cfg = s.cfg :=
  State.field_of_bare State.cfg (fun _ => rfl) (State.bare_capture s n k o)
@[simp] theorem State.pending_capture (s : State) (n : Nat) (k : DWord) (o : Origin) : ((s.capture n k o).1).pending = s.pending :=
  State.field_of_bare State.pending (fun _ => rfl) (State.bare_capture s n k o)
@[simp] theorem State.recorder_bare_setEventN (k : Nat) (s : State) (b : Block) (n : Nat) (e : Bool) : (State.setEventN k s b n e).recorder.bare = s.recorder.bare :=
  congrArg State.recorder (State.bare_setEventN k s b n e)
@[simp] theorem State.host_bare_setEventN (k : Nat) (s : State) (b : Block) (n : Nat) (e : Bool) : (State.setEventN k s b n e).host.bare = s.host.bare :=
  congrArg State.host (State.bare_setEventN k s b n e)
@[simp] theorem State.mnt_bare_setEventN (k : Nat) (s : State) (b : Block) (n : Nat) (e : Bool) : (State.setEventN k s b n e).mnt.bare = s.mnt.bare :=
  congrArg State.mnt (State.bare_setEventN k s b n e)
@[simp] theorem State.recorder_bare_setEvent (s : State) (b : Block) (n : Nat) : (s.setEvent b n).recorder.bare = s.recorder.bare :=
  congrArg State.recorder (State.bare_setEvent s b n)
@[simp] theorem State.host_bare_setEvent (s : State) (b : Block) (n : Nat) : (s.setEvent b n).host.bare = s.host.bare :=
  congrArg State.host (State.bare_setEvent s b n)
@[simp] theorem State.mnt_bare_setEvent (s : State) (b : Block) (n : Nat) : (s.setEvent b n).mnt.bare = s.mnt.bare :=
  congrArg State.mnt (State.bare_setEvent s b n)
@[simp] theorem State.recorder_bare_setEventIf (s : State) (c : Bool) (b : Block) (n : Nat) : (s.setEventIf c b n).recorder.bare = s.recorder.bare :=
  congrArg State.recorder (State.bare_setEventIf s c b n)
@[simp] theorem State.host_bare_setEventIf (s : State) (c : Bool) (b : Block) (n : Nat) : (s.setEventIf c b n).host.bare = s.host.bare :=
  congrArg State.host (State.bare_setEventIf s c b n)
@[simp] theorem State.mnt_bare_setEventIf (s : State) (c : Bool) (b : Block) (n : Nat) : (s.setEventIf c b n).mnt.bare = s.mnt.bare :=
  congrArg State.mnt (State.bare_setEventIf s c b n)
@[simp] theorem State.recorder_bare_note (s : State) (src code : Nat) (d : DWord) : (s.note src code d).recorder.bare = s.recorder.bare :=
  congrArg State.recorder (State.bare_note s src code d)
@[simp] theorem State.host_bare_note (s : State) (src code : Nat) (d : DWord) : (s.note src code d).host.bare = s.host.bare :=
  congrArg State.host (State.bare_note s src code d)
@[simp] theorem State.mnt_bare_note (s : State) (src code : Nat) (d : DWord) : (s.note src code d).mnt.bare = s.mnt.bare :=
  congrArg State.mnt (State.bare_note s src code d)
@[simp] theorem State.recorder_bare_report (s : State) (b : Block) (n obj : Nat) (w : Word) : (s.report b n obj w).recorder.bare = s.recorder.bare :=
  congrArg State.recorder (State.bare_report s b n obj w)
@[simp] theorem State.host_bare_report (s : State) (b : Block) (n obj : Nat) (w : Word) : (s.report b n obj w).host.bare = s.host.bare :=
  congrArg State.host (State.bare_report s b n obj w)
@[simp] theorem State.mnt_bare_report (s : State) (b : Block) (n obj : Nat) (w : Word) : (s.report b n obj w).mnt.bare = s.mnt.bare :=
  congrArg State.mnt (State.bare_report s b n obj w)
@[simp] theorem State.recorder_bare_reportIf (s : State) (c : Bool) (b : Block) (n obj : Nat) (w : Word) : (s.reportIf c b n obj w).recorder.bare = s.recorder.bare :=
  congrArg State.recorder (State.bare_reportIf s c b n obj w)
@[simp] theorem State.host_bare_reportIf (s : State) (c : Bool) (b : Block) (n obj : Nat) (w : Word) : (s.reportIf c b n obj w).host.bare = s.host.bare :=
  congrArg State.host (State.bare_reportIf s c b n obj w)
@[simp] theorem State.mnt_bare_reportIf (s : State) (c : Bool) (b : Block) (n obj : Nat) (w : Word) : (s.reportIf c b n obj w).mnt.bare = s.mnt.bare :=
  congrArg State.mnt (State.bare_reportIf s c b n obj w)
@[simp] theorem State.recorder_bare_recordEvent (s : State) (b : Block) (n obj : Nat) (w : Word) : (s.recordEvent b n obj w).recorder.bare = s.recorder.bare :=
  congrArg State.recorder (State.bare_recordEvent s b n obj w)
@[simp] theorem State.host_bare_recordEvent (s : State) (b : Block) (n obj : Nat) (w : Word) : (s.recordEvent b n obj w).host.bare = s.host.bare :=
  congrArg State.host (State.bare_recordEvent s b n obj w)
@[simp] theorem State.mnt_bare_recordEvent (s : State) (b : Block) (n obj : Nat) (w : Word) : (s.recordEvent b n obj w).mnt.bare = s.mnt.bare :=
  congrArg State.mnt (State.bare_recordEvent s b n obj w)
@[simp] theorem State.recorder_bare_eventEntry (s : State) (e : EventEntry) : (s.eventEntry e).recorder.bare = s.recorder.bare :=
  congrArg State.recorder (State.bare_eventEntry s e)
@[simp] theorem State.host_bare_eventEntry (s : State) (e : EventEntry) : (s.eventEntry e).host.bare = s.host.bare :=
  congrArg State.host (State.bare_eventEntry s e)
@[simp] theorem State.mnt_bare_eventEntry (s : State) (e : EventEntry) : (s.eventEntry e).mnt.bare = s.mnt.bare :=
  congrArg State.mnt (State.bare_eventEntry s e)
@[simp] theorem State.recorder_bare_capture (s : State) (n : Nat) (k : DWord) (o : Origin) : ((s.capture n k o).1).recorder.bare = s.recorder.bare :=
  congrArg State.recorder (State.bare_capture s n k o)
@[simp] theorem State.host_bare_capture (s : State) (n : Nat) (k : DWord) (o : Origin) : ((s.capture n k o).1).host.bare = s.host.bare :=
  congrArg State.host (State.bare_capture s n k o)
@[simp] theorem State.mnt_bare_capture (s : State) (n : Nat) (k : DWord) (o : Origin) : ((s.capture n k o).1).mnt.bare = s.mnt.bare :=
  congrArg State.mnt (State.bare_capture s n k o)
@[simp] theorem State.eventEn_finish (s : State) (o : Origin) (status detail : Nat) : (s.finish o status detail).eventEn = s.eventEn :=
  State.field_of_done State.eventEn (fun _ => rfl) (State.sans_finish [.done] (by simp) s o status detail)
@[simp] theorem State.mod_finish (s : State) (o : Origin) (status detail : Nat) : (s.finish o status detail).mod = s.mod :=
  State.field_of_done State.mod (fun _ => rfl) (State.sans_finish [.done] (by simp) s o status detail)
@[simp] theorem State.time_finish (s : State) (o : Origin) (status detail : Nat) : (s.finish o status detail).time = s.time :=
  State.field_of_done State.time (fun _ => rfl) (State.sans_finish [.done] (by simp) s o status detail)
@[simp] theorem State.dio_finish (s : State) (o : Origin) (status detail : Nat) : (s.finish o status detail).dio = s.dio :=
  State.field_of_done State.dio (fun _ => rfl) (State.sans_finish [.done] (by simp) s o status detail)
@[simp] theorem State.aio_finish (s : State) (o : Origin) (status detail : Nat) : (s.finish o status detail).aio = s.aio :=
  State.field_of_done State.aio (fun _ => rfl) (State.sans_finish [.done] (by simp) s o status detail)
@[simp] theorem State.safe_finish (s : State) (o : Origin) (status detail : Nat) : (s.finish o status detail).safe = s.safe :=
  State.field_of_done State.safe (fun _ => rfl) (State.sans_finish [.done] (by simp) s o status detail)
@[simp] theorem State.ax_finish (s : State) (o : Origin) (status detail : Nat) : (s.finish o status detail).ax = s.ax :=
  State.field_of_done State.ax (fun _ => rfl) (State.sans_finish [.done] (by simp) s o status detail)
@[simp] theorem State.pnl_finish (s : State) (o : Origin) (status detail : Nat) : (s.finish o status detail).pnl = s.pnl :=
  State.field_of_done State.pnl (fun _ => rfl) (State.sans_finish [.done] (by simp) s o status detail)
@[simp] theorem State.net_finish (s : State) (o : Origin) (status detail : Nat) : (s.finish o status detail).net = s.net :=
  State.field_of_done State.net (fun _ => rfl) (State.sans_finish [.done] (by simp) s o status detail)
@[simp] theorem State.cyc_finish (s : State) (o : Origin) (status detail : Nat) : (s.finish o status detail).cyc = s.cyc :=
  State.field_of_done State.cyc (fun _ => rfl) (State.sans_finish [.done] (by simp) s o status detail)
@[simp] theorem State.fab_finish (s : State) (o : Origin) (status detail : Nat) : (s.finish o status detail).fab = s.fab :=
  State.field_of_done State.fab (fun _ => rfl) (State.sans_finish [.done] (by simp) s o status detail)
@[simp] theorem State.twin_finish (s : State) (o : Origin) (status detail : Nat) : (s.finish o status detail).twin = s.twin :=
  State.field_of_done State.twin (fun _ => rfl) (State.sans_finish [.done] (by simp) s o status detail)
@[simp] theorem State.xch_finish (s : State) (o : Origin) (status detail : Nat) : (s.finish o status detail).xch = s.xch :=
  State.field_of_done State.xch (fun _ => rfl) (State.sans_finish [.done] (by simp) s o status detail)
@[simp] theorem State.cfg_finish (s : State) (o : Origin) (status detail : Nat) : (s.finish o status detail).cfg = s.cfg :=
  State.field_of_done State.cfg (fun _ => rfl) (State.sans_finish [.done] (by simp) s o status detail)
@[simp] theorem State.pending_finish (s : State) (o : Origin) (status detail : Nat) : (s.finish o status detail).pending = s.pending :=
  State.field_of_done State.pending (fun _ => rfl) (State.sans_finish [.done] (by simp) s o status detail)
@[simp] theorem State.eventEn_complete (s : State) (o : Origin) (status detail : Nat) (c : DWord) (r : List Byte) : (s.complete o status detail c r).eventEn = s.eventEn :=
  State.field_of_done State.eventEn (fun _ => rfl) (State.sans_complete [.done] (by simp) s o status detail c r)
@[simp] theorem State.mod_complete (s : State) (o : Origin) (status detail : Nat) (c : DWord) (r : List Byte) : (s.complete o status detail c r).mod = s.mod :=
  State.field_of_done State.mod (fun _ => rfl) (State.sans_complete [.done] (by simp) s o status detail c r)
@[simp] theorem State.time_complete (s : State) (o : Origin) (status detail : Nat) (c : DWord) (r : List Byte) : (s.complete o status detail c r).time = s.time :=
  State.field_of_done State.time (fun _ => rfl) (State.sans_complete [.done] (by simp) s o status detail c r)
@[simp] theorem State.dio_complete (s : State) (o : Origin) (status detail : Nat) (c : DWord) (r : List Byte) : (s.complete o status detail c r).dio = s.dio :=
  State.field_of_done State.dio (fun _ => rfl) (State.sans_complete [.done] (by simp) s o status detail c r)
@[simp] theorem State.aio_complete (s : State) (o : Origin) (status detail : Nat) (c : DWord) (r : List Byte) : (s.complete o status detail c r).aio = s.aio :=
  State.field_of_done State.aio (fun _ => rfl) (State.sans_complete [.done] (by simp) s o status detail c r)
@[simp] theorem State.safe_complete (s : State) (o : Origin) (status detail : Nat) (c : DWord) (r : List Byte) : (s.complete o status detail c r).safe = s.safe :=
  State.field_of_done State.safe (fun _ => rfl) (State.sans_complete [.done] (by simp) s o status detail c r)
@[simp] theorem State.ax_complete (s : State) (o : Origin) (status detail : Nat) (c : DWord) (r : List Byte) : (s.complete o status detail c r).ax = s.ax :=
  State.field_of_done State.ax (fun _ => rfl) (State.sans_complete [.done] (by simp) s o status detail c r)
@[simp] theorem State.pnl_complete (s : State) (o : Origin) (status detail : Nat) (c : DWord) (r : List Byte) : (s.complete o status detail c r).pnl = s.pnl :=
  State.field_of_done State.pnl (fun _ => rfl) (State.sans_complete [.done] (by simp) s o status detail c r)
@[simp] theorem State.net_complete (s : State) (o : Origin) (status detail : Nat) (c : DWord) (r : List Byte) : (s.complete o status detail c r).net = s.net :=
  State.field_of_done State.net (fun _ => rfl) (State.sans_complete [.done] (by simp) s o status detail c r)
@[simp] theorem State.cyc_complete (s : State) (o : Origin) (status detail : Nat) (c : DWord) (r : List Byte) : (s.complete o status detail c r).cyc = s.cyc :=
  State.field_of_done State.cyc (fun _ => rfl) (State.sans_complete [.done] (by simp) s o status detail c r)
@[simp] theorem State.fab_complete (s : State) (o : Origin) (status detail : Nat) (c : DWord) (r : List Byte) : (s.complete o status detail c r).fab = s.fab :=
  State.field_of_done State.fab (fun _ => rfl) (State.sans_complete [.done] (by simp) s o status detail c r)
@[simp] theorem State.twin_complete (s : State) (o : Origin) (status detail : Nat) (c : DWord) (r : List Byte) : (s.complete o status detail c r).twin = s.twin :=
  State.field_of_done State.twin (fun _ => rfl) (State.sans_complete [.done] (by simp) s o status detail c r)
@[simp] theorem State.xch_complete (s : State) (o : Origin) (status detail : Nat) (c : DWord) (r : List Byte) : (s.complete o status detail c r).xch = s.xch :=
  State.field_of_done State.xch (fun _ => rfl) (State.sans_complete [.done] (by simp) s o status detail c r)
@[simp] theorem State.cfg_complete (s : State) (o : Origin) (status detail : Nat) (c : DWord) (r : List Byte) : (s.complete o status detail c r).cfg = s.cfg :=
  State.field_of_done State.cfg (fun _ => rfl) (State.sans_complete [.done] (by simp) s o status detail c r)
@[simp] theorem State.pending_complete (s : State) (o : Origin) (status detail : Nat) (c : DWord) (r : List Byte) : (s.complete o status detail c r).pending = s.pending :=
  State.field_of_done State.pending (fun _ => rfl) (State.sans_complete [.done] (by simp) s o status detail c r)
@[simp] theorem State.eventEn_passed (s : State) (o : Origin) : (s.passed o).eventEn = s.eventEn :=
  State.field_of_done State.eventEn (fun _ => rfl) (State.sans_passed [.done] (by simp) s o)
@[simp] theorem State.mod_passed (s : State) (o : Origin) : (s.passed o).mod = s.mod :=
  State.field_of_done State.mod (fun _ => rfl) (State.sans_passed [.done] (by simp) s o)
@[simp] theorem State.time_passed (s : State) (o : Origin) : (s.passed o).time = s.time :=
  State.field_of_done State.time (fun _ => rfl) (State.sans_passed [.done] (by simp) s o)
@[simp] theorem State.dio_passed (s : State) (o : Origin) : (s.passed o).dio = s.dio :=
  State.field_of_done State.dio (fun _ => rfl) (State.sans_passed [.done] (by simp) s o)
@[simp] theorem State.aio_passed (s : State) (o : Origin) : (s.passed o).aio = s.aio :=
  State.field_of_done State.aio (fun _ => rfl) (State.sans_passed [.done] (by simp) s o)
@[simp] theorem State.safe_passed (s : State) (o : Origin) : (s.passed o).safe = s.safe :=
  State.field_of_done State.safe (fun _ => rfl) (State.sans_passed [.done] (by simp) s o)
@[simp] theorem State.ax_passed (s : State) (o : Origin) : (s.passed o).ax = s.ax :=
  State.field_of_done State.ax (fun _ => rfl) (State.sans_passed [.done] (by simp) s o)
@[simp] theorem State.pnl_passed (s : State) (o : Origin) : (s.passed o).pnl = s.pnl :=
  State.field_of_done State.pnl (fun _ => rfl) (State.sans_passed [.done] (by simp) s o)
@[simp] theorem State.net_passed (s : State) (o : Origin) : (s.passed o).net = s.net :=
  State.field_of_done State.net (fun _ => rfl) (State.sans_passed [.done] (by simp) s o)
@[simp] theorem State.cyc_passed (s : State) (o : Origin) : (s.passed o).cyc = s.cyc :=
  State.field_of_done State.cyc (fun _ => rfl) (State.sans_passed [.done] (by simp) s o)
@[simp] theorem State.fab_passed (s : State) (o : Origin) : (s.passed o).fab = s.fab :=
  State.field_of_done State.fab (fun _ => rfl) (State.sans_passed [.done] (by simp) s o)
@[simp] theorem State.twin_passed (s : State) (o : Origin) : (s.passed o).twin = s.twin :=
  State.field_of_done State.twin (fun _ => rfl) (State.sans_passed [.done] (by simp) s o)
@[simp] theorem State.xch_passed (s : State) (o : Origin) : (s.passed o).xch = s.xch :=
  State.field_of_done State.xch (fun _ => rfl) (State.sans_passed [.done] (by simp) s o)
@[simp] theorem State.cfg_passed (s : State) (o : Origin) : (s.passed o).cfg = s.cfg :=
  State.field_of_done State.cfg (fun _ => rfl) (State.sans_passed [.done] (by simp) s o)
@[simp] theorem State.pending_passed (s : State) (o : Origin) : (s.passed o).pending = s.pending :=
  State.field_of_done State.pending (fun _ => rfl) (State.sans_passed [.done] (by simp) s o)
@[simp] theorem State.recorder_bare_finish (s : State) (o : Origin) (status detail : Nat) : (s.finish o status detail).recorder.bare = s.recorder.bare :=
  congrArg State.recorder (State.sans_finish [.done] (by simp) s o status detail)
@[simp] theorem State.host_core_finish (s : State) (o : Origin) (status detail : Nat) : (s.finish o status detail).host.core = s.host.core :=
  congrArg State.host (State.sans_finish [.done] (by simp) s o status detail)
@[simp] theorem State.mnt_core_finish (s : State) (o : Origin) (status detail : Nat) : (s.finish o status detail).mnt.core = s.mnt.core :=
  congrArg State.mnt (State.sans_finish [.done] (by simp) s o status detail)
@[simp] theorem State.recorder_bare_complete (s : State) (o : Origin) (status detail : Nat) (c : DWord) (r : List Byte) : (s.complete o status detail c r).recorder.bare = s.recorder.bare :=
  congrArg State.recorder (State.sans_complete [.done] (by simp) s o status detail c r)
@[simp] theorem State.host_core_complete (s : State) (o : Origin) (status detail : Nat) (c : DWord) (r : List Byte) : (s.complete o status detail c r).host.core = s.host.core :=
  congrArg State.host (State.sans_complete [.done] (by simp) s o status detail c r)
@[simp] theorem State.mnt_core_complete (s : State) (o : Origin) (status detail : Nat) (c : DWord) (r : List Byte) : (s.complete o status detail c r).mnt.core = s.mnt.core :=
  congrArg State.mnt (State.sans_complete [.done] (by simp) s o status detail c r)
@[simp] theorem State.recorder_bare_passed (s : State) (o : Origin) : (s.passed o).recorder.bare = s.recorder.bare :=
  congrArg State.recorder (State.sans_passed [.done] (by simp) s o)
@[simp] theorem State.host_core_passed (s : State) (o : Origin) : (s.passed o).host.core = s.host.core :=
  congrArg State.host (State.sans_passed [.done] (by simp) s o)
@[simp] theorem State.mnt_core_passed (s : State) (o : Origin) : (s.passed o).mnt.core = s.mnt.core :=
  congrArg State.mnt (State.sans_passed [.done] (by simp) s o)

/-! What a report leaves, it leaves apart from completions too. -/

theorem HostBlk.core_congr {h g : HostBlk} (e : h.bare = g.bare) : h.core = g.core := by simp [HostBlk.core, e]
theorem MntBlk.core_congr {h g : MntBlk} (e : h.bare = g.bare) : h.core = g.core := by
  cases h; cases g; simp_all [MntBlk.core, MntBlk.bare]

@[simp] theorem State.host_core_setEventN (k : Nat) (s : State) (b : Block) (n : Nat) (e : Bool) : (State.setEventN k s b n e).host.core = s.host.core :=
  HostBlk.core_congr (State.host_bare_setEventN k s b n e)
@[simp] theorem State.mnt_core_setEventN (k : Nat) (s : State) (b : Block) (n : Nat) (e : Bool) : (State.setEventN k s b n e).mnt.core = s.mnt.core :=
  MntBlk.core_congr (State.mnt_bare_setEventN k s b n e)
@[simp] theorem State.host_core_setEvent (s : State) (b : Block) (n : Nat) : (s.setEvent b n).host.core = s.host.core :=
  HostBlk.core_congr (State.host_bare_setEvent s b n)
@[simp] theorem State.mnt_core_setEvent (s : State) (b : Block) (n : Nat) : (s.setEvent b n).mnt.core = s.mnt.core :=
  MntBlk.core_congr (State.mnt_bare_setEvent s b n)
@[simp] theorem State.host_core_setEventIf (s : State) (c : Bool) (b : Block) (n : Nat) : (s.setEventIf c b n).host.core = s.host.core :=
  HostBlk.core_congr (State.host_bare_setEventIf s c b n)
@[simp] theorem State.mnt_core_setEventIf (s : State) (c : Bool) (b : Block) (n : Nat) : (s.setEventIf c b n).mnt.core = s.mnt.core :=
  MntBlk.core_congr (State.mnt_bare_setEventIf s c b n)
@[simp] theorem State.host_core_note (s : State) (src code : Nat) (d : DWord) : (s.note src code d).host.core = s.host.core :=
  HostBlk.core_congr (State.host_bare_note s src code d)
@[simp] theorem State.mnt_core_note (s : State) (src code : Nat) (d : DWord) : (s.note src code d).mnt.core = s.mnt.core :=
  MntBlk.core_congr (State.mnt_bare_note s src code d)
@[simp] theorem State.host_core_report (s : State) (b : Block) (n obj : Nat) (w : Word) : (s.report b n obj w).host.core = s.host.core :=
  HostBlk.core_congr (State.host_bare_report s b n obj w)
@[simp] theorem State.mnt_core_report (s : State) (b : Block) (n obj : Nat) (w : Word) : (s.report b n obj w).mnt.core = s.mnt.core :=
  MntBlk.core_congr (State.mnt_bare_report s b n obj w)
@[simp] theorem State.host_core_reportIf (s : State) (c : Bool) (b : Block) (n obj : Nat) (w : Word) : (s.reportIf c b n obj w).host.core = s.host.core :=
  HostBlk.core_congr (State.host_bare_reportIf s c b n obj w)
@[simp] theorem State.mnt_core_reportIf (s : State) (c : Bool) (b : Block) (n obj : Nat) (w : Word) : (s.reportIf c b n obj w).mnt.core = s.mnt.core :=
  MntBlk.core_congr (State.mnt_bare_reportIf s c b n obj w)
@[simp] theorem State.host_core_recordEvent (s : State) (b : Block) (n obj : Nat) (w : Word) : (s.recordEvent b n obj w).host.core = s.host.core :=
  HostBlk.core_congr (State.host_bare_recordEvent s b n obj w)
@[simp] theorem State.mnt_core_recordEvent (s : State) (b : Block) (n obj : Nat) (w : Word) : (s.recordEvent b n obj w).mnt.core = s.mnt.core :=
  MntBlk.core_congr (State.mnt_bare_recordEvent s b n obj w)
@[simp] theorem State.host_core_eventEntry (s : State) (e : EventEntry) : (s.eventEntry e).host.core = s.host.core :=
  HostBlk.core_congr (State.host_bare_eventEntry s e)
@[simp] theorem State.mnt_core_eventEntry (s : State) (e : EventEntry) : (s.eventEntry e).mnt.core = s.mnt.core :=
  MntBlk.core_congr (State.mnt_bare_eventEntry s e)
@[simp] theorem State.host_core_capture (s : State) (n : Nat) (k : DWord) (o : Origin) : ((s.capture n k o).1).host.core = s.host.core :=
  HostBlk.core_congr (State.host_bare_capture s n k o)
@[simp] theorem State.mnt_core_capture (s : State) (n : Nat) (k : DWord) (o : Origin) : ((s.capture n k o).1).mnt.core = s.mnt.core :=
  MntBlk.core_congr (State.mnt_bare_capture s n k o)

/-! The EVENT bits that may be set depend on the EVENT registers alone. -/

/-- From the EVENT registers `e` to `e'` every bit that stands stays, and none is set but bits of `m` and of `reportBits`. -/
def EvMay (e e' : Tbl Word) (m : List (Block × Nat)) : Prop := State.MayRaise { event := e } { event := e' } m
/-- A bit of the EVENT registers stands. -/
def EvBit (e : Tbl Word) (b : Block) (n : Nat) : Prop := State.raised { event := e } b n = true
theorem State.may_iff (s t : State) (m : List (Block × Nat)) : s.MayRaise t m ↔ EvMay s.event t.event m := Iff.rfl
theorem State.raised_iff (s : State) (b : Block) (n : Nat) : (s.raised b n = true) ↔ EvBit s.event b n := Iff.rfl
theorem State.raises_iff (s t : State) (m : List (Block × Nat)) :
    s.Raises t m ↔ EvMay s.event t.event m ∧ ∀ e ∈ m, EvBit t.event e.1 e.2 :=
  ⟨fun h => ⟨⟨h.1, h.2.2⟩, h.2.1⟩, fun h => ⟨h.1.1, h.2, h.1.2⟩⟩
@[simp] theorem EvMay.refl (e : Tbl Word) (m : List (Block × Nat)) : EvMay e e m := State.MayRaise.refl _ m
theorem EvMay.trans {e f g : Tbl Word} {m : List (Block × Nat)} (a : EvMay e f m) (b : EvMay f g m) : EvMay e g m := State.MayRaise.trans a b
theorem EvMay.mono {e f : Tbl Word} {l m : List (Block × Nat)} (a : EvMay e f l) (h : ∀ x ∈ l, x ∈ m ∨ x ∈ reportBits) : EvMay e f m :=
  State.MayRaise.mono a h
theorem EvMay.of_raises {s t : State} {e : Tbl Word} {l m : List (Block × Nat)} (h : EvMay e s.event m) (r : s.Raises t l)
    (k : ∀ x ∈ l, x ∈ m ∨ x ∈ reportBits) : EvMay e t.event m := EvMay.trans h (r.may k)
theorem EvBit.of_raises {s t : State} {l : List (Block × Nat)} (r : s.Raises t l) (b : Block) (n : Nat)
    (h : EvBit s.event b n ∨ (b, n) ∈ l) : EvBit t.event b n := h.elim (r.1 b n) (fun h => r.2.1 (b, n) h)
section
variable {s : State} {e : Tbl Word} {m : List (Block × Nat)} {b c : Block} {i n obj : Nat} {w : Word}
@[simp] theorem EvMay.setEvent (h : EvMay e s.event m) (k : (b, n) ∈ m ∨ (b, n) ∈ reportBits) (l : n < 32) : EvMay e (s.setEvent b n).event m :=
  h.of_raises (s.raises_setEvent b n l) (by simpa using k)
@[simp] theorem EvMay.setEventIf {x : Bool} (h : EvMay e s.event m) (k : (b, n) ∈ m ∨ (b, n) ∈ reportBits) (l : n < 32) :
    EvMay e (s.setEventIf x b n).event m := h.of_raises (s.raises_setEventIf x b n l) (by split <;> simp_all)
@[simp] theorem EvMay.report (h : EvMay e s.event m) (k : (b, n) ∈ m ∨ (b, n) ∈ reportBits) (l : n < 32) :
    EvMay e (s.report b n obj w).event m := h.of_raises (s.raises_report b n obj w l) (by simpa using k)
@[simp] theorem EvMay.reportIf {x : Bool} (h : EvMay e s.event m) (k : (b, n) ∈ m ∨ (b, n) ∈ reportBits) (l : n < 32) :
    EvMay e (s.reportIf x b n obj w).event m := h.of_raises (s.raises_reportIf x b n obj w l) (by split <;> simp_all)
@[simp] theorem EvMay.recordEvent (h : EvMay e s.event m) (k : (b, n) ∈ m ∨ (b, n) ∈ reportBits) (l : n < 32) :
    EvMay e (s.recordEvent b n obj w).event m := h.of_raises (s.raises_recordEvent b n obj w l) (by simpa using k)
@[simp] theorem EvMay.note {x y : Nat} {d : DWord} (h : EvMay e s.event m) : EvMay e (s.note x y d).event m :=
  h.of_raises (s.raises_note x y d) (by simp)
@[simp] theorem EvMay.eventEntry {x : EventEntry} (h : EvMay e s.event m) : EvMay e (s.eventEntry x).event m :=
  h.of_raises (s.raises_eventEntry x) (by simp)
@[simp] theorem EvMay.ite {p : Prop} [Decidable p] {a b : State} (h : p → EvMay e a.event m) (k : ¬p → EvMay e b.event m) :
    EvMay e (if p then a else b).event m := by split <;> simp_all
@[simp] theorem EvBit.setEvent (h : EvBit s.event c i ∨ (c = b ∧ i = n)) (l : n < 32) : EvBit (s.setEvent b n).event c i :=
  .of_raises (s.raises_setEvent b n l) c i (by simpa using h)
@[simp] theorem EvBit.setEventIf {x : Bool} (h : EvBit s.event c i ∨ (x = true ∧ c = b ∧ i = n)) (l : n < 32) :
    EvBit (s.setEventIf x b n).event c i := .of_raises (s.raises_setEventIf x b n l) c i (h.imp_right (fun h => by simp [h]))
@[simp] theorem EvBit.report (h : EvBit s.event c i ∨ (c = b ∧ i = n)) (l : n < 32) : EvBit (s.report b n obj w).event c i :=
  .of_raises (s.raises_report b n obj w l) c i (by simpa using h)
@[simp] theorem EvBit.recordEvent (h : EvBit s.event c i ∨ (c = b ∧ i = n)) (l : n < 32) : EvBit (s.recordEvent b n obj w).event c i :=
  .of_raises (s.raises_recordEvent b n obj w l) c i (by simpa using h)
@[simp] theorem EvBit.note {x y : Nat} {d : DWord} (h : EvBit s.event c i) : EvBit (s.note x y d).event c i :=
  .of_raises (s.raises_note x y d) c i (Or.inl h)
@[simp] theorem EvBit.eventEntry {x : EventEntry} (h : EvBit s.event c i) : EvBit (s.eventEntry x).event c i :=
  .of_raises (s.raises_eventEntry x) c i (Or.inl h)
end


end Sys2Proof.Machine
end

