-- ==== Sys2Proof/Laws/Blocks.lean ====
section
/-! SUPPORT. Laws/Blocks.lean: reading one element of a block after writing one, and how a command's next state is shown. -/
set_option Elab.async false
namespace Sys2Proof.Machine

/-! Digital channels and cells. -/

@[simp] theorem Dio.getCh_setCh (d : Dio) (n : Nat) (c : DioCh) : (d.setCh n c).getCh n = c := Tbl.get_set_self _ _ _ _
theorem Dio.getCh_setCh_ne (d : Dio) {n i : Nat} (c : DioCh) (h : i ≠ n) : (d.setCh n c).getCh i = d.getCh i := Tbl.get_set_ne _ _ _ h
@[simp] theorem Dio.setCh_setCh (d : Dio) (n : Nat) (a b : DioCh) : (d.setCh n a).setCh n b = d.setCh n b := by simp [Dio.setCh]
@[simp] theorem Dio.getCell_setCell (d : Dio) (n : Nat) (c : DioCell) : (d.setCell n c).getCell n = c := Tbl.get_set_self _ _ _ _
theorem Dio.getCell_setCell_ne (d : Dio) {n i : Nat} (c : DioCell) (h : i ≠ n) : (d.setCell n c).getCell i = d.getCell i :=
  Tbl.get_set_ne _ _ _ h
@[simp] theorem Dio.setCell_setCell (d : Dio) (n : Nat) (a b : DioCell) : (d.setCell n a).setCell n b = d.setCell n b := by simp [Dio.setCell]
@[simp] theorem Dio.getCell_setCh (d : Dio) (n i : Nat) (c : DioCh) : (d.setCh n c).getCell i = d.getCell i := rfl
@[simp] theorem Dio.getCh_setCell (d : Dio) (n i : Nat) (c : DioCell) : (d.setCell n c).getCh i = d.getCh i := rfl
@[simp] theorem Dio.setCh_setCell (d : Dio) (n i : Nat) (c : DioCh) (x : DioCell) : (d.setCell i x).setCh n c = (d.setCh n c).setCell i x := rfl
theorem Dio.getCh_modCellCh (d : Dio) (c : Nat) (f : DioCh → DioCh) (n : Nat) :
    (d.modCellCh c f).getCh n = if n / 16 = c then f (d.getCh n) else d.getCh n := by
  unfold Dio.getCh Dio.modCellCh
  rw [Tbl.get_mapRange]
  by_cases h : n / 16 = c
  · rw [if_pos h, if_pos (by omega)]
  · rw [if_neg h, if_neg (by omega)]
@[simp] theorem Dio.getCell_modCellCh (d : Dio) (c : Nat) (f : DioCh → DioCh) (i : Nat) : (d.modCellCh c f).getCell i = d.getCell i := rfl

/-! Analogue channels, loop cells, grid-sense and shaft inputs. -/

@[simp] theorem Aio.getCh_setCh (d : Aio) (n : Nat) (c : AioCh) : (d.setCh n c).getCh n = c := Tbl.get_set_self _ _ _ _
theorem Aio.getCh_setCh_ne (d : Aio) {n i : Nat} (c : AioCh) (h : i ≠ n) : (d.setCh n c).getCh i = d.getCh i := Tbl.get_set_ne _ _ _ h
@[simp] theorem Aio.setCh_setCh (d : Aio) (n : Nat) (a b : AioCh) : (d.setCh n a).setCh n b = d.setCh n b := by simp [Aio.setCh]
@[simp] theorem Aio.getCell_setCell (d : Aio) (n : Nat) (c : LoopCell) : (d.setCell n c).getCell n = c := Tbl.get_set_self _ _ _ _
theorem Aio.getCell_setCell_ne (d : Aio) {n i : Nat} (c : LoopCell) (h : i ≠ n) : (d.setCell n c).getCell i = d.getCell i := Tbl.get_set_ne _ _ _ h
@[simp] theorem Aio.setCell_setCell (d : Aio) (n : Nat) (a b : LoopCell) : (d.setCell n a).setCell n b = d.setCell n b := by simp [Aio.setCell]
@[simp] theorem Aio.getGs_setGs (d : Aio) (n : Nat) (c : GridIn) : (d.setGs n c).getGs n = c := Tbl.get_set_self _ _ _ _
theorem Aio.getGs_setGs_ne (d : Aio) {n i : Nat} (c : GridIn) (h : i ≠ n) : (d.setGs n c).getGs i = d.getGs i := Tbl.get_set_ne _ _ _ h
@[simp] theorem Aio.setGs_setGs (d : Aio) (n : Nat) (a b : GridIn) : (d.setGs n a).setGs n b = d.setGs n b := by simp [Aio.setGs]
@[simp] theorem Aio.getSh_setSh (d : Aio) (n : Nat) (c : ShaftIn) : (d.setSh n c).getSh n = c := Tbl.get_set_self _ _ _ _
theorem Aio.getSh_setSh_ne (d : Aio) {n i : Nat} (c : ShaftIn) (h : i ≠ n) : (d.setSh n c).getSh i = d.getSh i := Tbl.get_set_ne _ _ _ h
@[simp] theorem Aio.setSh_setSh (d : Aio) (n : Nat) (a b : ShaftIn) : (d.setSh n a).setSh n b = d.setSh n b := by simp [Aio.setSh]
@[simp] theorem Aio.getCell_setCh (d : Aio) (n i : Nat) (c : AioCh) : (d.setCh n c).getCell i = d.getCell i := rfl
@[simp] theorem Aio.getCh_setCell (d : Aio) (n i : Nat) (c : LoopCell) : (d.setCell n c).getCh i = d.getCh i := rfl
@[simp] theorem Aio.setCh_setCell (d : Aio) (n i : Nat) (c : AioCh) (x : LoopCell) : (d.setCell i x).setCh n c = (d.setCh n c).setCell i x := rfl
theorem Aio.getCh_modCellCh (d : Aio) (c : Nat) (f : AioCh → AioCh) (n : Nat) :
    (d.modCellCh c f).getCh n = if n / 16 = c then f (d.getCh n) else d.getCh n := by
  unfold Aio.getCh Aio.modCellCh
  rw [Tbl.get_mapRange]
  by_cases h : n / 16 = c
  · rw [if_pos h, if_pos (by omega)]
  · rw [if_neg h, if_neg (by omega)]
@[simp] theorem Aio.getCell_modCellCh (d : Aio) (c : Nat) (f : AioCh → AioCh) (i : Nat) : (d.modCellCh c f).getCell i = d.getCell i := rfl

/-! Angle clocks, slots, ports and stream contexts. -/

@[simp] theorem TimeBlk.clock_setClock (t : TimeBlk) (n : Nat) (x : AngleClock) : (t.setClock n x).clock n = x := Tbl.get_set_self _ _ _ _
theorem TimeBlk.clock_setClock_ne (t : TimeBlk) {n i : Nat} (x : AngleClock) (h : i ≠ n) : (t.setClock n x).clock i = t.clock i :=
  Tbl.get_set_ne _ _ _ h
@[simp] theorem TimeBlk.setClock_setClock (t : TimeBlk) (n : Nat) (a b : AngleClock) : (t.setClock n a).setClock n b = t.setClock n b := by
  simp [TimeBlk.setClock]
@[simp] theorem TimeBlk.slot_setSlot (t : TimeBlk) (n : Nat) (x : AngleSlot) : (t.setSlot n x).slot n = x := Tbl.get_set_self _ _ _ _
theorem TimeBlk.slot_setSlot_ne (t : TimeBlk) {n i : Nat} (x : AngleSlot) (h : i ≠ n) : (t.setSlot n x).slot i = t.slot i :=
  Tbl.get_set_ne _ _ _ h
@[simp] theorem TimeBlk.setSlot_setSlot (t : TimeBlk) (n : Nat) (a b : AngleSlot) : (t.setSlot n a).setSlot n b = t.setSlot n b := by
  simp [TimeBlk.setSlot]
@[simp] theorem NetBlk.port_setPort (d : NetBlk) (n : Nat) (x : NetPort) : (d.setPort n x).port n = x := Tbl.get_set_self _ _ _ _
theorem NetBlk.port_setPort_ne (d : NetBlk) {n i : Nat} (x : NetPort) (h : i ≠ n) : (d.setPort n x).port i = d.port i := Tbl.get_set_ne _ _ _ h
@[simp] theorem NetBlk.ctx_setCtx (d : NetBlk) (n : Nat) (x : StreamCtx) : (d.setCtx n x).ctx n = x := Tbl.get_set_self _ _ _ _
theorem NetBlk.ctx_setCtx_ne (d : NetBlk) {n i : Nat} (x : StreamCtx) (h : i ≠ n) : (d.setCtx n x).ctx i = d.ctx i := Tbl.get_set_ne _ _ _ h
@[simp] theorem NetBlk.setCtx_setCtx (d : NetBlk) (n : Nat) (a b : StreamCtx) : (d.setCtx n a).setCtx n b = d.setCtx n b := by
  simp [NetBlk.setCtx]
@[simp] theorem NetBlk.setPort_setPort (d : NetBlk) (n : Nat) (a b : NetPort) : (d.setPort n a).setPort n b = d.setPort n b := by
  simp [NetBlk.setPort]

@[simp] theorem AxBlk.get_set (d : AxBlk) (a : Nat) (x : Axis) : (d.set a x).get a = x := Tbl.get_set_self _ _ _ _
theorem AxBlk.get_set_ne (d : AxBlk) {a i : Nat} (x : Axis) (h : i ≠ a) : (d.set a x).get i = d.get i := Tbl.get_set_ne _ _ _ h
@[simp] theorem AxBlk.set_set (d : AxBlk) (a : Nat) (x y : Axis) : (d.set a x).set a y = d.set a y := by simp [AxBlk.set]

/-! What an operation moves. -/


section
variable {s t u : State} {l : List Part} {m : List (Block × Nat)}
theorem Moves.refl (s : State) (l : List Part) (m : List (Block × Nat)) : Moves s s l m := ⟨rfl, .refl s m⟩
theorem Moves.trans (a : Moves s t l m) (b : Moves t u l m) : Moves s u l m := ⟨b.1.trans a.1, a.2.trans b.2⟩
theorem Moves.mono {l' : List Part} {m' : List (Block × Nat)} (a : Moves s t l m) (h : ∀ p ∈ l, p ∈ l') (k : ∀ e ∈ m, e ∈ m' ∨ e ∈ reportBits) :
    Moves s t l' m' := ⟨State.sans_mono a.1 h, a.2.mono k⟩
theorem Moves.foldl {α : Type} (f : State → α → State) (h : ∀ (s : State) (a : α), Moves s (f s a) l m) (x : List α) (s : State) :
    Moves s (x.foldl f s) l m := by
  induction x generalizing s with
  | nil => exact .refl s l m
  | cons a x ih => exact (h s a).trans (ih _)
theorem Moves.ite {c : Prop} [Decidable c] (a : Moves s t l m) (b : Moves s u l m) : Moves s (if c then t else u) l m := by
  split <;> assumption
/-- A change of plain fields. -/
theorem Moves.set (h : t.sans l = s.sans l := by simp [State.sans]) (e : t.event = s.event := by rfl) : Moves s t l m := ⟨h, .of_event e m⟩
theorem Moves.setEvent (a : Moves s t l m) (b : Block) (n : Nat) (h : n < 32) (k : (b, n) ∈ m) : Moves s (t.setEvent b n) l m :=
  a.trans ⟨by simp, (t.raises_setEvent b n h).may (by simp [k])⟩
theorem Moves.setEventIf (a : Moves s t l m) (c : Bool) (b : Block) (n : Nat) (h : n < 32) (k : (b, n) ∈ m) :
    Moves s (t.setEventIf c b n) l m := by
  unfold State.setEventIf; split
  · exact a.setEvent b n h k
  · exact a
theorem Moves.report (a : Moves s t l m) (b : Block) (n obj : Nat) (w : Word) (h : n < 32) (k : (b, n) ∈ m) : Moves s (t.report b n obj w) l m :=
  a.trans ⟨by simp, (t.raises_report b n obj w h).may (by simp [k])⟩
theorem Moves.recordEvent (a : Moves s t l m) (b : Block) (n obj : Nat) (w : Word) (h : n < 32) (k : (b, n) ∈ m) :
    Moves s (t.recordEvent b n obj w) l m := a.trans ⟨by simp, (t.raises_recordEvent b n obj w h).may (by simp [k])⟩
theorem Moves.note (a : Moves s t l m) (src code : Nat) (d : DWord) : Moves s (t.note src code d) l m :=
  a.trans ⟨by simp, (t.raises_note src code d).may (by simp)⟩
theorem Moves.finish (a : Moves s t l m) (o : Origin) (status detail : Nat) (h : .done ∈ l) : Moves s (t.finish o status detail) l m :=
  a.trans ⟨t.sans_finish l h o status detail, .of_event (by simp) m⟩
theorem Moves.passed (a : Moves s t l m) (o : Origin) (h : .done ∈ l) : Moves s (t.passed o) l m :=
  a.trans ⟨t.sans_passed l h o, .of_event (by simp) m⟩
theorem Moves.changes {i : Instr} (h : exec i s = .next t) (a : Moves s t l m) : Changes i s t l m := ⟨h, a.1, a.2⟩
end

theorem State.moves_dioRaise (s : State) (n : Nat) (x : DioDiag) : Moves s (s.dioRaise n x) [.dio] [(.dio, x.bit)] := by
  unfold State.dioRaise
  split
  · exact .refl _ _ _
  · exact (Moves.set (t := { s with dio := s.dio.modCh n (DioCh.raise x) })).report _ _ _ _ (by cases x <;> decide) (by simp)
/-- A channel after a diagnostic is raised on one. -/
theorem State.getCh_dioRaise (s : State) (n i : Nat) (x : DioDiag) :
    (s.dioRaise n x).dio.getCh i = if i = n then DioCh.raise x (s.dio.getCh n) else s.dio.getCh i := by
  unfold State.dioRaise
  split
  · rename_i h
    by_cases hi : i = n
    · subst hi; simp only [DioCh.raise, h, if_true]
    · simp [hi]
  · simp only [State.dio_report, Dio.modCh]
    by_cases hi : i = n
    · subst hi; simp
    · simp [hi, Dio.getCh_setCh_ne _ _ hi]
@[simp] theorem State.cell_dioRaise (s : State) (n : Nat) (x : DioDiag) : (s.dioRaise n x).dio.cell = s.dio.cell := by
  unfold State.dioRaise
  split
  · rfl
  · simp only [State.dio_report]; rfl
@[simp] theorem DioCh.mem_raise (x : DioDiag) (c : DioCh) : x ∈ (DioCh.raise x c).active := by
  unfold DioCh.raise; split
  · rename_i h; simpa using h
  · simp

theorem State.moves_aioRaise (s : State) (n : Nat) (x : AioDiag) : Moves s (s.aioRaise n x) [.aio] [(.aio, x.bit)] := by
  unfold State.aioRaise
  split
  · exact .refl _ _ _
  · exact (Moves.set (t := { s with aio := s.aio.modCh n (AioCh.raise x) })).report _ _ _ _ (by cases x <;> decide) (by simp)
/-- A channel after a diagnostic is raised on one. -/
theorem State.getCh_aioRaise (s : State) (n i : Nat) (x : AioDiag) :
    (s.aioRaise n x).aio.getCh i = if i = n then AioCh.raise x (s.aio.getCh n) else s.aio.getCh i := by
  unfold State.aioRaise
  split
  · rename_i h
    by_cases hi : i = n
    · subst hi; simp only [AioCh.raise, h, if_true]
    · simp [hi]
  · simp only [State.aio_report, Aio.modCh]
    by_cases hi : i = n
    · subst hi; simp
    · simp [hi, Aio.getCh_setCh_ne _ _ hi]
@[simp] theorem AioCh.mem_raise (x : AioDiag) (c : AioCh) : x ∈ (AioCh.raise x c).active := by
  unfold AioCh.raise; split
  · rename_i h; simpa using h
  · simp

/-! The next state of a command. -/

theorem RunsTo.mk {i : Instr} {s u : State} {l : List (Block × Nat)} (t : State) (h : exec i s = .next t) (b : t.bare = u.bare)
    (r : s.Raises t l) : RunsTo i s u l := ⟨t, h, b, r⟩
/-- A command that reports nothing. -/
theorem RunsTo.quiet {i : Instr} {s u : State} (h : exec i s = .next u) (e : u.event = s.event) : RunsTo i s u [] :=
  ⟨u, h, rfl, .of_event e⟩
theorem EndsTo.mk {i : Instr} {s u : State} {l : List (Block × Nat)} (t : State) (h : exec i s = .next t) (b : t.sans [.done] = u.sans [.done])
    (r : s.Raises t l) : EndsTo i s u l := ⟨t, h, b, r⟩

/-- What an operation raises counts from a state with the same EVENT registers. -/
theorem State.Raises.from {s s' t : State} {l : List (Block × Nat)} (r : s'.Raises t l) (e : s'.event = s.event) : s.Raises t l :=
  (State.Raises.of_event e).trans r
theorem State.Raises.setEvent {s t : State} {l : List (Block × Nat)} (r : s.Raises t l) (b : Block) (n : Nat) (h : n < 32) :
    s.Raises (t.setEvent b n) (l ++ [(b, n)]) := r.trans (t.raises_setEvent b n h)
theorem State.Raises.report {s t : State} {l : List (Block × Nat)} (r : s.Raises t l) (b : Block) (n obj : Nat) (w : Word) (h : n < 32) :
    s.Raises (t.report b n obj w) (l ++ [(b, n)]) := r.trans (t.raises_report b n obj w h)
theorem State.Raises.recordEvent {s t : State} {l : List (Block × Nat)} (r : s.Raises t l) (b : Block) (n obj : Nat) (w : Word) (h : n < 32) :
    s.Raises (t.recordEvent b n obj w) (l ++ [(b, n)]) := r.trans (t.raises_recordEvent b n obj w h)
theorem State.Raises.note {s t : State} {l : List (Block × Nat)} (r : s.Raises t l) (src code : Nat) (d : DWord) :
    s.Raises (t.note src code d) l := by simpa using r.trans (t.raises_note src code d)

end Sys2Proof.Machine
end

