-- ==== Sys2Proof/Laws/Safety.lean ====
section
/-! SUPPORT. Laws/Safety.lean: what the settling of the safety cell can do, and what the evaluation of its functions leaves alone. -/
set_option Elab.async false
namespace Sys2Proof.Machine

@[simp] theorem Safe.getFn_setFn (x : Safe) (f : Nat) (v : FnState) : (x.setFn f v).getFn f = v := Tbl.get_set_self _ _ _ _
theorem Safe.getFn_setFn_ne (x : Safe) {f g : Nat} (v : FnState) (h : g ≠ f) : (x.setFn f v).getFn g = x.getFn g := Tbl.get_set_ne _ _ _ h
@[simp] theorem Safe.getSo_setSo (x : Safe) (n : Nat) (v : So) : (x.setSo n v).getSo n = v := Tbl.get_set_self _ _ _ _
theorem Safe.getSo_setSo_ne (x : Safe) {n m : Nat} (v : So) (h : m ≠ n) : (x.setSo n v).getSo m = x.getSo m := Tbl.get_set_ne _ _ _ h
@[simp] theorem Safe.getSip_setSip (x : Safe) (p : Nat) (v : SipPair) : (x.setSip p v).getSip p = v := Tbl.get_set_self _ _ _ _
theorem Safe.getSip_setSip_ne (x : Safe) {p q : Nat} (v : SipPair) (h : q ≠ p) : (x.setSip p v).getSip q = x.getSip q := Tbl.get_set_ne _ _ _ h

theorem FnState.of_untimed {α : Type} (p : FnState → α) (hp : ∀ v, p v.untimed = p v) {v w : FnState} (h : v.untimed = w.untimed) : p v = p w := by
  rw [← hp v, h, hp]
theorem Settled.refl (x : Safe) : Settled x x := ⟨rfl, fun _ => rfl, fun _ => rfl, fun _ => Or.inl rfl, fun _ => Or.inl rfl⟩
theorem Settled.trans {x y z : Safe} (a : Settled x y) (b : Settled y z) : Settled x z := by
  refine ⟨?_, fun n => ?_, fun f => (b.fn f).trans (a.fn f), fun n => ?_, fun n => ?_⟩
  · rw [b.rest, a.rest]
  · rw [b.so n, a.so n]
  · rcases b.test n with h | h
    · rw [h]; exact a.test n
    · exact Or.inr h
  · rcases b.held n with h | h
    · rw [h]; exact a.held n
    · exact Or.inr h
theorem Safe.getSo_modSo (x : Safe) (n m : Nat) (g : So → So) : (x.modSo n g).getSo m = if m = n then g (x.getSo n) else x.getSo m := by
  by_cases e : m = n
  · subst e; simp [Safe.modSo]
  · simp [Safe.modSo, Safe.getSo_setSo_ne _ _ e, e]
theorem Safe.getFn_modFn (x : Safe) (f g : Nat) (h : FnState → FnState) : (x.modFn f h).getFn g = if g = f then h (x.getFn f) else x.getFn g := by
  by_cases e : g = f
  · subst e; simp [Safe.modFn]
  · simp [Safe.modFn, Safe.getFn_setFn_ne _ _ e, e]
/-- One output loses its test or its hold, and its times change. -/
theorem Settled.mod (x : Safe) (n : Nat) (g : So → So)
    (h : ∀ o, g o = { o with test := (g o).test, held := (g o).held, onNs := (g o).onNs, openNs := (g o).openNs } ∧
      ((g o).test = o.test ∨ (g o).test = none) ∧ ((g o).held = o.held ∨ (g o).held = false)) : Settled x (x.modSo n g) := by
  refine ⟨rfl, fun m => ?_, fun _ => rfl, fun m => ?_, fun m => ?_⟩ <;> rw [Safe.getSo_modSo] <;> by_cases e : m = n <;> simp only [e, if_true, if_false]
  · exact (h _).1
  · exact (h _).2.1
  · exact Or.inl trivial
  · exact (h _).2.2
  · exact Or.inl trivial
theorem Safe.settled_settleSo (old : Safe) (now : Nat) (x : Safe) (n : Nat) : Settled x (Safe.settleSo old now x n) := by
  unfold Safe.settleSo
  extract_lets pre z y on shut
  have a : Settled x y := by
    simp only [y]; split
    · have b := Settled.mod x n (fun o => { o with test := none }) (fun o => ⟨rfl, Or.inr rfl, Or.inl rfl⟩)
      exact ⟨rfl, b.so, b.fn, b.test, b.held⟩
    · exact .refl x
  refine a.trans (Settled.mod y n _ (fun o => ⟨rfl, Or.inl rfl, ?_⟩))
  cases on.isSome <;> simp
/-- All that settling can do. -/
theorem Safe.settled_settle (old : Safe) (now : Nat) (x : Safe) : Settled x (Safe.settle old now x) := by
  have k : ∀ (l : List Nat) (x : Safe), Settled x (l.foldl (Safe.settleSo old now) x) := by
    intro l; induction l with
    | nil => exact .refl
    | cons a l ih => intro x; exact (Safe.settled_settleSo old now x a).trans (ih _)
  have m : ∀ (l : List (Nat × FnEntry)) (y : Safe), Settled y (l.foldl (fun y e => y.modFn e.1 (y.timeFn now e.2)) y) := by
    intro l; induction l with
    | nil => exact .refl
    | cons a l ih =>
      intro y
      refine Settled.trans (y := y.modFn a.1 (y.timeFn now a.2))
        ⟨rfl, fun _ => rfl, fun f => ?_, fun _ => Or.inl rfl, fun _ => Or.inl rfl⟩ (ih _)
      rw [Safe.getFn_modFn]; split
      · rename_i e; subst e; rfl
      · rfl
  unfold Safe.settle
  exact (k _ x).trans (m _ _)
theorem State.settled_setSafe (s : State) (x : Safe) : Settled x (s.setSafe x).safe := by
  simp only [State.setSafe]; exact Safe.settled_settle _ _ x
@[simp] theorem State.event_setSafe (s : State) (x : Safe) : (s.setSafe x).event = s.event := by simp only [State.setSafe]
theorem State.moves_setSafe (s : State) (x : Safe) (m : List (Block × Nat)) : Moves s (s.setSafe x) [.safe] m :=
  .set (by simp [State.sans, State.setSafe]) (State.event_setSafe s x)

@[simp] theorem State.pairs_setSafe (s : State) (x : Safe) : (s.setSafe x).safe.pairs = x.pairs := by rw [(s.settled_setSafe x).rest]
@[simp] theorem State.fns_setSafe (s : State) (x : Safe) : (s.setSafe x).safe.fns = x.fns := by rw [(s.settled_setSafe x).rest]
@[simp] theorem State.laneH_setSafe (s : State) (x : Safe) : (s.setSafe x).safe.laneH = x.laneH := by rw [(s.settled_setSafe x).rest]
@[simp] theorem State.id_setSafe (s : State) (x : Safe) : (s.setSafe x).safe.id = x.id := by rw [(s.settled_setSafe x).rest]
@[simp] theorem State.idOk_setSafe (s : State) (x : Safe) : (s.setSafe x).safe.idOk = x.idOk := by rw [(s.settled_setSafe x).rest]
@[simp] theorem State.laneP_setSafe (s : State) (x : Safe) : (s.setSafe x).safe.laneP = x.laneP := by rw [(s.settled_setSafe x).rest]
@[simp] theorem State.laneHOk_setSafe (s : State) (x : Safe) : (s.setSafe x).safe.laneHOk = x.laneHOk := by rw [(s.settled_setSafe x).rest]
@[simp] theorem State.cellPower_setSafe (s : State) (x : Safe) : (s.setSafe x).safe.cellPower = x.cellPower := by rw [(s.settled_setSafe x).rest]
@[simp] theorem State.lsOk_setSafe (s : State) (x : Safe) : (s.setSafe x).safe.lsOk = x.lsOk := by rw [(s.settled_setSafe x).rest]
@[simp] theorem State.lsLow12_setSafe (s : State) (x : Safe) : (s.setSafe x).safe.lsLow12 = x.lsLow12 := by rw [(s.settled_setSafe x).rest]
@[simp] theorem State.armed_setSafe (s : State) (x : Safe) : (s.setSafe x).safe.armed = x.armed := by rw [(s.settled_setSafe x).rest]
@[simp] theorem State.xtlIn_setSafe (s : State) (x : Safe) : (s.setSafe x).safe.xtlIn = x.xtlIn := by rw [(s.settled_setSafe x).rest]
@[simp] theorem State.sip_setSafe (s : State) (x : Safe) : (s.setSafe x).safe.sip = x.sip := by rw [(s.settled_setSafe x).rest]
@[simp] theorem State.fb_setSafe (s : State) (x : Safe) : (s.setSafe x).safe.fb = x.fb := by rw [(s.settled_setSafe x).rest]
@[simp] theorem State.seated_setSafe (s : State) (x : Safe) : (s.setSafe x).safe.seated = x.seated := by rw [(s.settled_setSafe x).rest]
@[simp] theorem State.pFaultNs_setSafe (s : State) (x : Safe) : (s.setSafe x).safe.pFaultNs = x.pFaultNs := by rw [(s.settled_setSafe x).rest]
@[simp] theorem State.tripCnt_setSafe (s : State) (x : Safe) : (s.setSafe x).safe.tripCnt = x.tripCnt := by rw [(s.settled_setSafe x).rest]
@[simp] theorem State.discCnt_setSafe (s : State) (x : Safe) : (s.setSafe x).safe.discCnt = x.discCnt := by rw [(s.settled_setSafe x).rest]
@[simp] theorem State.failed_setSafe (s : State) (x : Safe) : (s.setSafe x).safe.failed = x.failed := by rw [(s.settled_setSafe x).rest]
@[simp] theorem State.eventEn_setSafe_of (s : State) (x : Safe) : (s.setSafe x).eventEn = s.eventEn := by simp only [State.setSafe]
@[simp] theorem State.mod_setSafe_of (s : State) (x : Safe) : (s.setSafe x).mod = s.mod := by simp only [State.setSafe]
@[simp] theorem State.mnt_setSafe_of (s : State) (x : Safe) : (s.setSafe x).mnt = s.mnt := by simp only [State.setSafe]
@[simp] theorem State.recorder_setSafe_of (s : State) (x : Safe) : (s.setSafe x).recorder = s.recorder := by simp only [State.setSafe]
@[simp] theorem State.host_setSafe_of (s : State) (x : Safe) : (s.setSafe x).host = s.host := by simp only [State.setSafe]
@[simp] theorem State.time_setSafe_of (s : State) (x : Safe) : (s.setSafe x).time = s.time := by simp only [State.setSafe]
@[simp] theorem State.dio_setSafe_of (s : State) (x : Safe) : (s.setSafe x).dio = s.dio := by simp only [State.setSafe]
@[simp] theorem State.aio_setSafe_of (s : State) (x : Safe) : (s.setSafe x).aio = s.aio := by simp only [State.setSafe]
@[simp] theorem State.ax_setSafe_of (s : State) (x : Safe) : (s.setSafe x).ax = s.ax := by simp only [State.setSafe]
@[simp] theorem State.pnl_setSafe_of (s : State) (x : Safe) : (s.setSafe x).pnl = s.pnl := by simp only [State.setSafe]
@[simp] theorem State.net_setSafe_of (s : State) (x : Safe) : (s.setSafe x).net = s.net := by simp only [State.setSafe]
@[simp] theorem State.cyc_setSafe_of (s : State) (x : Safe) : (s.setSafe x).cyc = s.cyc := by simp only [State.setSafe]
@[simp] theorem State.fab_setSafe_of (s : State) (x : Safe) : (s.setSafe x).fab = s.fab := by simp only [State.setSafe]
@[simp] theorem State.twin_setSafe_of (s : State) (x : Safe) : (s.setSafe x).twin = s.twin := by simp only [State.setSafe]
@[simp] theorem State.xch_setSafe_of (s : State) (x : Safe) : (s.setSafe x).xch = s.xch := by simp only [State.setSafe]
@[simp] theorem State.cfg_setSafe_of (s : State) (x : Safe) : (s.setSafe x).cfg = s.cfg := by simp only [State.setSafe]
@[simp] theorem State.pending_setSafe_of (s : State) (x : Safe) : (s.setSafe x).pending = s.pending := by simp only [State.setSafe]
@[simp] theorem State.fn_setSafe (s : State) (x : Safe) (f : Nat) : ((s.setSafe x).safe.getFn f).untimed = (x.getFn f).untimed :=
  (s.settled_setSafe x).fn f
@[simp] theorem State.fnPhase_setSafe (s : State) (x : Safe) (f : Nat) : ((s.setSafe x).safe.getFn f).phase = (x.getFn f).phase :=
  FnState.of_untimed FnState.phase (fun _ => rfl) (s.fn_setSafe x f)
@[simp] theorem State.fnCause_setSafe (s : State) (x : Safe) (f : Nat) : ((s.setSafe x).safe.getFn f).cause = (x.getFn f).cause :=
  FnState.of_untimed FnState.cause (fun _ => rfl) (s.fn_setSafe x f)
@[simp] theorem State.fnFaults_setSafe (s : State) (x : Safe) (f : Nat) : ((s.setSafe x).safe.getFn f).faults = (x.getFn f).faults :=
  FnState.of_untimed FnState.faults (fun _ => rfl) (s.fn_setSafe x f)
@[simp] theorem State.fnRunning_setSafe (s : State) (x : Safe) (f : Nat) : ((s.setSafe x).safe.getFn f).running = (x.getFn f).running :=
  FnState.of_untimed FnState.running (fun _ => rfl) (s.fn_setSafe x f)
@[simp] theorem State.fnResult_setSafe (s : State) (x : Safe) (f : Nat) : ((s.setSafe x).safe.getFn f).result = (x.getFn f).result :=
  FnState.of_untimed FnState.result (fun _ => rfl) (s.fn_setSafe x f)
@[simp] theorem State.fnDue_setSafe (s : State) (x : Safe) (f : Nat) : ((s.setSafe x).safe.getFn f).due = (x.getFn f).due :=
  FnState.of_untimed FnState.due (fun _ => rfl) (s.fn_setSafe x f)
@[simp] theorem State.fnLastPass_setSafe (s : State) (x : Safe) (f : Nat) : ((s.setSafe x).safe.getFn f).lastPass = (x.getFn f).lastPass :=
  FnState.of_untimed FnState.lastPass (fun _ => rfl) (s.fn_setSafe x f)
@[simp] theorem State.fnSlip_setSafe (s : State) (x : Safe) (f : Nat) : ((s.setSafe x).safe.getFn f).slip = (x.getFn f).slip :=
  FnState.of_untimed FnState.slip (fun _ => rfl) (s.fn_setSafe x f)
@[simp] theorem State.fnTestNo_setSafe (s : State) (x : Safe) (f : Nat) : ((s.setSafe x).safe.getFn f).testNo = (x.getFn f).testNo :=
  FnState.of_untimed FnState.testNo (fun _ => rfl) (s.fn_setSafe x f)
@[simp] theorem State.fnStartPos_setSafe (s : State) (x : Safe) (f : Nat) : ((s.setSafe x).safe.getFn f).startPos = (x.getFn f).startPos :=
  FnState.of_untimed FnState.startPos (fun _ => rfl) (s.fn_setSafe x f)
@[simp] theorem State.fnStartCnt_setSafe (s : State) (x : Safe) (f : Nat) : ((s.setSafe x).safe.getFn f).startCnt = (x.getFn f).startCnt :=
  FnState.of_untimed FnState.startCnt (fun _ => rfl) (s.fn_setSafe x f)
@[simp] theorem State.fnStartNs_setSafe (s : State) (x : Safe) (f : Nat) : ((s.setSafe x).safe.getFn f).startNs = (x.getFn f).startNs :=
  FnState.of_untimed FnState.startNs (fun _ => rfl) (s.fn_setSafe x f)
@[simp] theorem State.fnTimingNs_setSafe (s : State) (x : Safe) (f : Nat) : ((s.setSafe x).safe.getFn f).timingNs = (x.getFn f).timingNs :=
  FnState.of_untimed FnState.timingNs (fun _ => rfl) (s.fn_setSafe x f)
@[simp] theorem State.fnAbort_setSafe (s : State) (x : Safe) (f : Nat) : ((s.setSafe x).safe.getFn f).abort = (x.getFn f).abort :=
  FnState.of_untimed FnState.abort (fun _ => rfl) (s.fn_setSafe x f)
@[simp] theorem State.fnPermit_setSafe (s : State) (x : Safe) (f : Nat) : ((s.setSafe x).safe.getFn f).permit = (x.getFn f).permit :=
  FnState.of_untimed FnState.permit (fun _ => rfl) (s.fn_setSafe x f)
@[simp] theorem State.fnRequest_setSafe (s : State) (x : Safe) (f : Nat) : ((s.setSafe x).safe.getFn f).request = (x.getFn f).request :=
  FnState.of_untimed FnState.request (fun _ => rfl) (s.fn_setSafe x f)
@[simp] theorem State.fnAsked_setSafe (s : State) (x : Safe) (f : Nat) : ((s.setSafe x).safe.getFn f).asked = (x.getFn f).asked :=
  FnState.of_untimed FnState.asked (fun _ => rfl) (s.fn_setSafe x f)
@[simp] theorem State.getSip_setSafe (s : State) (x : Safe) (p : Nat) : (s.setSafe x).safe.getSip p = x.getSip p := by simp [Safe.getSip]
@[simp] theorem State.getFb_setSafe (s : State) (x : Safe) (n : Nat) : (s.setSafe x).safe.getFb n = x.getFb n := by simp [Safe.getFb]
@[simp] theorem State.entry_setSafe (s : State) (x : Safe) (f : Nat) : (s.setSafe x).safe.entry f = x.entry f := by simp [Safe.entry]
@[simp] theorem State.valid_setSafe (s : State) (x : Safe) : (s.setSafe x).safe.valid = x.valid := by simp [Safe.valid]

/-! Loops that write one table of the cell. -/

theorem Safe.foldl_so {α : Type} (g : Safe → α → Safe) (h : ∀ (x : Safe) (a : α), ∃ y, g x a = { x with so := y }) (l : List α) (x : Safe) :
    ∃ y, l.foldl g x = { x with so := y } := by
  induction l generalizing x with
  | nil => exact ⟨x.so, rfl⟩
  | cons a l ih =>
    obtain ⟨y, hy⟩ := h x a
    obtain ⟨z, hz⟩ := ih (g x a)
    exact ⟨z, by rw [List.foldl_cons, hz, hy]⟩
theorem Safe.foldl_sip {α : Type} (g : Safe → α → Safe) (h : ∀ (x : Safe) (a : α), ∃ y, g x a = { x with sip := y }) (l : List α) (x : Safe) :
    ∃ y, l.foldl g x = { x with sip := y } := by
  induction l generalizing x with
  | nil => exact ⟨x.sip, rfl⟩
  | cons a l ih =>
    obtain ⟨y, hy⟩ := h x a
    obtain ⟨z, hz⟩ := ih (g x a)
    exact ⟨z, by rw [List.foldl_cons, hz, hy]⟩
theorem Safe.foldl_fn {α : Type} (g : Safe → α → Safe) (h : ∀ (x : Safe) (a : α), ∃ y, g x a = { x with fn := y }) (l : List α) (x : Safe) :
    ∃ y, l.foldl g x = { x with fn := y } := by
  induction l generalizing x with
  | nil => exact ⟨x.fn, rfl⟩
  | cons a l ih =>
    obtain ⟨y, hy⟩ := h x a
    obtain ⟨z, hz⟩ := ih (g x a)
    exact ⟨z, by rw [List.foldl_cons, hz, hy]⟩
theorem Safe.startDelays_so (x : Safe) (now p : Nat) : ∃ y, x.startDelays now p = { x with so := y } := by
  have k : ∀ (c : Bool) (x y : Safe) (b : Tbl So), y = { x with so := b } → ∃ z, (if c then y else x) = { x with so := z } := by
    intro c x y b h; cases c
    · exact ⟨x.so, rfl⟩
    · exact ⟨b, h⟩
  exact Safe.foldl_so _ (fun x n => k _ _ _ _ rfl) _ _
/-- A pair after every pair of a list has been changed in a way that is done once and for all. -/
theorem Safe.getSip_foldl (g : SipPair → SipPair) (h : ∀ v, g (g v) = g v) (l : List Nat) (x : Safe) (p : Nat) :
    (l.foldl (fun x p => x.modSip p g) x).getSip p = if p ∈ l then g (x.getSip p) else x.getSip p := by
  induction l generalizing x with
  | nil => simp
  | cons a l ih =>
    rw [List.foldl_cons, ih]
    by_cases e : p = a
    · subst e; simp [Safe.modSip, h]
    · simp [Safe.modSip, Safe.getSip_setSip_ne _ _ e, e]

/-! Functions: what the demand of a function rests on, no function changes. -/

/-- The two cells agree on everything but functions, outputs and counts. -/
def SameInputs (x y : Safe) : Prop :=
  { y with fn := x.fn, so := x.so, tripCnt := x.tripCnt, preempted := x.preempted } = x
theorem SameInputs.refl (x : Safe) : SameInputs x x := rfl
theorem SameInputs.trans {x y z : Safe} (a : SameInputs x y) (b : SameInputs y z) : SameInputs x z := by
  unfold SameInputs at *; cases x; cases y; cases z; simp_all
theorem SameInputs.settled {x y z : Safe} (a : SameInputs x y) (b : Settled y z) : SameInputs x z := by
  unfold SameInputs at *; rw [b.rest]; exact a
theorem SameInputs.valid {x y : Safe} (h : SameInputs x y) : y.valid = x.valid := by rw [← h]; rfl
theorem SameInputs.entry {x y : Safe} (h : SameInputs x y) (f : Nat) : y.entry f = x.entry f := by rw [← h]; rfl
theorem SameInputs.fnDemand {x y : Safe} (h : SameInputs x y) (e : FnEntry) : y.fnDemand e = x.fnDemand e := by rw [← h]; rfl
theorem SameInputs.laneP {x y : Safe} (h : SameInputs x y) : y.laneP = x.laneP := by rw [← h]
theorem SameInputs.laneHOk {x y : Safe} (h : SameInputs x y) : y.laneHOk = x.laneHOk := by rw [← h]
theorem SameInputs.lsOk {x y : Safe} (h : SameInputs x y) : y.lsOk = x.lsOk := by rw [← h]
theorem SameInputs.lsLow12 {x y : Safe} (h : SameInputs x y) : y.lsLow12 = x.lsLow12 := by rw [← h]
theorem SameInputs.cellPower {x y : Safe} (h : SameInputs x y) : y.cellPower = x.cellPower := by rw [← h]
theorem SameInputs.idOk {x y : Safe} (h : SameInputs x y) : y.idOk = x.idOk := by rw [← h]
theorem SameInputs.sip {x y : Safe} (h : SameInputs x y) : y.sip = x.sip := by rw [← h]
theorem SameInputs.fb {x y : Safe} (h : SameInputs x y) : y.fb = x.fb := by rw [← h]
theorem SameInputs.laneH {x y : Safe} (h : SameInputs x y) : y.laneH = x.laneH := by rw [← h]
theorem SameInputs.pairs {x y : Safe} (h : SameInputs x y) : y.pairs = x.pairs := by rw [← h]
theorem SameInputs.armed {x y : Safe} (h : SameInputs x y) : y.armed = x.armed := by rw [← h]
theorem SameInputs.xtlIn {x y : Safe} (h : SameInputs x y) : y.xtlIn = x.xtlIn := by rw [← h]
theorem SameInputs.discCnt {x y : Safe} (h : SameInputs x y) : y.discCnt = x.discCnt := by rw [← h]
theorem SameInputs.getSip {x y : Safe} (h : SameInputs x y) (p : Nat) : y.getSip p = x.getSip p := by rw [← h]; rfl
theorem SameInputs.demandH {x y : Safe} (h : SameInputs x y) (p : Nat) : y.demandH p = x.demandH p := by rw [← h]; rfl

theorem State.same_setSafe_modFn (s : State) (f : Nat) (g : FnState → FnState) : SameInputs s.safe (s.setSafe (s.safe.modFn f g)).safe :=
  SameInputs.settled (y := s.safe.modFn f g) rfl (s.settled_setSafe _)
theorem State.same_fnTrip (s : State) (f : Nat) (c : FnCause) : SameInputs s.safe (s.fnTrip f c).safe := by
  unfold State.fnTrip; dsimp only; rw [State.safe_recordEvent]
  exact SameInputs.settled (y := { s.safe.modFn f (fun v => { v with phase := .demanded, cause := c }) with tripCnt := Bits.inc s.safe.tripCnt }) rfl (s.settled_setSafe _)
theorem State.fn_fnTrip (s : State) (f g : Nat) (c : FnCause) :
    ((s.fnTrip f c).safe.getFn g).untimed = if g = f then { (s.safe.getFn f).untimed with phase := .demanded, cause := c } else (s.safe.getFn g).untimed := by
  unfold State.fnTrip; dsimp only; rw [State.safe_recordEvent, State.fn_setSafe]
  by_cases h : g = f
  · subst h; simp [Safe.modFn, Safe.getFn, Safe.setFn, FnState.untimed]
  · simp [Safe.modFn, Safe.getFn, Safe.setFn, Tbl.get_set_ne, h]
@[simp] theorem State.phase_fnTrip (s : State) (f g : Nat) (c : FnCause) :
    ((s.fnTrip f c).safe.getFn g).phase = if g = f then .demanded else (s.safe.getFn g).phase := by
  rw [FnState.of_untimed (v := (s.fnTrip f c).safe.getFn g) (w := if g = f then { s.safe.getFn f with phase := .demanded, cause := c } else s.safe.getFn g)
    FnState.phase (fun _ => rfl) (by rw [State.fn_fnTrip]; split <;> rfl)]
  split <;> rfl
theorem State.moves_fnTrip (s : State) (f : Nat) (c : FnCause) : Moves s (s.fnTrip f c) [.safe] [(.safe, 0)] := by
  unfold State.fnTrip; dsimp only
  exact (s.moves_setSafe _ _).recordEvent _ _ _ _ (by decide) (by simp)
theorem State.moves_fnDemand (s : State) (f : Nat) (c : FnCause) : Moves s (s.fnDemand f c) [.safe] [(.safe, 0)] := by
  unfold State.fnDemand; split
  · split
    · exact s.moves_setSafe _ _
    · exact s.moves_fnTrip f c
  · exact s.moves_fnTrip f c
  · exact .refl _ _ _
theorem State.same_fnDemand (s : State) (f : Nat) (c : FnCause) : SameInputs s.safe (s.fnDemand f c).safe := by
  unfold State.fnDemand; split
  · split
    · exact s.same_setSafe_modFn _ _
    · exact s.same_fnTrip f c
  · exact s.same_fnTrip f c
  · exact .refl _
theorem State.moves_evalDemands (s : State) : Moves s s.evalDemands [.safe] [(.safe, 0)] := by
  unfold State.evalDemands; split
  · exact .refl _ _ _
  · refine Moves.foldl _ (fun s a => ?_) _ _
    split
    · exact s.moves_fnDemand _ _
    · exact .refl _ _ _
theorem State.moves_brakeAbort (s : State) (f : Nat) (why : BrakeEnd) (slip : Word) : Moves s (s.brakeAbort f why slip) [.safe] [(.safe, 5)] := by
  unfold State.brakeAbort; split
  · exact (s.moves_setSafe _ _).recordEvent _ _ _ _ (by decide) (by simp)
  · exact .refl _ _ _
theorem State.moves_fnActive (s : State) (f : Nat) : Moves s (s.fnActive f) [.safe] [(.safe, 5)] := by
  unfold State.fnActive; exact (s.moves_brakeAbort f _ _).trans (State.moves_setSafe _ _ _)
theorem State.moves_fnWithdraw (s : State) (f : Nat) (e : FnEntry) : Moves s (s.fnWithdraw f e) [.safe] [(.safe, 5)] := by
  unfold State.fnWithdraw; repeat' split
  · exact .refl _ _ _
  · exact s.moves_setSafe _ _
  · exact .refl _ _ _
  · exact s.moves_fnActive f
theorem State.moves_evalWithdrawn (s : State) : Moves s s.evalWithdrawn [.safe] [(.safe, 5)] := by
  unfold State.evalWithdrawn; split
  · exact .refl _ _ _
  · exact Moves.foldl _ (fun s a => s.moves_fnWithdraw _ _) _ _
theorem State.moves_fnFault (s : State) (f : Nat) (c : FnCause) (m : List (Block × Nat)) : Moves s (s.fnFault f c) [.safe] m := by
  unfold State.fnFault; split
  · exact .refl _ _ _
  · exact s.moves_setSafe _ _
theorem State.moves_fnClear (s : State) (f : Nat) (c : FnCause) (m : List (Block × Nat)) : Moves s (s.fnClear f c) [.safe] m := by
  unfold State.fnClear; dsimp only; split
  · exact s.moves_setSafe _ _
  · exact .refl _ _ _
theorem State.moves_fnFaultAll (s : State) (g : FnEntry → Bool) (c : FnCause) (m : List (Block × Nat)) : Moves s (s.fnFaultAll g c) [.safe] m :=
  Moves.foldl _ (fun s _ => s.moves_fnFault _ _ m) _ _
theorem State.moves_fnClearAll (s : State) (g : FnEntry → Bool) (c : FnCause) (m : List (Block × Nat)) : Moves s (s.fnClearAll g c) [.safe] m :=
  Moves.foldl _ (fun s _ => s.moves_fnClear _ _ m) _ _
theorem State.moves_soRaise (s : State) (n : Nat) (d : SoDiag) : Moves s (s.soRaise n d) [.safe] [(.safe, d.bit)] := by
  unfold State.soRaise; dsimp only; split
  · exact .refl _ _ _
  · exact (s.moves_setSafe _ _).report _ _ _ _ (by cases d <;> decide) (by simp)

/-- A function in the phase of a demand stays in it while demands are taken. -/
theorem State.demanded_fnDemand (s : State) (f g : Nat) (c : FnCause) (h : (s.safe.getFn f).phase = .demanded) :
    ((s.fnDemand g c).safe.getFn f).phase = .demanded := by
  unfold State.fnDemand
  split
  · rename_i k
    have ne : f ≠ g := fun e => by subst e; rw [h] at k; cases k
    split
    · simp [Safe.modFn, Safe.getFn_setFn_ne _ _ ne, h]
    · simp [ne, h]
  · rw [State.phase_fnTrip]; split
    · rfl
    · exact h
  · exact h

/-- A demand takes an ACTIVE or AWAIT_RESET function that it concerns to DEMANDED, a timed stop's apart (10 R303). -/
theorem State.evalDemands_trips (s : State) (f : Nat) (e : FnEntry) (h : s.safe.laneP = true) (hm : (f, e) ∈ s.safe.valid)
    (hd : (s.safe.fnDemand e).isSome = true) (ht : (s.safe.entry f).type ≠ .timedStop)
    (hp : (s.safe.getFn f).phase = .active ∨ (s.safe.getFn f).phase = .awaitReset ∨ (s.safe.getFn f).phase = .demanded) :
    ((s.evalDemands).safe.getFn f).phase = .demanded := by
  unfold State.evalDemands
  simp only [h, Bool.not_true, Bool.false_eq_true, if_false]
  generalize s.safe.valid = l at hm
  induction l generalizing s with
  | nil => cases hm
  | cons a l ih =>
    rw [List.foldl_cons]
    have key : ∀ (u : State) (b : Nat × FnEntry) (c : FnCause), SameInputs u.safe (u.fnDemand b.1 c).safe ∧
        (((u.safe.getFn f).phase = .active ∨ (u.safe.getFn f).phase = .awaitReset ∨ (u.safe.getFn f).phase = .demanded) → (u.safe.entry f).type ≠ .timedStop →
          (((u.fnDemand b.1 c).safe.getFn f).phase = .active ∨ ((u.fnDemand b.1 c).safe.getFn f).phase = .awaitReset ∨
            ((u.fnDemand b.1 c).safe.getFn f).phase = .demanded) ∧
          (b.1 = f → ((u.fnDemand b.1 c).safe.getFn f).phase = .demanded)) := by
      intro u b c
      refine ⟨u.same_fnDemand _ _, fun k ht => ?_⟩
      by_cases hb : b.1 = f
      · have z : ((u.fnDemand b.1 c).safe.getFn f).phase = .demanded := by
          rw [hb]; unfold State.fnDemand
          rcases k with k | k | k <;> simp only [k]
          · rw [if_neg ht]; simp
          · simp
        exact ⟨Or.inr (Or.inr z), fun _ => z⟩
      · refine ⟨?_, fun h => absurd h hb⟩
        have : ((u.fnDemand b.1 c).safe.getFn f).phase = (u.safe.getFn f).phase := by
          have ne : f ≠ b.1 := fun h => hb h.symm
          unfold State.fnDemand; split
          · split
            · simp [Safe.modFn, Safe.getFn_setFn_ne _ _ ne]
            · simp [ne]
          · simp [ne]
          · rfl
        rw [this]; exact k
    have stay : ∀ (l : List (Nat × FnEntry)) (u : State), (u.safe.getFn f).phase = .demanded →
        ((l.foldl (fun s e => match s.safe.fnDemand e.2 with | some c => s.fnDemand e.1 c | none => s) u).safe.getFn f).phase = .demanded := by
      intro l; induction l with
      | nil => exact fun u h => h
      | cons b l ih =>
        intro u hu; rw [List.foldl_cons]; refine ih _ ?_
        split
        · exact u.demanded_fnDemand f b.1 _ hu
        · exact hu
    rcases List.mem_cons.1 hm with he | hm
    · subst he
      obtain ⟨c, hc⟩ := Option.isSome_iff_exists.1 hd
      simp only [hc]
      exact stay l _ (((key s (f, e) c).2 hp ht).2 rfl)
    · cases hc : s.safe.fnDemand a.2 with
      | none => exact ih s h hd ht hp hm
      | some c =>
        have k := key s a c
        refine ih _ ?_ ?_ ?_ ((k.2 hp ht).1) hm
        · rw [k.1.laneP]; exact h
        · rw [k.1.fnDemand]; exact hd
        · rw [k.1.entry]; exact ht

/-! What the loops over functions leave alone, and what they reach. -/

theorem SameInputs.foldl {α : Type} (g : State → α → State) (h : ∀ (s : State) (a : α), SameInputs s.safe (g s a).safe) (l : List α) (s : State) :
    SameInputs s.safe (l.foldl g s).safe := by
  induction l generalizing s with
  | nil => exact .refl _
  | cons a l ih => exact (h s a).trans (ih _)
theorem State.same_evalDemands (s : State) : SameInputs s.safe s.evalDemands.safe := by
  unfold State.evalDemands; split
  · exact .refl _
  · refine SameInputs.foldl _ (fun s a => ?_) _ _
    split
    · exact s.same_fnDemand _ _
    · exact .refl _
theorem State.same_brakeAbort (s : State) (f : Nat) (why : BrakeEnd) (slip : Word) : SameInputs s.safe (s.brakeAbort f why slip).safe := by
  unfold State.brakeAbort; split
  · dsimp only; rw [State.safe_recordEvent]; exact s.same_setSafe_modFn _ _
  · exact .refl _
theorem State.same_fnActive (s : State) (f : Nat) : SameInputs s.safe (s.fnActive f).safe := by
  unfold State.fnActive; exact (s.same_brakeAbort f _ _).trans (State.same_setSafe_modFn _ _ _)
theorem State.same_fnWithdraw (s : State) (f : Nat) (e : FnEntry) : SameInputs s.safe (s.fnWithdraw f e).safe := by
  unfold State.fnWithdraw; repeat' split
  · exact .refl _
  · exact s.same_setSafe_modFn _ _
  · exact .refl _
  · exact s.same_fnActive f
theorem State.same_evalWithdrawn (s : State) : SameInputs s.safe s.evalWithdrawn.safe := by
  unfold State.evalWithdrawn; split
  · exact .refl _
  · exact SameInputs.foldl _ (fun s _ => s.same_fnWithdraw _ _) _ _
theorem State.same_fnFault (s : State) (f : Nat) (c : FnCause) : SameInputs s.safe (s.fnFault f c).safe := by
  unfold State.fnFault; split
  · exact .refl _
  · exact s.same_setSafe_modFn _ _
theorem State.same_fnClear (s : State) (f : Nat) (c : FnCause) : SameInputs s.safe (s.fnClear f c).safe := by
  unfold State.fnClear; dsimp only; split
  · exact s.same_setSafe_modFn _ _
  · exact .refl _
theorem State.same_fnFaultAll (s : State) (g : FnEntry → Bool) (c : FnCause) : SameInputs s.safe (s.fnFaultAll g c).safe :=
  SameInputs.foldl _ (fun s _ => s.same_fnFault _ _) _ _
theorem State.same_fnClearAll (s : State) (g : FnEntry → Bool) (c : FnCause) : SameInputs s.safe (s.fnClearAll g c).safe :=
  SameInputs.foldl _ (fun s _ => s.same_fnClear _ _) _ _

theorem State.fn_fnFault (s : State) (f g : Nat) (c : FnCause) :
    ((s.fnFault f c).safe.getFn g).untimed = (if g = f ∧ (s.safe.getFn f).phase ≠ .unused then
      { s.safe.getFn f with phase := .faulted, cause := c, faults := c :: (s.safe.getFn f).faults.filter (fun d => d != c) }
    else s.safe.getFn g).untimed := by
  unfold State.fnFault
  by_cases h : (s.safe.getFn f).phase = .unused
  · simp [h]
  · simp only [if_neg h, State.fn_setSafe]
    by_cases e : g = f
    · subst e; simp [Safe.modFn, h]
    · simp [Safe.modFn, Safe.getFn_setFn_ne _ _ e, e]
theorem State.fnFault_phase (s : State) (f g : Nat) (c : FnCause) : ((s.fnFault f c).safe.getFn g).phase =
    if g = f ∧ (s.safe.getFn f).phase ≠ .unused then .faulted else (s.safe.getFn g).phase := by
  rw [FnState.of_untimed FnState.phase (fun _ => rfl) (s.fn_fnFault f g c)]; split <;> rfl
theorem State.fnFault_faults (s : State) (f g : Nat) (c : FnCause) : ((s.fnFault f c).safe.getFn g).faults =
    if g = f ∧ (s.safe.getFn f).phase ≠ .unused then c :: (s.safe.getFn f).faults.filter (fun d => d != c) else (s.safe.getFn g).faults := by
  rw [FnState.of_untimed FnState.faults (fun _ => rfl) (s.fn_fnFault f g c)]; split <;> rfl
/-- Every function that a fault concerns is FAULTED with it (10 R303). -/
theorem State.fnFaultAll_faults (s : State) (sel : FnEntry → Bool) (c : FnCause) (f : Nat) (e : FnEntry) (hm : (f, e) ∈ s.safe.valid)
    (hs : sel e = true) (hp : (s.safe.getFn f).phase ≠ .unused) :
    ((s.fnFaultAll sel c).safe.getFn f).phase = .faulted ∧ c ∈ ((s.fnFaultAll sel c).safe.getFn f).faults := by
  have stay : ∀ (l : List (Nat × FnEntry)) (u : State), (u.safe.getFn f).phase = .faulted ∧ c ∈ (u.safe.getFn f).faults →
      ((l.foldl (fun s e => s.fnFault e.1 c) u).safe.getFn f).phase = .faulted ∧ c ∈ ((l.foldl (fun s e => s.fnFault e.1 c) u).safe.getFn f).faults := by
    intro l; induction l with
    | nil => exact fun u h => h
    | cons b l ih =>
      intro u hu; refine ih _ ?_
      rw [State.fnFault_phase, State.fnFault_faults]; split
      · exact ⟨rfl, List.mem_cons_self⟩
      · exact hu
  have go : ∀ (l : List (Nat × FnEntry)) (u : State), (f, e) ∈ l → (u.safe.getFn f).phase ≠ .unused →
      ((l.foldl (fun s e => s.fnFault e.1 c) u).safe.getFn f).phase = .faulted ∧ c ∈ ((l.foldl (fun s e => s.fnFault e.1 c) u).safe.getFn f).faults := by
    intro l; induction l with
    | nil => intro u h; cases h
    | cons b l ih =>
      intro u h hu
      rcases List.mem_cons.1 h with h | h
      · subst h
        refine stay l _ ?_
        simp [State.fnFault_phase, State.fnFault_faults, hu]
      · refine ih _ h ?_
        rw [State.fnFault_phase]; split
        · simp
        · exact hu
  exact go _ s (List.mem_filter.2 ⟨hm, hs⟩) hp

theorem State.fn_brakeAbort_ne (s : State) {f g : Nat} (why : BrakeEnd) (slip : Word) (h : g ≠ f) :
    ((s.brakeAbort f why slip).safe.getFn g).untimed = (s.safe.getFn g).untimed := by
  unfold State.brakeAbort; split
  · simp [Safe.modFn, Safe.getFn_setFn_ne _ _ h]
  · rfl
theorem State.fn_fnActive_ne (s : State) {f g : Nat} (h : g ≠ f) : ((s.fnActive f).safe.getFn g).untimed = (s.safe.getFn g).untimed := by
  unfold State.fnActive
  simp [Safe.modFn, Safe.getFn_setFn_ne _ _ h, s.fn_brakeAbort_ne _ _ h]
@[simp] theorem State.phase_fnActive (s : State) (f : Nat) : ((s.fnActive f).safe.getFn f).phase = .active := by
  unfold State.fnActive; simp [Safe.modFn]
theorem State.fn_fnWithdraw_ne (s : State) {f g : Nat} (e : FnEntry) (h : g ≠ f) :
    ((s.fnWithdraw f e).safe.getFn g).untimed = (s.safe.getFn g).untimed := by
  unfold State.fnWithdraw; repeat' split
  · rfl
  · simp [Safe.modFn, Safe.getFn_setFn_ne _ _ h]
  · rfl
  · exact s.fn_fnActive_ne h
/-- A function without a demand or a feedback that holds it leaves DEMANDED (10 R303). -/
theorem State.evalWithdrawn_leaves (s : State) (f : Nat) (e : FnEntry) (h : s.safe.laneP = true) (hm : (f, e) ∈ s.safe.valid)
    (hu : ∀ d, (f, d) ∈ s.safe.valid → d = e) (hd : s.safe.fnDemand e = none) (hf : e.monitors = false) (hp : (s.safe.getFn f).phase = .demanded) :
    ((s.evalWithdrawn).safe.getFn f).phase = if e.manual then .awaitReset else .active := by
  have stay : ∀ (l : List (Nat × FnEntry)) (u : State), (u.safe.getFn f).phase ≠ .demanded →
      ((l.foldl (fun s e => s.fnWithdraw e.1 e.2) u).safe.getFn f).phase = (u.safe.getFn f).phase := by
    intro l; induction l with
    | nil => exact fun u _ => rfl
    | cons b l ih =>
      intro u hu
      have : ((u.fnWithdraw b.1 b.2).safe.getFn f).phase = (u.safe.getFn f).phase := by
        by_cases hb : f = b.1
        · subst hb; unfold State.fnWithdraw; simp [hu]
        · exact FnState.of_untimed FnState.phase (fun _ => rfl) (u.fn_fnWithdraw_ne _ hb)
      rw [List.foldl_cons, ih _ (by rw [this]; exact hu), this]
  have go : ∀ (l : List (Nat × FnEntry)) (u : State), (f, e) ∈ l → (∀ d, (f, d) ∈ l → d = e) → SameInputs s.safe u.safe → (u.safe.getFn f).phase = .demanded →
      ((l.foldl (fun s e => s.fnWithdraw e.1 e.2) u).safe.getFn f).phase = if e.manual then .awaitReset else .active := by
    intro l; induction l with
    | nil => intro u h; cases h
    | cons b l ih =>
      intro u h hl hi hq
      rw [List.foldl_cons]
      by_cases hb : f = b.1
      · have hbe : b = (f, e) := by
          have := hl b.2 (by rw [hb]; exact List.mem_cons_self)
          rw [← this, hb]
        subst hbe
        have hd' : u.safe.fnDemand e = none := by rw [hi.fnDemand]; exact hd
        have hx : u.safe.edmShut e = false := by
          unfold FnEntry.monitors at hf; unfold Safe.edmShut
          generalize (e.type == FnType.edm) = a at hf ⊢
          generalize e.fbEn = b at hf ⊢
          cases a <;> cases b <;> simp at hf ⊢
        have z : ((u.fnWithdraw f e).safe.getFn f).phase = if e.manual then .awaitReset else .active := by
          unfold State.fnWithdraw
          simp only [hq, hd', Safe.feedbackHolds, hf]
          by_cases hm : e.manual = true <;> simp [hm, Safe.modFn, hx]
        rw [stay l _ (by simp only; rw [z]; split <;> simp)]
        exact z
      · refine ih _ ?_ (fun d hd => hl d (List.mem_cons_of_mem _ hd)) (hi.trans (u.same_fnWithdraw _ _)) ?_
        · rcases List.mem_cons.1 h with h | h
          · exact absurd (congrArg Prod.fst h) hb
          · exact h
        · rw [FnState.of_untimed FnState.phase (fun _ => rfl) (u.fn_fnWithdraw_ne _ hb)]; exact hq
  unfold State.evalWithdrawn
  simp only [h, Bool.not_true, Bool.false_eq_true, if_false]
  exact go _ s hm hu (.refl _) hp

/-- A DEMANDED function stays so while demands are taken. -/
theorem State.demanded_evalDemands (s : State) (f : Nat) (h : (s.safe.getFn f).phase = .demanded) :
    (s.evalDemands.safe.getFn f).phase = .demanded := by
  have stay : ∀ (l : List (Nat × FnEntry)) (u : State), (u.safe.getFn f).phase = .demanded →
      ((l.foldl (fun s e => match s.safe.fnDemand e.2 with | some c => s.fnDemand e.1 c | none => s) u).safe.getFn f).phase = .demanded := by
    intro l; induction l with
    | nil => exact fun u h => h
    | cons b l ih =>
      intro u hu; rw [List.foldl_cons]; refine ih _ ?_
      split
      · exact u.demanded_fnDemand f b.1 _ hu
      · exact hu
  unfold State.evalDemands; split
  · exact h
  · exact stay _ s h
/-- The outputs of the two cells agree but for tests that ended, holds that were lost and their times. -/
def SameOuts (x y : Safe) : Prop :=
  ∀ n, y.getSo n = { x.getSo n with test := (y.getSo n).test, held := (y.getSo n).held, onNs := (y.getSo n).onNs, openNs := (y.getSo n).openNs }
theorem SameOuts.refl (x : Safe) : SameOuts x x := fun _ => rfl
theorem SameOuts.trans {x y z : Safe} (a : SameOuts x y) (b : SameOuts y z) : SameOuts x z := by
  intro n; rw [b n, a n]
theorem State.outs_fnFaultAll (s : State) (g : FnEntry → Bool) (c : FnCause) : SameOuts s.safe (s.fnFaultAll g c).safe := by
  unfold State.fnFaultAll
  generalize List.filter (fun e => g e.2) s.safe.valid = l
  induction l generalizing s with
  | nil => exact .refl _
  | cons a l ih =>
    refine SameOuts.trans ?_ (ih _)
    unfold State.fnFault; dsimp only; split
    · exact .refl _
    · exact fun n => (s.settled_setSafe _).so n
theorem State.fn_fnClear (s : State) (f : Nat) (c : FnCause) (h : (s.safe.getFn f).phase = .faulted) (hc : c ∈ (s.safe.getFn f).faults) :
    ((s.fnClear f c).safe.getFn f).untimed = { (s.safe.getFn f).untimed with
      faults := (s.safe.getFn f).faults.filter (fun d => d != c)
      phase := if ((s.safe.getFn f).faults.filter (fun d => d != c)).isEmpty then .awaitReset else .faulted } := by
  unfold State.fnClear
  simp only [h, List.contains_eq_mem, hc, decide_true, Bool.and_self, if_true, State.fn_setSafe, Safe.modFn, Safe.getFn_setFn]
  rfl
/-- A reset takes every function that it acts on to ACTIVE, and is announced (10 R304). -/
theorem State.resetBy_acts (s : State) (p f : Nat) (e : FnEntry) (hm : (f, e) ∈ s.safe.valid) (hr : s.safe.resets p f e = true) :
    ((s.resetBy p).safe.getFn f).phase = .active ∧ (s.resetBy p).raised .safe 17 = true ∧ SameInputs s.safe (s.resetBy p).safe ∧
      Moves s (s.resetBy p) [.safe] [(.safe, 5), (.safe, 17)] := by
  have mv : ∀ (u : State) (b : Nat × FnEntry), Moves u ((u.fnActive b.1).setEvent .safe 17) [.safe] [(.safe, 5), (.safe, 17)] :=
    fun u b => ((u.moves_fnActive b.1).mono (by simp) (by simp)).setEvent _ _ (by decide) (by simp)
  have ph : ∀ (u : State) (b : Nat × FnEntry), (f = b.1 ∨ (u.safe.getFn f).phase = .active) →
      (((u.fnActive b.1).setEvent .safe 17).safe.getFn f).phase = .active := by
    intro u b h
    by_cases e : f = b.1
    · subst e; simp
    · rw [State.safe_setEvent, FnState.of_untimed FnState.phase (fun _ => rfl) (u.fn_fnActive_ne e)]; exact h.resolve_left e
  have same : ∀ (u : State) (b : Nat × FnEntry), SameInputs u.safe ((u.fnActive b.1).setEvent .safe 17).safe := by
    intro u b; rw [State.safe_setEvent]; exact u.same_fnActive b.1
  have stay : ∀ (l : List (Nat × FnEntry)) (u : State), (u.safe.getFn f).phase = .active → u.raised .safe 17 = true →
      ((l.foldl (fun s e => (s.fnActive e.1).setEvent .safe 17) u).safe.getFn f).phase = .active ∧
      (l.foldl (fun s e => (s.fnActive e.1).setEvent .safe 17) u).raised .safe 17 = true := by
    intro l; induction l with
    | nil => exact fun u a b => ⟨a, b⟩
    | cons b l ih => intro u h k; exact ih _ (ph u b (Or.inr h)) (State.raised_setEvent _ _ _ (by decide))
  have go : ∀ (l : List (Nat × FnEntry)) (u : State), (f, e) ∈ l →
      ((l.foldl (fun s e => (s.fnActive e.1).setEvent .safe 17) u).safe.getFn f).phase = .active ∧
      (l.foldl (fun s e => (s.fnActive e.1).setEvent .safe 17) u).raised .safe 17 = true := by
    intro l; induction l with
    | nil => intro u h; cases h
    | cons b l ih =>
      intro u h
      rcases List.mem_cons.1 h with h | h
      · subst h; exact stay l _ (ph u _ (Or.inl rfl)) (State.raised_setEvent _ _ _ (by decide))
      · exact ih _ h
  have k := go (s.safe.valid.filter (fun e => s.safe.resets p e.1 e.2)) s (List.mem_filter.2 ⟨hm, hr⟩)
  exact ⟨k.1, k.2, SameInputs.foldl _ same _ _, Moves.foldl _ mv _ _⟩

end Sys2Proof.Machine
end

