-- ==== Sys2Proof/Laws/Moves.lean ====
section
/-! SUPPORT. Laws/Moves.lean: which parts of a state the shared operations of the pair, the tasks and the modes move. -/
set_option Elab.async false
set_option maxRecDepth 4000
namespace Sys2Proof.Machine

section
variable {s t : State} {l : List Part} {m : List (Block × Nat)}
theorem Moves.eventEn (h : Moves s t l m) : t.eventEn = s.eventEn := by
  simpa only [State.sans] using congrArg State.eventEn h.1
theorem Moves.pending (h : Moves s t l m) : t.pending = s.pending := by
  simpa only [State.sans] using congrArg State.pending h.1
theorem Moves.mod (h : Moves s t l m) (n : .mod ∉ l := by simp) : t.mod = s.mod := by
  have e := congrArg State.mod h.1
  simpa only [State.sans, if_neg n] using e
theorem Moves.time (h : Moves s t l m) (n : .time ∉ l := by simp) : t.time = s.time := by
  have e := congrArg State.time h.1
  simpa only [State.sans, if_neg n] using e
theorem Moves.dio (h : Moves s t l m) (n : .dio ∉ l := by simp) : t.dio = s.dio := by
  have e := congrArg State.dio h.1
  simpa only [State.sans, if_neg n] using e
theorem Moves.aio (h : Moves s t l m) (n : .aio ∉ l := by simp) : t.aio = s.aio := by
  have e := congrArg State.aio h.1
  simpa only [State.sans, if_neg n] using e
theorem Moves.safe (h : Moves s t l m) (n : .safe ∉ l := by simp) : t.safe = s.safe := by
  have e := congrArg State.safe h.1
  simpa only [State.sans, if_neg n] using e
theorem Moves.ax (h : Moves s t l m) (n : .ax ∉ l := by simp) : t.ax = s.ax := by
  have e := congrArg State.ax h.1
  simpa only [State.sans, if_neg n] using e
theorem Moves.pnl (h : Moves s t l m) (n : .pnl ∉ l := by simp) : t.pnl = s.pnl := by
  have e := congrArg State.pnl h.1
  simpa only [State.sans, if_neg n] using e
theorem Moves.net (h : Moves s t l m) (n : .net ∉ l := by simp) : t.net = s.net := by
  have e := congrArg State.net h.1
  simpa only [State.sans, if_neg n] using e
theorem Moves.cyc (h : Moves s t l m) (n : .cyc ∉ l := by simp) : t.cyc = s.cyc := by
  have e := congrArg State.cyc h.1
  simpa only [State.sans, if_neg n] using e
theorem Moves.fab (h : Moves s t l m) (n : .fab ∉ l := by simp) : t.fab = s.fab := by
  have e := congrArg State.fab h.1
  simpa only [State.sans, if_neg n] using e
theorem Moves.twin (h : Moves s t l m) (n : .twin ∉ l := by simp) : t.twin = s.twin := by
  have e := congrArg State.twin h.1
  simpa only [State.sans, if_neg n] using e
theorem Moves.xch (h : Moves s t l m) (n : .xch ∉ l := by simp) : t.xch = s.xch := by
  have e := congrArg State.xch h.1
  simpa only [State.sans, if_neg n] using e
theorem Moves.cfg (h : Moves s t l m) (n : .cfg ∉ l := by simp) : t.cfg = s.cfg := by
  have e := congrArg State.cfg h.1
  simpa only [State.sans, if_neg n] using e
end

theorem Moves.stay {s t : State} {l l' : List Part} {m m' : List (Block × Nat)} (h : Moves s t l m) (a : ∀ p ∈ l, p ∈ l' := by simp)
    (b : ∀ e ∈ m, e ∈ m' ∨ e ∈ reportBits := by simp) : Moves s t l' m' := h.mono a b

theorem State.moves_brakeAbortAll (s : State) : Moves s s.brakeAbortAll [.safe] [(.safe, 5)] :=
  Moves.foldl _ (fun s _ => s.moves_brakeAbort _ _ _) _ _
theorem State.moves_discTo (s : State) (d : Discipline) (b : Nat) (h : b < 32) : Moves s (s.discTo d b) [.time] [(.time, b)] := by
  unfold State.discTo; exact Moves.setEvent .set _ _ h (by simp)
theorem State.moves_endFollow (s : State) : Moves s s.endFollow [.time] [(.time, 0), (.time, 1)] := by
  unfold State.endFollow; split
  · exact .refl _ _ _
  · dsimp only; split
    · exact .trans (.set (t := { s with time := _ })) (.stay (State.moves_discTo _ _ _ (by decide)))
    · exact .trans (.set (t := { s with time := _ })) (.stay (State.moves_discTo _ _ _ (by decide)))
theorem State.moves_pnlRefuse (s : State) (o : Origin) (c : Nat) : Moves s (s.pnlRefuse o c) [.pnl, .done] [(.pnl, 2)] := by
  unfold State.pnlRefuse; dsimp only
  exact ((Moves.set (t := { s with pnl := _ })).setEvent _ _ (by decide) (by simp)).finish _ _ _ (by simp)
theorem State.moves_pnlYielded (s : State) : Moves s s.pnlYielded [.pnl, .done] [(.pnl, 2)] := by
  unfold State.pnlYielded; dsimp only
  exact (Moves.set (t := { s with pnl := _ })).trans (Moves.foldl _ (fun s _ => s.moves_pnlRefuse _ _) _ _)
theorem State.moves_twinRecord (s : State) (b o : Nat) (h : b < 32) : Moves s (s.twinRecord b o) [] [(.twin, b)] := by
  unfold State.twinRecord; exact (Moves.refl _ _ _).recordEvent _ _ _ _ h (by simp)
theorem State.moves_olvia (s : State) (o : OlviaOut) (m : List (Block × Nat)) : Moves s (s.olvia o) [.twin] m := by
  unfold State.olvia; split
  · exact .set
  · exact .refl _ _ _
theorem State.moves_laneDown (s : State) (n : Nat) (e : Bool) : Moves s (s.laneDown n e) [.twin] [(.twin, 6)] := by
  unfold State.laneDown; dsimp only
  exact (Moves.set (t := { s with twin := _ })).setEventIf _ _ _ (by decide) (by simp)
theorem State.moves_lanesDown (s : State) : Moves s s.lanesDown [.twin] [(.twin, 6)] :=
  (s.moves_laneDown _ _).trans (State.moves_laneDown _ _ _)
theorem State.moves_modTwin (s : State) (n : Nat) (f : TwinTask → TwinTask) (m : List (Block × Nat)) : Moves s (s.modTwin n f) [.twin] m := by
  unfold State.modTwin; exact .set
theorem State.moves_setTask (s : State) (n : Nat) (x : TaskSt) (m : List (Block × Nat)) : Moves s (s.setTask n x) [.cyc] m := by
  unfold State.setTask; exact .set
theorem State.moves_modTask (s : State) (n : Nat) (f : TaskSt → TaskSt) (m : List (Block × Nat)) : Moves s (s.modTask n f) [.cyc] m := by
  unfold State.modTask; exact s.moves_setTask _ _ _
theorem State.moves_safePartnerGone (s : State) : Moves s s.safePartnerGone [.safe] [(.safe, 5)] := by
  unfold State.safePartnerGone
  extract_lets z x y u
  have h : Moves s u [.safe] [(.safe, 5)] := s.moves_setSafe _ _
  clear_value u
  split
  · exact h
  · exact ((h.trans (State.moves_fnClearAll _ _ _ _)).trans (State.moves_fnClearAll _ _ _ _)).trans (State.moves_evalWithdrawn _)

theorem State.moves_axEvents (l : List Nat) (s : State) (h : ∀ b ∈ l, b < 32) : Moves s (s.axEvents l) [.ax] (l.map (fun b => (Block.ax, b))) := by
  induction l generalizing s with
  | nil => exact .refl _ _ _
  | cons b l ih =>
    refine ((Moves.refl s _ _).setEvent .ax b (h b (by simp)) (by simp)).trans ?_
    exact (ih (s.setEvent .ax b) (fun c hc => h c (by simp [hc]))).stay (by simp) (by simp +contextual)
theorem State.moves_axPut (s : State) (a : Nat) (x : Axis) (l : List Nat) (h : ∀ b ∈ l, b = 1) : Moves s (s.axPut a x l) [.ax] [(.ax, 1), (.ax, 13)] := by
  unfold State.axPut; dsimp only
  refine (Moves.set (t := { s with ax := _ })).trans ((State.moves_axEvents _ _ ?_).stay (by simp) ?_)
  · intro b hb
    rcases List.mem_append.1 hb with h1 | h1
    · rw [h b h1]; decide
    · split at h1 <;> simp_all
  · intro e he
    obtain ⟨b, hb, rfl⟩ := List.mem_map.1 he
    rcases List.mem_append.1 hb with h1 | h1
    · rw [h b h1]; simp
    · split at h1 <;> simp_all
theorem Axis.limitEdge_events (x : Axis) (sw : AxSwitch) (b : Bool) : ∀ e ∈ (x.limitEdge sw b).2, e = 1 := by
  unfold Axis.limitEdge; extract_lets y w; clear_value y w
  split
  · simp
  · split <;> simp
theorem State.moves_axEdge (s : State) (a : Nat) (sw : AxSwitch) (b : Bool) (p : Int) : Moves s (s.axEdge a sw b p) [.ax] [(.ax, 1), (.ax, 13)] := by
  unfold State.axEdge; dsimp only; split
  · exact s.moves_axPut _ _ _ (by simp)
  · exact s.moves_axPut _ _ _ (Axis.limitEdge_events _ _ _)
theorem State.moves_axStall (s : State) (a : Nat) (p : Int) : Moves s (s.axStall a p) [.ax] [(.ax, 0), (.ax, 1), (.ax, 13)] := by
  unfold State.axStall; dsimp only; unfold State.reportIf; split
  · exact ((s.moves_axPut _ _ _ (by simp)).stay).report _ _ _ _ (by decide) (by simp)
  · exact (s.moves_axPut _ _ _ (by simp)).stay
theorem State.moves_axRemote (s : State) (e : AxEvent) (n : Nat) : Moves s (s.axRemote e n) [.ax] [(.ax, 0), (.ax, 1), (.ax, 13)] := by
  unfold State.axRemote
  cases e with
  | edge a sw b ns p =>
    dsimp only
    refine (Moves.set (t := { s with ax := _ })).trans ((State.moves_axPut _ _ _ _ ?_).stay)
    split
    · simp
    · exact Axis.limitEdge_events _ _ _
  | stall a ns p =>
    dsimp only
    refine Moves.trans ?_ (State.moves_axStall _ _ _)
    exact .set
theorem State.moves_axTakeover (s : State) : Moves s s.axTakeover [.ax] [(.ax, 0), (.ax, 1), (.ax, 13)] := by
  unfold State.axTakeover; dsimp only
  exact (Moves.set (t := { s with ax := _ })).trans (Moves.foldl _ (fun s _ => s.moves_axRemote _ _) _ _)
theorem State.moves_pnlTakeover (s : State) : Moves s s.pnlTakeover [.pnl] [(.pnl, 7)] := by
  unfold State.pnlTakeover
  refine Moves.foldl _ (fun s i => ?_) _ _
  dsimp only; repeat' split
  all_goals first
    | exact .refl _ _ _
    | exact .setEventIf .set _ _ _ (by decide) (by simp)
theorem State.moves_tsPut (s : State) (n : Nat) (e : TsEntry) : Moves s (s.tsPut n e) [.net] [(.net, 7)] := by
  unfold State.tsPut; dsimp only; split
  · exact .setEvent .set _ _ (by decide) (by simp)
  · exact .set
theorem State.moves_brakeWrite (s : State) (n a : Nat) (m : List (Block × Nat)) : Moves s (s.brakeWrite n a) [.net, .safe] m := by
  unfold State.brakeWrite; split
  · split
    · exact .refl _ _ _
    · exact .set
  · exact .refl _ _ _
theorem State.moves_launch (s : State) (n a : Nat) : Moves s (s.launch n a) [.net, .safe, .twin] [(.net, 4), (.net, 7), (.net, 9)] := by
  unfold State.launch
  have h := (s.moves_brakeWrite n a [(.net, 4), (.net, 7), (.net, 9)]).stay (l' := [.net, .safe, .twin]) (m' := [(.net, 4), (.net, 7), (.net, 9)])
  extract_lets u c red len on late r out d1 d2 d3 v w
  change Moves s u _ _ at h
  clear_value u d3
  split
  · exact (h.trans .set).setEvent _ _ (by decide) (by simp)
  · have k : Moves s v [.net, .safe, .twin] [(.net, 4), (.net, 7), (.net, 9)] := (h.trans .set).setEventIf _ _ _ (by decide) (by simp)
    clear_value v
    have k1 : Moves s w [.net, .safe, .twin] [(.net, 4), (.net, 7), (.net, 9)] := by
      simp only [w]; split
      · exact k.trans ((State.moves_olvia _ _ []).stay)
      · exact k
    clear_value w
    split
    · exact k1
    · exact k1.trans (Moves.foldl _ (fun s _ => (s.moves_tsPut _ _).stay) _ _)
theorem State.moves_netTakeover (s : State) : Moves s s.netTakeover [.net, .safe, .twin] [(.net, 4), (.net, 7), (.net, 9)] := by
  unfold State.netTakeover
  refine (Moves.set (t := { s with net := _ })).trans (Moves.foldl _ (fun s _ => ?_) _ _)
  split
  · exact s.moves_launch _ _
  · exact .refl _ _ _

/-! What sending a frame moves is all that a launch moves in the twin unit. -/

@[simp] theorem TwinBlk.quiet_send (t : TwinBlk) (o : OlviaOut) : (t.send o).quiet = t.quiet := rfl
@[simp] theorem State.quiet_olvia (s : State) (o : OlviaOut) : (s.olvia o).twin.quiet = s.twin.quiet := by unfold State.olvia; split <;> simp
theorem State.twin_brakeWrite (s : State) (n a : Nat) : (s.brakeWrite n a).twin = s.twin := (s.moves_brakeWrite n a []).twin
theorem State.quiet_launch (s : State) (n a : Nat) : (s.launch n a).twin.quiet = s.twin.quiet := by
  unfold State.launch
  have h := s.twin_brakeWrite n a
  extract_lets u c red len on late r out d1 d2 d3 v w
  change u.twin = s.twin at h
  clear_value u d3
  rw [← h]
  split
  · simp
  · have k : v.twin.quiet = u.twin.quiet := by simp only [v, State.setEventIf]; split <;> simp
    clear_value v
    have k1 : w.twin.quiet = u.twin.quiet := by simp only [w]; split <;> simp [k]
    clear_value w
    split
    · exact k1
    · rw [(Moves.foldl _ (fun s _ => s.moves_tsPut _ _) _ w : Moves w _ [.net] [(.net, 7)]).twin, k1]
theorem State.quiet_netTakeover (s : State) : s.netTakeover.twin.quiet = s.twin.quiet := by
  unfold State.netTakeover
  have k : ∀ (l : List (Nat × Nat)) (u : State),
      (l.foldl (fun s e => if s.mayLaunch (s.net.ctx e.1) then s.launch e.1 e.2 else s) u).twin.quiet = u.twin.quiet := by
    intro l; induction l with
    | nil => intro u; rfl
    | cons e l ih =>
      intro u; rw [List.foldl_cons, ih]; split
      · exact u.quiet_launch _ _
      · rfl
  exact k _ _

theorem State.moves_promote (s : State) (k r : Nat) : Moves s (s.promote k r) [.twin, .xch, .cfg, .cyc, .time, .ax, .pnl, .net, .safe]
    [(.twin, 1), (.safe, 5), (.time, 0), (.time, 1), (.ax, 0), (.ax, 1), (.ax, 13), (.pnl, 7), (.net, 4), (.net, 7), (.net, 9)] := by
  have key : ∀ u : State, Moves s u [.twin, .xch, .cfg, .cyc] [] →
      Moves s (u.twinRecord 1 0xFFFFFFFF).brakeAbortAll.endFollow.axTakeover.pnlTakeover.netTakeover
      [.twin, .xch, .cfg, .cyc, .time, .ax, .pnl, .net, .safe]
      [(.twin, 1), (.safe, 5), (.time, 0), (.time, 1), (.ax, 0), (.ax, 1), (.ax, 13), (.pnl, 7), (.net, 4), (.net, 7), (.net, 9)] := by
    intro u h
    refine (h.stay).trans (((u.moves_twinRecord 1 0xFFFFFFFF (by decide)).stay).trans ?_)
    refine ((State.moves_brakeAbortAll _).stay).trans ?_
    refine ((State.moves_endFollow _).stay).trans (((State.moves_axTakeover _).stay).trans ?_)
    exact ((State.moves_pnlTakeover _).stay).trans ((State.moves_netTakeover _).stay)
  unfold State.promote
  extract_lets c0 t0 x0 u
  have h : Moves s u [.twin, .xch, .cfg, .cyc] [] := .set (by simp [u, State.sans])
  clear_value u
  exact key _ h
theorem State.twin_promote (s : State) (k r : Nat) : (s.promote k r).twin.quiet = ({ s.twin with
    ownLow := true, keeper := true, takeCnt := Bits.inc s.twin.takeCnt, openElig := none, lastTake := lastTakeWord k r 0 s.partnerUnit } : TwinBlk).quiet := by
  unfold State.promote
  extract_lets c0 t0 x0 u
  have h : u.twin = { s.twin with
    ownLow := true, keeper := true, takeCnt := Bits.inc s.twin.takeCnt, openElig := none, lastTake := lastTakeWord k r 0 s.partnerUnit } := rfl
  rw [← h]; clear_value u
  rw [State.quiet_netTakeover, (State.moves_pnlTakeover _).twin, (State.moves_axTakeover _).twin, (State.moves_endFollow _).twin,
    (State.moves_brakeAbortAll _).twin, (State.moves_twinRecord _ _ _ (by decide)).twin]
theorem State.raised_promote (s : State) (k r : Nat) : (s.promote k r).raised .twin 1 = true := by
  unfold State.promote; dsimp only
  refine (State.moves_netTakeover _).2.1 _ _ ((State.moves_pnlTakeover _).2.1 _ _ ((State.moves_axTakeover _).2.1 _ _ ((State.moves_endFollow _).2.1 _ _ ((State.moves_brakeAbortAll _).2.1 _ _ ?_))))
  exact State.raised_recordEvent _ _ _ _ _ (by decide)

theorem State.moves_standBack (s : State) (m : List (Block × Nat)) : Moves s s.standBack [.twin, .dio, .aio] m := by
  unfold State.standBack; exact .set
theorem State.moves_letGo (s : State) (m : List (Block × Nat)) : Moves s s.letGo [.fab, .time, .cyc] m := by
  unfold State.letGo; exact .set
theorem State.moves_sendObjects (s : State) (m : List (Block × Nat)) : Moves s s.sendObjects [.twin] m := by
  have e : ∀ u : State, Moves s u [.twin] m → Moves s (if u.twin.peer.cfg != u.cfg.cur.hash then u.olvia (.copy (.config u.cfg.cur)) else u) [.twin] m := by
    intro u h; split
    · exact h.trans (u.moves_olvia _ _)
    · exact h
  unfold State.sendObjects
  refine e _ ?_
  split
  · split
    · exact s.moves_olvia _ _
    · exact .refl _ _ _
  · exact .refl _ _ _
theorem State.moves_startCopy (s : State) : Moves s s.startCopy [.twin, .dio, .aio, .fab, .time, .cyc, .xch] [(.twin, 5)] := by
  unfold State.startCopy
  extract_lets hold u x0 v t0 w x
  have e1 : Moves s u [.twin, .dio, .aio, .fab, .time, .cyc, .xch] [(.twin, 5)] := by
    simp only [u]; split
    · exact .refl _ _ _
    · refine Moves.trans ?_ ((State.moves_letGo _ []).stay)
      split
      · exact .refl _ _ _
      · exact (s.moves_standBack []).stay
  clear_value u hold
  have e2 : Moves s v [.twin, .dio, .aio, .fab, .time, .cyc, .xch] [(.twin, 5)] := by
    simp only [v]; split
    · exact e1.trans .set
    · exact e1
  clear_value v
  have e3 : Moves s w [.twin, .dio, .aio, .fab, .time, .cyc, .xch] [(.twin, 5)] := e2.trans (.set (by simp [w, State.sans]))
  clear_value w
  split
  · exact e3
  · have e4 : Moves s x [.twin, .dio, .aio, .fab, .time, .cyc, .xch] [(.twin, 5)] := e3.setEvent _ _ (by decide) (by simp)
    clear_value x
    split
    · exact e4.trans ((State.moves_sendObjects _ []).stay)
    · exact e4

/-! The task table and the lanes of the twin unit. -/

@[simp] theorem TwinBlk.task_setTask (t : TwinBlk) (n : Nat) (x : TwinTask) : (t.setTask n x).task n = x := Tbl.get_set_self _ _ _ _
@[simp] theorem TwinBlk.setTask_setTask (t : TwinBlk) (n : Nat) (x y : TwinTask) : (t.setTask n x).setTask n y = t.setTask n y := by simp [TwinBlk.setTask]
@[simp] theorem TwinBlk.started_setTask (t : TwinBlk) (n : Nat) (x : TwinTask) : (t.setTask n x).started = t.started := rfl
@[simp] theorem TwinBlk.slotB_setTask (t : TwinBlk) (n : Nat) (x : TwinTask) : (t.setTask n x).slotB = t.slotB := rfl
@[simp] theorem TwinBlk.seated_setTask (t : TwinBlk) (n : Nat) (x : TwinTask) : (t.setTask n x).seated = t.seated := rfl
@[simp] theorem TwinBlk.waiting_setTask (t : TwinBlk) (n : Nat) (x : TwinTask) : (t.setTask n x).waiting = t.waiting := rfl
@[simp] theorem TwinBlk.partner_setTask (t : TwinBlk) (n : Nat) (x : TwinTask) : (t.setTask n x).partner = t.partner := rfl
@[simp] theorem TwinBlk.ownLow_setTask (t : TwinBlk) (n : Nat) (x : TwinTask) : (t.setTask n x).ownLow = t.ownLow := rfl
@[simp] theorem TwinBlk.partnerLow_setTask (t : TwinBlk) (n : Nat) (x : TwinTask) : (t.setTask n x).partnerLow = t.partnerLow := rfl
@[simp] theorem TwinBlk.high1us_setTask (t : TwinBlk) (n : Nat) (x : TwinTask) : (t.setTask n x).high1us = t.high1us := rfl
@[simp] theorem TwinBlk.keeper_setTask (t : TwinBlk) (n : Nat) (x : TwinTask) : (t.setTask n x).keeper = t.keeper := rfl
@[simp] theorem TwinBlk.link_setTask (t : TwinBlk) (n : Nat) (x : TwinTask) : (t.setTask n x).link = t.link := rfl
@[simp] theorem TwinBlk.isolated_setTask (t : TwinBlk) (n : Nat) (x : TwinTask) : (t.setTask n x).isolated = t.isolated := rfl
@[simp] theorem TwinBlk.suspect_setTask (t : TwinBlk) (n : Nat) (x : TwinTask) : (t.setTask n x).suspect = t.suspect := rfl
@[simp] theorem TwinBlk.engaged_setTask (t : TwinBlk) (n : Nat) (x : TwinTask) : (t.setTask n x).engaged = t.engaged := rfl
@[simp] theorem TwinBlk.lost_setTask (t : TwinBlk) (n : Nat) (x : TwinTask) : (t.setTask n x).lost = t.lost := rfl
@[simp] theorem TwinBlk.split_setTask (t : TwinBlk) (n : Nat) (x : TwinTask) : (t.setTask n x).split = t.split := rfl
@[simp] theorem TwinBlk.openElig_setTask (t : TwinBlk) (n : Nat) (x : TwinTask) : (t.setTask n x).openElig = t.openElig := rfl
@[simp] theorem TwinBlk.lanes_setTask (t : TwinBlk) (n : Nat) (x : TwinTask) : (t.setTask n x).lanes = t.lanes := rfl
@[simp] theorem TwinBlk.peer_setTask (t : TwinBlk) (n : Nat) (x : TwinTask) : (t.setTask n x).peer = t.peer := rfl
@[simp] theorem TwinBlk.heard_setTask (t : TwinBlk) (n : Nat) (x : TwinTask) : (t.setTask n x).heard = t.heard := rfl
@[simp] theorem TwinBlk.regions_setTask (t : TwinBlk) (n : Nat) (x : TwinTask) : (t.setTask n x).regions = t.regions := rfl
@[simp] theorem TwinBlk.axDiff_setTask (t : TwinBlk) (n : Nat) (x : TwinTask) : (t.setTask n x).axDiff = t.axDiff := rfl
@[simp] theorem TwinBlk.blocked_setTask (t : TwinBlk) (n : Nat) (x : TwinTask) : (t.setTask n x).blocked = t.blocked := rfl
@[simp] theorem TwinBlk.phase_setTask (t : TwinBlk) (n : Nat) (x : TwinTask) : (t.setTask n x).phase = t.phase := rfl
@[simp] theorem TwinBlk.copyTask_setTask (t : TwinBlk) (n : Nat) (x : TwinTask) : (t.setTask n x).copyTask = t.copyTask := rfl
@[simp] theorem TwinBlk.percent_setTask (t : TwinBlk) (n : Nat) (x : TwinTask) : (t.setTask n x).percent = t.percent := rfl
@[simp] theorem TwinBlk.copyNs_setTask (t : TwinBlk) (n : Nat) (x : TwinTask) : (t.setTask n x).copyNs = t.copyNs := rfl
@[simp] theorem TwinBlk.seqDone_setTask (t : TwinBlk) (n : Nat) (x : TwinTask) : (t.setTask n x).seqDone = t.seqDone := rfl
@[simp] theorem TwinBlk.testing_setTask (t : TwinBlk) (n : Nat) (x : TwinTask) : (t.setTask n x).testing = t.testing := rfl
@[simp] theorem TwinBlk.ownResult_setTask (t : TwinBlk) (n : Nat) (x : TwinTask) : (t.setTask n x).ownResult = t.ownResult := rfl
@[simp] theorem TwinBlk.peerResult_setTask (t : TwinBlk) (n : Nat) (x : TwinTask) : (t.setTask n x).peerResult = t.peerResult := rfl
@[simp] theorem TwinBlk.afterJoin_setTask (t : TwinBlk) (n : Nat) (x : TwinTask) : (t.setTask n x).afterJoin = t.afterJoin := rfl
@[simp] theorem TwinBlk.yielding_setTask (t : TwinBlk) (n : Nat) (x : TwinTask) : (t.setTask n x).yielding = t.yielding := rfl
@[simp] theorem TwinBlk.handover_setTask (t : TwinBlk) (n : Nat) (x : TwinTask) : (t.setTask n x).handover = t.handover := rfl
@[simp] theorem TwinBlk.lastTake_setTask (t : TwinBlk) (n : Nat) (x : TwinTask) : (t.setTask n x).lastTake = t.lastTake := rfl
@[simp] theorem TwinBlk.joinReason_setTask (t : TwinBlk) (n : Nat) (x : TwinTask) : (t.setTask n x).joinReason = t.joinReason := rfl
@[simp] theorem TwinBlk.missCnt_setTask (t : TwinBlk) (n : Nat) (x : TwinTask) : (t.setTask n x).missCnt = t.missCnt := rfl
@[simp] theorem TwinBlk.authCnt_setTask (t : TwinBlk) (n : Nat) (x : TwinTask) : (t.setTask n x).authCnt = t.authCnt := rfl
@[simp] theorem TwinBlk.mismCnt_setTask (t : TwinBlk) (n : Nat) (x : TwinTask) : (t.setTask n x).mismCnt = t.mismCnt := rfl
@[simp] theorem TwinBlk.takeCnt_setTask (t : TwinBlk) (n : Nat) (x : TwinTask) : (t.setTask n x).takeCnt = t.takeCnt := rfl
@[simp] theorem TwinBlk.splitCnt_setTask (t : TwinBlk) (n : Nat) (x : TwinTask) : (t.setTask n x).splitCnt = t.splitCnt := rfl
@[simp] theorem TwinBlk.mismTask_setTask (t : TwinBlk) (n : Nat) (x : TwinTask) : (t.setTask n x).mismTask = t.mismTask := rfl
@[simp] theorem TwinBlk.mismCycle_setTask (t : TwinBlk) (n : Nat) (x : TwinTask) : (t.setTask n x).mismCycle = t.mismCycle := rfl
@[simp] theorem TwinBlk.substCnt_setTask (t : TwinBlk) (n : Nat) (x : TwinTask) : (t.setTask n x).substCnt = t.substCnt := rfl
@[simp] theorem TwinBlk.tickOff_setTask (t : TwinBlk) (n : Nat) (x : TwinTask) : (t.setTask n x).tickOff = t.tickOff := rfl
@[simp] theorem TwinBlk.began_setTask (t : TwinBlk) (n : Nat) (x : TwinTask) : (t.setTask n x).began = t.began := rfl
@[simp] theorem TwinBlk.waitAt_setTask (t : TwinBlk) (n : Nat) (x : TwinTask) : (t.setTask n x).waitAt = t.waitAt := rfl
@[simp] theorem TwinBlk.txSeq_setTask (t : TwinBlk) (n : Nat) (x : TwinTask) : (t.setTask n x).txSeq = t.txSeq := rfl
@[simp] theorem TwinBlk.txCtr_setTask (t : TwinBlk) (n : Nat) (x : TwinTask) : (t.setTask n x).txCtr = t.txCtr := rfl
@[simp] theorem TwinBlk.copies_setTask (t : TwinBlk) (n : Nat) (x : TwinTask) : (t.setTask n x).copies = t.copies := rfl
@[simp] theorem TwinBlk.eligHeard_setTask (t : TwinBlk) (n : Nat) (x : TwinTask) : (t.setTask n x).eligHeard = t.eligHeard := rfl
@[simp] theorem TwinBlk.copyTodo_setTask (t : TwinBlk) (n : Nat) (x : TwinTask) : (t.setTask n x).copyTodo = t.copyTodo := rfl
@[simp] theorem TwinBlk.copyOff_setTask (t : TwinBlk) (n : Nat) (x : TwinTask) : (t.setTask n x).copyOff = t.copyOff := rfl
@[simp] theorem TwinBlk.shown_setTask (t : TwinBlk) (n : Nat) (x : TwinTask) : (t.setTask n x).shown = t.shown := rfl
@[simp] theorem TwinBlk.heads_setTask (t : TwinBlk) (n : Nat) (x : TwinTask) : (t.setTask n x).heads = t.heads := rfl
@[simp] theorem TwinBlk.upLanes_setTask (t : TwinBlk) (n : Nat) (x : TwinTask) : (t.setTask n x).upLanes = t.upLanes := rfl
@[simp] theorem TwinBlk.sent_setTask (t : TwinBlk) (n : Nat) (x : TwinTask) : (t.setTask n x).sent = t.sent := rfl
@[simp] theorem TwinBlk.lane_setTask (t : TwinBlk) (n l : Nat) (x : TwinTask) : (t.setTask n x).lane l = t.lane l := rfl
@[simp] theorem TwinBlk.linkUp_setTask (t : TwinBlk) (n : Nat) (x : TwinTask) : (t.setTask n x).linkUp = t.linkUp := rfl
@[simp] theorem State.twin_modTwin (s : State) (n : Nat) (f : TwinTask → TwinTask) : (s.modTwin n f).twin = s.twin.setTask n (f (s.twin.task n)) := rfl
theorem State.moves_mismatch (s : State) (n : Nat) (k : DWord) (x : Nat) : Moves s (s.mismatch n k x) [.twin] [(.twin, 2)] := by
  have e : ∀ (y : TwinBlk), Moves s (State.twinRecord { s with twin := y } 2 n) [.twin] [(.twin, 2)] :=
    fun y => .trans (.set (t := { s with twin := y })) ((State.moves_twinRecord _ _ _ (by decide)).stay)
  exact e _

end Sys2Proof.Machine
end

