-- ==== Sys2Proof/Laws/Cycle.lean ====
section
/-! SUPPORT. Laws/Cycle.lean: what the parts of a T0, of a release of billets and of a commit move. -/
set_option Elab.async false
set_option maxRecDepth 4000
set_option linter.all false
namespace Sys2Proof.Machine

theorem State.task_of_cyc {s t : State} (h : t.cyc = s.cyc) (n : Nat) : t.task n = s.task n := by simp only [State.task, h]
theorem State.taskCfg_of_cfg {s t : State} (h : t.cfg = s.cfg) (n : Nat) : t.taskCfg n = s.taskCfg n := by simp only [State.taskCfg, h]
theorem State.progTask_of {s t : State} (h : t.cfg = s.cfg) (k : t.xch = s.xch) (n : Nat) : t.progTask n = s.progTask n := by
  unfold State.progTask State.onNew State.exchanging State.oldTask; rw [h, k]
theorem State.task_setTask_ne (s : State) {n m : Nat} (x : TaskSt) (h : m ≠ n) : (s.setTask n x).task m = s.task m :=
  Tbl.get_set_ne _ _ _ h
@[simp] theorem State.task_setTask_self (s : State) (n : Nat) (x : TaskSt) : (s.setTask n x).task n = x := Tbl.get_set_self _ _ _ _

theorem State.moves_place (s : State) (b : BRef) (h : Nat) : Moves s (s.place b h) [.fab] [(.fab, 6), (.fab, 7)] := by
  unfold State.place; dsimp only; split
  · exact .set
  · split
    · exact Moves.setEvent .set _ _ (by decide) (by simp)
    · exact Moves.setEvent .set _ _ (by decide) (by simp)
theorem State.cyc_releaseBillets (s : State) (n : Nat) :
    (s.releaseBillets n).cyc = (s.modTask n (fun t => { t with run := t.run.map (fun r =>
      { r with released := r.released ++ (s.releasable n).map Billet.num }) })).cyc := by
  unfold State.releaseBillets; dsimp only
  exact (Moves.foldl (l := [.fab]) _ (fun u b => u.moves_place _ _) (s.releasable n) _).cyc
theorem State.moves_releaseBillets (s : State) (n : Nat) : Moves s (s.releaseBillets n) [.cyc, .fab] [(.fab, 6), (.fab, 7)] := by
  unfold State.releaseBillets; dsimp only
  exact (s.moves_modTask _ _ []).stay.trans (Moves.foldl _ (fun u b => (u.moves_place _ _).stay) _ _)
theorem State.task_releaseBillets (s : State) (n : Nat) (r : CycleRun) (h : (s.task n).run = some r) :
    (s.releaseBillets n).task n = { s.task n with run := some { r with released := r.released ++ (s.releasable n).map Billet.num } } := by
  rw [State.task_of_cyc (s.cyc_releaseBillets n)]; simp [State.modTask, h]
theorem State.task_releaseBillets_ne (s : State) {n m : Nat} (h : m ≠ n) : (s.releaseBillets n).task m = s.task m := by
  rw [State.task_of_cyc (s.cyc_releaseBillets n)]; exact s.task_setTask_ne _ h

theorem State.moves_takeChannelCfg (s : State) (n : Nat) (m : List (Block × Nat)) : Moves s (s.takeChannelCfg n) [.dio, .aio, .net] m := by
  unfold State.takeChannelCfg; dsimp only
  refine (Moves.foldl _ (fun u k => ?_) _ _).trans (Moves.foldl _ (fun u k => ?_) _ _)
  · split <;> first | exact .refl _ _ _ | exact .set
  · split <;> first | exact .refl _ _ _ | exact .set
theorem State.moves_safeSample (s : State) (a : List (Fin 8 × Bool × Nat)) (b : List (Fin 8 × Bool)) :
    Moves s (s.safeSample a b) [.safe] [(.safe, 5)] := by
  unfold State.safeSample; dsimp only
  exact (s.moves_setSafe _ _).trans (State.moves_evalWithdrawn _)
theorem State.moves_takeEnv (s : State) (e : T0Env) : Moves s (s.takeEnv e) [.aio, .safe] [(.safe, 5)] := by
  unfold State.takeEnv; dsimp only
  exact (Moves.set (t := { s with aio := _ })).trans (State.moves_safeSample _ _ _).stay
theorem State.moves_rxDeliver (s : State) (n t0 t : Nat) : Moves s (s.rxDeliver n t0 t).1 [.net] [(.net, 10)] := by
  unfold State.rxDeliver; exact Moves.setEventIf .set _ _ _ (by decide) (by simp)
theorem State.moves_sampleOne (s : State) (n t0 : Nat) (k : InKind) : Moves s (s.sampleOne n t0 k).1 [.time, .net] [(.net, 10)] := by
  unfold State.sampleOne
  cases k <;> dsimp only <;> first | exact .refl _ _ _ | exact .set | exact (s.moves_rxDeliver _ _ _).stay
theorem State.moves_sampleAll (s : State) (n t0 : Nat) : Moves s (s.sampleAll n t0).1 [.time, .net] [(.net, 10)] := by
  unfold State.sampleAll
  have : ∀ (l : List InKind) (a : State × List InVal), Moves a.1 (l.foldl (fun (a : State × List InVal) k =>
      let r := a.1.sampleOne n t0 k; (r.1, a.2 ++ [r.2])) a).1 [.time, .net] [(.net, 10)] := by
    intro l
    induction l with
    | nil => exact fun a => .refl _ _ _
    | cons k l ih => exact fun a => (a.1.moves_sampleOne n t0 k).trans (ih _)
  exact this _ _
theorem State.moves_brakeRx (s : State) (n t0 : Nat) : Moves s (s.brakeRx n t0) [.safe] [(.safe, 5)] := by
  unfold State.brakeRx
  refine Moves.foldl _ (fun s e => ?_) _ _
  extract_lets v c r got low
  clear_value v c r got low
  split
  · exact s.moves_brakeAbort _ _ _
  · exact .refl _ _ _
theorem State.moves_engageDio (s : State) (c : Nat) (m : List (Block × Nat)) : Moves s (s.engageDio c) [.dio] m := by
  unfold State.engageDio; split
  · exact .set
  · exact .refl _ _ _
theorem State.moves_engageAio (s : State) (c : Nat) (m : List (Block × Nat)) : Moves s (s.engageAio c) [.aio] m := by
  unfold State.engageAio; split
  · exact .set
  · exact .refl _ _ _
theorem State.moves_putDio (s : State) (c : Nat) (on : Bool) (m : List (Block × Nat)) : Moves s (s.putDio c on) [.dio] m := by
  unfold State.putDio; refine (s.moves_engageDio c m).trans ?_; exact .set
theorem State.moves_putAio (s : State) (c v : Nat) (m : List (Block × Nat)) : Moves s (s.putAio c v) [.aio] m := by
  unfold State.putAio; refine (s.moves_engageAio c m).trans ?_; exact .set
theorem State.moves_reapply (s : State) (n : Nat) (m : List (Block × Nat)) : Moves s (s.reapply n) [.dio, .aio] m := by
  unfold State.reapply
  refine Moves.foldl _ (fun u o => ?_) _ _
  split
  · exact (u.moves_putDio _ _ []).stay
  · exact (u.moves_putAio _ _ []).stay
  · exact .refl _ _ _
theorem State.moves_skipT0 (s : State) (n : Nat) : Moves s (s.skipT0 n) [.cyc] [(.cyc, 6)] := by
  unfold State.skipT0; dsimp only
  refine Moves.setEvent ?_ _ _ (by decide) (by simp)
  refine (s.moves_modTask n (fun t => { t with skip := t.skip + 1 }) _).trans ?_; exact .set

/-- What is sampled at the start of a cycle. -/
theorem State.moves_sampled (s : State) (n t0 : Nat) (e : T0Env) :
    Moves s (((s.takeEnv e).sampleAll n t0).1.brakeRx n t0) [.aio, .safe, .time, .net] [(.net, 10), (.safe, 5)] :=
  ((s.moves_takeEnv e).stay.trans ((s.takeEnv e).moves_sampleAll n t0).stay).trans (State.moves_brakeRx _ _ _).stay

/-- What the start of a cycle moves. -/
theorem State.moves_startCycle (s : State) (n t0 : Nat) (e : T0Env) (a b : Bool) :
    Moves s (s.startCycle n t0 e a b) [.aio, .safe, .time, .net, .cyc, .fab, .twin] [(.net, 10), (.cyc, 7), (.fab, 6), (.fab, 7), (.safe, 5)] := by
  unfold State.startCycle; dsimp only
  have hq := (s.moves_sampled n t0 e).stay (l' := [.aio, .safe, .time, .net, .cyc, .fab, .twin]) (m' := [(.net, 10), (.cyc, 7), (.fab, 6), (.fab, 7), (.safe, 5)])
  generalize (s.takeEnv e).sampleAll n t0 = q at hq ⊢
  generalize q.1.brakeRx n t0 = g at hq ⊢
  refine Moves.trans ?_ (State.moves_releaseBillets _ _).stay
  refine Moves.trans (t := State.setEventIf _ b .cyc 7) ?_ (.ite (State.moves_olvia _ _ []).stay (.refl _ _ _))
  refine Moves.setEventIf ?_ _ _ _ (by decide) (by simp)
  refine hq.trans ?_
  exact .set (by simp [State.sans, State.setTask])

/-- The task after the start of a cycle (02 R33, R57, 03 R71). -/
theorem State.task_startCycle (s : State) (n t0 : Nat) (e : T0Env) (a b : Bool) :
    ∃ r w p, ((s.startCycle n t0 e a b).task n).run = some r ∧ r.k = (s.task n).cycle + 1#64 ∧ r.t0 = t0 ∧ r.agreed = false ∧ r.retired = [] ∧ r.tc = none ∧
      r.faulted = false ∧ (∀ x, (s.task n).resumed = false → (s.task n).prevT0 = some x → p = t0 - x) ∧
      (∀ m, m ≠ n → (s.startCycle n t0 e a b).task m = s.task m) ∧
      (s.startCycle n t0 e a b).task n = { s.task n with
        csw := w, deltaT := p, prevT0 := some t0, run := some r, skip := 0, late := false, overran := false, resumed := false, exchanged := false
        takeover := false, unit := ((s.startCycle n t0 e a b).task n).unit, toApply := false } := by
  unfold State.startCycle; dsimp only
  have hc := (s.moves_sampled n t0 e).cyc
  generalize (s.takeEnv e).sampleAll n t0 = q at hc ⊢
  generalize q.1.brakeRx n t0 = g at hc ⊢
  have ht := State.task_of_cyc hc n
  generalize (List.map _ ((g.progTask n).inputs.zip _)) = vals
  generalize hu : State.mk _ _ _ _ _ _ _ _ _ _ _ _ _ _ _ _ _ _ _ _ = u
  have hut : u.task n = { g.task n with
      csw := g.cswAt n a b, deltaT := g.deltaAt n t0, prevT0 := some t0
      run := some { k := (g.task n).cycle + 1#64, t0 := t0, deadline := g.deadlineAt n, inputs := vals
                    lead := g.holdsToken || g.twin.link == .severed, budget := (g.task n).limits.budget }
      skip := 0, late := false, overran := false
      resumed := false, exchanged := false, takeover := false
      unit := (g.lostUnits n).foldl (fun m u => m ||| 2 ^ u) 0, toApply := false } := by
    rw [← hu]; exact Tbl.get_set_self _ _ _ _
  have hv : ∀ o, ((if (u.setEventIf b .cyc 7).agrees then (u.setEventIf b .cyc 7).olvia o else u.setEventIf b .cyc 7)).task n = u.task n := by
    intro o
    refine State.task_of_cyc ?_ n
    split
    · rw [(State.moves_olvia _ o []).cyc]; simp
    · simp
  have hv' : ∀ o m, m ≠ n → ((if (u.setEventIf b .cyc 7).agrees then (u.setEventIf b .cyc 7).olvia o else u.setEventIf b .cyc 7)).task m = s.task m := by
    intro o m hm
    have a : u.task m = s.task m := by
      rw [← hu]; exact (Tbl.get_set_ne _ _ _ hm).trans (State.task_of_cyc hc m)
    rw [← a]
    refine State.task_of_cyc ?_ m
    split
    · rw [(State.moves_olvia _ o []).cyc]; simp
    · simp
  rw [State.task_releaseBillets _ n _ (by rw [hv, hut])]
  have hd : ∀ x, (s.task n).resumed = false → (s.task n).prevT0 = some x → g.deltaAt n t0 = t0 - x := by
    intro x h1 h2; simp [State.deltaAt, ht, h1, h2]
  have hm := fun o m (h : m ≠ n) => (State.task_releaseBillets_ne (if (u.setEventIf b .cyc 7).agrees then (u.setEventIf b .cyc 7).olvia o else u.setEventIf b .cyc 7) h).trans (hv' o m h)
  rw [hv, hut, ht]
  exact ⟨_, _, _, rfl, rfl, rfl, rfl, rfl, rfl, rfl, hd, hm _, rfl⟩

/-- A fallback T0 says so (02 R63). -/
theorem State.raised_startCycle (s : State) (n t0 : Nat) (e : T0Env) (a : Bool) : (s.startCycle n t0 e a true).raised .cyc 7 = true := by
  unfold State.startCycle; dsimp only
  refine (State.moves_releaseBillets _ _).2.1 _ _ ?_
  refine (Moves.ite (State.moves_olvia _ _ []).stay (.refl _ _ _) : Moves _ _ [.twin] []).2.1 _ _ ?_
  exact State.raised_setEvent _ _ _ (by decide)

/-- What a T0 takes up first, where nothing waits for the task. -/
theorem State.t0Takes_calm (s : State) (n t0 : Nat) (a : List (Fin 4)) (h : s.Calm n) :
    (s.t0Takes n t0 a).cyc = { (s.modTask n (fun t => { t with lastT0 := some t0, stopDue := false })).cyc with resuming := false } ∧
      Moves s (s.t0Takes n t0 a) [.dio, .aio, .net, .cyc] [] := by
  unfold State.t0Takes; dsimp only
  generalize hu : s.modTask n (fun t => { t with lastT0 := some t0, stopDue := false }) = u
  have mu : Moves s u [.dio, .aio, .net, .cyc] [] := by rw [← hu]; exact (s.moves_modTask _ _ []).stay
  have hv : Moves u (u.takeChannelCfg n) [.dio, .aio, .net] [] := u.moves_takeChannelCfg n []
  have hp : u.cyc.pends = [] := by rw [← hu]; exact h.modes
  have hn : (u.task n).next = none := by rw [← hu]; simp [State.modTask, h.limits]
  have hr : (u.task n).restart = none := by rw [← hu]; simp [State.modTask, h.restart]
  have hd : (u.task n).due = none := by rw [← hu]; simp [State.modTask, h.due]
  generalize hw : u.takeChannelCfg n = w at hv ⊢
  have wc := hv.cyc
  have wt := State.task_of_cyc wc n
  have e1 : w.takeLimits n = w := by simp [State.takeLimits, wt, hn]
  have e2 : w.takeModes n = w := by
    have : w.cyc.pends = [] := by rw [wc]; exact hp
    simp only [State.takeModes, this, List.foldl_nil]
    rw [← this]
  rw [e1, e2]
  have e3 : State.takeRestart { w with cyc := { w.cyc with resuming := false } } n = { w with cyc := { w.cyc with resuming := false } } := by
    have : (State.task { w with cyc := { w.cyc with resuming := false } } n).restart = none := by rw [← hr, ← wt]; rfl
    simp [State.takeRestart, this]
  have e4 : State.takePolicy { w with cyc := { w.cyc with resuming := false } } n t0 a = { w with cyc := { w.cyc with resuming := false } } := by
    have : (State.task { w with cyc := { w.cyc with resuming := false } } n).due = none := by rw [← hd, ← wt]; rfl
    simp [State.takePolicy, this]
  rw [e3, e4]
  refine ⟨by rw [← wc], (mu.trans hv.stay).trans ?_⟩
  exact .set

theorem State.link_olvia (s : State) (o : OlviaOut) : (s.olvia o).twin.link = s.twin.link := by unfold State.olvia; split <;> rfl
theorem State.link_startCycle (s : State) (n t0 : Nat) (e : T0Env) (a b : Bool) : (s.startCycle n t0 e a b).twin.link = s.twin.link := by
  unfold State.startCycle; dsimp only
  have hq := (s.moves_sampled n t0 e).twin
  generalize (s.takeEnv e).sampleAll n t0 = q at hq ⊢
  generalize q.1.brakeRx n t0 = g at hq ⊢
  rw [(State.moves_releaseBillets _ _).twin]
  split
  · rw [State.link_olvia]; simp only [State.twin_setEventIf]; exact congrArg TwinBlk.link hq
  · simp only [State.twin_setEventIf]; exact congrArg TwinBlk.link hq

/-- The T0 of a calm task: nothing but the count of a split brain comes before it, nothing after it. -/
theorem State.taskT0_calm (s : State) (n t0 : Nat) (e : T0Env) (b : Bool) (h : s.Calm n) :
    ∃ u, Moves s u [.twin] [] ∧ u.twin.started = s.twin.started ∧ u.twin.link = s.twin.link ∧ u.Calm n ∧
      ((u.t0 n t0 e b).xch = s.xch → (u.t0 n t0 e b).twin.link = s.twin.link → s.taskT0 n t0 e b = u.t0 n t0 e b) := by
  refine ⟨if s.refTask = some n then
      { s with twin := { s.twin with split := s.twin.split.map (fun e => (e.1, e.2 + 1)) } } else s, ?_⟩
  have hm : Moves s (if s.refTask = some n then
      { s with twin := { s.twin with split := s.twin.split.map (fun e => (e.1, e.2 + 1)) } } else s) [.twin] [] := .ite .set (.refl _ _ _)
  have h1 : (if s.refTask = some n then
      { s with twin := { s.twin with split := s.twin.split.map (fun e => (e.1, e.2 + 1)) } } else s : State).twin.link = s.twin.link := by split <;> rfl
  have h2 : (if s.refTask = some n then
      { s with twin := { s.twin with split := s.twin.split.map (fun e => (e.1, e.2 + 1)) } } else s : State).twin.started = s.twin.started := by split <;> rfl
  have h3 : (if s.refTask = some n then
      { s with twin := { s.twin with split := s.twin.split.map (fun e => (e.1, e.2 + 1)) } } else s : State).follows = s.follows := by split <;> rfl
  have h4 : (if s.refTask = some n then
      { s with twin := { s.twin with split := s.twin.split.map (fun e => (e.1, e.2 + 1)) } } else s : State).twin.task n = s.twin.task n := by split <;> rfl
  unfold State.taskT0; dsimp only
  generalize (if s.refTask = some n then
      { s with twin := { s.twin with split := s.twin.split.map (fun e => (e.1, e.2 + 1)) } } else s : State) = u at *
  have ut := State.task_of_cyc hm.cyc n
  refine ⟨hm, h2, h1, ⟨h3 ▸ h.decides, by rw [h1]; exact h.link, by rw [hm.xch]; exact h.exchange, by rw [hm.cfg]; exact h.firmware,
    by rw [hm.cfg]; exact h.changing, by rw [hm.cyc]; exact h.modes, by rw [ut]; exact h.limits, by rw [ut]; exact h.restart,
    by rw [ut]; exact h.due, by rw [ut]; exact h.policy, by rw [ut]; exact h.mode, by rw [ut]; exact h.outputs, by rw [ut]; exact h.stays, by rw [h4]; exact h.release⟩, ?_⟩
  intro hx hl
  have e1 : u.fwRestart = u := by simp [State.fwRestart, hm.cfg, h.firmware]
  have e2 : u.missedT0 n = u := by simp [State.missedT0, h4, h.release]
  rw [e1, e2]
  generalize u.t0 n t0 e b = v at *
  have e4 : v.goAt n = v := by
    unfold State.goAt; dsimp only; split
    · rw [hx, h.exchange]; simp
    · rfl
  have hc := h.link
  rw [e4, if_neg (by simp [hl, hc])]
  simp [State.idleProof, hl, hc]

/-- A T0 of a calm task with no cycle in progress starts the next cycle (02 R33, R49, R57). -/
theorem State.taskT0_starts (s : State) (n t0 : Nat) (e : T0Env) (b : Bool) (h : s.Calm n) (hs : s.twin.started = true) (hr : (s.task n).run = none)
    (hl : ∀ x, (s.task n).lastTc = some x → x + 30000 ≤ t0) :
    Moves s (s.taskT0 n t0 e b) [.dio, .aio, .safe, .time, .net, .cyc, .fab, .twin] [(.net, 10), (.cyc, 7), (.fab, 6), (.fab, 7), (.safe, 5)] ∧
    ∃ r w p v, ((s.taskT0 n t0 e b).task n).run = some r ∧ r.k = (s.task n).cycle + 1#64 ∧ r.t0 = t0 ∧ r.agreed = false ∧ r.retired = [] ∧ r.tc = none ∧
      r.faulted = false ∧ (∀ x, (s.task n).resumed = false → (s.task n).prevT0 = some x → p = t0 - x) ∧
      (∀ m, m ≠ n → (s.taskT0 n t0 e b).task m = s.task m) ∧ (b = true → (s.taskT0 n t0 e b).raised .cyc 7 = true) ∧
      (s.taskT0 n t0 e b).task n = { s.task n with
        csw := w, deltaT := p, lastT0 := some t0, stopDue := false, stale := false, prevT0 := some t0, run := some r, skip := 0, late := false, overran := false
        resumed := false, exchanged := false, takeover := false, unit := v } := by
  obtain ⟨u, mu, us, ul, uc, ue⟩ := s.taskT0_calm n t0 e b h
  obtain ⟨tc, tm⟩ := u.t0Takes_calm n t0 e.absent uc
  have ut := State.task_of_cyc mu.cyc n
  have hw : ∃ w, Moves u w [.dio, .aio, .net, .cyc] [] ∧ w.task n = { s.task n with lastT0 := some t0, stopDue := false, stale := false } ∧
      (∀ m, m ≠ n → w.task m = s.task m) ∧ u.t0 n t0 e b = w.startCycle n t0 e false b := by
    unfold State.t0; dsimp only
    generalize u.t0Takes n t0 e.absent = v at tc tm ⊢
    have vt : v.task n = { s.task n with lastT0 := some t0, stopDue := false } := by
      have : v.task n = { u.task n with lastT0 := some t0, stopDue := false } := by
        simp only [State.task, tc]; exact Tbl.get_set_self _ _ _ _
      rw [this, ut]
    have vm : ∀ m, m ≠ n → v.task m = s.task m := by
      intro m hm
      have : v.task m = u.task m := by
        simp only [State.task, tc]; exact Tbl.get_set_ne _ _ _ hm
      rw [this, State.task_of_cyc mu.cyc m]
    have nb : ∀ (x : TaskSt), x.run = none → x.lastTc = (s.task n).lastTc → x.busyAt t0 = false := by
      intro x hx hy
      simp only [TaskSt.busyAt, hx, hy]
      cases hz : (s.task n).lastTc with
      | none => rfl
      | some y => have := hl y hz; simp; omega
    generalize hz : v.modTask n (fun t => { t with stale := t.pol == .active && t.mode != .stop && t.busyAt t0 }) = w
    have mw : Moves v w [.cyc] [] := by rw [← hz]; exact v.moves_modTask _ _ _
    have wt : w.task n = { s.task n with lastT0 := some t0, stopDue := false, stale := false } := by
      rw [← hz]; simp only [State.modTask, State.task_setTask_self, vt]
      rw [nb { s.task n with lastT0 := some t0, stopDue := false } hr rfl]; simp
    have wm : ∀ m, m ≠ n → w.task m = s.task m := by
      intro m hm; rw [← hz, ← vm m hm]; exact v.task_setTask_ne _ hm
    clear hz
    replace tm : Moves u w [.dio, .aio, .net, .cyc] [] := tm.trans mw.stay
    have wp : (w.task n).pol = .active := by rw [wt]; exact h.policy
    have wo : (w.task n).mode = .run := by rw [wt]; exact h.mode
    have wl : (w.task n).busyAt t0 = false := by rw [wt]; exact nb { s.task n with lastT0 := some t0, stopDue := false, stale := false } hr rfl
    have wg : (w.task n).gone = false := by rw [wt]; exact h.stays
    have wx : w.xch = s.xch := by rw [tm.xch, mu.xch]
    have wc : w.carryPending n t0 = false := by simp [State.carryPending, State.exchanging, wx, h.exchange]
    have wy : ∀ x : State, x.twin = w.twin → x.cyclesRun = true := by
      intro x hx
      simp only [State.cyclesRun, State.holdsToken, hx, tm.twin, us, hs]
      have : u.twin.link ≠ .catchingUp := uc.link
      simp [this]
    have wa : (w.task n).toApply = false := by rw [wt]; exact h.outputs
    rw [if_neg (by rw [wp]; simp), if_neg (by rw [wo]; simp), if_neg (by rw [wl]; simp), wc, wy w rfl]
    have mg : ∀ x : State, x.cyc = w.cyc → (x.task n).gone = false := fun x hx => by rw [State.task_of_cyc hx]; exact wg
    have mr : Moves w (w.reapply n) [.dio, .aio] [] := w.moves_reapply n []
    have ed : w.applyDue n e.absent = (w.reapply n, true) := by simp [State.applyDue, wa]
    simp only [Bool.false_eq_true, if_false, Bool.not_true, State.t0Cycle, ed, wo, wy _ mr.twin, mg _ mr.cyc, Bool.or_self]
    refine ⟨w.reapply n, (tm.trans mr.stay), ?_, ?_, ?_⟩
    · rw [State.task_of_cyc mr.cyc n, wt]
    · intro m hm; rw [State.task_of_cyc mr.cyc m, wm m hm]
    · rfl
  obtain ⟨w, mw, wt, wm, eq⟩ := hw
  have ms := w.moves_startCycle n t0 e false b
  have xe : (u.t0 n t0 e b).xch = s.xch := by rw [eq, ms.xch, mw.xch, mu.xch]
  have le : (u.t0 n t0 e b).twin.link = s.twin.link := by
    rw [eq, State.link_startCycle, mw.twin, ul]
  have et := (ue xe le).trans eq
  obtain ⟨r, c, p, h1, h2, h3, h4, h5, h6, h7, h8, h9, h10⟩ := w.task_startCycle n t0 e false b
  rw [et]
  refine ⟨(mu.stay.trans mw.stay).trans ms.stay, r, c, p, ((w.startCycle n t0 e false b).task n).unit, h1, ?_, h3, h4, h5, h6, h7, ?_, ?_, ?_, ?_⟩
  · rw [h2, wt]
  · intro x a1 a2; exact h8 x (by rw [wt]; exact a1) (by rw [wt]; exact a2)
  · intro m hm; rw [h9 m hm, wm m hm]
  · intro hb; subst hb; exact w.raised_startCycle n t0 e false
  · rw [h10, wt]; dsimp only; rw [h.outputs]

/-- A T0 of a calm task whose cycle is still in progress is skipped (02 R37). -/
theorem State.taskT0_skips (s : State) (n t0 : Nat) (e : T0Env) (b : Bool) (h : s.Calm n) (r : CycleRun) (hr : (s.task n).run = some r) :
    Moves s (s.taskT0 n t0 e b) [.dio, .aio, .net, .cyc, .twin] [(.cyc, 6)] ∧ (s.taskT0 n t0 e b).raised .cyc 6 = true ∧
      (s.taskT0 n t0 e b).cyc = { s.cyc with
        resuming := false, skipCnt := s.cyc.skipCnt + 1#64
        tasks := Tbl.set {} s.cyc.tasks n { s.task n with lastT0 := some t0, stopDue := false, stale := true, skip := (s.task n).skip + 1 } } := by
  obtain ⟨u, mu, us, ul, uc, ue⟩ := s.taskT0_calm n t0 e b h
  obtain ⟨tc, tm⟩ := u.t0Takes_calm n t0 e.absent uc
  have hw : ∃ w, Moves u w [.dio, .aio, .net, .cyc] [] ∧
      w.cyc = { (s.modTask n (fun t => { t with lastT0 := some t0, stopDue := false, stale := true })).cyc with resuming := false } ∧ u.t0 n t0 e b = (w.skipT0 n).reapply n := by
    unfold State.t0; dsimp only
    have tc' : (u.t0Takes n t0 e.absent).cyc = { (s.modTask n (fun t => { t with lastT0 := some t0, stopDue := false })).cyc with resuming := false } := by
      rw [tc]; simp only [State.modTask, State.setTask, State.task, mu.cyc]
    generalize u.t0Takes n t0 e.absent = v at tc' tm ⊢
    have vt : v.task n = { s.task n with lastT0 := some t0, stopDue := false } := by
      simp only [State.task, tc']; exact Tbl.get_set_self _ _ _ _
    generalize hz : v.modTask n (fun t => { t with stale := t.pol == .active && t.mode != .stop && t.busyAt t0 }) = w
    have mw : Moves v w [.cyc] [] := by rw [← hz]; exact v.moves_modTask _ _ _
    have wc : w.cyc = { (s.modTask n (fun t => { t with lastT0 := some t0, stopDue := false, stale := true })).cyc with resuming := false } := by
      have e : (v.modTask n (fun t => { t with stale := t.pol == .active && t.mode != .stop && t.busyAt t0 })) =
          v.setTask n { s.task n with lastT0 := some t0, stopDue := false, stale := true } := by
        have e0 : ((v.task n).pol == .active && (v.task n).mode != .stop && (v.task n).busyAt t0) = true := by
          rw [vt]; simp [TaskSt.busyAt, hr, h.policy, h.mode]
        unfold State.modTask; dsimp only; rw [e0, vt]
      rw [← hz, e]
      simp only [State.setTask, State.modTask, tc', Tbl.set_set]
    clear hz
    replace tm : Moves u w [.dio, .aio, .net, .cyc] [] := tm.trans mw.stay
    have wt : w.task n = { s.task n with lastT0 := some t0, stopDue := false, stale := true } := by
      simp only [State.task, wc]; exact Tbl.get_set_self _ _ _ _
    have wp : (w.task n).pol = .active := by rw [wt]; exact h.policy
    have wo : (w.task n).mode = .run := by rw [wt]; exact h.mode
    have wr : (w.task n).busyAt t0 = true := by rw [wt]; simp [TaskSt.busyAt, hr]
    rw [if_neg (by rw [wp]; simp), if_neg (by rw [wo]; simp), if_pos wr]
    exact ⟨w, tm, wc, rfl⟩
  obtain ⟨w, mw, wc, eq⟩ := hw
  have mk := w.moves_skipT0 n
  have mr : Moves (w.skipT0 n) ((w.skipT0 n).reapply n) [.dio, .aio] [] := State.moves_reapply _ n []
  have tk : ∀ x : State, x.twin = w.twin → x.twin.link = s.twin.link := by intro x hx; rw [hx, mw.twin, ul]
  have et := (ue (by rw [eq, mr.xch, mk.xch, mw.xch, mu.xch]) (by rw [eq]; exact tk _ (by rw [mr.twin, mk.twin]))).trans eq
  rw [et]
  refine ⟨((mu.stay.trans mw.stay).trans mk.stay).trans mr.stay, mr.2.1 _ _ ?_, ?_⟩
  · exact State.raised_setEvent _ _ _ (by decide)
  · rw [mr.cyc]
    unfold State.skipT0
    simp only [State.cyc_setEvent, State.modTask, State.setTask, State.task, wc, Tbl.get_set_self, Tbl.set_set]

/-! The agreed image, the commit and the end of a cycle. -/

theorem State.moves_takeImage (s : State) (n : Nat) (r : CycleRun) (l : List InVal) (c : Nat) (d : Bool) :
    Moves s (s.takeImage n r l c d) [.cyc, .fab, .twin] [(.fab, 6), (.fab, 7)] := by
  unfold State.takeImage; dsimp only
  refine Moves.trans ?_ (State.moves_releaseBillets _ _).stay
  exact .set (by simp [State.sans, State.setTask, State.modTwin])
theorem State.task_takeImage (s : State) (n : Nat) (r : CycleRun) (l : List InVal) (c : Nat) (d : Bool) :
    ∃ m g, (s.takeImage n r l c d).task n = { s.task n with
      run := some { r with inputs := l, agreed := true, released := m }, csw := Bits.putBit (s.task n).csw 23 (degraded (s.progTask n).inputs l true r.rick), lastGood := g } := by
  unfold State.takeImage; dsimp only
  generalize (List.map _ (l.zip _)) = g
  generalize hu : State.modTwin _ n _ = u
  have ht : u.task n = { s.task n with
      run := some { r with inputs := l, agreed := true }, csw := Bits.putBit (s.task n).csw 23 (degraded (s.progTask n).inputs l true r.rick), lastGood := g } := by
    rw [← hu]; exact Tbl.get_set_self _ _ _ _
  rw [u.task_releaseBillets n _ (by rw [ht]), ht]
  exact ⟨_, _, rfl⟩
theorem State.twin_takeImage (s : State) (n : Nat) (r : CycleRun) (l : List InVal) (c : Nat) (d : Bool) :
    (s.takeImage n r l c d).twin = ({ s.twin with substCnt := s.twin.substCnt + BitVec.ofNat 64 c } : TwinBlk).setTask n { s.twin.task n with differs := d } := by
  unfold State.takeImage; dsimp only
  rw [(State.moves_releaseBillets _ _).twin]
  rfl

theorem State.moves_finishAll (l : List Origin) (s : State) (a b : Nat) (m : List (Block × Nat)) : Moves s (s.finishAll l a b) [.done] m :=
  Moves.foldl _ (fun s o => (Moves.refl s _ _).finish o a b (by simp)) l s
theorem State.moves_fire (s : State) (n : Nat) (k : DWord) (m : List (Block × Nat)) : Moves s (s.fire n k) [] m := by
  unfold State.fire
  have hb := s.bare_capture n k .self
  have he := s.event_capture n k .self
  generalize s.capture n k .self = c at hb he
  obtain ⟨s', c⟩ := c
  have h : ∀ m, Moves s s' [] m := fun m => ⟨State.sans_of_bare hb _, .of_event he m⟩
  cases c
  · exact h m
  · exact ((h [(.recorder, 3)]).setEvent _ _ (by decide) (by simp)).mono (by simp) (by simp [reportBits])
  · exact ((h [(.recorder, 5)]).setEvent _ _ (by decide) (by simp)).mono (by simp) (by simp [reportBits])
  · exact h m
theorem State.moves_commitTriggers (s : State) (n : Nat) (k : DWord) (a b : Tbl Byte) (m : List (Block × Nat)) :
    Moves s (s.commitTriggers n k a b) [] m := by
  unfold State.commitTriggers; exact Moves.foldl _ (fun s i => s.moves_fire _ _ _) _ _
theorem State.moves_rickFrame (s : State) (u : Nat) (f : RickHead → RickOut) (m : List (Block × Nat)) : Moves s (s.rickFrame u f) [.cfg] m := by
  unfold State.rickFrame State.modUnit State.rickSend; dsimp only; split
  · exact .set
  · exact .set
theorem State.moves_sendOuts (s : State) (n : Nat) (k : DWord) (img : Tbl Byte) (m : List (Block × Nat)) :
    Moves s (s.sendOuts n k img) [.cfg] m := by
  unfold State.sendOuts
  refine Moves.foldl _ (fun s u => ?_) _ _
  extract_lets l x x0 d served
  clear_value served d
  split
  · exact .refl _ _ _
  · have h : Moves s { s with cfg := d } [.cfg] m := .set
    split
    · exact h.trans (State.moves_rickFrame _ _ _ _)
    · exact h

/-- The durable commit of a module that acts alone (02 R36, R41-R43, R47). -/
theorem State.commit_alone (s : State) (n : Nat) (r : CycleRun) (tc : Nat) (hs : s.twin.link = .severed) (hx : s.xch.cur.state = .idle) :
    Moves s (s.commit n r tc) [.cyc, .twin, .done, .cfg] [] ∧ (∀ m, m ≠ n → (s.commit n r tc).task m = s.task m) ∧
      ∃ t, (s.commit n r tc).task n = t ∧ t.run = none ∧ t.cycle = r.k ∧ t.toApply = true ∧ t.bank = !(s.task n).bank ∧ t.image = (s.task n).draft ∧
        t.draft = (s.task n).draft ∧ t.lastTc = some tc ∧ t.late = r.late ∧ (if (s.task n).recNext then t.rec1 else t.rec0) = some (CommitRec.sealed {
          task := n, cycle := r.k, sec := BitVec.ofNat 64 (tc / 1000000000), ns := BitVec.ofNat 32 (tc % 1000000000), bank := !(s.task n).bank
          hash := commitHash (s.progTask n) (s.task n).draft r.k }) := by
  unfold State.commit; dsimp only
  have hh : (s.draftHash n r.k).hash = commitHash (s.progTask n) (s.task n).draft r.k := rfl
  rw [← hh]
  generalize s.draftHash n r.k = o
  generalize o.hash = h
  simp only [State.modTask]
  generalize hw : (s.task n).durable n r tc h = w
  have fw : w.run = none ∧ w.cycle = r.k ∧ w.toApply = true ∧ w.bank = !(s.task n).bank ∧ w.image = (s.task n).draft ∧
        w.draft = (s.task n).draft ∧ w.lastTc = some tc ∧ w.late = r.late ∧ (if (s.task n).recNext then w.rec1 else w.rec0) = some (CommitRec.sealed {
          task := n, cycle := r.k, sec := BitVec.ofNat 64 (tc / 1000000000), ns := BitVec.ofNat 32 (tc % 1000000000), bank := !(s.task n).bank
          hash := h }) := by
    rw [← hw]
    refine ⟨rfl, rfl, rfl, rfl, ?_, ?_, rfl, rfl, ?_⟩
    · simp [TaskSt.durable, TaskSt.image]
    · simp [TaskSt.durable, TaskSt.draft]
    · simp only [TaskSt.durable]; split <;> rfl
  clear hw
  have m1 : Moves s (s.setTask n w) [.cyc, .twin, .done, .cfg] [] := (s.moves_setTask n w []).stay
  have t1 : (s.setTask n w).task n = w := by simp
  have o1 : ∀ m, m ≠ n → (s.setTask n w).task m = s.task m := fun m hm => s.task_setTask_ne w hm
  have l1 : (s.setTask n w).twin.link = .severed := hs
  generalize s.setTask n w = u at m1 t1 o1 l1 ⊢
  generalize hv : State.commitTriggers _ n r.k (s.task n).image (s.task n).draft = v
  have mv : Moves u v [.twin] [] := by rw [← hv]; exact (u.moves_modTwin n _ []).trans (State.moves_commitTriggers _ _ _ _ _ []).stay
  have lv : v.twin.link = .severed := by rw [← hv, (State.moves_commitTriggers _ _ _ _ _ []).twin]; exact l1
  clear hv
  generalize hy : State.sendOuts _ n r.k (s.task n).draft = y
  have me : Moves v (v.endSteps n) [.cyc, .done] [] := by
    unfold State.endSteps; dsimp only
    refine Moves.trans ?_ (State.moves_finishAll _ _ _ _ []).stay
    exact .set
  have my : Moves v y [.cyc, .done, .cfg] [] := by
    rw [← hy]; exact me.stay.trans (State.moves_sendOuts _ _ _ _ []).stay
  have ty : ∀ m, y.task m = u.task m := by
    intro m
    rw [← State.task_of_cyc mv.cyc m]
    have hc : y.cyc.tasks = v.cyc.tasks := by
      rw [← hy, (State.moves_sendOuts _ _ _ _ []).cyc]; unfold State.endSteps; rw [(State.moves_finishAll _ _ _ _ []).cyc]
    simp only [State.task, hc]
  have ly : y.twin.link = .severed := by rw [my.twin]; exact lv
  clear hy
  have ag : y.agrees = false := by simp [State.agrees, ly]
  have ld : y.leads = false := by simp [State.leads, ly]
  have et : y.tellCommit n r o (s.task n).draft = y := by simp [State.tellCommit, ag, ld]
  have yx : y.xch.cur.state = .idle := by rw [my.xch, mv.xch, m1.xch]; exact hx
  have ex : y.xchCommit n = y := by simp [State.xchCommit, yx]
  have ej : y.judge n = y := by simp [State.judge, ld]
  have ef : y.judgeFault n = y := by simp [State.judgeFault, ld]
  rw [et, ex, ej, ef]
  exact ⟨(m1.trans mv.stay).trans my.stay, fun m hm => by rw [ty, o1 m hm], _, rfl, by rw [ty, t1]; exact fw⟩

theorem State.moves_pnlStop (s : State) (row : Option Nat) (m : List (Block × Nat)) : Moves s (s.pnlStop row) [.pnl] m := by
  unfold State.pnlStop
  refine Moves.foldl _ (fun s i => ?_) _ _
  dsimp only; split
  · split
    · unfold State.journal; dsimp only; repeat' split
      all_goals exact .set
    · exact .refl _ _ _
  · exact .refl _ _ _
theorem State.moves_pnlPowerLoss (s : State) (m : List (Block × Nat)) : Moves s s.pnlPowerLoss [.pnl] m := by
  unfold State.pnlPowerLoss; dsimp only
  have h := s.moves_pnlStop none m
  generalize s.pnlStop none = u at h ⊢
  refine h.trans ?_; exact .set
/-- A change of some tasks that a second change leaves alone. -/
theorem State.task_foldl_mod (f : TaskSt → TaskSt) (hf : ∀ t, f (f t) = f t) (l : List Nat) (s : State) (m : Nat) :
    (l.foldl (fun s n => s.modTask n f) s).task m = if m ∈ l then f (s.task m) else s.task m := by
  induction l generalizing s with
  | nil => simp
  | cons n l ih =>
    rw [List.foldl_cons, ih]
    by_cases h : m = n
    · subst h; simp [State.modTask, hf]
    · have : (s.modTask n f).task m = s.task m := s.task_setTask_ne _ h
      simp [this, h]
theorem State.moves_foldl_mod (f : TaskSt → TaskSt) (l : List Nat) (s : State) (m : List (Block × Nat)) :
    Moves s (l.foldl (fun s n => s.modTask n f) s) [.cyc] m := Moves.foldl _ (fun s n => s.moves_modTask n f m) _ _

/-! The engine fabric. -/

@[simp] theorem FabBlk.engine_setEngine (f : FabBlk) (e : Nat) (x : Engine) : (f.setEngine e x).engine e = x := Tbl.get_set_self _ _ _ _
theorem FabBlk.engine_setEngine_ne (f : FabBlk) {e d : Nat} (x : Engine) (h : d ≠ e) : (f.setEngine e x).engine d = f.engine d :=
  Tbl.get_set_ne _ _ _ h
theorem State.run_put (s : State) (b : BRef) (d e : Nat) :
    ((s.fab.setEngine d { s.fab.engine d with deque := s.insertRank b (s.fab.engine d).deque }).engine e).run = (s.fab.engine e).run := by
  by_cases h : e = d
  · subst h; simp
  · rw [FabBlk.engine_setEngine_ne _ _ h]
theorem State.run_place (s : State) (b : BRef) (h e : Nat) : ((s.place b h).fab.engine e).run = (s.fab.engine e).run := by
  unfold State.place; dsimp only; split
  · exact s.run_put b h e
  · split
    · simp only [State.fab_setEvent]; exact s.run_put b _ e
    · simp only [State.fab_setEvent]; rfl
theorem State.run_foldl_place (l : List Billet) (n e : Nat) (s : State) :
    ((l.foldl (fun s b => s.place { task := n, num := b.num } b.home) s).fab.engine e).run = (s.fab.engine e).run := by
  induction l generalizing s with
  | nil => rfl
  | cons b l ih => rw [List.foldl_cons, ih, State.run_place]
theorem State.run_releaseBillets (s : State) (n e : Nat) : ((s.releaseBillets n).fab.engine e).run = (s.fab.engine e).run := by
  unfold State.releaseBillets; dsimp only; rw [State.run_foldl_place]; rfl
theorem Engine.run_settle (x : Engine) : x.settle.run = x.run := by unfold Engine.settle; split <;> rfl
theorem State.run_freeEngine (s : State) (e : Nat) : ((s.freeEngine e).fab.engine e).run = none := by
  simp [State.freeEngine, Engine.run_settle]
theorem State.moves_freeEngine (s : State) (e : Nat) (m : List (Block × Nat)) : Moves s (s.freeEngine e) [.fab] m := by
  unfold State.freeEngine; exact .set
theorem State.moves_addUse (s : State) (n us : Nat) (m : List (Block × Nat)) : Moves s (s.addUse n us) [.cyc] m := by
  unfold State.addUse; exact s.moves_modTask _ _ _
theorem State.task_addUse (s : State) (n us : Nat) (r : CycleRun) (h : (s.task n).run = some r) :
    (s.addUse n us).task n = { s.task n with run := some { r with use := r.use + us } } := by
  unfold State.addUse State.modTask; rw [State.task_setTask_self]; dsimp only; rw [h]; rfl

theorem TaskSt.draft_setDraft (t : TaskSt) (d : Tbl Byte) : (t.setDraft d).draft = d ∧ (t.setDraft d).image = t.image := by
  cases h : t.bank <;> simp [TaskSt.setDraft, TaskSt.draft, TaskSt.image, h]
theorem State.task_settleFault (s : State) (n : Nat) (r : CycleRun) (h : (s.task n).run = some r) (hf : r.faulted = true) :
    Moves s (s.settleFault n) [.cyc] [] ∧ (s.settleFault n).task n = if s.fab.running n = 0 then (s.task n).abandon else s.task n := by
  unfold State.settleFault; rw [h]; dsimp only
  split
  · rename_i c; simp [hf] at c
    exact ⟨s.moves_modTask _ _ _, by rw [if_pos c]; simp [State.modTask]⟩
  · rename_i c; simp [hf] at c
    exact ⟨.refl _ _ _, by rw [if_neg c]⟩
theorem State.refill_facts (s : State) (e : Nat) : Moves s (s.refill e) [.fab] [] ∧
    (s.refill e).fab.faultAddr = s.fab.faultAddr ∧ (s.refill e).fab.faultInfo = s.fab.faultInfo := by
  unfold State.refill; repeat' split
  · exact ⟨.set, rfl, rfl⟩
  · exact ⟨.refl _ _ _, rfl, rfl⟩
  · exact ⟨.refl _ _ _, rfl, rfl⟩
/-- Places that become free take billets of the queue, and the fault registers stay (03 R77). -/
theorem State.refillAll_facts (s : State) : Moves s s.refillAll [.fab] [] ∧
    s.refillAll.fab.faultAddr = s.fab.faultAddr ∧ s.refillAll.fab.faultInfo = s.fab.faultInfo := by
  unfold State.refillAll
  have k : ∀ (l : List BRef) (u : State), Moves u (l.foldl (fun s _ =>
      match (List.range 16).find? (fun e => decide ((s.fab.engine e).deque.length < dequeSize)) with
      | some e => s.refill e
      | none => s) u) [.fab] [] ∧ (l.foldl (fun s _ =>
      match (List.range 16).find? (fun e => decide ((s.fab.engine e).deque.length < dequeSize)) with
      | some e => s.refill e
      | none => s) u).fab.faultAddr = u.fab.faultAddr ∧ (l.foldl (fun s _ =>
      match (List.range 16).find? (fun e => decide ((s.fab.engine e).deque.length < dequeSize)) with
      | some e => s.refill e
      | none => s) u).fab.faultInfo = u.fab.faultInfo := by
    intro l; induction l with
    | nil => exact fun u => ⟨.refl _ _ _, rfl, rfl⟩
    | cons b l ih =>
      intro u
      rw [List.foldl_cons]
      split
      · rename_i e _
        have h := u.refill_facts e
        have i := ih (u.refill e)
        exact ⟨h.1.trans i.1, i.2.1.trans h.2.1, i.2.2.trans h.2.2⟩
      · exact ih u
  exact k _ s
/-- A billet fault of a module that decides for itself, with no exchange (03 R75). -/
theorem State.billetFault_alone (s : State) (e : Nat) (b : BRef) (kind : Nat) (addr : Word) (r : CycleRun) (h : (s.task b.task).run = some r)
    (hf : s.follows = false) (hl : s.leads = false) (hx : s.xch.cur.state = .idle) :
    Moves s (s.billetFault e b kind addr) [.fab, .cyc, .twin] [(.fab, 1)] ∧ (s.billetFault e b kind addr).raised .fab 1 = true ∧
      (s.billetFault e b kind addr).fab.faultAddr = addr ∧
      (s.billetFault e b kind addr).fab.faultInfo = Bits.fld kind 28 ||| Bits.fld e 24 ||| Bits.fld (b.task % 32) 16 ||| Bits.fld (b.num % 4096) 0 ∧
      ((s.billetFault e b kind addr).twin.task b.task).ownFault = some r.k ∧
      ∃ c : Bool, (s.billetFault e b kind addr).task b.task = (fun t : TaskSt => if c then t.abandon else t)
        { s.task b.task with due := some (s.task b.task).limits.stop, dueFrom := none, run := some { r with faulted := true } } := by
  unfold State.billetFault; simp only [h]
  generalize (Bits.fld kind 28 ||| Bits.fld e 24 ||| Bits.fld (b.task % 32) 16 ||| Bits.fld (b.num % 4096) 0) = info
  generalize hu : State.recordEvent { s with fab := { s.fab with faultInfo := info, faultAddr := addr } } .fab 1 b.task info = u
  have mu : Moves s u [.fab] [(.fab, 1)] := by
    rw [← hu]; exact Moves.recordEvent .set _ _ _ _ (by decide) (by simp)
  have ru : u.raised .fab 1 = true := by rw [← hu]; exact State.raised_recordEvent _ _ _ _ _ (by decide)
  have fu : u.fab = { s.fab with faultInfo := info, faultAddr := addr } := by rw [← hu]; simp
  clear hu
  generalize hv : u.modTwin b.task (fun w => { w with ownFault := some r.k }) = v
  have mv : Moves u v [.twin] [] := by rw [← hv]; exact u.moves_modTwin _ _ _
  have fv : v.follows = false := by
    rw [← hv]; simp only [State.follows, State.holdsToken, State.modTwin] at hf ⊢
    show (u.twin.started && _ && _) = false
    rw [mu.twin]; exact hf
  have ov : (v.twin.task b.task).ownFault = some r.k := by rw [← hv]; simp [State.modTwin]
  have lv : v.leads = false := by
    rw [← hv]; simp only [State.leads, State.holdsToken, State.modTwin] at hl ⊢
    show ((u.twin.ownLow && !u.twin.partnerLow) && (u.twin.link != .severed)) = false
    rw [mu.twin]; exact hl
  clear hv
  rw [fv]; simp only [Bool.false_eq_true, if_false]
  generalize hw : v.modTask b.task (fun t => { t with due := some t.limits.stop, dueFrom := none }) = w
  have mw : Moves v w [.cyc] [] := by rw [← hw]; exact v.moves_modTask _ _ _
  have tv := State.task_of_cyc (mv.cyc.trans mu.cyc) b.task
  have tw : w.task b.task = { s.task b.task with due := some (s.task b.task).limits.stop, dueFrom := none } := by
    rw [← hw, ← tv]; simp [State.modTask]
  clear hw
  unfold State.abandonCycle; dsimp only
  have xw : w.xch = s.xch := by rw [mw.xch, mv.xch, mu.xch]
  have xp : w.xchPivotFault b.task = w := by
    unfold State.xchPivotFault State.xchAbort; rw [xw, hx]; split
    · split <;> simp
    · rfl
  rw [xp]
  generalize hy : w.modTask b.task (fun t => { t with run := t.run.map (fun r => { r with faulted := true }) }) = y
  have my : Moves w y [.cyc] [] := by rw [← hy]; exact w.moves_modTask _ _ _
  have ty : y.task b.task = { s.task b.task with due := some (s.task b.task).limits.stop, dueFrom := none, run := some { r with faulted := true } } := by
    rw [← hy]; simp only [State.modTask, State.task_setTask_self, tw, h, Option.map_some]
  clear hy
  generalize hz : ({ y with fab := y.fab.dropTask b.task } : State) = z
  have mz : Moves y z [.fab] [] := by rw [← hz]; exact .set
  have fz : z.fab.faultAddr = addr ∧ z.fab.faultInfo = info := by
    rw [← hz]; show (y.fab.dropTask b.task).faultAddr = _ ∧ (y.fab.dropTask b.task).faultInfo = _
    rw [my.fab, mw.fab, mv.fab, fu]; exact ⟨rfl, rfl⟩
  clear hz
  obtain ⟨mz', fa, fi⟩ := z.refillAll_facts
  generalize z.refillAll = z' at mz' fa fi ⊢
  replace mz : Moves y z' [.fab] [] := mz.trans mz'
  replace fz : z'.fab.faultAddr = addr ∧ z'.fab.faultInfo = info := ⟨fa.trans fz.1, fi.trans fz.2⟩
  clear fa fi mz'
  clear z
  rename' z' => z
  have tz : z.task b.task = y.task b.task := State.task_of_cyc mz.cyc _
  obtain ⟨ms, ts⟩ := z.task_settleFault b.task { r with faulted := true } (by rw [tz, ty]) rfl
  generalize z.settleFault b.task = x at ms ts
  have tx : x.twin = v.twin := by rw [ms.twin, mz.twin, my.twin, mw.twin]
  have jx : x.judgeFault b.task = x := by
    have : x.leads = false := by simp only [State.leads, State.holdsToken, tx]; exact lv
    simp [State.judgeFault, this]
  rw [jx]
  have mall : Moves u x [.fab, .cyc, .twin] [] := (((mv.stay.trans mw.stay).trans my.stay).trans mz.stay).trans ms.stay
  refine ⟨mu.stay.trans mall.stay, mall.2.1 _ _ ru, by rw [ms.fab]; exact fz.1, by rw [ms.fab]; exact fz.2, by rw [tx]; exact ov, ?_⟩
  refine ⟨decide (z.fab.running b.task = 0), ?_⟩
  rw [ts, tz, ty]
  by_cases c : z.fab.running b.task = 0 <;> simp [c]

theorem State.moves_settleFault (s : State) (n : Nat) (m : List (Block × Nat)) : Moves s (s.settleFault n) [.cyc] m := by
  unfold State.settleFault; repeat' split
  all_goals first | exact .refl _ _ _ | exact s.moves_modTask _ _ _
theorem State.moves_setFab (s : State) (f : FabBlk) : Moves s (s.setFab f) [.fab] [(.fab, 3)] := by
  unfold State.setFab; exact Moves.setEventIf .set _ _ _ (by decide) (by simp)
@[simp] theorem State.fab_setFab (s : State) (f : FabBlk) : (s.setFab f).fab = f := by simp [State.setFab]
theorem State.moves_returnBillet (s : State) (e : Nat) (b : BRef) (m : List (Block × Nat)) : Moves s (s.returnBillet e b) [.fab] m := by
  unfold State.returnBillet; repeat' split
  all_goals first | exact .refl _ _ _ | exact .set
/-- A billet that comes back waits at the tail, marked RERUN (03 R68, R81). -/
theorem State.fab_returnBillet (s : State) (e : Nat) (b : BRef) (r : CycleRun) (h : (s.task b.task).run = some r) (hf : r.faulted = false) :
    (s.returnBillet e b).fab = s.fab.setEngine e { s.fab.engine e with deque := (s.fab.engine e).deque ++ [{ b with rerun := true }] } := by
  unfold State.returnBillet; rw [h]; simp [hf]
theorem State.engine_returnBillet (s : State) (e : Nat) (b : BRef) :
    ∃ d, (s.returnBillet e b).fab.engine e = { s.fab.engine e with deque := d } := by
  unfold State.returnBillet; repeat' split
  · exact ⟨_, rfl⟩
  · simp
  · exact ⟨_, rfl⟩

/-! The switch of an exchange. -/

theorem State.moves_foldl_record {α : Type} (l : List α) (n : Nat) (s : State) :
    Moves s (l.foldl (fun s _ => s.recordEvent .xch 8 n (s.xchReg 0)) s) [] [(.xch, 8)] :=
  Moves.foldl _ (fun s _ => (Moves.refl s _ _).recordEvent _ _ _ _ (by decide) (by simp)) _ _
theorem TaskSt.both_setImage (t : TaskSt) (d : Tbl Byte) : (t.setImage d).image = d ∧ (t.setImage d).draft = d := by
  cases h : t.bank <;> simp [TaskSt.setImage, TaskSt.image, TaskSt.draft, h]
/-- A task switches to its image in the new layout (05 R150). -/
theorem State.carry_facts (s : State) (p : Package) (n : Nat) (new : Tbl Byte) :
    ∃ u, s.carry p n new = u ∧ Moves s u [.cyc, .xch] [(.xch, 8)] ∧ u.xch.switched = Bits.setBit s.xch.switched n ∧ u.xch.cur.state = s.xch.cur.state ∧
      u.xch.cur.inStop = s.xch.cur.inStop ∧ (u.task n).image = new ∧ (u.task n).draft = new ∧ (u.task n).exchanged = true ∧ (u.task n).staged = true ∧
      ∀ m, m ≠ n → u.task m = s.task m := by
  refine ⟨_, rfl, ?_⟩
  have e : ∃ (t' : TaskSt) (x : XchBlk) (a : Tbl AreaSt) (l : List (Nat × Nat × Bool)), s.carry p n new = l.foldl (fun s _ => s.recordEvent .xch 8 n (s.xchReg 0))
        { s.setTask n t' with xch := x, cyc := { (s.setTask n t').cyc with areas := a } } ∧
      (∃ y : TaskSt, t' = { y.setImage new with
        staged := true, exchanged := true, consec := 0, cycle := t'.cycle, lastGood := t'.lastGood, mode := t'.mode, gone := t'.gone }) ∧
      x.switched = Bits.setBit s.xch.switched n ∧ x.cur.state = s.xch.cur.state ∧ x.cur.inStop = s.xch.cur.inStop := by
    unfold State.carry
    extract_lets
    exact ⟨_, _, _, _, rfl, ⟨s.task n, rfl⟩, rfl, rfl, rfl⟩
  obtain ⟨t', x, a, l, he, ⟨y, hy⟩, x1, x2, x3⟩ := e
  rw [he]
  have m1 : Moves s { s.setTask n t' with xch := x, cyc := { (s.setTask n t').cyc with areas := a } } [.cyc, .xch] [(.xch, 8)] :=
    .set (by simp [State.sans, State.setTask])
  have tt : ∀ m, State.task { s.setTask n t' with xch := x, cyc := { (s.setTask n t').cyc with areas := a } } m = (s.setTask n t').task m := fun _ => rfl
  have xx : State.xch { s.setTask n t' with xch := x, cyc := { (s.setTask n t').cyc with areas := a } } = x := rfl
  generalize ({ s.setTask n t' with xch := x, cyc := { (s.setTask n t').cyc with areas := a } } : State) = v at m1 tt xx ⊢
  have m2 := State.moves_foldl_record l n v
  have b := y.both_setImage new
  refine ⟨m1.trans m2.stay, by rw [m2.xch, xx, x1], by rw [m2.xch, xx, x2], by rw [m2.xch, xx, x3], ?_⟩
  have tm : ∀ m, (l.foldl (fun s _ => s.recordEvent .xch 8 n (s.xchReg 0)) v).task m = (s.setTask n t').task m := fun m => by
    rw [State.task_of_cyc m2.cyc, tt]
  refine ⟨?_, ?_, ?_, ?_, fun m hm => by rw [tm, s.task_setTask_ne _ hm]⟩
  all_goals rw [tm, State.task_setTask_self, hy]
  · exact b.1
  · exact b.2

end Sys2Proof.Machine
end

