-- ==== Sys2Proof/Laws/Load.lean ====
section
/-! SUPPORT. Laws/Load.lean: what loading a configuration moves, and the parameters that are then in force. -/
set_option Elab.async false
set_option maxRecDepth 4000
set_option linter.all false

namespace Sys2Proof.Machine

/-- An angle clock is put with the events of its lock. -/
theorem State.moves_acPut (s : State) (c : Nat) (x : AngleClock) : Moves s (s.acPut c x) [.time] [(.time, 7), (.time, 8)] := by
  unfold State.acPut; extract_lets was t
  have h : Moves s t [.time] [(.time, 7), (.time, 8)] := .set (by simp [t, State.sans])
  clear_value t was
  repeat' split
  · exact h.setEvent _ _ (by decide) (by simp)
  · exact h.setEvent _ _ (by decide) (by simp)
  · exact h
theorem State.timeCfg_acPut (s : State) (c : Nat) (x : AngleClock) : (s.acPut c x).time.cfg = s.time.cfg := by
  unfold State.acPut; dsimp only
  repeat' split
  all_goals simp [TimeBlk.setClock]
theorem State.moves_mainsJudge (s : State) : Moves s s.mainsJudge [.time] [(.time, 7), (.time, 8)] := by
  unfold State.mainsJudge
  refine Moves.foldl _ (fun s c => ?_) _ _
  dsimp only; split
  · exact s.moves_acPut _ _
  · exact .refl _ _ _
theorem State.timeCfg_mainsJudge (s : State) : s.mainsJudge.time.cfg = s.time.cfg := by
  unfold State.mainsJudge
  have k : ∀ (l : List Nat) (u : State), (l.foldl (fun (s : State) c =>
    let x := s.time.clock c
    if x.mode = 1 ∨ x.mode = 2 then s.acPut c { x with state := if s.mainsLocked x then .locked else .search } else s) u).time.cfg = u.time.cfg := by
    intro l; induction l with
    | nil => intro u; rfl
    | cons a l ih =>
      intro u; rw [List.foldl_cons, ih]; dsimp only; split
      · exact u.timeCfg_acPut _ _
      · rfl
  exact k _ _
theorem State.moves_loadTime (s : State) (c : StationCfg) : Moves s (s.loadTime c) [.time] [(.time, 7), (.time, 8)] := by
  unfold State.loadTime; extract_lets u
  have h : Moves s u [.time] [(.time, 7), (.time, 8)] := Moves.foldl _ (fun s i => s.moves_acPut _ _) _ _
  clear_value u
  exact (h.trans (.set (t := { u with time := _ }))).trans (State.moves_mainsJudge _)
theorem State.timeCfg_loadTime (s : State) (c : StationCfg) : (s.loadTime c).time.cfg = c.timeCfg := by
  unfold State.loadTime; dsimp only; rw [State.timeCfg_mainsJudge]
theorem State.moves_loadDio (s : State) (c : StationCfg) (b : Bool) (m : List (Block × Nat)) : Moves s (s.loadDio c b) [.dio] m := by
  unfold State.loadDio; exact .set
theorem State.moves_loadAio (s : State) (c : StationCfg) (b : Bool) (m : List (Block × Nat)) : Moves s (s.loadAio c b) [.aio] m := by
  unfold State.loadAio; exact .set
theorem State.moves_loadNet (s : State) (c : StationCfg) (b : Bool) (m : List (Block × Nat)) : Moves s (s.loadNet c b) [.net] m := by
  unfold State.loadNet; exact .set
theorem State.moves_loadRec (s : State) (c : StationCfg) (m : List (Block × Nat)) : Moves s (s.loadRec c) [.recorder] m := by
  unfold State.loadRec; dsimp only
  exact .set (by simp [State.sans]) rfl
theorem State.moves_loadAx (s : State) (c : StationCfg) : Moves s (s.loadAx c) [.ax, .pnl] [(.pnl, 0)] := by
  unfold State.loadAx; dsimp only; exact .setEventIf .set _ _ _ (by decide) (by simp)
theorem State.moves_loadTasks (s : State) (c : StationCfg) (b : Bool) (m : List (Block × Nat)) : Moves s (s.loadTasks c b) [.cyc, .cfg] m := by
  unfold State.loadTasks
  extract_lets old lim u x0 fresh v
  have h : Moves s u [.cyc, .cfg] m := by
    refine Moves.foldl _ (fun s n => ?_) _ _
    simp only [lim]; split
    · exact (s.moves_modTask _ _ []).stay
    · exact (s.moves_modTask _ _ []).stay
  clear_value u
  split
  · exact h.trans .set
  · have k : Moves u v [.cyc, .cfg] m := by
      exact Moves.foldl _ (fun s e => (s.moves_modTask _ _ []).stay) _ _
    clear_value v
    exact (h.trans k).trans .set
theorem State.moves_closeSession (s : State) : Moves s s.closeSession [.mnt, .mod, .recorder] [(.mnt, 1)] := by
  unfold State.closeSession; split
  · exact .refl _ _ _
  · exact Moves.setEvent .set _ _ (by decide) (by simp)
theorem State.moves_loadKeys (s : State) (c : StationCfg) : Moves s (s.loadKeys c) [.mnt, .mod, .recorder, .cfg] [(.mnt, 1)] := by
  unfold State.loadKeys; extract_lets gone x0 u
  have h : Moves s u [.mnt, .mod, .recorder, .cfg] [(.mnt, 1)] := .set (by simp [u, State.sans])
  clear_value u gone
  repeat' split
  · exact .refl _ _ _
  · exact h.trans u.moves_closeSession.stay
  · exact h
theorem State.moves_loadUnits (s : State) (c : StationCfg) (m : List (Block × Nat)) : Moves s (s.loadUnits c) [.cfg] m := by
  unfold State.loadUnits; exact .set

/-- What stays of the recorder where an operation does not move it but for reports. -/
theorem Moves.recorder {s t : State} {l : List Part} {m : List (Block × Nat)} (h : Moves s t l m) (n : .recorder ∉ l := by simp) :
    t.recorder.bare = s.recorder.bare := by
  have e := congrArg State.recorder h.1
  simpa only [State.sans, if_neg n] using e

/-- The parts that loading a configuration moves, and the EVENT bits that it may set: locks of angle clocks, the waveform band of the
panel, and the end of a session whose key is gone. -/
abbrev loadParts : List Part := [.mod, .mnt, .recorder, .time, .dio, .aio, .ax, .pnl, .net, .cyc, .cfg]
abbrev loadBits : List (Block × Nat) := [(.time, 7), (.time, 8), (.pnl, 0), (.mnt, 1)]

/-- What the blocks hold of the configuration once the loaders of the blocks have run. -/
theorem loadBlocks_facts (s : State) (c : StationCfg) (b : Bool) :
    ∃ u, (((((s.loadDio c b).loadAio c b).loadTime c).loadNet c b).loadRec c).loadAx c = u ∧
      Moves s u [.recorder, .time, .dio, .aio, .ax, .pnl, .net] [(.time, 7), (.time, 8), (.pnl, 0)] ∧ u.recorder.quota = c.quotas ∧
      (if s.cfg.loaded then u.recorder.nextDefs = some c.trigs ∧ u.recorder.trigDefs = s.recorder.trigDefs else u.recorder.trigDefs = c.trigs) ∧
      u.time.cfg = c.timeCfg ∧ u.net.pairCfg = c.pairCfg ∧ u.pnl.cfg = c.pnl := by
  refine ⟨_, rfl, ?_⟩
  have stay4 : ∀ {x y : State} {l : List Part}, Moves x y l [(.time, 7), (.time, 8)] → (∀ p ∈ l, p ∈ [Part.time, .dio, .aio, .net]) →
      Moves x y [.time, .dio, .aio, .net] [(.time, 7), (.time, 8)] := fun h k => h.mono k (fun e he => Or.inl he)
  have m1 := stay4 (s.moves_loadDio c b _) (by simp)
  generalize s.loadDio c b = a at m1 ⊢
  have m2 := m1.trans (stay4 (a.moves_loadAio c b _) (by simp))
  generalize a.loadAio c b = d at m2 ⊢
  have m3 := m2.trans (stay4 (d.moves_loadTime c) (by simp))
  have t1 := d.timeCfg_loadTime c
  generalize d.loadTime c = e at m3 t1 ⊢
  have m4 := m3.trans (stay4 (e.moves_loadNet c b _) (by simp))
  have n1 : (e.loadNet c b).net.pairCfg = c.pairCfg := rfl
  have t2 := (e.moves_loadNet c b []).time
  generalize e.loadNet c b = f at m4 n1 t2 ⊢
  have m5 := (m4.stay (l' := [.recorder, .time, .dio, .aio, .ax, .pnl, .net]) (m' := [(.time, 7), (.time, 8), (.pnl, 0)])).trans
    ((f.moves_loadRec c []).stay (l' := [.recorder, .time, .dio, .aio, .ax, .pnl, .net]) (m' := [(.time, 7), (.time, 8), (.pnl, 0)]))
  have r1 : (f.loadRec c).recorder.quota = c.quotas := by unfold State.loadRec; dsimp only; split <;> rfl
  have r2 : if s.cfg.loaded then (f.loadRec c).recorder.nextDefs = some c.trigs ∧ (f.loadRec c).recorder.trigDefs = s.recorder.trigDefs
      else (f.loadRec c).recorder.trigDefs = c.trigs := by
    rw [← m4.cfg]
    have e := congrArg Recorder.trigDefs m4.recorder
    unfold State.loadRec; dsimp only; split
    · exact ⟨rfl, e⟩
    · rfl
  have q := f.moves_loadRec c []
  generalize f.loadRec c = g at m5 r1 r2 q ⊢
  have m6 := m5.trans ((g.moves_loadAx c).stay (l' := [.recorder, .time, .dio, .aio, .ax, .pnl, .net]) (m' := [(.time, 7), (.time, 8), (.pnl, 0)]))
  have p1 : (g.loadAx c).pnl.cfg = c.pnl := by unfold State.loadAx; simp
  have z := (g.moves_loadAx c).recorder
  refine ⟨m6, ?_, ?_, ?_, ?_, p1⟩
  · exact (congrArg Recorder.quota z).trans r1
  · have z1 : (g.loadAx c).recorder.trigDefs = g.recorder.trigDefs := by have e := congrArg Recorder.trigDefs z; exact e
    have z2 : (g.loadAx c).recorder.nextDefs = g.recorder.nextDefs := by have e := congrArg Recorder.nextDefs z; exact e
    rw [z1, z2]; exact r2
  · rw [(g.moves_loadAx c).time, q.time, t2, t1]
  · rw [(g.moves_loadAx c).net, q.net, n1]

/-- What the configuration block keeps when a configuration is loaded: the slots, the pending switch and the counts. -/
structure CfgBlk.SameSlots (x y : CfgBlk) : Prop where
  slotLoaded : y.slotLoaded = x.slotLoaded
  pend       : y.pend = x.pend
  switchCnt  : y.switchCnt = x.switchCnt
  slotA      : y.slotA = x.slotA
  slotB      : y.slotB = x.slotB
  phase      : y.phase = x.phase
  prog       : y.prog = x.prog
  lanes      : y.lanes = x.lanes

theorem State.slots_loadTasks (s : State) (c : StationCfg) (b : Bool) : s.cfg.SameSlots (s.loadTasks c b).cfg ∧ (b = true → (s.loadTasks c b).cfg.taskCfgs = c.tasks) := by
  unfold State.loadTasks
  extract_lets old lim u x0 fresh v y0
  have h : u.cfg = s.cfg := by
    refine (Moves.foldl (l := [.cyc]) (m := []) _ (fun s n => ?_) _ s : Moves s u _ _).cfg
    simp only [lim]; split
    · exact s.moves_modTask _ _ []
    · exact s.moves_modTask _ _ []
  have k : v.cfg = s.cfg := ((Moves.foldl (l := [.cyc]) (m := []) _ (fun s e => s.moves_modTask _ _ []) _ u : Moves u v _ _).cfg).trans h
  have x : x0 = s.cfg := h
  have y : y0 = s.cfg := k
  clear_value u v x0 y0
  split
  · subst x; exact ⟨⟨rfl, rfl, rfl, rfl, rfl, rfl, rfl, rfl⟩, fun _ => rfl⟩
  · rename_i hb
    subst y; exact ⟨⟨rfl, rfl, rfl, rfl, rfl, rfl, rfl, rfl⟩, fun q => absurd q hb⟩
theorem State.slots_loadKeys (s : State) (c : StationCfg) : s.cfg.SameSlots (s.loadKeys c).cfg := by
  unfold State.loadKeys; extract_lets gone x0 u
  have h : s.cfg.SameSlots u.cfg := ⟨rfl, rfl, rfl, rfl, rfl, rfl, rfl, rfl⟩
  clear_value u gone
  repeat' split
  · exact ⟨rfl, rfl, rfl, rfl, rfl, rfl, rfl, rfl⟩
  · rw [u.moves_closeSession.cfg]; exact h
  · exact h
theorem CfgBlk.SameSlots.trans {x y z : CfgBlk} (a : x.SameSlots y) (b : y.SameSlots z) : x.SameSlots z :=
  ⟨b.1.trans a.1, b.2.trans a.2, b.3.trans a.3, b.4.trans a.4, b.5.trans a.5, b.6.trans a.6, b.7.trans a.7, b.8.trans a.8⟩

/-- Loading a configuration: what it moves, and the parameters that are then in force (16 R449, R450). Only a running module takes
keys, and it takes trigger definitions on a later tick (13 R385). -/
theorem loadConfig_facts (s : State) (c : StationCfg) (b : Bool) :
    Moves s (s.loadConfig c b) loadParts loadBits ∧ (b = true → Moves s (s.loadConfig c b) [.recorder, .time, .dio, .aio, .ax, .pnl, .net, .cyc, .cfg] [(.time, 7), (.time, 8), (.pnl, 0)]) ∧
    s.cfg.SameSlots (s.loadConfig c b).cfg ∧ (s.loadConfig c b).cfg.cur = c ∧ (s.loadConfig c b).cfg.loaded = true ∧
    (b = true → (s.loadConfig c b).cfg.taskCfgs = c.tasks) ∧ (s.loadConfig c b).recorder.quota = c.quotas ∧
    (if s.cfg.loaded then (s.loadConfig c b).recorder.nextDefs = some c.trigs ∧ (s.loadConfig c b).recorder.trigDefs = s.recorder.trigDefs
      else (s.loadConfig c b).recorder.trigDefs = c.trigs) ∧
    (s.loadConfig c b).time.cfg = c.timeCfg ∧ (s.loadConfig c b).net.pairCfg = c.pairCfg ∧ (s.loadConfig c b).pnl.cfg = c.pnl := by
  obtain ⟨u, e, mu, q1, q2, q3, q4, q5⟩ := loadBlocks_facts s c b
  unfold State.loadConfig; dsimp only
  rw [e]; clear e
  have mt := u.moves_loadTasks c b []
  obtain ⟨st, tt⟩ := u.slots_loadTasks c b
  generalize u.loadTasks c b = v at mt st tt ⊢
  have kk : ∃ w, (if b then v else v.loadKeys c) = w ∧ Moves v w [.mnt, .mod, .recorder, .cfg] [(.mnt, 1)] ∧ (b = true → w = v) ∧
      v.cfg.SameSlots w.cfg ∧ w.recorder.trigDefs = v.recorder.trigDefs ∧ w.recorder.nextDefs = v.recorder.nextDefs ∧ w.recorder.quota = v.recorder.quota := by
    refine ⟨_, rfl, ?_⟩
    split
    · exact ⟨.refl _ _ _, fun _ => rfl, ⟨rfl, rfl, rfl, rfl, rfl, rfl, rfl, rfl⟩, rfl, rfl, rfl⟩
    · rename_i hb
      refine ⟨v.moves_loadKeys c, fun h => absurd h hb, v.slots_loadKeys c, ?_⟩
      have k : ∀ x : State, x.closeSession.recorder.trigDefs = x.recorder.trigDefs ∧ x.closeSession.recorder.nextDefs = x.recorder.nextDefs ∧
          x.closeSession.recorder.quota = x.recorder.quota := by
        intro x; unfold State.closeSession; split
        · exact ⟨rfl, rfl, rfl⟩
        · have q : ∀ y : State, y.recorder.trigDefs = x.recorder.trigDefs → y.recorder.nextDefs = x.recorder.nextDefs →
              y.recorder.quota = x.recorder.quota → (y.setEvent .mnt 1).recorder.trigDefs = x.recorder.trigDefs ∧
              (y.setEvent .mnt 1).recorder.nextDefs = x.recorder.nextDefs ∧ (y.setEvent .mnt 1).recorder.quota = x.recorder.quota := by
            intro y h1 h2 h3
            have e := ((Moves.refl y [] [(.mnt, 1)]).setEvent .mnt 1 (by decide) (by simp)).recorder
            have e1 := congrArg Recorder.trigDefs e
            have e2 := congrArg Recorder.nextDefs e
            have e3 := congrArg Recorder.quota e
            exact ⟨Eq.trans e1 h1, Eq.trans e2 h2, Eq.trans e3 h3⟩
          exact q _ rfl rfl rfl
      unfold State.loadKeys; extract_lets gone x0 y
      have h : y.recorder = v.recorder := rfl
      clear_value y gone
      rw [← h]
      repeat' split
      · rw [h]; exact ⟨rfl, rfl, rfl⟩
      · exact k y
      · exact ⟨rfl, rfl, rfl⟩
  obtain ⟨w, e, mw, ew, sw, w1, w2, w3⟩ := kk
  rw [e]; clear e
  have ml : Moves w { w.loadUnits c with cfg := { (w.loadUnits c).cfg with cur := c, loaded := true } } [.cfg] [] := (w.moves_loadUnits c []).trans .set
  have vr := mt.recorder
  have uc := mu.cfg
  refine ⟨((mu.stay.trans mt.stay).trans mw.stay).trans ml.stay, fun hb => ?_, ?_, rfl, rfl, fun hb => ?_, ?_, ?_, ?_, ?_, ?_⟩
  · rw [ew hb] at ml ⊢
    exact ((mu.stay.trans mt.stay)).trans ml.stay
  · rw [← uc]; exact (st.trans sw).trans ⟨rfl, rfl, rfl, rfl, rfl, rfl, rfl, rfl⟩
  · rw [ew hb]; exact tt hb
  · show w.recorder.quota = _
    rw [w3]; have e := congrArg Recorder.quota vr; exact Eq.trans e q1
  · show if s.cfg.loaded then w.recorder.nextDefs = _ ∧ w.recorder.trigDefs = _ else w.recorder.trigDefs = _
    have e1 : v.recorder.trigDefs = u.recorder.trigDefs := by have e := congrArg Recorder.trigDefs vr; exact e
    have e2 : v.recorder.nextDefs = u.recorder.nextDefs := by have e := congrArg Recorder.nextDefs vr; exact e
    rw [w1, w2, e1, e2]; exact q2
  · show w.time.cfg = _
    rw [mw.time, mt.time]; exact q3
  · show w.net.pairCfg = _
    rw [mw.net, mt.net]; exact q4
  · show w.pnl.cfg = _
    rw [mw.pnl, mt.pnl]; exact q5

end Sys2Proof.Machine
end

