-- ==== Sys2Proof/Laws/Regs.lean ====
section
/-! SUPPORT. Laws/Regs.lean: what a write of the register interface comes to (15 R423-R432). -/
set_option Elab.async false
set_option maxRecDepth 4000
set_option linter.all false
namespace Sys2Proof.Machine

theorem State.written_host (s : State) : s.written .host = { s with mod := { s.mod with host := { s.mod.host with expired := none } } } := rfl
theorem State.written_maint (s : State) : s.written .maint = { s with mod := { s.mod with maint := { s.mod.maint with expired := none } } } := rfl

/-- A write to a register offset. -/
theorem State.busWrite_reg (s : State) (who : Requester) (off : Nat) (w : Word) (h : off < 0x4000) (h4 : off % 4 = 0) :
    s.busWrite who off w = (s.written who).regWrite who off w 0xFFFFFFFF#32 false := by
  unfold State.busWrite; dsimp only
  rw [if_neg (by omega), if_neg (by omega), if_neg (by omega), if_neg (by omega), if_neg (by omega)]
  rfl
/-- A write to a complement port. -/
theorem State.busWrite_port (s : State) (who : Requester) (off : Nat) (w : Word) (h : off < 0x4000) (hr : isReg off = true) :
    s.busWrite who (off + 0x4000) w = (s.written who).complement who off w (s.req who).expired := by
  have h4 : off % 4 = 0 := by unfold isReg at hr; simp at hr; exact hr.1
  unfold State.busWrite; dsimp only
  rw [if_neg (by omega), if_neg (by omega), if_neg (by omega), if_neg (by omega), if_pos (by omega)]
  simp only [Nat.add_sub_cancel, hr, if_true]
  rfl
/-- A write to the bit alias of a bit. -/
theorem State.busWrite_bit (s : State) (who : Requester) (off : Nat) (b : Fin 32) (w : Word) (h : off < 0x4000) (h4 : off % 4 = 0) :
    s.busWrite who (0x80000 + off * 32 + b.val * 4) w =
      (s.written who).regWrite who off (Bits.ofBool (Bits.bit w 0) b) (1#32 <<< b.val) true := by
  have hb := b.isLt
  unfold State.busWrite; dsimp only
  rw [if_neg (by omega), if_pos (by omega), if_neg (by omega)]
  have e1 : (0x80000 + off * 32 + b.val * 4) % 128 / 4 = b.val := by omega
  have e2 : (0x80000 + off * 32 + b.val * 4 - 0x80000) / 128 * 4 = off := by omega
  rw [e1, e2]
  rfl
/-- A write to a register that is not guarded. -/
theorem State.regWrite_plain (s : State) (who : Requester) (off : Nat) (w mask : Word) (al : Bool) (hr : isReg off = true) (hm : (accessOf off).2 &&& mask ≠ 0#32)
    (hw : s.mayWrite who off = true) (hg : (accessOf off).1 ≠ .g) : s.regWrite who off w mask al = s.writeBits who off w mask := by
  unfold State.regWrite; dsimp only
  rw [if_neg (by simp [hr, hm]), if_neg (by simp [hw]), if_neg hg]
/-- A write that a right forbids. -/
theorem State.regWrite_refused (s : State) (who : Requester) (off : Nat) (w mask : Word) (al : Bool) (hr : isReg off = true) (hm : (accessOf off).2 &&& mask ≠ 0#32)
    (hw : s.mayWrite who off = false) : s.regWrite who off w mask al = s.rightRefused who := by
  unfold State.regWrite; dsimp only
  rw [if_neg (by simp [hr, hm]), if_pos (by simp [hw])]
/-- A value for a guarded register. -/
theorem State.regWrite_guarded (s : State) (who : Requester) (off : Nat) (w mask : Word) (hr : isReg off = true) (hm : (accessOf off).2 &&& mask ≠ 0#32)
    (hw : s.mayWrite who off = true) (hg : (accessOf off).1 = .g) : s.regWrite who off w mask false = s.valueStep who off w := by
  unfold State.regWrite; dsimp only
  rw [if_neg (by simp [hr, hm]), if_neg (by simp [hw]), if_pos hg]; simp
theorem State.regWrite_alias (s : State) (who : Requester) (off : Nat) (w mask : Word) (hr : isReg off = true) (hm : (accessOf off).2 &&& mask ≠ 0#32)
    (hw : s.mayWrite who off = true) (hg : (accessOf off).1 = .g) : s.regWrite who off w mask true = s.guardErr who 5 off := by
  unfold State.regWrite; dsimp only
  rw [if_neg (by simp [hr, hm]), if_neg (by simp [hw]), if_pos hg]; simp
/-- A register without writable bits in the mask ignores the write. -/
theorem State.regWrite_none (s : State) (who : Requester) (off : Nat) (w mask : Word) (al : Bool) (h : isReg off = false ∨ (accessOf off).2 &&& mask = 0#32) :
    s.regWrite who off w mask al = s := by
  unfold State.regWrite; dsimp only
  rw [if_pos]; rcases h with h | h <;> simp [h]

/-! Writing records (13 R374-R377, R389-R392). -/

theorem State.moves_eventEntry (s : State) (e : EventEntry) (m : List (Block × Nat)) : Moves s (s.eventEntry e) [] m :=
  ⟨State.sans_of_bare (s.bare_eventEntry e) _, (s.raises_eventEntry e).may (by simp)⟩
theorem State.recorder_of_bare {s t : State} (h : t.bare = s.bare) : t.recorder.bare = s.recorder.bare := congrArg State.recorder h
/-- A record is written. -/
theorem State.writeReq_facts (s : State) (q : RecReq) :
    Moves s (s.writeReq q) [.recorder, .done] [(.recorder, 4), (.recorder, 6)] ∧
      (s.writeReq q).recorder.bare = (s.recorder.put (s.recordOf q)).bare := by
  unfold State.writeReq; dsimp only
  generalize s.recordOf q = a
  have m1 : Moves s { s with recorder := s.recorder.put a } [.recorder, .done] [(.recorder, 4), (.recorder, 6)] := .set
  have b1 : (State.recorder { s with recorder := s.recorder.put a }).bare = (s.recorder.put a).bare := rfl
  generalize ({ s with recorder := s.recorder.put a } : State) = u at m1 b1 ⊢
  have m2 : Moves u (if q.entry then u.eventEntry { source := q.source, code := q.code, detail := q.detail, recSeq := a.seq } else u) [] [] :=
    .ite (u.moves_eventEntry _ _) (.refl _ _ _)
  have b2 : (if q.entry then u.eventEntry { source := q.source, code := q.code, detail := q.detail, recSeq := a.seq } else u).recorder.bare = u.recorder.bare := by
    split
    · exact State.recorder_of_bare (State.bare_eventEntry _ _)
    · rfl
  generalize (if q.entry then u.eventEntry { source := q.source, code := q.code, detail := q.detail, recSeq := a.seq } else u) = v at m2 b2 ⊢
  refine ⟨?_, ?_⟩
  · refine ((m1.trans m2.stay).trans ?_).trans ?_ (t := ((v.setEventIf (a.seq == 0xFFFF#64) .recorder 6).setEventIf (q.source == 12 && q.code == 0x100) .recorder 4))
    · exact ((Moves.refl v _ _).setEventIf _ _ _ (by decide) (by simp)).setEventIf _ _ _ (by decide) (by simp)
    · exact ⟨State.sans_complete _ (by simp) _ _ _ _ _ _, .of_event (by simp) _⟩
  · have : ∀ w : State, ∀ x, (w.complete q.origin stOk 0 0#64 x).recorder = w.recorder := by
      intro w x; unfold State.complete State.completeHost State.completeMnt; repeat' split
      all_goals rfl
    rw [this, State.recorder_of_bare (State.bare_setEventIf _ _ _ _), State.recorder_of_bare (State.bare_setEventIf _ _ _ _), b2, b1]

end Sys2Proof.Machine
end

