-- ==== Sys2Proof/Laws/Access.lean ====
section
/-! SUPPORT. Laws/Access.lean: register writes that are commands of their own, service passes and configurations. -/
set_option Elab.async false
set_option maxRecDepth 4000
set_option linter.all false

namespace Sys2Proof.Machine

/-- A command that sets one EVENT bit and completes a command. -/
theorem endsTo_setEvent_finish {i : Instr} {s u : State} {b : Block} {n : Nat} {o : Origin} {a d : Nat} (e : exec i s = .next (State.finish (u.setEvent b n) o a d))
    (h : u.event = s.event) (hn : n < 32) : EndsTo i s u [(b, n)] := by
  refine .mk _ e (by rw [State.sans_finish [.done] (by simp), State.sans_setEvent]) ?_
  exact State.Raises.trans (l := [(b, n)]) (m := []) ((State.raises_setEvent u b n hn).from h) (.of_event (State.event_finish _ _ _ _))

/-- The switch of a configuration on a module without a partner. -/
theorem switchNow_facts (s : State) (c : StationCfg) (h : s.twin.link = .severed) : ∃ u : State, s.switchNow c = u.setEvent .cfg 0 ∧
    Moves s u loadParts loadBits ∧ u.cfg.slotLoaded = !s.cfg.slotLoaded ∧ u.cfg.cur = c ∧ u.cfg.pend = s.cfg.pend ∧
      u.cfg.switchCnt = Bits.inc s.cfg.switchCnt ∧ u.recorder.quota = c.quotas ∧
      (if s.cfg.loaded then u.recorder.nextDefs = some c.trigs ∧ u.recorder.trigDefs = s.recorder.trigDefs else u.recorder.trigDefs = c.trigs) ∧
      u.time.cfg = c.timeCfg ∧ u.net.pairCfg = c.pairCfg ∧ u.pnl.cfg = c.pnl := by
  obtain ⟨w, hw⟩ : ∃ w : State, w = { s with cfg := { s.cfg.flip with switchCnt := Bits.inc s.cfg.flip.switchCnt } } := ⟨_, rfl⟩
  obtain ⟨m, -, sl, f1, -, -, f2, f3, f4⟩ := loadConfig_facts w c false
  have wl : w.cfg.loaded = s.cfg.loaded := by rw [hw]; rfl
  have wr : w.recorder = s.recorder := by rw [hw]
  rw [wl, wr] at f3
  refine ⟨w.loadConfig c false, ?_, ?_, sl.slotLoaded.trans (by rw [hw]; rfl), f1, sl.pend.trans (by rw [hw]; rfl),
    sl.switchCnt.trans (by rw [hw]; rfl), f2, f3, f4⟩
  · unfold State.switchNow; dsimp only; rw [← hw, m.twin, if_pos (by rw [hw]; exact h)]
  · exact (Moves.set (t := w) (by rw [hw]; simp [State.sans]) (by rw [hw])).trans m

/-- A service pass with one descriptor of one ring. -/
theorem servicePass_one (s : State) (n : Fin 8) (d : Desc) (h1 : s.mod.failed = false) (h2 : s.svDown = false) (h3 : s.host.busMaster = true) (u : 0 < (s.host.sq n).used) :
    ∃ k, exec (.servicePass [(n, [d])]) s = .next (State.serveMnt (State.serveRing n (k + 1) [d] s)) := by
  have f : ∀ (l : List (Fin 8)) (g : State → Fin 8 → State), (∀ m t, m ≠ n → g t m = t) → l.Nodup → ∀ s, l.foldl g s = if n ∈ l then g s n else s := by
    intro l g hg; induction l with
    | nil => intro _ s; simp
    | cons a l ih =>
      intro nd s
      rw [List.foldl_cons]
      obtain ⟨na, nl⟩ := List.nodup_cons.mp nd
      by_cases e : a = n
      · subst e; rw [ih nl, if_neg na, if_pos (by simp)]
      · rw [hg a s e, ih nl]; simp [Ne.symm e]
  have kk : ∃ k, min (s.host.sq n).burst (s.host.sq n).used = k + 1 := by
    refine ⟨min (s.host.sq n).burst (s.host.sq n).used - 1, ?_⟩
    have : 1 ≤ (s.host.sq n).burst := by unfold SubRing.burst; omega
    omega
  obtain ⟨k, hk⟩ := kk
  refine ⟨k, ?_⟩
  show execServicePass _ s = _
  unfold execServicePass; dsimp only
  rw [if_neg (by simp [h1, h2]), f (List.finRange 8) _ (fun m t hm => ?_) (List.nodup_finRange 8), if_pos (List.mem_finRange n), if_pos h3, hk]
  · simp
  · have : ([(n, [d])] : List (Fin 8 × List Desc)).find? (fun e => e.1 == m) = none := by simp [Ne.symm hm]
    rw [this]; dsimp only; split
    · cases min (t.host.sq m).burst (t.host.sq m).used <;> rfl
    · rfl

/-- With no maintenance command waiting none is served. -/
theorem serveMnt_none (s : State) (h : s.mnt.cmds = []) : s.serveMnt = s := by unfold State.serveMnt; rw [h]; rfl

/-- The access of SCRATCH. -/
theorem accessOf_scratch : accessOf 0x5C = (.rw, 0xFFFFFFFF#32) ∧ ringReg 0x5C = none ∧ perRequester 0x5C = false := by decide

/-- Writing SCRATCH. -/
theorem putRw_scratch (s : State) (r : Requester) (w : Word) : s.putRw r 0x5C w = { s with mod := { s.mod with scratch := w } } := by
  unfold State.putRw; rw [accessOf_scratch.2.1]; dsimp only; rw [accessOf_scratch.2.2]; rfl

/-- The access of MNT_CMD. -/
theorem accessOf_mntCmd : isReg 0x3C0C = true ∧ accessOf 0x3C0C = (.sc, 0x7#32) := by decide

/-- Writing MNT_CMD starts its commands. -/
theorem busWrite_mntCmd (s : State) (w : Word) : s.busWrite .host 0x3C0C w = (s.written .host).startCmds 0x3C0C (w &&& (0xFFFFFFFF#32 &&& 0x7#32)) := by
  rw [State.busWrite_reg _ _ _ _ (by decide) (by decide), State.regWrite_plain _ _ _ _ _ _ accessOf_mntCmd.1 (by rw [accessOf_mntCmd.2]; decide) rfl (by rw [accessOf_mntCmd.2]; simp)]
  unfold State.writeBits; rw [accessOf_mntCmd.2]

/-- One bit of MNT_CMD starts one command. -/
theorem startCmds_one (s : State) (k : Fin 3) : s.startCmds 0x3C0C ((1#32 <<< k.val) &&& (0xFFFFFFFF#32 &&& 0x7#32)) = s.mntStart k.val := by
  have f : ∀ k : Fin 3, (List.range 3).filter (fun b => Bits.bit ((1#32 <<< k.val) &&& (0xFFFFFFFF#32 &&& 0x7#32)) b) = [k.val] := by decide
  unfold State.startCmds; rw [if_pos rfl, f k]; rfl

/-- Setting an EVENT bit with no trigger defined sets the bit only. -/
theorem State.setEventN_quiet (k : Nat) (s : State) (b : Block) (n : Nat) (h : s.recorder.trigDefs = []) : State.setEventN k s b n false = s.rawEvent b n := by
  cases k with
  | zero => rfl
  | succ k =>
    unfold State.setEventN State.ownEvent; dsimp only
    have : (s.rawEvent b n).recorder.onEvent b n = [] := by
      unfold Recorder.onEvent; rw [show (s.rawEvent b n).recorder.trigDefs = [] from h]; rfl
    simp [this]

/-- Recorders that agree but for reports agree on bad blocks and on the annex. -/
theorem recorder_bare_bad {r q : Recorder} (h : r.bare = q.bare) : r.bad = q.bad ∧ r.annexOk = q.annexOk ∧ r.annexTotal = q.annexTotal :=
  ⟨(congrArg Recorder.bad h : _), (congrArg Recorder.annexOk h : _), (congrArg Recorder.annexTotal h : _)⟩

/-- The access of SCRATCH_G. -/
theorem accessOf_scratchG : accessOf 0x60 = (.g, 0xFFFFFFFF#32) := by decide

/-- The second write of a guarded pair on SCRATCH_G. -/
theorem complementWrite_scratchG (s : State) (w : Word) (ns : Nat) (h : ns ≤ 1000) : exec (.complementWrite .host 0x60 w ns) s = .next ((s.written .host).complement .host 0x60 w s.mod.host.expired) := by
  change execComplementWrite .host 0x60 w ns s = _
  unfold execComplementWrite; dsimp only; rw [if_neg (show ¬1000 < ns by omega), if_pos (by decide), State.busWrite_port _ _ _ _ (by decide) (by decide)]; rfl

/-- Reading SCRATCH. -/
theorem readReg_scratch (s : State) : s.readReg .host 0x5C = s.mod.scratch := rfl

/-- The word of a doorbell keeps twelve bits. -/
theorem doorbell_word (o w : Word) (n : Nat) (h : n < 4096) (hw : w = BitVec.ofNat 32 n) :
    Bits.get (((o &&& 0xFFF#32) &&& ~~~(0xFFFFFFFF#32 &&& 0xFFF#32)) ||| (w &&& (0xFFFFFFFF#32 &&& 0xFFF#32))) 0 12 = n := by
  have e : ((o &&& 0xFFF#32) &&& ~~~(0xFFFFFFFF#32 &&& 0xFFF#32)) ||| (w &&& (0xFFFFFFFF#32 &&& 0xFFF#32)) = w &&& 0xFFF#32 := by
    rw [BitVec.and_assoc, show (0xFFF#32 &&& ~~~(0xFFFFFFFF#32 &&& 0xFFF#32) : Word) = 0#32 by decide, BitVec.and_zero, BitVec.zero_or,
      show (0xFFFFFFFF#32 &&& 0xFFF#32 : Word) = 0xFFF#32 by decide]
  rw [e, hw]
  unfold Bits.get
  rw [BitVec.toNat_and, BitVec.toNat_ofNat, BitVec.toNat_ofNat, Nat.mod_eq_of_lt (show n < 2 ^ 32 by omega), show 4095 % 2 ^ 32 = 2 ^ 12 - 1 by decide,
    Nat.and_two_pow_sub_one_eq_mod]
  omega

/-- A write of a submission tail doorbell reaches the ring. -/
theorem sqTailDoorbell_exec (s : State) (n : Fin 8) (tail : Nat) (h : tail < 4096) :
    exec (.sqTailDoorbell n tail) s = .next ((s.written .host).tailDoorbell n tail) := by
  have a : ∀ n : Fin 8, isReg (0x344C + 0x20 * n.val) = true ∧ accessOf (0x344C + 0x20 * n.val) = (.rw, 0xFFF#32) ∧ ringReg (0x344C + 0x20 * n.val) = some (.sq n, 0xC) ∧
    (0x344C + 0x20 * n.val < 0x4000 ∧ (0x344C + 0x20 * n.val) % 4 = 0 ∧ 0x344C + 0x20 * n.val ≠ 0x0420 ∧ 0x344C + 0x20 * n.val ≠ 0x3034) := by decide
  obtain ⟨a1, a2, a3, a4, a5, a6, a7⟩ := a n
  show Host.Outcome.next (s.busWrite .host (0x344C + 0x20 * n.val) (BitVec.ofNat 32 tail)) = _
  rw [State.busWrite_reg _ _ _ _ a4 a5, State.regWrite_plain _ _ _ _ _ _ a1 (by rw [a2]; decide) rfl (by rw [a2]; decide)]
  unfold State.writeBits; rw [a2]; dsimp only
  unfold listedValue; rw [if_neg a6, if_neg a7]
  unfold State.putRw; rw [a3]
  show Host.Outcome.next ((s.written .host).tailDoorbell n _) = _
  rw [doorbell_word _ _ tail h rfl]

/-- A write of a completion head doorbell reaches the ring. -/
theorem cqHeadDoorbell_exec (s : State) (n : Fin 8) (tail : Nat) (h : tail < 4096) :
    exec (.cqHeadDoorbell n tail) s = .next ((s.written .host).cqDoorbell n tail) := by
  have a : ∀ n : Fin 8, isReg (0x354C + 0x20 * n.val) = true ∧ accessOf (0x354C + 0x20 * n.val) = (.rw, 0xFFF#32) ∧ ringReg (0x354C + 0x20 * n.val) = some (.cq n, 0xC) ∧
    (0x354C + 0x20 * n.val < 0x4000 ∧ (0x354C + 0x20 * n.val) % 4 = 0 ∧ 0x354C + 0x20 * n.val ≠ 0x0420 ∧ 0x354C + 0x20 * n.val ≠ 0x3034) := by decide
  obtain ⟨a1, a2, a3, a4, a5, a6, a7⟩ := a n
  show Host.Outcome.next (s.busWrite .host (0x354C + 0x20 * n.val) (BitVec.ofNat 32 tail)) = _
  rw [State.busWrite_reg _ _ _ _ a4 a5, State.regWrite_plain _ _ _ _ _ _ a1 (by rw [a2]; decide) rfl (by rw [a2]; decide)]
  unfold State.writeBits; rw [a2]; dsimp only
  unfold listedValue; rw [if_neg a6, if_neg a7]
  unfold State.putRw; rw [a3]
  show Host.Outcome.next ((s.written .host).cqDoorbell n _) = _
  rw [doorbell_word _ _ tail h rfl]

/-- A write of the event head doorbell reaches the ring. -/
theorem eqHeadDoorbell_exec (s : State) (tail : Nat) (h : tail < 4096) :
    exec (.eqHeadDoorbell tail) s = .next ((s.written .host).eqDoorbell tail) := by
  have a : isReg 0x364C = true ∧ accessOf 0x364C = (.rw, 0xFFF#32) ∧ ringReg 0x364C = some (.eq, 0xC) := by decide
  obtain ⟨a1, a2, a3⟩ := a
  show Host.Outcome.next (s.busWrite .host 0x364C (BitVec.ofNat 32 tail)) = _
  rw [State.busWrite_reg _ _ _ _ (by decide) (by decide), State.regWrite_plain _ _ _ _ _ _ a1 (by rw [a2]; decide) rfl (by rw [a2]; decide)]
  unfold State.writeBits; rw [a2]; dsimp only
  unfold listedValue; rw [if_neg (by decide), if_neg (by decide)]
  unfold State.putRw; rw [a3]
  show Host.Outcome.next ((s.written .host).eqDoorbell _) = _
  rw [doorbell_word _ _ tail h rfl]

/-- The fields of HOST_ERR_INFO. -/
theorem errInfo_word (k rk n i : Nat) (h : (n < 8 ∧ k < 5 ∧ rk < 3)) :
    Bits.fld k 28 ||| Bits.fld rk 26 ||| Bits.fld n 23 ||| Bits.fld (i % 4096) 0 = BitVec.ofNat 32 (k * 2 ^ 28 + rk * 2 ^ 26 + n * 2 ^ 23) ||| BitVec.ofNat 32 (i % 4096) := by
  have e : ∀ (k : Fin 5) (rk : Fin 3) (n : Fin 8), Bits.fld k 28 ||| Bits.fld rk 26 ||| Bits.fld n 23 = BitVec.ofNat 32 (k.val * 2 ^ 28 + rk.val * 2 ^ 26 + n.val * 2 ^ 23) := by decide
  rw [e ⟨k, h.2.1⟩ ⟨rk, h.2.2⟩ ⟨n, h.1⟩]
  unfold Bits.fld; rw [BitVec.shiftLeft_zero]

/-- Opening the channels of a cell by CELL_OVERLOAD, one after the other (08 R244). -/
theorem foldl_cellOverload_facts (l : List Nat) (s : State) :
    let f := fun (c : DioCh) => { c.endPulse with ovlOpen := true }
    let t := l.foldl (fun s n => ({ s with dio := s.dio.modCh n f } : State).dioRaise n .cellOverload) s
    Moves s t [.dio] [(.dio, 1)] ∧ t.dio.cell = s.dio.cell ∧ ∀ n,
      (n ∈ l ∨ ((s.dio.getCh n).ovlOpen = true ∧ (s.dio.getCh n).pulse = none ∧ DioDiag.cellOverload ∈ (s.dio.getCh n).active) →
        (t.dio.getCh n).ovlOpen = true ∧ (t.dio.getCh n).pulse = none ∧ DioDiag.cellOverload ∈ (t.dio.getCh n).active) ∧
      (n ∉ l → t.dio.getCh n = s.dio.getCh n) := by
  intro f
  induction l generalizing s with
  | nil => simp [Moves.refl]
  | cons a l ih =>
    simp only [List.foldl_cons]
    have hr : ∀ c : DioCh, (DioCh.raise .cellOverload c).ovlOpen = c.ovlOpen ∧ (DioCh.raise .cellOverload c).pulse = c.pulse := by
      intro c; unfold DioCh.raise; split <;> simp
    have h1 := State.moves_dioRaise { s with dio := s.dio.modCh a f } a .cellOverload
    have h2 := fun i => State.getCh_dioRaise { s with dio := s.dio.modCh a f } a i .cellOverload
    have h3 := State.cell_dioRaise { s with dio := s.dio.modCh a f } a .cellOverload
    generalize ({ s with dio := s.dio.modCh a f } : State).dioRaise a .cellOverload = s1 at *
    obtain ⟨i1, i2, i3⟩ := ih s1
    refine ⟨Moves.trans (Moves.trans (Moves.set (t := { s with dio := s.dio.modCh a f })) h1) i1, i2.trans h3, fun n => ⟨fun hn => ?_, fun hn => ?_⟩⟩
    · refine (i3 n).1 ?_
      by_cases hna : n = a
      · right; rw [h2, if_pos hna]; simp [hr, f, Dio.modCh, DioCh.endPulse]
      · rcases hn with hn | hn
        · left; simpa [hna] using hn
        · right; rw [h2, if_neg hna]; simpa [Dio.modCh, Dio.getCh_setCh_ne _ _ hna] using hn
    · rw [List.mem_cons, not_or] at hn
      rw [(i3 n).2 hn.2, h2, if_neg hn.1]; simp [Dio.modCh, Dio.getCh_setCh_ne _ _ hn.1]

end Sys2Proof.Machine
end

