-- ==== Sys2Proof/Laws/Rick.lean ====
section
/-! SUPPORT. Laws/Rick.lean: the rick: units, rings and delays. -/
set_option Elab.async false
set_option maxRecDepth 4000
set_option linter.all false

namespace Sys2Proof.Machine

/-- Reading a rick unit after a change of one. -/
@[simp] theorem State.unit_modUnit (s : State) (u v : Nat) (f : RxUnit → RxUnit) :
    (s.modUnit u f).cfg.unit v = if v = u then f (s.cfg.unit u) else s.cfg.unit v := by
  simp [State.modUnit, CfgBlk.unit, Tbl.mod, Tbl.get_set]

/-- Changing a rick unit moves the configuration block only. -/
theorem State.moves_modUnit (s : State) (u : Nat) (f : RxUnit → RxUnit) (m : List (Block × Nat)) : Moves s (s.modUnit u f) [.cfg] m :=
  .set (by simp [State.sans, State.modUnit]) rfl

/-- Sending on the rick links. -/
theorem State.rickSend_facts (s : State) (o : RickOut) (m : List (Block × Nat)) :
    Moves s (s.rickSend o) [.cfg] m ∧ (s.rickSend o).cfg.units = s.cfg.units ∧ (s.rickSend o).event = s.event ∧
      (s.rickSend o).cfg.collecting = s.cfg.collecting ∧ (s.rickSend o).cfg.enumCmd = s.cfg.enumCmd := by
  unfold State.rickSend
  split
  · exact ⟨.set (by simp [State.sans]) rfl, rfl, rfl, rfl, rfl⟩
  · exact ⟨.refl _ _ _, rfl, rfl, rfl, rfl⟩

/-- The ring is broken exactly when some unit is reached from one end only (16 R453). -/
theorem State.ringCheck_facts (s : State) : Moves s s.ringCheck [.cfg] [(.cfg, 8), (.cfg, 9)] ∧ s.ringCheck.cfg.units = s.cfg.units ∧
    s.ringCheck.cfg.sent = s.cfg.sent ∧ s.ringCheck.mod = s.mod ∧ s.ringCheck.twin = s.twin ∧
    s.ringCheck.cfg.collecting = s.cfg.collecting ∧ s.ringCheck.cfg.enumCmd = s.cfg.enumCmd ∧
    (s.ringCheck.cfg.broken = true ↔ ∃ u : Nat, 1 ≤ u ∧ u ≤ 6 ∧ (s.cfg.unit u).half = true) := by
  obtain ⟨w, b, k, x, y, c1, c2, e, hw, hb⟩ : ∃ (w : State) (b : Bool) (k : Nat) (x y c1 c2 : Bool), s.ringCheck = (State.setEventIf w c1 .cfg 8).setEventIf c2 .cfg 9 ∧
      w = { s with cfg := { s.cfg with broken := b, breakAt := k, rl0 := x, rl1 := y } } ∧ b = ((List.range' 1 6).map s.cfg.unit).any RxUnit.half :=
    ⟨_, _, _, _, _, _, _, rfl, rfl, rfl⟩
  rw [e]
  refine ⟨((Moves.set (by simp [hw, State.sans]) (by rw [hw])).setEventIf _ _ _ (by decide) (by simp)).setEventIf _ _ _ (by decide) (by simp), ?_⟩
  simp only [State.cfg_setEventIf, State.mod_setEventIf, State.twin_setEventIf, hw]
  refine ⟨trivial, trivial, trivial, trivial, trivial, trivial, ?_⟩
  simp only [hb, List.any_eq_true, List.mem_map, List.mem_range'_1]
  constructor
  · rintro ⟨x, ⟨u, h, rfl⟩, hx⟩; exact ⟨u, h.1, by omega, hx⟩
  · rintro ⟨u, a, b, hx⟩; exact ⟨_, ⟨u, ⟨a, by omega⟩, rfl⟩, hx⟩

/-- Entering measured delays changes delays only. -/
theorem State.setDelays_facts (ds : List (Fin 6 × Nat)) (s : State) (m : List (Block × Nat)) : Moves s (s.setDelays ds) [.cfg] m ∧
    (s.setDelays ds).cfg.collecting = s.cfg.collecting ∧ (s.setDelays ds).cfg.enumCmd = s.cfg.enumCmd ∧
    ∀ u, ∃ d, (s.setDelays ds).cfg.unit u = { s.cfg.unit u with delay := d } := by
  induction ds generalizing s with
  | nil => exact ⟨.refl _ _ _, rfl, rfl, fun u => ⟨_, rfl⟩⟩
  | cons e ds ih =>
    obtain ⟨a, b, c, d⟩ := ih (s.modUnit (e.1.val + 1) (fun x => { x with delay := e.2 }))
    refine ⟨(s.moves_modUnit _ _ m).trans a, b, c, fun u => ?_⟩
    obtain ⟨x, hx⟩ := d u
    refine ⟨x, hx.trans ?_⟩
    rw [State.unit_modUnit]
    split
    · rename_i h; rw [h]
    · rfl

/-- Working on the units of a list one after the other. -/
theorem unit_foldl (p : State → Nat → Bool) (f : Nat → RxUnit → RxUnit) (g : State → Nat → State)
    (hg : ∀ s u, (g s u).cfg.unit u = f u (s.cfg.unit u) ∧ (∀ v, v ≠ u → (g s u).cfg.unit v = s.cfg.unit v)) (l : List Nat) (h : l.Nodup) (s : State)
    (v : Nat) : (l.foldl g s).cfg.unit v = if v ∈ l then f v (s.cfg.unit v) else s.cfg.unit v := by
  induction l generalizing s with
  | nil => simp
  | cons u l ih =>
    have hn := List.nodup_cons.mp h
    rw [List.foldl_cons, ih hn.2]
    by_cases e : v = u
    · subst e; simp [hn.1, (hg s v).1]
    · simp [e, (hg s u).2 v e]

/-- A module that enumerates is not failed. -/
theorem enumerates_failed {s : State} (h : s.enumerates = true) : s.mod.failed = false := by
  simp [State.enumerates] at h; exact h.1.2

/-- Entering an IDENT: the unit and the check of the ring. -/
theorem ident_facts (s : State) (p : Fin 6) (a b : Fin 8) (f : RxUnit → RxUnit) (t : State) (ht : t = (s.modUnit (p.val+1) f).ringCheck) :
    Moves s t [.cfg] [(.cfg, 8), (.cfg, 9)] ∧ t.cfg.unit (p.val + 1) = f (s.cfg.unit (p.val + 1)) ∧
      (∀ u : Nat, u ≠ p.val + 1 → t.cfg.unit u = s.cfg.unit u) ∧ t.cfg.sent = s.cfg.sent ∧ t.mod = s.mod ∧ t.twin = s.twin := by
  obtain ⟨r1, r2, r3, r4, r5, r6, r7, r8⟩ := (s.modUnit (p.val+1) f).ringCheck_facts
  rw [← ht] at r1 r2 r3 r4 r5
  have ru : ∀ u, t.cfg.unit u = (s.modUnit (p.val+1) f).cfg.unit u := fun u => by simp only [CfgBlk.unit, r2]
  exact ⟨(s.moves_modUnit _ _ _).trans r1, by rw [ru]; simp, fun u hu => by rw [ru]; simp [hu], r3, r4, r5⟩

/-- A frame to a unit: it takes the next count of the unit's frame counter (16 R456). -/
theorem State.rickFrame_facts (s : State) (u : Nat) (f : RickHead → RickOut) (m : List (Block × Nat)) :
    Moves s (s.rickFrame u f) [.cfg] m ∧ (s.rickFrame u f).cfg.unit u = { s.cfg.unit u with ctr := (s.cfg.unit u).ctr + 1#64 } ∧
      ∀ v, v ≠ u → (s.rickFrame u f).cfg.unit v = s.cfg.unit v := by
  unfold State.rickFrame; dsimp only
  obtain ⟨a, b, -⟩ := State.rickSend_facts (s.modUnit u (fun x => { x with ctr := x.ctr + 1#64 })) (f (s.cfg.unit u).head) m
  have k := fun v => congrArg (fun l => Tbl.get {} l v) b
  exact ⟨(s.moves_modUnit _ _ _).trans a, (k u).trans ((State.unit_modUnit ..).trans (if_pos rfl)), fun v hv => (k v).trans ((State.unit_modUnit ..).trans (if_neg hv))⟩

/-- The SHADOW is told of a poll state: the twin unit's lanes move and nothing else. -/
theorem State.tellPoll_facts (s : State) (w : RxPoll) (u : Nat) (m : List (Block × Nat)) :
    Moves s (s.tellPoll w u) [.twin] m ∧ (s.tellPoll w u).cfg = s.cfg := by
  unfold State.tellPoll; split
  · exact ⟨s.moves_olvia _ m, by unfold State.olvia; split <;> rfl⟩
  · exact ⟨.refl _ _ _, rfl⟩

/-- What a poll does to a unit that is ON_LINE (02 R60). -/
def RxUnit.pollNow (x : RxUnit) : RxUnit :=
  if x.state ≠ .onLine then x else { x with
    polled := true, answered := false, ctr := x.ctr + 1#64
    failRun := if x.polled && !x.answered then x.failRun + 1 else x.failRun
    failCnt := if x.polled && !x.answered then Bits.inc x.failCnt else x.failCnt }

/-- One poll of one unit. -/
theorem State.pollUnit_facts (s : State) (u : Nat) : Moves s (s.pollUnit u) [.cfg, .twin] [] ∧ (s.pollUnit u).cfg.unit u = (s.cfg.unit u).pollNow ∧
    ∀ v, v ≠ u → (s.pollUnit u).cfg.unit v = s.cfg.unit v := by
  unfold State.pollUnit RxUnit.pollNow; dsimp only
  by_cases c : (s.cfg.unit u).state ≠ .onLine
  · rw [if_pos c, if_pos c]; exact ⟨.refl _ _ _, rfl, fun _ _ => rfl⟩
  · rw [if_neg c, if_neg c]
    obtain ⟨w, hw⟩ : ∃ w, w = s.modUnit u (fun x => { x with
      failRun := if (s.cfg.unit u).polled && !(s.cfg.unit u).answered then x.failRun + 1 else x.failRun
      failCnt := if (s.cfg.unit u).polled && !(s.cfg.unit u).answered then Bits.inc x.failCnt else x.failCnt
      polled := true, answered := false }) := ⟨_, rfl⟩
    rw [← hw]
    obtain ⟨a, b, d⟩ := w.rickFrame_facts u (fun h => .poll h u w.tickNo w.tickStart.toNat (s.cfg.unit u).delay) []
    obtain ⟨x, y⟩ := (w.rickFrame u (fun h => .poll h u w.tickNo w.tickStart.toNat (s.cfg.unit u).delay)).tellPoll_facts (s.cfg.unit u).poll u []
    have mw : Moves s w [.cfg] [] := by rw [hw]; exact s.moves_modUnit _ _ _
    refine ⟨(mw.trans a).stay.trans x.stay, ?_, fun v hv => ?_⟩ <;> rw [y]
    · rw [b, hw, State.unit_modUnit, if_pos rfl]
    · rw [d v hv, hw, State.unit_modUnit, if_neg hv]

end Sys2Proof.Machine
end

