-- ==== Sys2Proof/Laws/Start.lean ====
section
/-! SUPPORT. Laws/Start.lean: what the steps of start-up, of the tick and of first commissioning do. -/
set_option Elab.async false
set_option maxRecDepth 4000
set_option linter.all false

namespace Sys2Proof.Machine

/-- Changing input pairs one after the other changes nothing else of the safety block. -/
theorem foldl_modSip_rest (l : List Nat) (f : SipPair → SipPair) (x : Safe) : ∃ y, l.foldl (fun (x : Safe) p => x.modSip p f) x = { x with sip := y } := by
  induction l generalizing x with
  | nil => exact ⟨x.sip, rfl⟩
  | cons a l ih => rw [List.foldl_cons]; obtain ⟨y, h⟩ := ih (x.modSip a f); exact ⟨y, h⟩

/-- The same for safety outputs. -/
theorem foldl_modSo_rest (l : List Nat) (f : So → So) (x : Safe) : ∃ y, l.foldl (fun (x : Safe) p => x.modSo p f) x = { x with so := y } := by
  induction l generalizing x with
  | nil => exact ⟨x.so, rfl⟩
  | cons a l ih => rw [List.foldl_cons]; obtain ⟨y, h⟩ := ih (x.modSo a f); exact ⟨y, h⟩

/-- The same for the states of safety functions. -/
theorem foldl_modFn_rest (l : List (Nat × FnEntry)) (f : FnEntry → FnState → FnState) (x : Safe) :
    ∃ y, l.foldl (fun (x : Safe) (e : Nat × FnEntry) => x.modFn e.1 (f e.2)) x = { x with fn := y } := by
  induction l generalizing x with
  | nil => exact ⟨x.fn, rfl⟩
  | cons a l ih => rw [List.foldl_cons]; obtain ⟨y, h⟩ := ih (x.modFn a.1 (f a.2)); exact ⟨y, h⟩

/-- Without lane H power the fresh lanes do not run lane H. -/
theorem lanesFresh_off (x : Safe) : (x.lanesFresh false).laneHOk = false := by
  simp only [Safe.lanesFresh]
  obtain ⟨y, h⟩ := foldl_modSip_rest (List.range 16) SipPair.freshH { x with laneHOk := false && x.cellPower }
  rw [h]
  obtain ⟨z, k⟩ := foldl_modSo_rest (List.range 8) So.freshH { x with laneHOk := false && x.cellPower, sip := y }
  rw [k]; rfl

/-- A start of lane P on a module whose lane H does not run. -/
theorem lanePStart_facts (v : State) (on : BitVec 8) (hv : v.safe.laneHOk = false) :
    Moves v (v.lanePStart on) [.safe, .time, .cfg] [(.safe, 14), (.safe, 15)] ∧ (v.lanePStart on).safe.laneHOk = false ∧ (v.lanePStart on).cfg = v.cfg := by
  have q : ∀ y : Safe, y.laneHOk = false → Moves v (v.setSafe y) [.safe, .time, .cfg] [(.safe, 14), (.safe, 15)] ∧ (v.setSafe y).safe.laneHOk = false ∧ (v.setSafe y).cfg = v.cfg :=
    fun y hy => ⟨(v.moves_setSafe y []).stay, by simp [hy], (v.moves_setSafe y []).cfg⟩
  simp only [State.lanePStart]
  obtain ⟨y0, h0⟩ : ∃ y0, y0 = ({ v.safe with laneP := v.safe.cellPower, idOk := v.safe.laneHAgrees, pFaultNs := none } : Safe) := ⟨_, rfl⟩
  have k0 : y0.laneHOk = false := by rw [h0]; exact hv
  rw [← h0]; clear h0
  obtain ⟨y1, h1⟩ := foldl_modSip_rest (List.range 16) (fun v => { v with discP := false, stepP := false, disP := none, failP1 := false, failP2 := false, pressNs := none }) y0
  rw [h1]
  obtain ⟨o1, h2⟩ := foldl_modSo_rest (List.range 8) (fun o => { o with onNs := none, ovlNs := none }) { y0 with sip := y1 }
  rw [h2]
  obtain ⟨x, hx⟩ : ∃ x, x = ({ ({ y0 with sip := y1 } : Safe) with so := o1 } : Safe) := ⟨_, rfl⟩
  have kx : x.laneHOk = false := by rw [hx]; exact k0
  rw [← hx]; clear hx
  obtain ⟨z1, h3⟩ := foldl_modFn_rest x.valid
    (fun e v' => { v' with phase := Safe.startPhase x on e, cause := .none, faults := [], running := false, swNs := v.nowNs }) x
  rw [h3]
  obtain ⟨q1, q2, q3⟩ := q { x with fn := z1 } kx
  split
  · exact ⟨q1, q2, q3⟩
  · exact ⟨q1.recordEvent _ _ _ _ (by decide) (by simp), by rw [State.safe_recordEvent]; exact q2, by rw [State.cfg_recordEvent]; exact q3⟩

/-- The safety block with no tables in force. -/
def withoutSafety (x : Safe) : Safe := { x with pairs := [], fns := [], laneH := {}, id := 0#64, idOk := false, laneHOk := false }

/-- With no safety object in either slot no table comes into force (10 R292). -/
theorem verifySafe_none (s : State) (a b : Bool) (h1 : s.cfg.safeA = none) (h2 : s.cfg.safeB = none) :
    s.verifySafe a b = State.setSafe { s with cfg := { s.cfg with safeOnB := false, safeOk := false } } (withoutSafety s.safe) := by
  have st : ∀ (u : State) (n : Nat), u.setEventIf false .cfg n = u := fun u n => by simp [State.setEventIf]
  unfold State.verifySafe
  simp [h1, h2, st, withoutSafety]

/-- The verification of the stored objects with no program and no safety object. -/
theorem objectsVerified_exec (s : State) (a b : CfgSlot) (h1 : s.cfg.phase = .verify) (h2 : s.cfg.loaded = false) (h3 : s.cfg.keyBad0 = false) (h4 : s.cfg.keyBad1 = false)
    (ha : s.slotFound s.cfg.slotA true = a) (hb : s.slotFound s.cfg.slotB true = b) (ga : a.use.bad = false) (gb : b.use.bad = false)
    (h9 : s.cfg.prog = none) (h10 : s.cfg.safeA = none) (h11 : s.cfg.safeB = none) :
    exec (.objectsVerified {}) s = .next (State.checkStreams (State.chooseConfig (State.setSafe { s with cfg := { s.cfg with slotA := a, slotB := b, safeOnB := false, safeOk := false } } (withoutSafety s.safe)))) := by
  have hc : ∀ c : CfgBlk, c.keyBad0 = false → c.keyBad1 = false → { c with keyBad0 := false, keyBad1 := false } = c := by
    intro c a b; cases c; simp at a b; subst a b; rfl
  have st : ∀ (u : State) (n : Nat), u.setEventIf false .cfg n = u := fun u n => by simp [State.setEventIf]
  have vp : ∀ u : State, u.cfg.prog = none → u.verifyProg true = u := by intro u h; unfold State.verifyProg; rw [h]
  show execObjectsVerified {} s = _
  unfold execObjectsVerified; dsimp only
  rw [if_neg (by simp [h1, h2])]
  simp only [Bool.not_true, hc s.cfg h3 h4, List.foldl_nil, if_true]
  have es : ({ s with cfg := s.cfg } : State) = s := rfl
  rw [es, ha, hb, ga, gb]
  simp only [Bool.or_false, st]
  have k : ∀ v : State, v.cfg.prog = none → v.cfg.safeA = none → v.cfg.safeB = none → ((v.verifyProg true).verifySafe true true).chooseConfig =
      (State.setSafe { v with cfg := { v.cfg with safeOnB := false, safeOk := false } } (withoutSafety v.safe)).chooseConfig := by
    intro v a b c; rw [vp v a, verifySafe_none v _ _ b c]
  exact congrArg (fun x => Host.Outcome.next (State.checkStreams x)) (k { s with cfg := { s.cfg with slotA := a, slotB := b } } h9 h10 h11)

/-- With no program there are no streams to check. -/
theorem checkStreams_none (s : State) (h : s.cfg.prog = none) : s.checkStreams = s := by unfold State.checkStreams; rw [h]

/-- With no valid configuration slot the module goes to NO_CONFIG (17 R469). -/
theorem chooseConfig_none (s : State) (h5 : s.cfg.marker = none) (ha : s.cfg.slotA.use ≠ .valid) (hb : s.cfg.slotB.use ≠ .valid) :
    s.chooseConfig = State.setEvent { s with cfg := { s.cfg with phase := .noConfig } } .cfg 4 := by
  have aa : (s.cfg.slotA.use == .valid) = false := by simpa using ha
  have bb : (s.cfg.slotB.use == .valid) = false := by simpa using hb
  unfold State.chooseConfig
  rw [h5, aa, bb]; rfl

/-- With only slot A valid its configuration is loaded and the slot is ACTIVE. -/
theorem chooseConfig_slotA (s : State) (c : StationCfg) (h5 : s.cfg.marker = none) (ha : s.cfg.slotA.use = .valid) (hb : s.cfg.slotB.use ≠ .valid)
    (hc : s.cfg.slotA.body = some c) :
    ∃ u : State, Moves s u [.recorder, .time, .dio, .aio, .ax, .pnl, .net, .cyc, .cfg] [(.time, 7), (.time, 8), (.pnl, 0)] ∧ s.chooseConfig = u ∧
      u.cfg.cur = c ∧ u.cfg.loaded = true ∧ u.cfg.slotLoaded = false ∧ u.cfg.slotA.use = .active ∧ u.cfg.phase = s.cfg.phase ∧ u.cfg.prog = s.cfg.prog ∧ u.time.cfg = c.timeCfg ∧
      u.net.pairCfg = c.pairCfg ∧ (s.cfg.loaded = false → u.recorder.trigDefs = c.trigs) ∧ u.cfg.taskCfgs = c.tasks := by
  have bb : (s.cfg.slotB.use == .valid) = false := by simpa using hb
  obtain ⟨w, hw⟩ : ∃ w : State, w = { s with cfg := { s.cfg with slotLoaded := false, slotA := { s.cfg.slotA with use := .active } } } := ⟨_, rfl⟩
  have e : s.chooseConfig = { w.loadConfig c true with pnl := (w.loadConfig c true).pnl.startUp } := by
    unfold State.chooseConfig
    have cg : s.cfg.slotA.body.getD {} = c := by rw [hc]; rfl
    rw [h5, ha, bb, hw, ← cg]; rfl
  obtain ⟨-, m, sl, f1, f2, f3, f4, f5, f6, f7, f8⟩ := loadConfig_facts w c true
  have wl : w.cfg.loaded = s.cfg.loaded := by rw [hw]
  generalize w.loadConfig c true = z at *
  refine ⟨{ z with pnl := z.pnl.startUp }, ?_, e, f1, f2, ?_, ?_, ?_, ?_, f6, f7, ?_, f3 rfl⟩
  · exact ((Moves.set (t := w) (by rw [hw]; simp [State.sans]) (by rw [hw])).trans (m rfl)).trans .set
  · exact sl.slotLoaded.trans (by rw [hw])
  · exact (congrArg CfgSlot.use sl.slotA).trans (by rw [hw])
  · exact sl.phase.trans (by rw [hw])
  · exact sl.prog.trans (by rw [hw])
  · intro h; rw [wl, h] at f5; exact f5

/-- The end of the twin search where it is not due. -/
theorem twinSearchEnd_idle (s : State) (h2 : s.twin.started = true ∨ s.twin.waiting = true ∨ s.twin.seated = false) : execTwinSearchEnd s = .next s := by
  unfold execTwinSearchEnd
  rw [if_pos]
  rcases h2 with h | h | h <;> simp [h]

/-- What engaging the shared stages moves. -/
theorem engageFree_moves (s : State) (m : List (Block × Nat)) : Moves s s.engageFree [.dio, .aio] m ∧ s.engageFree.twin = s.twin ∧ s.engageFree.mod = s.mod ∧
    s.engageFree.cfg = s.cfg ∧ s.engageFree.cyc = s.cyc ∧ s.engageFree.event = s.event := by
  unfold State.engageFree
  dsimp only
  generalize List.foldl _ s.dio _ = d
  generalize List.foldl _ s.aio _ = a
  exact ⟨.set (by simp [State.sans]) rfl, rfl, rfl, rfl, rfl, rfl⟩

/-- Completion of start-up on the module that holds the token. -/
theorem becomeReady_facts (s : State) (h : s.holdsToken = true) (hc : s.twin.link ≠ .catchingUp) :
    Moves s s.becomeReady [.mod, .dio, .aio, .twin, .cfg] [(.cfg, 13)] ∧ s.becomeReady.raised .cfg 13 = true ∧ s.becomeReady.mod.ready = true ∧
      s.becomeReady.cfg.phase = .ready ∧ s.becomeReady.twin = { s.twin with engaged := true } ∧ s.becomeReady.cyc = s.cyc ∧
      (∀ b n, s.raised b n = true → s.becomeReady.raised b n = true) := by
  obtain ⟨u, hu⟩ : ∃ u : State, u = { s with mod := { s.mod with ready := true }, cfg := { s.cfg with phase := .ready, settled := true } } := ⟨_, rfl⟩
  obtain ⟨v, hv⟩ : ∃ v : State, v = { (u.setEvent .cfg 13) with twin := { s.twin with engaged := true } } := ⟨_, rfl⟩
  have ht : (u.setEvent .cfg 13).holdsToken = true := by rw [← h]; subst hu; simp [State.holdsToken]
  obtain ⟨e1, e2, e3, e4, e5, e6⟩ := engageFree_moves v [(.cfg, 13)]
  have e : s.becomeReady = v.engageFree := by
    have k : (u.setEvent .cfg 13).twin = s.twin := by subst hu; simp
    unfold State.becomeReady; dsimp only
    rw [← hu, if_pos ht, k, ← hv, if_neg]
    rw [e2, hv]; exact hc
  have m : Moves s v [.mod, .dio, .aio, .twin, .cfg] [(.cfg, 13)] := by
    rw [hv]
    exact (Moves.setEvent (t := u) (.set (by rw [hu]; simp [State.sans]) (by rw [hu])) .cfg 13 (by decide) (by simp)).trans (.set (by simp [State.sans]) rfl)
  have me : Moves s s.becomeReady [.mod, .dio, .aio, .twin, .cfg] [(.cfg, 13)] := by rw [e]; exact m.trans e1.stay
  refine ⟨me, ?_, ?_, ?_, ?_, ?_, me.2.1⟩
  · rw [e]; simp only [State.raised, State.eventReg, e6]
    have : v.event = (u.setEvent .cfg 13).event := by rw [hv]
    rw [this]
    exact (State.raises_setEvent u .cfg 13 (by decide)).2.1 (.cfg, 13) (List.mem_singleton_self _)
  · rw [e, e3, hv]; simp [hu]
  · rw [e, e4, hv]; simp [hu]
  · rw [e, e2, hv]
  · rw [e, e5, hv]; simp [hu]

/-- A warm resume of one configured task (02 R47, 03 R87). -/
theorem warmResume_facts (s : State) (n : Nat) (run : Bool) (h7 : s.configuredTasks = [n]) (h8 : s.xch.cur.state = .idle)
    (h9 : (Bits.bit s.cfg.cur.cyc 0 && !s.xch.cur.inStop) = run) (h10 : run = true → s.runReason = 0) :
    Moves s s.warmResume [.cyc] [(.cyc, 4), (.cyc, 9), (.fab, 10)] ∧ s.warmResume.raised .cyc 4 = true ∧ (s.runReason = 3 → s.warmResume.raised .fab 10 = true) ∧
      s.warmResume.cyc.mode = (if run then .run else .stop) ∧
      s.warmResume.cyc.resumeCnt = Bits.inc s.cyc.resumeCnt ∧ (s.warmResume.task n).mode = (if run then .run else .stop) ∧
      (∀ r, (s.task n).record = some r → (s.warmResume.task n).cycle = r.cycle ∧ (s.warmResume.task n).bank = r.bank ∧
        (s.warmResume.task n).image = (if r.bank then (s.task n).imgB else (s.task n).imgA)) ∧
      ((s.task n).record = none → (s.warmResume.task n).cycle = (s.task n).floor + 0x10000#64 ∧ s.warmResume.raised .cyc 9 = true) := by
  obtain ⟨u, hu⟩ : ∃ u : State, u = { s with cyc := { s.cyc with mode := if run then .run else .stop, target := if run then .run else .stop, resuming := true
                                                                 resumeCnt := Bits.inc s.cyc.resumeCnt, areas := (s.cfg.prog.getD {}).startAreas } } := ⟨_, rfl⟩
  have hr : (run && s.runReason == 0) = run := by cases run <;> simp_all
  have e : s.warmResume = ((u.resumeTask n run).setEventIf (s.runReason == 3) .fab 10).setEvent .cyc 4 := by
    have c : u.configuredTasks = [n] := by rw [← h7, hu]; rfl
    have q : ∀ v : State, v.xch.cur.state = .idle → v.resumeXch = v := fun v hv => by unfold State.resumeXch; rw [hv]
    have z : (u.resumeTask n run).xch = s.xch := by
      have : u.xch = s.xch := by rw [hu]
      rw [← this]; unfold State.resumeTask; dsimp only
      split
      · rfl
      · rw [State.xch_setEvent]; rfl
    unfold State.warmResume; dsimp only
    rw [h9, hr, ← hu, c]
    have a : (run && !run) = false := by cases run <;> rfl
    rw [a]
    show State.resumeXch (((u.resumeTask n run).setEventIf (s.runReason == 3) .fab 10).setEvent .cyc 4) = _
    exact q _ (by rw [State.xch_setEvent, State.xch_setEventIf, z, h8])
  have hw : (s.runReason = 3 → (s.runReason == 3) = true) := fun h => by rw [h]; rfl
  generalize (s.runReason == 3) = why at e hw
  have tu : u.task n = s.task n := by rw [hu]; rfl
  have ou : u.oldTask n = s.oldTask n := by rw [hu]; rfl
  have mu : Moves s u [.cyc] [(.cyc, 4), (.cyc, 9), (.fab, 10)] := .set (by rw [hu]; simp [State.sans]) (by rw [hu])
  have mode : u.cyc.mode = (if run then .run else .stop) := by rw [hu]
  have cnt : u.cyc.resumeCnt = Bits.inc s.cyc.resumeCnt := by rw [hu]
  clear hu h9 h10 hr
  have key : ∃ (b : Bool) (t : TaskSt), u.resumeTask n run = (u.setTask n t).setEventIf b .cyc 9 ∧ t.mode = (if run then .run else .stop) ∧
      (∀ r, (s.task n).record = some r → t.cycle = r.cycle ∧ t.bank = r.bank ∧ t.image = (if r.bank then (s.task n).imgB else (s.task n).imgA)) ∧
      ((s.task n).record = none → t.cycle = (s.task n).floor + 0x10000#64 ∧ b = true) := by
    have q : ∀ x : TaskSt, x.rec0 = (s.task n).rec0 → x.rec1 = (s.task n).rec1 → x.record = (s.task n).record := by
      intro x a b; unfold TaskSt.record; rw [a, b]
    unfold State.resumeTask; dsimp only
    rw [q _ (by rw [tu]) (by rw [tu])]
    cases hrec : (s.task n).record with
    | some r =>
      refine ⟨false, _, rfl, rfl, ?_, fun h => by cases h⟩
      intro r' hr'
      cases hr'
      refine ⟨rfl, rfl, ?_⟩
      unfold TaskSt.image TaskSt.setImage
      rw [tu]
      cases r.bank <;> rfl
    | none =>
      refine ⟨true, _, rfl, rfl, ?_, ?_⟩
      · intro r h; cases h
      · intro _; refine ⟨?_, rfl⟩; rw [tu]; rfl
  obtain ⟨b, t, re, t1, t2, t3⟩ := key
  have tk : State.task ((((u.setTask n t).setEventIf b .cyc 9).setEventIf why .fab 10).setEvent .cyc 4) n = t := by simp [State.task, State.setTask]
  rw [e, re]
  refine ⟨(((mu.trans (.set (t := u.setTask n t) (by simp [State.sans, State.setTask]) rfl)).setEventIf b .cyc 9 (by decide) (by simp)).setEventIf why .fab 10
    (by decide) (by simp)).setEvent .cyc 4 (by decide) (by simp), (State.raises_setEvent _ .cyc 4 (by decide)).2.1 (.cyc, 4) (List.mem_singleton_self _), ?_, ?_, ?_, ?_, ?_, ?_⟩
  · intro h
    rw [hw h]
    exact (State.raises_setEvent _ .cyc 4 (by decide)).1 _ _ ((State.raises_setEvent _ .fab 10 (by decide)).2.1 (.fab, 10) (List.mem_singleton_self _))
  · simp [State.setTask, mode]
  · simp [State.setTask, cnt]
  · rw [tk]; exact t1
  · intro r hr; rw [tk]; exact t2 r hr
  · intro hr
    obtain ⟨a, hb⟩ := t3 hr
    rw [tk]
    refine ⟨a, (State.raises_setEvent _ .cyc 4 (by decide)).1 _ _ ?_⟩
    have : ((u.setTask n t).setEventIf b .cyc 9).raised .cyc 9 = true := by
      rw [hb]; exact (State.raises_setEvent _ .cyc 9 (by decide)).2.1 (.cyc, 9) (List.mem_singleton_self _)
    exact ((Moves.refl ((u.setTask n t).setEventIf b .cyc 9) [] [(.fab, 10)]).setEventIf why .fab 10 (by decide) (by simp)).2.1 _ _ this

/-- Completing panel updates moves the panel block only. -/
theorem pnlComplete_moves (s : State) (m : List (Block × Nat)) : Moves s s.pnlComplete [.pnl] m := by
  unfold State.pnlComplete
  refine .foldl _ (fun s i => ?_) _ s
  dsimp only
  split
  · refine .ite ?_ (.refl _ _ _)
    unfold State.journal
    dsimp only
    split
    · exact .ite (.set (by simp [State.sans]) rfl) (.set (by simp [State.sans]) rfl)
    · exact .set (by simp [State.sans]) rfl
  · exact .refl _ _ _

/-- Reading a table after writing the entries of a list. -/
theorem get_foldl_set (f : Nat → TaskSt) (l : List Nat) (t : Tbl TaskSt) (n : Nat) :
    Tbl.get {} (l.foldl (fun t n => Tbl.set {} t n (f n)) t) n = if n ∈ l then f n else Tbl.get {} t n := by
  induction l generalizing t with
  | nil => simp
  | cons a l ih =>
    rw [List.foldl_cons, ih, Tbl.get_set]
    by_cases h : n = a
    · subst h; simp
    · simp [h]

/-- First commissioning clears the partition (16 R458). -/
theorem clearPartition_facts (s : State) : Moves s s.clearPartition [.ax, .cyc, .xch] [] ∧ s.clearPartition.cfg = s.cfg ∧ s.clearPartition.xch.cur = {} ∧
    s.clearPartition.xch.old = {} ∧ s.clearPartition.cyc.mode = .stop ∧ s.clearPartition.cyc.target = .stop ∧ s.clearPartition.cyc.bps = [] ∧
    s.clearPartition.cyc.steps = [] ∧ ∀ n : Nat, n < 32 → s.clearPartition.task n = (s.task n).commissioned (Tbl.get {} (s.cfg.prog.getD {}).tasks n) := by
  obtain ⟨x, hx, hy⟩ : ∃ x : XchBlk, x = { s.xch.drop.clear.write {} with old := {} } ∧ x.cur = {} := ⟨_, rfl, rfl⟩
  obtain ⟨k, hk⟩ : ∃ k, k = (List.range 32).foldl (fun t n => Tbl.set {} t n ((s.task n).commissioned (Tbl.get {} (s.cfg.prog.getD {}).tasks n))) [] := ⟨_, rfl⟩
  obtain ⟨a, ha⟩ : ∃ a, s.clearPartition = { s with
    xch := x
    cyc := { s.cyc with tasks := k, areas := (s.cfg.prog.getD {}).startAreas, pends := [], steps := [], bps := [], mode := .stop, target := .stop }
    ax := a } := ⟨_, by unfold State.clearPartition; dsimp only; rw [← hx, ← hk]⟩
  rw [ha]
  refine ⟨.set (by simp [State.sans]) rfl, rfl, hy, by rw [hx], rfl, rfl, rfl, rfl, fun n hn => ?_⟩
  show Tbl.get {} k n = _
  rw [hk, get_foldl_set (fun n => (s.task n).commissioned (Tbl.get {} (s.cfg.prog.getD {}).tasks n)), if_pos (List.mem_range.2 hn)]

/-- Sending a frame of the supervisor moves the network block only. -/
theorem State.moves_svSend (s : State) (p len : Nat) (both : Bool) (mk : List (Nat × Nat) → Option Half → NetOut) (m : List (Block × Nat)) :
    Moves s (s.svSend p len both mk) [.net] m := by
  unfold State.svSend; exact .set

/-- What the network unit does on a tick: it forgets what is over, sends delay requests and membership reports (07 R195, R211). -/
theorem State.moves_netTick (s : State) : Moves s s.netTick [.net] [(.net, 7)] := by
  have d : ∀ s : State, Moves s s.delayTick [.net] [(.net, 7)] := by
    intro s; unfold State.delayTick; extract_lets log gap peer live x
    refine .ite (.refl _ _ _) ((Moves.set : Moves s { s with net := { s.net with reqNext := s.nowNs + gap } } [.net] [(.net, 7)]).trans (.foldl _ (fun s p => ?_) _ _))
    extract_lets s1 y s2
    have h1 : Moves s s1 [.net] [(.net, 7)] := s.moves_svSend _ _ _ _ _
    have h2 : Moves s1 s2 [.net] [(.net, 7)] := .set (by simp [s2, State.sans]) rfl
    clear_value s1 s2
    exact (h1.trans h2).trans (s2.moves_tsPut _ _)
  have g : ∀ s : State, Moves s s.groupTick [.net] [(.net, 7)] := by
    intro s; unfold State.groupTick; extract_lets ps all u
    exact .ite (.refl _ _ _) ((Moves.set : Moves s { s with net := { s.net with reported := all } } [.net] [(.net, 7)]).trans (.foldl _ (fun s e => s.moves_svSend _ _ _ _ _) _ _))
  have f : Moves s { s with net := s.net.forget s.nowNs } [.net] [(.net, 7)] := .set
  exact (f.trans (d _)).trans (g _)

/-- The mains trackers move the clocks and phases only. -/
theorem mains_moves (t : TimeBlk) (e : TickEnv) : ∃ k p, t.mains e = { t with clocks := k, phases := p } := by
  have step : ∀ (t : TimeBlk) c x, ∃ k, t.setClock c x = { t with clocks := k } := fun t c x => ⟨_, rfl⟩
  have q : ∀ (f : TimeBlk → Nat → TimeBlk), (∀ t c, ∃ k, f t c = { t with clocks := k }) → ∀ (l : List Nat) t, ∃ k, l.foldl f t = { t with clocks := k } := by
    intro f hf l; induction l with
    | nil => intro t; exact ⟨_, rfl⟩
    | cons a l ih => intro t; rw [List.foldl_cons]; obtain ⟨k, hk⟩ := hf t a; obtain ⟨j, hj⟩ := ih (f t a); exact ⟨j, by rw [hj, hk]⟩
  unfold TimeBlk.mains
  dsimp only
  generalize e.grid.foldl (fun l e => Tbl.set 0#32 l e.1 e.2.phase) t.phases = p
  suffices h : ∃ k, List.foldl _ ({ t with phases := p } : TimeBlk) [0, 1] = { ({ t with phases := p } : TimeBlk) with clocks := k } by
    obtain ⟨k, hk⟩ := h; exact ⟨k, p, hk⟩
  refine q _ (fun t c => ?_) [0, 1] { t with phases := p }
  split
  · split
    · exact step ..
    · exact ⟨_, rfl⟩
  · split
    · exact step ..
    · exact ⟨_, rfl⟩
  · exact ⟨_, rfl⟩

/-- What a station tick does to the time block besides the advance of time. -/
theorem timeTick_facts (s : State) (e : TickEnv) : Moves s (s.timeTick e) [.time] [] ∧ (s.timeTick e).time.sec = s.time.sec ∧ (s.timeTick e).time.ns = s.time.ns ∧
    (s.timeTick e).time.fwdStep = s.time.fwdStep ∧
    (s.timeTick e).time.holdTicks = (if s.time.disc = .holdover then s.time.holdTicks + 1 else s.time.holdTicks) := by
  have q : ∀ (f : TimeBlk → Nat → TimeBlk), (∀ t c, ∃ k, f t c = { t with clocks := k }) → ∀ (l : List Nat) t, ∃ k, l.foldl f t = { t with clocks := k } := by
    intro f hf l; induction l with
    | nil => intro t; exact ⟨_, rfl⟩
    | cons a l ih => intro t; rw [List.foldl_cons]; obtain ⟨k, hk⟩ := hf t a; obtain ⟨j, hj⟩ := ih (f t a); exact ⟨j, by rw [hj, hk]⟩
  obtain ⟨r, v, hs⟩ : ∃ r v, s.time.slewTick = { s.time with residual := r, slew := v } := by
    unfold TimeBlk.slewTick; split
    · exact ⟨_, _, rfl⟩
    · exact ⟨_, _, rfl⟩
  unfold State.timeTick
  dsimp only
  rw [hs]
  dsimp only
  generalize (if s.time.disc = Discipline.holdover then s.time.holdTicks + 1 else s.time.holdTicks) = h
  obtain ⟨k, p, hm⟩ := mains_moves { s.time with residual := r, slew := v, holdTicks := h } e
  rw [hm]
  obtain ⟨j, hj⟩ := q (fun (t : TimeBlk) c => t.setClock c (AngleClock.tick (s.time.clock c) (t.clock c) (s.free + c))) (fun t c => ⟨_, rfl⟩) (List.range 4)
    { s.time with residual := r, slew := v, holdTicks := h, clocks := k, phases := p }
  rw [hj]
  exact ⟨.set (by simp [State.sans]) rfl, rfl, rfl, rfl, rfl⟩

/-- Setting the total sets the wall time. -/
theorem setTotal_total (t : TimeBlk) (n : Nat) (h : n / 1000000000 < 2 ^ 64) : (t.setTotal n).sec.toNat * 1000000000 + (t.setTotal n).ns.toNat = n := by
  have a : (t.setTotal n).sec.toNat = n / 1000000000 := by
    show (BitVec.ofNat 64 _).toNat = _; rw [BitVec.toNat_ofNat, Nat.mod_eq_of_lt h]
  have b : (t.setTotal n).ns.toNat = n % 1000000000 := by
    show (BitVec.ofNat 32 _).toNat = _
    rw [BitVec.toNat_ofNat, Nat.mod_eq_of_lt]; have := Nat.mod_lt n (show 1000000000 > 0 by decide); omega
  rw [a, b]; omega

/-- What a step of time does to one task. -/
theorem stepTask_moves (a b k : Nat) (s : State) (n : Nat) : Moves s (s.stepTask a b k n) [.cyc] [(.time, 6), (.cyc, 6)] := by
  have st : ∀ (x : TaskSt) (c : BitVec 64), Moves s { s.setTask n x with cyc := { (s.setTask n x).cyc with skipCnt := c } } [.cyc] [(.time, 6), (.cyc, 6)] :=
    fun x c => .set (by simp [State.sans, State.setTask]) rfl
  unfold State.stepTask; dsimp only
  split
  · exact .refl _ _ _
  · exact Moves.setEventIf (st _ _) _ _ _ (by decide) (by simp)

/-- The wall time goes to the next boundary of 10 µs, with the forward step that is due. -/
theorem advance_facts (s : State) (h1 : s.time.sec.toNat < 2 ^ 64 - 2 ^ 40) (h2 : s.time.ns.toNat < 1000000000) (h3 : s.time.fwdStep < 2 ^ 64) :
    Moves s s.advance [.time, .cyc] [(.time, 6), (.cyc, 6)] ∧ s.advance.nowNs = ((s.nowNs + s.time.fwdStep) / 10000 + 1) * 10000 ∧
      s.advance.time.fwdStep = 0 ∧ s.advance.time.disc = s.time.disc ∧ s.advance.time.holdTicks = s.time.holdTicks ∧
      (s.time.fwdStep = 0 → s.advance.cyc = s.cyc) := by
  obtain ⟨b, hb⟩ : ∃ b, b = (s.nowNs + s.time.fwdStep) / 10000 + 1 := ⟨_, rfl⟩
  have hn : b * 10000 / 1000000000 < 2 ^ 64 := by
    have : s.nowNs = s.time.sec.toNat * 1000000000 + s.time.ns.toNat := rfl
    omega
  obtain ⟨u, hu⟩ : ∃ u : State, u = { s with time := TimeBlk.setTotal { s.time with fwdStep := 0, frac := 0, stepCnt := if s.time.fwdStep = 0 then s.time.stepCnt else Bits.inc s.time.stepCnt } (b * 10000) } := ⟨_, rfl⟩
  have mu : Moves s u [.time, .cyc] [(.time, 6), (.cyc, 6)] := .set (by rw [hu]; simp [State.sans]) (by rw [hu])
  have nu : u.nowNs = b * 10000 := by rw [hu]; exact setTotal_total _ _ hn
  have fu : u.time.fwdStep = 0 ∧ u.time.disc = s.time.disc ∧ u.time.holdTicks = s.time.holdTicks := by rw [hu]; exact ⟨rfl, rfl, rfl⟩
  have cu : u.cyc = s.cyc := by rw [hu]
  have e : s.advance = if s.time.fwdStep = 0 then u else (u.configuredTasks.foldl (State.stepTask s.tickNo b s.time.fwdStep) u).setEventIf u.taskRunning .time 6 := by
    unfold State.advance; dsimp only; rw [← hb, ← hu]
  have mf := Moves.foldl (State.stepTask s.tickNo b s.time.fwdStep) (fun s n => stepTask_moves _ _ _ s n) u.configuredTasks u
  have tf : (u.configuredTasks.foldl (State.stepTask s.tickNo b s.time.fwdStep) u).time = u.time := mf.time
  rw [e, ← hb]
  clear hu e
  split
  · exact ⟨mu, nu, fu.1, fu.2.1, fu.2.2, fun _ => cu⟩
  · rename_i hz
    refine ⟨(mu.trans (mf.stay)).setEventIf _ _ _ (by decide) (by simp), ?_, ?_, ?_, ?_, fun h => absurd h hz⟩
    · simp only [State.nowNs, State.time_setEventIf, tf]; exact nu
    · rw [State.time_setEventIf, tf]; exact fu.1
    · rw [State.time_setEventIf, tf]; exact fu.2.1
    · rw [State.time_setEventIf, tf]; exact fu.2.2

end Sys2Proof.Machine
end

