-- ==== Sys2Proof/WellFormed.lean ====
section
/-! DEFINITION. WellFormed.lean: which commands the outside can send: the ranges of the fields of descriptors and registers and
lists that name each thing once. A meaning is total and needs none of it. -/
namespace Sys2Proof

/-- No number stands twice in a list. -/
def Instr.keysOnce : List Nat → Bool
  | [] => true
  | k :: l => !l.contains k && Instr.keysOnce l

/-- A submission descriptor fits its 64 bytes (14 R404). -/
def Desc.wf (d : Desc) : Bool := d.params.length == 40 && decide (d.dataLen < 2 ^ 32)

/-- The fields of a rectangle have 16 bits (12 *Panel request*). -/
def Rect.wf (r : Rect) : Bool := decide (r.x < 65536) && decide (r.y < 65536) && decide (r.w < 65536) && decide (r.h < 65536)

/-- Each input is sampled once at a T0. -/
def T0Env.wf (e : T0Env) : Bool :=
  Instr.keysOnce (e.gs.map (fun x => x.1.val)) && Instr.keysOnce (e.sh.map (fun x => x.1.val))
    && Instr.keysOnce (e.so.map (fun x => x.1.val)) && Instr.keysOnce (e.fb.map (fun x => x.1.val)) && Instr.keysOnce (e.absent.map Fin.val)

/-- Each tracker gives one sample at a station tick. -/
def TickEnv.wf (e : TickEnv) : Bool := Instr.keysOnce (e.grid.map (fun x => x.1.val)) && Instr.keysOnce (e.diff.map (fun x => x.1.val))

/-- Is a command well-formed? -/
def Instr.wf (i : Instr) : Bool :=
  match i with
  | .seatClose _ => true
  | .xtlArm _ => true
  | .xtlDemandChange _ _ => true
  | .networkUnitFault _ => true
  | .taskT0 _ env => env.wf
  | .angleFiring _ _ _ _ env => env.wf
  | .fallbackT0 _ _ env => env.wf
  | .agreedImageComplete _ => true
  | .rickInputDeadline _ => true
  | .engineExamine es => Instr.keysOnce (es.map Fin.val)
  | .billetLoadDone _ => true
  | .billetRetire _ _ _ _ => true
  | .commitDurable _ => true
  | .commitDeadline _ => true
  | .billetFault _ _ => true
  | .billetRunaway _ _ _ => true
  | .engineFence _ _ => true
  | .engineSelfTestDone _ _ => true
  | .engineFwLoaded _ => true
  | .sramUe _ engines => Instr.keysOnce (engines.map (fun e => e.1.val))
  | .sramLineReloaded _ => true
  | .breakpointReached _ _ => true
  | .modeRun _ => true
  | .modeStop _ => true
  | .modeHold _ => true
  | .modeStep _ n => decide (n < 256)
  | .breakSet _ _ _ _ => true
  | .breakClear _ _ _ _ => true
  | .taskRestart _ n => decide (n < 256)
  | .budget _ _ _ _ _ _ => true
  | .laneBlockLockLoss _ => true
  | .laneTrainAttempt _ => true
  | .laneTrainTimeout _ => true
  | .laneTrained _ => true
  | .handshake _ _ _ _ _ => true
  | .olviaAuthFail _ => true
  | .heartbeat _ _ => true
  | .samples _ _ _ _ => true
  | .agreed _ _ _ _ => true
  | .exchangeMiss _ => true
  | .hash _ _ _ => true
  | .verdictDeadline _ => true
  | .verdict _ _ _ _ _ => true
  | .verdictMissing _ => true
  | .policy _ _ => true
  | .seqstate _ _ => true
  | .yield _ _ _ => true
  | .copy _ _ => true
  | .result _ _ => true
  | .mismatchSelfTestDone _ => true
  | .handover _ => true
  | .stage _ _ _ _ _ _ _ => true
  | .arm _ n _ => decide (n < 256)
  | .disarm _ => true
  | .discard _ => true
  | .rollback _ => true
  | .carryComplete _ => true
  | .sync _ _ _ _ => true
  | .mainsLock _ => true
  | .mainsUnlock _ => true
  | .zEdge _ _ => true
  | .shaftStandstill _ => true
  | .shaftOverspeed _ => true
  | .slotFix _ => true
  | .slotMissed _ => true
  | .slotFire _ => true
  | .slotPulseEnd _ => true
  | .inputEdgeCapture _ _ _ => true
  | .periodicLaunch _ => true
  | .streamFrameRx _ => true
  | .hsrForward _ => true
  | .srcMacForget _ => true
  | .ddWindowClear _ => true
  | .portLinkDown _ => true
  | .portLinkUp _ => true
  | .modbusRequest _ _ _ _ => true
  | .addressServiceRequest _ _ _ => true
  | .cellFrame _ _ _ _ => true
  | .crossingWatchdog _ => true
  | .wireBreakBandChange _ _ => true
  | .dioInputChange _ _ => true
  | .overload _ => true
  | .cellOverload _ _ => true
  | .overloadRetry _ _ => true
  | .overtemp _ _ => true
  | .openWire _ _ => true
  | .shortSupply _ _ _ _ => true
  | .stuckOn _ => true
  | .cross _ _ => true
  | .shareLow _ _ => true
  | .testPulseStart _ _ => true
  | .testPulseEnd _ _ => true
  | .cellUv1 _ => true
  | .cellWarnClear _ => true
  | .cellSag _ => true
  | .cellSagExit _ => true
  | .cellSupplyLost _ => true
  | .cellSupplyReturn _ _ => true
  | .cellRecovered _ _ => true
  | .loopCrossingWatchdog _ => true
  | .loopCellFault _ => true
  | .loopSupplyLow _ => true
  | .loopSupplyNormal _ => true
  | .loopSupplyLost _ => true
  | .loopSupplyBack _ _ => true
  | .aioConversionDone results => Instr.keysOnce (results.map (fun e => e.1.val))
  | .aioBandChange _ _ _ => true
  | .loopFeedReclose _ _ => true
  | .trimUpdate _ _ _ => true
  | .makeupEnter _ _ _ _ => true
  | .makeupExit _ _ => true
  | .sourceRampEnd _ => true
  | .sourceFault _ _ => true
  | .compliance _ _ => true
  | .openLoop _ _ => true
  | .readbackDiff _ _ => true
  | .calWindowStart _ _ => true
  | .calWindowEnd _ _ => true
  | .shaftLineFault _ _ => true
  | .quadErr _ => true
  | .encSupplyFault _ _ => true
  | .laneHSipDemand _ _ _ => true
  | .laneHDelayDone _ => true
  | .lanePDemand _ => true
  | .demandWithdrawn _ => true
  | .timedStopDelay _ => true
  | .discrepancyLatch _ _ => true
  | .discrepancyClear _ _ => true
  | .resetRelease _ _ _ _ => true
  | .comparatorTest _ _ _ => true
  | .lanePStart _ => true
  | .escalation _ => true
  | .edmTimeout _ _ => true
  | .sbcBoostEnd _ => true
  | .brakeTestStart _ => true
  | .brakeTestEnd _ _ => true
  | .brakeTestFail _ _ => true
  | .brakeTestAbort _ _ _ => true
  | .safetyTestStart _ _ => true
  | .safetyTestStepEnd _ _ _ => true
  | .repairTimeExpiry _ => true
  | .soOverloadRetry _ _ => true
  | .axisEnable _ _ => true
  | .axisDisable _ _ => true
  | .axisAppend _ _ _ => true
  | .axisReplace _ _ _ => true
  | .axisStop _ _ => true
  | .axisEstop _ _ => true
  | .axisVelocity _ _ _ _ => true
  | .axisHome _ _ _ => true
  | .axisSetRates _ _ _ _ => true
  | .axisClearFault _ _ _ => true
  | .axisProfileTick _ => true
  | .axisLimitEdge _ _ _ _ => true
  | .axisHomingEdge _ _ _ _ => true
  | .axisStall _ => true
  | .axisHoldDelay _ => true
  | .axisBridgeFault _ _ => true
  | .axisBridgeTestDone _ _ => true
  | .gatedBridgeTest _ _ => true
  | .vmLow _ => true
  | .vmOver _ => true
  | .axisStateSave _ => true
  | .epFrameStart _ => true
  | .panelWrite _ _ rect _ _ => rect.wf
  | .panelPresent _ _ => true
  | .panelUpdate _ _ rect _ => rect.wf
  | .panelTemp _ _ _ => true
  | .panelPowerOn _ _ => true
  | .panelPowerOff _ _ => true
  | .ptempMeasure _ => true
  | .pnlPgFall _ => true
  | .holdoffExpiry _ => true
  | .memFault _ block _ _ => decide (block < 65536)
  | .recWinSelect _ _ => true
  | .servicePass descs => Instr.keysOnce (descs.map (fun e => e.1.val)) && descs.all (fun e => e.2.all Desc.wf)
  | .dataReadDone _ _ data _ _ => decide (data.length ≤ 1048576)
  | .dmaFailure _ _ _ _ => true
  | .ringAccessFailure _ _ _ => true
  | .nop _ => true
  | .mode _ m task billet _ => decide (m < 256) && decide (task < 256) && decide (billet < 65536)
  | .imageWrite _ _ _ _ _ _ _ _ => true
  | .activateConfig _ => true
  | .activateSafety _ => true
  | .activateFwEngine _ _ => true
  | .activateFwModule _ => true
  | .areaWrite _ area off bytes => decide (area < 256) && decide (off < 65536) && decide (bytes.length ≤ 1048576)
  | .areaRead _ area _ len => decide (area < 256) && decide (len ≤ 1048576)
  | .recRead _ _ count _ _ _ len => decide (count < 65536) && decide (len ≤ 1048576)
  | .recNote _ _ _ => true
  | .trigger _ n => decide (n < 256)
  | .quota _ source q => decide (source < 256) && decide (q < 65536)
  | .panel _ _ _ => true
  | .sqTailDoorbell _ tail => decide (tail < 2 ^ 32)
  | .cqHeadDoorbell _ head => decide (head < 2 ^ 32)
  | .eqHeadDoorbell head => decide (head < 2 ^ 32)
  | .ringStopped _ => true
  | .msixCoalesceTimeout _ => true
  | .busMasterEnable _ _ => true
  | .pcieLinkUp speed width => speed != 0#2 && (width == 1#2 || width == 2#2)
  | .registerWrite _ off _ => decide (off < 0x100000)
  | .badAccess _ _ => true
  | .guardedValueWrite _ off _ => decide (off < 0x4000)
  | .complementWrite _ off _ _ => decide (off < 0x4000)
  | .guardLate _ => true
  | .bitAliasWrite _ off _ _ => decide (off < 0x4000) && off % 4 == 0
  | .lowWordRead _ off => decide (off < 0x4000)
  | .groupLatchRead _ off => decide (off < 0x4000)
  | .scrubPass _ found => found.all (fun e => decide (e.1 < 0x4000))
  | .holdupMeasure _ => true
  | .scrubNow _ _ => true
  | .mntCmdDone _ _ => true
  | .mntOpen _ => true
  | .mntRead off count => decide (off < 0x100000) && decide (count < 256)
  | .mntWrite off _ => decide (off < 0x100000)
  | .mntCommand d data _ _ => d.wf && decide (data.length ≤ 1048576)
  | .supplyLost _ => true
  | .supplyBack _ => true
  | .thermalWarn _ => true
  | .powerUp _ _ _ _ _ _ _ _ => true
  | .firmwareVerified _ _ => true
  | .objectsVerified _ => true
  | .lanesStart _ => true
  | .enumerate _ => true
  | .enumCollectEnd delays => Instr.keysOnce (delays.map (fun e => e.1.val))
  | .ident _ _ _ _ => true
  | .rxAuth _ _ _ _ => true
  | .pathDelayMeasure delays => Instr.keysOnce (delays.map (fun e => e.1.val))
  | .reply _ _ _ _ => true
  | .ack _ _ _ => true
  | .unitLost _ => true
  | .rxAckDeadline _ => true
  | .edmFaultClear _ => true
  | .soOverload _ => true
  | .soOpenLoad _ => true
  | .fwStuck _ => true
  | .lowSideClosureFail _ => true
  | .shaftCountEdge _ _ _ _ => true
  | .gridSenseSaturated _ => true
  | .parityCheckedRead _ off _ _ => decide (off < 0x4000)
  | .ptpAnnounce _ => true
  | .ptpDelayResponse _ _ => true
  | .resetPress _ _ _ => true
  | .stationTick env => env.wf
  | .seatOpen => true
  | .partnerSeatOpen => true
  | .partnerSeatClose => true
  | .cycleControllerFault => true
  | .svFault => true
  | .twinUnitFault => true
  | .timeUnitFault => true
  | .retainedStoreUe => true
  | .powerLoss => true
  | .heartbeatSend => true
  | .partnerLost => true
  | .keeperLapse => true
  | .partnerRoleLineHigh => true
  | .partnerRoleLineLow => true
  | .roleConflict => true
  | .splitBrainRelease => true
  | .startingRoleWait => true
  | .yieldFail => true
  | .stateCopyTimeout => true
  | .stagingComplete => true
  | .precarryComplete => true
  | .settleComplete => true
  | .syncTimeout => true
  | .quarantineExpiry => true
  | .holdoverExpired => true
  | .syncWaitExpiry => true
  | .budgetWindow => true
  | .calWindowAbandon => true
  | .lanePFault => true
  | .laneHFault => true
  | .lsSupplyLow => true
  | .lsSupplyBack => true
  | .lcdFrameStart => true
  | .frontBackCopyDone => true
  | .tempTimeout => true
  | .pnlPgRise => true
  | .panelUnitFault => true
  | .recordWrite => true
  | .quotaWindow => true
  | .pcieLinkDown => true
  | .pcieHotReset => true
  | .flr => true
  | .holdupTest => true
  | .identify => true
  | .mntClose => true
  | .mntIdleTimeout => true
  | .mntCableRemoved => true
  | .mntLockoutEnd => true
  | .dieOvertemp => true
  | .twinSearchEnd => true
  | .timeSourceSettled => true
  | .configSwitchInstant => true
  | .rickFormed => true
  | .rickPoll => true
  | .commission => true
  | .commissionDone => true
  | .commissionArmExpiry => true
  | .safetyCellPowerLost => true
  | .safetyCellPowerBack => true
  | .svRestartDone => true
  | .vmHigh => true
  | .vmLowClear => true
  | .busMasterDisable => true
  | .mntCableAttached => true
  | .supervisionFrameSend => true
  | .slewDone => true

end Sys2Proof
end

