-- ==== Sys2Proof/Tests/Slice0.lean ====
section
/-! SUPPORT. Tests/Slice0.lean: the checks of WellFormed refuse what they name, a few small tests whose results come from the
spec's tables and worked lines, and for every obligation with hypotheses a state and operands that meet them together. -/
set_option Elab.async false
set_option maxRecDepth 4000
set_option linter.all false
open Sys2Proof Sys2Proof.Machine

namespace Sys2Proof.Tests

/-- A descriptor of opcode 0, with its length and its parameter bytes given. -/
def desc (len : Nat) (params : List Byte) : Desc :=
  { opcode := 0#8, fence := false, reserved := false, tag := 0#32, dataAddr := 0#64, dataLen := len, params := params }

/-- The inputs of a T0 with nothing connected. -/
def noInputs : T0Env := { gs := [], sh := [], so := [], fb := [], absent := [] }

/-- A station tick with the two station supplies at 24 V and nothing on the trackers. -/
def quietTick : TickEnv := { grid := [], diff := [], vmMv := 24000, psA := 24000, psB := 24000, cold := 250, die := 400, power := 100, sram := 0, store := 0 }

/-- A sample of a mains tracker. -/
def sample : GsSample := { inst := 0, rms := 0, freq := 50000, saturated := false, phase := 0#32, rate := 0, amp := 0 }

/-! WellFormed: one ill-formed command for each check. -/

theorem test_wf_taskT0_twice : Instr.wf (.taskT0 0 { noInputs with gs := [(1, sample), (1, sample)] }) = false := by decide
theorem test_wf_angleFiring_twice : Instr.wf (.angleFiring 0 0 true 0 { noInputs with sh := [(0, true, true, true), (0, true, true, true)] }) = false := by decide
theorem test_wf_fallbackT0_twice : Instr.wf (.fallbackT0 0 true { noInputs with so := [(7, true, 0), (7, true, 0)] }) = false := by decide
theorem test_wf_taskT0_feedback : Instr.wf (.taskT0 0 { noInputs with fb := [(3, true), (3, false)] }) = false := by decide
theorem test_wf_taskT0_absent : Instr.wf (.taskT0 0 { noInputs with absent := [3, 3] }) = false := by decide
theorem test_wf_taskT0 : Instr.wf (.taskT0 0 { noInputs with absent := [2, 3] }) = true := by decide
theorem test_wf_engineExamine : Instr.wf (.engineExamine [15, 15]) = false := by decide
theorem test_wf_sramUe : Instr.wf (.sramUe 0 [(2, 0), (2, 1)]) = false := by decide
theorem test_wf_modeStep : Instr.wf (.modeStep .self 256) = false := by decide
theorem test_wf_taskRestart : Instr.wf (.taskRestart .self 256) = false := by decide
theorem test_wf_arm : Instr.wf (.arm .self 256 0#64) = false := by decide
theorem test_wf_aioConversionDone : Instr.wf (.aioConversionDone [(31, 0), (31, 1)]) = false := by decide
theorem test_wf_panelWrite : Instr.wf (.panelWrite .self 0#16 { x := 65536, y := 0, w := 1, h := 1 } 3 []) = false := by decide
theorem test_wf_panelUpdate : Instr.wf (.panelUpdate .self 0#16 { x := 0, y := 0, w := 1, h := 65536 } 0) = false := by decide
theorem test_wf_memFault : Instr.wf (.memFault .ember 65536 true []) = false := by decide
theorem test_wf_servicePass_rings : Instr.wf (.servicePass [(1, []), (1, [])]) = false := by decide
theorem test_wf_servicePass_desc : Instr.wf (.servicePass [(1, [desc 0 []])]) = false := by decide
theorem test_wf_servicePass : Instr.wf (.servicePass [(1, [desc 0 (List.replicate 40 0#8)])]) = true := by decide
theorem test_wf_mode : Instr.wf (.mode .self 256 0 0 0) = false := by decide
theorem test_wf_mode_billet : Instr.wf (.mode .self 1 0 65536 0) = false := by decide
theorem test_wf_areaWrite : Instr.wf (.areaWrite .self 256 0 []) = false := by decide
theorem test_wf_areaWrite_off : Instr.wf (.areaWrite .self 0 65536 []) = false := by decide
theorem test_wf_areaRead : Instr.wf (.areaRead .self 0 0#64 1048577) = false := by decide
theorem test_wf_recRead : Instr.wf (.recRead .self 0 65536 false false 0#64 0) = false := by decide
theorem test_wf_trigger : Instr.wf (.trigger .self 256) = false := by decide
theorem test_wf_quota : Instr.wf (.quota .self 256 0) = false := by decide
theorem test_wf_sqTailDoorbell : Instr.wf (.sqTailDoorbell 0 4294967296) = false := by decide
theorem test_wf_cqHeadDoorbell : Instr.wf (.cqHeadDoorbell 0 4294967296) = false := by decide
theorem test_wf_eqHeadDoorbell : Instr.wf (.eqHeadDoorbell 4294967296) = false := by decide
theorem test_wf_pcieLinkUp : Instr.wf (.pcieLinkUp 0#2 1#2) = false := by decide
theorem test_wf_pcieLinkUp_width : Instr.wf (.pcieLinkUp 1#2 3#2) = false := by decide
theorem test_wf_registerWrite : Instr.wf (.registerWrite .host 0x100000 0#32) = false := by decide
theorem test_wf_guardedValueWrite : Instr.wf (.guardedValueWrite .host 0x4000 0#32) = false := by decide
theorem test_wf_complementWrite : Instr.wf (.complementWrite .host 0x4000 0#32 0) = false := by decide
theorem test_wf_bitAliasWrite : Instr.wf (.bitAliasWrite .host 0x5D 0 true) = false := by decide
theorem test_wf_lowWordRead : Instr.wf (.lowWordRead .host 0x4000) = false := by decide
theorem test_wf_groupLatchRead : Instr.wf (.groupLatchRead .host 0x4000) = false := by decide
theorem test_wf_scrubPass : Instr.wf (.scrubPass 0 [(0x4000, 0#32, true)]) = false := by decide
theorem test_wf_mntRead : Instr.wf (.mntRead 0 256) = false := by decide
theorem test_wf_mntWrite : Instr.wf (.mntWrite 0x100000 0#32) = false := by decide
theorem test_wf_mntCommand : Instr.wf (.mntCommand (desc 4294967296 (List.replicate 40 0#8)) [] .none ({}, none)) = false := by decide
theorem test_wf_enumCollectEnd : Instr.wf (.enumCollectEnd [(5, 0), (5, 1)]) = false := by decide
theorem test_wf_pathDelayMeasure : Instr.wf (.pathDelayMeasure [(0, 0), (0, 1)]) = false := by decide
theorem test_wf_parityCheckedRead : Instr.wf (.parityCheckedRead .host 0x4000 0#32 true) = false := by decide
theorem test_wf_stationTick : Instr.wf (.stationTick { quietTick with grid := [(0, sample), (0, sample)] }) = false := by decide
theorem test_wf_stationTick_diff : Instr.wf (.stationTick { quietTick with diff := [(1, sample), (1, sample)] }) = false := by decide

/-! The table spells no command by bits. -/

theorem test_decode_none : decodeTableWord 32 0xFFFFFFFF = none := by decide
theorem test_withFetchWord : State.reset.withFetchWord 32 0 = State.reset := by decide
theorem test_step_front : step { pending := [.pcieLinkDown, .flr] } = exec .pcieLinkDown { pending := [.flr] } := rfl

/-! Small tests. The expected values are the spec's. -/

/-- 09 *Input bands*: with NE 43, 3.6 mA and below is a failure low, 3.8 mA to 20.5 mA the measuring range, and 21 mA a failure high. -/
theorem test_aio_bands : (aioBandOf true 3600000, aioBandOf true 3800000, aioBandOf true 20500000, aioBandOf true 21000000) =
    (.failLow, .measuring, .measuring, .failHigh) := by decide
/-- 04 R110: a token with a JOINED link is LEAD, with a SEVERED link SOLO. -/
theorem test_role_lead : ({ twin := { started := true, began := true, ownLow := true, link := .joined } } : State).role = .lead := by decide
theorem test_role_solo : ({ twin := { started := true, began := true, ownLow := true } } : State).role = .solo := by decide
/-- 15 R425: an offset with no register reads 0. -/
theorem test_reserved_read : (State.reset.busRead .host 0x8FFC).1 = 0#32 := by decide
/-- 15 *MOD registers*: SCRATCH reads what was written. -/
theorem test_scratch : ((State.reset.busWrite .host 0x5C 0x12345678#32).busRead .host 0x5C).1 = 0x12345678#32 := by decide
/-- The published check value of CRC-32C over the digits 1 to 9. -/
theorem test_crc32c : Bits.crc32c [0x31#8, 0x32#8, 0x33#8, 0x34#8, 0x35#8, 0x36#8, 0x37#8, 0x38#8, 0x39#8] = 0xE3069283#32 := by decide

/-- 03 *Arithmetic of billets*: sums wrap; a division by zero gives 0 and the dividend; the most negative number by -1 gives itself. -/
theorem test_arith_wraps : Arith.eval (.add 4) 0xFFFFFFFF#64 1#64 = 0#64 := by decide
theorem test_arith_divides : (Arith.eval (.quot true 4) 7#64 0#64, Arith.eval (.rem true 4) 7#64 0#64,
    Arith.eval (.quot true 8) 0x8000000000000000#64 0xFFFFFFFFFFFFFFFF#64) = (0#64, 7#64, 0x8000000000000000#64) := by decide
/-- 03 *Arithmetic of billets*: in binary32 0 / 0 is the canonical quiet NaN, and a NaN converts to the integer 0. -/
theorem test_arith_nan : (Arith.eval (.fdiv .single) 0#64 0#64, Arith.eval (.toInt .single true 4) 0x7FC00000#64 0#64) = (0x7FC00000#64, 0#64) := by
  decide
/-- 04 R100: a frame counts once, though both lanes carry it. -/
theorem test_olvia_once : ({ lanes := [(0, { state := .up }), (1, { state := .up })], copies := [(0, 5#32)] } : TwinBlk).fresh { lane := 1, seq := 5#32 } = false := by
  decide

/-! Witnesses. -/

/-- `Obligations.ReservedOffsets` at the boundaries of its ranges: the last word of the register page, the first offset above the
interrupt table, the last below the bit aliases, and the last word of the bit aliases. -/
theorem witness_ReservedOffsets_ranges : isReg 0x3FFC = false ∧ 0x7FFC % 4 = 0 ∧ 0x8200 < 0x80000 ∧ 0x7FFFF ≠ 0x9000 ∧
    isReg ((0xFFFFC - 0x80000) / 128 * 4) = false := by decide

/-- `Obligations.StepKeepsInv`: a state with an enabled ring and an entry in the annex meets the invariant, and its step answers. -/
theorem witness_StepKeepsInv : ∃ s t : State, s.Inv ∧ step s = .next t :=
  ⟨{ host := { sqs := [(0, { cfg := 0x01001000#32, state := .enabled })] }, recorder := { annex := [{}] } }, _,
    ⟨fun n => match n with
      | 0 => .inr (by decide)
      | _ + 1 => .inl rfl, by decide⟩, rfl⟩

/-- `Obligations.PeatIsKept`: a step of a state with a record in the peat layer. -/
theorem witness_PeatIsKept : ∃ s t : State, s.recorder.peat ≠ [] ∧ step s = .next t :=
  ⟨{ recorder := { peat := [(0, { peat := true })] }, pending := [.busMasterDisable] }, _, by decide, rfl⟩

/-- Every clause of `Obligations.ReservedOffsets` that has hypotheses has a state and operands that meet them together. -/
theorem witness_ReservedOffsets :
    ∃ (s : State) (who : Requester) (off : Nat) (w : Word), ((off < 0x8000 ∧ off % 4 = 0 ∧ isReg (off % 0x4000) = false) ∨
      (0x8200 ≤ off ∧ off < 0x80000 ∧ off ≠ 0x9000) ∨ (0x80000 ≤ off ∧ off < 0x100000 ∧ off % 4 = 0 ∧ isReg ((off - 0x80000) /
      128 * 4) = false)) :=
  ⟨{}, .host, (0x0FFFFC : Nat), 0#32, by decide⟩

/-- Every clause of `Obligations.RoleShown` that has hypotheses has a state and operands that meet them together. -/
theorem witness_RoleShown :
    ∃ (s : State), s.twin.began = true :=
  ⟨{ twin := { began := true } }, by decide⟩

/-- Every clause of `Obligations.FrontIndicators` that has hypotheses has a state and operands that meet them together. -/
theorem witness_FrontIndicators :
    (∃ (s : State), s.mod.powered = false) ∧
    (∃ (s : State), s.mod.powered = true) :=
  ⟨⟨{ mod := { powered := false } }, by decide⟩,
    ⟨{ mod := { powered := true } }, by decide⟩⟩

/-- Every clause of `Obligations.StepRunsFront` that has hypotheses has a state and operands that meet them together. -/
theorem witness_StepRunsFront :
    (∃ (c : Instr) (rest : List Instr) (s : State), s.pending = c :: rest) ∧
    (∃ (s : State), s.pending = []) :=
  ⟨⟨(.partnerLost : Instr), [], { pending := [.partnerLost] }, rfl⟩,
    ⟨{ pending := [] }, by decide⟩⟩

/-- Every clause of `Obligations.ReportsAndCompletions` that has hypotheses has a state and operands that meet them together. -/
theorem witness_ReportsAndCompletions :
    (∃ (s : State) (b : Block) (n obj : Nat) (w : Word), s.recorder.trigDefs = [] ∧ s.recorder.failed = false ∧
      s.recorder.overQuota b.code = false) ∧
    (∃ (s : State) (b : Block) (n obj : Nat) (w : Word), s.recorder.trigDefs = [] ∧ s.recorder.failed = false ∧
      s.recorder.overQuota b.code = true ∧ s.enabledBit .recorder 3 = false) ∧
    (∃ (s : State) (e : EventEntry), s.host.eq.state = .enabled ∧ s.host.eq.room ≠ 0 ∧ s.host.eq.dropped = 0 ∧ s.host.busMaster
      = true ∧ Bits.bit s.host.eq.cfg 15 = false ∧ s.mnt.session = none) ∧
    (∃ (s : State) (e : EventEntry), s.host.eq.state = .enabled ∧ s.host.eq.room = 0 ∧ s.recorder.trigDefs = []) ∧
    (∃ (s : State) (e : EventEntry), s.host.eq.state ≠ .enabled) ∧
    (∃ (s : State) (k : Fin 8) (x : Taken) (l : List Taken) (status detail : Nat), s.mod.failed = false ∧ s.host.taken = x :: l
      ∧ x.sq = k.val ∧ (s.host.cq (s.host.sq k).bound).state = .enabled ∧ s.host.busMaster = true ∧ Bits.bit (s.host.cq
      (s.host.sq k).bound).cfg 15 = false) ∧
    (∃ (s : State) (c : MntCmd) (l : List MntCmd) (status detail : Nat), s.mnt.cmds = c :: l ∧ s.mnt.session.isSome = true) :=
  ⟨⟨{ recorder := { trigDefs := [], failed := false } }, .mod, 0, 0, 0#32, ⟨by decide, by decide, by decide⟩⟩,
    ⟨{ recorder := { trigDefs := [], failed := false, quota := [(0, 2)], use := [(0, 1)] } }, .mod, 0, 0, 0#32, ⟨by decide, by
      decide, by decide, by decide⟩⟩,
    ⟨{ host := { eq := { state := .enabled, dropped := 0, cfg := 0x0A000101#32 }, busMaster := true }, mnt := { session := none } },
      ({} : EventEntry), ⟨by decide, by decide, by decide, by decide, by decide, by decide⟩⟩,
    ⟨{ host := { eq := { state := .enabled, cfg := 0x00000101#32 } }, recorder := { trigDefs := [] } }, ({} : EventEntry), ⟨by
      decide, by decide, by decide⟩⟩,
    ⟨{}, ({} : EventEntry), by decide⟩,
    ⟨{ mod := { failed := false }, host := { taken := [{ desc := { opcode := 0#8, fence := false, reserved := false, tag := 0#32, dataAddr := 0#64, dataLen := 0, params := [] } }], busMaster := true, cqs := [(0, { state := .enabled })] } },
      (0 : Fin 8),
      ({ ({ desc := { opcode := 0#8, fence := false, reserved := false, tag := 0#32, dataAddr := 0#64, dataLen := 0, params := [] } } : Taken) with sq := (0 : Fin 8).val }
      : Taken), [], 0, 0, ⟨by decide, by decide, by decide, by decide, by decide, by decide⟩⟩,
    ⟨{ mnt := { cmds := [({ desc := { opcode := 0#8, fence := false, reserved := false, tag := 0#32, dataAddr := 0#64, dataLen := 0, params := [] } } : MntCmd)], session := some {} } },
      ({ desc := { opcode := 0#8, fence := false, reserved := false, tag := 0#32, dataAddr := 0#64, dataLen := 0, params := [] } }
      : MntCmd), [], 0, 0, ⟨by decide, by decide⟩⟩⟩

/-- Every clause of `Obligations.RegisterAccess` that has hypotheses has a state and operands that meet them together. -/
theorem witness_RegisterAccess :
    (∃ (s : State) (who : Requester) (off : Nat) (w : Word), off < 0x4000 ∧ off % 4 = 0 ∧ (isReg off = false ∨ (accessOf off).2
      = 0#32)) ∧
    (∃ (s : State) (who : Requester) (off : Nat) (w : Word), off < 0x8000 ∧ off % 4 ≠ 0) ∧
    (∃ (s : State) (w : Word), s.mnt.session = none) ∧
    (∃ (s : State) (w : Word), s.mod.host.pending = none) ∧
    (∃ (s : State) (w v : Word) (o : Nat), s.mod.host.pending = some (o, v)) ∧
    (∃ (s : State) (v : Word) (ns : Nat), ns ≤ 1000 ∧ s.mod.host.pending = some (0x60, v) ∧ s.mod.host.expired = none) ∧
    (∃ (s : State) (v w : Word) (ns : Nat), ns ≤ 1000 ∧ s.mod.host.pending = some (0x60, v) ∧ s.mod.host.expired = none ∧ w ≠
      ~~~v) ∧
    (∃ (s : State) (v w : Word) (o ns : Nat), ns ≤ 1000 ∧ s.mod.host.pending = some (o, v) ∧ o ≠ 0x60 ∧ s.mod.host.expired =
      none) ∧
    (∃ (s : State) (w : Word) (ns : Nat), ns ≤ 1000 ∧ s.mod.host.pending = none ∧ s.mod.host.expired = none) ∧
    (∃ (s : State) (w : Word) (ns : Nat), ns ≤ 1000 ∧ s.mod.host.expired = some 0x60) ∧
    (∃ (s : State) (v w : Word) (ns : Nat), 1000 < ns ∧ s.mod.host.pending = some (0x60, v)) ∧
    (∃ (s : State) (v : Word), s.mod.host.pending = some (0x60, v)) ∧
    (∃ (s : State) (who : Requester) (off : Nat), off ∈ lowWords) ∧
    (∃ (s : State) (who : Requester) (off : Nat), off ∈ [0x1410, 0x1448, 0x1458, 0x1468, 0x1478, 0x18A0, 0x291C, 0x295C, 0x299C,
      0x29DC]) :=
  ⟨⟨{}, .host, 0, 0#32, ⟨by decide, by decide, by decide⟩⟩,
    ⟨{}, .host, (0x7FFF : Nat), 0#32, ⟨by decide, by decide⟩⟩,
    ⟨{ mnt := { session := none } }, 0#32, by decide⟩,
    ⟨{ mod := { host := { pending := none } } }, 0#32, by decide⟩,
    ⟨{ mod := { host := { pending := some (0, 0#32) } } }, 0#32, 0#32, 0, by decide⟩,
    ⟨{ mod := { host := { pending := some (0x60, 0#32), expired := none } } }, 0#32, 0, ⟨by decide, by decide, by decide⟩⟩,
    ⟨{ mod := { host := { pending := some (0x60, 0#32), expired := none } } }, 0#32, 0#32, 0, ⟨by decide, by decide, by decide,
      by decide⟩⟩,
    ⟨{ mod := { host := { pending := some (0, 0#32), expired := none } } }, 0#32, 0#32, 0, 0, ⟨by decide, by decide, by decide,
      by decide⟩⟩,
    ⟨{ mod := { host := { pending := none, expired := none } } }, 0#32, 0, ⟨by decide, by decide, by decide⟩⟩,
    ⟨{ mod := { host := { expired := some 0x60 } } }, 0#32, 0, ⟨by decide, by decide⟩⟩,
    ⟨{ mod := { host := { pending := some (0x60, 0#32) } } }, 0#32, 0#32, (1001 : Nat), ⟨by decide, by decide⟩⟩,
    ⟨{ mod := { host := { pending := some (0x60, 0#32) } } }, 0#32, by decide⟩,
    ⟨{}, .host, (0x3964 : Nat), by decide⟩,
    ⟨{}, .host, (0x29DC : Nat), by decide⟩⟩

/-- Every clause of `Obligations.ScrubAndHoldup` that has hypotheses has a state and operands that meet them together. -/
theorem witness_ScrubAndHoldup :
    (∃ (s : State) (us off : Nat) (w : Word), hasParity off = true) ∧
    (∃ (s : State) (who : Requester) (off : Nat) (w : Word) (ok : Bool), hasParity off = false) ∧
    (∃ (s : State), s.mnt.identify = false) ∧
    (∃ (s : State), s.mnt.identify = true) ∧
    (∃ (s : State), s.mnt.holdTest = false) ∧
    (∃ (s : State), s.mnt.holdTest = true) ∧
    (∃ (s : State) (busy : Bool), s.mnt.scrubNow = false) ∧
    (∃ (s : State) (n : Nat), s.mod.powered = true ∧ (∀ t, s.mod.holdupAt = some t → t + 6000000 ≤ s.mod.uptime)) ∧
    (∃ (s : State) (n t : Nat), (s.mod.powered = false ∨ (s.mod.holdupAt = some t ∧ s.mod.uptime < t + 6000000))) ∧
    (∃ (s : State) (n : Nat), s.mod.powered = true ∧ s.mnt.identify = true ∧ s.mnt.identAt + 1000000 ≤ s.mod.uptime) ∧
    (∃ (s : State) (n : Nat), s.mod.powered = true ∧ s.mnt.scrubNow = true ∧ s.mnt.scrubLeft = 0) ∧
    (∃ (s : State) (n : Nat), s.mod.powered = true ∧ s.mnt.holdTest = true ∧ s.mnt.testAt + 20 ≤ s.mod.uptime ∧ 240 ≤ n) :=
  ⟨⟨{}, 0, (0x0060 : Nat), 0#32, by decide⟩,
    ⟨{}, .host, 0, 0#32, false, by decide⟩,
    ⟨{ mnt := { identify := false } }, by decide⟩,
    ⟨{ mnt := { identify := true } }, by decide⟩,
    ⟨{ mnt := { holdTest := false } }, by decide⟩,
    ⟨{ mnt := { holdTest := true } }, by decide⟩,
    ⟨{ mnt := { scrubNow := false } }, false, by decide⟩,
    ⟨{ mod := { powered := true } }, 0, ⟨by decide, by decide⟩⟩,
    ⟨{}, 0, 0, by decide⟩,
    ⟨{ mod := { powered := true, uptime := 1000000 }, mnt := { identify := true } }, 0, ⟨by decide, by decide, by decide⟩⟩,
    ⟨{ mod := { powered := true }, mnt := { scrubNow := true, scrubLeft := 0 } }, 0, ⟨by decide, by decide, by decide⟩⟩,
    ⟨{ mod := { powered := true, uptime := 20 }, mnt := { holdTest := true } }, (240 : Nat), ⟨by decide, by decide, by decide,
      by decide⟩⟩⟩

/-- Every clause of `Obligations.MaintenancePort` that has hypotheses has a state and operands that meet them together. -/
theorem witness_MaintenancePort :
    (∃ (s : State) (k : Nat) (r : Rights), s.mntOn = true ∧ s.mnt.lockout = false ∧ s.cfg.rights k = some r) ∧
    (∃ (s : State), s.mntOn = true ∧ s.mnt.lockout = false ∧ (s.mnt.fails.filter (fun t => decide (s.nowNs < t +
      60000000000))).length < 4) ∧
    (∃ (s : State), s.mntOn = true ∧ s.mnt.lockout = false ∧ 4 ≤ (s.mnt.fails.filter (fun t => decide (s.nowNs < t +
      60000000000))).length) ∧
    (∃ (s : State) (k : Option Nat), s.mntOn = true ∧ s.mnt.lockout = true) ∧
    (∃ (s : State) (r : Rights), s.mntOn = true ∧ s.mnt.session = some r) ∧
    (∃ (s : State) (r : Rights), s.mnt.session = some r ∧ s.mnt.lastMsg + 900000000000 ≤ s.nowNs) ∧
    (∃ (s : State) (r : Rights), s.mnt.session = some r) ∧
    (∃ (s : State), s.mnt.session = none) ∧
    (∃ (s : State), s.nowNs < s.mnt.lastMsg + 900000000000) ∧
    (∃ (s : State), s.mnt.lockout = true ∧ s.mnt.lockNs + 300000000000 ≤ s.nowNs) ∧
    (∃ (s : State), (s.mnt.lockout = false ∨ s.nowNs < s.mnt.lockNs + 300000000000)) ∧
    (∃ (s : State) (r : Rights), s.mntOn = true ∧ s.mnt.session = some r ∧ r.read = true ∧ s.cfg.phase ≠ .rom) ∧
    (∃ (s : State) (r : Rights) (off n : Nat), s.mntOn = true ∧ s.mnt.session = some r ∧ (r.read = false ∨ n = 0 ∨ 64 < n)) ∧
    (∃ (s : State) (r : Rights) (w : Word), s.mntOn = true ∧ s.mnt.session = some r ∧ r.write = true ∧ s.cfg.phase ≠ .rom) ∧
    (∃ (s : State) (r : Rights) (w : Word), s.mntOn = true ∧ s.mnt.session = some r ∧ r.write = false ∧ s.cfg.phase ≠ .rom) ∧
    (∃ (s : State) (r : Rights) (d : Desc) (data : List Byte) (o : ImageObj) (p : Package × Option Nat), s.mntOn = true ∧
      s.mnt.session = some r ∧ r.command = true) :=
  ⟨⟨{ mnt := { attached := true, lockout := false }, mod := { powered := true }, cfg := { keys0 := some { maintKeys := [(0, {})] } } },
      0, ({} : Rights), ⟨by decide, by decide, by decide⟩⟩,
    ⟨{ mnt := { attached := true, lockout := false }, mod := { powered := true } }, ⟨by decide, by decide, by decide⟩⟩,
    ⟨{ mnt := { attached := true, lockout := false, fails := [1, 1, 2, 3] }, mod := { powered := true } }, ⟨by decide, by
      decide, by decide⟩⟩,
    ⟨{ mnt := { attached := true, lockout := true }, mod := { powered := true } }, none, ⟨by decide, by decide⟩⟩,
    ⟨{ mnt := { attached := true, session := some ({} : Rights) }, mod := { powered := true } }, ({} : Rights), ⟨by decide, by
      decide⟩⟩,
    ⟨{ mnt := { session := some ({} : Rights) }, time := { sec := 900#64 } }, ({} : Rights), ⟨by decide, by decide⟩⟩,
    ⟨{ mnt := { session := some ({} : Rights) } }, ({} : Rights), by decide⟩,
    ⟨{ mnt := { session := none } }, by decide⟩,
    ⟨{}, by decide⟩,
    ⟨{ mnt := { lockout := true }, time := { sec := 300#64 } }, ⟨by decide, by decide⟩⟩,
    ⟨{}, by decide⟩,
    ⟨{ mnt := { attached := true, session := some ({ read := true } : Rights) }, mod := { powered := true }, cfg := { phase := .ready } },
      ({ read := true } : Rights), ⟨by decide, by decide, by decide, by decide⟩⟩,
    ⟨{ mnt := { attached := true, session := some ({} : Rights) }, mod := { powered := true } }, ({} : Rights), 0, 0, ⟨by
      decide, by decide, by decide⟩⟩,
    ⟨{ mnt := { attached := true, session := some ({ write := true } : Rights) }, mod := { powered := true }, cfg := { phase := .ready } },
      ({ write := true } : Rights), 0#32, ⟨by decide, by decide, by decide, by decide⟩⟩,
    ⟨{ mnt := { attached := true, session := some ({ write := false } : Rights) }, mod := { powered := true }, cfg := { phase := .ready } },
      ({ write := false } : Rights), 0#32, ⟨by decide, by decide, by decide, by decide⟩⟩,
    ⟨{ mnt := { attached := true, session := some ({ command := true } : Rights) }, mod := { powered := true } },
      ({ command := true } : Rights),
      ({ opcode := 0#8, fence := false, reserved := false, tag := 0#32, dataAddr := 0#64, dataLen := 0, params := [] } : Desc),
      [], .none, ({}, none), ⟨by decide, by decide, by decide⟩⟩⟩

/-- Every clause of `Obligations.StartUp` that has hypotheses has a state and operands that meet them together. -/
theorem witness_StartUp :
    (∃ (s : State), s.mod.psA.ok = true) ∧
    (∃ (s : State), s.mod.psB.ok = true) ∧
    (∃ (s : State), s.mod.psA.ok = false ∧ s.mod.powered = true ∧ 1000 ≤ s.mod.psA.up) ∧
    (∃ (s : State), s.mod.psB.ok = false ∧ s.mod.powered = true ∧ 1000 ≤ s.mod.psB.up) ∧
    (∃ (s : State), s.mod.warn = false ∧ 100000 ≤ s.mod.coldHot) ∧
    (∃ (s : State), s.mod.warn = true ∧ s.mod.coldRail < 680) ∧
    (∃ (s : State) (rom bb rb : Bool) (l : List (Fin 16)), s.mod.powered = false ∧ (∀ n : Nat, (s.task n).run = none) ∧
      s.recorder.queue = [] ∧ s.recorder.failed = false ∧ s.recorder.emberWorn = false ∧ s.recorder.bookBad = [] ∧ l.length ≤ 2) ∧
    (∃ (s : State) (rom bb rb : Bool) (a b c : Fin 16), s.mod.powered = false ∧ (∀ n : Nat, (s.task n).run = none) ∧
      s.recorder.queue = [] ∧ s.recorder.failed = false ∧ s.recorder.emberWorn = false ∧ s.recorder.bookBad = [] ∧ a ≠ b ∧ a ≠ c
      ∧ b ≠ c) ∧
    (∃ (s : State) (a b rom torn ba bb rb : Bool) (l : List (Fin 16)), (s.mod.powered = true ∨ (a = false ∧ b = false))) ∧
    (∃ (s : State) (f : FirmObj) (other : Bool), s.mod.powered = true ∧ s.cfg.phase = .rom ∧ s.cfg.firmOnB = false ∧ s.cfg.firmA
      = some f ∧ f.ok = true) ∧
    (∃ (s : State) (f : FirmObj), s.mod.powered = true ∧ s.cfg.phase = .rom ∧ s.cfg.firmOnB = false ∧ s.cfg.firmB = some f ∧
      f.ok = true) ∧
    (∃ (s : State), s.mod.powered = true ∧ s.cfg.phase = .rom) ∧
    (∃ (s : State) (c : StationCfg) (q : DWord) (u : SlotUse), s.cfg.phase = .verify ∧ s.cfg.loaded = false ∧ s.cfg.keyBad0 =
      false ∧ s.cfg.keyBad1 = false ∧ s.cfg.marker = none ∧ s.cfg.slotA = { body := some c, seq := q, header := true, use := u }
      ∧ s.cfg.slotB = {} ∧ s.configSigned c = true ∧ s.cfg.prog = none ∧ s.cfg.safeA = none ∧ s.cfg.safeB = none) ∧
    (∃ (s : State), s.cfg.phase = .verify ∧ s.cfg.loaded = false ∧ s.cfg.keyBad0 = false ∧ s.cfg.keyBad1 = false ∧ s.cfg.marker
      = none ∧ s.cfg.slotA = {} ∧ s.cfg.slotB = {} ∧ s.cfg.prog = none ∧ s.cfg.safeA = none ∧ s.cfg.safeB = none) ∧
    (∃ (s : State) (on : BitVec 8), s.cfg.phase = .verify ∧ s.cfg.loaded = true ∧ s.cfg.marker = none ∧ s.cfg.lanes = false ∧
      s.cfg.safeOk = false) :=
  ⟨⟨{ mod := { psA := { ok := true } } }, by decide⟩,
    ⟨{ mod := { psB := { ok := true } } }, by decide⟩,
    ⟨{ mod := { psA := { ok := false, up := 1000 }, powered := true } }, ⟨by decide, by decide, by decide⟩⟩,
    ⟨{ mod := { psB := { ok := false, up := 1000 }, powered := true } }, ⟨by decide, by decide, by decide⟩⟩,
    ⟨{ mod := { warn := false, coldHot := 100000 } }, ⟨by decide, by decide⟩⟩,
    ⟨{ mod := { warn := true } }, ⟨by decide, by decide⟩⟩,
    ⟨{ mod := { powered := false }, recorder := { queue := [], failed := false, bookBad := [] } }, false, false, false, [], ⟨by
      decide, (fun _ => rfl), by decide, by decide, by decide, by decide, by decide⟩⟩,
    ⟨{ mod := { powered := false }, recorder := { queue := [], failed := false, bookBad := [] } }, false, false, false, (0 : Fin
      16), (1 : Fin 16), (2 : Fin 16), ⟨by decide, (fun _ => rfl), by decide, by decide, by decide, by decide, by decide, by
      decide, by decide⟩⟩,
    ⟨{}, false, false, false, false, false, false, false, [], by decide⟩,
    ⟨{ mod := { powered := true }, cfg := { phase := .rom, firmOnB := false, firmA := some ({ ok := true } : FirmObj) } },
      ({ ok := true } : FirmObj), false, ⟨by decide, by decide, by decide, by decide, by decide⟩⟩,
    ⟨{ mod := { powered := true }, cfg := { phase := .rom, firmOnB := false, firmB := some ({ ok := true } : FirmObj) } },
      ({ ok := true } : FirmObj), ⟨by decide, by decide, by decide, by decide, by decide⟩⟩,
    ⟨{ mod := { powered := true }, cfg := { phase := .rom } }, ⟨by decide, by decide⟩⟩,
    ⟨{ cfg := { phase := .verify, loaded := false, keyBad0 := false, keyBad1 := false, marker := none, slotA := { body := some ({ signer := some 0, keys := { imageKeys := [0] } } : StationCfg), seq := 0#64, header := true, use := (.valid : SlotUse) }, slotB := {}, prog := none, safeA := none, safeB := none } },
      ({ signer := some 0, keys := { imageKeys := [0] } } : StationCfg), 0#64, (.valid : SlotUse), ⟨by decide, by decide, by
      decide, by decide, by decide, by decide, by decide, by decide, by decide, by decide, by decide⟩⟩,
    ⟨{ cfg := { phase := .verify, loaded := false, keyBad0 := false, keyBad1 := false, marker := none, slotA := {}, slotB := {}, prog := none, safeA := none, safeB := none } },
      ⟨by decide, by decide, by decide, by decide, by decide, by decide, by decide, by decide, by decide, by decide⟩⟩,
    ⟨{ cfg := { phase := .verify, loaded := true, marker := none, lanes := false, safeOk := false } }, 0#8, ⟨by decide, by
      decide, by decide, by decide, by decide⟩⟩⟩

/-- Every clause of `Obligations.RoleAndReady` that has hypotheses has a state and operands that meet them together. -/
theorem witness_RoleAndReady :
    (∃ (s : State), s.cfg.phase = .twinSearch ∧ s.twin.started = false ∧ s.twin.waiting = false ∧ s.twin.seated = true ∧
      (s.twin.partner = false ∨ (s.twin.partnerLow = false ∧ s.twin.high1us = true ∧ s.twin.linkUp = false ∧ s.cfg.searchAt +
      s.cfg.cur.twinWait * 10000 ≤ s.mod.uptime))) ∧
    (∃ (s : State), s.cfg.phase = .twinSearch ∧ s.twin.started = false ∧ s.twin.waiting = false ∧ s.twin.seated = true ∧
      s.twin.partner = true ∧ s.twin.partnerLow = true ∧ s.twin.linkUp = false) ∧
    (∃ (s : State), (s.twin.started = true ∨ s.twin.waiting = true ∨ s.twin.seated = false)) ∧
    (∃ (s : State), s.twin.partner = true ∧ s.twin.partnerLow = false ∧ s.twin.linkUp = false ∧ s.mod.uptime < s.cfg.searchAt +
      s.cfg.cur.twinWait * 10000) ∧
    (∃ (s : State), s.cfg.phase = .time ∧ s.twin.started = true ∧ s.timeSettled = true ∧ s.holdsToken = false ∧ s.twin.link ≠
      .severed ∧ s.xch.cur.state ≠ .armed) ∧
    (∃ (s : State), s.cfg.phase = .time ∧ s.twin.started = true ∧ s.timeSettled = true ∧ s.holdsToken = true ∧ s.cfg.fresh =
      true ∧ s.twin.link ≠ .catchingUp ∧ s.xch.cur.state ≠ .armed) ∧
    (∃ (s : State) (n : Nat) (run : Bool), s.cfg.phase = .time ∧ s.twin.started = true ∧ s.timeSettled = true ∧ s.holdsToken =
      true ∧ s.cfg.fresh = false ∧ s.twin.link ≠ .catchingUp ∧ s.configuredTasks = [n] ∧ s.xch.cur.state = .idle ∧ (Bits.bit
      s.cfg.cur.cyc 0 && !s.xch.cur.inStop) = run ∧ (run = true → s.runReason = 0)) :=
  ⟨⟨{ cfg := { phase := .twinSearch }, twin := { started := false, waiting := false, seated := true } }, ⟨by decide, by decide,
      by decide, by decide, by decide⟩⟩,
    ⟨{ cfg := { phase := .twinSearch }, twin := { started := false, waiting := false, seated := true, partner := true, partnerLow := true } },
      ⟨by decide, by decide, by decide, by decide, by decide, by decide, by decide⟩⟩,
    ⟨{}, by decide⟩,
    ⟨{ twin := { partner := true, partnerLow := false } }, ⟨by decide, by decide, by decide, by decide⟩⟩,
    ⟨{ cfg := { phase := .time, settled := true }, twin := { started := true, link := .joined, began := true } }, ⟨by decide, by
      decide, by decide, by decide, by decide, by decide⟩⟩,
    ⟨{ cfg := { phase := .time, settled := true, fresh := true }, twin := { started := true, ownLow := true, began := true } },
      ⟨by decide, by decide, by decide, by decide, by decide, by decide, by decide⟩⟩,
    ⟨{ cfg := { phase := .time, settled := true, fresh := false, taskCfgs := [(0, { cfg := 0x40000000#32 })] }, twin := { started := true, ownLow := true, began := true }, xch := { cur := { state := .idle } } },
      0, false, ⟨by decide, by decide, by decide, by decide, by decide, by decide, by decide, by decide, by decide, by decide⟩⟩⟩

/-- Every clause of `Obligations.Commissioning` that has hypotheses has a state and operands that meet them together. -/
theorem witness_Commissioning :
    (∃ (s : State), s.commissionOk = false) ∧
    (∃ (s : State), s.commissionOk = true) ∧
    (∃ (s : State), s.cfg.marker.isSome = true ∧ s.cfg.loaded = true) ∧
    (∃ (s : State), s.cfg.marker = none) ∧
    (∃ (s : State) (t : Nat), s.cfg.armed = some t ∧ t + 10000000000 ≤ s.nowNs) ∧
    (∃ (s : State), (∀ t, s.cfg.armed = some t → s.nowNs < t + 10000000000)) :=
  ⟨⟨{}, by decide⟩,
    ⟨{ cfg := { loaded := true, armed := some 0 } }, by decide⟩,
    ⟨{ cfg := { loaded := true, marker := some (false, 1#64) } }, ⟨by decide, by decide⟩⟩,
    ⟨{ cfg := { marker := none } }, by decide⟩,
    ⟨{ cfg := { armed := some 0 }, time := { sec := 10#64 } }, 0, ⟨by decide, by decide⟩⟩,
    ⟨{}, by decide⟩⟩

/-- Every clause of `Obligations.StationTick` that has hypotheses has a state and operands that meet them together. -/
theorem witness_StationTick :
    (∃ (s : State) (e : TickEnv), s.mod.powered = false) ∧
    (∃ (s : State) (e : TickEnv), s.mod.powered = true ∧ s.cfg.lanes = false) ∧
    (∃ (s : State) (e : TickEnv), s.mod.powered = true ∧ s.cfg.lanes = true ∧ s.time.sec.toNat < 2 ^ 64 - 2 ^ 40 ∧
      s.time.ns.toNat < 1000000000 ∧ s.time.fwdStep < 2 ^ 64 ∧ (s.mod.failed = true ∨ (s.cyc.buf = [] ∧ s.cyc.pends = [] ∧
      s.twin.handover = none ∧ s.cfg.safeOrg = none ∧ s.cfg.asking = none ∧ s.safe.valid = [] ∧ (s.leads = false ∨ s.twin.link =
      .joined) ∧ s.xch.cur.state ≠ .settling ∧ s.recorder.nextDefs = none))) :=
  ⟨⟨{ mod := { powered := false } },
      ({ grid := [], diff := [], vmMv := 40000, psA := 24000, psB := 24000, cold := 200, die := 400, power := 100, sram := 0, store := 0 }
      : TickEnv), by decide⟩,
    ⟨{ mod := { powered := true }, cfg := { lanes := false } },
      ({ grid := [], diff := [], vmMv := 40000, psA := 24000, psB := 24000, cold := 200, die := 400, power := 100, sram := 0, store := 0 }
      : TickEnv), ⟨by decide, by decide⟩⟩,
    ⟨{ mod := { powered := true }, cfg := { lanes := true } },
      ({ grid := [], diff := [], vmMv := 40000, psA := 24000, psB := 24000, cold := 200, die := 400, power := 100, sram := 0, store := 0 }
      : TickEnv), ⟨by decide, by decide, by decide, by decide, by decide, by decide⟩⟩⟩

/-- Every clause of `Obligations.ModuleFaults` that has hypotheses has a state and operands that meet them together. -/
theorem witness_ModuleFaults :
    (∃ (s : State) (i : Instr), i ∈ ([.cycleControllerFault, .timeUnitFault, .retainedStoreUe, .dieOvertemp] : List Instr) ∧
      s.mod.failed = false ∧ (i = .dieOvertemp → s.mod.powered = true ∧ 100000 ≤ s.mod.dieHot)) ∧
    (∃ (s : State) (i : Instr), i ∈ ([.cycleControllerFault, .timeUnitFault, .retainedStoreUe] : List Instr) ∧ s.mod.failed =
      true) ∧
    (∃ (s : State), (s.mod.powered = false ∨ s.mod.dieHot < 100000)) ∧
    (∃ (s : State) (r : List Region), s.leads = false ∧ s.twin.regions = r ∧ Region.sv ∉ r) ∧
    (∃ (s : State), s.leads = true ∧ s.partnerEligible = true ∧ s.twin.yielding = none ∧ s.twin.regions = [] ∧ s.twin.linkUp =
      true) ∧
    (∃ (s : State) (p : Fin 2), s.leads = false ∧ s.twin.regions = []) ∧
    (∃ (s : State) (i : Instr), (i = .twinUnitFault ∨ (i = .keeperLapse ∧ s.twin.ownLow = true)) ∧ s.twin.regions = []) ∧
    (∃ (s : State), s.twin.ownLow = false) ∧
    (∃ (s : State) (b : Bool), (s.twin.began = false ∨ s.mod.failed = true ∨ s.twin.started = true ∨ s.twin.waiting = true)) ∧
    (∃ (s : State) (b : Bool), s.twin.began = true ∧ s.mod.failed = false ∧ s.twin.started = false ∧ s.twin.waiting = false ∧
      s.twin.partner = false) ∧
    (∃ (s : State), s.twin.seated = false) ∧
    (∃ (s : State), s.twin.seated = true) ∧
    (∃ (s : State), s.twin.partner = true ∧ s.twin.started = false) :=
  ⟨⟨{ mod := { failed := false, powered := true, dieHot := 100000 } }, (.dieOvertemp : Instr), ⟨by decide, by decide,
      (fun _ => by decide)⟩⟩,
    ⟨{ mod := { failed := true } }, (.timeUnitFault : Instr), ⟨by decide, by decide⟩⟩,
    ⟨{}, by decide⟩,
    ⟨{ twin := { regions := [] } }, [], ⟨by decide, by decide, by decide⟩⟩,
    ⟨{ twin := { ownLow := true, started := true, link := .joined, heard := some { role := 2, link := 2, elig := 0#32, tickOff := 0, clocks := [], axCheck := 0#32, settled := true, locked := true, engaged := true, precarry := false, safetyId := 0#64, tick := 0, acks := [] }, yielding := none, regions := [], lanes := [(0, { state := .up })], began := true } },
      ⟨by decide, by decide, by decide, by decide, by decide⟩⟩,
    ⟨{ twin := { regions := [] } }, (0 : Fin 2), ⟨by decide, by decide⟩⟩,
    ⟨{ twin := { regions := [], ownLow := true } }, (.keeperLapse : Instr), ⟨by decide, by decide⟩⟩,
    ⟨{ twin := { ownLow := false } }, by decide⟩,
    ⟨{}, false, by decide⟩,
    ⟨{ twin := { began := true, started := false, waiting := false, partner := false }, mod := { failed := false } }, false, ⟨by
      decide, by decide, by decide, by decide, by decide⟩⟩,
    ⟨{ twin := { seated := false } }, by decide⟩,
    ⟨{ twin := { seated := true } }, by decide⟩,
    ⟨{ twin := { partner := true, started := false } }, ⟨by decide, by decide⟩⟩⟩

/-- Every clause of `Obligations.CycleInstants` that has hypotheses has a state and operands that meet them together. -/
theorem witness_CycleInstants :
    (∃ (s : State) (n : Fin 32) (env : T0Env), s.t0Open n s.tickStart.toNat = true ∧ (s.taskCfg n).fallsOn s.tickNo = true ∧
      s.Calm n ∧ (s.task n).run = none ∧ (∀ x, (s.task n).lastTc = some x → x + 30000 ≤ s.tickStart.toNat)) ∧
    (∃ (s : State) (n : Fin 32) (env : T0Env) (r : CycleRun), s.t0Open n s.tickStart.toNat = true ∧ (s.taskCfg n).fallsOn
      s.tickNo = true ∧ s.Calm n ∧ (s.task n).run = some r) ∧
    (∃ (s : State) (n : Fin 32) (e : Fin 24) (f : Bool) (ns : Fin 10000) (env : T0Env) (t0 : Nat), t0 = s.tickStart.toNat +
      (ns.val + 9) / 10 * 10 ∧ s.t0Open n t0 = true ∧ (s.taskCfg n).angle = true ∧ e.val < (s.taskCfg n).firingCount ∧
      (s.taskCfg n).counts f = true ∧ (s.time.clock (s.taskCfg n).clock).locked = true ∧ s.Calm n ∧ (∀ x, (s.task n).lastT0 =
      some x → x + 250000 ≤ t0) ∧ (s.task n).run = none ∧ (∀ x, (s.task n).lastTc = some x → x + 30000 ≤ t0)) ∧
    (∃ (s : State) (n : Fin 32) (e : Fin 24) (f : Bool) (ns : Fin 10000) (env : T0Env) (t0 x : Nat), t0 = s.tickStart.toNat +
      (ns.val + 9) / 10 * 10 ∧ s.t0Open n t0 = true ∧ (s.taskCfg n).angle = true ∧ e.val < (s.taskCfg n).firingCount ∧
      (s.taskCfg n).counts f = true ∧ (s.time.clock (s.taskCfg n).clock).locked = true ∧ (s.task n).lastT0 = some x ∧ t0 < x +
      250000) ∧
    (∃ (s : State) (n : Fin 32) (env : T0Env), s.t0Open n s.tickStart.toNat = true ∧ (s.taskCfg n).angle = true ∧ s.fallbackAt n
      ≤ s.tickNo ∧ s.Calm n ∧ (s.task n).run = none ∧ (∀ x, (s.task n).lastTc = some x → x + 30000 ≤ s.tickStart.toNat)) :=
  ⟨⟨{ mod := { ready := true }, twin := { started := true, began := true }, cfg := { taskCfgs := [(0, { cfg := 0x40000001#32, period := 1#32 })] }, cyc := { tasks := [(0, { run := none, mode := .run })] } },
      (0 : Fin 32), ({ gs := [], sh := [], so := [], fb := [], absent := [] } : T0Env), ⟨by decide, by decide, ⟨by decide, by
      decide, by decide, by decide, by decide, by decide, by decide, by decide, by decide, by decide, by decide, by decide, by
      decide, by decide⟩, by decide, (fun _ h => nomatch h)⟩⟩,
    ⟨{ mod := { ready := true }, twin := { started := true, began := true }, cfg := { taskCfgs := [(0, { cfg := 0x40000001#32, period := 1#32 })] }, cyc := { tasks := [(0, { run := some ({} : CycleRun), mode := .run })] } },
      (0 : Fin 32), ({ gs := [], sh := [], so := [], fb := [], absent := [] } : T0Env), ({} : CycleRun), ⟨by decide, by decide,
      ⟨by decide, by decide, by decide, by decide, by decide, by decide, by decide, by decide, by decide, by decide, by decide,
      by decide, by decide, by decide⟩, by decide⟩⟩,
    ⟨{ mod := { ready := true }, twin := { started := true, began := true }, cfg := { taskCfgs := [(0, { cfg := 0x80000001#32 })] }, cyc := { tasks := [(0, { run := none, mode := .run })] }, time := { clocks := [(0, { state := .locked })] } },
      (0 : Fin 32), (0 : Fin 24), (true : Bool), (0 : Fin 10000), ({ gs := [], sh := [], so := [], fb := [], absent := [] } :
      T0Env), (0 : Nat), ⟨by decide, by decide, by decide, by decide, by decide, by decide, ⟨by decide, by decide, by decide, by
      decide, by decide, by decide, by decide, by decide, by decide, by decide, by decide, by decide, by decide, by decide⟩,
      (fun _ h => nomatch h), by decide, (fun _ h => nomatch h)⟩⟩,
    ⟨{ mod := { ready := true }, twin := { started := true, began := true }, cfg := { taskCfgs := [(0, { cfg := 0x80000001#32 })] }, cyc := { tasks := [(0, { lastT0 := some 0 })] }, time := { clocks := [(0, { state := .locked })], ns := 110000#32 } },
      (0 : Fin 32), (0 : Fin 24), (true : Bool), (0 : Fin 10000), ({ gs := [], sh := [], so := [], fb := [], absent := [] } :
      T0Env), (110000 : Nat), 0, ⟨by decide, by decide, by decide, by decide, by decide, by decide, by decide, by decide⟩⟩,
    ⟨{ mod := { ready := true }, twin := { started := true, began := true }, cfg := { taskCfgs := [(0, { cfg := 0x80000001#32 })] }, cyc := { tasks := [(0, { run := none, lastT0 := some 0, mode := .run })] }, time := { ns := 20000#32 } },
      (0 : Fin 32), ({ gs := [], sh := [], so := [], fb := [], absent := [] } : T0Env), ⟨by decide, by decide, by decide, ⟨by
      decide, by decide, by decide, by decide, by decide, by decide, by decide, by decide, by decide, by decide, by decide, by
      decide, by decide, by decide⟩, by decide, (fun _ h => nomatch h)⟩⟩⟩

/-- Every clause of `Obligations.CycleCourse` that has hypotheses has a state and operands that meet them together. -/
theorem witness_CycleCourse :
    (∃ (s : State) (n : Fin 32) (r : CycleRun), (s.task n).run = some r ∧ r.agreed = false ∧ r.faulted = false ∧ (s.holdsToken =
      true ∨ s.twin.link = .severed ∨ s.heldAlone = true)) ∧
    (∃ (s : State) (n : Fin 32) (r : CycleRun) (l : List InVal), (s.task n).run = some r ∧ r.agreed = false ∧ r.faulted = false
      ∧ s.holdsToken = false ∧ s.twin.link ≠ .severed ∧ s.heldAlone = false ∧ (s.twin.task n).agreedOf r.k = some l) ∧
    (∃ (s : State) (n : Fin 32) (r : CycleRun), (s.task n).run = some r ∧ r.rick = false ∧ r.t0 + Bits.get s.cfg.cur.cyc 8 8 *
      10000 ≤ s.nowNs) ∧
    (∃ (s : State) (n : Fin 32) (r : CycleRun), (s.task n).run = some r ∧ r.tc = none ∧ r.faulted = false ∧ r.late = false ∧ (∀
      d, r.deadline = some d → d ≤ s.nowNs)) ∧
    (∃ (s : State) (n : Fin 32) (r : CycleRun) (tc : Nat), (s.task n).run = some r ∧ r.tc = some tc ∧ r.faulted = false ∧
      r.agreed = true ∧ (s.progTask n).billets.all (fun b => r.retired.contains b.num) = true ∧ s.twin.link = .severed ∧
      s.xch.cur.state = .idle) ∧
    (∃ (s : State), s.mod.powered = false) ∧
    (∃ (s : State), s.mod.powered = true) :=
  ⟨⟨{ cyc := { tasks := [(0, { run := some ({ agreed := false, faulted := false } : CycleRun) })] } }, (0 : Fin 32),
      ({ agreed := false, faulted := false } : CycleRun), ⟨by decide, by decide, by decide, by decide⟩⟩,
    ⟨{ cyc := { tasks := [(0, { run := some ({ agreed := false, faulted := false } : CycleRun) })] }, twin := { link := .joined, tasks := [(0, { agreed := some (0#64, []) })] } },
      (0 : Fin 32), ({ agreed := false, faulted := false } : CycleRun), [], ⟨by decide, by decide, by decide, by decide, by
      decide, by decide, by decide⟩⟩,
    ⟨{ cyc := { tasks := [(0, { run := some ({ rick := false } : CycleRun) })] }, time := { ns := 10000000#32 } }, (0 : Fin 32),
      ({ rick := false } : CycleRun), ⟨by decide, by decide, by decide⟩⟩,
    ⟨{ cyc := { tasks := [(0, { run := some ({ tc := none, faulted := false, late := false } : CycleRun) })] } }, (0 : Fin 32),
      ({ tc := none, faulted := false, late := false } : CycleRun), ⟨by decide, by decide, by decide, by decide, by decide⟩⟩,
    ⟨{ cyc := { tasks := [(0, { run := some ({ tc := some 0, faulted := false, agreed := true } : CycleRun) })] }, twin := { link := .severed }, xch := { cur := { state := .idle } } },
      (0 : Fin 32), ({ tc := some 0, faulted := false, agreed := true } : CycleRun), 0, ⟨by decide, by decide, by decide, by
      decide, by decide, by decide, by decide⟩⟩,
    ⟨{ mod := { powered := false } }, by decide⟩,
    ⟨{ mod := { powered := true } }, by decide⟩⟩

/-- Every clause of `Obligations.ProgramModes` that has hypotheses has a state and operands that meet them together. -/
theorem witness_ProgramModes :
    (∃ (s : State) (o : Origin), s.cyc.buf = [(.stop, o)] ∧ s.configuredTasks ≠ [] ∧ s.cyc.target = .run ∧ s.twin.link =
      .severed ∧ s.xch.cur.state = .idle ∧ o ≠ .partner) ∧
    (∃ (s : State) (o p : Origin), s.cyc.buf = [(.run, o), (.stop, p)] ∧ s.configuredTasks ≠ [] ∧ s.cyc.target = .stop ∧
      s.cyc.pends = [] ∧ o ≠ .partner ∧ p ≠ .partner) ∧
    (∃ (s : State) (o : Origin) (n : Nat), s.cyc.target = .hold ∧ s.exchangeArmed = false ∧ (s.taskCfg n).configured = true ∧
      s.atBreakpoint n = false) ∧
    (∃ (s : State) (o : Origin) (n : Nat), (s.cyc.target ≠ .hold ∨ s.exchangeArmed = true)) ∧
    (∃ (s : State) (o : Origin) (n b off : Nat), s.cyc.target ≠ .stop ∧ s.holdAllowed = true ∧ s.exchangeArmed = false ∧
      (s.taskCfg n).configured = true ∧ (n, b, off) ∉ s.cyc.bps) ∧
    (∃ (s : State) (o : Origin) (n b off : Nat), s.cyc.target ≠ .stop ∧ s.holdAllowed = false) ∧
    (∃ (s : State) (o : Origin) (n : Nat), s.actsAsLead = true ∧ n < 32 ∧ (s.task n).pol ≠ .active ∧ (s.task n).restart = none ∧
      s.leads = false) ∧
    (∃ (s : State) (o : Origin) (n : Nat), s.actsAsLead = false) ∧
    (∃ (s : State) (o : Origin) (n b q l : Nat) (st : Bool), s.actsAsLead = true ∧ n < 32 ∧ limitsOk
      { budget := b, quota := q, ovrLimit := l, stop := st } = true ∧ s.leads = false) :=
  ⟨⟨{ cyc := { buf := [(.stop, .self)], target := .run }, twin := { link := .severed }, xch := { cur := { state := .idle } }, cfg := { taskCfgs := [(0, { cfg := 0x40000001#32 })] } },
      .self, ⟨by decide, by decide, by decide, by decide, by decide, by decide⟩⟩,
    ⟨{ cyc := { buf := [(.run, .self), (.stop, .self)], target := .stop, pends := [] }, cfg := { taskCfgs := [(0, { cfg := 0x40000001#32 })] } },
      .self, .self, ⟨by decide, by decide, by decide, by decide, by decide, by decide⟩⟩,
    ⟨{ cyc := { target := .hold }, cfg := { taskCfgs := [(0, { cfg := 0x40000000#32 })] } }, .self, 0, ⟨by decide, by decide, by
      decide, by decide⟩⟩,
    ⟨{}, .self, 0, by decide⟩,
    ⟨{ cfg := { taskCfgs := [(0, { cfg := 0x40000000#32 })] }, twin := { began := true, started := true, ownLow := true }, cyc := { target := .run } },
      .self, 0, 0, 0, ⟨by decide, by decide, by decide, by decide, by decide⟩⟩,
    ⟨{ twin := { began := true, started := true, ownLow := true, link := .joined }, cyc := { target := .run } }, .self, 0, 0, 0,
      ⟨by decide, by decide⟩⟩,
    ⟨{ twin := { started := true, ownLow := true, began := true }, cyc := { tasks := [(0, { restart := none, pol := .stopped })] } },
      .self, 0, ⟨by decide, by decide, by decide, by decide, by decide⟩⟩,
    ⟨{}, .self, 0, by decide⟩,
    ⟨{ twin := { started := true, ownLow := true, began := true } }, .self, 0, (160000000 : Nat), (1 : Nat), (255 : Nat), false,
      ⟨by decide, by decide, by decide, by decide⟩⟩⟩

/-- Every clause of `Obligations.Billets` that has hypotheses has a state and operands that meet them together. -/
theorem witness_Billets :
    (∃ (s : State) (e : Fin 16) (b : BRef) (l : List BRef), s.idleEngine e = true ∧ (s.fab.engine e).deque = b :: l ∧
      s.quotaAdmits b.task = true ∧ s.fab.queue = [] ∧ b.rerun = false) ∧
    (∃ (s : State) (e : Fin 16) (b : BRef) (l : List BRef), s.idleEngine e = true ∧ (s.fab.engine e).deque = b :: l ∧
      s.quotaAdmits b.task = true ∧ s.fab.queue = [] ∧ b.rerun = true) ∧
    (∃ (s : State) (e d : Fin 16) (b : BRef) (l : List Nat), s.idleEngine e = true ∧ (s.fab.engine e).deque = [] ∧ d ≠ e ∧
      s.fab.candidates e = d.val :: l ∧ (s.fab.engine d).deque.getLast? = some b ∧ s.quotaAdmits b.task = true ∧ s.fab.queue =
      [] ∧ b.rerun = false) ∧
    (∃ (s : State) (e : Fin 16) (r : Running) (b : Billet), (s.fab.engine e).run = some r ∧ s.billet r.ref = some b ∧ r.loaded =
      false) ∧
    (∃ (s : State) (n : Nat) (b : Billet) (r : CycleRun) (e : MemSpace × Span), (s.task n).run = some r ∧ e ∈ b.reads) ∧
    (∃ (sg : Bool) (n : Nat) (a b : DWord), regInt sg n b = 0) ∧
    (∃ (n : Nat) (a b : DWord), n ≤ 8) ∧
    (∃ (n : Nat) (a b : DWord), n ≤ 8) ∧
    (∃ (b : Billet) (m : LocalMem) (l : List BOp) (pc : Nat) (x : BRun) (a n i e : Nat), b.outside a n = some e) ∧
    (∃ (b : Billet) (m : LocalMem) (l : List BOp) (pc : Nat) (x : BRun) (d a n e : Nat) (sp : MemSpace), x.read m sp a n =
      .error e) ∧
    (∃ (b : Billet) (m : LocalMem) (l : List BOp) (pc : Nat) (x : BRun) (d a i : Nat), b.outside a 1 = none) :=
  ⟨⟨{ fab := { engines := [(0, { deque := [({ ({ task := 0, num := 0 } : BRef) with rerun := false } : BRef)] })], queue := [] } },
      (0 : Fin 16), ({ ({ task := 0, num := 0 } : BRef) with rerun := false } : BRef), [], ⟨by decide, by decide, by decide, by
      decide, by decide⟩⟩,
    ⟨{ fab := { engines := [(0, { deque := [({ ({ task := 0, num := 0 } : BRef) with rerun := true } : BRef)] })], queue := [] } },
      (0 : Fin 16), ({ ({ task := 0, num := 0 } : BRef) with rerun := true } : BRef), [], ⟨by decide, by decide, by decide, by
      decide, by decide⟩⟩,
    ⟨{ fab := { engines := [(0, { deque := [] }), (1, { deque := [{ task := 0, num := 0 }] })], queue := [] } }, (0 : Fin 16),
      (1 : Fin 16), ({ ({ task := 0, num := 0 } : BRef) with rerun := false } : BRef), ((List.range 15).drop 1 |>.map (· + 1) :
      List Nat), ⟨by decide, by decide, by decide, by decide, by decide, by decide, by decide, by decide⟩⟩,
    ⟨{ fab := { engines := [(0, { run := some ({ ref := { task := 0, num := 0 } } : Running) })] }, cfg := { prog := some { tasks := [(0, { billets := [{}] })] } } },
      (0 : Fin 16), ({ ref := { task := 0, num := 0 } } : Running), ({} : Billet), ⟨by decide, by decide, by decide⟩⟩,
    ⟨{ cyc := { tasks := [(0, { run := some ({} : CycleRun) })] } }, 0, ({ reads := [(.const, {})] } : Billet), ({} : CycleRun),
      ((.const, {}) : MemSpace × Span), ⟨by decide, by decide⟩⟩,
    ⟨false, 0, 0#64, 0#64, by decide⟩,
    ⟨0, 0#64, 0#64, by decide⟩,
    ⟨0, 0#64, 0#64, by decide⟩,
    ⟨({} : Billet), ({} : LocalMem), [], 0, ({} : BRun), (7 : Nat), (1 : Nat), 0, (7 : Nat), by decide⟩,
    ⟨({} : Billet), ({} : LocalMem), [], 0, ({} : BRun), 0, 0, (1 : Nat), 0, (.input : MemSpace), by decide⟩,
    ⟨({ writes := [{ off := 0, len := 1 }] } : Billet), ({} : LocalMem), [], 0, ({} : BRun), 0, 0, 0, by decide⟩⟩

/-- Every clause of `Obligations.BilletEnds` that has hypotheses has a state and operands that meet them together. -/
theorem witness_BilletEnds :
    (∃ (s : State) (e : Fin 16) (burst : List (Nat × Byte)) (us : Nat) (ns : Fin 10000) (g : Running) (b : Billet) (r :
      CycleRun), (s.fab.engine e).run = some g ∧ s.billet g.ref = some b ∧ g.loaded = true ∧ g.held = false ∧ b.run g.mem =
      .done burst ∧ (s.task g.ref.task).run = some r ∧ r.faulted = false ∧ (s.progTask g.ref.task).billets.all (fun x =>
      (r.retired ++ [b.num]).contains x.num) = false) ∧
    (∃ (s : State) (e : Fin 16) (burst : List (Nat × Byte)) (us : Nat) (ns : Fin 10000) (g : Running) (b : Billet) (r :
      CycleRun), (s.fab.engine e).run = some g ∧ s.billet g.ref = some b ∧ g.loaded = true ∧ g.held = false ∧ b.run g.mem =
      .done burst ∧ (s.task g.ref.task).run = some r ∧ r.faulted = false ∧ (s.progTask g.ref.task).billets.all (fun x =>
      (r.retired ++ [b.num]).contains x.num) = true ∧ r.late = false ∧ (∀ d, r.deadline = some d → s.tickStart.toNat + ns ≤ d) ∧
      (r.budget = 0 ∨ r.use + us ≤ r.budget) ∧ s.xch.cur.state = .idle) ∧
    (∃ (s : State) (e : Fin 16) (ok : Bool) (us : Nat) (ns : Fin 10000) (g : Running) (b : Billet) (kind : Nat) (addr : Word),
      (s.fab.engine e).run = some g ∧ s.billet g.ref = some b ∧ b.run g.mem = .fault kind addr) ∧
    (∃ (s : State) (e : Fin 16) (us : Nat) (g : Running) (b : Billet) (burst : List (Nat × Byte)), (s.fab.engine e).run = some g
      ∧ s.billet g.ref = some b ∧ b.run g.mem = .done burst) ∧
    (∃ (s : State) (e : Fin 16) (kind : Nat) (addr : Word) (us : Nat) (g : Running) (b : Billet) (r : CycleRun), (s.fab.engine
      e).run = some g ∧ s.billet g.ref = some b ∧ b.run g.mem = .fault kind addr ∧ g.loaded = true ∧ g.held = false ∧ (s.task
      g.ref.task).run = some r ∧ s.follows = false ∧ s.leads = false ∧ s.xch.cur.state = .idle) ∧
    (∃ (s : State) (e : Fin 16) (addr : Word) (us : Nat) (g : Running) (b : Billet) (r : CycleRun), (s.fab.engine e).run = some
      g ∧ s.billet g.ref = some b ∧ g.held = false ∧ 4 * b.wcet ≤ us ∧ (s.task g.ref.task).run = some r ∧ s.follows = false ∧
      s.leads = false ∧ s.xch.cur.state = .idle) :=
  ⟨⟨{ fab := { engines := [(0, { run := some ({ ref := { task := 0, num := 0 }, loaded := true } : Running) })] }, cfg := { prog := some { tasks := [(0, { billets := [{}, { num := 1 }] })] } }, cyc := { tasks := [(0, { run := some ({ faulted := false } : CycleRun) })] } },
      (0 : Fin 16), [], 0, (0 : Fin 10000), ({ ref := { task := 0, num := 0 }, loaded := true } : Running), ({} : Billet),
      ({ faulted := false } : CycleRun), ⟨by decide, by decide, by decide, by decide, by decide, by decide, by decide, by
      decide⟩⟩,
    ⟨{ fab := { engines := [(0, { run := some ({ ref := { task := 0, num := 0 }, loaded := true } : Running) })] }, xch := { cur := { state := .idle } }, cfg := { prog := some { tasks := [(0, { billets := [{}] })] } }, cyc := { tasks := [(0, { run := some ({ budget := 20, deadline := some 0 } : CycleRun) })] } },
      (0 : Fin 16), [], (20 : Nat), (0 : Fin 10000), ({ ref := { task := 0, num := 0 }, loaded := true } : Running), ({} :
      Billet), ({ budget := 20, deadline := some 0 } : CycleRun), ⟨by decide, by decide, by decide, by decide, by decide, by
      decide, by decide, by decide, by decide, (fun _ h => Option.some.inj h ▸ by decide), by decide, by decide⟩⟩,
    ⟨{ fab := { engines := [(0, { run := some ({ ref := { task := 0, num := 0 }, loaded := true, mem := { code := [.bad] } } : Running) })] }, cfg := { prog := some { tasks := [(0, { billets := [{}] })] } } },
      (0 : Fin 16), false, 0, (0 : Fin 10000), ({ ref := { task := 0, num := 0 }, loaded := true, mem := { code := [.bad] } } :
      Running), ({} : Billet), (3 : Nat), 0#32, ⟨by decide, by decide, by decide⟩⟩,
    ⟨{ fab := { engines := [(0, { run := some ({ ref := { task := 0, num := 0 } } : Running) })] }, cfg := { prog := some { tasks := [(0, { billets := [{}] })] } } },
      (0 : Fin 16), 0, ({ ref := { task := 0, num := 0 } } : Running), ({} : Billet), [], ⟨by decide, by decide, by decide⟩⟩,
    ⟨{ fab := { engines := [(0, { run := some ({ ref := { task := 0, num := 0 }, loaded := true, mem := { code := [.bad] } } : Running) })] }, xch := { cur := { state := .idle } }, cfg := { prog := some { tasks := [(0, { billets := [{}] })] } }, cyc := { tasks := [(0, { run := some ({} : CycleRun) })] } },
      (0 : Fin 16), (3 : Nat), 0#32, 0, ({ ref := { task := 0, num := 0 }, loaded := true, mem := { code := [.bad] } } :
      Running), ({} : Billet), ({} : CycleRun), ⟨by decide, by decide, by decide, by decide, by decide, by decide, by decide, by
      decide, by decide⟩⟩,
    ⟨{ fab := { engines := [(0, { run := some ({ ref := { task := 0, num := 0 }, loaded := true } : Running) })] }, xch := { cur := { state := .idle } }, cfg := { prog := some { tasks := [(0, { billets := [{}] })] } }, cyc := { tasks := [(0, { run := some ({} : CycleRun) })] } },
      (0 : Fin 16), 0#32, (0 : Nat), ({ ref := { task := 0, num := 0 }, loaded := true } : Running), ({} : Billet), ({} :
      CycleRun), ⟨by decide, by decide, by decide, by decide, by decide, by decide, by decide, by decide⟩⟩⟩

/-- Every clause of `Obligations.Engines` that has hypotheses has a state and operands that meet them together. -/
theorem witness_Engines :
    (∃ (s : State) (e : Fin 16) (us : Nat), ((s.fab.engine e).state = .available ∨ (s.fab.engine e).state = .draining ∨
      (s.fab.engine e).state = .drained)) ∧
    (∃ (s : State) (e : Fin 16), (s.fab.engine e).state = .selfTest ∧ (s.fab.engine e).fw = .active ∧ ((s.fab.engine e).recent
      s.time.sec.toNat).length < 3 ∧ s.fab.fwCmd = none) ∧
    (∃ (s : State) (e : Fin 16), (s.fab.engine e).state = .selfTest ∧ (s.fab.engine e).fw = .active ∧ s.fab.fwCmd = none) ∧
    (∃ (s : State) (e : Fin 16) (p : Bool), (s.fab.engine e).state = .selfTest ∧ (s.fab.engine e).fw = .active ∧ 3 ≤
      ((s.fab.engine e).recent s.time.sec.toNat).length ∧ s.fab.fwCmd = none) ∧
    (∃ (s : State) (e : Fin 16) (o : Origin), (s.fab.engine e).state = .selfTest ∧ (s.fab.engine e).fw = .trying ∧ s.fab.fwCmd =
      some (e.val, o)) ∧
    (∃ (s : State) (e : Fin 16) (o : Origin), (s.fab.engine e).state = .drained ∧ s.fab.fwCmd = some (e.val, o)) ∧
    (∃ (s : State) (line us : Nat) (e : Fin 16) (g : Running) (r : CycleRun), (s.fab.engine e).run = some g ∧ (s.task
      g.ref.task).run = some r) ∧
    (∃ (s : State) (line e : Nat) (b : BRef) (r : CycleRun) (l : List (Nat × List (Nat × BRef))), s.fab.reloads = (line, [(e,
      b)]) :: l ∧ (s.task b.task).run = some r ∧ r.faulted = false) ∧
    (∃ (s : State) (e : Fin 16) (off : Nat) (g : Running), (s.fab.engine e).run = some g ∧ g.loaded = true ∧ s.cyc.bpHit = none
      ∧ s.cyc.target = .run ∧ (s.task g.ref.task).mode = .run ∧ s.cyc.bps.contains (g.ref.task, g.ref.num, off) = true ∧ s.role
      ≠ .shadow ∧ s.leads = false) :=
  ⟨⟨{}, (0 : Fin 16), 0, by decide⟩,
    ⟨{ fab := { engines := [(0, { state := .selfTest, fw := .active })], fwCmd := none } }, (0 : Fin 16), ⟨by decide, by decide,
      by decide, by decide⟩⟩,
    ⟨{ fab := { engines := [(0, { state := .selfTest, fw := .active })], fwCmd := none } }, (0 : Fin 16), ⟨by decide, by decide,
      by decide⟩⟩,
    ⟨{ fab := { engines := [(0, { state := .selfTest, fw := .active, fences := [0, 0, 0] })], fwCmd := none } }, (0 : Fin 16),
      false, ⟨by decide, by decide, by decide, by decide⟩⟩,
    ⟨{ fab := { engines := [(0, { state := .selfTest, fw := .trying })], fwCmd := some ((0 : Fin 16).val, .self) } }, (0 : Fin
      16), .self, ⟨by decide, by decide, by decide⟩⟩,
    ⟨{ fab := { engines := [(0, { state := .drained })], fwCmd := some ((0 : Fin 16).val, .self) } }, (0 : Fin 16), .self, ⟨by
      decide, by decide⟩⟩,
    ⟨{ fab := { engines := [(0, { run := some ({ ref := { task := 0, num := 0 }, loaded := true } : Running) })] }, cyc := { tasks := [(0, { run := some ({} : CycleRun) })] } },
      0, 0, (0 : Fin 16), ({ ref := { task := 0, num := 0 }, loaded := true } : Running), ({} : CycleRun), ⟨by decide, by
      decide⟩⟩,
    ⟨{ fab := { reloads := (0, [(0, ({ task := 0, num := 0 } : BRef))]) :: [] }, cyc := { tasks := [(({ task := 0, num := 0 } : BRef).task, { run := some ({ faulted := false } : CycleRun) })] }, cfg := { prog := some { tasks := [(0, { billets := [{}] })] } } },
      0, 0, ({ task := 0, num := 0 } : BRef), ({ faulted := false } : CycleRun), [], ⟨by decide, by decide, by decide⟩⟩,
    ⟨{ fab := { engines := [(0, { run := some ({ ref := { task := 0, num := 0 }, loaded := true } : Running) })] }, cyc := { bpHit := none, target := .run, bps := [(0, 0, 0)], tasks := [(0, { mode := .run })] } },
      (0 : Fin 16), 0, ({ ref := { task := 0, num := 0 }, loaded := true } : Running), ⟨by decide, by decide, by decide, by
      decide, by decide, by decide, by decide, by decide⟩⟩⟩

/-- Every clause of `Obligations.TwinLanes` that has hypotheses has a state and operands that meet them together. -/
theorem witness_TwinLanes :
    (∃ (s : State) (l : Fin 2), (s.twin.lane l).state = .up) ∧
    (∃ (s : State) (l : Fin 2), (s.twin.lane l).state = .down ∧ (s.twin.lane l).training = false ∧ s.lanesRun = true ∧
      s.twin.seated = true ∧ s.twin.partner = true ∧ (s.twin.lane l).next ≤ s.nowNs) ∧
    (∃ (s : State) (l : Fin 2), (s.twin.lane l).training = true ∧ (s.twin.lane l).state ≠ .up ∧ (s.twin.lane l).next ≤ s.nowNs +
      8000000 ∧ (s.twin.lane l).errors ≤ 16383) ∧
    (∃ (s : State) (l : Fin 2), (s.twin.lane l).training = true ∧ (s.twin.lane l).state = .down) ∧
    (∃ (s : State) (l : Fin 2) (p : PeerId) (k : Nat) (ra rb : BitVec 128), (s.twin.lane l).state = .handshake ∧
      s.cfg.keyStore.pairKey = some k ∧ p.pairKey = some k ∧ (s.twin.linkUp = true ∨ s.twin.started = false)) ∧
    (∃ (s : State) (l : Fin 2) (ok : Bool) (p : PeerId) (ra rb : BitVec 128), (s.twin.lane l).state = .handshake ∧ (ok = false ∨
      p.pairKey = none ∨ s.cfg.keyStore.pairKey ≠ p.pairKey) ∧ (s.twin.lane l).errors ≤ 16383) ∧
    (∃ (s : State) (l : Fin 2), ((s.twin.lane l).fails.filter (fun t => decide (s.nowNs < t + 1000000))).length < 7) ∧
    (∃ (s : State) (l : Fin 2), 7 ≤ ((s.twin.lane l).fails.filter (fun t => decide (s.nowNs < t + 1000000))).length ∧
      (s.twin.lane l).state = .up) ∧
    (∃ (s : State), s.mod.failed = false ∧ s.twin.regions = [] ∧ s.twin.linkUp = true) ∧
    (∃ (t : TwinBlk) (f g : OlviaHdr), (t.lane 0).state = .up ∧ (t.lane 1).state = .up ∧ t.fresh f = true ∧ g.seq = f.seq ∧
      g.lane ≠ f.lane) ∧
    (∃ (s : State) (f : OlviaHdr) (h : Heartbeat), s.mod.failed = false ∧ s.twin.fresh f = false) ∧
    (∃ (s : State) (f : OlviaHdr) (h : Heartbeat), s.twin.fresh f = true ∧ s.mod.failed = false ∧ s.leads = true ∧ s.twin.link =
      .joined ∧ h.link = 2) ∧
    (∃ (s : State) (f : OlviaHdr) (h : Heartbeat), s.twin.fresh f = true ∧ s.mod.failed = false ∧ s.follows = true ∧ s.twin.link
      = .joined ∧ h.link = 2 ∧ s.time.disc ≠ .follow ∧ s.twin.axDiff = false ∧ h.axCheck ≠ s.ax.heartbeatCheck) :=
  ⟨⟨{ twin := { lanes := [(0, { state := .up })] } }, (0 : Fin 2), by decide⟩,
    ⟨{ twin := { lanes := [(0, { state := .down, training := false })], seated := true, partner := true }, cfg := { phase := .ready } },
      (0 : Fin 2), ⟨by decide, by decide, by decide, by decide, by decide, by decide⟩⟩,
    ⟨{ twin := { lanes := [(0, { training := true })] } }, (0 : Fin 2), ⟨by decide, by decide, by decide, by decide⟩⟩,
    ⟨{ twin := { lanes := [(0, { training := true, state := .down })] } }, (0 : Fin 2), ⟨by decide, by decide⟩⟩,
    ⟨{ twin := { lanes := [(0, { state := .handshake })] }, cfg := { keys0 := some { pairKey := some 5 } } }, (0 : Fin 2),
      ({ pairKey := some 5 } : PeerId), (5 : Nat), 0#128, 0#128, ⟨by decide, by decide, by decide, by decide⟩⟩,
    ⟨{ twin := { lanes := [(0, { state := .handshake })] } }, (0 : Fin 2), false, ({} : PeerId), 0#128, 0#128, ⟨by decide, by
      decide, by decide⟩⟩,
    ⟨{}, (0 : Fin 2), by decide⟩,
    ⟨{ twin := { lanes := [(0, { state := .up, fails := [0, 0, 0, 0, 0, 0, 0] })] } }, (0 : Fin 2), ⟨by decide, by decide⟩⟩,
    ⟨{ mod := { failed := false }, twin := { regions := [], lanes := [(0, { state := .up })] } }, ⟨by decide, by decide, by
      decide⟩⟩,
    ⟨({ lanes := [(0, { state := .up }), (1, { state := .up })] } : TwinBlk), ({ lane := 0, seq := 1#32 } : OlviaHdr),
      ({ lane := 1, seq := 1#32 } : OlviaHdr), ⟨by decide, by decide, by decide, by decide, by decide⟩⟩,
    ⟨{ mod := { failed := false } }, ({ lane := 0, seq := 1#32 } : OlviaHdr),
      ({ role := 2, link := 2, elig := 0#32, tickOff := 0, clocks := [], axCheck := 0#32, settled := true, locked := true, engaged := true, precarry := false, safetyId := 0#64, tick := 0, acks := [] }
      : Heartbeat), ⟨by decide, by decide⟩⟩,
    ⟨{ twin := { lanes := [(0, { state := .up })], ownLow := true, started := true, link := .joined, began := true }, mod := { failed := false } },
      ({ lane := 0, seq := 1#32 } : OlviaHdr),
      ({ role := 2, link := 2, elig := 0#32, tickOff := 0, clocks := [], axCheck := 0#32, settled := true, locked := true, engaged := true, precarry := false, safetyId := 0#64, tick := 0, acks := [] }
      : Heartbeat), ⟨by decide, by decide, by decide, by decide, by decide⟩⟩,
    ⟨{ twin := { lanes := [(0, { state := .up })], started := true, link := .joined, axDiff := false, began := true }, mod := { failed := false }, ax := { checks := [0#32, 0#32, 0#32, 0#32] } },
      ({ lane := 0, seq := 1#32 } : OlviaHdr),
      ({ role := 2, link := 2, elig := 0#32, tickOff := 0, clocks := [], axCheck := 1#32, settled := true, locked := true, engaged := true, precarry := false, safetyId := 0#64, tick := 0, acks := [] }
      : Heartbeat), ⟨by decide, by decide, by decide, by decide, by decide, by decide, by decide, by decide⟩⟩⟩

/-- Every clause of `Obligations.TwinRoles` that has hypotheses has a state and operands that meet them together. -/
theorem witness_TwinRoles :
    (∃ (s : State), (s.twin.lost = true ∨ (s.twin.heard = none ∧ s.twin.link = .severed))) ∧
    (∃ (s : State), s.twin.lost = false ∧ (s.twin.heard.isSome = true ∨ s.twin.link ≠ .severed) ∧ s.holdsToken = true ∧
      s.twin.yielding = none) ∧
    (∃ (s : State), s.twin.lost = false ∧ (s.twin.heard.isSome = true ∨ s.twin.link ≠ .severed) ∧ s.twin.started = true ∧
      s.twin.ownLow = false ∧ s.twin.eligHeard = true ∧ s.twin.yielding = none ∧ s.twin.partnerLow = false ∧ s.twin.high1us =
      true) ∧
    (∃ (s : State), s.twin.lost = false ∧ (s.twin.heard.isSome = true ∨ s.twin.link ≠ .severed) ∧ s.twin.started = true ∧
      s.twin.ownLow = false ∧ s.twin.eligHeard = false ∧ s.twin.yielding = none ∧ s.twin.partnerLow = false ∧ s.twin.high1us =
      true) ∧
    (∃ (s : State), s.twin.lost = false ∧ (s.twin.heard.isSome = true ∨ s.twin.link ≠ .severed) ∧ s.twin.started = true ∧
      s.twin.yielding = none ∧ s.twin.partner = true ∧ s.twin.partnerLow = true) ∧
    (∃ (s : State), s.twin.lost = false ∧ (s.twin.heard.isSome = true ∨ s.twin.link ≠ .severed) ∧ s.twin.yielding.isSome = true
      ∧ s.twin.partnerLow = false) ∧
    (∃ (s : State), s.twin.openElig = none ∧ s.twin.isolated = false) ∧
    (∃ (s : State), s.twin.yielding = none) ∧
    (∃ (s : State) (r : Region), s.twin.yielding = some { region := some r, origin := .self } ∧ s.cyc.buf = [] ∧ s.cfg.asking =
      none) ∧
    (∃ (s : State), s.twin.ownLow = true ∧ s.twin.partnerLow = true ∧ s.twin.slotB = false) ∧
    (∃ (s : State), s.twin.ownLow = true ∧ s.twin.partnerLow = true ∧ s.twin.slotB = true ∧ s.twin.link ≠ .severed) ∧
    (∃ (s : State) (t c : Nat), s.twin.split = some (t, c) ∧ s.refTask.isSome = true ∧ 2 ≤ c) ∧
    (∃ (s : State), s.twin.waiting = true ∧ s.twin.started = false ∧ s.mod.failed = false ∧ s.twin.partnerLow = false ∧
      s.twin.high1us = true ∧ s.mod.ready = false ∧ s.twin.linkUp = false ∧ s.twin.seated = true ∧ s.twin.regions.contains
      Region.twin = false ∧ s.twin.waitAt + (if s.twin.slotB then 100 else 10) ≤ s.mod.uptime) ∧
    (∃ (s : State), s.twin.waiting = true ∧ s.twin.started = false ∧ s.mod.failed = false ∧ s.twin.partnerLow = true ∧
      s.twin.linkUp = false ∧ s.twin.seated = true ∧ s.twin.waitAt + (if s.twin.slotB then 100 else 10) ≤ s.mod.uptime) ∧
    (∃ (s : State), (s.twin.seated = false ∨ s.mod.uptime < s.twin.waitAt + (if s.twin.slotB then 100 else 10))) ∧
    (∃ (s : State) (f : OlviaHdr) (r : Region), s.twin.fresh f = true ∧ s.follows = true ∧ s.eligible = true ∧ s.twin.ownLow =
      false) ∧
    (∃ (s : State) (r : Region), s.twin.yielding = some { region := some r, origin := .self } ∧ s.twin.partnerLow = false ∧
      s.twin.high1us = true ∧ s.partnerShadow = true) ∧
    (∃ (s : State) (o : Origin), s.handoverReason = 0 ∧ s.twin.handover = none ∧ s.twin.yielding = none) ∧
    (∃ (s : State) (o : Origin), s.handoverReason = 0 ∧ (s.twin.handover.isSome = true ∨ s.twin.yielding.isSome = true)) ∧
    (∃ (s : State) (o : Origin), s.handoverReason ≠ 0) :=
  ⟨⟨{}, by decide⟩,
    ⟨{ twin := { lost := false, ownLow := true, yielding := none, link := .joined } }, ⟨by decide, by decide, by decide, by
      decide⟩⟩,
    ⟨{ twin := { lost := false, started := true, ownLow := false, eligHeard := true, yielding := none, partnerLow := false, high1us := true, began := true, link := .joined } },
      ⟨by decide, by decide, by decide, by decide, by decide, by decide, by decide, by decide⟩⟩,
    ⟨{ twin := { lost := false, started := true, ownLow := false, eligHeard := false, yielding := none, partnerLow := false, high1us := true, began := true, link := .joined } },
      ⟨by decide, by decide, by decide, by decide, by decide, by decide, by decide, by decide⟩⟩,
    ⟨{ twin := { lost := false, started := true, yielding := none, partner := true, partnerLow := true, began := true, link := .joined } },
      ⟨by decide, by decide, by decide, by decide, by decide, by decide⟩⟩,
    ⟨{ twin := { lost := false, partnerLow := false, link := .joined, yielding := some {} } }, ⟨by decide, by decide, by decide,
      by decide⟩⟩,
    ⟨{ twin := { openElig := none, isolated := false } }, ⟨by decide, by decide⟩⟩,
    ⟨{ twin := { yielding := none } }, by decide⟩,
    ⟨{ twin := { yielding := some { region := some (.net : Region), origin := .self } }, cyc := { buf := [] }, cfg := { asking := none } },
      (.net : Region), ⟨by decide, by decide, by decide⟩⟩,
    ⟨{ twin := { ownLow := true, partnerLow := true, slotB := false } }, ⟨by decide, by decide, by decide⟩⟩,
    ⟨{ twin := { ownLow := true, partnerLow := true, slotB := true, link := .joined } }, ⟨by decide, by decide, by decide, by
      decide⟩⟩,
    ⟨{ twin := { split := some (0, (2 : Nat)) }, cfg := { taskCfgs := [(0, { cfg := 0x40000001#32 })] } }, 0, (2 : Nat), ⟨by
      decide, by decide, by decide⟩⟩,
    ⟨{ twin := { waiting := true, started := false, partnerLow := false, high1us := true, seated := true }, mod := { failed := false, ready := false, uptime := 10 } },
      ⟨by decide, by decide, by decide, by decide, by decide, by decide, by decide, by decide, by decide, by decide⟩⟩,
    ⟨{ twin := { waiting := true, started := false, partnerLow := true, seated := true }, mod := { failed := false, uptime := 10 } },
      ⟨by decide, by decide, by decide, by decide, by decide, by decide, by decide⟩⟩,
    ⟨{}, by decide⟩,
    ⟨{ twin := { lanes := [(0, { state := .up })], started := true, link := .joined, ownLow := false, began := true } },
      ({ lane := 0, seq := 1#32 } : OlviaHdr), (.net : Region), ⟨by decide, by decide, by decide, by decide⟩⟩,
    ⟨{ twin := { yielding := some { region := some (.net : Region), origin := .self }, partnerLow := false, high1us := true, heard := some { role := 2, link := 2, elig := 0#32, tickOff := 0, clocks := [], axCheck := 0#32, settled := true, locked := true, engaged := true, precarry := false, safetyId := 0#64, tick := 0, acks := [] } } },
      (.net : Region), ⟨by decide, by decide, by decide, by decide⟩⟩,
    ⟨{ twin := { handover := none, yielding := none, began := true, started := true, ownLow := true, link := .joined, heard := some { role := 2, link := 2, elig := 0#32, tickOff := 0, clocks := [], axCheck := 0#32, settled := true, locked := true, engaged := true, precarry := false, safetyId := 0#64, tick := 0, acks := [] } } },
      .self, ⟨by decide, by decide, by decide⟩⟩,
    ⟨{ twin := { began := true, started := true, ownLow := true, link := .joined, handover := some .self, heard := some { role := 2, link := 2, elig := 0#32, tickOff := 0, clocks := [], axCheck := 0#32, settled := true, locked := true, engaged := true, precarry := false, safetyId := 0#64, tick := 0, acks := [] }, partner := true } },
      .self, ⟨by decide, by decide⟩⟩,
    ⟨{}, .self, by decide⟩⟩

/-- Every clause of `Obligations.TwinCycle` that has hypotheses has a state and operands that meet them together. -/
theorem witness_TwinCycle :
    (∃ (s : State) (f : OlviaHdr) (n : Fin 32) (k : DWord) (v : List InVal), s.twin.fresh f = true) ∧
    (∃ (s : State) (f : OlviaHdr) (n : Fin 32) (k : DWord) (v : List InVal), s.twin.fresh f = true ∧ s.follows = true) ∧
    (∃ (s : State) (f : OlviaHdr) (n : Fin 32) (k : DWord) (v : List InVal) (m : HashMsg) (c : Fin 6) (ta : Nat), s.twin.fresh f
      = false) ∧
    (∃ (s : State) (n : Fin 32) (r : CycleRun), (s.task n).run = some r ∧ s.follows = true ∧ s.twin.link = .joined ∧ r.agreed =
      false ∧ (s.twin.task n).samplesOf r.k = none ∧ (s.twin.task n).agreedOf r.k = none ∧ r.t0 + 40000 ≤ s.nowNs) ∧
    (∃ (s : State) (f : OlviaHdr) (n : Fin 32) (k h a : DWord), s.twin.fresh f = true ∧ s.leads = true ∧ s.twin.link = .joined ∧
      (s.twin.task n).own = some { k := k, hash := h, audit := a, diff := false } ∧ (s.twin.task n).fault = none ∧ (s.twin.task
      n).ownFault = none ∧ (s.twin.task n).verdict = none) ∧
    (∃ (s : State) (f : OlviaHdr) (n : Fin 32) (k h a h' : DWord), s.twin.fresh f = true ∧ s.leads = true ∧ s.twin.link =
      .joined ∧ h ≠ h' ∧ (s.twin.task n).own = some { k := k, hash := h', audit := a, diff := false } ∧ (s.twin.task n).fault =
      none ∧ (s.twin.task n).ownFault = none ∧ (s.twin.task n).verdict = none) ∧
    (∃ (s : State) (f : OlviaHdr) (n : Fin 32) (k : DWord), s.twin.fresh f = true ∧ s.follows = true) ∧
    (∃ (s : State) (f : OlviaHdr) (n : Fin 32) (h : DWord), s.twin.fresh f = true ∧ s.twin.link = .joined) ∧
    (∃ (s : State) (n : Fin 32) (r : CycleRun), s.leads = true ∧ s.twin.link = .joined ∧ (s.task n).run = some r ∧ r.faulted =
      false ∧ s.xch.cur.state = .idle ∧ s.twin.linkUp = true) ∧
    (∃ (s : State) (f : OlviaHdr) (n : Fin 32) (k : DWord) (ta : Nat), s.twin.fresh f = true ∧ s.follows = true ∧ s.twin.link =
      .joined ∧ s.xch.cur.state = .idle) ∧
    (∃ (s : State) (f : OlviaHdr) (n : Fin 32) (k : DWord) (ta : Nat), s.twin.fresh f = true ∧ s.follows = true ∧ s.twin.link =
      .joined ∧ s.xch.cur.state = .idle) ∧
    (∃ (s : State) (n : Fin 32), s.follows = true ∧ s.twin.link = .joined ∧ (s.task n).toApply = true ∧ (s.task n).run = none ∧
      (s.twin.task n).verdict = none ∧ (s.twin.task n).release = false) :=
  ⟨⟨{ twin := { lanes := [(0, { state := .up })] } }, ({ lane := 0, seq := 1#32 } : OlviaHdr), (0 : Fin 32), 0#64, [], by
      decide⟩,
    ⟨{ twin := { lanes := [(0, { state := .up })], started := true, link := .joined, began := true } },
      ({ lane := 0, seq := 1#32 } : OlviaHdr), (0 : Fin 32), 0#64, [], ⟨by decide, by decide⟩⟩,
    ⟨{}, ({ lane := 0, seq := 1#32 } : OlviaHdr), (0 : Fin 32), 0#64, [], (.fault 0#64 : HashMsg), (0 : Fin 6), 0, by decide⟩,
    ⟨{ cyc := { tasks := [(0, { run := some ({ agreed := false } : CycleRun) })] }, twin := { started := true, link := .joined, began := true }, time := { ns := 40000#32 } },
      (0 : Fin 32), ({ agreed := false } : CycleRun), ⟨by decide, by decide, by decide, by decide, by decide, by decide, by
      decide⟩⟩,
    ⟨{ twin := { lanes := [(0, { state := .up })], ownLow := true, started := true, link := .joined, tasks := [(0, { own := some { k := 0#64, hash := 0#64, audit := 0#64, diff := false }, fault := none, ownFault := none, verdict := none })], began := true } },
      ({ lane := 0, seq := 1#32 } : OlviaHdr), (0 : Fin 32), 0#64, 0#64, 0#64, ⟨by decide, by decide, by decide, by decide, by
      decide, by decide, by decide⟩⟩,
    ⟨{ twin := { lanes := [(0, { state := .up })], ownLow := true, started := true, link := .joined, tasks := [(0, { own := some { k := 0#64, hash := 0#64, audit := 0#64, diff := false }, fault := none, ownFault := none, verdict := none })], began := true } },
      ({ lane := 0, seq := 1#32 } : OlviaHdr), (0 : Fin 32), 0#64, (1#64 : DWord), 0#64, 0#64, ⟨by decide, by decide, by decide,
      by decide, by decide, by decide, by decide, by decide⟩⟩,
    ⟨{ twin := { lanes := [(0, { state := .up })], started := true, link := .joined, began := true } },
      ({ lane := 0, seq := 1#32 } : OlviaHdr), (0 : Fin 32), 0#64, ⟨by decide, by decide⟩⟩,
    ⟨{ twin := { lanes := [(0, { state := .up })], link := .joined } }, ({ lane := 0, seq := 1#32 } : OlviaHdr), (0 : Fin 32),
      0#64, ⟨by decide, by decide⟩⟩,
    ⟨{ twin := { ownLow := true, started := true, link := .joined, lanes := [(0, { state := .up })], began := true }, cyc := { tasks := [(0, { run := some ({ faulted := false } : CycleRun) })] }, xch := { cur := { state := .idle } } },
      (0 : Fin 32), ({ faulted := false } : CycleRun), ⟨by decide, by decide, by decide, by decide, by decide, by decide⟩⟩,
    ⟨{ twin := { lanes := [(0, { state := .up })], started := true, link := .joined, began := true }, xch := { cur := { state := .idle } } },
      ({ lane := 0, seq := 1#32 } : OlviaHdr), (0 : Fin 32), 0#64, 0, ⟨by decide, by decide, by decide, by decide⟩⟩,
    ⟨{ twin := { lanes := [(0, { state := .up })], started := true, link := .joined, began := true }, xch := { cur := { state := .idle } } },
      ({ lane := 0, seq := 1#32 } : OlviaHdr), (0 : Fin 32), 0#64, 0, ⟨by decide, by decide, by decide, by decide⟩⟩,
    ⟨{ twin := { started := true, link := .joined, tasks := [(0, { verdict := none, release := false })], began := true }, cyc := { tasks := [(0, { toApply := true, run := none })] } },
      (0 : Fin 32), ⟨by decide, by decide, by decide, by decide, by decide, by decide⟩⟩⟩

/-- Every clause of `Obligations.TwinCopy` that has hypotheses has a state and operands that meet them together. -/
theorem witness_TwinCopy :
    (∃ (s : State) (f : OlviaHdr) (m : ProgMode), s.twin.fresh f = true ∧ s.leads = true) ∧
    (∃ (s : State) (f : OlviaHdr) (m : ProgMode), s.twin.fresh f = true ∧ s.follows = true ∧ s.twin.link = .joined ∧ s.cyc.fwd =
      [] ∧ m ≠ .hold) ∧
    (∃ (s : State) (f : OlviaHdr), s.twin.fresh f = true ∧ s.follows = true ∧ s.twin.began = true ∧ s.twin.link = .joined ∧
      s.cyc.fwd = [] ∧ s.cyc.mode ≠ .hold) ∧
    (∃ (s : State) (f : OlviaHdr) (n : Nat) (b : Bool) (k : DWord), s.twin.fresh f = true ∧ s.follows = true) ∧
    (∃ (s : State) (f : OlviaHdr) (n : Nat) (k : DWord), s.twin.fresh f = true ∧ s.follows = true) ∧
    (∃ (s : State) (f : OlviaHdr) (n : Nat) (l : TaskLimits) (k : DWord), s.twin.fresh f = true ∧ s.follows = true) ∧
    (∃ (s : State) (f : OlviaHdr) (n hz : Nat), s.twin.fresh f = true ∧ s.twin.link ≠ .severed) ∧
    (∃ (s : State) (f : OlviaHdr) (e : AxEvent) (ago : Nat), s.twin.fresh f = true ∧ s.follows = true) ∧
    (∃ (s : State) (f : OlviaHdr) (p : Fin 4) (ns : Nat), s.twin.fresh f = true ∧ s.follows = true ∧ (s.net.port p).newest =
      none) ∧
    (∃ (s : State) (f : OlviaHdr) (c : Nat) (q : Word) (p : Nat) (r : Half), s.twin.fresh f = true ∧ s.follows = true) ∧
    (∃ (s : State) (f : OlviaHdr) (u : Fin 6) (x : RxPoll), s.twin.fresh f = true ∧ s.follows = true) ∧
    (∃ (s : State) (f : OlviaHdr) (n : Nat) (k : DWord) (l : List (Nat × Byte)) (off len : Nat), s.twin.fresh f = true ∧
      s.follows = true ∧ s.twin.link = .catchingUp ∧ s.twin.phase ≠ 0 ∧ n < 32) ∧
    (∃ (s : State) (f : OlviaHdr) (n : Nat) (k : DWord) (l : List (Nat × Byte)), s.twin.fresh f = true ∧ s.follows = true ∧
      s.twin.link = .catchingUp ∧ s.twin.phase ≠ 0 ∧ n < 32 ∧ (s.task n).cycle.toNat < k.toNat ∧ (s.task n).run = none) ∧
    (∃ (s : State) (f : OlviaHdr) (x : List (Fin 4 × Axis)) (q : List (Nat × Word)) (r : List (Nat × Half)) (p : List (Fin 6 ×
      RxPoll)) (c : List (Nat × Nat × Word)), s.twin.fresh f = true ∧ s.follows = true ∧ s.twin.link = .catchingUp ∧
      s.twin.phase ≠ 0) ∧
    (∃ (s : State) (f : OlviaHdr) (p : Program) (g : Nat), s.twin.fresh f = true ∧ s.follows = true ∧ s.twin.link = .catchingUp
      ∧ s.twin.phase ≠ 0 ∧ p.signer = some g ∧ g ∈ s.cfg.keyStore.imageKeys) ∧
    (∃ (s : State) (f : OlviaHdr) (p : Program), s.twin.fresh f = true ∧ s.follows = true ∧ s.twin.link = .catchingUp ∧
      s.twin.phase ≠ 0 ∧ (∀ g, p.signer = some g → g ∉ s.cfg.keyStore.imageKeys)) ∧
    (∃ (s : State) (f : OlviaHdr) (b : Bool), s.twin.fresh f = true ∧ s.twin.testing = true ∧ s.twin.peerResult = none ∧
      s.twin.ownResult = none) ∧
    (∃ (s : State), s.twin.testing = true ∧ s.twin.ownResult = none ∧ s.twin.peerResult = none ∧ s.twin.linkUp = true ∧
      (s.holdsToken = true → s.fab.selfTesting = false)) ∧
    (∃ (s : State), s.holdsToken = true ∧ s.fab.selfTesting = true) ∧
    (∃ (s : State), s.twin.link = .catchingUp ∧ s.twin.phase ≠ 0 ∧ s.twin.copyNs + 60000000000 ≤ s.nowNs ∧ s.holdsToken = false
      ∧ s.cyc.mode ≠ .hold ∧ s.exchanging = false ∧ s.releasePending = false) :=
  ⟨⟨{ twin := { lanes := [(0, { state := .up })], ownLow := true, started := true, link := .joined, began := true } },
      ({ lane := 0, seq := 1#32 } : OlviaHdr), (.run : ProgMode), ⟨by decide, by decide⟩⟩,
    ⟨{ twin := { lanes := [(0, { state := .up })], started := true, link := .joined, began := true }, cyc := { fwd := [] } },
      ({ lane := 0, seq := 1#32 } : OlviaHdr), (.run : ProgMode), ⟨by decide, by decide, by decide, by decide, by decide⟩⟩,
    ⟨{ twin := { lanes := [(0, { state := .up })], started := true, link := .joined, began := true }, cyc := { fwd := [] } },
      ({ lane := 0, seq := 1#32 } : OlviaHdr), ⟨by decide, by decide, by decide, by decide, by decide, by decide⟩⟩,
    ⟨{ twin := { lanes := [(0, { state := .up })], started := true, link := .joined, began := true } },
      ({ lane := 0, seq := 1#32 } : OlviaHdr), 0, false, 0#64, ⟨by decide, by decide⟩⟩,
    ⟨{ twin := { lanes := [(0, { state := .up })], started := true, link := .joined, began := true } },
      ({ lane := 0, seq := 1#32 } : OlviaHdr), 0, 0#64, ⟨by decide, by decide⟩⟩,
    ⟨{ twin := { lanes := [(0, { state := .up })], started := true, link := .joined, began := true } },
      ({ lane := 0, seq := 1#32 } : OlviaHdr), 0, ({} : TaskLimits), 0#64, ⟨by decide, by decide⟩⟩,
    ⟨{ twin := { lanes := [(0, { state := .up })], link := .joined } }, ({ lane := 0, seq := 1#32 } : OlviaHdr), 0, 0, ⟨by
      decide, by decide⟩⟩,
    ⟨{ twin := { lanes := [(0, { state := .up })], started := true, link := .joined, began := true } },
      ({ lane := 0, seq := 1#32 } : OlviaHdr), (.stall 0 0 0 : AxEvent), 0, ⟨by decide, by decide⟩⟩,
    ⟨{ twin := { lanes := [(0, { state := .up })], started := true, link := .joined, began := true }, net := { ports := [(0, { newest := none })] } },
      ({ lane := 0, seq := 1#32 } : OlviaHdr), (0 : Fin 4), 0, ⟨by decide, by decide, by decide⟩⟩,
    ⟨{ twin := { lanes := [(0, { state := .up })], started := true, link := .joined, began := true } },
      ({ lane := 0, seq := 1#32 } : OlviaHdr), 0, 0#32, 0, 0#16, ⟨by decide, by decide⟩⟩,
    ⟨{ twin := { lanes := [(0, { state := .up })], started := true, link := .joined, began := true } },
      ({ lane := 0, seq := 1#32 } : OlviaHdr), (0 : Fin 6), ({ fails := 0, lost := false } : RxPoll), ⟨by decide, by decide⟩⟩,
    ⟨{ twin := { lanes := [(0, { state := .up })], started := true, link := .catchingUp, began := true, phase := 1 } },
      ({ lane := 0, seq := 1#32 } : OlviaHdr), 0, 0#64, [], 0, 0, ⟨by decide, by decide, by decide, by decide, by decide⟩⟩,
    ⟨{ twin := { lanes := [(0, { state := .up })], started := true, link := .catchingUp, began := true, phase := 1 }, cyc := { tasks := [(0, { run := none })] } },
      ({ lane := 0, seq := 1#32 } : OlviaHdr), 0, (1#64 : DWord), [], ⟨by decide, by decide, by decide, by decide, by decide, by
      decide, by decide⟩⟩,
    ⟨{ twin := { lanes := [(0, { state := .up })], started := true, link := .catchingUp, began := true, phase := 1 } },
      ({ lane := 0, seq := 1#32 } : OlviaHdr), [], [], [], [], [], ⟨by decide, by decide, by decide, by decide⟩⟩,
    ⟨{ twin := { lanes := [(0, { state := .up })], started := true, link := .catchingUp, began := true, phase := 1 }, cfg := { keys0 := some { imageKeys := [3] } } },
      ({ lane := 0, seq := 1#32 } : OlviaHdr), ({ signer := some 3 } : Program), (3 : Nat), ⟨by decide, by decide, by decide, by
      decide, by decide, by decide⟩⟩,
    ⟨{ twin := { lanes := [(0, { state := .up })], started := true, link := .catchingUp, began := true, phase := 1 } },
      ({ lane := 0, seq := 1#32 } : OlviaHdr), ({} : Program), ⟨by decide, by decide, by decide, by decide, by decide⟩⟩,
    ⟨{ twin := { lanes := [(0, { state := .up })], testing := true, peerResult := none, ownResult := none } },
      ({ lane := 0, seq := 1#32 } : OlviaHdr), false, ⟨by decide, by decide, by decide, by decide⟩⟩,
    ⟨{ twin := { testing := true, ownResult := none, peerResult := none, lanes := [(0, { state := .up })] } }, ⟨by decide, by
      decide, by decide, by decide, by decide⟩⟩,
    ⟨{ twin := { ownLow := true }, fab := { engines := [(0, { state := .fenced })] } }, ⟨by decide, by decide⟩⟩,
    ⟨{ twin := { link := .catchingUp, phase := 1 }, time := { sec := 60#64 } }, ⟨by decide, by decide, by decide, by decide, by
      decide, by decide, by decide⟩⟩⟩

/-- Every clause of `Obligations.ExchangeCommands` that has hypotheses has a state and operands that meet them together. -/
theorem witness_ExchangeCommands :
    (∃ (s : State) (o : Origin) (total len : Nat) (pkg : Package × Option Nat), s.actsAsLead = true ∧ s.xch.cur.state = .idle ∧
      len ≤ total) ∧
    (∃ (s : State) (o : Origin) (total : Nat) (pkg : Package × Option Nat), s.actsAsLead = true ∧ s.leads = false ∧
      s.xch.cur.state = .idle) ∧
    (∃ (s : State) (o : Origin) (off total len : Nat) (f l : Bool) (pkg : Package × Option Nat), s.actsAsLead = false) ∧
    (∃ (s : State) (o : Origin) (off total len : Nat) (f l : Bool) (pkg : Package × Option Nat), s.actsAsLead = true ∧
      s.xch.cur.state ≠ .idle ∧ s.xch.cur.state ≠ .staging) ∧
    (∃ (s : State) (p : Package), s.xch.pkg = some p ∧ s.xch.cur.state = .staging ∧ s.xch.written = true ∧ s.xch.ownOk = false ∧
      s.twin.link = .severed ∧ s.stagingReason p s.xch.signer = 0) ∧
    (∃ (s : State) (p : Package) (r : Nat), s.xch.pkg = some p ∧ s.xch.cur.state = .staging ∧ s.xch.written = true ∧ s.xch.ownOk
      = false ∧ s.twin.link = .severed ∧ s.stagingReason p s.xch.signer = r ∧ r ≠ 0) ∧
    (∃ (s : State) (o : Origin) (n : Nat) (k : DWord) (p : Package), s.actsAsLead = true ∧ s.leads = false ∧ s.xch.cur.state =
      .staged ∧ s.xch.pkg = some p ∧ s.armReason p n k = 0 ∧ s.atStop = false) ∧
    (∃ (s : State) (o : Origin) (n : Nat) (k : DWord) (p : Package) (r : Nat), s.actsAsLead = true ∧ s.xch.cur.state = .staged ∧
      s.xch.pkg = some p ∧ s.armReason p n k = r ∧ r ≠ 0) ∧
    (∃ (s : State) (o : Origin), s.actsAsLead = true ∧ s.leads = false ∧ s.xch.cur.state = .armed) ∧
    (∃ (s : State) (o : Origin), s.actsAsLead = true ∧ s.leads = false ∧ s.xch.cur.state = .staged) ∧
    (∃ (s : State) (o : Origin) (m : CarryMap) (b : Program), s.actsAsLead = true ∧ s.leads = false ∧ s.xch.cur.state = .idle ∧
      s.xch.reverse = some m ∧ s.cfg.base = some b) ∧
    (∃ (s : State) (o : Origin), s.actsAsLead = true ∧ s.xch.cur.state = .idle ∧ s.xch.reverse = none) ∧
    (∃ (s : State) (p : Package), s.xch.pkg = some p ∧ s.xch.cur.state = .armed ∧ s.xch.done = false) :=
  ⟨⟨{ twin := { started := true, ownLow := true, began := true }, xch := { cur := { state := .idle } } }, .self, 0, 0, ({},
      none), ⟨by decide, by decide, by decide⟩⟩,
    ⟨{ twin := { started := true, ownLow := true, began := true }, xch := { cur := { state := .idle } } }, .self, 0, ({}, none),
      ⟨by decide, by decide, by decide⟩⟩,
    ⟨{}, .self, 0, 0, 0, false, false, ({}, none), by decide⟩,
    ⟨{ twin := { started := true, ownLow := true, began := true }, xch := { cur := { state := .staged } } }, .self, 0, 0, 0,
      false, false, ({}, none), ⟨by decide, by decide, by decide⟩⟩,
    ⟨{ xch := { pkg := some ({ prog := { proof := some { engines := 16, mhz := 800, depth := 256, lost := 2, reruns := 2, deadline := 255 } }, proof := some [] } : Package), cur := { state := .staging }, written := true, ownOk := false, signer := some 3 }, twin := { link := .severed }, cfg := { keys0 := some { imageKeys := [3] } } },
      ({ prog := { proof := some { engines := 16, mhz := 800, depth := 256, lost := 2, reruns := 2, deadline := 255 } }, proof := some [] }
      : Package), ⟨by decide, by decide, by decide, by decide, by decide, by decide⟩⟩,
    ⟨{ xch := { pkg := some ({} : Package), cur := { state := .staging }, written := true, ownOk := false }, twin := { link := .severed } },
      ({} : Package), (1 : Nat), ⟨by decide, by decide, by decide, by decide, by decide, by decide, by decide⟩⟩,
    ⟨{ twin := { started := true, ownLow := true, began := true }, xch := { cur := { state := .staged }, pkg := some ({} : Package) }, cyc := { mode := .run, target := .run }, cfg := { taskCfgs := [(0, { cfg := 0x40000001#32, period := 1#32 })] } },
      .self, (0 : Nat), (200001#64 : DWord), ({} : Package), ⟨by decide, by decide, by decide, by decide, by decide, by decide⟩⟩,
    ⟨{ twin := { started := true, ownLow := true, began := true, link := .catchingUp }, xch := { cur := { state := .staged }, pkg := some ({} : Package) } },
      .self, 0, 0#64, ({} : Package), (0xB : Nat), ⟨by decide, by decide, by decide, by decide, by decide⟩⟩,
    ⟨{ twin := { started := true, ownLow := true, began := true }, xch := { cur := { state := .armed } } }, .self, ⟨by decide,
      by decide, by decide⟩⟩,
    ⟨{ twin := { started := true, ownLow := true, began := true }, xch := { cur := { state := .staged } } }, .self, ⟨by decide,
      by decide, by decide⟩⟩,
    ⟨{ twin := { started := true, ownLow := true, began := true }, xch := { cur := { state := .idle }, reverse := some ({} : CarryMap) }, cfg := { base := some ({} : Program) } },
      .self, ({} : CarryMap), ({} : Program), ⟨by decide, by decide, by decide, by decide, by decide⟩⟩,
    ⟨{ twin := { started := true, ownLow := true, began := true }, xch := { cur := { state := .idle }, reverse := none } },
      .self, ⟨by decide, by decide, by decide⟩⟩,
    ⟨{ xch := { pkg := some ({} : Package), cur := { state := .armed }, done := false } }, ({} : Package), ⟨by decide, by
      decide, by decide⟩⟩⟩

/-- Every clause of `Obligations.ExchangeSwitch` that has hypotheses has a state and operands that meet them together. -/
theorem witness_ExchangeSwitch :
    (∃ (s : State) (n : Fin 32) (p : Package), s.xch.pkg = some p ∧ s.carryReady p n = true) ∧
    (∃ (s : State) (o : Origin) (n : Nat) (k : DWord) (p : Package), s.actsAsLead = true ∧ s.leads = false ∧ s.xch.cur.state =
      .staged ∧ s.xch.pkg = some p ∧ s.armReason p n k = 0 ∧ s.atStop = true) ∧
    (∃ (s : State) (p : Package), s.xch.pkg = some p) :=
  ⟨⟨{ xch := { pkg := some ({} : Package), cur := { state := .switching } }, cfg := { taskCfgs := [(0, { cfg := 0x40000001#32 })] } },
      (0 : Fin 32), ({} : Package), ⟨by decide, by decide⟩⟩,
    ⟨{ twin := { started := true, ownLow := true, began := true }, xch := { cur := { state := .staged }, pkg := some ({} : Package) } },
      .self, 0, 0#64, ({} : Package), ⟨by decide, by decide, by decide, by decide, by decide, by decide⟩⟩,
    ⟨{ xch := { pkg := some ({} : Package) } }, ({} : Package), by decide⟩⟩

/-- Every clause of `Obligations.Discipline` that has hypotheses has a state and operands that meet them together. -/
theorem witness_Discipline :
    (∃ (s : State) (b : Announce) (x : SyncStamp), bestMaster s.net.masters = some b ∧ s.time.disc = .freeRun ∧ s.net.redundant
      s.net.ptpPair = false) ∧
    (∃ (s : State) (m : DWord) (d : Nat) (x y : Option SyncStamp), ((∀ b, bestMaster s.net.masters = some b → b.sender ≠ m) ∨ d
      ≠ Bits.get s.net.ptpCfg 16 8)) ∧
    (∃ (s : State) (b : Announce) (x : SyncStamp) (o : Int), bestMaster s.net.masters = some b ∧ s.time.disc = .locked ∧
      s.net.redundant s.net.ptpPair = false ∧ o = x.recv - x.sent - (s.net.port (2 * s.net.ptpPair + s.net.ptpPort)).delay ∧
      near (o + s.time.residual / 100000) = false) ∧
    (∃ (s : State), (s.time.disc = .locked ∨ s.time.disc = .quarantine)) ∧
    (∃ (s : State), s.time.quarSyncs < 8) ∧
    (∃ (s : State), s.time.disc = .quarantine ∧ 8 ≤ s.time.quarSyncs ∧ s.net.pathCheck = true) ∧
    (∃ (s : State), s.time.disc = .quarantine ∧ 8 ≤ s.time.quarSyncs ∧ s.net.pathCheck = false) ∧
    (∃ (s : State), s.time.disc = .holdover ∧ 60000000 ≤ s.time.holdTicks ∧ s.time.expired = false) ∧
    (∃ (s : State), s.time.residual.natAbs ≤ s.time.slew.natAbs) ∧
    (∃ (s : State), s.time.slew.natAbs < s.time.residual.natAbs) ∧
    (∃ (s : State) (a b : Nat), s.cfg.lanes = true ∧ s.cfg.settled = false ∧ s.time.disc = .freeRun ∧ s.newestCommit = some (a,
      b) ∧ Bits.get s.time.cfg 0 8 * 1000000000 ≤ s.time.total) :=
  ⟨⟨{ time := { disc := .freeRun }, net := { masters := [({ sender := 1#64, domain := 0, heard := 0, interval := 1, prio1 := 0, clkClass := 0, accuracy := 0, variance := 0, prio2 := 0, gm := 0#64, steps := 0, utcOffset := 0#16, utcValid := true, leap59 := false, leap61 := false } : Announce)] } },
      ({ sender := 1#64, domain := 0, heard := 0, interval := 1, prio1 := 0, clkClass := 0, accuracy := 0, variance := 0, prio2 := 0, gm := 0#64, steps := 0, utcOffset := 0#16, utcValid := true, leap59 := false, leap61 := false }
      : Announce), ({ sent := 0, recv := 0 } : SyncStamp), ⟨by decide, by decide, by decide⟩⟩,
    ⟨{}, 0#64, 0, none, none, by decide⟩,
    ⟨{ time := { disc := .locked }, net := { masters := [({ sender := 1#64, domain := 0, heard := 0, interval := 1, prio1 := 0, clkClass := 0, accuracy := 0, variance := 0, prio2 := 0, gm := 0#64, steps := 0, utcOffset := 0#16, utcValid := true, leap59 := false, leap61 := false } : Announce)] } },
      ({ sender := 1#64, domain := 0, heard := 0, interval := 1, prio1 := 0, clkClass := 0, accuracy := 0, variance := 0, prio2 := 0, gm := 0#64, steps := 0, utcOffset := 0#16, utcValid := true, leap59 := false, leap61 := false }
      : Announce), ({ sent := 0, recv := 2000 } : SyncStamp), (2000 : Int), ⟨by decide, by decide, by decide, by decide, by
      decide⟩⟩,
    ⟨{ time := { disc := .quarantine } }, by decide⟩,
    ⟨{}, by decide⟩,
    ⟨{ time := { disc := .quarantine, quarSyncs := 8 } }, ⟨by decide, by decide, by decide⟩⟩,
    ⟨{ time := { disc := .quarantine, quarSyncs := 8 }, net := { rerouted := true } }, ⟨by decide, by decide, by decide⟩⟩,
    ⟨{ time := { disc := .holdover, expired := false, holdTicks := 60000000 } }, ⟨by decide, by decide, by decide⟩⟩,
    ⟨{}, by decide⟩,
    ⟨{ time := { residual := 5 } }, by decide⟩,
    ⟨{ cfg := { lanes := true, settled := false }, time := { disc := .freeRun, sec := 60#64 }, cyc := { tasks := [(0, { rec0 := some (CommitRec.sealed { sec := 7#64, ns := 9#32 }) })] } },
      (7 : Nat), (9 : Nat), ⟨by decide, by decide, by decide,
      (by have q : ∀ c : CommitRec, validRec (some c.sealed) = some c.sealed := (fun c => by unfold validRec; simp [CommitRec.sealed, CommitRec.body]); unfold State.newestCommit TaskSt.record; dsimp only [List.foldl]; rw [q]; rfl),
      by decide⟩⟩⟩

/-- Every clause of `Obligations.AngleClocks` that has hypotheses has a state and operands that meet them together. -/
theorem witness_AngleClocks :
    (∃ (s : State) (g : Fin 4), (s.time.clock 0).mode = 1 ∧ (s.time.clock 0).diff = false ∧ (s.time.clock 0).srcA = g ∧
      (s.time.clock 0).locked = false ∧ (s.time.clock 1).mode = 0) ∧
    (∃ (s : State) (g : Fin 4), (s.time.clock 0).mode = 1 ∧ (s.time.clock 0).srcA = g ∧ (s.time.clock 0).locked = true ∧
      (s.time.clock 1).mode = 0) ∧
    (∃ (s : State) (sh : Fin 2) (off : Fin 10000) (i : Nat), s.time.shaftClock sh = some i ∧ (s.aio.getSh sh).lineFault = false
      ∧ (s.time.clock i).cpt ≠ 0 ∧ ((s.time.clock i).state = .search ∨ (s.time.clock i).state = .unreferenced)) ∧
    (∃ (s : State) (sh : Fin 2) (i : Nat), s.time.shaftClock sh = some i ∧ (s.time.clock i).state = .locked ∧ (∀ e,
      (s.time.clock i).since = some e → ((Bits.get (s.time.clock i).zcfg 0 8 * 10000000 : Nat) : Int) < e + 10000)) ∧
    (∃ (s : State) (sh : Fin 2) (i : Nat) (e : Int), s.time.shaftClock sh = some i ∧ (s.time.clock i).since = some e ∧ e + 10000
      ≤ ((Bits.get (s.time.clock i).zcfg 0 8 * 10000000 : Nat) : Int)) ∧
    (∃ (s : State) (sh : Fin 2) (i : Nat), s.time.shaftClock sh = some i ∧ (s.time.clock i).state = .locked) ∧
    (∃ (s : State) (sh : Fin 2) (i : Nat) (ns : Fin 10000), s.time.shaftClock sh = some i ∧ (s.time.clock i).mode = 3 ∧
      (s.time.clock i).state = .locked ∧ (s.aio.getSh sh).a = false ∧ (s.aio.getSh sh).b = false ∧ (s.time.clock i).held = none
      ∧ (∀ e, (s.time.clock i).since = some e → 250 ≤ e + (ns.val : Int))) ∧
    (∃ (s : State) (sh : Fin 2) (i : Nat) (ns : Fin 10000) (e : Int), s.time.shaftClock sh = some i ∧ (s.time.clock i).mode = 3
      ∧ (s.time.clock i).state = .locked ∧ (s.aio.getSh sh).a = false ∧ (s.aio.getSh sh).b = false ∧ (s.time.clock i).since =
      some e ∧ 0 ≤ e + (ns.val : Int) ∧ e + (ns.val : Int) < 250) ∧
    (∃ (s : State) (sh : Fin 2), s.time.shaftClock sh = none ∧ (s.aio.getSh sh).lineFault = false ∧ Bits.bit (s.aio.getSh
      sh).cfg 31 = false) ∧
    (∃ (s : State) (sh : Fin 2) (i : Nat), s.time.shaftClock sh = some i ∧ (s.time.clock i).locked = true ∧ (s.aio.getSh
      sh).lineFault = false ∧ Bits.bit (s.aio.getSh sh).cfg 31 = false) ∧
    (∃ (s : State) (sh : Fin 2), s.time.shaftClock sh = none) ∧
    (∃ (s : State) (sh : Fin 2), (s.aio.getSh sh).encSupply = false) :=
  ⟨⟨{ time := { clocks := [(0, { cfg := 0x20000000#32 })] } }, (0 : Fin 4), ⟨by decide, by decide, by decide, by decide, by
      decide⟩⟩,
    ⟨{ time := { clocks := [(0, { cfg := 0x20000000#32, state := .locked })] } }, (0 : Fin 4), ⟨by decide, by decide, by decide,
      by decide⟩⟩,
    ⟨{ aio := { sh := [(0, { lineFault := false })] }, time := { clocks := [(2, { cfg := 0x60000001#32, state := .search })] } },
      (0 : Fin 2), (0 : Fin 10000), (2 : Nat), ⟨by decide, by decide, by decide, by decide⟩⟩,
    ⟨{ time := { clocks := [(2, { state := .locked, cfg := 0x60000001#32 })] } }, (0 : Fin 2), (2 : Nat), ⟨by decide, by decide,
      by decide⟩⟩,
    ⟨{ time := { clocks := [(2, { since := some 0, cfg := 0x60000001#32 })] } }, (0 : Fin 2), (2 : Nat), 0, ⟨by decide, by
      decide, by decide⟩⟩,
    ⟨{ time := { clocks := [(2, { state := .locked, cfg := 0x60000001#32 })] } }, (0 : Fin 2), (2 : Nat), ⟨by decide, by
      decide⟩⟩,
    ⟨{ time := { clocks := [(2, { state := .locked, held := none, cfg := 0x60000001#32 })] }, aio := { sh := [(0, { a := false, b := false })] } },
      (0 : Fin 2), (2 : Nat), (0 : Fin 10000), ⟨by decide, by decide, by decide, by decide, by decide, by decide, by decide⟩⟩,
    ⟨{ time := { clocks := [(2, { state := .locked, since := some 0, cfg := 0x60000001#32 })] }, aio := { sh := [(0, { a := false, b := false })] } },
      (0 : Fin 2), (2 : Nat), (0 : Fin 10000), 0, ⟨by decide, by decide, by decide, by decide, by decide, by decide, by decide,
      by decide⟩⟩,
    ⟨{ aio := { sh := [(0, { lineFault := false })] } }, (0 : Fin 2), ⟨by decide, by decide, by decide⟩⟩,
    ⟨{ aio := { sh := [(0, { lineFault := false })] }, time := { clocks := [(2, { cfg := 0x60000001#32, state := .locked })] } },
      (0 : Fin 2), (2 : Nat), ⟨by decide, by decide, by decide, by decide⟩⟩,
    ⟨{}, (0 : Fin 2), by decide⟩,
    ⟨{ aio := { sh := [(0, { encSupply := false })] } }, (0 : Fin 2), by decide⟩⟩

/-- Every clause of `Obligations.AngleSlots` that has hypotheses has a state and operands that meet them together. -/
theorem witness_AngleSlots :
    (∃ (s : State) (n : Fin 256), (s.time.slot n).state = .armed ∧ (s.time.clock (s.time.slot n).content.clock).locked = true ∧
      (s.time.slot n).content.rateOk (s.time.clock (s.time.slot n).content.clock).rateNow = true ∧ s.twin.link = .severed ∧
      (s.time.slot n).passed (s.time.clock (s.time.slot n).content.clock).seen (s.time.clock (s.time.slot n).content.clock).pos
      = true) ∧
    (∃ (s : State) (n : Fin 256) (d : Nat), (s.time.slot n).state = .armed ∧ (s.time.clock (s.time.slot n).content.clock).locked
      = true ∧ (s.time.slot n).content.rateOk (s.time.clock (s.time.slot n).content.clock).rateNow = true ∧ s.leads = true ∧
      (s.time.slot n).passed (s.time.clock (s.time.slot n).content.clock).seen (s.time.clock (s.time.slot n).content.clock).pos
      = false ∧ predictNs ((s.time.slot n).targetPos (s.time.clock (s.time.slot n).content.clock).pos) (s.time.clock
      (s.time.slot n).content.clock).pos (s.time.clock (s.time.slot n).content.clock).rateNow = some d ∧ d < 30000 ∧
      (s.time.slot n).content.admits (s.time.clock (s.time.slot n).content.clock).rateNow = true) ∧
    (∃ (s : State) (n : Fin 256), s.slotCounts (s.time.slot n) = true ∧ s.slotDue (s.time.slot n) = none) ∧
    (∃ (s : State) (n : Fin 256), (s.time.slot n).state = .armed ∧ (s.time.clock (s.time.slot n).content.clock).locked = false ∧
      (s.time.slot n).content.every = false ∧ (s.time.slot n).passed (s.time.clock (s.time.slot n).content.clock).seen
      ((s.time.clock (s.time.slot n).content.clock).posAt 10000) = true) ∧
    (∃ (s : State) (n : Fin 256), (s.time.slot n).state = .armed ∧ (s.time.clock (s.time.slot n).content.clock).locked = true ∧
      (s.time.slot n).content.rateOk (s.time.clock (s.time.slot n).content.clock).rateNow = false ∧ (s.time.slot
      n).content.every = true ∧ (s.time.slot n).passed (s.time.clock (s.time.slot n).content.clock).seen ((s.time.clock
      (s.time.slot n).content.clock).posAt 10000) = true) ∧
    (∃ (s : State) (n : Fin 256), (s.time.slot n).state = .fixed ∧ (s.time.slot n).tang < s.nowNs + 10000 ∧ (s.time.slot
      n).heldNew = none ∧ (s.time.slot n).content.action = 2 ∧ Tbl.get none s.time.lastAct (s.time.slot n).content.target ≠ some
      ((s.time.slot n).tang, false)) ∧
    (∃ (s : State) (n : Fin 256), (s.time.slot n).state = .fixed ∧ (s.time.slot n).tang < s.nowNs + 10000 ∧ (s.time.slot
      n).heldNew = none ∧ (s.time.slot n).content.action = 3 ∧ (∀ b, Tbl.get none s.time.lastAct (s.time.slot n).content.target
      ≠ some ((s.time.slot n).tang, b))) ∧
    (∃ (s : State) (n : Fin 256) (b : Bool), (s.time.slot n).state = .fixed ∧ (s.time.slot n).tang < s.nowNs + 10000 ∧
      (s.time.slot n).heldNew = none ∧ (s.time.slot n).content.action = 1 ∧ Tbl.get none s.time.lastAct (s.time.slot
      n).content.target = some ((s.time.slot n).tang, b)) ∧
    (∃ (s : State) (n : Fin 256), s.nowNs + 10000 ≤ (s.time.slot n).tang) ∧
    (∃ (s : State) (n : Fin 256), (s.time.slot n).pulsing = true ∧ (s.time.slot n).fireNs + (s.time.slot n).content.pulse.toNat
      * 1000 < s.nowNs + 10000 ∧ Tbl.get none s.time.lastAct (s.time.slot n).content.target ≠ some ((s.time.slot n).fireNs +
      (s.time.slot n).content.pulse.toNat * 1000, false)) ∧
    (∃ (s : State) (ch : CapCh) (r : Bool) (ns i n : Nat), s.capClock ch = some i ∧ s.capTasks (capCode ch) = [n]) :=
  ⟨⟨{ time := { slots := [(0, { state := .armed })], clocks := [(0, { state := .locked, seen := 0xFFFFFFFFFFFFFFFF#64 })] }, twin := { link := .severed } },
      (0 : Fin 256), ⟨by decide, by decide, by decide, by decide, by decide⟩⟩,
    ⟨{ time := { slots := [(0, { state := .armed })], clocks := [(0, { state := .locked, rate := 1 })] }, twin := { ownLow := true, started := true, link := .joined, began := true } },
      (0 : Fin 256), 0, ⟨by decide, by decide, by decide, by decide, by decide, by decide, by decide, by decide⟩⟩,
    ⟨{ time := { clocks := [(0, { state := .locked })] } }, (0 : Fin 256), ⟨by decide, by decide⟩⟩,
    ⟨{ time := { slots := [(0, { state := .armed })], clocks := [(0, { seen := 0xFFFFFFFFFFFFFFFF#64 })] } }, (0 : Fin 256), ⟨by
      decide, by decide, by decide, by decide⟩⟩,
    ⟨{ time := { slots := [(0, { state := .armed, content := { ctrl := 0x00C00000#32, rateMin := 1#32 } })], clocks := [(0, { state := .locked, seen := 0xFFFFFFFFFFFFFFFF#64 })] } },
      (0 : Fin 256), ⟨by decide, by decide, by decide, by decide, by decide⟩⟩,
    ⟨{ time := { slots := [(0, { state := .fixed, heldNew := none, content := { ctrl := 0x20000000#32 } })] } }, (0 : Fin 256),
      ⟨by decide, by decide, by decide, by decide, by decide⟩⟩,
    ⟨{ time := { slots := [(0, { state := .fixed, heldNew := none, content := { ctrl := 0x30000000#32 } })] } }, (0 : Fin 256),
      ⟨by decide, by decide, by decide, by decide, by decide⟩⟩,
    ⟨{ time := { slots := [(0, { state := .fixed, heldNew := none, content := { ctrl := 0x10000000#32 } })], lastAct := [(0, some (0, false))] } },
      (0 : Fin 256), false, ⟨by decide, by decide, by decide, by decide, by decide⟩⟩,
    ⟨{ time := { slots := [(0, { tang := 10000 })] } }, (0 : Fin 256), by decide⟩,
    ⟨{ time := { slots := [(0, { pulsing := true })] } }, (0 : Fin 256), ⟨by decide, by decide, by decide⟩⟩,
    ⟨{ dio := { ch := [(0, { cfg := 0x20428000#32 })] }, cfg := { taskCfgs := [(0, { cfg := 0x40000001#32 })], prog := some { tasks := [(0, { inputs := [.cap 0] })] } } },
      (.dio 0 : CapCh), false, 0, 0, 0, ⟨by decide, by decide⟩⟩⟩

/-- Every clause of `Obligations.NetPorts` that has hypotheses has a state and operands that meet them together. -/
theorem witness_NetPorts :
    (∃ (s : State) (p : Fin 4), (s.net.port p).link = true ∧ pairOf p ≠ s.net.ptpPair) ∧
    (∃ (s : State) (p : Fin 4), (s.net.port p).link = true ∧ pairOf p = s.net.ptpPair ∧ s.net.reroute = false) ∧
    (∃ (s : State) (p : Fin 4), (s.net.port p).link = false) ∧
    (∃ (s : State) (f : RingFrame), s.gateOpen = true ∧ s.net.pairMode (pairOf f.port) = 2 ∧ s.net.isolated (pairOf f.port) =
      false ∧ s.net.macOf f.port ≠ f.src ∧ s.net.fwdSeen = [] ∧ f.ptp = none ∧ f.length ≤ s.net.longest (pairOf f.port)) ∧
    (∃ (s : State) (f : RingFrame) (ns : Nat), (f.port.val, f.src, f.redSeq, ns) ∈ s.net.fwdSeen ∧ f.ns < ns + 400000000) ∧
    (∃ (s : State), s.gateOpen = true ∧ s.net.redundant 0 = true ∧ s.net.isolated 0 = false ∧ s.net.redundant 1 = false) ∧
    (∃ (s : State), s.gateOpen = false) ∧
    (∃ (s : State) (p : Fin 4) (n : Nat), s.gateOpen = true ∧ s.svDown = false ∧ s.net.isolated (pairOf p) = false ∧
      s.net.redundant (pairOf p) = false ∧ Tbl.get 0#32 s.net.ips p ≠ 0#32) ∧
    (∃ (s : State) (p : Fin 4) (n : Nat), s.gateOpen = true ∧ s.svDown = false ∧ s.net.isolated (pairOf p) = false ∧
      s.net.redundant (pairOf p) = true ∧ Tbl.get 0#32 s.net.ips (2 * pairOf p) ≠ 0#32) ∧
    (∃ (s : State) (m b : Announce) (l : List Announce), m.domain = Bits.get s.net.ptpCfg 16 8 ∧ l = ((s.net.mastersAt
      m.heard).filter (fun o => o.sender != m.sender)) ++ [m] ∧ l.length ≤ 8 ∧ bestMaster l = some b) ∧
    (∃ (s : State) (p : Fin 4) (ns : Nat), s.gateOpen = true ∧ s.leads = false ∧ (s.net.port p).newest = none ∧ s.net.frozen =
      false) ∧
    (∃ (s : State) (p : Fin 4) (ns : Nat), s.gateOpen = true ∧ s.leads = true ∧ s.twin.linkUp = true ∧ (s.net.port p).newest =
      none ∧ s.net.frozen = false) ∧
    (∃ (s : State) (conn n off len : Nat), s.gateOpen = true ∧ s.mod.ready = true ∧ s.svDown = false ∧ Bits.bit s.net.pairCfg 15
      = true ∧ s.net.isolated (Bits.get s.net.pairCfg 14 1) = false ∧ s.net.redundant (Bits.get s.net.pairCfg 14 1) = false ∧
      conn ∈ s.net.conns ∧ (s.taskCfg n).configured = true ∧ off + len ≤ (s.progTask n).size) ∧
    (∃ (s : State) (conn fn : Nat) (seg : TcpSeg) (ops : List ModbusOp), s.gateOpen = true ∧ s.mod.ready = true ∧ s.svDown =
      false ∧ Bits.bit s.net.pairCfg 15 = true ∧ s.net.isolated (Bits.get s.net.pairCfg 14 1) = false ∧ s.net.redundant
      (Bits.get s.net.pairCfg 14 1) = false ∧ conn ∉ s.net.conns ∧ 8 ≤ s.net.conns.length) :=
  ⟨⟨{ net := { ports := [(3, { link := true })] } }, (3 : Fin 4), ⟨by decide, by decide⟩⟩,
    ⟨{ net := { ports := [(0, { link := true })], reroute := false } }, (0 : Fin 4), ⟨by decide, by decide, by decide⟩⟩,
    ⟨{ net := { ports := [(0, { link := false })] } }, (0 : Fin 4), by decide⟩,
    ⟨{ twin := { ownLow := true }, net := { fwdSeen := [], pairCfg := 0x80000000#32 } },
      ({ port := 0, src := 7, redSeq := 0#16, ns := 0, length := 64, ptp := none } : RingFrame), ⟨by decide, by decide, by
      decide, by decide, by decide, by decide, by decide⟩⟩,
    ⟨{ net := { fwdSeen := [(0, 7, 0#16, 0)] } }, ({ port := 0, src := 7, redSeq := 0#16, ns := 0, length := 64, ptp := none } :
      RingFrame), (0 : Nat), ⟨by decide, by decide⟩⟩,
    ⟨{ twin := { ownLow := true }, net := { pairCfg := 0x80000000#32 } }, ⟨by decide, by decide, by decide, by decide⟩⟩,
    ⟨{}, by decide⟩,
    ⟨{ twin := { ownLow := true }, net := { ips := [(0, 5#32)] } }, (0 : Fin 4), 0, ⟨by decide, by decide, by decide, by decide,
      by decide⟩⟩,
    ⟨{ twin := { ownLow := true }, net := { pairCfg := 0x80000000#32, ips := [(0, 5#32)] } }, (0 : Fin 4), 0, ⟨by decide, by
      decide, by decide, by decide, by decide⟩⟩,
    ⟨{ net := { ptpCfg := 0#32 } },
      ({ sender := 1#64, domain := 0, prio1 := 0, clkClass := 0, accuracy := 0, variance := 0, prio2 := 0, gm := 0#64, steps := 0, heard := 0, interval := 1, utcOffset := 0#16, utcValid := true, leap59 := false, leap61 := false }
      : Announce),
      ({ sender := 1#64, domain := 0, prio1 := 0, clkClass := 0, accuracy := 0, variance := 0, prio2 := 0, gm := 0#64, steps := 0, heard := 0, interval := 1, utcOffset := 0#16, utcValid := true, leap59 := false, leap61 := false }
      : Announce),
      ([{ sender := 1#64, domain := 0, prio1 := 0, clkClass := 0, accuracy := 0, variance := 0, prio2 := 0, gm := 0#64, steps := 0, heard := 0, interval := 1, utcOffset := 0#16, utcValid := true, leap59 := false, leap61 := false }]
      : List Announce), ⟨by decide, by decide, by decide, by decide⟩⟩,
    ⟨{ twin := { ownLow := true }, net := { ports := [(0, { newest := none })], frozen := false } }, (0 : Fin 4), 0, ⟨by decide,
      by decide, by decide, by decide⟩⟩,
    ⟨{ twin := { ownLow := true, started := true, link := .joined, lanes := [(0, { state := .up })], began := true }, net := { ports := [(0, { newest := none })], frozen := false } },
      (0 : Fin 4), 0, ⟨by decide, by decide, by decide, by decide, by decide⟩⟩,
    ⟨{ twin := { ownLow := true }, mod := { ready := true }, cfg := { taskCfgs := [(0, { cfg := 0x40000000#32 })] }, net := { pairCfg := 0x00008000#32, conns := [0] } },
      0, 0, 0, 0, ⟨by decide, by decide, by decide, by decide, by decide, by decide, by decide, by decide, by decide⟩⟩,
    ⟨{ twin := { ownLow := true }, mod := { ready := true }, net := { pairCfg := 0x00008000#32, conns := [1, 2, 3, 4, 5, 6, 7, 8] } },
      (9 : Nat), 0, (.syn : TcpSeg), [], ⟨by decide, by decide, by decide, by decide, by decide, by decide, by decide, by
      decide⟩⟩⟩

/-- Every clause of `Obligations.Streams` that has hypotheses has a state and operands that meet them together. -/
theorem witness_Streams :
    (∃ (s : State) (n : Fin 1024) (t0 k l : Nat), s.taskSched (s.net.ctx n).task = some (t0, k) ∧ s.mayLaunch (s.net.ctx n) =
      true ∧ (s.net.ctx n).slotLaunch = false ∧ k % (s.net.ctx n).every = 0 ∧ s.gateOpen = true ∧ (s.net.ctx n).budget = 0 ∧
      (s.net.ctx n).tsReq = false ∧ l = t0 + (s.net.ctx n).offset * 10 ∧ l < s.nowNs + 10000 ∧ (s.net.ctx n).launched ≠ some t0
      ∧ s.brakeOn n = none) ∧
    (∃ (s : State) (n : Fin 1024) (t0 k : Nat), s.taskSched (s.net.ctx n).task = some (t0, k) ∧ (s.nowNs + 10000 ≤ t0 +
      (s.net.ctx n).offset * 10 ∨ (s.net.ctx n).launched = some t0 ∨ k % (s.net.ctx n).every ≠ 0)) ∧
    (∃ (s : State) (n : Fin 1024) (t0 k l : Nat), s.taskSched (s.net.ctx n).task = some (t0, k) ∧ s.mayLaunch (s.net.ctx n) =
      true ∧ (s.net.ctx n).slotLaunch = false ∧ k % (s.net.ctx n).every = 0 ∧ s.gateOpen = true ∧ l = t0 + (s.net.ctx n).offset
      * 10 ∧ (s.net.ctx n).budget ≠ 0 ∧ (s.net.ctx n).budget < (s.net.ctx n).useAt l + (s.net.ctx n).frameLen (s.net.redundant
      (s.net.ctx n).pair) ∧ l < s.nowNs + 10000 ∧ (s.net.ctx n).launched ≠ some t0 ∧ s.brakeOn n = none) ∧
    (∃ (s : State) (n : Fin 1024) (t0 k : Nat), s.taskSched (s.net.ctx n).task = some (t0, k) ∧ s.mayLaunch (s.net.ctx n) = true
      ∧ (s.net.ctx n).slotLaunch = false ∧ k % (s.net.ctx n).every = 0 ∧ s.gateOpen = false ∧ t0 + (s.net.ctx n).offset * 10 <
      s.nowNs + 10000 ∧ (s.net.ctx n).launched ≠ some t0 ∧ s.net.due.length < 1024) ∧
    (∃ (s : State) (n : Fin 1024), (s.net.ctx n).receive = true ∧ (s.net.ctx n).lastTime + 60000000000 ≤ s.nowNs) ∧
    (∃ (s : State) (n : Fin 1024), (s.net.ctx n).receive = true ∧ (s.net.ctx n).lastTime + 400000000 ≤ s.nowNs) ∧
    (∃ (s : State) (f : RxFrame), s.net.longest (pairOf f.port) < f.length) ∧
    (∃ (s : State) (f : RxFrame), s.net.isolated (pairOf f.port) = false ∧ f.length ≤ s.net.longest (pairOf f.port) ∧ f.fcsOk =
      false) ∧
    (∃ (s : State) (f : RxFrame) (n : Nat) (c : StreamCtx), s.net.isolated (pairOf f.port) = false ∧ f.length ≤ s.net.longest
      (pairOf f.port) ∧ f.fcsOk = true ∧ s.gateOpen = true ∧ f.kind ≠ .supervision ∧ s.net.ctxs.find? (fun e => e.2.matchesRx f)
      = some (n, c) ∧ (s.net.ctx n).srcMac = f.src ∧ f.src ≠ 0 ∧ (s.net.ctx n).judge (s.net.redundant (s.net.ctx n).pair) f =
      .accept) ∧
    (∃ (s : State) (f : RxFrame) (n : Nat) (c : StreamCtx), s.net.isolated (pairOf f.port) = false ∧ f.length ≤ s.net.longest
      (pairOf f.port) ∧ f.fcsOk = true ∧ s.gateOpen = true ∧ f.kind ≠ .supervision ∧ s.net.ctxs.find? (fun e => e.2.matchesRx f)
      = some (n, c) ∧ (s.net.ctx n).srcMac ≠ 0 ∧ (s.net.ctx n).srcMac ≠ f.src) :=
  ⟨⟨{ twin := { ownLow := true }, net := { ctxs := [(0, { cfg := [0#8, 0#8, 0#8, 0x80#8] })] }, mod := { ready := true }, cyc := { mode := .run, tasks := [(0, { lastT0 := some 0 })] } },
      (0 : Fin 1024), (0 : Nat), (0 : Nat), 0, ⟨by decide, by decide, by decide, by decide, by decide, by decide, by decide, by
      decide, by decide, by decide, by decide⟩⟩,
    ⟨{ cyc := { tasks := [(0, { lastT0 := some 0 })] }, net := { ctxs := [(0, { launched := some 0 })] } }, (0 : Fin 1024), 0,
      0, ⟨by decide, by decide⟩⟩,
    ⟨{ twin := { ownLow := true }, mod := { ready := true }, cyc := { mode := .run, tasks := [(0, { lastT0 := some 0 })] }, time := { ns := 1#32 }, net := { ctxs := [(0, { cfg := [0#8, 0#8, 0#8, 0x80#8] ++ List.replicate 24 0#8 ++ [1#8] })] } },
      (0 : Fin 1024), 0, 0, (0 : Nat), ⟨by decide, by decide, by decide, by decide, by decide, by decide, by decide, by decide,
      by decide, by decide, by decide⟩⟩,
    ⟨{ mod := { ready := true }, cyc := { mode := .run, tasks := [(0, { lastT0 := some 0 })] }, net := { ctxs := [(0, { cfg := [0#8, 0#8, 0#8, 0x80#8] })] } },
      (0 : Fin 1024), 0, 0, ⟨by decide, by decide, by decide, by decide, by decide, by decide, by decide, by decide⟩⟩,
    ⟨{ net := { ctxs := [(0, { cfg := [0#8, 0#8, 0#8, 0xC0#8] })] }, time := { sec := 60#64 } }, (0 : Fin 1024), ⟨by decide, by
      decide⟩⟩,
    ⟨{ net := { ctxs := [(0, { cfg := [0#8, 0#8, 0#8, 0xC0#8] })] }, time := { ns := 400000000#32 } }, (0 : Fin 1024), ⟨by
      decide, by decide⟩⟩,
    ⟨{},
      ({ port := 0, fcsOk := true, src := 7, dst := 0, kind := .eth 0 0, seq := 1#32, launch := 0, redSeq := 0#16, length := 1523, payload := [], arrival := 0 }
      : RxFrame), by decide⟩,
    ⟨{},
      ({ port := 0, fcsOk := false, src := 7, dst := 0, kind := .eth 0 0, seq := 1#32, launch := 0, redSeq := 0#16, length := 64, payload := [], arrival := 0 }
      : RxFrame), ⟨by decide, by decide, by decide⟩⟩,
    ⟨{ twin := { ownLow := true }, net := { ctxs := [(0, { srcMac := 7, cfg := [0#8, 0#8, 0#8, 0xC0#8] })] } },
      ({ port := 0, fcsOk := true, src := 7, dst := 0, kind := .eth 0 0, seq := 1#32, launch := 0, redSeq := 0#16, length := 64, payload := [], arrival := 0 }
      : RxFrame), 0, ({ cfg := [0#8, 0#8, 0#8, 0xC0#8], srcMac := 7 } : StreamCtx), ⟨by decide, by decide, by decide, by decide,
      by decide, by decide, by decide, by decide, by decide⟩⟩,
    ⟨{ twin := { ownLow := true }, net := { ctxs := [(0, ({ cfg := [0#8, 0#8, 0#8, 0xC0#8], srcMac := 9 } : StreamCtx))] } },
      ({ port := 0, fcsOk := true, src := 7, dst := 0, kind := .eth 0 0, seq := 1#32, launch := 0, redSeq := 0#16, length := 64, payload := [], arrival := 0 }
      : RxFrame), 0, ({ cfg := [0#8, 0#8, 0#8, 0xC0#8], srcMac := 9 } : StreamCtx), ⟨by decide, by decide, by decide, by decide,
      by decide, by decide, by decide, by decide⟩⟩⟩

/-- Every clause of `Obligations.DioStageProtection` that has hypotheses has a state and operands that meet them together. -/
theorem witness_DioStageProtection :
    (∃ (s : State) (ch : Fin 96), (s.dio.getCh ch).drives ∧ (s.dio.cellOf ch).supply.good ∧ DioDiag.overload ∉ (s.dio.getCh
      ch).active) ∧
    (∃ (s : State) (ch : Fin 96), (s.dio.getCh ch).isOutput ∧ DioDiag.overtemp ∉ (s.dio.getCh ch).active) ∧
    (∃ (s : State) (ch : Fin 96), (s.dio.getCh ch).isOutput) ∧
    (∃ (s : State) (ch : Fin 96), (s.dio.getCh ch).isOutput ∧ (s.dio.cellOf ch).supply.good ∧ ((s.dio.getCh ch).drives ∨
      (s.dio.getCh ch).openOffEn) ∧ DioDiag.openWire ∉ (s.dio.getCh ch).active) ∧
    (∃ (s : State) (ch : Fin 96), (s.dio.getCh ch).drives ∧ s.partnerEngaged ∧ (s.dio.cellOf ch).supply.live ∧ DioDiag.shareLow
      ∉ (s.dio.getCh ch).active) ∧
    (∃ (s : State) (ch : Fin 96), (s.dio.getCh ch).isOutput ∧ (s.dio.getCh ch).engaged ∧ (s.dio.getCh ch).drives = false ∧
      (s.dio.cellOf ch).supply.live ∧ DioDiag.stuckOn ∉ (s.dio.getCh ch).active) :=
  ⟨⟨{ dio := { ch := [(0, { cfg := 0x80028000#32, engaged := true, force := true })], cell := [(0, { supply := .normal })] } },
      (0 : Fin 96), ⟨by decide, by decide, by decide⟩⟩,
    ⟨{ dio := { ch := [(0, { cfg := 0x80028000#32 })] } }, (0 : Fin 96), ⟨by decide, by decide⟩⟩,
    ⟨{ dio := { ch := [(0, { cfg := 0x80028000#32 })] } }, (0 : Fin 96), by decide⟩,
    ⟨{ dio := { ch := [(0, { cfg := 0x80828000#32 })], cell := [(0, { supply := .normal })] } }, (0 : Fin 96), ⟨by decide, by
      decide, by decide, by decide⟩⟩,
    ⟨{ dio := { ch := [(0, { cfg := 0x80028000#32, engaged := true, force := true })], cell := [(0, { supply := .normal })] }, twin := { partner := true, heard := some { role := 2, link := 2, elig := 0#32, tickOff := 0, clocks := [], axCheck := 0#32, settled := true, locked := true, engaged := true, precarry := false, safetyId := 0#64, tick := 0, acks := [] } } },
      (0 : Fin 96), ⟨by decide, by decide, by decide, by decide⟩⟩,
    ⟨{ dio := { ch := [(0, { cfg := 0x80028000#32, engaged := true })], cell := [(0, { supply := .normal })] } }, (0 : Fin 96),
      ⟨by decide, by decide, by decide, by decide, by decide⟩⟩⟩

/-- Every clause of `Obligations.DioCellFaults` that has hypotheses has a state and operands that meet them together. -/
theorem witness_DioCellFaults :
    (∃ (s : State) (ch : Fin 96), (s.dio.getCh ch).ovlOpen ∧ (s.dio.getCh ch).exhausted = false ∧ (s.dio.getCh ch).force ∧
      (s.dio.getCh ch).engaged ∧ (s.dio.cellOf ch).supply.good) ∧
    (∃ (s : State) (ch : Fin 96), (s.dio.getCh ch).ovlOpen ∧ (s.dio.getCh ch).exhausted = false ∧ (s.dio.getCh ch).force ∧
      (s.dio.getCh ch).engaged ∧ (s.dio.cellOf ch).supply.good) ∧
    (∃ (s : State) (ch : Fin 96), (s.dio.getCh ch).isOutput ∧ (s.dio.getCh ch).drives = false ∧ (s.dio.cellOf ch).supply.live ∧
      s.dio.crossOn ch = false ∧ DioDiag.shortSupply ∉ (s.dio.getCh ch).active) ∧
    (∃ (s : State) (i j : Fin 96), i ≠ j ∧ (s.dio.getCh i).isOutput ∧ (s.dio.getCh j).isOutput ∧ (s.dio.cellOf i).supply.live ∧
      (s.dio.cellOf j).supply.live ∧ (((s.dio.getCh i).drives = false ∧ (s.dio.getCh j).drives = true) ∨ (s.dio.getCh j).pulse =
      some .dark)) ∧
    (∃ (s : State) (c : Fin 6) (l : List Nat), 4400 < l.foldl (· + ·) 0 ∧ (s.dio.getCell c).supply.live) :=
  ⟨⟨{ dio := { ch := [(0, { ovlOpen := true, exhausted := false, force := true, engaged := true })], cell := [(0, { supply := .normal })] } },
      (0 : Fin 96), ⟨by decide, by decide, by decide, by decide, by decide⟩⟩,
    ⟨{ dio := { ch := [(0, { ovlOpen := true, exhausted := false, force := true, engaged := true })], cell := [(0, { supply := .normal })] } },
      (0 : Fin 96), ⟨by decide, by decide, by decide, by decide, by decide⟩⟩,
    ⟨{ dio := { ch := [(0, { cfg := 0x80028000#32 })], cell := [(0, { supply := .normal })] } }, (0 : Fin 96), ⟨by decide, by
      decide, by decide, by decide, by decide⟩⟩,
    ⟨{ dio := { ch := [(0, { cfg := 0x80028000#32 }), (95, { cfg := 0x80028000#32, pulse := some .dark })], cell := [(0, { supply := .normal }), (5, { supply := .normal })] } },
      (0 : Fin 96), (95 : Fin 96), ⟨by decide, by decide, by decide, by decide, by decide, by decide⟩⟩,
    ⟨{ dio := { cell := [(0, { supply := .normal })] } }, (0 : Fin 6), ([4401] : List Nat), ⟨by decide, by decide⟩⟩⟩

/-- Every clause of `Obligations.DioInputsAndPulses` that has hypotheses has a state and operands that meet them together. -/
theorem witness_DioInputsAndPulses :
    (∃ (s : State) (ch : Fin 96) (v : Bool), (s.dio.getCh ch).isInput) ∧
    (∃ (s : State) (ch : Fin 96) (b : WbBand), (s.dio.getCh ch).isWb ∧ (s.dio.getCh ch).band ≠ some b) ∧
    (∃ (s : State) (ch : Fin 96) (k : PulseKind), s.time.ns.toNat = 2000000 + ch * 1250000 ∧ (s.dio.getCh ch).testInterval ≠ 0 ∧
      s.time.sec.toNat % (s.dio.getCh ch).testInterval = ch % (s.dio.getCh ch).testInterval ∧ s.dio.pulseKind ch = some k) ∧
    (∃ (s : State) (ch : Fin 96) (k : PulseKind), s.time.ns.toNat = 2000000 + ch * 1250000 ∧ (s.dio.getCh ch).testInterval ≠ 0 ∧
      s.time.sec.toNat % (s.dio.getCh ch).testInterval = ch % (s.dio.getCh ch).testInterval ∧ s.dio.pulseKind ch = some k) ∧
    (∃ (s : State) (ch : Fin 96) (m : PulseMeas), (s.dio.getCh ch).pulse = some .bright ∧ (s.dio.getCh ch).pulseTick +
      (s.dio.getCh ch).pulseTicks .bright ≤ s.tickNo ∧ brightOk m s.solo) ∧
    (∃ (s : State) (ch : Fin 96) (m : PulseMeas), (s.dio.getCh ch).pulse = some .bright ∧ (s.dio.getCh ch).pulseTick +
      (s.dio.getCh ch).pulseTicks .bright ≤ s.tickNo ∧ brightOk m s.solo = false ∧ DioDiag.pulseFail ∉ (s.dio.getCh ch).active) ∧
    (∃ (s : State) (ch : Fin 96) (m : PulseMeas), (s.dio.getCh ch).pulse = some .dark ∧ (s.dio.getCh ch).pulseTick +
      (s.dio.getCh ch).pulseTicks .dark ≤ s.tickNo ∧ m.outward = false ∧ m.cross = none ∧ m.lowSince = false ∧ m.fell) ∧
    (∃ (s : State) (ch : Fin 96) (m : PulseMeas) (k : PulseKind), (s.dio.getCh ch).pulse = some k ∧ s.tickNo < (s.dio.getCh
      ch).pulseTick + (s.dio.getCh ch).pulseTicks k) :=
  ⟨⟨{ dio := { ch := [(0, { cfg := 0x20028000#32 })] } }, (0 : Fin 96), false, by decide⟩,
    ⟨{ dio := { ch := [(0, { cfg := 0x60028000#32 })] } }, (0 : Fin 96), (.short : WbBand), ⟨by decide, by decide⟩⟩,
    ⟨{ time := { ns := 120750000#32, sec := 5#64 }, dio := { ch := [(95, { cfg := 0x81028000#32, engaged := true })], cell := [(5, { supply := .normal })] } },
      (95 : Fin 96), (.bright : PulseKind), ⟨by decide, by decide, by decide, by decide⟩⟩,
    ⟨{ time := { ns := 120750000#32, sec := 5#64 }, dio := { ch := [(95, { cfg := 0x81028000#32, engaged := true })], cell := [(5, { supply := .normal })] } },
      (95 : Fin 96), (.bright : PulseKind), ⟨by decide, by decide, by decide, by decide⟩⟩,
    ⟨{ dio := { ch := [(0, { pulse := some .bright })] }, time := { ns := 300000#32 } }, (0 : Fin 96),
      ({ fell := true, endMv := 0, outward := false, partnerOut := false, cross := none, lowSince := false, termUa := 0, ownUa := 0, rise50 := true }
      : PulseMeas), ⟨by decide, by decide, by decide⟩⟩,
    ⟨{ dio := { ch := [(0, { pulse := some .bright })] }, time := { ns := 300000#32 } }, (0 : Fin 96),
      ({ fell := true, endMv := 0, outward := false, partnerOut := false, cross := none, lowSince := false, termUa := 0, ownUa := 0, rise50 := false }
      : PulseMeas), ⟨by decide, by decide, by decide, by decide⟩⟩,
    ⟨{ dio := { ch := [(0, { pulse := some .dark })] }, time := { ns := 300000#32 } }, (0 : Fin 96),
      ({ fell := true, endMv := 0, outward := false, partnerOut := false, cross := none, lowSince := false, termUa := 0, ownUa := 0, rise50 := true }
      : PulseMeas), ⟨by decide, by decide, by decide, by decide, by decide, by decide⟩⟩,
    ⟨{ dio := { ch := [(0, { pulse := some (.dark : PulseKind) })] } }, (0 : Fin 96),
      ({ fell := true, endMv := 0, outward := false, partnerOut := false, cross := none, lowSince := false, termUa := 0, ownUa := 0, rise50 := true }
      : PulseMeas), (.dark : PulseKind), ⟨by decide, by decide⟩⟩⟩

/-- Every clause of `Obligations.CellSupplies` that has hypotheses has a state and operands that meet them together. -/
theorem witness_CellSupplies :
    (∃ (s : State) (c : Fin 6), (s.dio.getCell c).supply = .normal) ∧
    (∃ (s : State) (c : Fin 6), (s.dio.getCell c).supply = .warn) ∧
    (∃ (s : State) (c : Fin 6), (s.dio.getCell c).supply.good) ∧
    (∃ (s : State) (c : Fin 6), (s.dio.getCell c).supply = .sag) ∧
    (∃ (s : State) (c : Fin 6), (s.dio.getCell c).supply.live) ∧
    (∃ (s : State) (c : Fin 6) (mv : Nat), (s.dio.getCell c).supply = .lost ∧ 18000 ≤ mv) ∧
    (∃ (s : State) (c : Fin 6) (mv : Nat), (s.dio.getCell c).supply = .recovering ∧ mv < 18000) ∧
    (∃ (s : State) (c : Fin 6) (mv : Nat), (s.dio.getCell c).supply = .recovering ∧ 18000 ≤ mv ∧ (s.dio.getCell c).recovTick +
      1000 ≤ s.tickNo) ∧
    (∃ (s : State) (c : Fin 2), (s.aio.getCell c).supply = .normal) ∧
    (∃ (s : State) (c : Fin 2), (s.aio.getCell c).supply = .low) ∧
    (∃ (s : State) (c : Fin 2), (s.aio.getCell c).supply ≠ .lost ∧ s.aio.window = false) ∧
    (∃ (s : State) (c : Fin 2) (mv : Nat), (s.aio.getCell c).supply = .lost ∧ 18000 ≤ mv) :=
  ⟨⟨{ dio := { cell := [(0, { supply := .normal })] } }, (0 : Fin 6), by decide⟩,
    ⟨{ dio := { cell := [(0, { supply := .warn })] } }, (0 : Fin 6), by decide⟩,
    ⟨{ dio := { cell := [(0, { supply := .normal })] } }, (0 : Fin 6), by decide⟩,
    ⟨{ dio := { cell := [(0, { supply := .sag })] } }, (0 : Fin 6), by decide⟩,
    ⟨{ dio := { cell := [(0, { supply := .normal })] } }, (0 : Fin 6), by decide⟩,
    ⟨{ dio := { cell := [(0, { supply := .lost })] } }, (0 : Fin 6), (18000 : Nat), ⟨by decide, by decide⟩⟩,
    ⟨{ dio := { cell := [(0, { supply := .recovering })] } }, (0 : Fin 6), 0, ⟨by decide, by decide⟩⟩,
    ⟨{ dio := { cell := [(0, { supply := .recovering })] }, time := { ns := 10000000#32 } }, (0 : Fin 6), (18000 : Nat), ⟨by
      decide, by decide, by decide⟩⟩,
    ⟨{ aio := { cell := [(0, { supply := .normal })] } }, (0 : Fin 2), by decide⟩,
    ⟨{ aio := { cell := [(0, { supply := .low })] } }, (0 : Fin 2), by decide⟩,
    ⟨{ aio := { window := false, cell := [(0, { supply := .low })] } }, (0 : Fin 2), ⟨by decide, by decide⟩⟩,
    ⟨{ aio := { cell := [(0, { supply := .lost })] } }, (0 : Fin 2), (18000 : Nat), ⟨by decide, by decide⟩⟩⟩

/-- Every clause of `Obligations.Crossings` that has hypotheses has a state and operands that meet them together. -/
theorem witness_Crossings :
    (∃ (s : State) (c : Fin 6) (seq : Nat), (s.dio.getCell c).seqDown < seq ∧ (s.dio.getCell c).safe = false) ∧
    (∃ (s : State) (c : Fin 2) (seq : Nat) (u : UpFrame), (s.aio.getCell c).seqUp < seq) ∧
    (∃ (s : State) (c : Fin 6), (s.dio.getCell c).safe = false) ∧
    (∃ (s : State) (c : Fin 2), (s.aio.getCell c).safe = false) :=
  ⟨⟨{ dio := { cell := [(0, { safe := false })] } }, (0 : Fin 6), (1 : Nat), ⟨by decide, by decide⟩⟩,
    ⟨{}, (0 : Fin 2), (1 : Nat), ({ supplyMv := 24000, currentMa := 0, readback := [] } : UpFrame), by decide⟩,
    ⟨{ dio := { cell := [(0, { safe := false })] } }, (0 : Fin 6), by decide⟩,
    ⟨{ aio := { cell := [(0, { safe := false })] } }, (0 : Fin 2), by decide⟩⟩

/-- Every clause of `Obligations.AioSources` that has hypotheses has a state and operands that meet them together. -/
theorem witness_AioSources :
    (∃ (s : State) (ch : Fin 32) (e : Int), (s.aio.getCh ch).share = .half ∧ (s.aio.getCh ch).inCompl = false ∧ (s.aio.getCh
      ch).cal = false ∧ (s.aio.cellOf ch).safe = false) ∧
    (∃ (s : State) (ch : Fin 32) (l : List (Int × Int)) (iT iOwn : Int) (b : Bool), (s.aio.getCh ch).engaged ∧ ((s.aio.getCh
      ch).share = .half ∨ (s.aio.getCh ch).share = .full) ∧ (s.aio.getCh ch).inCompl = false ∧ (s.aio.getCh ch).cal = false ∧
      (s.aio.cellOf ch).safe = false ∧ l.getLast? = some (iT, iOwn) ∧ (s.aio.getCh ch).pe ≠ s.partnerEngaged) ∧
    (∃ (s : State) (ch : Fin 32) (x y z : Int × Int), (s.aio.getCh ch).engaged ∧ ((s.aio.getCh ch).share = .half ∨ (s.aio.getCh
      ch).share = .full) ∧ (s.aio.getCh ch).inCompl = false ∧ (s.aio.getCh ch).cal = false ∧ (s.aio.cellOf ch).safe = false ∧
      (s.aio.getCh ch).ramp = .none) ∧
    (∃ (s : State) (ch : Fin 32) (i : Int), (s.aio.getCh ch).share = .makeup ∧ (s.aio.getCh ch).cal = false ∧ (s.aio.cellOf
      ch).safe = false ∧ s.partnerEngaged = false ∧ i < 120000) ∧
    (∃ (s : State) (ch : Fin 32) (i : Int), (s.aio.getCh ch).share = .makeup ∧ (s.aio.getCh ch).cal = false ∧ (s.aio.cellOf
      ch).safe = false ∧ s.partnerEngaged ∧ (i - ((s.aio.getCh ch).cmd : Int) / 2).natAbs ≤ 120000) ∧
    (∃ (s : State) (ch : Fin 32), (s.aio.getCh ch).ramp = .release) ∧
    (∃ (s : State) (ch : Fin 32) (i : Int), (s.aio.getCh ch).isOutput ∧ (s.aio.getCh ch).share ≠ .released ∧ (s.aio.getCh
      ch).inCompl = false ∧ 120000 < (i - (s.aio.getCh ch).target).natAbs ∧ AioDiag.sourceFault ∉ (s.aio.getCh ch).active) ∧
    (∃ (s : State) (ch : Fin 32), (s.aio.getCh ch).isOutput ∧ (s.aio.getCh ch).share ≠ .released ∧ AioDiag.openLoop ∉
      (s.aio.getCh ch).active ∧ AioDiag.compliance ∉ (s.aio.getCh ch).active) ∧
    (∃ (s : State) (ch : Fin 32), (s.aio.getCh ch).isOutput ∧ (s.aio.getCh ch).share ≠ .released ∧ 1000000 ≤ (s.aio.getCh
      ch).cmd ∧ AioDiag.openLoop ∉ (s.aio.getCh ch).active) ∧
    (∃ (s : State) (ch : Fin 32), (s.aio.getCh ch).mode ≠ 0 ∧ AioDiag.readbackDiff ∉ (s.aio.getCh ch).active) :=
  ⟨⟨{ aio := { ch := [(0, { share := .half, inCompl := false, cal := false })], cell := [(0, { safe := false })] } }, (0 : Fin
      32), 0, ⟨by decide, by decide, by decide, by decide⟩⟩,
    ⟨{ aio := { ch := [(0, { engaged := true, inCompl := false, cal := false, share := .half, pe := true })], cell := [(0, { safe := false })] } },
      (0 : Fin 32), ([(4000000, 2000000)] : List (Int × Int)), (4000000 : Int), (2000000 : Int), false, ⟨by decide, by decide,
      by decide, by decide, by decide, by decide, by decide⟩⟩,
    ⟨{ aio := { ch := [(0, { engaged := true, inCompl := false, cal := false, ramp := .none, share := .full })], cell := [(0, { safe := false })] } },
      (0 : Fin 32), ((0, 0) : Int × Int), ((0, 0) : Int × Int), ((0, 0) : Int × Int), ⟨by decide, by decide, by decide, by
      decide, by decide, by decide⟩⟩,
    ⟨{ aio := { ch := [(0, { share := .makeup, cal := false })], cell := [(0, { safe := false })] } }, (0 : Fin 32), 0, ⟨by
      decide, by decide, by decide, by decide, by decide⟩⟩,
    ⟨{ aio := { ch := [(0, { share := .makeup, cal := false })], cell := [(0, { safe := false })] }, twin := { partner := true, heard := some { role := 2, link := 2, elig := 0#32, tickOff := 0, clocks := [], axCheck := 0#32, settled := true, locked := true, engaged := true, precarry := false, safetyId := 0#64, tick := 0, acks := [] } } },
      (0 : Fin 32), (120000 : Int), ⟨by decide, by decide, by decide, by decide, by decide⟩⟩,
    ⟨{ aio := { ch := [(0, { ramp := .release })] } }, (0 : Fin 32), by decide⟩,
    ⟨{ aio := { ch := [(0, { cfg := 0x60000000#32, inCompl := false, share := .half })] } }, (0 : Fin 32), (120001 : Int), ⟨by
      decide, by decide, by decide, by decide, by decide⟩⟩,
    ⟨{ aio := { ch := [(0, { cfg := 0x60000000#32, share := .half })] } }, (0 : Fin 32), ⟨by decide, by decide, by decide, by
      decide⟩⟩,
    ⟨{ aio := { ch := [(0, { cfg := 0x60000000#32, share := .half, cmd := 1000000 })] } }, (0 : Fin 32), ⟨by decide, by decide,
      by decide, by decide⟩⟩,
    ⟨{ aio := { ch := [(0, { cfg := 0x20000000#32 })] } }, (0 : Fin 32), ⟨by decide, by decide⟩⟩⟩

/-- Every clause of `Obligations.AioInputs` that has hypotheses has a state and operands that meet them together. -/
theorem witness_AioInputs :
    (∃ (s : State) (ch : Fin 32) (na : Int), (s.aio.getCh ch).cal = false ∧ Bits.get (s.aio.getCh ch).cfg 16 8 ≠ 0) ∧
    (∃ (s : State) (ch : Fin 32) (na : Int) (x : AioDiag), (s.aio.getCh ch).isInput ∧ aioBandOf (s.aio.getCh ch).ne43 na ≠
      (s.aio.getCh ch).band ∧ (aioBandOf (s.aio.getCh ch).ne43 na).diag = some x ∧ ((s.aio.getCh ch).feedOpen = false ∨
      (s.aio.getCh ch).band ≠ .overCurrent)) ∧
    (∃ (s : State) (ch : Fin 32) (na : Int) (x : AioDiag), (s.aio.getCh ch).cal = false ∧ Bits.get (s.aio.getCh ch).cfg 16 8 = 0
      ∧ (s.aio.getCh ch).isInput ∧ (s.aio.getCh ch).band ≠ .overCurrent ∧ aioBandOf (s.aio.getCh ch).ne43 na ≠ (s.aio.getCh
      ch).band ∧ (aioBandOf (s.aio.getCh ch).ne43 na).diag = some x) ∧
    (∃ (s : State) (ch : Fin 32) (na : Int), (s.aio.getCh ch).isLoop ∧ (s.aio.getCh ch).band ≠ .overCurrent ∧ 25000000 < na) ∧
    (∃ (s : State) (ch : Fin 32), (s.aio.getCh ch).isLoop ∧ (s.aio.getCh ch).feedOpen ∧ AioDiag.overCurrent ∈ (s.aio.getCh
      ch).active) :=
  ⟨⟨{ aio := { ch := [(0, { cal := false })] } }, (0 : Fin 32), 0, ⟨by decide, by decide⟩⟩,
    ⟨{ aio := { ch := [(0, { cfg := 0x20000000#32 })] } }, (0 : Fin 32), (-100001 : Int), (.underRange : AioDiag), ⟨by decide,
      by decide, by decide, by decide⟩⟩,
    ⟨{ aio := { ch := [(0, { cal := false, cfg := 0x20000000#32 })] } }, (0 : Fin 32), (-100001 : Int), (.underRange : AioDiag),
      ⟨by decide, by decide, by decide, by decide, by decide, by decide⟩⟩,
    ⟨{ aio := { ch := [(0, { cfg := 0x40000000#32 })] } }, (0 : Fin 32), (25000001 : Int), ⟨by decide, by decide, by decide⟩⟩,
    ⟨{ aio := { ch := [(0, { cfg := 0x40000000#32, feedOpen := true, active := [.overCurrent] })] } }, (0 : Fin 32), ⟨by decide,
      by decide, by decide⟩⟩⟩

/-- Every clause of `Obligations.AioCalibration` that has hypotheses has a state and operands that meet them together. -/
theorem witness_AioCalibration :
    (∃ (s : State) (n : Nat) (w : Bool), Bits.bit s.aio.calCfg 31 ∧ s.aio.window = false ∧ s.calInstant ∧ s.aio.nextCal
      s.aio.calCh = some (n, w) ∧ s.calBlocked n false true = false) ∧
    (∃ (s : State) (n : Nat) (w : Bool) (p q : Bool), Bits.bit s.aio.calCfg 31 ∧ s.aio.window = false ∧ s.calInstant ∧
      s.aio.nextCal s.aio.calCh = some (n, w) ∧ s.calBlocked n p q) ∧
    (∃ (s : State) (o g : Int), s.aio.window ∧ s.aio.calCh < 31 ∧ (s.aio.getCh s.aio.calCh).calPasses o g) ∧
    (∃ (s : State) (o g : Int), s.aio.window ∧ (s.aio.getCh s.aio.calCh).calPasses o g = false) ∧
    (∃ (s : State), s.aio.window ∧ (s.aio.getCh s.aio.calCh).isOutput) :=
  ⟨⟨{ aio := { window := false, ch := [(0, { cfg := 0xFFFFFFFF#32 &&& 0x3FFFFFFF#32 })], cell := [(0, { supply := .normal })] } },
      (0 : Nat), false, ⟨by decide, by decide, by decide, by decide, by decide⟩⟩,
    ⟨{ aio := { window := false, ch := [(0, { cfg := 0xFFFFFFFF#32 &&& 0x3FFFFFFF#32 })] } }, (0 : Nat), false, false, false,
      ⟨by decide, by decide, by decide, by decide, by decide⟩⟩,
    ⟨{ aio := { window := true } }, 0, 0, ⟨by decide, by decide, by decide⟩⟩,
    ⟨{ aio := { window := true } }, (20001 : Int), 0, ⟨by decide, by decide⟩⟩,
    ⟨{ aio := { window := true, ch := [(0, { cfg := 0x60000000#32 })] } }, ⟨by decide, by decide⟩⟩⟩

/-- Every clause of `Obligations.SafetyOutputs` that has hypotheses has a state and operands that meet them together. -/
theorem witness_SafetyOutputs :
    (∃ (s : State) (n : Fin 8), s.partnerSeated = true) ∧
    (∃ (s : State) (n : Fin 8) (d : Bool), Bits.bit s.safe.armed n = true) ∧
    (∃ (s : State) (n : Fin 8), s.safe.hsOn n = true ∧ SoDiag.overload ∉ (s.safe.getSo n).active) ∧
    (∃ (s : State) (n : Fin 8) (t0 : Nat), (s.safe.getSo n).ovlNs = some t0 ∧ s.safe.laneP = true ∧ t0 + 1000000000 ≤ s.nowNs) ∧
    (∃ (s : State) (n : Fin 8), s.safe.on100 s.nowNs n = true ∧ SoDiag.openLoad ∉ (s.safe.getSo n).active) ∧
    (∃ (s : State) (n : Fin 8), s.safe.hsOn n = true) ∧
    (∃ (s : State) (n : Fin 8), s.safe.lsClosed s.nowNs n = true ∧ s.partnerSeated = true ∧ SoDiag.closureFail ∉ (s.safe.getSo
      n).active) ∧
    (∃ (s : State) (n : Fin 8) (t0 : Nat), s.safe.hsOn n = true ∧ (s.safe.getSo n).onNs = some t0 ∧ t0 + 200000000 ≤ s.nowNs ∧
      s.safe.valid.any (fun e => e.2.so n && e.2.type == .sbc) = true) ∧
    (∃ (s : State) (n : Fin 8) (t0 : Nat), s.safe.laneP = true ∧ (s.safe.getSo n).expired = false ∧ (s.safe.getSo n).faultNs =
      some t0 ∧ t0 + Bits.get (s.safe.getSo n).cfg 8 8 * 3600000000000 ≤ s.nowNs) :=
  ⟨⟨{ twin := { partner := true } }, (0 : Fin 8), by decide⟩,
    ⟨{ safe := { armed := 0x80#32 } }, (7 : Fin 8), false, by decide⟩,
    ⟨{ safe := { laneP := true, cellPower := true, idOk := true, lsOk := true, fns := [(0, { w0 := 0x90010000#32 })], fn := [(0, { phase := .active })], seated := true, so := [(0, { onNs := some 0 })] } },
      (0 : Fin 8), ⟨by decide, by decide⟩⟩,
    ⟨{ safe := { so := [(0, { ovlNs := some 0 })], laneP := true }, time := { sec := 1#64 } }, (0 : Fin 8), 0, ⟨by decide, by
      decide, by decide⟩⟩,
    ⟨{ safe := { laneP := true, cellPower := true, idOk := true, lsOk := true, fns := [(0, { w0 := 0x90010000#32 })], fn := [(0, { phase := .active })], seated := true, so := [(0, { onNs := some 0 })] }, time := { ns := 100000000#32 } },
      (0 : Fin 8), ⟨by decide, by decide⟩⟩,
    ⟨{ safe := { laneP := true, cellPower := true, idOk := true, lsOk := true, fns := [(0, { w0 := 0x90010000#32 })], fn := [(0, { phase := .active })], seated := true, so := [(0, { onNs := some 0 })] } },
      (0 : Fin 8), by decide⟩,
    ⟨{ twin := { partner := true }, safe := { cellPower := true, laneHOk := true, laneH := { so := [(0, { used := true })] }, seated := true } },
      (0 : Fin 8), ⟨by decide, by decide, by decide⟩⟩,
    ⟨{ safe := { so := [(0, { onNs := some 0 })], laneP := true, cellPower := true, idOk := true, lsOk := true, fns := [(0, { w0 := 0xA0010000#32 })], fn := [(0, { phase := .active })], seated := true }, time := { ns := 200000000#32 } },
      (0 : Fin 8), 0, ⟨by decide, by decide, by decide, by decide⟩⟩,
    ⟨{ safe := { laneP := true, so := [(0, { expired := false, faultNs := some 0 })] }, time := { sec := 86400#64 } }, (0 : Fin
      8), 0, ⟨by decide, by decide, by decide, by decide⟩⟩⟩

/-- Every clause of `Obligations.SafetyLanes` that has hypotheses has a state and operands that meet them together. -/
theorem witness_SafetyLanes :
    (∃ (s : State) (p : Fin 16) (c1 c2 : Bool), s.safe.cellPower = true) ∧
    (∃ (s : State) (n : Fin 8) (t0 : Nat), (s.safe.getSo n).hDelay = some t0 ∧ t0 + (Tbl.get {} s.safe.laneH.so n).delayH * 9900
      ≤ s.nowNs) ∧
    (∃ (s : State) (e : BitVec 8), s.safe.laneP = false ∧ s.safe.cellPower = true ∧ s.cfg.lanes = true ∧ (∀ t0, s.safe.pFaultNs
      = some t0 → t0 + 100000000 ≤ s.nowNs)) ∧
    (∃ (s : State), s.safe.cellPower = true) ∧
    (∃ (s : State) (p : Fin 16) (two : Bool), s.comparatorDue .h (.sip p two) = true ∧ s.safe.compFailed .h (.sip p two) =
      false) ∧
    (∃ (s : State) (l : Lane) (p : Fin 16) (two : Bool), s.comparatorDue l (.sip p two) = true) ∧
    (∃ (s : State) (l : Lane) (c : CompTerm) (b : Bool), s.comparatorDue l c = false) ∧
    (∃ (s : State), s.safe.lsOk = true) ∧
    (∃ (s : State), s.mod.powered = false) ∧
    (∃ (s : State), s.safe.cellPower = false) ∧
    (∃ (s : State) (n : Fin 8), s.safe.seated = false) :=
  ⟨⟨{ safe := { cellPower := true } }, (0 : Fin 16), false, false, by decide⟩,
    ⟨{ safe := { so := [(0, { hDelay := some 0 })] } }, (0 : Fin 8), 0, ⟨by decide, by decide⟩⟩,
    ⟨{ safe := { laneP := false, cellPower := true }, cfg := { lanes := true } }, 0#8, ⟨by decide, by decide, by decide, by
      decide⟩⟩,
    ⟨{ safe := { cellPower := true } }, by decide⟩,
    ⟨{ safe := { cellPower := true, laneHOk := true }, time := { ns := 50000000#32 } }, (0 : Fin 16), false, ⟨by decide, by
      decide⟩⟩,
    ⟨{ safe := { laneP := true } }, (.p : Lane), (0 : Fin 16), false, by decide⟩,
    ⟨{}, (.p : Lane), (.sip 0 false : CompTerm), false, by decide⟩,
    ⟨{ safe := { lsOk := true } }, by decide⟩,
    ⟨{ mod := { powered := false } }, by decide⟩,
    ⟨{ safe := { cellPower := false } }, by decide⟩,
    ⟨{ safe := { seated := false } }, (0 : Fin 8), by decide⟩⟩

/-- Every clause of `Obligations.SafetyFunctions` that has hypotheses has a state and operands that meet them together. -/
theorem witness_SafetyFunctions :
    (∃ (s : State) (p : Fin 16) (l1 l2 : Bool) (f : Nat) (e : FnEntry), s.safe.laneP = true ∧ (f, e) ∈ s.safe.valid ∧ e.sip p =
      true ∧ pairUsed (Tbl.get 0#32 s.safe.pairs p) = true ∧ levelDemand (Tbl.get 0#32 s.safe.pairs p) l1 l2 = true ∧
      (s.safe.entry f).type ≠ .timedStop ∧ ((s.safe.getFn f).phase = .active ∨ (s.safe.getFn f).phase = .awaitReset)) ∧
    (∃ (s : State) (f : Nat) (e : FnEntry), s.safe.laneP = true ∧ (f, e) ∈ s.safe.valid ∧ (∀ d, (f, d) ∈ s.safe.valid → d = e) ∧
      s.safe.fnDemand e = none ∧ e.monitors = false ∧ (s.safe.getFn f).phase = .demanded) ∧
    (∃ (s : State) (f : Fin 64), s.safe.laneP = true ∧ (s.safe.getFn f).phase = .timing ∧ (s.safe.getFn f).timingNs +
      (s.safe.entry f).delayMs * 999000 ≤ s.nowNs) ∧
    (∃ (s : State) (p : Fin 16) (f : Nat) (e : FnEntry) (t0 : Nat), s.safe.laneP = true ∧ pairUsed (Tbl.get 0#32 s.safe.pairs p)
      = true ∧ (s.safe.getSip p).disP = some t0 ∧ t0 + discNs (Tbl.get 0#32 s.safe.pairs p) ≤ s.nowNs ∧ (s.safe.getSip p).discP
      = false ∧ (f, e) ∈ s.safe.valid ∧ e.sip p = true ∧ (s.safe.getFn f).phase = .demanded) ∧
    (∃ (s : State) (p : Fin 16) (t0 : Nat), s.safe.cellPower = true ∧ pairUsed (Tbl.get 0#32 s.safe.laneH.pairs p) = true ∧
      (s.safe.getSip p).disH = some t0 ∧ t0 + discNs (Tbl.get 0#32 s.safe.laneH.pairs p) ≤ s.nowNs ∧ (s.safe.getSip p).discH =
      false) ∧
    (∃ (s : State) (p : Fin 16), s.safe.cellPower = true ∧ (s.safe.getSip p).discH = true ∧ (s.safe.getSip p).stepH = true ∧
      (s.safe.getSip p).hDemand = false) ∧
    (∃ (s : State) (p : Fin 16), (s.safe.getSip p).stepH = false) ∧
    (∃ (s : State) (p : Fin 16), (s.safe.getSip p).stepP = false) ∧
    (∃ (s : State) (p : Fin 16) (l1 l2 : Bool), s.safe.laneP = true ∧ pairUsed (Tbl.get 0#32 s.safe.pairs p) = true ∧
      levelDemand (Tbl.get 0#32 s.safe.pairs p) l1 l2 = true) ∧
    (∃ (s : State) (p : Fin 16) (l1 l2 : Bool) (t0 f : Nat) (e : FnEntry), (s.safe.getSip p).pressNs = some t0 ∧ s.safe.laneP =
      true ∧ levelDemand (Tbl.get 0#32 s.safe.pairs p) l1 l2 = false ∧ 100000000 ≤ s.nowNs - t0 ∧ s.nowNs - t0 ≤ 5000000000 ∧
      (s.safe.getSip p).discP = false ∧ (f, e) ∈ s.safe.valid ∧ ((s.safe.sampleP s.nowNs p l1 l2).modSip p (fun v =>
      { v with pressNs := none })).resets p f e = true) ∧
    (∃ (s : State) (f : Fin 64) (fb : Bool), s.safe.laneP = true ∧ (s.safe.entry f).valid = true ∧ (s.safe.entry f).monitors =
      true ∧ (s.safe.getFn f).phase ≠ .unused ∧ (s.safe.getFn f).fbSeen = false ∧ fb = (s.safe.getFn f).on ∧ (s.safe.getFn
      f).swNs + (s.safe.entry f).fbTime * 10000000 ≤ s.nowNs) ∧
    (∃ (s : State) (f : Fin 64) (t0 : Nat), s.safe.laneP = true ∧ (s.safe.getFn f).openNs = some t0 ∧ t0 + 1000000000 ≤ s.nowNs
      ∧ (s.safe.getFn f).phase = .faulted ∧ (s.safe.getFn f).faults = [.edm]) ∧
    (∃ (s : State) (n : Fin 8) (t0 f : Nat) (e : FnEntry), (s.safe.getSo n).escal = false ∧ (s.safe.getSo n).openNs = some t0 ∧
      t0 + 12000000 ≤ s.nowNs ∧ (f, e) ∈ s.safe.valid ∧ e.so n = true ∧ (s.safe.getFn f).phase ≠ .unused) :=
  ⟨⟨{ safe := { laneP := true, fns := [(0, ({ w0 := 0x90010001#32 } : FnEntry))], pairs := [(0, 0x80000000#32)], fn := [(0, { phase := .active })] } },
      (0 : Fin 16), false, false, (0 : Nat), ({ w0 := 0x90010001#32 } : FnEntry), ⟨by decide, by decide, by decide, by decide,
      by decide, by decide, by decide⟩⟩,
    ⟨{ safe := { laneP := true, fn := [(0, { phase := .demanded })], fns := [(0, ({ w0 := 0x90010001#32 } : FnEntry))], laneHOk := true, lsOk := true } },
      0, ({ w0 := 0x90010001#32 } : FnEntry), ⟨by decide, by decide,
      (fun d h => by have h2 : ((0 : Nat), d) ∈ [((0 : Nat), ({ w0 := 0x90010001#32 } : FnEntry))] := h; exact (Prod.mk.inj (List.mem_singleton.mp h2)).2),
      by decide, by decide, by decide⟩⟩,
    ⟨{ safe := { laneP := true, fn := [(0, { phase := .timing })] } }, (0 : Fin 64), ⟨by decide, by decide, by decide⟩⟩,
    ⟨{ safe := { laneP := true, sip := [(0, { disP := some 0, discP := false })], fn := [(0, { phase := .demanded })], fns := [(0, ({ w0 := 0x90010001#32 } : FnEntry))], pairs := [(0, 0x80000000#32)] }, time := { sec := 100#64 } },
      (0 : Fin 16), 0, ({ w0 := 0x90010001#32 } : FnEntry), 0, ⟨by decide, by decide, by decide, by decide, by decide, by
      decide, by decide, by decide⟩⟩,
    ⟨{ safe := { cellPower := true, sip := [(0, { disH := some 0, discH := false })], laneH := { pairs := [(0, 0x80000000#32)] } }, time := { sec := 100#64 } },
      (0 : Fin 16), 0, ⟨by decide, by decide, by decide, by decide, by decide⟩⟩,
    ⟨{ safe := { cellPower := true, sip := [(0, { discH := true, stepH := true, h1 := false, h2 := false })] } }, (0 : Fin 16),
      ⟨by decide, by decide, by decide, by decide⟩⟩,
    ⟨{ safe := { sip := [(0, { stepH := false })] } }, (0 : Fin 16), by decide⟩,
    ⟨{ safe := { sip := [(0, { stepP := false })] } }, (0 : Fin 16), by decide⟩,
    ⟨{ safe := { laneP := true, pairs := [(0, 0x80000000#32)] } }, (0 : Fin 16), false, false, ⟨by decide, by decide, by
      decide⟩⟩,
    ⟨{ safe := { sip := [(0, { pressNs := some 0, discP := false })], laneP := true, fns := [(0, ({ w0 := 0x90010001#32 } : FnEntry))], laneHOk := true, lsOk := true, fn := [(0, { phase := .awaitReset })] }, time := { sec := 5#64 } },
      (0 : Fin 16), (true : Bool), (true : Bool), 0, 0, ({ w0 := 0x90010001#32 } : FnEntry), ⟨by decide, by decide, by decide,
      by decide, by decide, by decide, by decide, by decide⟩⟩,
    ⟨{ safe := { laneP := true, fn := [(0, { fbSeen := false, phase := .active })], fns := [(0, { w0 := 0xA0010000#32, w1 := 0x00800000#32, w3 := 5#32 })] } },
      (0 : Fin 64), false, ⟨by decide, by decide, by decide, by decide, by decide, by decide, by decide⟩⟩,
    ⟨{ safe := { laneP := true, fn := [(0, { openNs := some 0, phase := .faulted, faults := [.edm] })] }, time := { sec := 1#64 } },
      (0 : Fin 64), 0, ⟨by decide, by decide, by decide, by decide, by decide⟩⟩,
    ⟨{ safe := { so := [(0, { escal := false, openNs := some 0 })], fns := [(0, ({ w0 := 0x90010001#32 } : FnEntry))], fn := [(0, { phase := .demanded })] }, time := { ns := 12000000#32 } },
      (0 : Fin 8), 0, 0, ({ w0 := 0x90010001#32 } : FnEntry), ⟨by decide, by decide, by decide, by decide, by decide, by
      decide⟩⟩⟩

/-- Every clause of `Obligations.SafetyTests` that has hypotheses has a state and operands that meet them together. -/
theorem witness_SafetyTests :
    (∃ (s : State) (f : Fin 64), s.brakeReady f = true) ∧
    (∃ (s : State) (f : Fin 64) (w : Word), (s.safe.getFn f).running = true ∧ s.safe.laneP = true ∧ (s.safe.getFn f).startNs +
      6000000000 ≤ s.nowNs ∧ w.toNat ≤ (s.safe.entry f).slipLimit.toNat ∧ s.clockSteady (s.safe.entry f).clock = true) ∧
    (∃ (s : State) (f : Fin 64) (w : Word), (s.safe.getFn f).running = true ∧ s.safe.laneP = true ∧ s.nowNs ≤ (s.safe.getFn
      f).startNs + 6000000000 ∧ (s.safe.entry f).slipLimit.toNat < w.toNat ∧ (s.safe.getFn f).phase ≠ .unused) ∧
    (∃ (s : State) (f : Fin 64) (w : Word), (s.safe.getFn f).running = true ∧ s.safe.laneP = true ∧ (s.clockSteady (s.safe.entry
      f).clock = false ∨ (s.safe.getFn f).permit = false)) ∧
    (∃ (s : State) (f : Fin 64) (w : Word), (s.safe.getFn f).running = true ∧ s.safe.laneP = true ∧ (s.safe.entry f).rxEn = true
      ∧ 1500000000 ≤ s.nowNs - (s.safe.getFn f).startNs ∧ s.nowNs - (s.safe.getFn f).startNs ≤ 4000000000) ∧
    (∃ (s : State) (n : Fin 8) (k : Bool), s.safetyTestDue n = true ∧ s.safe.testKind s.nowNs n = some k) ∧
    (∃ (s : State) (n : Fin 8) (k : Bool), s.safetyTestDue n = true ∧ s.safe.testKind s.nowNs n = some k) ∧
    (∃ (s : State) (n : Fin 8), (s.safe.getSo n).stepOver s.nowNs .closure = true) ∧
    (∃ (s : State) (n : Fin 8), (s.safe.getSo n).stepOver s.nowNs .hsDark = true ∧ SoDiag.hsStuck ∉ (s.safe.getSo n).active) :=
  ⟨⟨{ safe := { laneP := true, fns := [(0, { w0 := 0xA0010000#32, w1 := 0x00800000#32, w3 := 5#32 })], fn := [(0, { phase := .demanded, permit := true, offNs := some 0 })] }, twin := { ownLow := true }, time := { clocks := [(0, { state := .locked })], sec := 2#64 }, aio := { sh := [(0, { valid := true })] } },
      (0 : Fin 64), by decide⟩,
    ⟨{ safe := { fn := [(0, { running := true })], laneP := true }, time := { sec := 6#64, clocks := [(0, { state := .locked })] } },
      (0 : Fin 64), 0#32, ⟨by decide, by decide, by decide, by decide, by decide⟩⟩,
    ⟨{ safe := { fn := [(0, { running := true, phase := .active })], laneP := true, fns := [(0, { w0 := 0xA0010000#32, w1 := 0x00800000#32, w3 := 5#32 })] } },
      (0 : Fin 64), (6#32 : Word), ⟨by decide, by decide, by decide, by decide, by decide⟩⟩,
    ⟨{ safe := { fn := [(0, { running := true })], laneP := true } }, (0 : Fin 64), 0#32, ⟨by decide, by decide, by decide⟩⟩,
    ⟨{ safe := { fn := [(0, { running := true })], laneP := true, fns := [(0, { w5 := 0x800#32 })] }, time := { sec := 2#64 } },
      (0 : Fin 64), 0#32, ⟨by decide, by decide, by decide, by decide, by decide⟩⟩,
    ⟨{ time := { ns := 200000000#32 }, safe := { lsOk := true, so := [(0, { cfg := 0x25001800#32 })] } }, (0 : Fin 8), (true :
      Bool), ⟨by decide, by decide⟩⟩,
    ⟨{ time := { ns := 200000000#32 }, safe := { lsOk := true, so := [(0, { cfg := 0x25001800#32 })] } }, (0 : Fin 8), (true :
      Bool), ⟨by decide, by decide⟩⟩,
    ⟨{ safe := { so := [(0, { test := some (0, true) })] }, time := { ns := 200000000#32 } }, (0 : Fin 8), by decide⟩,
    ⟨{ safe := { so := [(0, { test := some (0, false) })] }, time := { ns := 200000000#32 } }, (0 : Fin 8), ⟨by decide, by
      decide⟩⟩⟩

/-- Every clause of `Obligations.AxisCommands` that has hypotheses has a state and operands that meet them together. -/
theorem witness_AxisCommands :
    (∃ (s : State) (a : Fin 4) (seq : Word), seq ≠ (s.ax.get a).lastSeq ∧ (s.ax.get a).state = .disabled ∧ (s.ax.vm = .normal ∨
      s.ax.vm = .high)) ∧
    (∃ (s : State) (a : Fin 4) (seq : Word), seq ≠ (s.ax.get a).lastSeq ∧ (s.ax.get a).state = .idle) ∧
    (∃ (s : State) (a : Fin 4) (seq : Word), seq ≠ (s.ax.get a).lastSeq ∧ (s.ax.get a).state = .moving) ∧
    (∃ (s : State) (a : Fin 4) (seq : Word), seq ≠ (s.ax.get a).lastSeq ∧ (s.ax.get a).state = .moving) ∧
    (∃ (s : State) (a : Fin 4) (seq : Word) (es : List MoveEntry), seq ≠ (s.ax.get a).lastSeq ∧ (s.ax.get a).takesMoves = true ∧
      (s.ax.get a).queue ≠ [] ∧ (s.ax.get a).judge (s.ax.get a).lastTarget (16 - (s.ax.get a).queue.length) es = none) ∧
    (∃ (s : State) (a : Fin 4) (seq : Word) (e : MoveEntry), seq ≠ (s.ax.get a).lastSeq ∧ (s.ax.get a).takesMoves = true ∧
      (s.ax.get a).judge (s.ax.get a).pos 16 [e] = none) ∧
    (∃ (s : State) (a : Fin 4) (seq : Word) (v : Int) (acc : Nat), seq ≠ (s.ax.get a).lastSeq ∧ (s.ax.get a).takesMoves = true ∧
      v.natAbs ≤ 5120000 ∧ acc ≤ 1000000 ∧ ((s.ax.get a).limn = false ∨ 0 ≤ v) ∧ ((s.ax.get a).limp = false ∨ v ≤ 0)) ∧
    (∃ (s : State) (a : Fin 4) (seq : Word) (h : HomeCmd), seq ≠ (s.ax.get a).lastSeq ∧ (s.ax.get a).state = .idle ∧ h.mode = 5
      ∧ h.vel ≤ 5120000 ∧ h.acc ≤ 1000000 ∧ h.dec ≤ 1000000) ∧
    (∃ (s : State) (a : Fin 4) (seq : Word) (ra rd : Nat) (v : Int) (acc : Nat), seq ≠ (s.ax.get a).lastSeq ∧ (s.ax.get a).state
      = .moving ∧ (s.ax.get a).motion = .run v acc ∧ ra ≤ 1000000 ∧ rd ≤ 1000000) ∧
    (∃ (s : State) (a : Fin 4) (seq : Word), seq ≠ (s.ax.get a).lastSeq ∧ (s.ax.get a).state = .faulted ∧ (s.ax.get a).motion =
      .still ∧ s.ax.vm = .normal) :=
  ⟨⟨{ ax := { ax := [(0, { state := .disabled })], vm := .normal } }, (0 : Fin 4), (1#32 : Word), ⟨by decide, by decide, by
      decide⟩⟩,
    ⟨{ ax := { ax := [(0, { state := .idle })] } }, (0 : Fin 4), (1#32 : Word), ⟨by decide, by decide⟩⟩,
    ⟨{ ax := { ax := [(0, { state := .moving })] } }, (0 : Fin 4), (1#32 : Word), ⟨by decide, by decide⟩⟩,
    ⟨{ ax := { ax := [(0, { state := .moving })] } }, (0 : Fin 4), (1#32 : Word), ⟨by decide, by decide⟩⟩,
    ⟨{ ax := { ax := [(0, { state := .moving, queue := [{ target := 5, v := 1, a := 1, d := 1, j := 0, blend := true }] })] } },
      (0 : Fin 4), (1#32 : Word),
      ([{ target := 10, v := 1000, a := 1000000, d := 1000000, j := 0, blend := false, relative := false }] : List MoveEntry),
      ⟨by decide, by decide, by decide, by decide⟩⟩,
    ⟨{ ax := { ax := [(0, { state := .idle })] } }, (0 : Fin 4), (1#32 : Word),
      ({ target := 10, v := 1000, a := 1000000, d := 1000000, j := 0, blend := false, relative := false } : MoveEntry), ⟨by
      decide, by decide, by decide⟩⟩,
    ⟨{ ax := { ax := [(0, { state := .idle })] } }, (0 : Fin 4), (1#32 : Word), (-5120000 : Int), (1000000 : Nat), ⟨by decide,
      by decide, by decide, by decide, by decide, by decide⟩⟩,
    ⟨{ ax := { ax := [(0, { state := .idle })] } }, (0 : Fin 4), (1#32 : Word),
      ({ offset := 0, vel := 5120000, acc := 1000000, dec := 1000000, dir := true, mode := 5 } : HomeCmd), ⟨by decide, by
      decide, by decide, by decide, by decide, by decide⟩⟩,
    ⟨{ ax := { ax := [(0, { state := .moving, motion := .run 0 0 })] } }, (0 : Fin 4), (1#32 : Word), 0, 0, 0, 0, ⟨by decide, by
      decide, by decide, by decide, by decide⟩⟩,
    ⟨{ ax := { ax := [(0, { state := .faulted, motion := .still })], vm := .normal } }, (0 : Fin 4), (1#32 : Word), ⟨by decide,
      by decide, by decide, by decide⟩⟩⟩

/-- Every clause of `Obligations.AxisMotion` that has hypotheses has a state and operands that meet them together. -/
theorem witness_AxisMotion :
    (∃ (x : Axis) (up : Bool) (vel : Int) (acc : Nat), x.nextCfg = none ∧ x.motion = .run vel acc ∧ x.homed = false ∧ x.state =
      .homing) ∧
    (∃ (x : Axis) (up : Bool) (d : Nat), x.nextCfg = none ∧ x.motion = .stop d ∧ x.state = .stopping ∧ x.homing = none ∧
      x.toDisabled = false ∧ (if x.v < 0 then min (x.v + 256 * d) 0 else max (x.v - 256 * d) 0) = 0) ∧
    (∃ (s : State) (a : Fin 4) (p : Int), (s.ax.get a).state = .moving ∧ (s.ax.get a).v < 0 ∧ (s.ax.get a).limn = false ∧
      s.holdsToken = true) ∧
    (∃ (s : State) (a : Fin 4) (sw : AxSwitch) (act : Bool) (p : Int), (s.ax.get a).state ≠ .homing ∧ (s.ax.get a).switch sw ≠
      act ∧ s.holdsToken = false ∧ s.solo = false) ∧
    (∃ (s : State) (a : Fin 4) (p : Int) (h : Homing), (s.ax.get a).state = .homing ∧ (s.ax.get a).homing = some h ∧ h.cmd.mode
      = 0 ∧ h.phase = .search ∧ (s.ax.get a).home = false ∧ s.holdsToken = true) ∧
    (∃ (s : State) (a : Fin 4), (s.ax.get a).stallWatched = true ∧ (s.ax.get a).state = .moving ∧ (s.ax.get a).unverified = true
      ∧ s.holdsToken = true) ∧
    (∃ (s : State) (a : Fin 4), (s.ax.get a).bridge = true ∧ (s.ax.get a).v = 0 ∧ (s.ax.get a).stepNs + Bits.get (s.ax.get
      a).cfg.config 8 7 * 10000000 ≤ s.nowNs) ∧
    (∃ (s : State) (a : Fin 4) (sw : AxSwitch) (act : Bool) (p : Int), (s.ax.get a).switch sw = act) ∧
    (∃ (s : State) (a : Fin 4), (s.ax.get a).motion ≠ .still ∧ (s.ax.get a).savedNs + 1000000 ≤ s.nowNs) :=
  ⟨⟨({ nextCfg := none, motion := .run 0 0, homed := false, state := .homing } : Axis), false, 0, 0, ⟨by decide, by decide, by
      decide, by decide⟩⟩,
    ⟨({ nextCfg := none, motion := .stop 0, state := .stopping, homing := none, toDisabled := false } : Axis), false, 0, ⟨by
      decide, by decide, by decide, by decide, by decide, by decide⟩⟩,
    ⟨{ ax := { ax := [(0, { state := .moving, limn := false, v := -1 })] }, twin := { ownLow := true } }, (0 : Fin 4), 0, ⟨by
      decide, by decide, by decide, by decide⟩⟩,
    ⟨{}, (0 : Fin 4), (.home : AxSwitch), (true : Bool), 0, ⟨by decide, by decide, by decide, by decide⟩⟩,
    ⟨{ ax := { ax := [(0, { state := .homing, homing := some ({ cmd := { offset := 0, vel := 5120000, acc := 1000000, dec := 1000000, dir := true, mode := 0 }, pos := true } : Homing), home := false })] }, twin := { ownLow := true } },
      (0 : Fin 4), 0,
      ({ cmd := { offset := 0, vel := 5120000, acc := 1000000, dec := 1000000, dir := true, mode := 0 }, pos := true } :
      Homing), ⟨by decide, by decide, by decide, by decide, by decide, by decide⟩⟩,
    ⟨{ ax := { ax := [(0, { state := .moving, unverified := true, cfg := { stall := 0x80005A04#32 }, bridge := true })] }, twin := { ownLow := true } },
      (0 : Fin 4), ⟨by decide, by decide, by decide, by decide⟩⟩,
    ⟨{ ax := { ax := [(0, { bridge := true, v := 0 })] }, time := { sec := 1#64 } }, (0 : Fin 4), ⟨by decide, by decide, by
      decide⟩⟩,
    ⟨{}, (0 : Fin 4), (.home : AxSwitch), false, 0, by decide⟩,
    ⟨{ ax := { ax := [(0, { v := 1, motion := .moves })] }, time := { sec := 1#64 } }, (0 : Fin 4), ⟨by decide, by decide⟩⟩⟩

/-- Every clause of `Obligations.AxisFaults` that has hypotheses has a state and operands that meet them together. -/
theorem witness_AxisFaults :
    (∃ (s : State) (a : Fin 4), (s.ax.get a).state ≠ .disabled ∧ (s.ax.get a).unverified = true) ∧
    (∃ (s : State) (a : Fin 4), (s.ax.get a).state = .moving ∧ (s.ax.get a).unverified = true) ∧
    (∃ (s : State) (a : Fin 4), s.holdsToken = true ∧ (s.ax.get a).state = .faulted ∧ (s.ax.get a).fault = 2 ∧ s.partnerEligible
      = false ∧ s.twin.regions = []) ∧
    (∃ (s : State) (a : Fin 4), s.role = .shadow) ∧
    (∃ (s : State) (a : Fin 4), s.role = .shadow ∧ (∀ b : Fin 4, b ≠ a → (s.ax.get b).bridgeBad = false)) ∧
    (∃ (s : State) (a b : Fin 4), s.role = .shadow ∧ b ≠ a ∧ (s.ax.get b).bridgeBad = true) ∧
    (∃ (s : State) (mv : Nat), mv < 10500 ∧ s.ax.vm ≠ .low) ∧
    (∃ (s : State) (mv : Nat), 55000 < mv ∧ s.ax.vm ≠ .above) ∧
    (∃ (s : State), 52000 < s.ax.mv ∧ s.ax.vm = .normal) ∧
    (∃ (s : State), 11500 ≤ s.ax.mv ∧ s.ax.mv ≤ 52000 ∧ s.ax.vm = .low) :=
  ⟨⟨{ ax := { ax := [(0, { unverified := true, state := .idle })] } }, (0 : Fin 4), ⟨by decide, by decide⟩⟩,
    ⟨{ ax := { ax := [(0, { state := .moving, unverified := true })] } }, (0 : Fin 4), ⟨by decide, by decide⟩⟩,
    ⟨{ twin := { ownLow := true, regions := [] }, ax := { ax := [(0, { state := .faulted, fault := 2 })] } }, (0 : Fin 4), ⟨by
      decide, by decide, by decide, by decide, by decide⟩⟩,
    ⟨{ twin := { started := true, began := true } }, (0 : Fin 4), by decide⟩,
    ⟨{ twin := { started := true, began := true } }, (0 : Fin 4), ⟨by decide, by decide⟩⟩,
    ⟨{ twin := { started := true, began := true }, ax := { ax := [(1, { bridgeBad := true })] } }, (0 : Fin 4), (1 : Fin 4), ⟨by
      decide, by decide, by decide⟩⟩,
    ⟨{ ax := { vm := .normal } }, (10499 : Nat), ⟨by decide, by decide⟩⟩,
    ⟨{}, (55001 : Nat), ⟨by decide, by decide⟩⟩,
    ⟨{ ax := { vm := .normal, mv := 52001 } }, ⟨by decide, by decide⟩⟩,
    ⟨{ ax := { vm := .low, mv := 52000 } }, ⟨by decide, by decide, by decide⟩⟩⟩

/-- Every clause of `Obligations.PanelRequests` that has hypotheses has a state and operands that meet them together. -/
theorem witness_PanelRequests :
    (∃ (s : State) (o : Origin) (id : Half) (r : Rect) (len : Nat) (bs : List Byte), s.panelDriving = true ∧ s.pnl.judge (.write
      r len bs) = none ∧ s.pnl.waiting = [] ∧ s.pnl.mode = 1 ∧ s.pnl.copying = false) ∧
    (∃ (s : State) (o : Origin) (id : Half) (r : Rect) (len : Nat) (bs : List Byte), s.panelDriving = true ∧ s.pnl.judge (.write
      r len bs) = none ∧ s.pnl.waiting = [] ∧ s.pnl.mode = 2 ∧ s.pnl.refresh = false ∧ s.pnl.covered r = true) ∧
    (∃ (s : State) (o : Origin) (id : Half), s.panelDriving = true ∧ s.pnl.judge .present = none ∧ s.pnl.nextNs = none) ∧
    (∃ (s : State) (o : Origin) (id : Half) (t u : Nat), s.panelDriving = true ∧ s.pnl.judge .present = none ∧ s.pnl.nextNs =
      some t ∧ s.pnl.inFrame = true ∧ s.pnl.copying = false ∧ u = max ((s.pnl.frameNs + 1000000000 / s.pnl.rateActive) / 10 *
      10) ((s.tickNo + 1) * 10000) ∧ u < t) ∧
    (∃ (s : State) (o : Origin) (id : Half) (r : Rect) (wf : Fin 8), s.panelDriving = true ∧ s.pnl.judge (.update r wf) = none) ∧
    (∃ (s : State) (o : Origin) (id : Half) (v : Int), s.panelDriving = true ∧ s.pnl.judge (.temp v) = none ∧ Bits.bit
      s.pnl.cfg.config 26 = true) ∧
    (∃ (s : State) (o : Origin) (id : Half), s.panelDriving = true ∧ s.pnl.judge .powerOn = none ∧ s.pnl.power = false ∧
      s.joined = false) ∧
    (∃ (s : State) (o : Origin) (id : Half), s.panelDriving = true ∧ s.pnl.judge .powerOff = none ∧ s.joined = false) ∧
    (∃ (s : State) (o : Origin) (id : Half) (r : Rect) (len : Nat) (bs : List Byte) (wf : Fin 8) (v : Int), s.panelDriving =
      false) :=
  ⟨⟨{ twin := { ownLow := true }, pnl := { waiting := [], copying := false, cfg := { config := 0x40000000#32, geometry := 0x00080008#32 }, power := true } },
      .self, 0#16, ({ x := 0, y := 0, w := 1, h := 1 } : Rect), (3 : Nat), ([1#8, 2#8, 3#8] : List Byte), ⟨by decide, by decide,
      by decide, by decide, by decide⟩⟩,
    ⟨{ twin := { ownLow := true }, pnl := { waiting := [], refresh := false, cfg := { config := 0x80000000#32, geometry := 0x00080008#32 }, power := true, slots := [(0, { cur := some { jseq := 1, id := 0#16, active := true, completion := false, wf := 0, band := 0, rect := { x := 4, y := 7, w := 4, h := 1 }, frame := 0, frames := 1, row := 0, start := 0#64 }, running := true })] } },
      .self, 0#16, ({ x := 4, y := 7, w := 4, h := 1 } : Rect), (2 : Nat), ([1#8, 2#8] : List Byte), ⟨by decide, by decide, by
      decide, by decide, by decide, by decide⟩⟩,
    ⟨{ twin := { ownLow := true }, pnl := { nextNs := none, cfg := { config := 0x40000000#32, geometry := 0x00080008#32 }, power := true } },
      .self, 0#16, ⟨by decide, by decide, by decide⟩⟩,
    ⟨{ twin := { ownLow := true }, pnl := { nextNs := some (20000000 : Nat), inFrame := true, copying := false, cfg := { config := 0x40000000#32, geometry := 0x00080008#32 }, power := true } },
      .self, 0#16, (20000000 : Nat), (16666660 : Nat), ⟨by decide, by decide, by decide, by decide, by decide, by decide, by
      decide⟩⟩,
    ⟨{ twin := { ownLow := true }, pnl := { cfg := { config := 0x80000000#32, geometry := 0x00080008#32 }, power := true } },
      .self, 0#16, ({ x := 4, y := 7, w := 4, h := 1 } : Rect), (0 : Fin 8), ⟨by decide, by decide⟩⟩,
    ⟨{ twin := { ownLow := true }, pnl := { cfg := { config := 0x84000000#32 }, power := true } }, .self, 0#16, 0, ⟨by decide,
      by decide, by decide⟩⟩,
    ⟨{ twin := { ownLow := true }, pnl := { power := false, cfg := { config := 0x40000000#32, geometry := 0x00080008#32 } } },
      .self, 0#16, ⟨by decide, by decide, by decide, by decide⟩⟩,
    ⟨{ twin := { ownLow := true }, pnl := { cfg := { config := 0x40000000#32, geometry := 0x00080008#32 }, power := true } },
      .self, 0#16, ⟨by decide, by decide, by decide⟩⟩,
    ⟨{}, .self, 0#16, ({ x := 0, y := 0, w := 1, h := 1 } : Rect), 0, [], (0 : Fin 8), 0, by decide⟩⟩

/-- Every clause of `Obligations.PanelFrames` that has hypotheses has a state and operands that meet them together. -/
theorem witness_PanelFrames :
    (∃ (s : State) (t : Nat) (r : PReq) (rest : List PReq), s.pnl.nextNs = some t ∧ s.pnl.lcdRuns = true ∧ t < (s.tickNo + 1) *
      10000 ∧ s.pnl.inFrame = true ∧ s.pnl.copying = false ∧ takeFirst (fun r => r.op == .present) s.pnl.waiting = some (r,
      rest) ∧ s.pnl.hz = s.pnl.rateActive) ∧
    (∃ (s : State) (t : Nat), s.pnl.nextNs = some t ∧ s.pnl.lcdRuns = true ∧ t < (s.tickNo + 1) * 10000 ∧ s.pnl.inFrame = true ∧
      s.pnl.copying = true ∧ s.pnl.idleFrames = 0 ∧ s.pnl.hz = s.pnl.rateActive) ∧
    (∃ (s : State), s.pnl.copying = true ∧ s.pnl.waiting = []) ∧
    (∃ (s : State) (t : Nat) (r : PReq) (q : Rect) (wf : Nat), s.epInstant = some t ∧ s.pnl.mode = 2 ∧ s.pnl.power = true ∧
      s.pnl.pg = true ∧ s.pnl.faulted = false ∧ s.holdsToken = true ∧ s.joined = false ∧ s.pnl.inFrame = false ∧ s.pnl.slots =
      [] ∧ s.pnl.refresh = false ∧ r.op = .update q wf ∧ s.pnl.waiting = [r] ∧ 0 < s.pnl.framesOf wf) ∧
    (∃ (s : State) (v : Int), Bits.bit s.pnl.cfg.config 26 = false ∧ (∀ u, s.pnl.measNs = some u → u + 1000000000 ≤ s.nowNs)) ∧
    (∃ (s : State), Bits.bit s.pnl.cfg.config 26 = false ∧ (∀ u, s.pnl.measNs = some u → u + 1000000000 ≤ s.nowNs)) ∧
    (∃ (s : State), Bits.bit s.pnl.cfg.config 26 = true ∧ s.pnl.tempNs + 600000000000 ≤ s.nowNs) ∧
    (∃ (s : State) (row : Option Nat), s.pnl.pg = true) ∧
    (∃ (s : State), s.pnl.pg = false ∧ s.pnl.mode = 1) ∧
    (∃ (s : State), s.pnl.pg = false ∧ s.pnl.mode = 2 ∧ s.panelDriving = true) ∧
    (∃ (s : State), s.leads = false ∧ s.twin.regions = []) :=
  ⟨⟨{ pnl := { nextNs := some 0, inFrame := true, copying := false, cfg := { config := 0x40000000#32, geometry := 0x00080008#32 }, power := true, pg := true, waiting := [({ id := 0#16, op := .present, origin := .self, acked := true } : PReq)] } },
      0, ({ id := 0#16, op := .present, origin := .self, acked := true } : PReq), [], ⟨by decide, by decide, by decide, by
      decide, by decide, by decide, by decide⟩⟩,
    ⟨{ pnl := { nextNs := some 0, inFrame := true, copying := true, cfg := { config := 0x40000000#32, geometry := 0x00080008#32 }, power := true, pg := true } },
      0, ⟨by decide, by decide, by decide, by decide, by decide, by decide, by decide⟩⟩,
    ⟨{ pnl := { copying := true, waiting := [] } }, ⟨by decide, by decide⟩⟩,
    ⟨{ pnl := { power := true, pg := true, faulted := false, inFrame := false, slots := [], refresh := false, waiting := [({ id := 0#16, op := .update { x := 4, y := 7, w := 4, h := 1 } 0, origin := .self, acked := true } : PReq)], cfg := { config := 0x80000000#32, geometry := 0x00080008#32, wave := { waveforms := 1, frames := [(0, [[]])] } } }, twin := { ownLow := true } },
      0, ({ id := 0#16, op := .update { x := 4, y := 7, w := 4, h := 1 } 0, origin := .self, acked := true } : PReq),
      ({ x := 4, y := 7, w := 4, h := 1 } : Rect), 0, ⟨by decide, by decide, by decide, by decide, by decide, by decide, by
      decide, by decide, by decide, by decide, by decide, by decide, by decide⟩⟩,
    ⟨{}, 0, ⟨by decide, by decide⟩⟩,
    ⟨{}, ⟨by decide, by decide⟩⟩,
    ⟨{ pnl := { cfg := { config := 0x04000000#32 } }, time := { sec := 600#64 } }, ⟨by decide, by decide⟩⟩,
    ⟨{ pnl := { pg := true } }, none, by decide⟩,
    ⟨{ pnl := { pg := false, cfg := { config := 0x40000000#32 } } }, ⟨by decide, by decide⟩⟩,
    ⟨{ pnl := { pg := false, cfg := { config := 0x80000000#32 } }, twin := { ownLow := true } }, ⟨by decide, by decide, by
      decide⟩⟩,
    ⟨{ twin := { regions := [] } }, ⟨by decide, by decide⟩⟩⟩

/-- Every clause of `Obligations.RecorderEvents` that has hypotheses has a state and operands that meet them together. -/
theorem witness_RecorderEvents :
    (∃ (s : State) (q : RecReq) (l : List RecReq), s.recorder.failed = false ∧ s.svDown = false ∧ s.recorder.queue = q :: l) ∧
    (∃ (s : State), s.recorder.failed = true) ∧
    (∃ (s : State) (n : Fin 256), (Tbl.get {} s.recorder.trigs n).holding = true ∧ (Tbl.get {} s.recorder.trigs n).firedNs +
      (Tbl.get {} s.recorder.trigDefs n).holdoff * 1000000 ≤ s.nowNs) ∧
    (∃ (s : State) (n : Fin 256), s.nowNs < (Tbl.get {} s.recorder.trigs n).firedNs + (Tbl.get {} s.recorder.trigDefs n).holdoff
      * 1000000) ∧
    (∃ (s : State), s.nowNs / 1000000000 = s.recorder.winSec) ∧
    (∃ (s : State), s.nowNs / 1000000000 ≠ s.recorder.winSec ∧ (s.recorder.refused = [] ∨ s.recorder.failed = true)) ∧
    (∃ (s : State) (src n : Nat), s.nowNs / 1000000000 ≠ s.recorder.winSec ∧ s.recorder.failed = false ∧ s.recorder.refused =
      [(src, n)]) ∧
    (∃ (s : State) (r : Rights) (w : Word), s.mnt.session = some r ∧ r.write = true) ∧
    (∃ (s : State) (w : Word), s.mnt.session = none) :=
  ⟨⟨{ recorder := { failed := false, queue := [({} : RecReq)] } }, ({} : RecReq), [], ⟨by decide, by decide, by decide⟩⟩,
    ⟨{ recorder := { failed := true } }, by decide⟩,
    ⟨{ recorder := { trigs := [(0, { holding := true })] } }, (0 : Fin 256), ⟨by decide, by decide⟩⟩,
    ⟨{ recorder := { trigDefs := [(0, { holdoff := 1 })] } }, (0 : Fin 256), by decide⟩,
    ⟨{}, by decide⟩,
    ⟨{ time := { sec := 1#64 } }, ⟨by decide, by decide⟩⟩,
    ⟨{ recorder := { failed := false, refused := [(0, 0)] }, time := { sec := 1#64 } }, 0, 0, ⟨by decide, by decide, by decide⟩⟩,
    ⟨{ mnt := { session := some ({ write := true } : Rights) } }, ({ write := true } : Rights), 0#32, ⟨by decide, by decide⟩⟩,
    ⟨{ mnt := { session := none } }, 0#32, by decide⟩⟩

/-- Every clause of `Obligations.DescriptorService` that has hypotheses has a state and operands that meet them together. -/
theorem witness_DescriptorService :
    (∃ (s : State) (l : List (Fin 8 × List Desc)), (s.mod.failed = true ∨ s.svDown = true)) ∧
    (∃ (s : State) (n : Fin 8) (d : Desc), s.mod.failed = false ∧ s.svDown = false ∧ s.host.busMaster = true ∧ s.mnt.cmds = [] ∧
      (s.host.sq n).state = .enabled ∧ (s.host.cq (s.host.sq n).bound).state = .enabled ∧ s.host.taken = [] ∧ 0 < (s.host.sq
      n).used ∧ 0 < (s.host.cq (s.host.sq n).bound).room ∧ d.opcode = 0#8 ∧ descOk d = true) ∧
    (∃ (s : State) (n : Fin 8) (d : Desc), s.mod.failed = false ∧ s.svDown = false ∧ s.host.busMaster = true ∧ s.mnt.cmds = [] ∧
      (s.host.sq n).state = .enabled ∧ (s.host.cq (s.host.sq n).bound).state = .enabled ∧ d.fence = false ∧ s.mod.ready = true ∧
      0 < (s.host.sq n).used ∧ (s.host.cq (s.host.sq n).bound).room ≤ s.host.reserved (s.host.sq n).bound) ∧
    (∃ (s : State) (n : Fin 8) (d : Desc), s.mod.failed = false ∧ s.svDown = false ∧ s.host.busMaster = true ∧ s.mnt.cmds = [] ∧
      (s.host.sq n).state = .enabled ∧ (s.host.cq (s.host.sq n).bound).state = .enabled ∧ s.host.taken = [] ∧ s.mod.ready = true
      ∧ 0 < (s.host.sq n).used ∧ 0 < (s.host.cq (s.host.sq n).bound).room ∧ descListed d = true ∧ descOk d = true ∧ descBuffered
      d = true) ∧
    (∃ (s : State) (n : Fin 8) (d : Desc) (k : Nat) (data : List Byte) (o : ImageObj) (p : Package × Option Nat),
      s.host.busMaster = true ∧ s.svDown = false ∧ s.mod.failed = false ∧ s.host.taken =
      [{ sq := n.val, desc := d, reading := true, sinceNs := k }] ∧ d.opcode = 0x0F#8 ∧ d.dataLen = 4 * Bits.leAt d.params 8 1 ∧
      Bits.leAt d.params 8 1 ≤ 112 ∧ s.recorder.failed = false ∧ s.recorder.overQuota 13 = false) ∧
    (∃ (s : State) (n : Fin 8) (tag : Word) (data : List Byte) (o : ImageObj) (p : Package × Option Nat), (s.host.busMaster =
      false ∨ s.svDown = true ∨ s.mod.failed = true)) ∧
    (∃ (s : State) (n : Fin 8) (tag : Word) (how : DmaFail) (places : Nat) (a : Taken), a ∈ s.host.taken ∧ a.sq = n.val ∧
      a.desc.tag = tag ∧ a.reading = true) :=
  ⟨⟨{ mod := { failed := true } }, [], by decide⟩,
    ⟨{ mod := { failed := false }, host := { busMaster := true, sqs := [(0, { state := .enabled, cfg := 0x01001000#32, tail := 1 })], taken := [], cqs := [(0, { state := .enabled, cfg := 0x01000101#32 })] }, mnt := { cmds := [] } },
      (0 : Fin 8),
      ({ ({ opcode := 0#8, fence := false, reserved := false, tag := 0#32, dataAddr := 0#64, dataLen := 0, params := [] } : Desc) with opcode := 0#8 }
      : Desc), ⟨by decide, by decide, by decide, by decide, by decide, by decide, by decide, by decide, by decide, by decide, by
      decide⟩⟩,
    ⟨{ mod := { failed := false, ready := true }, host := { busMaster := true, sqs := [(0, { state := .enabled, cfg := 0x01001000#32, tail := 1 })], cqs := [(0, { state := .enabled, cfg := 0x00000101#32 })] }, mnt := { cmds := [] } },
      (0 : Fin 8),
      ({ ({ opcode := 0#8, fence := false, reserved := false, tag := 0#32, dataAddr := 0#64, dataLen := 0, params := [] } : Desc) with fence := false }
      : Desc), ⟨by decide, by decide, by decide, by decide, by decide, by decide, by decide, by decide, by decide, by decide⟩⟩,
    ⟨{ mod := { failed := false, ready := true }, host := { busMaster := true, sqs := [(0, { state := .enabled, cfg := 0x01001000#32, tail := 1 })], taken := [], cqs := [(0, { state := .enabled, cfg := 0x01000101#32 })] }, mnt := { cmds := [] } },
      (0 : Fin 8),
      ({ opcode := 0x05#8, fence := false, reserved := false, tag := 0#32, dataAddr := 0#64, dataLen := 0, params := [] } :
      Desc), ⟨by decide, by decide, by decide, by decide, by decide, by decide, by decide, by decide, by decide, by decide, by
      decide, by decide, by decide⟩⟩,
    ⟨{ host := { busMaster := true, taken := [{ sq := (0 : Fin 8).val, desc := ({ opcode := 0x0F#8, fence := false, reserved := false, tag := 0#32, dataAddr := 0#64, dataLen := 448, params := [0#8, 0#8, 0#8, 0#8, 0#8, 0#8, 0#8, 0#8, 112#8] } : Desc), reading := true, sinceNs := 0 }] }, mod := { failed := false }, recorder := { failed := false } },
      (0 : Fin 8),
      ({ opcode := 0x0F#8, fence := false, reserved := false, tag := 0#32, dataAddr := 0#64, dataLen := 448, params := [0#8, 0#8, 0#8, 0#8, 0#8, 0#8, 0#8, 0#8, 112#8] }
      : Desc), 0, [], .none, ({}, none), ⟨by decide, by decide, by decide, by decide, by decide, by decide, by decide, by
      decide, by decide⟩⟩,
    ⟨{}, (0 : Fin 8), 0#32, [], .none, ({}, none), by decide⟩,
    ⟨{ host := { taken := [({ desc := { opcode := 0#8, fence := false, reserved := false, tag := 0#32, dataAddr := 0#64, dataLen := 0, params := [] }, reading := true } : Taken)] } },
      (0 : Fin 8), 0#32, (.timeout : DmaFail), 0,
      ({ desc := { opcode := 0#8, fence := false, reserved := false, tag := 0#32, dataAddr := 0#64, dataLen := 0, params := [] }, reading := true }
      : Taken), ⟨by decide, by decide, by decide, by decide⟩⟩⟩

/-- Every clause of `Obligations.HostLink` that has hypotheses has a state and operands that meet them together. -/
theorem witness_HostLink :
    (∃ (s : State) (en mask : Bool), s.host.pba = 0#32 ∧ s.host.keptMsix = []) ∧
    (∃ (s : State) (i : Instr), i ∈ [Instr.pcieLinkDown, .pcieHotReset] ∧ s.host.linkUp = true ∧ s.xch.cur.state ≠ .staging) ∧
    (∃ (s : State), s.host.linkUp = true ∧ s.xch.cur.state ≠ .staging) ∧
    (∃ (s : State) (i : Instr) (n : Fin 8) (tag : Word), i ∈ [Instr.pcieLinkDown, .pcieHotReset, .flr] ∧ s.host.linkUp = true ∧
      s.xch.cur.state = .staging ∧ s.xch.written = false ∧ s.xch.stageOrg = .host n tag) ∧
    (∃ (s : State) (sp wd : BitVec 2), s.host.linkUp = false ∧ s.cfg.phase ≠ .rom) ∧
    (∃ (s : State) (sp wd : BitVec 2), s.cfg.phase = .rom) :=
  ⟨⟨{ host := { pba := 0#32, keptMsix := [] } }, false, false, ⟨by decide, by decide⟩⟩,
    ⟨{ host := { linkUp := true } }, (.pcieHotReset : Instr), ⟨by decide, by decide, by decide⟩⟩,
    ⟨{ host := { linkUp := true } }, ⟨by decide, by decide⟩⟩,
    ⟨{ host := { linkUp := true }, xch := { cur := { state := .staging }, written := false, stageOrg := .host (0 : Fin 8) 0#32 } },
      (.flr : Instr), (0 : Fin 8), 0#32, ⟨by decide, by decide, by decide, by decide, by decide⟩⟩,
    ⟨{ host := { linkUp := false }, cfg := { phase := .ready } }, 0#2, 0#2, ⟨by decide, by decide⟩⟩,
    ⟨{ cfg := { phase := .rom } }, 0#2, 0#2, by decide⟩⟩

/-- Every clause of `Obligations.RingStates` that has hypotheses has a state and operands that meet them together. -/
theorem witness_RingStates :
    (∃ (s : State) (n : Fin 8) (tail : Nat), (s.host.sq n).state = .enabled ∧ tail ≠ (s.host.sq n).tail ∧ tail < (s.host.sq
      n).size ∧ tail < 4096 ∧ (tail + (s.host.sq n).size - (s.host.sq n).tail) % (s.host.sq n).size ≤ (s.host.sq n).size - 1 -
      (s.host.sq n).used) ∧
    (∃ (s : State) (n : Fin 8) (tail : Nat), (s.host.sq n).state = .enabled ∧ tail ≠ (s.host.sq n).tail ∧ tail < 4096 ∧
      ((s.host.sq n).size ≤ tail ∨ (s.host.sq n).size - 1 - (s.host.sq n).used < (tail + (s.host.sq n).size - (s.host.sq
      n).tail) % (s.host.sq n).size)) ∧
    (∃ (s : State) (n : Fin 8) (head : Nat), (s.host.cq n).state = .enabled ∧ head ≠ (s.host.cq n).head ∧ head < (s.host.cq
      n).size ∧ head < 4096 ∧ (head + (s.host.cq n).size - (s.host.cq n).head) % (s.host.cq n).size ≤ (s.host.cq n).used) ∧
    (∃ (s : State) (n : Fin 8) (head : Nat), (s.host.cq n).state = .enabled ∧ head ≠ (s.host.cq n).head ∧ head < 4096 ∧
      ((s.host.cq n).size ≤ head ∨ (s.host.cq n).used < (head + (s.host.cq n).size - (s.host.cq n).head) % (s.host.cq n).size)) ∧
    (∃ (s : State) (head : Nat), s.host.eq.state = .enabled ∧ head ≠ s.host.eq.head ∧ head < s.host.eq.size ∧ head < 4096 ∧
      (head + s.host.eq.size - s.host.eq.head) % s.host.eq.size ≤ s.host.eq.used) ∧
    (∃ (s : State) (head : Nat), s.host.eq.state = .enabled ∧ head ≠ s.host.eq.head ∧ head < 4096 ∧ (s.host.eq.size ≤ head ∨
      s.host.eq.used < (head + s.host.eq.size - s.host.eq.head) % s.host.eq.size)) ∧
    (∃ (s : State) (n : Fin 8) (i : Nat) (how : DmaFail), (s.host.sq n).state = .enabled) ∧
    (∃ (s : State) (n : Fin 8) (i : Nat) (how : DmaFail), (s.host.cq n).state = .enabled) ∧
    (∃ (s : State) (n : Fin 8), (s.host.sq n).state = .stopping ∧ s.host.inFlight n = 0) ∧
    (∃ (s : State) (n : Fin 8), (s.host.cq n).irqPend ≠ 0 ∧ (s.host.cq n).irqNs + Bits.get (s.host.cq n).cfg 0 8 * 10000 ≤
      s.nowNs + 9999) ∧
    (∃ (s : State), s.host.eq.irqPend ≠ 0 ∧ s.host.eq.irqNs + Bits.get s.host.eq.cfg 0 8 * 10000 ≤ s.nowNs + 9999 ∧
      s.host.busMaster = true ∧ s.host.msixEn = true ∧ s.host.masked (Bits.get s.host.eq.cfg 16 5) = false) ∧
    (∃ (s : State) (n : Fin 8), ((s.host.cq n).irqPend = 0 ∨ s.nowNs + 9999 < (s.host.cq n).irqNs + Bits.get (s.host.cq n).cfg 0
      8 * 10000)) :=
  ⟨⟨{ host := { sqs := [(0, { state := .enabled, cfg := 0x01001000#32 })] } }, (0 : Fin 8), (1 : Nat), ⟨by decide, by decide,
      by decide, by decide, by decide⟩⟩,
    ⟨{ host := { sqs := [(0, { state := .enabled, cfg := 0x01001000#32 })] } }, (0 : Fin 8), (2 : Nat), ⟨by decide, by decide,
      by decide, by decide⟩⟩,
    ⟨{ host := { cqs := [(0, { state := .enabled, cfg := 0x01000101#32, tail := 1 })] } }, (0 : Fin 8), (1 : Nat), ⟨by decide,
      by decide, by decide, by decide, by decide⟩⟩,
    ⟨{ host := { cqs := [(0, { state := .enabled, cfg := 0x01000101#32 })] } }, (0 : Fin 8), (1 : Nat), ⟨by decide, by decide,
      by decide, by decide⟩⟩,
    ⟨{ host := { eq := { state := .enabled, cfg := 0x01000101#32, tail := 1 } } }, (1 : Nat), ⟨by decide, by decide, by decide,
      by decide, by decide⟩⟩,
    ⟨{ host := { eq := { state := .enabled, cfg := 0x01000101#32 } } }, (4095 : Nat), ⟨by decide, by decide, by decide, by
      decide⟩⟩,
    ⟨{ host := { sqs := [(0, { state := .enabled })] } }, (0 : Fin 8), 0, (.abort : DmaFail), by decide⟩,
    ⟨{ host := { cqs := [(0, { state := .enabled })] } }, (0 : Fin 8), 0, (.poisoned : DmaFail), by decide⟩,
    ⟨{ host := { sqs := [(0, { state := .stopping })] } }, (0 : Fin 8), ⟨by decide, by decide⟩⟩,
    ⟨{ host := { cqs := [(0, { irqPend := 1 })] }, time := { sec := 1#64 } }, (0 : Fin 8), ⟨by decide, by decide⟩⟩,
    ⟨{ host := { busMaster := true, msixEn := true, eq := { irqPend := 1 }, msixTable := [(3, 1#32)] }, time := { sec := 1#64 } },
      ⟨by decide, by decide, by decide, by decide, by decide⟩⟩,
    ⟨{}, (0 : Fin 8), by decide⟩⟩

/-- Every clause of `Obligations.HostCommands` that has hypotheses has a state and operands that meet them together. -/
theorem witness_HostCommands :
    (∃ (s : State) (n : Fin 8) (d : Desc), s.mod.failed = false ∧ s.host.taken = [{ sq := n.val, desc := d }] ∧ s.host.busMaster
      = true ∧ (s.host.cq (s.host.sq n).bound).state = .enabled ∧ Bits.bit (s.host.cq (s.host.sq n).bound).cfg 15 = false) ∧
    (∃ (s : State) (d : Desc) (r : Rights), s.mnt.cmds = [{ desc := d }] ∧ s.mnt.session = some r) ∧
    (∃ (s : State) (o : Origin) (m t b off : Nat), 6 < m) ∧
    (∃ (s : State) (o : Origin) (n off : Nat) (bs : List Byte) (d : AreaDef), n < 256 ∧ s.areaDef n = some d ∧ d.read = false ∧
      off + bs.length ≤ d.len) ∧
    (∃ (s : State) (o : Origin) (n off : Nat) (bs : List Byte) (d : AreaDef), s.areaDef n = some d ∧ (d.read = true ∨ d.len <
      off + bs.length)) ∧
    (∃ (s : State) (o : Origin) (n len : Nat) (addr : DWord) (d : AreaDef), n < 256 ∧ s.areaDef n = some d ∧ d.read = true ∧
      (d.len + 3) / 4 * 4 ≤ len) ∧
    (∃ (s : State) (o : Origin) (n : Nat) (addr : DWord) (r : Record), s.recorder.head.toNat = n ∧ n + 1 < 2 ^ 64 ∧
      s.recorder.oldest ≤ n ∧ s.recorder.inEmber n = some r) ∧
    (∃ (s : State) (o : Origin) (first count len : Nat) (peat annex : Bool) (addr : DWord), (count = 0 ∨ 2048 < count ∨ len <
      count * 512)) ∧
    (∃ (s : State) (o : Origin) (dt : DWord) (ws : List Word), ws.length ≤ 112 ∧ s.recorder.failed = false ∧
      s.recorder.overQuota 13 = false) ∧
    (∃ (s : State) (o : Origin) (dt : DWord) (ws : List Word), ws.length ≤ 112 ∧ s.recorder.failed = false ∧
      s.recorder.overQuota 13 = true) ∧
    (∃ (s : State) (o : Origin) (n : Nat) (d : TrigDef), Tbl.get {} s.recorder.trigDefs n = d ∧ d.valid = true ∧ d.kind = .host
      ∧ s.recorder.failed = false ∧ (Tbl.get {} s.recorder.trigs n).holding = false ∧ (s.recorder.fired s.nowNs n).overQuota 16
      = false ∧ s.recorder.depth < 64) ∧
    (∃ (s : State) (o : Origin) (n : Nat) (d : TrigDef), Tbl.get {} s.recorder.trigDefs n = d ∧ (d.valid = false ∨ d.kind ≠
      .host)) ∧
    (∃ (s : State) (o : Origin) (src q : Nat), src ≤ 16 ∧ q ≤ 65535) ∧
    (∃ (s : State) (o : Origin) (id : Half) (r : Rect) (wf : Fin 8), s.panelDriving = true ∧ s.pnl.judge (.update r wf) = none) :=
  ⟨⟨{ mod := { failed := false }, host := { taken := [{ sq := (0 : Fin 8).val, desc := ({ opcode := 0#8, fence := false, reserved := false, tag := 0#32, dataAddr := 0#64, dataLen := 0, params := [] } : Desc) }], busMaster := true, cqs := [(0, { state := .enabled })] } },
      (0 : Fin 8),
      ({ opcode := 0#8, fence := false, reserved := false, tag := 0#32, dataAddr := 0#64, dataLen := 0, params := [] } : Desc),
      ⟨by decide, by decide, by decide, by decide, by decide⟩⟩,
    ⟨{ mnt := { cmds := [{ desc := ({ opcode := 0#8, fence := false, reserved := false, tag := 0#32, dataAddr := 0#64, dataLen := 0, params := [] } : Desc) }], session := some ({} : Rights) } },
      ({ opcode := 0#8, fence := false, reserved := false, tag := 0#32, dataAddr := 0#64, dataLen := 0, params := [] } : Desc),
      ({} : Rights), ⟨by decide, by decide⟩⟩,
    ⟨{}, .self, (7 : Nat), 0, 0, 0, by decide⟩,
    ⟨{ cfg := { prog := some { areas := [(255, { len := 8, read := false })] } } }, .self, (255 : Nat), (7 : Nat), ([1#8] : List
      Byte), ({ len := 8, read := false } : AreaDef), ⟨by decide, by decide, by decide, by decide⟩⟩,
    ⟨{ cfg := { prog := some { areas := [(0, { len := 8, read := true })] } } }, .self, 0, 0, [], ({ len := 8, read := true } :
      AreaDef), ⟨by decide, by decide⟩⟩,
    ⟨{ cfg := { prog := some { areas := [(0, { len := 8, read := true })] } } }, .self, 0, (8 : Nat), 0#64,
      ({ len := 8, read := true } : AreaDef), ⟨by decide, by decide, by decide, by decide⟩⟩,
    ⟨{ recorder := { head := 0#64, ember := [(0, {})] } }, .self, 0, 0#64, ({} : Record), ⟨by decide, by decide, by decide, by
      decide⟩⟩,
    ⟨{}, .self, 0, 0, 0, false, false, 0#64, by decide⟩,
    ⟨{ recorder := { failed := false } }, .self, 0#64, [], ⟨by decide, by decide, by decide⟩⟩,
    ⟨{ recorder := { failed := false, quota := [(13, 2)], use := [(13, 1)] } }, .self, 0#64, [], ⟨by decide, by decide, by
      decide⟩⟩,
    ⟨{ recorder := { failed := false, trigDefs := [(0, ({ valid := true, kind := .host } : TrigDef))] } }, .self, 0,
      ({ valid := true, kind := .host } : TrigDef), ⟨by decide, by decide, by decide, by decide, by decide, by decide, by
      decide⟩⟩,
    ⟨{}, .self, 0, ({} : TrigDef), ⟨by decide, by decide⟩⟩,
    ⟨{}, .self, 0, 0, ⟨by decide, by decide⟩⟩,
    ⟨{ twin := { ownLow := true }, pnl := { cfg := { config := 0x80000000#32, geometry := 0x00080008#32 }, power := true } },
      .self, 0#16, ({ x := 4, y := 7, w := 4, h := 1 } : Rect), (0 : Fin 8), ⟨by decide, by decide⟩⟩⟩

/-- Every clause of `Obligations.ImagesAndActivation` that has hypotheses has a state and operands that meet them together. -/
theorem witness_ImagesAndActivation :
    (∃ (s : State) (o : Origin) (k total len : Nat) (obj : ImageObj), 1 ≤ k ∧ k ≤ 3 ∧ len ≤ total ∧ total ≤ slotSize k ∧
      s.slotBusy k = false) ∧
    (∃ (s : State) (o : Origin) (k off total len : Nat) (obj : ImageObj), 1 ≤ k ∧ k ≤ 3 ∧ off + len ≤ total ∧ total ≤ slotSize k
      ∧ s.slotBusy k = false ∧ s.cfg.transfers.any (fun e => e.1 == k) = true ∧ Tbl.get {} s.cfg.transfers k =
      { sq := originRing o, len := off, total := total }) ∧
    (∃ (s : State) (o : Origin) (k total : Nat) (obj : ImageObj), 1 ≤ k ∧ k ≤ 3 ∧ total ≤ slotSize k ∧ s.slotBusy k = false ∧
      s.objectOk k obj = true) ∧
    (∃ (s : State) (o : Origin) (k total : Nat) (obj : ImageObj), 1 ≤ k ∧ k ≤ 3 ∧ total ≤ slotSize k ∧ s.slotBusy k = false ∧
      s.objectOk k obj = false) ∧
    (∃ (s : State) (o : Origin) (c : StationCfg), s.cfg.staged.body = some c ∧ s.switchReason (some c) = 0 ∧ s.cfg.phase ≠
      .noConfig ∧ s.twin.link = .severed ∧ s.cyc.mode ≠ .run) ∧
    (∃ (s : State) (o : Origin) (c : StationCfg) (n : Nat), s.cfg.staged.body = some c ∧ s.switchReason (some c) = 0 ∧
      s.cfg.phase ≠ .noConfig ∧ s.twin.link = .severed ∧ s.cyc.mode = .run ∧ s.refTask = some n) ∧
    (∃ (s : State) (o : Origin), s.switchReason s.cfg.staged.body ≠ 0) ∧
    (∃ (s : State) (o : Origin) (c : StationCfg), s.cfg.staged.body = some c ∧ s.switchReason (some c) = 0 ∧ s.cfg.phase ≠
      .noConfig ∧ s.leads = true ∧ s.twin.link = .joined ∧ s.twin.linkUp = true) ∧
    (∃ (s : State) (o : Origin) (c : StationCfg), s.cfg.staged.body = some c ∧ s.switchReason (some c) = 0 ∧ s.cfg.phase =
      .noConfig) ∧
    (∃ (s : State) (p : CfgSwitch) (k : Nat), s.cfg.pend = some p ∧ p.task = none ∧ p.effect = .tick k ∧ k < s.tickNo ∧
      s.twin.link = .severed) ∧
    (∃ (s : State), s.cfg.pend = none) ∧
    (∃ (s : State) (o : Origin) (x : SafetyObj), s.follows = true ∧ s.twin.link = .joined ∧ s.cfg.idleSafe = some x ∧ s.objectOk
      2 (.safety x) = true ∧ s.cfg.safeOrg = none) ∧
    (∃ (s : State) (o : Origin), s.twin.link ≠ .joined) ∧
    (∃ (s : State) (o : Origin) (e : Fin 16) (f : FirmObj), s.cfg.idleFirm = some f ∧ f.ok = true ∧ (f.line = Bits.get
      s.mod.fwRelease 24 8 ∨ s.cyc.mode = .stop) ∧ s.fab.count Engine.counts = 16 ∧ s.exchangeArmed = false) ∧
    (∃ (s : State) (o : Origin) (e : Fin 16) (f : FirmObj), s.cfg.idleFirm = some f ∧ f.ok = true ∧ (f.line = Bits.get
      s.mod.fwRelease 24 8 ∨ s.cyc.mode = .stop) ∧ s.fab.count (fun x => x.state == .available) < 16) ∧
    (∃ (s : State) (o : Origin) (f : FirmObj), s.cfg.idleFirm = some f ∧ f.ok = true ∧ s.cfg.phase = .rom) ∧
    (∃ (s : State) (o : Origin) (f : FirmObj), s.cfg.idleFirm = some f ∧ f.ok = true ∧ s.cfg.phase ≠ .rom ∧ f.line = Bits.get
      s.mod.fwRelease 24 8 ∧ (List.range 16).all (fun e => (s.fab.engine e).fw == .updated) = true ∧ s.follows = true ∧
      s.twin.link = .joined ∧ s.exchangeArmed = false ∧ s.configuredTasks ≠ []) ∧
    (∃ (s : State) (o : Origin) (f : FirmObj), s.cfg.idleFirm = some f ∧ f.ok = true ∧ s.cfg.phase ≠ .rom ∧ f.line ≠ Bits.get
      s.mod.fwRelease 24 8 ∧ s.cyc.mode = .stop ∧ (List.range 16).all (fun e => (s.fab.engine e).fw == .updated) = true ∧
      s.exchangeArmed = false) :=
  ⟨⟨{}, .self, (3 : Nat), 0, 0, .none, ⟨by decide, by decide, by decide, by decide, by decide⟩⟩,
    ⟨{ cfg := { transfers := [((3 : Nat), { sq := originRing .self, len := (1 : Nat), total := (1 : Nat) })] } }, .self, (3 :
      Nat), (1 : Nat), (1 : Nat), 0, .none, ⟨by decide, by decide, by decide, by decide, by decide, by decide, by decide⟩⟩,
    ⟨{}, .self, (1 : Nat), 0, (.config
      { signer := some 0, keys := { imageKeys := [0], maintKeys := [(0, { command := true })] } } : ImageObj), ⟨by decide, by
      decide, by decide, by decide, by decide⟩⟩,
    ⟨{}, .self, (3 : Nat), 0, (.firmware {} : ImageObj), ⟨by decide, by decide, by decide, by decide, by decide⟩⟩,
    ⟨{ twin := { link := .severed }, cfg := { slotB := { body := some ({ signer := some 0, keys := { imageKeys := [0], maintKeys := [(0, { command := true })] } } : StationCfg) }, cur := { keys := ({ signer := some 0, keys := { imageKeys := [0], maintKeys := [(0, { command := true })] } } : StationCfg).keys }, phase := .ready } },
      .self, ({ signer := some 0, keys := { imageKeys := [0], maintKeys := [(0, { command := true })] } } : StationCfg), ⟨by
      decide, by decide, by decide, by decide, by decide⟩⟩,
    ⟨{ twin := { link := .severed }, cyc := { mode := .run }, cfg := { slotB := { body := some ({ signer := some 0, keys := { imageKeys := [0], maintKeys := [(0, { command := true })] } } : StationCfg) }, cur := { keys := ({ signer := some 0, keys := { imageKeys := [0], maintKeys := [(0, { command := true })] } } : StationCfg).keys }, phase := .ready, taskCfgs := [(0, { cfg := 0x40000001#32 })] } },
      .self, ({ signer := some 0, keys := { imageKeys := [0], maintKeys := [(0, { command := true })] } } : StationCfg), 0, ⟨by
      decide, by decide, by decide, by decide, by decide, by decide⟩⟩,
    ⟨{}, .self, by decide⟩,
    ⟨{ twin := { ownLow := true, started := true, link := .joined, lanes := [(0, { state := .up })], began := true }, cfg := { slotB := { body := some ({ signer := some 0, keys := { imageKeys := [0], maintKeys := [(0, { command := true })] } } : StationCfg) }, cur := { keys := ({ signer := some 0, keys := { imageKeys := [0], maintKeys := [(0, { command := true })] } } : StationCfg).keys } } },
      .self, ({ signer := some 0, keys := { imageKeys := [0], maintKeys := [(0, { command := true })] } } : StationCfg), ⟨by
      decide, by decide, by decide, by decide, by decide, by decide⟩⟩,
    ⟨{ cfg := { phase := .noConfig, slotB := { body := some ({ signer := some 0, keys := { imageKeys := [0], maintKeys := [(0, { command := true })] } } : StationCfg) }, cur := { keys := ({ signer := some 0, keys := { imageKeys := [0], maintKeys := [(0, { command := true })] } } : StationCfg).keys } } },
      .self, ({ signer := some 0, keys := { imageKeys := [0], maintKeys := [(0, { command := true })] } } : StationCfg), ⟨by
      decide, by decide, by decide⟩⟩,
    ⟨{ cfg := { pend := some ({ cfg := {}, effect := .tick 0, task := none, origin := .self } : CfgSwitch) }, twin := { link := .severed }, time := { ns := 10000#32 } },
      ({ cfg := {}, effect := .tick 0, task := none, origin := .self } : CfgSwitch), 0, ⟨by decide, by decide, by decide, by
      decide, by decide⟩⟩,
    ⟨{ cfg := { pend := none } }, by decide⟩,
    ⟨{ twin := { started := true, link := .joined, began := true }, cfg := { safeOrg := none, safeB := some ({ signer := some 3 } : SafetyObj), keys0 := some { imageKeys := [3] } } },
      .self, ({ signer := some 3 } : SafetyObj), ⟨by decide, by decide, by decide, by decide, by decide⟩⟩,
    ⟨{}, .self, by decide⟩,
    ⟨{ cfg := { firmB := some ({ ok := true } : FirmObj) } }, .self, (0 : Fin 16), ({ ok := true } : FirmObj), ⟨by decide, by
      decide, by decide, by decide, by decide⟩⟩,
    ⟨{ cfg := { firmB := some ({ ok := true } : FirmObj) }, fab := { engines := [(15, { state := .fenced })] } }, .self, (0 :
      Fin 16), ({ ok := true } : FirmObj), ⟨by decide, by decide, by decide, by decide⟩⟩,
    ⟨{ cfg := { phase := .rom, firmB := some ({ ok := true } : FirmObj) } }, .self, ({ ok := true } : FirmObj), ⟨by decide, by
      decide, by decide⟩⟩,
    ⟨{ cfg := { phase := .ready, firmB := some ({ ok := true } : FirmObj), taskCfgs := [(0, { cfg := 0x40000001#32 })] }, twin := { started := true, link := .joined, began := true }, fab := { engines := (List.range 16).map (fun e => (e, { fw := .updated })) } },
      .self, ({ ok := true } : FirmObj), ⟨by decide, by decide, by decide, by decide, by decide, by decide, by decide, by
      decide, by decide⟩⟩,
    ⟨{ cfg := { phase := .ready, firmB := some ({ ok := true, line := 5 } : FirmObj) }, cyc := { mode := .stop }, fab := { engines := (List.range 16).map (fun e => (e, { fw := .updated })) } },
      .self, ({ ok := true, line := 5 } : FirmObj), ⟨by decide, by decide, by decide, by decide, by decide, by decide, by
      decide⟩⟩⟩

/-- Every clause of `Obligations.RickEnumeration` that has hypotheses has a state and operands that meet them together. -/
theorem witness_RickEnumeration :
    (∃ (s : State) (c : Bool), s.enumerates = true ∧ s.gateOpen = true ∧ (c = true → s.cfg.enumCmd = false) ∧ (c = false →
      s.cfg.collecting = false ∧ s.enumDue = true)) ∧
    (∃ (s : State), (s.enumerates = false ∨ s.cfg.enumCmd = true)) ∧
    (∃ (s : State), (s.enumerates = false ∨ s.cfg.collecting = true ∨ s.enumDue = false)) ∧
    (∃ (s : State) (ds : List (Fin 6 × Nat)), s.cfg.collecting = true ∧ s.elapsed s.cfg.enumAt 100 = true) ∧
    (∃ (s : State) (ds : List (Fin 6 × Nat)), (s.cfg.collecting = false ∨ s.elapsed s.cfg.enumAt 100 = false)) ∧
    (∃ (s : State) (q : DWord) (p : Fin 6) (a b : Fin 8), s.twin.started = true ∧ (s.holdsToken = true → s.cfg.collecting =
      true) ∧ s.enrolledAt (p.val + 1) q a = true ∧ (s.cfg.unit (p.val + 1)).state = .absent ∧ s.gateOpen = true ∧ s.mod.failed
      = false) ∧
    (∃ (s : State) (q : DWord) (p : Fin 6) (a b : Fin 8), s.twin.started = true ∧ (s.holdsToken = true → s.cfg.collecting =
      true) ∧ s.enrolledAt (p.val + 1) q a = false) ∧
    (∃ (s : State) (q : DWord) (p : Fin 6) (a b : Fin 8), s.holdsToken = true ∧ s.cfg.collecting = false) ∧
    (∃ (s : State) (u : Fin 6) (m x : BitVec 128), (s.cfg.unit (u.val + 1)).state = .authenticating ∧ s.cfg.enrolled (u.val + 1)
      = true) ∧
    (∃ (s : State) (u : Fin 6) (m x : BitVec 128), ((s.cfg.unit (u.val + 1)).state = .authenticating ∨ (s.cfg.unit (u.val +
      1)).state = .onLine)) ∧
    (∃ (s : State), s.cfg.collecting = false ∧ s.enumerates = true ∧ s.cfg.rick ≠ .formed ∧ (∀ u : Nat, (s.cfg.unit u).seen =
      true → (s.cfg.unit u).state = .onLine)) ∧
    (∃ (s : State) (u : Fin 6), s.cfg.collecting = false ∧ s.enumerates = true ∧ s.cfg.rick ≠ .formed ∧ (∀ v : Nat, (s.cfg.unit
      v).seen = true → (s.cfg.unit v).state ≠ .authenticating) ∧ (s.cfg.unit (u.val + 1)).seen = true ∧ (s.cfg.unit (u.val +
      1)).state = .authFailed) :=
  ⟨⟨{ twin := { ownLow := true, began := true, started := true }, cfg := { phase := .rick } }, false, ⟨by decide, by decide,
      (fun h => absurd h (by decide)), (fun _ => by decide)⟩⟩,
    ⟨{}, by decide⟩,
    ⟨{}, by decide⟩,
    ⟨{ cfg := { collecting := true } }, [], ⟨by decide, by decide⟩⟩,
    ⟨{}, [], by decide⟩,
    ⟨{ twin := { started := true, ownLow := true, began := true }, cfg := { units := [(1, { state := .absent })], cur := { keys := { units := [(1, { serial := 5#64 })] } }, collecting := true }, mod := { failed := false } },
      (5#64 : DWord), (0 : Fin 6), (0 : Fin 8), (0 : Fin 8), ⟨by decide, (fun _ => rfl), by decide, by decide, by decide, by
      decide⟩⟩,
    ⟨{ twin := { started := true, began := true } }, 0#64, (0 : Fin 6), (0 : Fin 8), (0 : Fin 8), ⟨by decide, by decide, by
      decide⟩⟩,
    ⟨{ twin := { ownLow := true }, cfg := { collecting := false } }, 0#64, (0 : Fin 6), (0 : Fin 8), (0 : Fin 8), ⟨by decide, by
      decide⟩⟩,
    ⟨{ cfg := { units := [(1, { state := .authenticating })], cur := { keys := { units := [(1, { serial := 5#64 })] } } } }, (0
      : Fin 6), 0#128, 0#128, ⟨by decide, by decide⟩⟩,
    ⟨{ cfg := { units := [(1, { state := .onLine })] } }, (0 : Fin 6), 0#128, 0#128, by decide⟩,
    ⟨{ cfg := { collecting := false, phase := .rick }, twin := { began := true, started := true, ownLow := true } }, ⟨by decide,
      by decide, by decide, (fun _ h => nomatch h)⟩⟩,
    ⟨{ cfg := { collecting := false, units := [(1, { seen := true, state := .authFailed })], phase := .rick }, twin := { began := true, started := true, ownLow := true } },
      (0 : Fin 6), ⟨by decide, by decide, by decide,
      (fun v h e => by match v with | 1 => exact absurd e (by decide) | 0 => exact absurd h (by decide) | (n + 2) => exact absurd h (by show ¬ ((({} : RxUnit).seen) = true); decide)),
      by decide, by decide⟩⟩⟩

/-- Every clause of `Obligations.RickService` that has hypotheses has a state and operands that meet them together. -/
theorem witness_RickService :
    (∃ (s : State) (u : Fin 6) (d : Nat), s.mod.failed = false ∧ s.elapsed s.cfg.delayAt 100000 = true) ∧
    (∃ (s : State) (l : List (Fin 6 × Nat)), (s.mod.failed = true ∨ s.elapsed s.cfg.delayAt 100000 = false)) ∧
    (∃ (s : State), (s.cfg.rick ≠ .formed ∨ s.mod.failed = true ∨ s.elapsed s.cfg.pollAt 1 = false)) ∧
    (∃ (s : State), s.cfg.rick = .formed ∧ s.mod.failed = false ∧ s.elapsed s.cfg.pollAt 1 = true) ∧
    (∃ (s : State) (u : Fin 6) (a b : Fin 8) (l : List RxSamples), s.cfg.rick = .formed ∧ (s.cfg.unit (u.val + 1)).state =
      .onLine) ∧
    (∃ (s : State) (u : Fin 6) (a b : Fin 8) (l : List RxSamples), s.cfg.rick = .formed ∧ (s.cfg.unit (u.val + 1)).state =
      .lost) ∧
    (∃ (s : State) (u : Fin 6) (a b : Fin 8) (l : List RxSamples), (s.cfg.rick ≠ .formed ∨ (s.cfg.unit (u.val + 1)).state ≠
      .onLine ∧ (s.cfg.unit (u.val + 1)).state ≠ .lost)) ∧
    (∃ (s : State) (u : Fin 6) (n : Fin 32) (o : RxOut), (s.cfg.unit (u.val + 1)).state = .onLine ∧ Tbl.get {} (s.cfg.unit
      (u.val + 1)).outs n = o ∧ (s.cfg.unit (u.val + 1)).outs.any (fun e => e.1 == n.val) = true ∧ o.dropped = false) ∧
    (∃ (s : State) (u : Fin 6), (s.cfg.unit (u.val + 1)).state = .onLine ∧ 3 ≤ (s.cfg.unit (u.val + 1)).missed) ∧
    (∃ (s : State) (u : Fin 6), (s.cfg.unit (u.val + 1)).missed < 3) ∧
    (∃ (s : State) (n : Fin 32), (s.taskCfg n).kind = 1 ∧ (s.taskCfg n).nextTick s.tickNo ≤ s.tickNo + 2) :=
  ⟨⟨{ mod := { failed := false } }, (0 : Fin 6), 0, ⟨by decide, by decide⟩⟩,
    ⟨{ mod := { failed := true } }, [], by decide⟩,
    ⟨{}, by decide⟩,
    ⟨{ cfg := { rick := .formed }, mod := { failed := false } }, ⟨by decide, by decide, by decide⟩⟩,
    ⟨{ cfg := { rick := .formed, units := [(1, { state := .onLine })] } }, (0 : Fin 6), (0 : Fin 8), (0 : Fin 8), [], ⟨by
      decide, by decide⟩⟩,
    ⟨{ cfg := { rick := .formed, units := [(1, { state := .lost })] } }, (0 : Fin 6), (0 : Fin 8), (0 : Fin 8), [], ⟨by decide,
      by decide⟩⟩,
    ⟨{}, (0 : Fin 6), (0 : Fin 8), (0 : Fin 8), [], by decide⟩,
    ⟨{ cfg := { units := [(1, { state := .onLine, outs := [(0, {})] })] } }, (0 : Fin 6), (0 : Fin 32), ({ dropped := false } :
      RxOut), ⟨by decide, by decide, by decide, by decide⟩⟩,
    ⟨{ cfg := { units := [(1, { state := .onLine, failRun := 3 })] } }, (0 : Fin 6), ⟨by decide, by decide⟩⟩,
    ⟨{}, (0 : Fin 6), by decide⟩,
    ⟨{ cfg := { taskCfgs := [(0, { cfg := 0x40000001#32, period := 1#32 })] } }, (0 : Fin 32), ⟨by decide, by decide⟩⟩⟩

end Sys2Proof.Tests
end

namespace Sys2Proof.Machine

/-! Register accesses (15 R423-R435). -/

/-- A command that sets one EVENT bit and reports nothing else. -/
theorem RunsTo.setEvent {i : Instr} {s u : State} {b : Block} {n : Nat} (e : exec i s = .next (u.setEvent b n))
    (he : u.event = s.event) (hn : n < 32) : RunsTo i s u [(b, n)] :=
  .mk _ e (u.bare_setEvent b n) ((u.raises_setEvent b n hn).from he)

theorem State.bare_setReq_congr {s t : State} (h : t.bare = s.bare) (who : Requester) (r : ReqState) :
    (t.setReq who r).bare = (s.setReq who r).bare := by
  have e : ∀ u : State, (u.setReq who r).bare = u.bare.setReq who r := fun u => by cases who <;> rfl
  rw [e, e, h]

@[simp] theorem State.event_setReq (s : State) (who : Requester) (r : ReqState) : (s.setReq who r).event = s.event := by
  cases who <;> rfl

/-- A command that sets one EVENT bit and then changes what a requester holds. -/
theorem RunsTo.setEvent_setReq {i : Instr} {s u : State} {b : Block} {n : Nat} {who : Requester} {r : ReqState}
    (e : exec i s = .next ((u.setEvent b n).setReq who r)) (he : u.event = s.event) (hn : n < 32) :
    RunsTo i s (u.setReq who r) [(b, n)] :=
  .mk _ e (State.bare_setReq_congr (u.bare_setEvent b n) who r)
    ((State.raises_setEvent u b n hn |>.from he).trans (m := []) (.of_event (State.event_setReq _ _ _)))

/-- The mask of a whole word keeps every bit. -/
@[simp] theorem word_and_ones (w : Word) : w &&& 0xFFFFFFFF#32 = w := BitVec.and_allOnes

/-! SCRATCH. -/

theorem writeBits_scratch (s : State) (w mask : Word) : s.writeBits .host 0x5C w mask =
    { s with mod := { s.mod with scratch := (s.mod.scratch &&& ~~~mask) ||| (w &&& mask) } } := by
  unfold State.writeBits
  rw [accessOf_scratch.1]
  simp only [readReg_scratch, word_and_ones]
  exact putRw_scratch s .host _

theorem registerWrite_scratch (s : State) (w : Word) : exec (.registerWrite .host 0x5C w) s = .next { s with mod := { s.mod with
    scratch := w, host := { s.mod.host with expired := none } } } := by
  change Host.Outcome.next (s.busWrite .host 0x5C w) = _
  rw [State.busWrite_reg _ _ _ _ (by decide) (by decide),
    State.regWrite_plain _ _ _ _ _ _ (by decide) (by decide) rfl (by decide), writeBits_scratch]
  simp [State.written_host]

/-- A write of one bit reaches its register with the mask of that bit (15 R432). -/
theorem exec_bitAliasWrite (s : State) (off : Nat) (b : Fin 32) (v : Bool) (h : off < 0x4000) (h4 : off % 4 = 0) :
    exec (.bitAliasWrite .host off b v) s =
      .next ((s.written .host).regWrite .host off (Bits.ofBool v b) (1#32 <<< b.val) true) := by
  change execBitAliasWrite .host off b v s = _
  have bit0 : Bits.bit (Bits.ofBool v 0) 0 = v := by cases v <;> rfl
  unfold execBitAliasWrite
  rw [if_pos ⟨h4, h⟩, State.busWrite_bit _ _ _ _ _ h h4, bit0]

/-- The mask of one bit is not empty. -/
theorem oneBit_ne_zero : ∀ b : Fin 32, 0xFFFFFFFF#32 &&& 1#32 <<< b.val ≠ 0#32 := by decide

theorem bitAliasWrite_scratch (s : State) (b : Fin 32) (v : Bool) :
    exec (.bitAliasWrite .host 0x5C b v) s = .next { s with mod := { s.mod with
      scratch := (s.mod.scratch &&& ~~~(1#32 <<< b.val)) ||| (Bits.ofBool v b &&& (1#32 <<< b.val))
      host := { s.mod.host with expired := none } } } := by
  rw [exec_bitAliasWrite _ _ _ _ (by decide) (by decide), State.regWrite_plain _ _ _ _ _ _ (by decide)
    (by rw [accessOf_scratch.1]; exact oneBit_ne_zero b) rfl (by decide), writeBits_scratch]
  rfl

/-! EVENT registers. -/

theorem accessOf_event : ∀ b : Fin 16, isReg (0x400 * b.val + 4) = true ∧
    accessOf (0x400 * b.val + 4) = (.w1c, eventMask b) ∧ eventMask b ≠ 0#32 := by decide

theorem registerWrite_event (s : State) (b : Fin 16) (w : Word) : exec (.registerWrite .host (0x400 * b.val + 4) w) s =
    .next { s.written .host with event := Tbl.set 0#32 s.event b (Tbl.get 0#32 s.event b &&& ~~~(w &&& eventMask b)) } := by
  change Host.Outcome.next (s.busWrite .host (0x400 * b.val + 4) w) = _
  obtain ⟨reg, acc, ne⟩ := accessOf_event b
  rw [State.busWrite_reg _ _ _ _ (by omega) (by omega),
    State.regWrite_plain _ _ _ _ _ _ reg (by simpa [acc] using ne) rfl (by simp [acc])]
  unfold State.writeBits State.clear1
  rw [acc]
  have block : (0x400 * b.val + 4) / 0x400 = b.val := by omega
  simp only [block, BitVec.and_comm 0xFFFFFFFF#32, word_and_ones]
  rw [if_pos (by omega)]
  rfl

/-! Writes that nothing takes, and access errors. -/

theorem registerWrite_ignored (s : State) (who : Requester) (off : Nat) (w : Word) (h : off < 0x4000) (h4 : off % 4 = 0)
    (hn : isReg off = false ∨ (accessOf off).2 = 0#32) : exec (.registerWrite who off w) s = .next (s.written who) := by
  change Host.Outcome.next (s.busWrite who off w) = _
  rw [State.busWrite_reg _ _ _ _ h h4, State.regWrite_none _ _ _ _ _ _ (hn.imp_right fun z => by rw [z, BitVec.zero_and])]

theorem busWrite_misaligned (s : State) (who : Requester) (off : Nat) (w : Word) (h : off < 0x8000) (h4 : off % 4 ≠ 0) :
    s.busWrite who off w = (s.written who).accessErr := by
  unfold State.busWrite
  dsimp only
  rw [if_neg (by omega), if_neg (by omega), if_neg (by omega), if_pos h4]
  rfl

theorem registerWrite_misaligned (s : State) (who : Requester) (off : Nat) (w : Word) (h : off < 0x8000) (h4 : off % 4 ≠ 0) :
    RunsTo (.registerWrite who off w) s
      { s.written who with mod := { (s.written who).mod with accessCnt := Bits.inc s.mod.accessCnt } } [(.mod, 1)] := by
  refine .setEvent (congrArg _ ((busWrite_misaligned s who off w h h4).trans ?_)) (State.event_setReq _ _ _) (by decide)
  cases who <;> rfl

theorem registerWrite_noSession (s : State) (w : Word) (h : s.mnt.session = none) :
    RunsTo (.registerWrite .maint 0x5C w) s { s with mod := { s.mod with
      accessCnt := Bits.inc s.mod.accessCnt, maint := { s.mod.maint with expired := none } } } [(.mod, 1), (.mnt, 5)] := by
  have noRight : (s.written .maint).mayWrite .maint 0x5C = false := by
    simp [State.mayWrite, State.written_maint, h]
  have refused : s.busWrite .maint 0x5C w = (s.written .maint).accessErr.setEvent .mnt 5 := by
    rw [State.busWrite_reg _ _ _ _ (by decide) (by decide), State.regWrite_refused _ _ _ _ _ _ (by decide) (by decide) noRight]
    rfl
  have one : s.Raises (s.written .maint).accessErr [(.mod, 1)] :=
    (State.raises_setEvent { s.written .maint with mod := _ } .mod 1 (by decide)).from rfl
  refine .mk _ (congrArg Host.Outcome.next refused) ?_ (one.setEvent .mnt 5 (by decide))
  rw [State.bare_setEvent, State.accessErr, State.bare_setEvent]
  rfl

theorem badRead_counted (s : State) (who : Requester) :
    RunsTo (.badAccess who false) s { s with mod := { s.mod with accessCnt := Bits.inc s.mod.accessCnt } } [(.mod, 1)] :=
  .setEvent rfl rfl (by decide)

/-! Guarded writes of SCRATCH_G. -/

/-- The MOD block after a guard error of the host on SCRATCH_G (15 R431). -/
def ModBlk.guardErrG (m : ModBlk) (kind : Nat) : ModBlk :=
  { m with guardCnt := Bits.inc m.guardCnt, guardInfo := Bits.fld kind 28 ||| 0x60#32 }

theorem State.guardErr_scratchG (s : State) (kind : Nat) :
    s.guardErr .host kind 0x60 = ({ s with mod := s.mod.guardErrG kind } : State).setEvent .mod 0 := by
  simp [State.guardErr, ModBlk.guardErrG, Bits.ofBool, Bits.fld]

theorem exec_guardedValueWrite_scratchG (s : State) (w : Word) :
    exec (.guardedValueWrite .host 0x60 w) s = .next ((s.written .host).valueStep .host 0x60 w) := by
  change execGuardedValueWrite .host 0x60 w s = _
  unfold execGuardedValueWrite
  rw [if_pos (by decide), State.busWrite_reg _ _ _ _ (by decide) (by decide),
    State.regWrite_guarded _ _ _ _ _ (by decide) (by decide) rfl (by decide)]

theorem guardedValueWrite_pends (s : State) (w : Word) (h : s.mod.host.pending = none) :
    exec (.guardedValueWrite .host 0x60 w) s = .next { s with mod := { s.mod with
      host := { s.mod.host with expired := none, pending := some (0x60, w) } } } := by
  rw [exec_guardedValueWrite_scratchG]
  simp [State.valueStep, State.written_host, State.req, State.setReq, h]

theorem guardedValueWrite_twice (s : State) (w v : Word) (o : Nat) (h : s.mod.host.pending = some (o, v)) :
    RunsTo (.guardedValueWrite .host 0x60 w) s { s with mod := { s.mod with
      guardCnt := Bits.inc s.mod.guardCnt, guardInfo := 0x60000060#32
      host := { s.mod.host with expired := none, pending := some (0x60, w) } } } [(.mod, 0)] := by
  have step : exec (.guardedValueWrite .host 0x60 w) s = .next
      ((({ s.written .host with mod := (s.written .host).mod.guardErrG 6 } : State).setEvent .mod 0).setReq .host
        { s.mod.host with expired := none, pending := some (0x60, w) }) := by
    rw [exec_guardedValueWrite_scratchG]
    simp [State.valueStep, State.written_host, State.req, State.guardErr_scratchG, ModBlk.guardErrG, h]
  exact .setEvent_setReq step rfl (by decide)

/-- A complement that comes in time, with no guard expired. -/
theorem exec_complementWrite_scratchG (s : State) (w : Word) (ns : Nat) (hns : ns ≤ 1000) (he : s.mod.host.expired = none) :
    exec (.complementWrite .host 0x60 w ns) s = .next (s.complement .host 0x60 w none) := by
  have same : s.written .host = s := by rw [State.written_host, ← he]
  rw [complementWrite_scratchG s w ns hns, same, he]

/-- What a complement on SCRATCH_G does with a value that pends (15 R430, R431). -/
theorem complement_scratchG_pending (s : State) (v w : Word) (o : Nat) (h : s.mod.host.pending = some (o, v)) :
    s.complement .host 0x60 w none =
      let t := s.setReq .host { s.mod.host with pending := none }
      if o ≠ 0x60 then t.guardErr .host 3 0x60
      else if w ≠ ~~~v then t.guardErr .host 2 0x60
      else { t with mod := { t.mod with scratchG := v } } := by
  unfold State.complement
  rw [if_neg (by simp), if_neg (by rw [accessOf_scratchG]; simp), if_neg (by simp [State.mayWrite])]
  simp only [State.req, h]
  rfl

theorem complement_scratchG_none (s : State) (w : Word) (h : s.mod.host.pending = none) :
    s.complement .host 0x60 w none = s.guardErr .host 4 0x60 := by
  unfold State.complement
  rw [if_neg (by simp), if_neg (by rw [accessOf_scratchG]; simp), if_neg (by simp [State.mayWrite])]
  simp only [State.req, h]

theorem complementWrite_accepted (s : State) (v : Word) (ns : Nat) (hns : ns ≤ 1000) (hp : s.mod.host.pending = some (0x60, v))
    (he : s.mod.host.expired = none) : exec (.complementWrite .host 0x60 (~~~v) ns) s =
      .next { s with mod := { s.mod with scratchG := v, host := { s.mod.host with pending := none } } } := by
  rw [exec_complementWrite_scratchG s _ ns hns he, complement_scratchG_pending s v _ _ hp]
  simp [State.setReq]

theorem complementWrite_differs (s : State) (v w : Word) (ns : Nat) (hns : ns ≤ 1000) (hp : s.mod.host.pending = some (0x60, v))
    (he : s.mod.host.expired = none) (hw : w ≠ ~~~v) : RunsTo (.complementWrite .host 0x60 w ns) s { s with mod := { s.mod with
      guardCnt := Bits.inc s.mod.guardCnt, guardInfo := 0x20000060#32, host := { s.mod.host with pending := none } } } [(.mod, 0)] := by
  refine .setEvent (u := { s with mod := ModBlk.guardErrG { s.mod with host := _ } 2 }) ?_ rfl (by decide)
  rw [exec_complementWrite_scratchG s _ ns hns he, complement_scratchG_pending s v _ _ hp]
  simp only [ne_eq, not_true, hw, not_false_iff, if_false, if_true]
  exact congrArg _ (State.guardErr_scratchG _ 2)

theorem complementWrite_otherOffset (s : State) (v w : Word) (o ns : Nat) (hns : ns ≤ 1000) (hp : s.mod.host.pending = some (o, v))
    (ho : o ≠ 0x60) (he : s.mod.host.expired = none) : RunsTo (.complementWrite .host 0x60 w ns) s { s with mod := { s.mod with
      guardCnt := Bits.inc s.mod.guardCnt, guardInfo := 0x30000060#32, host := { s.mod.host with pending := none } } } [(.mod, 0)] := by
  refine .setEvent (u := { s with mod := ModBlk.guardErrG { s.mod with host := _ } 3 }) ?_ rfl (by decide)
  rw [exec_complementWrite_scratchG s _ ns hns he, complement_scratchG_pending s v _ _ hp]
  simp only [ne_eq, ho, not_false_iff, if_true]
  exact congrArg _ (State.guardErr_scratchG _ 3)

theorem complementWrite_alone (s : State) (w : Word) (ns : Nat) (hns : ns ≤ 1000) (hp : s.mod.host.pending = none)
    (he : s.mod.host.expired = none) : RunsTo (.complementWrite .host 0x60 w ns) s
      { s with mod := { s.mod with guardCnt := Bits.inc s.mod.guardCnt, guardInfo := 0x40000060#32 } } [(.mod, 0)] := by
  refine .setEvent (u := { s with mod := s.mod.guardErrG 4 }) ?_ rfl (by decide)
  rw [exec_complementWrite_scratchG s _ ns hns he, complement_scratchG_none s _ hp, State.guardErr_scratchG]

/-- The complement of a guard that has expired is dropped (15 R431). -/
theorem complement_expired (s : State) (who : Requester) (off : Nat) (w : Word) : s.complement who off w (some off) = s := by
  simp [State.complement]

theorem complementWrite_expired (s : State) (w : Word) (ns : Nat) (hns : ns ≤ 1000) (he : s.mod.host.expired = some 0x60) :
    exec (.complementWrite .host 0x60 w ns) s = .next { s with mod := { s.mod with host := { s.mod.host with expired := none } } } := by
  rw [complementWrite_scratchG s w ns hns, he, complement_expired]
  rfl

/-- What GUARD_LATE does to a value that pends for SCRATCH_G (15 R431). -/
theorem State.guardLate_scratchG (s : State) (v : Word) (h : s.mod.host.pending = some (0x60, v)) :
    s.guardLate .host = State.setEvent
      { s with mod := ({ s.mod with host := { s.mod.host with pending := none, expired := some 0x60 } } : ModBlk).guardErrG 1 } .mod 0 := by
  unfold State.guardLate
  simp only [State.req, h]
  exact State.guardErr_scratchG _ 1

theorem guardLate_counted (s : State) (v : Word) (h : s.mod.host.pending = some (0x60, v)) : RunsTo (.guardLate .host) s { s with mod := { s.mod with
    guardCnt := Bits.inc s.mod.guardCnt, guardInfo := 0x10000060#32
    host := { s.mod.host with pending := none, expired := some 0x60 } } } [(.mod, 0)] :=
  .setEvent (congrArg _ (s.guardLate_scratchG v h)) rfl (by decide)

/-- A complement that comes late finds its guard expired, and ends that. -/
theorem complementWrite_late (s : State) (v w : Word) (ns : Nat) (hns : 1000 < ns) (h : s.mod.host.pending = some (0x60, v)) :
    RunsTo (.complementWrite .host 0x60 w ns) s { s with mod := { s.mod with
      guardCnt := Bits.inc s.mod.guardCnt, guardInfo := 0x10000060#32
      host := { s.mod.host with pending := none, expired := none } } } [(.mod, 0)] := by
  have step : exec (.complementWrite .host 0x60 w ns) s = .next ((State.setEvent
      { s with mod := ({ s.mod with host := { s.mod.host with pending := none, expired := some 0x60 } } : ModBlk).guardErrG 1 } .mod 0).setReq
        .host { s.mod.host with pending := none, expired := none }) := by
    change execComplementWrite .host 0x60 w ns s = _
    unfold execComplementWrite
    rw [if_pos hns, s.guardLate_scratchG v h, if_pos (by decide), State.busWrite_port _ _ _ _ (by decide) (by decide)]
    simp [State.req, ModBlk.guardErrG, complement_expired, State.written]
  exact .setEvent_setReq step rfl (by decide)

theorem bitAliasWrite_guarded (s : State) (b : Fin 32) (v : Bool) : RunsTo (.bitAliasWrite .host 0x60 b v) s { s with mod := { s.mod with
    guardCnt := Bits.inc s.mod.guardCnt, guardInfo := 0x50000060#32, host := { s.mod.host with expired := none } } } [(.mod, 0)] := by
  refine .setEvent (u := { s.written .host with mod := (s.written .host).mod.guardErrG 5 }) ?_ rfl (by decide)
  rw [exec_bitAliasWrite _ _ _ _ (by decide) (by decide), State.regWrite_alias _ _ _ _ _ (by decide)
    (by rw [accessOf_scratchG]; exact oneBit_ne_zero b) rfl (by decide), State.guardErr_scratchG]

/-! Read latches. -/

/-- A read of a register that no latch holds copies the rest of its group into the reader's shadow (15 R434, R435). -/
theorem busRead_latches (s : State) (who : Requester) (off : Nat) (h : off < 0x4000) (hr : isReg off = true) (hs : shadowed off = false) :
    (s.busRead who off).2 = s.latch who (latches off) := by
  have h4 : off % 4 = 0 := by unfold isReg at hr; simp at hr; exact hr.1
  unfold State.busRead
  rw [if_neg (by omega), if_neg (by omega), if_neg (by omega), if_neg (by omega), if_neg (by simp [hr]; omega), if_neg (by simp [hs])]

theorem lowWords_read : ∀ off ∈ lowWords, off < 0x4000 ∧ isReg off = true ∧ shadowed off = false := by decide

theorem lowWordRead_latches (s : State) (who : Requester) (off : Nat) (h : off ∈ lowWords) :
    exec (.lowWordRead who off) s = .next (s.setReq who { s.req who with
      shadow := Tbl.set 0#32 (s.req who).shadow (off + 4) (s.readReg who (off + 4)) }) := by
  obtain ⟨lt, reg, sh⟩ := lowWords_read off h
  have low : lowWords.contains off = true := List.contains_iff_mem.mpr h
  change execLowWordRead who off s = _
  unfold execLowWordRead
  rw [if_pos low, busRead_latches _ _ _ lt reg sh, latches, if_pos low]
  rfl

/-- The registers that latch a read group (15 R435). -/
def groupHeads : List Nat := [0x1410, 0x1448, 0x1458, 0x1468, 0x1478, 0x18A0, 0x291C, 0x295C, 0x299C, 0x29DC]

theorem groupHeads_read : ∀ off ∈ groupHeads, off < 0x4000 ∧ isReg off = true ∧ shadowed off = false ∧
    lowWords.contains off = false ∧ (groupOf off).isEmpty = false := by decide

theorem groupLatchRead_latches (s : State) (who : Requester) (off : Nat) (h : off ∈ groupHeads) :
    exec (.groupLatchRead who off) s = .next (s.setReq who { s.req who with
      shadow := (groupOf off).foldl (fun t o => Tbl.set 0#32 t o (s.readReg who o)) (s.req who).shadow }) := by
  obtain ⟨lt, reg, sh, notLow, group⟩ := groupHeads_read off h
  change execGroupLatchRead who off s = _
  unfold execGroupLatchRead
  rw [if_neg (by simp [group]), busRead_latches _ _ _ lt reg sh, latches, if_neg (by rw [notLow]; simp)]
  rfl

/-- Settles O11: each clause is the lemma of its command above. -/
theorem registerAccess : Obligations.RegisterAccess :=
  ⟨registerWrite_scratch, registerWrite_event, registerWrite_ignored, registerWrite_misaligned, registerWrite_noSession,
    badRead_counted, guardedValueWrite_pends, guardedValueWrite_twice, complementWrite_accepted, complementWrite_differs,
    complementWrite_otherOffset, complementWrite_alone, complementWrite_expired, complementWrite_late, guardLate_counted,
    bitAliasWrite_scratch, bitAliasWrite_guarded, lowWordRead_latches, groupLatchRead_latches⟩

end Sys2Proof.Machine

namespace Sys2Proof.Machine

/-! What the operations behind faults and seats leave (01 R18-R22, 04 R106, R111). -/

/-- An EVENT bit that stands before an operation stands after it. -/
theorem Moves.raised {s t : State} {l : List Part} {m : List (Block × Nat)} {b : Block} {n : Nat} (a : Moves s t l m)
    (h : s.raised b n = true) : t.raised b n = true := a.2.1 b n h

/-- Of the twin unit, one lane going down changes that lane and the awaited second copies. -/
theorem State.twin_laneDown (s : State) (l : Nat) (e : Bool) : ∃ y c, y.state = .down ∧
    (s.laneDown l e).twin = { s.twin with lanes := Tbl.set {} s.twin.lanes l y, copies := c } := by
  refine ⟨_, _, ?_, (State.twin_setEventIf _ _ _ _).trans rfl⟩
  rfl

/-- Of the twin unit, both lanes going down changes the lanes and the awaited second copies. -/
theorem State.twin_lanesDown (s : State) : (s.lanesDown.twin.lane 0).state = .down ∧ (s.lanesDown.twin.lane 1).state = .down ∧
    ∃ x c, s.lanesDown.twin = { s.twin with lanes := x, copies := c } := by
  obtain ⟨y, c, hy, first⟩ := s.twin_laneDown 0 false
  obtain ⟨z, d, hz, second⟩ := (s.laneDown 0 false).twin_laneDown 1 false
  have both : s.lanesDown.twin = { s.twin with lanes := Tbl.set {} (Tbl.set {} s.twin.lanes 0 y) 1 z, copies := d } := by
    rw [State.lanesDown, second, first]
  refine ⟨?_, ?_, _, _, both⟩ <;> rw [both, TwinBlk.lane]
  · rw [Tbl.get_set_ne _ _ _ (by decide), Tbl.get_set_self, hy]
  · rw [Tbl.get_set_self, hz]

theorem State.ax_axCold (s : State) : s.axCold.ax = s.ax.mapAll Axis.cold := State.ax_setEventIf _ _ _ _

theorem State.moves_axCold (s : State) : Moves s s.axCold [.ax] [(.ax, 13)] :=
  Moves.setEventIf .set _ _ _ (by decide) (by simp)

theorem State.same_brakeAbortAll (s : State) : SameInputs s.safe s.brakeAbortAll.safe :=
  SameInputs.foldl _ (fun s _ => s.same_brakeAbort _ _ _) _ _

theorem SameInputs.seated {x y : Safe} (h : SameInputs x y) : y.seated = x.seated := by rw [← h]

/-! A failed module (01 R21, 18 R485). -/

theorem State.failModule_of_failed (s : State) (h : s.mod.failed = true) : s.failModule = s := if_pos h

/-- A failing module writes its record. -/
def State.failRecorded (s : State) : State :=
  State.report { s with mod := { s.mod with failed := true } } .mod 8 noObj (ModBlk.reg { s.mod with failed := true } 0)

/-- A failing module gives up its role, its stages, its engines and its cycles. -/
def State.failReleased (s : State) : State :=
  { s with
    twin := { s.twin with ownLow := false, keeper := false, engaged := false, link := .severed, started := false, waiting := false
                          heard := none, yielding := none, handover := none, testing := false, split := none, openElig := none, phase := 0 }
    dio := s.dio.engageAll false, aio := s.aio.faultReleaseAll
    fab := s.fab.stopAll, cyc := { s.cyc with halted := true, tasks := Tbl.map {} (fun t => { t with run := none }) s.cyc.tasks } }

/-- The stages of a failure, in their order. -/
theorem State.failModule_eq (s : State) (h : s.mod.failed = false) :
    s.failModule = s.failRecorded.lanesDown.failReleased.axCold.brakeAbortAll := by
  unfold State.failModule State.failRecorded State.failReleased
  rw [if_neg (by simp [h])]

theorem State.moves_failRecorded (s : State) : Moves s s.failRecorded [.mod] [(.mod, 8)] :=
  Moves.report .set _ _ _ _ (by decide) (by simp)

theorem State.moves_failReleased (s : State) : Moves s s.failReleased [.twin, .dio, .aio, .fab, .cyc] [] := by
  unfold State.failReleased; exact .set

/-- What a failing module releases, field by field. -/
theorem State.failReleased_fields (s : State) : s.failReleased.dio = s.dio.engageAll false ∧
    s.failReleased.aio = s.aio.faultReleaseAll ∧ s.failReleased.cyc.halted = true ∧
    ∀ l, s.failReleased.twin.lane l = s.twin.lane l := by
  unfold State.failReleased; exact ⟨rfl, rfl, rfl, fun _ => rfl⟩

theorem State.failModule_facts (s : State) (h : s.mod.failed = false) :
    Moves s s.failModule [.mod, .twin, .dio, .aio, .ax, .fab, .cyc, .safe] [(.mod, 8), (.safe, 5), (.twin, 6), (.ax, 13)] ∧
      s.failModule.raised .mod 8 = true ∧ s.failModule.mod = { s.mod with failed := true } ∧
      (s.failModule.twin.lane 0).state = .down ∧ (s.failModule.twin.lane 1).state = .down ∧
      s.failModule.twin = { s.twin with
        lanes := s.failModule.twin.lanes, copies := s.failModule.twin.copies, ownLow := false, keeper := false, engaged := false
        link := .severed, started := false, waiting := false, heard := none, yielding := none, handover := none
        testing := false, split := none, openElig := none, phase := 0 } ∧
      s.failModule.dio = s.dio.engageAll false ∧ s.failModule.aio = s.aio.faultReleaseAll ∧
      s.failModule.ax = s.ax.mapAll Axis.cold ∧ s.failModule.cyc.halted = true := by
  rw [s.failModule_eq h]
  have recorded := s.moves_failRecorded
  have lanes := s.failRecorded.moves_lanesDown
  have released := s.failRecorded.lanesDown.moves_failReleased
  have cold := s.failRecorded.lanesDown.failReleased.moves_axCold
  have brakes := s.failRecorded.lanesDown.failReleased.axCold.moves_brakeAbortAll
  have before := (recorded.stay (l' := [.mod, .twin]) (m' := [(.mod, 8), (.twin, 6)])).trans lanes.stay
  have after := (released.stay (l' := [.twin, .dio, .aio, .ax, .fab, .cyc, .safe]) (m' := [(.safe, 5), (.ax, 13)])).trans
    (cold.stay.trans brakes.stay)
  obtain ⟨down0, down1, x, c, twin1⟩ := s.failRecorded.twin_lanesDown
  obtain ⟨dio, aio, halted, lane⟩ := s.failRecorded.lanesDown.failReleased_fields
  have twin2 := brakes.twin.trans cold.twin
  refine ⟨before.stay.trans after.stay, ?_, ?_, ?_, ?_, ?_, ?_, ?_, ?_, ?_⟩
  · exact after.raised (lanes.raised (State.raised_report _ _ _ _ _ (by decide)))
  · exact after.mod.trans (lanes.mod.trans (State.mod_report _ _ _ _ _))
  · rw [twin2, lane, down0]
  · rw [twin2, lane, down1]
  · rw [twin2]
    simp only [State.failReleased, twin1, recorded.twin]
  · rw [brakes.dio, cold.dio, dio, before.dio]
  · rw [brakes.aio, cold.aio, aio, before.aio]
  · rw [brakes.ax, State.ax_axCold, released.ax, before.ax]
  · rw [brakes.cyc, cold.cyc, halted]

/-- The regions whose fault fails the module in any role (01 R21, R22). -/
theorem exec_of_fatal (s : State) (i : Instr) (h : i ∈ ([.cycleControllerFault, .timeUnitFault, .retainedStoreUe] : List Instr)) :
    exec i s = .next s.failModule := by
  simp only [List.mem_cons, List.not_mem_nil, or_false] at h
  rcases h with rfl | rfl | rfl <;> rfl

theorem exec_dieOvertemp (s : State) :
    exec .dieOvertemp s = .next (if s.mod.powered && decide (100000 ≤ s.mod.dieHot) then s.failModule else s) := rfl

theorem dieOvertemp_notYet (s : State) (h : s.mod.powered = false ∨ s.mod.dieHot < 100000) : exec .dieOvertemp s = .next s := by
  rw [exec_dieOvertemp, if_neg]
  rcases h with h | h
  · simp [h]
  · simp [Nat.not_le.mpr h]

theorem fatal_failed (s : State) (i : Instr) (h : i ∈ ([.cycleControllerFault, .timeUnitFault, .retainedStoreUe] : List Instr))
    (hf : s.mod.failed = true) : exec i s = .next s := by rw [exec_of_fatal s i h, s.failModule_of_failed hf]

theorem exec_fails (s : State) (i : Instr) (h : i ∈ ([.cycleControllerFault, .timeUnitFault, .retainedStoreUe, .dieOvertemp] : List Instr))
    (hot : i = .dieOvertemp → s.mod.powered = true ∧ 100000 ≤ s.mod.dieHot) : exec i s = .next s.failModule := by
  rcases List.mem_append.mp (show i ∈ [.cycleControllerFault, .timeUnitFault, .retainedStoreUe] ++ [.dieOvertemp] from h) with h | h
  · exact exec_of_fatal s i h
  · obtain rfl := List.mem_singleton.mp h
    obtain ⟨on, long⟩ := hot rfl
    rw [exec_dieOvertemp, if_pos (by simp [on, long])]

/-! A faulted region (01 R22). -/

/-- A region that is new among the faulted ones is added to them. -/
def State.addRegion (s : State) (r : Region) : State := { s with twin := { s.twin with regions := s.twin.regions ++ [r] } }

theorem State.regionFault_of_new (s : State) (r : Region) (h : r ∉ s.twin.regions) :
    s.regionFault r = if s.leads && s.partnerEligible && s.twin.yielding.isNone then (s.addRegion r).yieldNow (some r) .self
      else s.addRegion r := by
  have new : s.twin.regions.contains r = false := by simpa using h
  unfold State.regionFault
  simp only [new]
  rfl

/-- A module that is no LEAD only notes the fault. -/
theorem State.regionFault_noted (s : State) (r : Region) (hl : s.leads = false) (h : r ∉ s.twin.regions) :
    s.regionFault r = s.addRegion r := by
  rw [s.regionFault_of_new r h, if_neg (by simp [hl])]

theorem svFault_noted (s : State) (r : List Region) (hl : s.leads = false) (hr : s.twin.regions = r) (hn : Region.sv ∉ r) :
    RunsTo .svFault s { s with twin := { s.twin with regions := r ++ [.sv] } } [] := by
  subst hr
  exact .quiet (congrArg Host.Outcome.next (s.regionFault_noted .sv hl hn)) rfl

theorem networkUnitFault_noted (s : State) (p : Fin 2) (hl : s.leads = false) (hr : s.twin.regions = []) :
    RunsTo (.networkUnitFault p) s
      { s with twin := { s.twin with regions := [.net] }, net := { s.net with nodeFault := Tbl.set false s.net.nodeFault p true } } [] := by
  refine .quiet ?_ rfl
  change Host.Outcome.next (State.regionFault { s with net := { s.net with nodeFault := Tbl.set false s.net.nodeFault p true } } .net) = _
  rw [State.regionFault_noted _ .net (by exact hl) (by simp [hr])]
  simp [State.addRegion, hr]

theorem State.olvia_up (s : State) (o : OlviaOut) (h : s.twin.linkUp = true) : s.olvia o = { s with twin := s.twin.send o } := if_pos h

theorem svFault_yields (s : State) (hl : s.leads = true) (he : s.partnerEligible = true) (hy : s.twin.yielding = none)
    (hr : s.twin.regions = []) (hu : s.twin.linkUp = true) :
    RunsTo .svFault s { s with twin := TwinBlk.send { s.twin with
      regions := [.sv], keeper := false, ownLow := false, yielding := some { region := some .sv, origin := .self } } (.yield .sv false) } [] := by
  refine .quiet ?_ rfl
  change Host.Outcome.next (s.regionFault .sv) = _
  rw [s.regionFault_of_new .sv (by simp [hr]), if_pos (by simp [hl, he, hy]), State.yieldNow,
    State.olvia_up _ _ (by exact hu)]
  simp [State.addRegion, hr]

theorem svRestartDone_clears (s : State) :
    RunsTo .svRestartDone s { s with twin := { s.twin with regions := s.twin.regions.filter (fun r => r != Region.sv) } } [] :=
  .quiet rfl rfl

/-! A faulted twin unit (01 R22, 04 R106). -/

/-- The twin unit gives up the link and the role line. -/
def State.twinCut (s : State) (lastTake : Word) : State := { s with twin := { s.twin with
  ownLow := false, keeper := false, link := .severed, heard := none, phase := 0, isolated := true
  split := some (s.nowNs, 0), yielding := none, openElig := none
  regions := if s.twin.regions.contains Region.twin then s.twin.regions else s.twin.regions ++ [Region.twin], lastTake := lastTake } }

theorem State.lane_twinCut (s : State) (w : Word) (l : Nat) : (s.twinCut w).twin.lane l = s.twin.lane l := by
  unfold State.twinCut; rfl

/-- A token holder reports the loss of its pair and ends what its partner never acknowledged; FOLLOW ends. -/
def State.twinCutTold (s : State) (lead joined : Bool) : State :=
  (if lead then (if joined then s.twinRecord 1 0xFFFFFFFF else s).pnlYielded else s).endFollow

theorem State.twinUnitFault_eq (s : State) : s.twinUnitFault = (s.lanesDown.twinCut
    (if s.leads then lastTakeWord 2 6 0 s.lanesDown.unitNo else s.lanesDown.twin.lastTake)).twinCutTold
      s.holdsToken (s.twin.link != .severed) := by
  unfold State.twinUnitFault State.twinCutTold State.twinCut State.leads; rfl

theorem State.moves_twinCut (s : State) (w : Word) : Moves s (s.twinCut w) [.twin] [] := by
  unfold State.twinCut; exact .set

theorem State.moves_twinCutTold (s : State) (lead joined : Bool) :
    Moves s (s.twinCutTold lead joined) [.pnl, .time, .done] [(.time, 0), (.time, 1), (.pnl, 2), (.twin, 1)] := by
  have told : Moves s (if joined then s.twinRecord 1 0xFFFFFFFF else s) [.pnl, .time, .done] [(.time, 0), (.time, 1), (.pnl, 2), (.twin, 1)] :=
    .ite ((s.moves_twinRecord _ _ (by decide)).stay) (.refl _ _ _)
  unfold State.twinCutTold
  refine .trans (.ite ?_ (.refl _ _ _)) (State.moves_endFollow _).stay
  exact told.trans (State.moves_pnlYielded _).stay

theorem State.raised_twinCutTold (s : State) : (s.twinCutTold true true).raised .twin 1 = true :=
  (State.moves_endFollow _).raised ((State.moves_pnlYielded _).raised (State.raised_recordEvent _ _ _ _ _ (by decide)))

theorem State.twinUnitFault_facts (s : State) (h : s.twin.regions = []) :
    Moves s s.twinUnitFault [.twin, .time, .pnl, .done] [(.time, 0), (.time, 1), (.pnl, 2), (.twin, 6), (.twin, 1)] ∧
      (s.leads = true → s.twinUnitFault.raised .twin 1 = true) ∧
      (s.twinUnitFault.twin.lane 0).state = .down ∧ (s.twinUnitFault.twin.lane 1).state = .down ∧
      s.twinUnitFault.twin = { s.twin with
        lanes := s.twinUnitFault.twin.lanes, copies := s.twinUnitFault.twin.copies, ownLow := false, keeper := false
        link := .severed, heard := none, phase := 0, isolated := true, split := some (s.nowNs, 0), yielding := none
        openElig := none, regions := [.twin], lastTake := if s.leads then lastTakeWord 2 6 0 s.unitNo else s.twin.lastTake } := by
  rw [s.twinUnitFault_eq]
  have lanes := s.moves_lanesDown
  obtain ⟨down0, down1, x, c, twin1⟩ := s.twin_lanesDown
  have now : s.lanesDown.nowNs = s.nowNs := by simp only [State.nowNs, lanes.time]
  have unit : s.lanesDown.unitNo = s.unitNo := by simp only [State.unitNo, twin1]
  have take : s.lanesDown.twin.lastTake = s.twin.lastTake := by rw [twin1]
  rw [unit, take]
  generalize (if s.leads then lastTakeWord 2 6 0 s.unitNo else s.twin.lastTake) = w
  have cut := s.lanesDown.moves_twinCut w
  have told := (s.lanesDown.twinCut w).moves_twinCutTold s.holdsToken (s.twin.link != .severed)
  have moved := lanes.stay.trans (cut.stay.trans (told.stay (l' := [.twin, .time, .pnl, .done])
    (m' := [(.time, 0), (.time, 1), (.pnl, 2), (.twin, 6), (.twin, 1)])))
  refine ⟨moved, fun lead => ?_, ?_, ?_, ?_⟩
  · obtain ⟨token, joined⟩ := Bool.and_eq_true_iff.mp lead
    rw [token, joined]
    exact State.raised_twinCutTold _
  · rw [told.twin, State.lane_twinCut, down0]
  · rw [told.twin, State.lane_twinCut, down1]
  · rw [told.twin, State.twinCut, now, twin1]
    simp [h]

theorem keeperLapse_high (s : State) (h : s.twin.ownLow = false) :
    RunsTo .keeperLapse s { s with twin := { s.twin with keeper := false } } [] := by
  refine .quiet ?_ rfl
  change execKeeperLapse s = _
  unfold execKeeperLapse
  rw [if_pos (by simp [h])]

/-- A heartbeat generator lost with the role line low counts as the twin unit's own fault (04 R106). -/
theorem exec_twinLost (s : State) (i : Instr) (h : i = .twinUnitFault ∨ (i = .keeperLapse ∧ s.twin.ownLow = true)) :
    exec i s = .next s.twinUnitFault := by
  rcases h with rfl | ⟨rfl, low⟩
  · rfl
  · change execKeeperLapse s = _
    unfold execKeeperLapse
    rw [if_neg (by simp [low])]

/-! Seats (01 R18, R20, 04 R101, R111, R114). -/

/-- The module has found its seat: its slot stands and its safety cell knows of it. -/
def State.seatClosed (s : State) (slotB : Bool) : State :=
  State.setSafe { s with twin := { s.twin with seated := true, slotB := slotB } } { s.safe with seated := true }

/-- A seated module takes a role anew when it had one, has none and waits for none. -/
theorem exec_seatClose (s : State) (b : Bool) : exec (.seatClose b) s =
    .next (if s.twin.began && !s.mod.failed && !s.twin.started && !s.twin.waiting then (s.seatClosed b).takeRole else s.seatClosed b) := by
  change execSeatClose b s = _
  unfold execSeatClose State.seatClosed
  simp only [State.twin_setSafe_of, State.mod_setSafe_of]

theorem seatClose_keepsRole (s : State) (b : Bool)
    (h : s.twin.began = false ∨ s.mod.failed = true ∨ s.twin.started = true ∨ s.twin.waiting = true) :
    RunsTo (.seatClose b) s (s.seatClosed b) [] := by
  refine .quiet ?_ (State.event_setSafe _ _)
  rw [exec_seatClose, if_neg]
  rcases h with h | h | h | h <;> simp [h]

theorem State.takeRole_alone (s : State) (h : s.twin.partner = false) :
    s.takeRole = { s with twin := { s.twin with waiting := true, waitAt := s.mod.uptime } } := by
  unfold State.takeRole
  rw [if_pos (by simp [h])]

theorem seatClose_waits (s : State) (b : Bool) (hb : s.twin.began = true) (hf : s.mod.failed = false) (hs : s.twin.started = false)
    (hw : s.twin.waiting = false) (hp : s.twin.partner = false) :
    RunsTo (.seatClose b) s (State.setSafe { s with twin := { s.twin with seated := true, slotB := b, waiting := true, waitAt := s.mod.uptime } }
      { s.safe with seated := true }) [] := by
  refine .quiet ?_ (State.event_setSafe _ _)
  rw [exec_seatClose, if_pos (by simp [hb, hf, hs, hw]), State.takeRole_alone _ (by simp [State.seatClosed, hp])]
  simp only [State.seatClosed, State.setSafe, State.nowNs]

theorem seatOpen_unseated (s : State) (h : s.twin.seated = false) : exec .seatOpen s = .next s := by
  change execSeatOpen s = _
  unfold execSeatOpen
  rw [if_pos (by simp [h])]

/-- A module that leaves its seat gives up its role, its link and its stages. -/
def State.seatReleased (s : State) : State :=
  { s with
    twin := { s.twin with seated := false, ownLow := false, keeper := false, engaged := false, started := false, waiting := false
                          link := .severed, heard := none, phase := 0, yielding := none, split := none, openElig := none, isolated := true }
    dio := s.dio.engageAll false, aio := s.aio.faultReleaseAll }

/-- Its safety cell sees the seat open. -/
def State.cellUnseated (s : State) : State := s.setSafe { s.safe with seated := false }

/-- The stages of an opened seat, in their order. -/
theorem exec_seatOpen (s : State) (h : s.twin.seated = true) :
    exec .seatOpen s = .next (s.lanesDown.seatReleased.axCold.cellUnseated.brakeAbortAll.pnlYielded.endFollow) := by
  change execSeatOpen s = _
  unfold execSeatOpen State.cellUnseated State.seatReleased
  rw [if_neg (by simp [h])]

theorem State.moves_seatReleased (s : State) : Moves s s.seatReleased [.twin, .dio, .aio] [] := by
  unfold State.seatReleased; exact .set

theorem State.seatReleased_blocks (s : State) : s.seatReleased.dio = s.dio.engageAll false ∧ s.seatReleased.aio = s.aio.faultReleaseAll := by
  unfold State.seatReleased; exact ⟨rfl, rfl⟩

theorem State.seatReleased_twin (s : State) : s.seatReleased.twin.seated = false ∧ s.seatReleased.twin.waiting = false ∧
    s.seatReleased.twin.started = false ∧ s.seatReleased.twin.ownLow = false ∧ s.seatReleased.twin.engaged = false ∧
    s.seatReleased.twin.link = .severed ∧ s.seatReleased.twin.isolated = true := by
  unfold State.seatReleased; exact ⟨rfl, rfl, rfl, rfl, rfl, rfl, rfl⟩

theorem seatOpen_releases (s : State) (h : s.twin.seated = true) :
    ∃ t, Changes .seatOpen s t [.twin, .dio, .aio, .ax, .safe, .pnl, .time, .done]
        [(.twin, 6), (.safe, 5), (.pnl, 2), (.time, 0), (.time, 1), (.ax, 13)] ∧
      t.twin.seated = false ∧ t.safe.seated = false ∧ t.twin.waiting = false ∧ t.twin.started = false ∧ t.twin.ownLow = false ∧
      t.twin.engaged = false ∧ t.twin.link = .severed ∧ t.twin.isolated = true ∧
      t.dio = s.dio.engageAll false ∧ t.aio = s.aio.faultReleaseAll ∧ t.ax = s.ax.mapAll Axis.cold := by
  have lanes := s.moves_lanesDown
  have released := s.lanesDown.moves_seatReleased
  have cold := s.lanesDown.seatReleased.moves_axCold
  have cell : Moves _ s.lanesDown.seatReleased.axCold.cellUnseated [.safe] [] := State.moves_setSafe _ _ _
  have brakes := s.lanesDown.seatReleased.axCold.cellUnseated.moves_brakeAbortAll
  have same := s.lanesDown.seatReleased.axCold.cellUnseated.same_brakeAbortAll
  have panel := s.lanesDown.seatReleased.axCold.cellUnseated.brakeAbortAll.moves_pnlYielded
  have time := s.lanesDown.seatReleased.axCold.cellUnseated.brakeAbortAll.pnlYielded.moves_endFollow
  have later := cell.stay.trans (brakes.stay.trans (panel.stay.trans
    (time.stay (l' := [.safe, .pnl, .time, .done]) (m' := [(.safe, 5), (.pnl, 2), (.time, 0), (.time, 1)]))))
  have moved := lanes.stay.trans (released.stay.trans (cold.stay.trans (later.stay
    (l' := [.twin, .dio, .aio, .ax, .safe, .pnl, .time, .done]) (m' := [(.twin, 6), (.safe, 5), (.pnl, 2), (.time, 0), (.time, 1), (.ax, 13)]))))
  obtain ⟨dio, aio⟩ := s.lanesDown.seatReleased_blocks
  obtain ⟨seated, waiting, started, line, engaged, link, isolated⟩ := s.lanesDown.seatReleased_twin
  refine ⟨_, moved.changes (exec_seatOpen s h), ?_⟩
  rw [time.safe, panel.safe, same.seated, later.twin, cold.twin, later.dio, cold.dio, dio, lanes.dio, later.aio, cold.aio, aio, lanes.aio,
    later.ax, State.ax_axCold, released.ax, lanes.ax]
  exact ⟨seated, State.seated_setSafe _ _, waiting, started, line, engaged, link, isolated, rfl, rfl, rfl⟩

theorem partnerSeatClose_trains (s : State) : RunsTo .partnerSeatClose s
    { s with twin := ({ s.twin with partner := true } : TwinBlk).setLane 0 { s.twin.lane 0 with next := s.nowNs } |>.setLane 1 { s.twin.lane 1 with next := s.nowNs } } [] := by
  refine .quiet ?_ rfl
  change execPartnerSeatClose s = _
  have other : ∀ x, TwinBlk.lane (({ s.twin with partner := true } : TwinBlk).setLane 0 x) 1 = s.twin.lane 1 :=
    fun x => Tbl.get_set_ne _ _ _ (by decide)
  unfold execPartnerSeatClose
  dsimp only
  rw [other]
  rfl

theorem partnerSeatOpen_alone (s : State) (hp : s.twin.partner = true) (hs : s.twin.started = false) :
    ∃ t, Changes .partnerSeatOpen s t [.twin, .safe] [(.twin, 6), (.safe, 5)] ∧ t.twin.partner = false ∧
      (t.twin.lane 0).state = .down ∧ (t.twin.lane 1).state = .down := by
  have gone := State.moves_safePartnerGone { s with twin := { s.twin with partner := false } }
  have idle : (State.safePartnerGone { s with twin := { s.twin with partner := false } }).twin.started = false := by rw [gone.twin]; exact hs
  have step : exec .partnerSeatOpen s = .next (State.safePartnerGone { s with twin := { s.twin with partner := false } }).lanesDown := by
    change execPartnerSeatOpen s = _
    unfold execPartnerSeatOpen
    rw [if_neg (by simp [hp])]
    dsimp only
    rw [if_neg (by simp [idle])]
  obtain ⟨down0, down1, x, c, twin⟩ := State.twin_lanesDown (State.safePartnerGone { s with twin := { s.twin with partner := false } })
  refine ⟨_, (Moves.trans (t := { s with twin := { s.twin with partner := false } }) .set
    (gone.stay.trans (State.moves_lanesDown _).stay)).changes step, ?_, down0, down1⟩
  rw [twin, gone.twin]

/-- Settles O18: a failed module and a faulted twin unit by their stages, the other clauses by the lemma of their command. -/
theorem moduleFaults : Obligations.ModuleFaults := by
  refine ⟨fun s i fatal alive hot => ?_, fatal_failed, dieOvertemp_notYet, svFault_noted, svFault_yields, svRestartDone_clears,
    networkUnitFault_noted, fun s i lost sound => ?_, keeperLapse_high, seatClose_keepsRole, seatClose_waits, seatOpen_unseated,
    seatOpen_releases, partnerSeatClose_trains, partnerSeatOpen_alone⟩
  · obtain ⟨moved, left⟩ := s.failModule_facts alive
    exact ⟨_, moved.changes (exec_fails s i fatal hot), left⟩
  · obtain ⟨moved, left⟩ := s.twinUnitFault_facts sound
    exact ⟨_, moved.changes (exec_twinLost s i lost), left⟩

end Sys2Proof.Machine

namespace Sys2Proof.Machine

/-! Safety outputs (01 R20, 10 R308, R313, R317, R323). -/

/-- A command that only changes the safety cell. -/
theorem changes_setSafe {i : Instr} {s : State} {x : Safe} (h : exec i s = .next (s.setSafe x)) :
    Changes i s (s.setSafe x) [.safe] [] := (s.moves_setSafe x []).changes h

/-- A command that only puts a changed cell in place settles that cell. -/
theorem settles_setSafe {i : Instr} {s : State} {x : Safe} (h : exec i s = .next (s.setSafe x)) :
    ∃ t, Changes i s t [.safe] [] ∧ Settled x t.safe := ⟨_, changes_setSafe h, s.settled_setSafe x⟩

/-! What writing an output and settling leave. -/

@[simp] theorem Safe.getFn_setSo (x : Safe) (n f : Nat) (v : So) : (x.setSo n v).getFn f = x.getFn f := rfl

theorem Settled.active {x y : Safe} (h : Settled x y) (n : Nat) : (y.getSo n).active = (x.getSo n).active := by rw [h.so n]
theorem Settled.ovlNs {x y : Safe} (h : Settled x y) (n : Nat) : (y.getSo n).ovlNs = (x.getSo n).ovlNs := by rw [h.so n]
theorem Settled.expired {x y : Safe} (h : Settled x y) (n : Nat) : (y.getSo n).expired = (x.getSo n).expired := by rw [h.so n]
theorem SameOuts.expired {x y : Safe} (h : SameOuts x y) (n : Nat) : (y.getSo n).expired = (x.getSo n).expired := by rw [h n]

/-! What keeps lane P's switch open. -/

theorem Safe.hsOn_of_overload {x : Safe} {n t : Nat} (h : (x.getSo n).ovlNs = some t) : x.hsOn n = false := by
  simp [Safe.hsOn, Safe.hsMay, h]
theorem Safe.hsOn_of_fwStuck {x : Safe} {n : Nat} (h : SoDiag.fwStuck ∈ (x.getSo n).active) : x.hsOn n = false := by
  simp [Safe.hsOn, Safe.hsMay, h]
/-- A switch that is on has no freewheel fault. -/
theorem Safe.fwStuck_of_hsOn {x : Safe} {n : Nat} (h : x.hsOn n = true) : SoDiag.fwStuck ∉ (x.getSo n).active :=
  fun stuck => Bool.false_ne_true ((Safe.hsOn_of_fwStuck stuck).symm.trans h)

/-! A diagnostic that is new on its output. -/

/-- The output with a new diagnostic; a latched switch fault notes when the oldest was raised (10 R317). -/
def So.diagnosed (o : So) (d : SoDiag) (now : Nat) : So :=
  { o with active := d :: o.active, lastDiag := some d
           faultNs := if d.latched && o.faultNs.isNone then some now else o.faultNs }

theorem So.diagnosed_of_unlatched (o : So) {d : SoDiag} (now : Nat) (h : d.latched = false) :
    o.diagnosed d now = { o with active := d :: o.active, lastDiag := some d } := by simp [So.diagnosed, h]

/-- A new diagnostic is raised on its output alone and reported (10 R316, R323). -/
theorem State.soRaise_of_new (s : State) {n : Nat} {d : SoDiag} (h : d ∉ (s.safe.getSo n).active) :
    Settled (s.safe.setSo n ((s.safe.getSo n).diagnosed d s.nowNs)) (s.soRaise n d).safe ∧ (s.soRaise n d).raised .safe d.bit = true := by
  unfold State.soRaise
  dsimp only
  rw [if_neg (by simpa using h)]
  refine ⟨?_, State.raised_report _ _ _ _ _ (by cases d <;> decide)⟩
  have raised : So.raise d (s.safe.getSo n) = { s.safe.getSo n with active := d :: (s.safe.getSo n).active, lastDiag := some d } :=
    if_neg (by simpa using h)
  rw [State.safe_report, Safe.modSo, raised]
  exact s.settled_setSafe _

/-- A command that raises a new diagnostic. -/
theorem changes_soRaise {i : Instr} {s : State} {n : Nat} {d : SoDiag} (e : exec i s = .next (s.soRaise n d))
    (h : d ∉ (s.safe.getSo n).active) : ∃ t, Changes i s t [.safe] [(.safe, d.bit)] ∧ t.raised .safe d.bit = true ∧
      Settled (s.safe.setSo n ((s.safe.getSo n).diagnosed d s.nowNs)) t.safe := by
  obtain ⟨settled, told⟩ := s.soRaise_of_new h
  exact ⟨_, (s.moves_soRaise n d).changes e, told, settled⟩

/-! The commands. -/

theorem exec_xtlArm (s : State) (n : Fin 8) (h : s.partnerSeated = true) : exec (.xtlArm n) s =
    .next (s.setSafe { s.safe with armed := Bits.setBit s.safe.armed n, xtlIn := Bits.clrBit s.safe.xtlIn n }) := if_pos h

theorem exec_xtlDemandChange (s : State) (n : Fin 8) (d : Bool) (h : Bits.bit s.safe.armed n = true) :
    exec (.xtlDemandChange n d) s = .next (s.setSafe { s.safe with xtlIn := Bits.putBit s.safe.xtlIn n d }) := if_pos h

/-- Lane P opens a switch in overload. -/
def State.ovlOpened (s : State) (n : Nat) : State := s.setSafe (s.safe.setSo n { s.safe.getSo n with ovlNs := some s.nowNs })

theorem exec_soOverload (s : State) (n : Fin 8) (h : s.safe.hsOn n = true) :
    exec (.soOverload n) s = .next ((s.ovlOpened n).soRaise n .overload) := if_pos h

theorem soOverload_opens (s : State) (n : Fin 8) (on : s.safe.hsOn n = true) (new : SoDiag.overload ∉ (s.safe.getSo n).active) :
    ∃ t, Changes (.soOverload n) s t [.safe] [(.safe, 11)] ∧ t.raised .safe 11 = true ∧ t.safe.hsOn n = false ∧
      SoDiag.overload ∈ (t.safe.getSo n).active ∧ (t.safe.getSo n).ovlNs = some s.nowNs ∧
      ∀ f, (t.safe.getFn f).untimed = (s.safe.getFn f).untimed := by
  have opened : Settled (s.safe.setSo n { s.safe.getSo n with ovlNs := some s.nowNs }) (s.ovlOpened n).safe := s.settled_setSafe _
  have still : SoDiag.overload ∉ ((s.ovlOpened n).safe.getSo n).active := by rw [opened.active, Safe.getSo_setSo]; exact new
  obtain ⟨settled, told⟩ := (s.ovlOpened n).soRaise_of_new still
  have moved := (s.moves_setSafe _ _).trans ((s.ovlOpened n).moves_soRaise n .overload)
  have since : (((s.ovlOpened n).soRaise n .overload).safe.getSo n).ovlNs = some s.nowNs := by
    rw [settled.ovlNs, Safe.getSo_setSo, So.diagnosed, opened.ovlNs, Safe.getSo_setSo]
  refine ⟨_, moved.changes (exec_soOverload s n on), told, Safe.hsOn_of_overload since, ?_, since, fun f => ?_⟩
  · rw [settled.active, Safe.getSo_setSo]; exact List.mem_cons_self
  · rw [settled.fn, Safe.getFn_setSo, opened.fn, Safe.getFn_setSo]

/-- A retry that is due closes the switch or opens it for another second (10 R323). -/
theorem exec_soOverloadRetry (s : State) (n : Fin 8) (failed : Bool) {t0 : Nat} (since : (s.safe.getSo n).ovlNs = some t0)
    (lane : s.safe.laneP = true) (due : t0 + 1000000000 ≤ s.nowNs) : exec (.soOverloadRetry n failed) s =
    .next (s.setSafe (s.safe.setSo n (if failed then { s.safe.getSo n with ovlNs := some s.nowNs }
      else { s.safe.getSo n with ovlNs := none, active := (s.safe.getSo n).active.filter (· != .overload) }))) := by
  change execSoOverloadRetry n failed s = _
  unfold execSoOverloadRetry
  simp only [since]
  rw [if_neg (by simp [lane, due])]
  cases failed <;> rfl

theorem exec_soOpenLoad (s : State) (n : Fin 8) (h : s.safe.on100 s.nowNs n = true) :
    exec (.soOpenLoad n) s = .next (s.soRaise n .openLoad) := if_pos h

theorem exec_fwStuck (s : State) (n : Fin 8) (h : s.safe.hsOn n = true) : exec (.fwStuck n) s = .next (s.soRaise n .fwStuck) := if_pos h

theorem exec_lowSideClosureFail (s : State) (n : Fin 8) (closed : s.safe.lsClosed s.nowNs n = true) (partner : s.partnerSeated = true) :
    exec (.lowSideClosureFail n) s = .next (s.soRaise n .closureFail) := if_pos (by simp [closed, partner])

theorem exec_sbcBoostEnd (s : State) (n : Fin 8) {t0 : Nat} (on : s.safe.hsOn n = true) (since : (s.safe.getSo n).onNs = some t0)
    (due : t0 + 200000000 ≤ s.nowNs) (sbc : s.safe.valid.any (fun e => e.2.so n && e.2.type == .sbc) = true) :
    exec (.sbcBoostEnd n) s = .next (s.setSafe (s.safe.setSo n { s.safe.getSo n with held := true })) := by
  change execSbcBoostEnd n s = _
  unfold execSbcBoostEnd
  simp only [since]
  rw [if_pos (by simp only [on, due, sbc, decide_true, Bool.and_self])]
  simp only [Safe.modSo, since]

theorem fwStuck_opens (s : State) (n : Fin 8) (on : s.safe.hsOn n = true) :
    ∃ t, Changes (.fwStuck n) s t [.safe] [(.safe, 8)] ∧ t.raised .safe 8 = true ∧
      Settled (s.safe.setSo n { s.safe.getSo n with active := .fwStuck :: (s.safe.getSo n).active, lastDiag := some .fwStuck }) t.safe ∧
      t.safe.hsOn n = false := by
  obtain ⟨t, moved, told, settled⟩ := changes_soRaise (exec_fwStuck s n on) (Safe.fwStuck_of_hsOn on)
  rw [So.diagnosed_of_unlatched _ _ rfl] at settled
  refine ⟨t, moved, told, settled, Safe.hsOn_of_fwStuck ?_⟩
  rw [settled.active, Safe.getSo_setSo]
  exact List.mem_cons_self

/-- The REPAIR_TIME of an output has been taken. -/
def State.repairTaken (s : State) (n : Nat) : State := s.setSafe (s.safe.setSo n { s.safe.getSo n with expired := true })

/-- Every function that lists the output goes to FAULTED when its REPAIR_TIME expires (10 R317). -/
def State.repairFaulted (s : State) (n : Nat) : State := (s.repairTaken n).fnFaultAll (fun e => e.so n) .repairTime

theorem exec_repairTimeExpiry (s : State) (n : Fin 8) {t0 : Nat} (lane : s.safe.laneP = true) (fresh : (s.safe.getSo n).expired = false)
    (since : (s.safe.getSo n).faultNs = some t0) (due : t0 + Bits.get (s.safe.getSo n).cfg 8 8 * 3600000000000 ≤ s.nowNs) :
    exec (.repairTimeExpiry n) s =
      .next ((s.repairFaulted n).report .safe 16 n ((s.repairFaulted n).safe.soStatus (s.repairFaulted n).nowNs n)) := by
  change execRepairTimeExpiry n s = _
  unfold execRepairTimeExpiry
  simp only [since]
  rw [if_pos (by simp [lane, fresh, due])]
  rfl

theorem repairTimeExpiry_faults (s : State) (n : Fin 8) (t0 : Nat) (lane : s.safe.laneP = true) (fresh : (s.safe.getSo n).expired = false)
    (since : (s.safe.getSo n).faultNs = some t0) (due : t0 + Bits.get (s.safe.getSo n).cfg 8 8 * 3600000000000 ≤ s.nowNs) :
    ∃ t, Changes (.repairTimeExpiry n) s t [.safe] [(.safe, 16)] ∧ t.raised .safe 16 = true ∧ (t.safe.getSo n).expired = true ∧
      ∀ f e, (f, e) ∈ s.safe.valid → e.so n = true → (s.safe.getFn f).phase ≠ .unused →
        (t.safe.getFn f).phase = .faulted ∧ FnCause.repairTime ∈ (t.safe.getFn f).faults := by
  have faulted : Moves s (s.repairFaulted n) [.safe] [(.safe, 16)] :=
    (s.moves_setSafe _ _).trans ((s.repairTaken n).moves_fnFaultAll _ _ _)
  have moved := faulted.report .safe 16 n ((s.repairFaulted n).safe.soStatus (s.repairFaulted n).nowNs n) (by decide) List.mem_cons_self
  have taken : Settled (s.safe.setSo n { s.safe.getSo n with expired := true }) (s.repairTaken n).safe := s.settled_setSafe _
  refine ⟨_, moved.changes (exec_repairTimeExpiry s n lane fresh since due), State.raised_report _ _ _ _ _ (by decide), ?_, fun f e hm hs hp => ?_⟩
  · rw [State.safe_report, State.repairFaulted, (State.outs_fnFaultAll _ _ _).expired, taken.expired, Safe.getSo_setSo]
  · rw [State.safe_report]
    refine (s.repairTaken n).fnFaultAll_faults _ _ f e ?_ hs ?_
    · rw [State.repairTaken, State.valid_setSafe]; exact hm
    · rw [State.repairTaken, State.fnPhase_setSafe]; exact hp

/-- Settles O44: each command puts a changed cell in place or raises one new diagnostic; an overload does both, and an expired
REPAIR_TIME also faults the functions of its output. -/
theorem safetyOutputs : Obligations.SafetyOutputs := by
  refine ⟨fun s n seated => settles_setSafe (exec_xtlArm s n seated), fun s n d armed => settles_setSafe (exec_xtlDemandChange s n d armed),
    soOverload_opens, fun s n t0 since lane due => ?_, fun s n on new => ?_, fwStuck_opens, fun s n closed partner new => ?_,
    fun s n t0 on since due sbc => settles_setSafe (exec_sbcBoostEnd s n on since due sbc), repairTimeExpiry_faults⟩
  · exact ⟨settles_setSafe (exec_soOverloadRetry s n false since lane due), settles_setSafe (exec_soOverloadRetry s n true since lane due)⟩
  · rw [← So.diagnosed_of_unlatched _ s.nowNs rfl]
    exact changes_soRaise (exec_soOpenLoad s n on) new
  · exact changes_soRaise (exec_lowSideClosureFail s n closed partner) new

end Sys2Proof.Machine

namespace Sys2Proof.Machine

/-! The T0 instants of a task (02 R29-R33, R37, R49, R57, R63). -/

/-- Nothing comes before the T0 of a calm task: no exchange reaches its Tx, no parameters change. -/
theorem State.beforeT0_calm {s : State} {n : Nat} (t0 : Nat) (h : s.Calm n) : s.beforeT0 n t0 = s := by
  have noExchange : s.xchBeforeT0 n t0 = s := by simp [State.xchBeforeT0, State.exchanging, h.exchange]
  rw [State.beforeT0, noExchange, State.takeTaskCfg, if_neg (by simpa using h.changing)]

theorem State.started_of_t0Open {s : State} {n t0 : Nat} (h : s.t0Open n t0 = true) : s.twin.started = true := by
  unfold State.t0Open at h
  simp only [Bool.and_eq_true] at h
  exact h.1.1.2

theorem exec_taskT0 (s : State) (n : Fin 32) (env : T0Env) (opened : s.t0Open n s.tickStart.toNat = true)
    (falls : (s.taskCfg n).fallsOn s.tickNo = true) (calm : s.Calm n) :
    exec (.taskT0 n env) s = .next (s.taskT0 n s.tickStart.toNat env false) := by
  change execTaskT0 n env s = _
  unfold execTaskT0
  rw [if_pos (by simp [opened, falls]), s.beforeT0_calm _ calm, if_pos falls]

theorem exec_fallbackT0 (s : State) (n : Fin 32) (env : T0Env) (opened : s.t0Open n s.tickStart.toNat = true)
    (angle : (s.taskCfg n).angle = true) (due : s.fallbackAt n ≤ s.tickNo) (calm : s.Calm n) :
    exec (.fallbackT0 n false env) s = .next (s.taskT0 n s.tickStart.toNat env true) := by
  change execFallbackT0 n false env s = _
  unfold execFallbackT0
  rw [if_pos (by simp [opened, angle, due]), s.beforeT0_calm _ calm]

theorem exec_fallbackT0_firing (s : State) (n : Fin 32) (env : T0Env) : exec (.fallbackT0 n true env) s = .next s := by
  change execFallbackT0 n true env s = _
  unfold execFallbackT0
  rw [if_neg (by simp)]

/-- The firing of an angle-locked task that may have its T0 now counts (02 R30, R31). -/
structure State.FiringCounts (s : State) (n : Fin 32) (e : Fin 24) (f : Bool) (t0 : Nat) : Prop where
  opened : s.t0Open n t0 = true
  angle : (s.taskCfg n).angle = true
  entry : e.val < (s.taskCfg n).firingCount
  way : (s.taskCfg n).counts f = true
  locked : (s.time.clock (s.taskCfg n).clock).locked = true

/-- A firing within 250 microseconds of the last T0 is skipped (02 R31). -/
theorem exec_angleFiring_soon {s : State} {n : Fin 32} {e : Fin 24} {f : Bool} (ns : Fin 10000) (env : T0Env) {x : Nat}
    (h : s.FiringCounts n e f (s.tickStart.toNat + (ns.val + 9) / 10 * 10)) (last : (s.task n).lastT0 = some x)
    (soon : s.tickStart.toNat + (ns.val + 9) / 10 * 10 < x + 250000) : exec (.angleFiring n e f ns env) s = .next (s.skipT0 n) := by
  change execAngleFiring n e f ns env s = _
  unfold execAngleFiring
  rw [if_pos (by simp [h.opened, h.angle, h.entry, h.way, h.locked])]
  simp only [last]
  rw [if_pos soon]

theorem exec_angleFiring {s : State} {n : Fin 32} {e : Fin 24} {f : Bool} (ns : Fin 10000) (env : T0Env)
    (h : s.FiringCounts n e f (s.tickStart.toNat + (ns.val + 9) / 10 * 10)) (calm : s.Calm n)
    (apart : ∀ x, (s.task n).lastT0 = some x → x + 250000 ≤ s.tickStart.toNat + (ns.val + 9) / 10 * 10) :
    exec (.angleFiring n e f ns env) s = .next (s.taskT0 n (s.tickStart.toNat + (ns.val + 9) / 10 * 10) env false) := by
  change execAngleFiring n e f ns env s = _
  unfold execAngleFiring
  rw [if_pos (by simp [h.opened, h.angle, h.entry, h.way, h.locked])]
  simp only [State.beforeT0_calm _ calm]
  split
  · next x last => rw [if_neg (Nat.not_lt.mpr (apart x last))]
  · rfl

theorem State.skipT0_runs {i : Instr} {s : State} {n : Nat} (h : exec i s = .next (s.skipT0 n)) :
    RunsTo i s { s with cyc := { s.cyc with
      skipCnt := s.cyc.skipCnt + 1#64, tasks := Tbl.set {} s.cyc.tasks n { s.task n with skip := (s.task n).skip + 1 } } } [(.cyc, 6)] :=
  .setEvent h rfl (by decide)

/-- The parts that the T0 of a calm task may move, and the bits it may set. -/
abbrev t0Parts : List Part := [.dio, .aio, .safe, .time, .net, .cyc, .fab, .twin]
abbrev t0Bits : List (Block × Nat) := [(.net, 10), (.cyc, 7), (.fab, 6), (.fab, 7), (.safe, 5)]

/-- A command that is the T0 of a calm, idle task starts the task's next cycle. -/
theorem t0_starts {i : Instr} {s : State} {n t0 : Nat} {env : T0Env} {b : Bool} (h : exec i s = .next (s.taskT0 n t0 env b))
    (calm : s.Calm n) (opened : s.t0Open n t0 = true) (idle : (s.task n).run = none)
    (free : ∀ x, (s.task n).lastTc = some x → x + 30000 ≤ t0) :
    ∃ t, Changes i s t t0Parts t0Bits ∧
      (∃ r, (t.task n).run = some r ∧ r.k = (s.task n).cycle + 1#64 ∧ r.t0 = t0 ∧ r.agreed = false ∧ r.retired = [] ∧ r.tc = none) ∧
      (t.task n).lastT0 = some t0 ∧ (t.task n).prevT0 = some t0 ∧ (t.task n).skip = 0 ∧
      (t.task n).cycle = (s.task n).cycle ∧ (t.task n).image = (s.task n).image ∧ (t.task n).draft = (s.task n).draft ∧
      (∀ x, (s.task n).resumed = false → (s.task n).prevT0 = some x → (t.task n).deltaT = t0 - x) ∧
      (∀ m : Nat, m ≠ n → t.task m = s.task m) ∧ (b = true → t.raised .cyc 7 = true) := by
  obtain ⟨moved, r, w, p, v, run, k, at0, agreed, retired, tc, -, delta, others, told, task⟩ :=
    s.taskT0_starts n t0 env b calm (State.started_of_t0Open opened) idle free
  refine ⟨_, moved.changes h, ⟨r, run, k, at0, agreed, retired, tc⟩, ?_⟩
  rw [task]
  exact ⟨rfl, rfl, rfl, rfl, rfl, rfl, delta, others, told⟩

/-- Settles O19: a T0 of a calm task starts its next cycle or is skipped; a firing too soon is skipped, and one at the fallback's
instant leaves nothing to the fallback. -/
theorem cycleInstants : Obligations.CycleInstants := by
  refine ⟨fun s n env opened falls calm idle free => ?_, fun s n env r opened falls calm run => ?_,
    fun s n e f ns env t0 at0 opened angle entry way locked calm apart idle free => ?_,
    fun s n e f ns env t0 x at0 opened angle entry way locked last soon => ?_,
    fun s n env opened angle due calm idle free => ?_, fun s n env => .quiet (exec_fallbackT0_firing s n env) rfl⟩
  · obtain ⟨t, moved, run, last, prev, skip, cycle, image, draft, delta, others, -⟩ :=
      t0_starts (exec_taskT0 s n env opened falls calm) calm opened idle free
    exact ⟨t, moved, run, last, prev, skip, cycle, image, draft, delta, others⟩
  · obtain ⟨moved, told, cyc⟩ := s.taskT0_skips n s.tickStart.toNat env false calm r run
    exact ⟨_, moved.changes (exec_taskT0 s n env opened falls calm), told, cyc⟩
  · subst at0
    obtain ⟨t, moved, ⟨r, run, k, start, agreed, -⟩, last, prev, skip, -, -, -, delta, -⟩ :=
      t0_starts (exec_angleFiring ns env ⟨opened, angle, entry, way, locked⟩ calm apart) calm opened idle free
    exact ⟨t, moved, ⟨r, run, k, start, agreed⟩, last, prev, skip, delta⟩
  · subst at0
    exact State.skipT0_runs (exec_angleFiring_soon ns env ⟨opened, angle, entry, way, locked⟩ last soon)
  · obtain ⟨t, moved, ⟨r, run, k, start, agreed, -⟩, last, -, skip, -, -, -, -, -, told⟩ :=
      t0_starts (exec_fallbackT0 s n env opened angle due calm) calm opened idle free
    exact ⟨t, moved, ⟨r, run, k, start, agreed⟩, last, skip, told rfl⟩

end Sys2Proof.Machine

namespace Sys2Proof.Machine

/-! The course of a cycle after its T0 (02 R36-R47, R59, 03 R71, 04 R115). -/

/-! The agreed image. -/

/-- The image goes to a partner that agrees, and nothing but the twin unit's sending moves. -/
def State.tellAgreed (s : State) (n : Nat) (k : DWord) (l : List InVal) : State :=
  if s.agrees then s.olvia (.agreed n k l) else s

theorem State.moves_tellAgreed (s : State) (n : Nat) (k : DWord) (l : List InVal) (m : List (Block × Nat)) :
    Moves s (s.tellAgreed n k l) [.twin] m := .ite (s.moves_olvia _ m) (.refl _ _ _)

theorem State.quiet_tellAgreed (s : State) (n : Nat) (k : DWord) (l : List InVal) :
    (s.tellAgreed n k l).twin.quiet = s.twin.quiet := by
  unfold State.tellAgreed
  split
  · exact s.quiet_olvia _
  · rfl

/-- A module that decides for itself takes the image that it forms. -/
theorem exec_agreedImageComplete_own {s : State} {n : Fin 32} {r : CycleRun} (run : (s.task n).run = some r)
    (fresh : r.agreed = false) (sound : r.faulted = false)
    (own : s.holdsToken = true ∨ s.twin.link = .severed ∨ s.heldAlone = true) : exec (.agreedImageComplete n) s =
      .next ((s.tellAgreed n r.k (s.formImage n r).1).takeImage n r (s.formImage n r).1 (s.formImage n r).2 false) := by
  change execAgreedImageComplete n s = _
  unfold execAgreedImageComplete
  simp only [run]
  rw [if_neg (by simp [fresh, sound]), if_pos (by simpa [or_assoc] using own)]
  rfl

/-- A module that follows takes the partner's image, but for the members that it reads itself. -/
theorem exec_agreedImageComplete_partner {s : State} {n : Fin 32} {r : CycleRun} {l : List InVal} (run : (s.task n).run = some r)
    (fresh : r.agreed = false) (sound : r.faulted = false) (token : s.holdsToken = false) (link : s.twin.link ≠ .severed)
    (held : s.heldAlone = false) (told : (s.twin.task n).agreedOf r.k = some l) : exec (.agreedImageComplete n) s =
      .next (s.takeImage n r (ownMembers (s.progTask n).inputs r.inputs l) (s.formImage n r).2
        (((s.twin.task n).samplesOf r.k).isSome && (s.formImage n r).1 != ownMembers (s.progTask n).inputs r.inputs l)) := by
  change execAgreedImageComplete n s = _
  unfold execAgreedImageComplete
  simp only [run]
  rw [if_neg (by simp [fresh, sound]), if_neg (by simp [token, link, held])]
  simp only [told]

/-! The rick input deadline. -/

/-- An entry of three lists that are zipped and mapped. -/
theorem getElem?_map_zip3 {α β γ δ : Type} (f : α × β × γ → δ) {as : List α} {bs : List β} {cs : List γ} {i : Nat} {x : α} {y : β} {z : γ}
    (ha : as[i]? = some x) (hb : bs[i]? = some y) (hc : cs[i]? = some z) : ((as.zip (bs.zip cs)).map f)[i]? = some (f (x, y, z)) := by
  have inner : (bs.zip cs)[i]? = some (y, z) := List.getElem?_zip_eq_some.mpr ⟨hb, hc⟩
  have outer : (as.zip (bs.zip cs))[i]? = some (x, y, z) := List.getElem?_zip_eq_some.mpr ⟨ha, inner⟩
  rw [List.getElem?_map, outer, Option.map_some]

/-- A list padded to the length of another has an entry where the other has one. -/
theorem exists_getElem?_padded {α β : Type} (a : List α) (d : α) {b : List β} {i : Nat} {y : β} (h : b[i]? = some y) :
    ∃ x, (a ++ List.replicate b.length d)[i]? = some x := by
  have inside : i < b.length := (List.getElem?_eq_some_iff.mp h).1
  exact ⟨_, List.getElem?_eq_getElem (by rw [List.length_append, List.length_replicate]; omega)⟩

/-- When the deadline passes, the members of RX units take what the units delivered, and the other members stay (02 R58, R59). -/
theorem exec_rickInputDeadline {s : State} {n : Fin 32} {r : CycleRun} (run : (s.task n).run = some r) (fresh : r.rick = false)
    (due : r.t0 + Bits.get s.cfg.cur.cyc 8 8 * 10000 ≤ s.nowNs) :
    ∃ (vals : List InVal) (csw : Word) (back : Nat) (good : List (List Byte)),
      exec (.rickInputDeadline n) s = .next ((s.setTask n { s.task n with
        run := some { r with rick := true, inputs := vals }, csw := csw, back := back, lastGood := good }).releaseBillets n) ∧
      (∀ (i u ch : Nat) (v : InVal), (s.progTask n).inputs[i]? = some (InKind.rx u ch) → r.inputs[i]? = some v →
        ∃ held, vals[i]? = some (s.rxValue n r.t0 u ch held)) ∧
      ∀ (i : Nat) (k : InKind) (v : InVal), (s.progTask n).inputs[i]? = some k → (∀ u ch, k ≠ InKind.rx u ch) →
        r.inputs[i]? = some v → vals[i]? = some v := by
  refine ⟨?vals, ?csw, ?back, ?good, ?step, fun i u ch v kind val => ?rx, fun i k v kind notRx val => ?other⟩
  case step =>
    change execRickInputDeadline n s = _
    unfold execRickInputDeadline
    simp only [run]
    rw [if_neg (by simp [fresh, due])]
  case rx =>
    obtain ⟨held, last⟩ := exists_getElem?_padded (s.task n).lastGood [] val
    exact ⟨held, getElem?_map_zip3 _ kind val last⟩
  case other =>
    obtain ⟨held, last⟩ := exists_getElem?_padded (s.task n).lastGood [] val
    refine (getElem?_map_zip3 _ kind val last).trans ?_
    cases k with
    | rx u ch => exact absurd rfl (notRx u ch)
    | _ => rfl

/-! Commit. -/

theorem exec_commitDeadline {s : State} {n : Fin 32} {r : CycleRun} (run : (s.task n).run = some r) (ongoing : r.tc = none)
    (sound : r.faulted = false) (intime : r.late = false) (due : ∀ d, r.deadline = some d → d ≤ s.nowNs) :
    exec (.commitDeadline n) s = .next (State.setEvent { s with cyc := { s.cyc with
      lateMask := Bits.setBit s.cyc.lateMask n, tasks := Tbl.set {} s.cyc.tasks n { s.task n with run := some { r with late := true } } } } .cyc 0) := by
  change execCommitDeadline n s = _
  unfold execCommitDeadline
  simp only [run]
  rw [if_neg]
  · rfl
  · cases line : r.deadline with
    | none => simp [ongoing, sound, intime]
    | some d => simp [ongoing, sound, intime, due d line]

theorem exec_commitDurable {s : State} {n : Fin 32} {r : CycleRun} {tc : Nat} (run : (s.task n).run = some r) (timed : r.tc = some tc)
    (sound : r.faulted = false) (agreed : r.agreed = true)
    (whole : (s.progTask n).billets.all (fun b => r.retired.contains b.num) = true) :
    exec (.commitDurable n) s = .next (s.commit n r tc) := by
  change execCommitDurable n s = _
  unfold execCommitDurable
  simp only [run]
  rw [if_neg (by simp only [sound, agreed, whole, Bool.not_true, Bool.or_self]; decide)]
  simp only [timed]

/-! Power loss. -/

theorem TaskSt.run_abandon (t : TaskSt) : t.abandon.run = none := rfl

/-- A task whose cycle is abandoned keeps its image, and the draft is restored from it. -/
theorem TaskSt.draft_abandon (t : TaskSt) : t.abandon.draft = t.image := by
  unfold TaskSt.abandon
  exact (t.draft_setDraft t.image).1

theorem TaskSt.image_abandon (t : TaskSt) : t.abandon.image = t.image := by
  unfold TaskSt.abandon
  exact (t.draft_setDraft t.image).2

theorem TaskSt.abandon_abandon (t : TaskSt) : t.abandon.abandon = t.abandon := by
  cases h : t.bank <;> simp [TaskSt.abandon, TaskSt.setDraft, TaskSt.image, h]

/-- Every cycle that has not reached Tc is abandoned (02 R45). -/
def State.abandonOpen (s : State) : State := s.uncommitted.foldl (fun s n => s.modTask n TaskSt.abandon) s

theorem State.task_abandonOpen (s : State) (n : Nat) :
    s.abandonOpen.task n = if n ∈ s.uncommitted then (s.task n).abandon else s.task n :=
  State.task_foldl_mod _ TaskSt.abandon_abandon _ _ _

theorem State.moves_abandonOpen (s : State) (m : List (Block × Nat)) : Moves s s.abandonOpen [.cyc] m :=
  State.moves_foldl_mod _ _ _ _

/-- A configured task whose cycle is in progress is uncommitted until its Tc. -/
theorem State.mem_uncommitted {s : State} {n : Nat} {r : CycleRun} (configured : n ∈ s.configuredTasks) (run : (s.task n).run = some r) :
    n ∈ s.uncommitted ↔ r.tc = none := by
  simp [State.uncommitted, configured, run]

theorem State.moves_powerOff (s : State) (m : List (Block × Nat)) : Moves s s.powerOff [.mod, .cyc, .fab, .ax] m := by
  unfold State.powerOff; exact .set

theorem exec_powerLoss_unpowered (s : State) (h : s.mod.powered = false) : exec .powerLoss s = .next s := by
  change execPowerLoss s = _
  unfold execPowerLoss
  rw [if_pos (by simp [h])]

theorem exec_powerLoss (s : State) (h : s.mod.powered = true) :
    ∃ d, exec .powerLoss s = .next ((s.abandonOpen.powerOff.note 0 0x101 d).pnlPowerLoss) := by
  refine ⟨?d, ?step⟩
  case step =>
    change execPowerLoss s = _
    unfold execPowerLoss
    rw [if_neg (by simp [h])]
    rfl

theorem powerLoss_stops (s : State) (h : s.mod.powered = true) :
    ∃ t, Changes .powerLoss s t [.mod, .cyc, .fab, .pnl, .ax] [] ∧ t.cyc.halted = true ∧ t.fab = s.fab.stopAll ∧ t.ax = s.ax.mapAll (Axis.save s.nowNs) ∧
      t.mod = { s.mod with powered := false, psA := { s.mod.psA with ok := false }, psB := { s.mod.psB with ok := false } } ∧
      ∀ n ∈ s.configuredTasks, ∀ r, (s.task n).run = some r →
        if r.tc = none then (t.task n).run = none ∧ (t.task n).draft = (s.task n).image else t.task n = s.task n := by
  obtain ⟨d, step⟩ := exec_powerLoss s h
  have abandoned := s.moves_abandonOpen []
  have off := s.abandonOpen.moves_powerOff []
  have noted : Moves s.abandonOpen.powerOff (s.abandonOpen.powerOff.note 0 0x101 d) [] [] := (Moves.refl _ _ _).note _ _ _
  have panel := (s.abandonOpen.powerOff.note 0 0x101 d).moves_pnlPowerLoss []
  have moved := abandoned.stay.trans (off.stay.trans (noted.stay.trans
    (panel.stay (l' := [.mod, .cyc, .fab, .pnl, .ax]) (m' := []))))
  have now : s.abandonOpen.nowNs = s.nowNs := by unfold State.nowNs; rw [abandoned.time]
  refine ⟨_, moved.changes step, ?_, ?_, ?_, ?_, fun n configured r run => ?_⟩
  · rw [panel.cyc, noted.cyc]; rfl
  · rw [panel.fab, noted.fab, State.powerOff, abandoned.fab]
  · rw [panel.ax, noted.ax, State.powerOff, abandoned.ax, now]
  · rw [panel.mod, noted.mod, State.powerOff, abandoned.mod]
  · have task : (s.abandonOpen.powerOff.note 0 0x101 d).pnlPowerLoss.task n = s.abandonOpen.task n :=
      (State.task_of_cyc (panel.cyc.trans noted.cyc) n).trans rfl
    rw [task, State.task_abandonOpen]
    simp only [State.mem_uncommitted configured run]
    split
    · exact ⟨TaskSt.run_abandon _, TaskSt.draft_abandon _⟩
    · rfl

/-- Settles O20: an agreed image is taken, the deadlines pass, the commit becomes durable, or power is lost before it. -/
theorem cycleCourse : Obligations.CycleCourse := by
  refine ⟨fun s n r run fresh sound own => ?_, fun s n r l run fresh sound token link held told => ?_, fun s n r run fresh due => ?_,
    fun s n r run opened sound intime due => .setEvent (exec_commitDeadline run opened sound intime due) rfl (by decide),
    fun s n r tc run timed sound agreed whole link idle => ?_, exec_powerLoss_unpowered, powerLoss_stops⟩
  · have sent := s.moves_tellAgreed n r.k (s.formImage n r).1 []
    have quiet := congrArg TwinBlk.substCnt (s.quiet_tellAgreed n r.k (s.formImage n r).1)
    have taken := (s.tellAgreed n r.k (s.formImage n r).1).moves_takeImage n r (s.formImage n r).1 (s.formImage n r).2 false
    refine ⟨_, (sent.stay.trans taken).changes (exec_agreedImageComplete_own run fresh sound own), ?_, ?_⟩
    · obtain ⟨m, g, task⟩ := (s.tellAgreed n r.k (s.formImage n r).1).task_takeImage n r (s.formImage n r).1 (s.formImage n r).2 false
      rw [State.task_of_cyc sent.cyc, State.progTask_of sent.cfg sent.xch] at task
      exact ⟨m, g, task⟩
    · rw [State.twin_takeImage, TwinBlk.substCnt_setTask]
      exact congrArg (· + _) quiet
  · obtain ⟨m, g, task⟩ := s.task_takeImage n r (ownMembers (s.progTask n).inputs r.inputs l) (s.formImage n r).2
      (((s.twin.task n).samplesOf r.k).isSome && (s.formImage n r).1 != ownMembers (s.progTask n).inputs r.inputs l)
    refine ⟨_, (s.moves_takeImage n r _ _ _).changes (exec_agreedImageComplete_partner run fresh sound token link held told), ⟨m, g, task⟩, ?_⟩
    rw [State.twin_takeImage, TwinBlk.task_setTask]
  · obtain ⟨vals, csw, back, good, step, rx, others⟩ := exec_rickInputDeadline run fresh due
    have released := State.task_releaseBillets (s.setTask n { s.task n with
      run := some { r with rick := true, inputs := vals }, csw := csw, back := back, lastGood := good }) n
      { r with rick := true, inputs := vals } (by rw [State.task_setTask_self])
    refine ⟨_, ((s.moves_setTask n _ []).stay.trans (State.moves_releaseBillets _ n)).changes step, _, congrArg TaskSt.run released, rfl, rx, others⟩
  · obtain ⟨moved, others, t, task, fields⟩ := s.commit_alone n r tc link idle
    refine ⟨_, moved.changes (exec_commitDurable run timed sound agreed whole), ?_⟩
    rw [task]
    obtain ⟨ended, cycle, apply, bank, image, draft, lastTc, late, rec⟩ := fields
    exact ⟨ended, cycle, apply, bank, image, draft, lastTc, late, rec, others⟩

end Sys2Proof.Machine

namespace Sys2Proof.Machine

/-! Program modes, steps, breakpoints, restarts and limits (02 R50-R53, R493, 03 R91-R94). -/

/-! Commands that end or pass on to a later instant: but for completions they leave what they have put. -/

section
variable {i : Instr} {s u : State} {o : Origin}

theorem EndsTo.complete {status detail : Nat} {k : DWord} {result : List Byte}
    (e : exec i s = .next (u.complete o status detail k result)) (he : u.event = s.event) : EndsTo i s u [] :=
  .mk _ e (State.sans_complete _ (by simp) ..) (.of_event ((State.event_complete ..).trans he))

theorem EndsTo.finish {status detail : Nat} (e : exec i s = .next (u.finish o status detail)) (he : u.event = s.event) :
    EndsTo i s u [] := .complete e he

theorem EndsTo.passed (e : exec i s = .next (u.passed o)) (he : u.event = s.event) : EndsTo i s u [] :=
  .mk _ e (State.sans_passed _ (by simp) ..) (.of_event ((State.event_passed ..).trans he))

end

/-- A refused STEP or BREAK_SET is counted and reported (02 R52). -/
theorem EndsTo.refuseStep {i : Instr} {s : State} {o : Origin} {code : Nat} (e : exec i s = .next (s.refuseStep o code)) :
    EndsTo i s { s with cyc := { s.cyc with refuseCnt := Bits.inc s.cyc.refuseCnt } } [(.cyc, 5)] := by
  refine .mk _ e ?_ ?_
  · rw [State.refuseStep, State.sans_finish _ (by simp), State.sans_setEvent]
  · have told : s.Raises (State.setEvent { s with cyc := { s.cyc with refuseCnt := Bits.inc s.cyc.refuseCnt } } .cyc 5) [(.cyc, 5)] :=
      (State.raises_setEvent _ .cyc 5 (by decide)).from rfl
    exact told.trans (m := []) (.of_event (State.event_finish _ _ _ _))

/-! RUN, STOP and HOLD wait for the end of the station tick (02 R53). -/

theorem bufMode_ends {i : Instr} {s : State} {m : ProgMode} {o : Origin} (h : exec i s = .next (s.bufMode m o)) :
    EndsTo i s { s with cyc := { s.cyc with buf := s.cyc.buf ++ [(m, o)] } } [] := .passed h rfl

/-- With no exchange in progress there is none to abort. -/
theorem State.xchAbort_idle {s : State} (reason : Nat) (h : s.xch.cur.state = .idle) : s.xchAbort reason = s :=
  if_pos (by rw [h]; decide)

theorem State.effectOf_severed {s : State} (n : Nat) (h : s.twin.link = .severed) : s.effectOf n = .tick s.tickNo :=
  if_pos (by simp [h])

/-- A module that acts alone accepts a mode for every task from the next tick on. -/
theorem State.acceptMode_severed (s : State) (m : ProgMode) (o : Origin) (h : s.twin.link = .severed) (own : o ≠ .partner) :
    s.acceptMode m [o] = { s with cyc := { s.cyc with
      target := m
      pends := s.cyc.pends ++ [{ target := m, left := s.configuredTasks.map (fun n => (n, .tick s.tickNo)), origins := [o] }] } } := by
  unfold State.acceptMode
  simp only [State.effectOf_severed _ h]
  rw [if_neg (by simp [State.leads, h])]
  simp [own]

/-- The mode buffer is emptied. -/
def State.bufTaken (s : State) : State := { s with cyc := { s.cyc with buf := [] } }

theorem State.moves_bufTaken (s : State) (m : List (Block × Nat)) : Moves s s.bufTaken [.cyc] m := by
  unfold State.bufTaken; exact .set

/-- A station tick with tasks in the program processes what the mode buffer holds. -/
theorem State.modeTick_stop {s : State} {o : Origin} (buffer : s.cyc.buf = [(.stop, o)]) (tasks : s.configuredTasks ≠ []) :
    s.modeTick = s.bufTaken.judgeMode .stop [o] := by
  have tasked : s.configuredTasks.isEmpty = false := by simpa using tasks
  unfold State.modeTick
  simp only [tasked, Bool.false_eq_true, if_false, buffer]
  rfl

theorem State.modeTick_run_stop {s : State} {o p : Origin} (buffer : s.cyc.buf = [(.run, o), (.stop, p)]) (tasks : s.configuredTasks ≠ []) :
    s.modeTick = (s.bufTaken.refuseMode .run o 4).judgeMode .stop [p] := by
  have tasked : s.configuredTasks.isEmpty = false := by simpa using tasks
  unfold State.modeTick
  simp only [tasked, Bool.false_eq_true, if_false, buffer]
  rfl

/-- A STOP that is requested of a module that acts alone is accepted. -/
theorem State.judgeMode_stop {s : State} {o : Origin} (runs : s.cyc.target = .run) (link : s.twin.link = .severed)
    (idle : s.xch.cur.state = .idle) : s.judgeMode .stop [o] = s.acceptMode .stop [o] := by
  unfold State.judgeMode
  rw [if_neg (by simp [runs]), if_neg (by simp [link])]
  simp only [State.xchAbort_idle _ idle]

/-- A STOP where STOP is in force has nothing left to do. -/
theorem State.judgeMode_stopped {s : State} {p : Origin} (stopped : s.cyc.target = .stop) (taken : s.cyc.pends = []) (own : p ≠ .partner) :
    s.judgeMode .stop [p] = s.finish p stOk 0 := by
  simp [State.judgeMode, State.okMode, stopped, taken, own]

/-- A refused mode command is counted, reported and completed. -/
def State.modeRefused (s : State) (o : Origin) : State :=
  (State.setEvent { s with cyc := { s.cyc with refuseCnt := Bits.inc s.cyc.refuseCnt } } .cyc 5).finish o stRefused 4

theorem State.refuseMode_own (s : State) (m : ProgMode) {o : Origin} (own : o ≠ .partner) : s.refuseMode m o 4 = s.modeRefused o :=
  if_neg own

theorem State.moves_modeRefused (s : State) (o : Origin) : Moves s (s.modeRefused o) [.cyc, .done] [(.cyc, 5)] := by
  unfold State.modeRefused
  exact ((Moves.set (t := { s with cyc := _ })).setEvent _ _ (by decide) (by simp)).finish _ _ _ (by simp)

theorem State.cyc_modeRefused (s : State) (o : Origin) : (s.modeRefused o).cyc = { s.cyc with refuseCnt := Bits.inc s.cyc.refuseCnt } := by
  simp [State.modeRefused]

theorem State.raised_modeRefused (s : State) (o : Origin) : (s.modeRefused o).raised .cyc 5 = true :=
  ((Moves.refl _ [.done] []).finish o stRefused 4 (by simp)).raised (State.raised_setEvent _ .cyc 5 (by decide))

theorem modeTick_accepts (s : State) (o : Origin) (buffer : s.cyc.buf = [(.stop, o)]) (tasks : s.configuredTasks ≠ [])
    (runs : s.cyc.target = .run) (link : s.twin.link = .severed) (idle : s.xch.cur.state = .idle) (own : o ≠ .partner) :
    s.modeTick = { s with cyc := { s.cyc with
      buf := [], target := .stop, pends := s.cyc.pends ++ [{ target := .stop, left := s.configuredTasks.map (fun n => (n, .tick s.tickNo)), origins := [o] }] } } := by
  rw [State.modeTick_stop buffer tasks, State.judgeMode_stop (s := s.bufTaken) runs link idle,
    State.acceptMode_severed s.bufTaken _ _ link own]
  rfl

/-- Of a RUN and a STOP in one tick the RUN is refused (02 R53). -/
theorem modeTick_refuses (s : State) (o p : Origin) (buffer : s.cyc.buf = [(.run, o), (.stop, p)]) (tasks : s.configuredTasks ≠ [])
    (stopped : s.cyc.target = .stop) (taken : s.cyc.pends = []) (own : o ≠ .partner) (own' : p ≠ .partner) :
    Moves s s.modeTick [.cyc, .done] [(.cyc, 5)] ∧ s.modeTick.raised .cyc 5 = true ∧
      s.modeTick.cyc = { s.cyc with buf := [], refuseCnt := Bits.inc s.cyc.refuseCnt } := by
  have cyc := s.bufTaken.cyc_modeRefused o
  have refused := (s.moves_bufTaken [(.cyc, 5)]).stay.trans (s.bufTaken.moves_modeRefused o)
  have told := s.bufTaken.raised_modeRefused o
  rw [State.modeTick_run_stop buffer tasks, State.refuseMode_own _ _ own, State.judgeMode_stopped (by rw [cyc]; exact stopped)
    (by rw [cyc]; exact taken) own']
  exact ⟨refused.finish _ _ _ (by simp), ((Moves.refl _ [.done] []).finish p stOk 0 (by simp)).raised told, (State.cyc_finish _ _ _ _).trans cyc⟩

/-! Steps and breakpoints. -/

theorem modeStep_accepts (s : State) (o : Origin) (n : Nat) (hold : s.cyc.target = .hold) (armed : s.exchangeArmed = false)
    (configured : (s.taskCfg n).configured = true) (free : s.atBreakpoint n = false) :
    EndsTo (.modeStep o n) s { s with cyc := { s.cyc with steps := s.cyc.steps ++ [{ task := n, tick := s.tickNo, origin := o }] } } [] := by
  refine .passed (o := o) ?_ rfl
  change execModeStep o n s = _
  unfold execModeStep
  rw [if_neg (by simp [armed]), if_neg (by simp [hold]), if_neg (by simp [configured]), if_neg (by simp [free])]

theorem modeStep_refused (s : State) (o : Origin) (n : Nat) (h : s.cyc.target ≠ .hold ∨ s.exchangeArmed = true) :
    EndsTo (.modeStep o n) s { s with cyc := { s.cyc with refuseCnt := Bits.inc s.cyc.refuseCnt } } [(.cyc, 5)] := by
  by_cases armed : s.exchangeArmed = true
  · exact .refuseStep (if_pos armed)
  · exact .refuseStep ((if_neg armed).trans (if_pos (h.resolve_right armed)))

theorem breakSet_accepts (s : State) (o : Origin) (n b off : Nat) (mode : s.cyc.target ≠ .stop) (allowed : s.holdAllowed = true)
    (armed : s.exchangeArmed = false) (configured : (s.taskCfg n).configured = true) (new : (n, b, off) ∉ s.cyc.bps) :
    EndsTo (.breakSet o n b off) s { s with cyc := { s.cyc with bps := s.cyc.bps ++ [(n, b, off)] } } [] := by
  refine .finish (o := o) (status := stOk) (detail := 0) ?_ rfl
  change execBreakSet o n b off s = _
  unfold execBreakSet
  rw [if_neg (by simp [armed]), if_neg mode, if_neg (by simp [allowed]), if_neg (by simp [configured])]
  simp [new]

theorem breakSet_refused (s : State) (o : Origin) (n b off : Nat) (mode : s.cyc.target ≠ .stop) (allowed : s.holdAllowed = false) :
    EndsTo (.breakSet o n b off) s { s with cyc := { s.cyc with refuseCnt := Bits.inc s.cyc.refuseCnt } } [(.cyc, 5)] := by
  by_cases armed : s.exchangeArmed = true
  · exact .refuseStep (if_pos armed)
  · exact .refuseStep ((if_neg armed).trans ((if_neg mode).trans (if_pos (by simp [allowed]))))

/-! Restart and limits. -/

theorem taskRestart_accepts (s : State) (o : Origin) (n : Nat) (acts : s.actsAsLead = true) (small : n < 32) (halted : (s.task n).pol ≠ .active)
    (new : (s.task n).restart = none) (alone : s.leads = false) :
    EndsTo (.taskRestart o n) s { s with cyc := { s.cyc with tasks := Tbl.set {} s.cyc.tasks n { s.task n with restart := some (s.effectOf n, o) } } } [] := by
  refine .passed (o := o) ?_ rfl
  change execTaskRestart o n s = _
  unfold execTaskRestart
  rw [if_neg (by simp [acts]), if_neg (by omega), if_neg (by simp [halted, new])]
  have still : (State.passed (s.modTask n (fun t => { t with restart := some (s.effectOf n, o) })) o).leads = false := by
    simp only [State.leads, State.holdsToken, State.twin_passed]
    exact alone
  simp only [still, Bool.false_eq_true, if_false]
  rfl

theorem taskRestart_notLead (s : State) (o : Origin) (n : Nat) (h : s.actsAsLead = false) : EndsTo (.taskRestart o n) s s [] :=
  .finish (o := o) (status := stNotLead) (detail := 0) (if_pos (by simp [h])) rfl

theorem budget_accepts (s : State) (o : Origin) (n b q l : Nat) (st : Bool) (acts : s.actsAsLead = true) (small : n < 32)
    (legal : limitsOk { budget := b, quota := q, ovrLimit := l, stop := st } = true) (alone : s.leads = false) :
    EndsTo (.budget o n (some b) (some q) (some l) (some st)) s { s with cyc := { s.cyc with tasks := Tbl.set {} s.cyc.tasks n {
      s.task n with next := some (s.effectOf n, { budget := b, quota := q, ovrLimit := l, stop := st }) } } } [] := by
  refine .complete (o := o) (status := stOk) (detail := 0) (k := s.nextCycle n) (result := []) ?_ rfl
  change execBudget o n (some b) (some q) (some l) (some st) s = _
  unfold execBudget
  simp only [Option.getD_some, acts, legal, Bool.not_true, Bool.false_eq_true, or_false, if_false, Nat.not_le.mpr small]
  rw [if_neg (by simp only [State.leads, State.holdsToken] at alone ⊢; simpa [State.modTask, State.setTask] using alone)]
  rfl

/-- Settles O21: each clause is the lemma of its command above. -/
theorem programModes : Obligations.ProgramModes :=
  ⟨fun _ _ => bufMode_ends rfl, fun _ _ => bufMode_ends rfl, fun _ _ => bufMode_ends rfl, modeTick_accepts, modeTick_refuses,
    modeStep_accepts, modeStep_refused, breakSet_accepts, breakSet_refused,
    fun _ o _ _ _ => .finish (o := o) (status := stOk) (detail := 0) rfl rfl, taskRestart_accepts, taskRestart_notLead, budget_accepts⟩

end Sys2Proof.Machine

namespace Sys2Proof.Machine

/-! How a billet's work reaches the draft, and what a billet fault does (02 R36, 03 R74, R75, R88-R92). -/

/-- An engine lets go of its billet, and its use counts for the billet's task (03 R88). -/
def State.billetLeft (s : State) (e n us : Nat) : State := (s.freeEngine e).addUse n us

theorem State.moves_billetLeft (s : State) (e n us : Nat) (m : List (Block × Nat)) : Moves s (s.billetLeft e n us) [.fab, .cyc] m :=
  (s.moves_freeEngine e []).stay.trans ((s.freeEngine e).moves_addUse n us []).stay

theorem State.run_billetLeft (s : State) (e n us : Nat) : ((s.billetLeft e n us).fab.engine e).run = none :=
  s.run_freeEngine e

theorem State.task_billetLeft (s : State) (e us : Nat) {n : Nat} {r : CycleRun} (run : (s.task n).run = some r) :
    (s.billetLeft e n us).task n = { s.task n with run := some { r with use := r.use + us } } :=
  (s.freeEngine e).task_addUse n us r run

/-! The retire burst. -/

/-- A retire burst lies in the draft, and the billets that waited for it are released (02 R36, 03 R74). -/
def State.burstTaken (s : State) (n : Nat) (r : CycleRun) (b : Billet) (burst : List (Nat × Byte)) : State :=
  (s.setTask n ((s.task n).retire r b burst)).releaseBillets n

theorem State.moves_burstTaken (s : State) (n : Nat) (r : CycleRun) (b : Billet) (burst : List (Nat × Byte)) :
    Moves s (s.burstTaken n r b burst) [.cyc, .fab] [(.fab, 6), (.fab, 7)] :=
  (s.moves_setTask n _ []).stay.trans (State.moves_releaseBillets _ n)

theorem State.run_burstTaken (s : State) (n : Nat) (r : CycleRun) (b : Billet) (burst : List (Nat × Byte)) (e : Nat) :
    ((s.burstTaken n r b burst).fab.engine e).run = (s.fab.engine e).run := State.run_releaseBillets _ n e

theorem State.task_burstTaken (s : State) (n : Nat) (r : CycleRun) (b : Billet) (burst : List (Nat × Byte)) :
    ∃ m, (s.burstTaken n r b burst).task n = { (s.task n).retire r b burst with
      run := some { r with retired := r.retired ++ [b.num], lines := burstLines burst r.lines, released := m } } := by
  have released := State.task_releaseBillets (s.setTask n ((s.task n).retire r b burst)) n
    { r with retired := r.retired ++ [b.num], lines := burstLines burst r.lines } (by rw [State.task_setTask_self]; rfl)
  rw [State.task_setTask_self] at released
  exact ⟨_, released⟩

/-- A retire burst does not depend on what the task records of its run. -/
theorem TaskSt.retire_of_run (t : TaskSt) (x : Option CycleRun) (r : CycleRun) (b : Billet) (burst : List (Nat × Byte)) :
    ({ t with run := x } : TaskSt).retire r b burst = t.retire r b burst := by
  simp only [TaskSt.retire, TaskSt.setDraft, TaskSt.draft]
  split <;> rfl

theorem State.retire_partial {s : State} {n : Nat} {r : CycleRun} {b : Billet} (burst : List (Nat × Byte)) (tc : Nat) (sound : r.faulted = false)
    (more : (s.progTask n).billets.all (fun x => (r.retired ++ [b.num]).contains x.num) = false) :
    s.retire n r b burst tc = s.burstTaken n r b burst := by
  unfold State.retire
  dsimp only
  rw [if_neg (by simp [sound]), State.progTask_of (t := s.setTask n _) (s := s) rfl rfl, if_neg (by rw [more]; decide)]
  rfl

/-- A billet that has run to its end retires with a correct check word. -/
theorem exec_billetRetire {s : State} {e : Fin 16} {burst : List (Nat × Byte)} (us : Nat) (ns : Fin 10000) {g : Running} {b : Billet} {r : CycleRun}
    (runs : (s.fab.engine e).run = some g) (known : s.billet g.ref = some b) (loaded : g.loaded = true) (held : g.held = false)
    (ends : b.run g.mem = .done burst) (run : (s.task g.ref.task).run = some r) : exec (.billetRetire e true us ns) s =
      .next ((s.billetLeft e g.ref.task us).retire g.ref.task { r with use := r.use + us } b burst (s.tickStart.toNat + ns)) := by
  have left := congrArg TaskSt.run (s.task_billetLeft e us run)
  unfold State.billetLeft at left
  change execBilletRetire e true us ns s = _
  unfold execBilletRetire
  simp only [runs, known, ends]
  rw [if_neg (by simp [loaded, held])]
  simp only [left]
  rfl

theorem exec_billetRetire_notOk (s : State) (e : Fin 16) (us : Nat) (ns : Fin 10000) : exec (.billetRetire e false us ns) s = .next s := by
  change execBilletRetire e false us ns s = _
  unfold execBilletRetire
  split
  · rfl
  · split
    · rfl
    · split
      · rfl
      · rw [if_pos (by simp)]

theorem exec_billetRetire_ofFault {s : State} {e : Fin 16} {g : Running} {b : Billet} {kind : Nat} {addr : Word} (ok : Bool) (us : Nat)
    (ns : Fin 10000) (runs : (s.fab.engine e).run = some g) (known : s.billet g.ref = some b) (faults : b.run g.mem = .fault kind addr) :
    exec (.billetRetire e ok us ns) s = .next s := by
  change execBilletRetire e ok us ns s = _
  unfold execBilletRetire
  simp only [runs, known, faults]

/-- A Tc within its deadline and its limits is noted, and no overrun counts (03 R88-R90). -/
theorem State.atTc_inTime {s : State} {n tc : Nat} {r : CycleRun} (run : (s.task n).run = some r) (intime : r.late = false)
    (line : ∀ d, r.deadline = some d → tc ≤ d) (within : r.budget = 0 ∨ r.use ≤ r.budget) (idle : s.xch.cur.state = .idle) :
    s.atTc n tc = s.setTask n { s.task n with run := some { r with tc := some tc }, use := r.use, overran := false, consec := 0 } := by
  have below : (r.budget != 0 && decide (r.budget < r.use)) = false := by
    rcases within with h | h
    · simp [h]
    · simp [h]
  have noExchange : ∀ u : State, u.xch = s.xch → u.xchTc n r.k tc = u := fun u h => if_neg (by simp [h, idle])
  unfold State.atTc
  cases due : r.deadline with
  | none =>
    simp only [run, due, below, intime, Bool.or_self, Bool.false_eq_true, if_false, Bool.not_false, if_true]
    exact noExchange _ rfl
  | some d =>
    have early : decide (d < tc) = false := by simpa using line d due
    simp only [run, due, early, below, intime, Bool.or_self, Bool.false_eq_true, if_false, Bool.not_false, if_true]
    exact noExchange _ rfl

/-- The last billet's retirement in time is the Tc of its cycle. -/
theorem State.retire_last {s : State} {n tc : Nat} {r : CycleRun} {b : Billet} (burst : List (Nat × Byte)) (sound : r.faulted = false)
    (last : (s.progTask n).billets.all (fun x => (r.retired ++ [b.num]).contains x.num) = true) (intime : r.late = false)
    (line : ∀ d, r.deadline = some d → tc ≤ d) (within : r.budget = 0 ∨ r.use ≤ r.budget) (idle : s.xch.cur.state = .idle) :
    Moves s (s.retire n r b burst tc) [.cyc, .fab] [(.fab, 6), (.fab, 7)] ∧
      (∀ e, ((s.retire n r b burst tc).fab.engine e).run = (s.fab.engine e).run) ∧
      ∃ m, (s.retire n r b burst tc).task n = { (s.task n).retire r b burst with
        run := some { r with retired := r.retired ++ [b.num], lines := burstLines burst r.lines, released := m, tc := some tc }
        use := r.use, overran := false, consec := 0 } := by
  have taken := s.moves_burstTaken n r b burst
  obtain ⟨m, task⟩ := s.task_burstTaken n r b burst
  have ends : s.retire n r b burst tc = (s.burstTaken n r b burst).atTc n tc := by
    unfold State.retire
    dsimp only
    rw [if_neg (by simp [sound]), State.progTask_of (t := s.setTask n _) (s := s) rfl rfl, if_pos last]
    rfl
  rw [ends, State.atTc_inTime (congrArg TaskSt.run task) intime line within (by rw [taken.xch]; exact idle)]
  refine ⟨taken.trans (State.moves_setTask _ _ _ []).stay, s.run_burstTaken n r b burst, m, ?_⟩
  rw [State.task_setTask_self, task]

/-! The clauses of BILLET_RETIRE. -/

theorem billetRetire_releases (s : State) (e : Fin 16) (burst : List (Nat × Byte)) (us : Nat) (ns : Fin 10000) (g : Running) (b : Billet) (r : CycleRun)
    (runs : (s.fab.engine e).run = some g) (known : s.billet g.ref = some b) (loaded : g.loaded = true) (held : g.held = false)
    (ends : b.run g.mem = .done burst) (run : (s.task g.ref.task).run = some r) (sound : r.faulted = false)
    (more : (s.progTask g.ref.task).billets.all (fun x => (r.retired ++ [b.num]).contains x.num) = false) :
    ∃ t, Changes (.billetRetire e true us ns) s t [.fab, .cyc] [(.fab, 6), (.fab, 7)] ∧ (t.fab.engine e).run = none ∧
      (∃ m, t.task g.ref.task = { (s.task g.ref.task).setDraft (burst.foldl (fun d x => Tbl.set 0#8 d x.1 x.2) (s.task g.ref.task).draft) with
        run := some { r with retired := r.retired ++ [b.num], lines := burstLines burst r.lines, use := r.use + us, released := m } }) := by
  have left := s.moves_billetLeft e g.ref.task us []
  have taken := (s.billetLeft e g.ref.task us).moves_burstTaken g.ref.task { r with use := r.use + us } b burst
  have step := exec_billetRetire us ns runs known loaded held ends run
  rw [State.retire_partial (r := { r with use := r.use + us }) _ _ sound (by rw [State.progTask_of left.cfg left.xch]; exact more)] at step
  refine ⟨_, (left.stay.trans taken.stay).changes step, ?_, ?_⟩
  · rw [State.run_burstTaken, State.run_billetLeft]
  · obtain ⟨m, task⟩ := (s.billetLeft e g.ref.task us).task_burstTaken g.ref.task { r with use := r.use + us } b burst
    rw [s.task_billetLeft e us run, TaskSt.retire_of_run] at task
    exact ⟨m, task⟩

theorem billetRetire_atTc (s : State) (e : Fin 16) (burst : List (Nat × Byte)) (us : Nat) (ns : Fin 10000) (g : Running) (b : Billet) (r : CycleRun)
    (runs : (s.fab.engine e).run = some g) (known : s.billet g.ref = some b) (loaded : g.loaded = true) (held : g.held = false)
    (ends : b.run g.mem = .done burst) (run : (s.task g.ref.task).run = some r) (sound : r.faulted = false)
    (last : (s.progTask g.ref.task).billets.all (fun x => (r.retired ++ [b.num]).contains x.num) = true)
    (intime : r.late = false) (line : ∀ d, r.deadline = some d → s.tickStart.toNat + ns ≤ d) (within : r.budget = 0 ∨ r.use + us ≤ r.budget)
    (idle : s.xch.cur.state = .idle) :
    ∃ t, Changes (.billetRetire e true us ns) s t [.fab, .cyc] [(.fab, 6), (.fab, 7)] ∧ (t.fab.engine e).run = none ∧
      (∃ m, t.task g.ref.task = { (s.task g.ref.task).setDraft (burst.foldl (fun d x => Tbl.set 0#8 d x.1 x.2) (s.task g.ref.task).draft) with
        run := some { r with retired := r.retired ++ [b.num], lines := burstLines burst r.lines, use := r.use + us, released := m
                             tc := some (s.tickStart.toNat + ns) }
        use := r.use + us, overran := false, consec := 0 }) := by
  have left := s.moves_billetLeft e g.ref.task us []
  obtain ⟨moved, engines, m, task⟩ := State.retire_last (s := s.billetLeft e g.ref.task us) (r := { r with use := r.use + us }) burst sound
    (by rw [State.progTask_of left.cfg left.xch]; exact last) intime line within (by rw [left.xch]; exact idle)
  rw [s.task_billetLeft e us run, TaskSt.retire_of_run] at task
  refine ⟨_, (left.stay.trans moved.stay).changes (exec_billetRetire us ns runs known loaded held ends run), ?_, m, task⟩
  rw [engines, State.run_billetLeft]

/-! Billet faults. -/

/-- An abandoned task differs in its copies of the image and in having no run. -/
theorem TaskSt.abandon_eq (t : TaskSt) : ∃ a b, t.abandon = { t with imgA := a, imgB := b, run := none } := by
  unfold TaskSt.abandon TaskSt.setDraft
  split
  · exact ⟨_, _, rfl⟩
  · exact ⟨_, _, rfl⟩

/-- A command that is a billet fault of a module that acts alone (03 R75). -/
theorem billetFault_changes {i : Instr} {s : State} {e us kind : Nat} {addr : Word} {b : BRef} {r : CycleRun}
    (h : exec i s = .next ((s.billetLeft e b.task us).billetFault e b kind addr)) (run : (s.task b.task).run = some r)
    (follows : s.follows = false) (leads : s.leads = false) (idle : s.xch.cur.state = .idle) :
    ∃ t, Changes i s t [.fab, .cyc, .twin] [(.fab, 1)] ∧ t.raised .fab 1 = true ∧ t.fab.faultAddr = addr ∧
      t.fab.faultInfo = Bits.fld kind 28 ||| Bits.fld e 24 ||| Bits.fld (b.task % 32) 16 ||| Bits.fld (b.num % 4096) 0 ∧
      (t.task b.task).due = some (s.task b.task).limits.stop ∧ (t.task b.task).dueFrom = none ∧
      (t.task b.task).cycle = (s.task b.task).cycle ∧ (t.task b.task).image = (s.task b.task).image ∧
      (((t.task b.task).run = none ∧ (t.task b.task).draft = (s.task b.task).image) ∨
        (∃ r', (t.task b.task).run = some r' ∧ r'.faulted = true ∧ r'.tc = r.tc)) ∧
      (t.twin.task b.task).ownFault = some r.k := by
  have left := s.moves_billetLeft e b.task us []
  have task := s.task_billetLeft e us run
  obtain ⟨moved, told, address, info, own, gone, after⟩ := (s.billetLeft e b.task us).billetFault_alone e b kind addr
    { r with use := r.use + us } (congrArg TaskSt.run task) follows leads idle
  refine ⟨_, (left.stay.trans moved).changes h, told, address, info, ?_⟩
  rw [after, task]
  cases gone with
  | false => exact ⟨rfl, rfl, rfl, rfl, .inr ⟨_, rfl, rfl, rfl⟩, own⟩
  | true =>
    simp only [if_true]
    generalize htask : ({ s.task b.task with
      due := some (s.task b.task).limits.stop, dueFrom := none, run := some { r with use := r.use + us, faulted := true } } : TaskSt) = t
    have image : t.image = (s.task b.task).image := by rw [← htask]; rfl
    refine ⟨?_, ?_, ?_, t.image_abandon.trans image, .inl ⟨t.run_abandon, t.draft_abandon.trans image⟩, own⟩ <;>
      obtain ⟨x, y, same⟩ := t.abandon_eq <;> rw [same, ← htask]

theorem exec_billetFault {s : State} {e : Fin 16} {kind : Nat} {addr : Word} (us : Nat) {g : Running} {b : Billet}
    (runs : (s.fab.engine e).run = some g) (known : s.billet g.ref = some b) (faults : b.run g.mem = .fault kind addr)
    (loaded : g.loaded = true) (held : g.held = false) :
    exec (.billetFault e us) s = .next ((s.billetLeft e g.ref.task us).billetFault e g.ref kind addr) := by
  change execBilletFault e us s = _
  unfold execBilletFault
  simp only [runs, known, faults]
  rw [if_neg (by simp [loaded, held])]
  rfl

theorem exec_billetFault_ofDone {s : State} {e : Fin 16} (us : Nat) {g : Running} {b : Billet} {burst : List (Nat × Byte)}
    (runs : (s.fab.engine e).run = some g) (known : s.billet g.ref = some b) (ends : b.run g.mem = .done burst) :
    exec (.billetFault e us) s = .next s := by
  change execBilletFault e us s = _
  unfold execBilletFault
  simp only [runs, known, ends]

/-- A billet that runs for four times its worst case runs away (03 R75). -/
theorem exec_billetRunaway {s : State} {e : Fin 16} (addr : Word) {us : Nat} {g : Running} {b : Billet}
    (runs : (s.fab.engine e).run = some g) (known : s.billet g.ref = some b) (held : g.held = false) (long : 4 * b.wcet ≤ us) :
    exec (.billetRunaway e addr us) s = .next ((s.billetLeft e g.ref.task us).billetFault e g.ref 4 addr) := by
  change execBilletRunaway e addr us s = _
  unfold execBilletRunaway
  simp only [runs, known]
  rw [if_neg (by simp [held, long])]
  rfl

/-- Settles O23: a burst reaches the draft whole or not at all, and a fault abandons the cycle of its task. -/
theorem billetEnds : Obligations.BilletEnds := by
  refine ⟨billetRetire_releases, billetRetire_atTc, fun s e us ns => .quiet (exec_billetRetire_notOk s e us ns) rfl,
    fun s e ok us ns g b kind addr runs known faults => .quiet (exec_billetRetire_ofFault ok us ns runs known faults) rfl,
    fun s e us g b burst runs known ends => .quiet (exec_billetFault_ofDone us runs known ends) rfl,
    fun s e kind addr us g b r runs known faults loaded held run follows leads idle => ?_,
    fun s e addr us g b r runs known held long run follows leads idle => ?_⟩
  · exact billetFault_changes (exec_billetFault us runs known faults loaded held) run follows leads idle
  · exact billetFault_changes (exec_billetRunaway addr runs known held long) run follows leads idle

end Sys2Proof.Machine

namespace Sys2Proof.Machine

/-! Fences, self-tests and firmware of engines, faulty SRAM lines, breakpoints (02 R51, 03 R68, R81-R84, R98, 17 R463). -/

/-! Fences. -/

/-- A fenced engine is in self-test, with the fence noted (03 R68, R82). -/
def Engine.fenced (x : Engine) (sec : Nat) : Engine := { x with state := .selfTest, run := none, fences := x.recent sec ++ [sec] }

/-- What a fenced engine ran goes back to its deque, its use counted (03 R81, R88). -/
def State.fenceReturn (s : State) (e us : Nat) : Option Running → State
  | some g => ((s.addUse g.ref.task us).returnBillet e g.ref).settleFault g.ref.task
  | none => s

theorem State.moves_fenceReturn (s : State) (e us : Nat) (g : Option Running) (m : List (Block × Nat)) :
    Moves s (s.fenceReturn e us g) [.fab, .cyc] m := by
  cases g with
  | none => exact .refl _ _ _
  | some g => exact (s.moves_addUse _ _ []).stay.trans ((State.moves_returnBillet _ _ _ []).stay.trans (State.moves_settleFault _ _ []).stay)

/-- Of the engine, only the deque can change. -/
theorem State.engine_fenceReturn (s : State) (e us : Nat) (g : Option Running) :
    ∃ d, (s.fenceReturn e us g).fab.engine e = { s.fab.engine e with deque := d } := by
  cases g with
  | none => exact ⟨_, rfl⟩
  | some g =>
    rw [State.fenceReturn, (State.moves_settleFault _ _ []).fab]
    exact (s.addUse g.ref.task us).engine_returnBillet e g.ref

/-- A billet whose cycle goes on waits at the tail of the deque, marked RERUN. -/
theorem State.deque_fenceReturn (s : State) (e us : Nat) {g : Running} {r : CycleRun} (run : (s.task g.ref.task).run = some r)
    (sound : r.faulted = false) :
    ((s.fenceReturn e us (some g)).fab.engine e).deque = (s.fab.engine e).deque ++ [{ g.ref with rerun := true }] := by
  have used := congrArg TaskSt.run (s.task_addUse g.ref.task us r run)
  rw [State.fenceReturn, (State.moves_settleFault _ _ []).fab, State.fab_returnBillet _ e g.ref { r with use := r.use + us } used sound,
    FabBlk.engine_setEngine]
  rfl

theorem exec_engineFence (s : State) (e : Fin 16) (us : Nat)
    (h : (s.fab.engine e).state = .available ∨ (s.fab.engine e).state = .draining ∨ (s.fab.engine e).state = .drained) :
    exec (.engineFence e us) s = .next (((s.setFab (s.fab.setEngine e ((s.fab.engine e).fenced s.time.sec.toNat))).fenceReturn e us
      (s.fab.engine e).run).setEvent .fab 0) := by
  change execEngineFence e us s = _
  unfold execEngineFence
  dsimp only
  rw [if_pos h]
  unfold Engine.fenced
  cases (s.fab.engine e).run <;> rfl

theorem engineFence_returns (s : State) (e : Fin 16) (us : Nat)
    (h : (s.fab.engine e).state = .available ∨ (s.fab.engine e).state = .draining ∨ (s.fab.engine e).state = .drained) :
    ∃ t, Changes (.engineFence e us) s t [.fab, .cyc] [(.fab, 0), (.fab, 3)] ∧ t.raised .fab 0 = true ∧ (t.fab.engine e).state = .selfTest ∧
      (t.fab.engine e).run = none ∧ (t.fab.engine e).fences = (s.fab.engine e).recent s.time.sec.toNat ++ [s.time.sec.toNat] ∧
      (∀ g r, (s.fab.engine e).run = some g → (s.task g.ref.task).run = some r → r.faulted = false →
        (t.fab.engine e).deque = (s.fab.engine e).deque ++ [{ g.ref with rerun := true }]) ∧
      ((s.fab.engine e).run = none → (t.fab.engine e).deque = (s.fab.engine e).deque) := by
  have step := exec_engineFence s e us h
  have set := s.moves_setFab (s.fab.setEngine e ((s.fab.engine e).fenced s.time.sec.toNat))
  have fenced : (s.setFab (s.fab.setEngine e ((s.fab.engine e).fenced s.time.sec.toNat))).fab.engine e =
      (s.fab.engine e).fenced s.time.sec.toNat := by rw [State.fab_setFab, FabBlk.engine_setEngine]
  generalize s.setFab (s.fab.setEngine e ((s.fab.engine e).fenced s.time.sec.toNat)) = u at step set fenced
  have returned := u.moves_fenceReturn e us (s.fab.engine e).run [(.fab, 0), (.fab, 3)]
  have moved := (set.stay.trans returned).setEvent .fab 0 (by decide) (by simp)
  obtain ⟨d, engine⟩ := u.engine_fenceReturn e us (s.fab.engine e).run
  rw [fenced] at engine
  refine ⟨_, moved.changes step, State.raised_setEvent _ _ _ (by decide), ?_, ?_, ?_, fun g r runs run sound => ?_, fun idle => ?_⟩
  · rw [State.fab_setEvent, engine]; rfl
  · rw [State.fab_setEvent, engine]; rfl
  · rw [State.fab_setEvent, engine]; rfl
  · rw [State.fab_setEvent, runs, u.deque_fenceReturn e us (by rw [State.task_of_cyc set.cyc]; exact run) sound, fenced]
    rfl
  · rw [State.fab_setEvent, idle, State.fenceReturn, fenced]
    rfl

/-! Self-tests and firmware. -/

theorem State.fwEnd_none {s : State} (e status detail : Nat) (h : s.fab.fwCmd = none) : s.fwEnd e status detail = s := by
  simp [State.fwEnd, h]

theorem State.fwEnd_own {s : State} {e : Nat} {o : Origin} (status detail : Nat) (h : s.fab.fwCmd = some (e, o)) :
    s.fwEnd e status detail = State.finish { s with fab := { s.fab with fwCmd := none } } o status detail := by
  simp [State.fwEnd, h]

/-- A self-test of an engine with its own firmware retires the engine, unless it passes with fewer than three fences in 24 h. -/
theorem exec_engineSelfTestDone {s : State} {e : Fin 16} (pass : Bool) (testing : (s.fab.engine e).state = .selfTest)
    (own : (s.fab.engine e).fw = .active) (noCmd : s.fab.fwCmd = none) : exec (.engineSelfTestDone e pass) s =
      .next (if pass && !decide (3 ≤ ((s.fab.engine e).recent s.time.sec.toNat).length) then
        State.setEvent { s with fab := s.fab.setEngine e { s.fab.engine e with state := .available, since := s.tickNo + 1 } } .fab 5
      else State.setEvent { s with fab := s.fab.setEngine e { s.fab.engine e with state := .retired } } .fab 4) := by
  have noBack : ((s.fab.engine e).fw != .back) = true := by rw [own]; rfl
  change execEngineSelfTestDone e pass s = _
  unfold execEngineSelfTestDone
  dsimp only
  rw [if_neg (by simp [testing]), if_neg (by simp [own])]
  have same : (if (s.fab.engine e).fw = .back then EngFw.active else (s.fab.engine e).fw) = (s.fab.engine e).fw := if_neg (by simp [own])
  simp only [noBack, Bool.and_true, same]
  rw [State.fwEnd_none]
  split <;> simpa [FabBlk.setEngine] using noCmd

theorem engineSelfTestDone_retires {s : State} {e : Fin 16} {pass : Bool} (testing : (s.fab.engine e).state = .selfTest)
    (own : (s.fab.engine e).fw = .active) (noCmd : s.fab.fwCmd = none)
    (bad : pass = false ∨ 3 ≤ ((s.fab.engine e).recent s.time.sec.toNat).length) :
    RunsTo (.engineSelfTestDone e pass) s { s with fab := s.fab.setEngine e { s.fab.engine e with state := .retired } } [(.fab, 4)] := by
  refine .setEvent ((exec_engineSelfTestDone pass testing own noCmd).trans ?_) rfl (by decide)
  rw [if_neg (by rcases bad with h | h <;> simp [h])]

theorem engineSelfTestDone_passes (s : State) (e : Fin 16) (testing : (s.fab.engine e).state = .selfTest)
    (own : (s.fab.engine e).fw = .active) (few : ((s.fab.engine e).recent s.time.sec.toNat).length < 3) (noCmd : s.fab.fwCmd = none) :
    RunsTo (.engineSelfTestDone e true) s { s with fab := s.fab.setEngine e { s.fab.engine e with state := .available, since := s.tickNo + 1 } } [(.fab, 5)] := by
  refine .setEvent ((exec_engineSelfTestDone true testing own noCmd).trans ?_) rfl (by decide)
  rw [if_pos (by simp [few])]

/-- The state with another fabric. -/
def State.setFabric (f : FabBlk) (s : State) : State := { s with fab := f }

theorem State.sans_setFabric (s : State) (f : FabBlk) : (s.setFabric f).sans [.done] = (s.sans [.done]).setFabric f := by
  simp [State.sans, State.setFabric]

/-- A command that sets one EVENT bit, clears the firmware command of an engine and completes it. -/
theorem EndsTo.setEvent_fwEnd {i : Instr} {s u : State} {b : Block} {n e status detail : Nat} {o : Origin}
    (h : exec i s = .next ((u.setEvent b n).fwEnd e status detail)) (he : u.event = s.event) (hn : n < 32)
    (cmd : u.fab.fwCmd = some (e, o)) : EndsTo i s { u with fab := { u.fab with fwCmd := none } } [(b, n)] := by
  rw [State.fwEnd_own status detail (by rw [State.fab_setEvent]; exact cmd), State.fab_setEvent] at h
  refine .mk _ h ?_ ?_
  · have same : (u.setEvent b n).sans [.done] = u.sans [.done] := State.sans_of_bare (State.bare_setEvent u b n) _
    rw [State.sans_finish _ (by simp)]
    exact (State.sans_setFabric _ _).trans ((congrArg (State.setFabric { u.fab with fwCmd := none }) same).trans (State.sans_setFabric u _).symm)
  · exact ((State.raises_setEvent u b n hn).from he).trans (m := []) (.of_event (State.event_finish _ _ _ _))

theorem engineSelfTestDone_updated (s : State) (e : Fin 16) (o : Origin) (testing : (s.fab.engine e).state = .selfTest)
    (new : (s.fab.engine e).fw = .trying) (cmd : s.fab.fwCmd = some (e.val, o)) :
    EndsTo (.engineSelfTestDone e true) s { s with fab := { s.fab.setEngine e { s.fab.engine e with
      state := .available, fw := .updated, since := s.tickNo + 1 } with fwCmd := none } } [(.fab, 5)] := by
  refine EndsTo.setEvent_fwEnd (u := { s with fab := s.fab.setEngine e { s.fab.engine e with
    state := .available, fw := .updated, since := s.tickNo + 1 } }) (status := stOk) (detail := 0) ?_ rfl (by decide) cmd
  change execEngineSelfTestDone e true s = _
  unfold execEngineSelfTestDone
  dsimp only
  rw [if_neg (by simp [testing]), if_pos new, if_pos rfl]

theorem exec_engineFwLoaded (s : State) (e : Fin 16) (o : Origin) (drained : (s.fab.engine e).state = .drained)
    (cmd : s.fab.fwCmd = some (e.val, o)) :
    exec (.engineFwLoaded e) s = .next { s with fab := s.fab.setEngine e { s.fab.engine e with state := .selfTest, fw := .trying } } := by
  change execEngineFwLoaded e s = _
  unfold execEngineFwLoaded
  simp only [cmd]
  rw [if_pos (by simp [drained])]

/-! Faulty SRAM lines. -/

theorem sramUe_counts (s : State) (line : Nat) : RunsTo (.sramUe line []) s { s with fab := { s.fab with
    reloads := s.fab.reloads ++ [(line, [])], uncorr := Bits.sat 16 s.fab.uncorr 1 } } [(.fab, 9)] :=
  .mk ((s.startReload line []).recordEvent .fab 9 line (Bits.fld s.fab.uncorr 16 ||| Bits.fld s.fab.corrected 0)) rfl
    (State.bare_recordEvent ..) ((State.raises_recordEvent _ .fab 9 _ _ (by decide)).from rfl)

theorem exec_sramUe_one {s : State} (line us : Nat) {e : Fin 16} {g : Running} (runs : (s.fab.engine e).run = some g) :
    exec (.sramUe line [(e, us)]) s = .next (((s.billetLeft e g.ref.task us).startReload line [(e.val, g.ref)]).recordEvent .fab 9 line
      (Bits.fld s.fab.uncorr 16 ||| Bits.fld s.fab.corrected 0)) := by
  change execSramUe line [(e, us)] s = _
  unfold execSramUe
  simp only [List.foldl_cons, List.foldl_nil, runs]
  rfl

theorem sramUe_stops (s : State) (line us : Nat) (e : Fin 16) (g : Running) (r : CycleRun) (runs : (s.fab.engine e).run = some g)
    (run : (s.task g.ref.task).run = some r) :
    ∃ t, Changes (.sramUe line [(e, us)]) s t [.fab, .cyc] [(.fab, 9)] ∧ t.raised .fab 9 = true ∧ (t.fab.engine e).run = none ∧
      t.fab.reloads = s.fab.reloads ++ [(line, [(e.val, g.ref)])] ∧ t.fab.uncorr = Bits.sat 16 s.fab.uncorr 1 ∧
      t.task g.ref.task = { s.task g.ref.task with run := some { r with use := r.use + us } } := by
  have left := s.moves_billetLeft e g.ref.task us [(.fab, 9)]
  have started : Moves s ((s.billetLeft e g.ref.task us).startReload line [(e.val, g.ref)]) [.fab, .cyc] [(.fab, 9)] := by
    refine left.trans ?_
    unfold State.startReload
    exact .set
  refine ⟨_, (started.recordEvent .fab 9 _ _ (by decide) (by simp)).changes (exec_sramUe_one line us runs),
    State.raised_recordEvent _ _ _ _ _ (by decide), ?_, ?_, ?_, ?_⟩
  · rw [State.fab_recordEvent]; exact s.run_billetLeft e g.ref.task us
  · rw [State.fab_recordEvent]; rfl
  · rw [State.fab_recordEvent]; rfl
  · rw [State.task_of_cyc (State.cyc_recordEvent _ _ _ _ _)]
    exact s.task_billetLeft e us run

theorem State.settleFault_sound {s : State} {n : Nat} {r : CycleRun} (run : (s.task n).run = some r) (sound : r.faulted = false) :
    s.settleFault n = s := by
  simp [State.settleFault, run, sound]

/-- A billet whose cycle goes on comes back to the tail of a deque, and nothing is abandoned. -/
theorem State.returnBillet_settled {s : State} (e : Nat) {b : BRef} {r : CycleRun} (run : (s.task b.task).run = some r) (sound : r.faulted = false) :
    (s.returnBillet e b).settleFault b.task = { s with fab := s.fab.setEngine e { s.fab.engine e with
      deque := (s.fab.engine e).deque ++ [{ b with rerun := true }] } } := by
  have back : s.returnBillet e b = { s with fab := s.fab.setEngine e { s.fab.engine e with
      deque := (s.fab.engine e).deque ++ [{ b with rerun := true }] } } := by simp [State.returnBillet, run, sound]
  rw [back]
  exact State.settleFault_sound (r := r) run sound

/-- The billet that the oldest reload of a line stopped goes back to the deque of its engine (03 R81, R84). -/
theorem exec_sramLineReloaded {s : State} {line e : Nat} {b : BRef} {r : CycleRun} {l : List (Nat × List (Nat × BRef))}
    (waits : s.fab.reloads = (line, [(e, b)]) :: l) (run : (s.task b.task).run = some r) (sound : r.faulted = false) :
    exec (.sramLineReloaded line) s = .next { s with fab := ({ s.fab with reloads := l } : FabBlk).setEngine e { s.fab.engine e with
      deque := (s.fab.engine e).deque ++ [{ b with rerun := true }] } } := by
  have first : takeFirst (fun e => e.1 == line) s.fab.reloads = some ((line, [(e, b)]), l) := by rw [waits]; exact if_pos (by simp)
  change execSramLineReloaded line s = _
  unfold execSramLineReloaded
  simp only [first, List.foldl_cons, List.foldl_nil]
  exact congrArg _ (State.returnBillet_settled (s := { s with fab := { s.fab with reloads := l } }) e run sound)

/-! Breakpoints. -/

theorem State.shadowHold_of_role {s : State} (h : s.role ≠ .shadow) : s.shadowHold = s := if_neg fun k => h k.1

theorem exec_breakpointReached {s : State} {e : Fin 16} {off : Nat} {g : Running} (runs : (s.fab.engine e).run = some g) (loaded : g.loaded = true)
    (free : s.cyc.bpHit = none) (mode : (s.task g.ref.task).mode = .run)
    (set : s.cyc.bps.contains (g.ref.task, g.ref.num, off) = true) (role : s.role ≠ .shadow) : exec (.breakpointReached e off) s =
      .next ((s.setFab (s.fab.setEngine e { s.fab.engine e with run := some { g with held := true } })).breakHold g.ref.task e) := by
  change execBreakpointReached e off s = _
  unfold execBreakpointReached
  simp only [runs]
  rw [if_neg (by simp only [loaded, free, mode, set]; decide), State.shadowHold_of_role role]

/-- The change of the cycle controller when a breakpoint of a module in RUN is reached (02 R51). -/
theorem State.breakHold_alone {s : State} {n e : Nat} (runs : s.cyc.target = .run) (alone : s.leads = false) :
    Moves s (s.breakHold n e) [.cyc] [] ∧ (s.breakHold n e).cyc.bpHit = some (n, e) ∧ (s.breakHold n e).cyc.mode = .hold ∧
      (s.breakHold n e).cyc.target = .hold ∧ ((s.breakHold n e).task n).mode = .hold ∧
      ∀ m ∈ s.configuredTasks, m ≠ n → ∃ p ∈ (s.breakHold n e).cyc.pends, p.target = .hold ∧ (m, .tick s.tickNo) ∈ p.left := by
  unfold State.breakHold
  dsimp only
  rw [if_neg (by simp [alone])]
  refine ⟨.set, rfl, rfl, if_pos runs, ?_, fun m configured other => ?_⟩
  · change (Tbl.get {} (Tbl.set {} s.cyc.tasks n { s.task n with mode := .hold }) n).mode = .hold
    rw [Tbl.get_set_self]
  · have among : m ∈ s.configuredTasks.filter (fun m => m != n) := by simp [configured, other]
    have tasked : (s.configuredTasks.filter (fun m => m != n)).isEmpty = false := by
      rw [List.isEmpty_eq_false_iff]; exact List.ne_nil_of_mem among
    dsimp only
    rw [if_neg (by rw [tasked, runs]; decide)]
    exact ⟨_, List.mem_append_right _ List.mem_cons_self, rfl, List.mem_map_of_mem among⟩

theorem breakpointReached_holds (s : State) (e : Fin 16) (off : Nat) (g : Running) (runs : (s.fab.engine e).run = some g) (loaded : g.loaded = true)
    (free : s.cyc.bpHit = none) (target : s.cyc.target = .run) (mode : (s.task g.ref.task).mode = .run)
    (set : s.cyc.bps.contains (g.ref.task, g.ref.num, off) = true) (role : s.role ≠ .shadow) (alone : s.leads = false) :
    ∃ t, Changes (.breakpointReached e off) s t [.fab, .cyc] [(.fab, 3)] ∧ (t.fab.engine e).run = some { g with held := true } ∧
      t.cyc.bpHit = some (g.ref.task, e.val) ∧ t.cyc.mode = .hold ∧ t.cyc.target = .hold ∧ (t.task g.ref.task).mode = .hold ∧
      (∀ m ∈ s.configuredTasks, m ≠ g.ref.task → ∃ p ∈ t.cyc.pends, p.target = .hold ∧ (m, .tick s.tickNo) ∈ p.left) := by
  have step := exec_breakpointReached runs loaded free mode set role
  have held := s.moves_setFab (s.fab.setEngine e { s.fab.engine e with run := some { g with held := true } })
  have fab := s.fab_setFab (s.fab.setEngine e { s.fab.engine e with run := some { g with held := true } })
  generalize s.setFab (s.fab.setEngine e { s.fab.engine e with run := some { g with held := true } }) = u at step held fab
  have tasks : u.configuredTasks = s.configuredTasks := by unfold State.configuredTasks; rw [held.cfg]
  have now : u.tickNo = s.tickNo := by unfold State.tickNo State.nowNs; rw [held.time]
  have leads : u.leads = false := by unfold State.leads State.holdsToken; rw [held.twin]; exact alone
  obtain ⟨moved, hit, all, aim, own, others⟩ := u.breakHold_alone (n := g.ref.task) (e := e) (by rw [held.cyc]; exact target) leads
  refine ⟨_, (held.stay.trans moved.stay).changes step, ?_, hit, all, aim, own, ?_⟩
  · rw [moved.fab, fab, FabBlk.engine_setEngine]
  · rw [← tasks, ← now]; exact others

/-- Settles O24: each clause is the lemma of its command above. -/
theorem engines : Obligations.Engines :=
  ⟨engineFence_returns, engineSelfTestDone_passes, fun _ _ testing own noCmd => engineSelfTestDone_retires testing own noCmd (.inl rfl),
    fun _ _ _ testing own many noCmd => engineSelfTestDone_retires testing own noCmd (.inr many), engineSelfTestDone_updated,
    fun s e o drained cmd => .quiet (exec_engineFwLoaded s e o drained cmd) rfl, sramUe_counts, sramUe_stops,
    fun _ _ _ _ _ _ waits run sound => .quiet (exec_sramLineReloaded waits run sound) rfl, breakpointReached_holds⟩

end Sys2Proof.Machine

namespace Sys2Proof.Machine

/-! Polls, replies, acknowledgements and losses of RX units (02 R58, R60, R61, 16 R455, R457, R458). -/

/-! Path delays. -/

theorem exec_pathDelayMeasure_one (s : State) (u : Fin 6) (d : Nat) (alive : s.mod.failed = false) (due : s.elapsed s.cfg.delayAt 100000 = true) :
    exec (.pathDelayMeasure [(u, d)]) s =
      .next { s with cfg := { s.cfg with delayAt := some s.mod.uptime, units := Tbl.mod {} s.cfg.units (u.val + 1) (fun x => { x with delay := d }) } } :=
  if_neg (by simp [alive, due])

theorem exec_pathDelayMeasure_not (s : State) (l : List (Fin 6 × Nat)) (h : s.mod.failed = true ∨ s.elapsed s.cfg.delayAt 100000 = false) :
    exec (.pathDelayMeasure l) s = .next s := if_pos (by simpa using h)

/-! Polls. -/

theorem exec_rickPoll_not (s : State) (h : s.cfg.rick ≠ .formed ∨ s.mod.failed = true ∨ s.elapsed s.cfg.pollAt 1 = false) :
    exec .rickPoll s = .next s := if_pos (by simpa [or_assoc] using h)

/-- The polls of a tick, one unit after the other. -/
def State.pollAll (s : State) : State := (List.range' 1 6).foldl State.pollUnit { s with cfg := { s.cfg with pollAt := some s.mod.uptime } }

theorem exec_rickPoll (s : State) (formed : s.cfg.rick = .formed) (alive : s.mod.failed = false) (due : s.elapsed s.cfg.pollAt 1 = true) :
    exec .rickPoll s = .next s.pollAll := if_neg (by simp [formed, alive, due])

theorem State.moves_pollAll (s : State) : Moves s s.pollAll [.cfg, .twin] [] := by
  have noted : Moves s { s with cfg := { s.cfg with pollAt := some s.mod.uptime } } [.cfg, .twin] [] := .set
  exact noted.trans (Moves.foldl _ (fun u v => (u.pollUnit_facts v).1) _ _)

theorem State.unit_pollAll (s : State) (u : Nat) :
    s.pollAll.cfg.unit u = if u ∈ List.range' 1 6 then (s.cfg.unit u).pollNow else s.cfg.unit u :=
  unit_foldl (fun _ _ => true) (fun _ => RxUnit.pollNow) State.pollUnit (fun v w => (v.pollUnit_facts w).2) _ (by decide) _ u

theorem RxUnit.pollNow_of_not {x : RxUnit} (h : x.state ≠ .onLine) : x.pollNow = x := if_pos h

/-- A unit that is ON_LINE is polled, and an unanswered poll before it counts (02 R60). -/
theorem RxUnit.pollNow_onLine {x : RxUnit} (h : x.state = .onLine) : x.pollNow = { x with
    polled := true, answered := false, ctr := x.ctr + 1#64
    failRun := if x.polled = true ∧ x.answered = false then x.failRun + 1 else x.failRun
    failCnt := if x.polled = true ∧ x.answered = false then Bits.inc x.failCnt else x.failCnt } := by
  simp [RxUnit.pollNow, h]

theorem rickPoll_polls (s : State) (formed : s.cfg.rick = .formed) (alive : s.mod.failed = false) (due : s.elapsed s.cfg.pollAt 1 = true) :
    ∃ t, Changes .rickPoll s t [.cfg, .twin] [] ∧
    (∀ u : Nat, (s.cfg.unit u).state ≠ .onLine → t.cfg.unit u = s.cfg.unit u) ∧
    (∀ u : Nat, 1 ≤ u → u ≤ 6 → (s.cfg.unit u).state = .onLine → t.cfg.unit u = { s.cfg.unit u with
      polled := true, answered := false, ctr := (s.cfg.unit u).ctr + 1#64
      failRun := if (s.cfg.unit u).polled = true ∧ (s.cfg.unit u).answered = false then (s.cfg.unit u).failRun + 1 else (s.cfg.unit u).failRun
      failCnt := if (s.cfg.unit u).polled = true ∧ (s.cfg.unit u).answered = false then Bits.inc (s.cfg.unit u).failCnt
        else (s.cfg.unit u).failCnt }) := by
  refine ⟨_, s.moves_pollAll.changes (exec_rickPoll s formed alive due), fun u off => ?_, fun u low high on => ?_⟩
  · rw [State.unit_pollAll, RxUnit.pollNow_of_not off, ite_self]
  · rw [State.unit_pollAll, if_pos (List.mem_range'_1.mpr ⟨low, by omega⟩), RxUnit.pollNow_onLine on]

/-! Replies. -/

/-- A unit that has replied (02 R58, R60). -/
def RxUnit.replied (x : RxUnit) (a b : Fin 8) (l : List RxSamples) (ready : Bool) : RxUnit :=
  { x with answered := true, failRun := 0, hops0 := a, hops1 := b, good := if ready then takeSamples l x.good else x.good }

theorem exec_reply_onLine {s : State} {u : Fin 6} (a b : Fin 8) (l : List RxSamples) (formed : s.cfg.rick = .formed)
    (on : (s.cfg.unit (u.val + 1)).state = .onLine) : exec (.reply u a b l) s =
      .next ((s.modUnit (u.val + 1) (fun x => x.replied a b l s.mod.ready)).ringCheck.tellPoll (s.cfg.unit (u.val + 1)).poll (u.val + 1)) := by
  change execReply u a b l s = _
  unfold execReply
  dsimp only
  rw [if_neg (by simp [formed]), if_neg (by simp [on]), if_neg (by simp [on])]
  rfl

theorem exec_reply_lost (s : State) (u : Fin 6) (a b : Fin 8) (l : List RxSamples) (formed : s.cfg.rick = .formed)
    (lost : (s.cfg.unit (u.val + 1)).state = .lost) : exec (.reply u a b l) s =
      .next (s.modUnit (u.val + 1) (fun x => { x with
        good := if s.mod.ready then takeSamples (l.filter (fun g => g.t0 / 10000 == x.lostAt)) x.good else x.good })) := by
  change execReply u a b l s = _
  unfold execReply
  dsimp only
  rw [if_neg (by simp [formed]), if_pos lost]
  rfl

theorem exec_reply_not (s : State) (u : Fin 6) (a b : Fin 8) (l : List RxSamples)
    (h : s.cfg.rick ≠ .formed ∨ (s.cfg.unit (u.val + 1)).state ≠ .onLine ∧ (s.cfg.unit (u.val + 1)).state ≠ .lost) :
    exec (.reply u a b l) s = .next s := by
  change execReply u a b l s = _
  unfold execReply
  dsimp only
  by_cases formed : s.cfg.rick = .formed
  · obtain ⟨off, found⟩ := h.resolve_left (not_not_intro formed)
    rw [if_neg (by simp [formed]), if_neg found, if_pos off]
  · rw [if_pos (by simpa using formed)]

theorem reply_taken (s : State) (u : Fin 6) (a b : Fin 8) (l : List RxSamples) (formed : s.cfg.rick = .formed)
    (on : (s.cfg.unit (u.val + 1)).state = .onLine) :
    ∃ t, Changes (.reply u a b l) s t [.cfg, .twin] [(.cfg, 8), (.cfg, 9)] ∧
      t.cfg.unit (u.val + 1) = (s.cfg.unit (u.val + 1)).replied a b l s.mod.ready ∧
      (∀ v : Nat, v ≠ u.val + 1 → t.cfg.unit v = s.cfg.unit v) ∧
      (t.cfg.broken = true ↔ ∃ v : Nat, 1 ≤ v ∧ v ≤ 6 ∧ (t.cfg.unit v).half = true) := by
  obtain ⟨checked, units, -, -, -, -, -, broken⟩ := (s.modUnit (u.val + 1) (fun x => x.replied a b l s.mod.ready)).ringCheck_facts
  obtain ⟨told, cfg⟩ := (s.modUnit (u.val + 1) (fun x => x.replied a b l s.mod.ready)).ringCheck.tellPoll_facts
    (s.cfg.unit (u.val + 1)).poll (u.val + 1) []
  have unit : ∀ v, CfgBlk.unit (s.modUnit (u.val + 1) (fun x => x.replied a b l s.mod.ready)).ringCheck.cfg v =
      (s.modUnit (u.val + 1) (fun x => x.replied a b l s.mod.ready)).cfg.unit v := fun v => by rw [CfgBlk.unit, units, CfgBlk.unit]
  refine ⟨_, ((s.moves_modUnit _ _ []).stay.trans (checked.stay.trans told.stay)).changes (exec_reply_onLine a b l formed on), ?_, fun v other => ?_, ?_⟩
  · rw [cfg, unit, State.unit_modUnit, if_pos rfl]
  · rw [cfg, unit, State.unit_modUnit, if_neg other]
  · rw [cfg, broken]
    simp only [unit]

/-! Acknowledgements. -/

theorem exec_ack {s : State} {u : Fin 6} {n : Fin 32} {o : RxOut} (on : (s.cfg.unit (u.val + 1)).state = .onLine)
    (out : Tbl.get {} (s.cfg.unit (u.val + 1)).outs n = o) (listed : (s.cfg.unit (u.val + 1)).outs.any (fun e => e.1 == n.val) = true)
    (kept : o.dropped = false) :
    exec (.ack u n o.cycle) s = .next (s.modUnit (u.val + 1) (fun x => { x with outs := Tbl.set {} x.outs n { o with acked := true } })) := by
  subst out
  exact if_pos (by simp only [on, kept, listed, beq_self_eq_true, Bool.not_false, Bool.and_self])

theorem ack_noted (s : State) (u : Fin 6) (n : Fin 32) (o : RxOut) (on : (s.cfg.unit (u.val + 1)).state = .onLine)
    (out : Tbl.get {} (s.cfg.unit (u.val + 1)).outs n = o) (listed : (s.cfg.unit (u.val + 1)).outs.any (fun e => e.1 == n.val) = true)
    (kept : o.dropped = false) :
    ∃ t, exec (.ack u n o.cycle) s = .next t ∧ Tbl.get {} (t.cfg.unit (u.val + 1)).outs n = { o with acked := true } ∧
      t = { s with cfg := { s.cfg with units := t.cfg.units } } ∧ ∀ v : Nat, v ≠ u.val + 1 → t.cfg.unit v = s.cfg.unit v := by
  refine ⟨_, exec_ack on out listed kept, ?_, rfl, fun v other => ?_⟩
  · rw [State.unit_modUnit, if_pos rfl, Tbl.get_set_self]
  · rw [State.unit_modUnit, if_neg other]

/-! Losses. -/

/-- A unit that is declared lost on a tick: what it has not acknowledged is dropped (02 R60, R61). -/
def RxUnit.goneAt (x : RxUnit) (tick : Nat) : RxUnit :=
  { x with state := .lost, polled := false, lostAt := tick, failCnt := if x.miss then Bits.inc x.failCnt else x.failCnt
           outs := Tbl.map {} (fun (o : RxOut) => { o with dropped := !o.acked }) x.outs }

theorem exec_unitLost {s : State} {u : Fin 6} (on : (s.cfg.unit (u.val + 1)).state = .onLine) (missed : 3 ≤ (s.cfg.unit (u.val + 1)).missed) :
    ∃ w, exec (.unitLost u) s = .next (((s.modUnit (u.val + 1) (fun x => x.goneAt s.tickNo)).recordEvent .cyc 2 (u.val + 1) w).tellPoll
      (s.cfg.unit (u.val + 1)).poll (u.val + 1)) :=
  ⟨_, if_neg (by simp only [on, ne_eq, not_true, false_or]; omega)⟩

theorem unitLost_recorded (s : State) (u : Fin 6) (on : (s.cfg.unit (u.val + 1)).state = .onLine) (missed : 3 ≤ (s.cfg.unit (u.val + 1)).missed) :
    ∃ t, Changes (.unitLost u) s t [.cfg, .twin] [(.cyc, 2)] ∧ t.raised .cyc 2 = true ∧
      t.cfg.unit (u.val + 1) = (s.cfg.unit (u.val + 1)).goneAt s.tickNo ∧ ∀ v : Nat, v ≠ u.val + 1 → t.cfg.unit v = s.cfg.unit v := by
  obtain ⟨w, step⟩ := exec_unitLost on missed
  have recorded := (s.moves_modUnit (u.val + 1) (fun x => x.goneAt s.tickNo) [(.cyc, 2)]).recordEvent .cyc 2 (u.val + 1) w (by decide) (by simp)
  obtain ⟨told, cfg⟩ := ((s.modUnit (u.val + 1) (fun x => x.goneAt s.tickNo)).recordEvent .cyc 2 (u.val + 1) w).tellPoll_facts
    (s.cfg.unit (u.val + 1)).poll (u.val + 1) []
  refine ⟨_, (recorded.stay.trans told.stay).changes step, told.raised (State.raised_recordEvent _ _ _ _ _ (by decide)), ?_, fun v other => ?_⟩
  · rw [cfg, State.cfg_recordEvent, State.unit_modUnit, if_pos rfl]
  · rw [cfg, State.cfg_recordEvent, State.unit_modUnit, if_neg other]

theorem exec_unitLost_not (s : State) (u : Fin 6) (h : (s.cfg.unit (u.val + 1)).missed < 3) : exec (.unitLost u) s = .next s :=
  if_pos (.inr h)

/-! The acknowledgement deadline. -/

/-- An output of a task that has no acknowledgement at the deadline is dropped (02 R61). -/
def RxOut.overdue (n : Nat) (e : Nat × RxOut) : Nat × RxOut := if e.1 == n && !e.2.acked then (e.1, { e.2 with dropped := true }) else e

def RxUnit.ackOver (n : Nat) (x : RxUnit) : RxUnit := { x with outs := List.map (RxOut.overdue n) x.outs }

theorem RxOut.overdue_mk (n m : Nat) (o : RxOut) :
    RxOut.overdue n (m, o) = (m, if m = n ∧ o.acked = false then { o with dropped := true } else o) := by
  by_cases h : m = n ∧ o.acked = false
  · simp [RxOut.overdue, h]
  · rw [if_neg h]
    exact if_neg (by simpa using h)

/-- Only an empty unit becomes empty. -/
theorem RxUnit.ackOver_eq_default {n : Nat} {x : RxUnit} (h : x.ackOver n = {}) : x = {} := by
  have empty : x.outs = [] := List.map_eq_nil_iff.mp (congrArg RxUnit.outs h)
  have same : x.ackOver n = x := by rw [RxUnit.ackOver, empty, List.map_nil, ← empty]
  rw [← same, h]

/-- A listed value that does not become the default is listed with its image. -/
theorem mem_tblMap {α : Type} [DecidableEq α] {d : α} {f : α → α} {t : Tbl α} {k : Nat} {v : α} (h : (k, v) ∈ t) (ne : f v ≠ d) :
    (k, f v) ∈ Tbl.map d f t :=
  List.mem_filter.mpr ⟨List.mem_map.mpr ⟨(k, v), h, rfl⟩, by simpa using ne⟩

theorem exec_rxAckDeadline {s : State} {n : Fin 32} (due : (s.taskCfg n).nextTick s.tickNo ≤ s.tickNo + 2) :
    exec (.rxAckDeadline n) s = .next { s with cfg := { s.cfg with units := Tbl.map {} (RxUnit.ackOver n) s.cfg.units } } :=
  if_neg (by omega)

theorem rxAckDeadline_drops (s : State) (n : Fin 32) (due : (s.taskCfg n).nextTick s.tickNo ≤ s.tickNo + 2) :
    ∃ t, exec (.rxAckDeadline n) s = .next t ∧ t = { s with cfg := { s.cfg with units := t.cfg.units } } ∧
    ∀ (v : Nat) (x : RxUnit), (v, x) ∈ s.cfg.units → x ≠ {} → ∃ y, (v, y) ∈ t.cfg.units ∧ y = { x with outs := y.outs } ∧
      y.outs.length = x.outs.length ∧
      ∀ (m : Nat) (o : RxOut), (m, o) ∈ x.outs → (m, if m = n.val ∧ o.acked = false then { o with dropped := true } else o) ∈ y.outs := by
  refine ⟨_, exec_rxAckDeadline due, rfl, fun v x listed ne => ⟨x.ackOver n, mem_tblMap listed (mt RxUnit.ackOver_eq_default ne), rfl,
    List.length_map _, fun m o out => ?_⟩⟩
  rw [← RxOut.overdue_mk]
  exact List.mem_map_of_mem out

/-- Settles O60: each clause is the lemma of its command above. -/
theorem rickService : Obligations.RickService := by
  refine ⟨exec_pathDelayMeasure_one, exec_pathDelayMeasure_not, exec_rickPoll_not, rickPoll_polls, reply_taken, exec_reply_lost, exec_reply_not,
    ack_noted, fun s u on missed => ?_, exec_unitLost_not, fun s n _ due => rxAckDeadline_drops s n due⟩
  obtain ⟨t, moved, told, gone, others⟩ := unitLost_recorded s u on missed
  refine ⟨t, moved, told, ?_⟩
  rw [gone]
  exact ⟨rfl, rfl, rfl, rfl, others⟩

end Sys2Proof.Machine

namespace Sys2Proof.Machine
set_option Elab.async false

/-! How engines take, load and run billets, and what a billet computes (03 R71-R81, R88, R95-R97). -/

/-! Taking. -/

@[simp] theorem FabBlk.setEngine_setEngine (f : FabBlk) (e : Nat) (x y : Engine) : (f.setEngine e x).setEngine e y = f.setEngine e y := by
  simp [FabBlk.setEngine]

/-- The tails of the deques that are not empty, as thieves see them on one fabric clock (03 R78). -/
def State.tails (s : State) : List (Nat × BRef) :=
  (List.range 16).filterMap (fun d => (s.fab.engine d).deque.getLast?.map (fun b => (d, b)))

theorem State.find_tails {s : State} {d : Fin 16} {b : BRef} (tail : (s.fab.engine d).deque.getLast? = some b) :
    s.tails.find? (fun x => x.1 == d.val) = some (d.val, b) := by
  have shown : (List.range 16).find? (fun i => ((s.fab.engine i).deque.getLast?.map (fun b => (i, b))).any (fun x => x.1 == d.val)) = some d.val := by
    rw [List.find?_range_eq_some]
    refine ⟨by simp [tail], List.mem_range.mpr d.isLt, fun i before => ?_⟩
    cases (s.fab.engine i).deque.getLast? with
    | none => rfl
    | some _ => simpa using Nat.ne_of_lt before
  rw [State.tails, List.find?_filterMap, shown, Option.bind_some, tail, Option.map_some]

theorem State.filter_idle_alone {s : State} {e : Fin 16} (idle : s.idleEngine e = true) :
    (List.range 16).filter (fun i => [e.val].contains i && s.idleEngine i) = [e.val] := by
  have own : ∀ i, ([e.val].contains i && s.idleEngine i) = (i == e.val) := fun i => by
    by_cases h : i = e.val
    · simp [h, idle]
    · simp [h]
  simp only [own]
  rw [List.filter_beq, List.count_eq_one_of_mem List.nodup_range (List.mem_range.mpr e.isLt), List.replicate_one]

/-- An engine that has obtained no billet of its own deque examines the others (03 R78). -/
def State.orSteals (e : Nat) (tails : List (Nat × BRef)) (u : State) : State :=
  if (u.fab.engine e).run.isNone then State.thiefTake e tails u (u.fab.candidates e) else u

theorem State.examine_alone {s : State} {e : Fin 16} (idle : s.idleEngine e = true) :
    s.examine [e.val] = State.orSteals e s.tails (State.ownerTake e s [] (s.fab.engine e).deque) := by
  unfold State.examine State.orSteals
  dsimp only
  rw [s.filter_idle_alone idle, List.foldl_cons, List.foldl_nil]
  generalize State.ownerTake e s [] (s.fab.engine e).deque = u
  cases h : (u.fab.engine e).run.isNone <;> simp [h, State.tails]

theorem State.ownerTake_head {s : State} (e : Nat) {b : BRef} (l : List BRef) (admits : s.quotaAdmits b.task = true) :
    State.ownerTake e s [] (b :: l) = s.takeFrom e e b := by
  simp [State.ownerTake, admits]

theorem State.thiefTake_tail {s : State} (e : Nat) {d : Nat} {tails : List (Nat × BRef)} {b : BRef} (l : List Nat)
    (tail : tails.find? (fun x => x.1 == d) = some (d, b)) (stands : b ∈ (s.fab.engine d).deque) (admits : s.quotaAdmits b.task = true) :
    State.thiefTake e tails s (d :: l) = { s with fab := { s.fab with stealCnt := s.fab.stealCnt + 1#64 } }.takeFrom e d b := by
  simp [State.thiefTake, tail, stands, admits]

theorem State.refill_empty {s : State} (e : Nat) (empty : s.fab.queue = []) : s.refill e = s := by
  simp [State.refill, empty]

/-- The deque of engine `d` without one billet. -/
def FabBlk.drawn (f : FabBlk) (d : Nat) (b : BRef) : FabBlk := f.setEngine d { f.engine d with deque := (f.engine d).deque.erase b }

/-- Engine `e` with a billet taken out of the deque of engine `d`. -/
def FabBlk.taken (f : FabBlk) (e d : Nat) (b : BRef) : FabBlk := (f.drawn d b).setEngine e { (f.drawn d b).engine e with run := some { ref := b } }

/-- With no release waiting nothing comes in for the billet that is taken. -/
theorem State.takeFrom_noQueue {s : State} (e d : Nat) (b : BRef) (empty : s.fab.queue = []) :
    s.takeFrom e d b = State.startRun { s with fab := s.fab.taken e d b } b :=
  congrArg (State.startRun · b) (State.refill_empty (s := { s with fab := s.fab.taken e d b }) d empty)

theorem State.run_startRun_taken (s : State) (e d : Nat) (b : BRef) :
    ((State.startRun { s with fab := s.fab.taken e d b } b).fab.engine e).run = some { ref := b } := by
  have run : ((s.fab.taken e d b).engine e).run = some { ref := b } := by rw [FabBlk.taken, FabBlk.engine_setEngine]
  unfold State.startRun
  split
  · rw [State.fab_setEvent]; exact run
  · exact run

theorem FabBlk.taken_head {f : FabBlk} {e : Nat} {b : BRef} {l : List BRef} (deque : (f.engine e).deque = b :: l) :
    f.taken e e b = f.setEngine e { f.engine e with deque := l, run := some { ref := b } } := by
  rw [FabBlk.taken, FabBlk.drawn, FabBlk.engine_setEngine, FabBlk.setEngine_setEngine, deque, List.erase_cons_head]

/-- An engine takes the head of its own deque (03 R78). -/
theorem exec_engineExamine_head {s : State} {e : Fin 16} {b : BRef} {l : List BRef} (idle : s.idleEngine e = true)
    (deque : (s.fab.engine e).deque = b :: l) (admits : s.quotaAdmits b.task = true) (empty : s.fab.queue = []) :
    exec (.engineExamine [e]) s = .next (State.startRun { s with fab := s.fab.setEngine e { s.fab.engine e with
      deque := l, run := some { ref := b } } } b) := by
  have run := s.run_startRun_taken e e b
  change Host.Outcome.next (s.examine [e.val]) = _
  rw [State.examine_alone idle, deque, State.ownerTake_head _ _ admits, State.takeFrom_noQueue _ _ _ empty, State.orSteals, if_neg (by simp [run]),
    FabBlk.taken_head deque]

theorem engineExamine_takes (s : State) (e : Fin 16) (b : BRef) (l : List BRef) (idle : s.idleEngine e = true)
    (deque : (s.fab.engine e).deque = b :: l) (admits : s.quotaAdmits b.task = true) (empty : s.fab.queue = []) (first : b.rerun = false) :
    RunsTo (.engineExamine [e]) s { s with fab := s.fab.setEngine e { s.fab.engine e with deque := l, run := some { ref := b } } } [] := by
  refine .quiet ((exec_engineExamine_head idle deque admits empty).trans ?_) rfl
  rw [State.startRun, if_neg (by rw [first]; decide)]

theorem engineExamine_reruns (s : State) (e : Fin 16) (b : BRef) (l : List BRef) (idle : s.idleEngine e = true)
    (deque : (s.fab.engine e).deque = b :: l) (admits : s.quotaAdmits b.task = true) (empty : s.fab.queue = []) (again : b.rerun = true) :
    RunsTo (.engineExamine [e]) s { s with fab := { s.fab.setEngine e { s.fab.engine e with deque := l, run := some { ref := b } } with
      rerunCnt := Bits.inc s.fab.rerunCnt } } [(.fab, 2)] := by
  refine .setEvent ((exec_engineExamine_head idle deque admits empty).trans ?_) rfl (by decide)
  rw [State.startRun, if_pos again]
  rfl

theorem engineExamine_steals (s : State) (e d : Fin 16) (b : BRef) (l : List Nat) (idle : s.idleEngine e = true)
    (own : (s.fab.engine e).deque = []) (other : d ≠ e) (first : s.fab.candidates e = d.val :: l)
    (tail : (s.fab.engine d).deque.getLast? = some b) (admits : s.quotaAdmits b.task = true) (empty : s.fab.queue = []) (fresh : b.rerun = false) :
    RunsTo (.engineExamine [e]) s { s with fab := (({ s.fab with stealCnt := s.fab.stealCnt + 1#64 } : FabBlk).setEngine d { s.fab.engine d with
      deque := (s.fab.engine d).deque.erase b }).setEngine e { s.fab.engine e with run := some { ref := b } } } [] := by
  have free : (s.fab.engine e).run.isNone = true := by
    simp only [State.idleEngine, Bool.and_eq_true] at idle
    exact idle.1.2
  have apart : e.val ≠ d.val := fun h => other (Fin.ext h.symm)
  refine .quiet ?_ rfl
  change Host.Outcome.next (s.examine [e.val]) = _
  rw [State.examine_alone idle, own, State.ownerTake, State.orSteals, if_pos free, first,
    State.thiefTake_tail e l (State.find_tails tail) (List.mem_of_getLast? tail) admits, State.takeFrom_noQueue _ _ _ (by exact empty),
    State.startRun, if_neg (by rw [fresh]; decide), FabBlk.taken, FabBlk.drawn, FabBlk.engine_setEngine_ne _ _ apart]
  rfl

/-! Loading. -/

theorem exec_billetLoadDone {s : State} {e : Fin 16} {r : Running} {b : Billet} (runs : (s.fab.engine e).run = some r)
    (known : s.billet r.ref = some b) (loading : r.loaded = false) :
    exec (.billetLoadDone e) s = .next { s with fab := s.fab.setEngine e { s.fab.engine e with
      run := some { r with loaded := true, mem := s.loadLocal r.ref.task b } } } := by
  change execBilletLoadDone e s = _
  unfold execBilletLoadDone
  simp only [runs, known]
  rw [if_neg (by rw [loading]; decide)]

theorem State.loadLocal_ofRun {s : State} {n : Nat} (b : Billet) {r : CycleRun} (run : (s.task n).run = some r) :
    s.loadLocal n b =
      { code := b.ops, data := b.reads.map (fun e => { space := e.1, off := e.2.off, bytes := s.rangeBytes n r e.1 e.2 })
        deltaT := (s.task n).deltaT, csw := (s.task n).csw } := by
  simp only [State.loadLocal, run]

/-! Arithmetic. -/

theorem intReg_zero (n : Nat) : intReg n 0 = 0#64 := by simp [intReg]

/-- A register that is read unsigned holds its low bytes. -/
theorem regInt_unsigned (n : Nat) (a : DWord) : regInt false n a = ((a.toNat % 2 ^ (8 * n) : Nat) : Int) := rfl

/-- A natural number in the low bytes of a register wraps (03 R97). -/
theorem toNat_intReg {n : Nat} (small : n ≤ 8) (k : Nat) : (intReg n k).toNat = k % 2 ^ (8 * n) := by
  have fits : k % 2 ^ (8 * n) < 2 ^ 64 :=
    (Nat.mod_lt _ (by positivity)).trans_le (Nat.pow_le_pow_right (by decide) (by omega))
  rw [intReg, ← Int.natCast_emod, Int.toNat_natCast, BitVec.toNat_ofNat, Nat.mod_eq_of_lt fits]

theorem Arith.eval_byZero (sg : Bool) (n : Nat) (a b : DWord) (zero : regInt sg n b = 0) :
    Arith.eval (.quot sg n) a b = 0#64 ∧ Arith.eval (.rem sg n) a b = intReg n (regInt sg n a) := by
  simp only [Arith.eval, zero, Int.tdiv_zero, Int.tmod_zero, intReg_zero, and_self]

theorem Arith.toNat_eval_add (n : Nat) (a b : DWord) (small : n ≤ 8) :
    (Arith.eval (.add n) a b).toNat = (a.toNat + b.toNat) % 2 ^ (8 * n) := by
  rw [Arith.eval, regInt_unsigned, regInt_unsigned, ← Int.natCast_add, toNat_intReg small, ← Nat.add_mod]

theorem Arith.toNat_eval_mul (n : Nat) (a b : DWord) (small : n ≤ 8) :
    (Arith.eval (.mul n) a b).toNat = a.toNat * b.toNat % 2 ^ (8 * n) := by
  rw [Arith.eval, regInt_unsigned, regInt_unsigned, ← Int.natCast_mul, toNat_intReg small, ← Nat.mul_mod]

/-! The instructions that read and write memory. -/

theorem Billet.steps_store_outside (b : Billet) (m : LocalMem) (l : List BOp) (pc : Nat) (x : BRun) (a n i e : Nat) (h : b.outside a n = some e) :
    Billet.steps b m (.store a n i :: l) 0 pc x = .fault 1 (BitVec.ofNat 32 e) := by
  simp only [Billet.steps, h]

theorem Billet.steps_store (b : Billet) (m : LocalMem) (l : List BOp) (pc : Nat) (x : BRun) {a n : Nat} (i : Nat) (h : b.outside a n = none) :
    Billet.steps b m (.store a n i :: l) 0 pc x = Billet.steps b m l 0 (pc + 1) (x.write a (Bits.natBytes n (x.reg i).toNat)) := by
  simp only [Billet.steps, h]

theorem Billet.steps_load_outside (b : Billet) (m : LocalMem) (l : List BOp) (pc : Nat) (x : BRun) (d a n e : Nat) (sp : MemSpace)
    (h : x.read m sp a n = .error e) : Billet.steps b m (.load d sp a n :: l) 0 pc x = .fault 2 (BitVec.ofNat 32 e) := by
  simp only [Billet.steps, h]

theorem Billet.steps_load (b : Billet) {m : LocalMem} (l : List BOp) (pc : Nat) {x : BRun} (d : Nat) {a n : Nat} {sp : MemSpace} {bs : List Byte}
    (h : x.read m sp a n = .ok bs) :
    Billet.steps b m (.load d sp a n :: l) 0 pc x = Billet.steps b m l 0 (pc + 1) (x.put d (BitVec.ofNat 64 (Bits.leNat bs))) := by
  simp only [Billet.steps, h]

/-- A byte of the draft that the billet has written reads as it was written (03 R73). -/
theorem BRun.read_written (x : BRun) (m : LocalMem) (a : Nat) (v : Byte) : (x.write a [v]).read m .draft a 1 = .ok [v] := by
  have byte : (x.write a [v]).byte m .draft a = some v := by
    simp [BRun.byte, BRun.write, Tbl.get_set_self]
  simp only [BRun.read, byte]

theorem Billet.steps_store_load (b : Billet) (m : LocalMem) (l : List BOp) (pc : Nat) (x : BRun) (d a i : Nat) (inside : b.outside a 1 = none) :
    Billet.steps b m (.store a 1 i :: .load d .draft a 1 :: l) 0 pc x =
      Billet.steps b m l 0 (pc + 2) ((x.write a (Bits.natBytes 1 (x.reg i).toNat)).put d (BitVec.ofNat 64 ((x.reg i).toNat % 256))) := by
  have value : Bits.leNat [BitVec.ofNat 8 (x.reg i).toNat] = (x.reg i).toNat % 256 := by simp [Bits.leNat]
  rw [Billet.steps_store b m _ pc x i inside, ← value]
  exact Billet.steps_load b l (pc + 1) d (x.read_written m a _)

/-- Settles O22: an engine takes or steals one billet, a load copies what the billet may read, and each operation and instruction
is the lemma of its name above. -/
theorem billets : Obligations.Billets := by
  refine ⟨engineExamine_takes, engineExamine_reruns, engineExamine_steals,
    fun s e r b runs known loading => .quiet (exec_billetLoadDone runs known loading) rfl, fun s n b r e run listed => ?_,
    Arith.eval_byZero, Arith.toNat_eval_add, Arith.toNat_eval_mul, Billet.steps_store_outside, Billet.steps_load_outside,
    Billet.steps_store_load, fun b m pc x => by rw [Billet.steps]⟩
  rw [State.loadLocal_ofRun b run]
  exact ⟨rfl, rfl, List.mem_map_of_mem listed⟩

end Sys2Proof.Machine

namespace Sys2Proof.Machine
set_option Elab.async false

/-! POLICY, SEQSTATE, COPY and RESULT frames, the self-test after a mismatch and the timeout of the state copy (03 R92, 04 R121-R125, R131). -/

/-! Frames (04 R100). -/

theorem TwinBlk.noteCopy_eq (t : TwinBlk) (f : OlviaHdr) : ∃ c, t.noteCopy f = { t with copies := c } := by
  unfold TwinBlk.noteCopy
  dsimp only
  split
  · exact ⟨_, rfl⟩
  · split
    · exact ⟨_, rfl⟩
    · exact ⟨t.copies, rfl⟩

/-- The state in which a frame acts: the copy that has come is noted. -/
def State.noted (s : State) (f : OlviaHdr) : State := { s with twin := s.twin.noteCopy f }

section
variable (s : State) (f : OlviaHdr)
theorem State.twin_noted : ∃ c, (s.noted f).twin = { s.twin with copies := c } := s.twin.noteCopy_eq f
@[simp] theorem State.holdsToken_noted : (s.noted f).holdsToken = s.holdsToken := by
  obtain ⟨c, h⟩ := s.twin_noted f; simp [State.holdsToken, h]
@[simp] theorem State.link_noted : (s.noted f).twin.link = s.twin.link := by obtain ⟨c, h⟩ := s.twin_noted f; rw [h]
@[simp] theorem State.began_noted : (s.noted f).twin.began = s.twin.began := by obtain ⟨c, h⟩ := s.twin_noted f; rw [h]
@[simp] theorem State.leads_noted : (s.noted f).leads = s.leads := by simp [State.leads]
@[simp] theorem State.follows_noted : (s.noted f).follows = s.follows := by
  obtain ⟨c, h⟩ := s.twin_noted f; simp [State.follows, h]
@[simp] theorem State.copying_noted : (s.noted f).copying = s.copying := by
  obtain ⟨c, h⟩ := s.twin_noted f; simp [State.copying, h]
theorem State.moves_noted (m : List (Block × Nat)) : Moves s (s.noted f) [.twin] m := by unfold State.noted; exact .set
end

theorem State.link_of_leads {s : State} (h : s.leads = true) : s.twin.link ≠ .severed := by
  rw [State.leads, Bool.and_eq_true, bne_iff_ne] at h
  exact h.2

theorem State.link_of_follows {s : State} (h : s.follows = true) : s.twin.link ≠ .severed := by
  rw [State.follows, Bool.and_eq_true, bne_iff_ne] at h
  exact h.2

theorem State.holdsToken_of_follows {s : State} (h : s.follows = true) : s.holdsToken = false := by
  simp only [State.follows, Bool.and_eq_true, Bool.not_eq_true'] at h
  exact h.1.2

theorem State.copying_of {s : State} (link : s.twin.link = .catchingUp) (phase : s.twin.phase ≠ 0) : s.copying = true := by
  simp [State.copying, link, phase]

/-- What a SHADOW does with a frame to use, when the frame acts on a linked SHADOW alone. -/
theorem State.noted_ofFollows {s : State} (f : OlviaHdr) (follows : s.follows = true) {take act : State → State}
    (acts : ∀ t : State, t.twin.link ≠ .severed → take t = if t.follows then act t else t) : take (s.noted f) = act (s.noted f) := by
  have follow : (s.noted f).follows = true := by simpa using follows
  exact (acts _ (State.link_of_follows follow)).trans (if_pos follow)

section
variable {s : State} {f : OlviaHdr} (fresh : s.twin.fresh f = true)
include fresh
theorem exec_policy (m : PolicyMsg) : exec (.policy f m) s = .next ((s.noted f).takePolicyMsg m) := congrArg _ (if_pos fresh)
theorem exec_seqstate (m : SeqMsg) : exec (.seqstate f m) s = .next ((s.noted f).takeSeqMsg m) := congrArg _ (if_pos fresh)
theorem exec_copy (m : CopyMsg) : exec (.copy f m) s = .next ((s.noted f).takeCopy m) := congrArg _ (if_pos fresh)
theorem exec_result (m : ResultMsg) : exec (.result f m) s = .next ((s.noted f).takeResult m) := congrArg _ (if_pos fresh)

theorem exec_policy_ofFollows (follows : s.follows = true) {m : PolicyMsg} {act : State → State}
    (acts : ∀ t : State, t.twin.link ≠ .severed → t.takePolicyMsg m = if t.follows then act t else t) :
    exec (.policy f m) s = .next (act (s.noted f)) :=
  (exec_policy fresh m).trans (congrArg _ (State.noted_ofFollows (take := fun t => t.takePolicyMsg m) f follows acts))

theorem exec_seqstate_ofFollows (follows : s.follows = true) {m : SeqMsg} {act : State → State}
    (acts : ∀ t : State, t.twin.link ≠ .severed → t.takeSeqMsg m = if t.follows then act t else t) :
    exec (.seqstate f m) s = .next (act (s.noted f)) :=
  (exec_seqstate fresh m).trans (congrArg _ (State.noted_ofFollows (take := fun t => t.takeSeqMsg m) f follows acts))

/-- A COPY frame that acts on a SHADOW while it takes a state copy (04 R124). -/
theorem exec_copy_ofCopying (follows : s.follows = true) (copying : s.copying = true) {m : CopyMsg} {act : State → State}
    (acts : ∀ t : State, t.follows = true → t.takeCopy m = if t.copying then act t else t) :
    exec (.copy f m) s = .next (act (s.noted f)) :=
  (exec_copy fresh m).trans (congrArg _ ((acts _ (by simpa using follows)).trans (if_pos (by simpa using copying))))
end

/-! POLICY. -/

theorem exec_policy_forward {s : State} {f : OlviaHdr} (fresh : s.twin.fresh f = true) (leads : s.leads = true) (m : ProgMode) :
    exec (.policy f (.forward m)) s = .next { s.noted f with cyc := { s.cyc with buf := s.cyc.buf ++ [(m, .partner)] } } := by
  have lead : (s.noted f).leads = true := by simpa using leads
  exact (exec_policy fresh _).trans (congrArg _ ((if_neg (State.link_of_leads lead)).trans (if_pos lead)))

/-- A program mode is in force in every task at once. -/
def State.modeNow (s : State) (m : ProgMode) : State :=
  { s with cyc := { s.cyc with target := m, mode := m, pends := [], tasks := Tbl.map {} (fun t => { t with mode := m }) s.cyc.tasks } }

/-- A mode that names no cycle takes effect at once on a SHADOW that runs in step (02 R50, R54). -/
theorem State.policyMode_now {s : State} {m : ProgMode} (unsent : s.cyc.fwd = []) (joined : s.twin.link = .joined) (other : m ≠ .hold) :
    s.policyMode m [] = s.modeNow m := by
  unfold State.policyMode
  simp only [unsent, List.filter_nil, List.map_nil, List.isEmpty_nil, if_true, other, false_and, if_false]
  rw [if_neg fun h => absurd (joined.symm.trans h.1) (by decide)]
  simp only [State.modeNow, ← unsent]
  rfl

/-- Entering HOLD does not depend on the cycle controller. -/
theorem State.shadowHold_setCyc (s : State) (c : CycBlk) : State.shadowHold { s with cyc := c } = { s.shadowHold with cyc := c } := by
  unfold State.shadowHold
  by_cases h : s.role = .shadow ∧ s.twin.link = .joined
  · have same : State.role { s with cyc := c } = .shadow ∧ s.twin.link = .joined := h
    rw [if_pos h, if_pos same]
    rfl
  · have same : ¬ (State.role { s with cyc := c } = .shadow ∧ s.twin.link = .joined) := h
    rw [if_neg h, if_neg same]

/-- A SHADOW that runs in step leaves the join and releases its shared stages when it enters HOLD (02 R54, 04 R111). -/
theorem State.shadowHold_facts {s : State} (shadow : s.role = .shadow) (joined : s.twin.link = .joined) :
    Moves s s.shadowHold [.twin, .dio, .aio] [] ∧ s.shadowHold.twin.link = .catchingUp ∧ s.shadowHold.twin.phase = 0 ∧
      s.shadowHold.twin.engaged = false ∧ s.shadowHold.dio = s.dio.engageAll false := by
  rw [State.shadowHold, if_pos ⟨shadow, joined⟩]
  exact ⟨.set, rfl, rfl, rfl, rfl⟩

theorem State.policyMode_hold {s : State} (unsent : s.cyc.fwd = []) (joined : s.twin.link = .joined) (mode : s.cyc.mode ≠ .hold)
    (shadow : s.role = .shadow) : s.policyMode .hold [] = s.shadowHold.modeNow .hold := by
  obtain ⟨moved, link, phase, -, -⟩ := State.shadowHold_facts shadow joined
  unfold State.policyMode
  simp only [unsent, List.filter_nil, List.map_nil, List.isEmpty_nil, if_true, mode, ne_eq, not_false_eq_true, and_self, State.shadowHold_setCyc,
    State.finishAll, List.foldl_nil, phase]
  rw [if_neg (by simp)]
  simp only [State.modeNow, moved.cyc, ← unsent]

theorem policy_forward (s : State) (f : OlviaHdr) (m : ProgMode) (fresh : s.twin.fresh f = true) (leads : s.leads = true) :
    RunsTo (.policy f (.forward m)) s { s with twin := s.twin.noteCopy f, cyc := { s.cyc with buf := s.cyc.buf ++ [(m, .partner)] } } [] :=
  .quiet (exec_policy_forward fresh leads m) rfl

theorem exec_policy_mode {s : State} {f : OlviaHdr} (fresh : s.twin.fresh f = true) (follows : s.follows = true) (m : ProgMode)
    (l : List (Nat × DWord)) : exec (.policy f (.mode m l)) s = .next ((s.noted f).policyMode m l) :=
  exec_policy_ofFollows (act := fun t => t.policyMode m l) fresh follows (fun _ linked => if_neg linked)

theorem policy_mode (s : State) (f : OlviaHdr) (m : ProgMode) (fresh : s.twin.fresh f = true) (follows : s.follows = true)
    (joined : s.twin.link = .joined) (unsent : s.cyc.fwd = []) (other : m ≠ .hold) : RunsTo (.policy f (.mode m [])) s { s with
      twin := s.twin.noteCopy f
      cyc := { s.cyc with target := m, mode := m, pends := [], tasks := Tbl.map {} (fun t => { t with mode := m }) s.cyc.tasks } } [] := by
  refine .quiet ((exec_policy_mode fresh follows m []).trans ?_) rfl
  rw [State.policyMode_now (by exact unsent) (by simpa using joined) other]
  rfl

theorem policy_hold (s : State) (f : OlviaHdr) (fresh : s.twin.fresh f = true) (follows : s.follows = true) (began : s.twin.began = true)
    (joined : s.twin.link = .joined) (unsent : s.cyc.fwd = []) (mode : s.cyc.mode ≠ .hold) :
    ∃ t, Changes (.policy f (.mode .hold [])) s t [.twin, .dio, .aio, .cyc] [] ∧ t.cyc.mode = .hold ∧ t.cyc.target = .hold ∧ t.twin.link = .catchingUp ∧
      t.twin.phase = 0 ∧ t.twin.engaged = false ∧ t.dio = s.dio.engageAll false := by
  have linked : (s.noted f).twin.link = .joined := by simpa using joined
  have shadow : (s.noted f).role = .shadow := by simp [State.role, began, State.holdsToken_of_follows follows]
  obtain ⟨moved, link, phase, engaged, dio⟩ := State.shadowHold_facts shadow linked
  have step := exec_policy_mode fresh follows .hold []
  rw [State.policyMode_hold (by exact unsent) linked mode shadow] at step
  have last : Moves (s.noted f).shadowHold ((s.noted f).shadowHold.modeNow .hold) [.cyc] [] := by unfold State.modeNow; exact .set
  exact ⟨_, ((s.moves_noted f []).stay.trans (moved.stay.trans last.stay)).changes step, rfl, rfl, link, phase, engaged, dio⟩

/-! SEQSTATE. -/

theorem seqstate_rate (s : State) (f : OlviaHdr) (n hz : Nat) (fresh : s.twin.fresh f = true) (linked : s.twin.link ≠ .severed) :
    RunsTo (.seqstate f (.panel (.rate n hz))) s { s with
      twin := s.twin.noteCopy f
      pnl := { s.pnl with hz := hz, nextNs := s.pnl.nextNs.map (fun _ => (s.pnl.frameNs + 1000000000 / hz) / 10 * 10) } } [] :=
  .quiet ((exec_seqstate fresh _).trans (congrArg _ (if_neg (by simpa using linked)))) rfl

theorem seqstate_axis (s : State) (f : OlviaHdr) (e : AxEvent) (ago : Nat) (fresh : s.twin.fresh f = true) (follows : s.follows = true) :
    ∃ t, Changes (.seqstate f (.axis e ago)) s t [.ax, .twin] [(.ax, 0), (.ax, 1), (.ax, 13)] :=
  ⟨_, ((s.moves_noted f []).stay.trans (State.moves_axRemote _ e ago).stay).changes
    (exec_seqstate_ofFollows (act := fun t => t.axRemote e ago) fresh follows (fun _ linked => if_neg linked))⟩

/-- The first measurement of a path delay is no jump of it (07 R215). -/
theorem State.delayMeasured_first {s : State} {p : Nat} (ns : Nat) (first : (s.net.port p).newest = none) :
    s.delayMeasured p ns = { s with net := s.net.setPort p { s.net.port p with
      newest := some ns, delay := if s.net.frozen then (s.net.port p).delay else ns } } := by
  simp [State.delayMeasured, first]

theorem seqstate_delay (s : State) (f : OlviaHdr) (p : Fin 4) (ns : Nat) (fresh : s.twin.fresh f = true) (follows : s.follows = true)
    (first : (s.net.port p).newest = none) : RunsTo (.seqstate f (.delay p ns)) s { s with
      twin := s.twin.noteCopy f
      net := s.net.setPort p { s.net.port p with newest := some ns, delay := if s.net.frozen then (s.net.port p).delay else ns } } [] :=
  .quiet ((exec_seqstate_ofFollows (m := .delay p ns) (act := fun t => t.delayMeasured p ns) fresh follows (fun _ linked => if_neg linked)).trans
    (congrArg _ (State.delayMeasured_first (s := s.noted f) ns first))) rfl

/-! COPY: images. -/

/-- A task with another committed image, that of cycle `k`, and no cycle of its own in progress (04 R124). -/
def State.withImage (s : State) (n : Nat) (k : DWord) (img : Tbl Byte) : State :=
  s.setTask n (({ s.task n with cycle := k, run := none, toApply := false } : TaskSt).setImage img)

theorem State.moves_withImage (s : State) (n : Nat) (k : DWord) (img : Tbl Byte) : Moves s (s.withImage n k img) [.cyc] [] :=
  s.moves_setTask n _ []

theorem State.task_withImage (s : State) (n : Nat) (k : DWord) (img : Tbl Byte) : ((s.withImage n k img).task n).cycle = k ∧
    ((s.withImage n k img).task n).run = none ∧ ((s.withImage n k img).task n).toApply = false ∧ ((s.withImage n k img).task n).image = img := by
  rw [State.withImage, State.task_setTask_self]
  exact ⟨rfl, rfl, rfl, (TaskSt.both_setImage _ img).1⟩

/-- The task whose image a state copy brings, and how far the copy has come (04 *TWIN_COPY_STATUS*). -/
def State.copyShown (s : State) (n pct : Nat) : State :=
  { s with twin := { s.twin with phase := if 100 ≤ pct then 3 else 2, copyTask := n, percent := min 100 pct } }

theorem exec_copy_image {s : State} {f : OlviaHdr} {n : Nat} (k : DWord) (l : List (Nat × Byte)) (part : Option (Nat × Nat))
    (fresh : s.twin.fresh f = true) (follows : s.follows = true) (copying : s.copying = true) (small : n < 32) :
    exec (.copy f (.image n k l part)) s = .next ((s.noted f).copyImage n k l part) :=
  exec_copy_ofCopying (act := fun t => t.copyImage n k l part) fresh follows copying (fun t follow => by
    rw [State.takeCopy, if_neg (by simp [follow])]
    simp only [small, and_true])

theorem copy_part (s : State) (f : OlviaHdr) (n : Nat) (k : DWord) (l : List (Nat × Byte)) (off len : Nat) (fresh : s.twin.fresh f = true)
    (follows : s.follows = true) (link : s.twin.link = .catchingUp) (phase : s.twin.phase ≠ 0) (small : n < 32) :
    ∃ t, Changes (.copy f (.image n k l (some (off, len)))) s t [.cyc, .twin] [] ∧ (t.task n).cycle = k ∧ (t.task n).run = none ∧ (t.task n).toApply = false ∧
      (t.task n).image = Tbl.setAll 0#8 (List.filter (fun (e : Nat × Byte) => !(decide (off ≤ e.1) && decide (e.1 < off + len))) (s.task n).image) l ∧
      t.twin = { s.twin.noteCopy f with phase := if 100 ≤ s.copyPercent n (off + len) then 3 else 2, copyTask := n
                                        percent := min 100 (s.copyPercent n (off + len)) } := by
  have step := exec_copy_image k l (some (off, len)) fresh follows (State.copying_of link phase) small
  generalize kept : Tbl.setAll 0#8 (List.filter (fun (e : Nat × Byte) => !(decide (off ≤ e.1) && decide (e.1 < off + len))) (s.task n).image) l = img
  have image := (s.noted f).moves_withImage n k img
  obtain ⟨cycle, run, apply, whole⟩ := (s.noted f).task_withImage n k img
  have shown : Moves ((s.noted f).withImage n k img) (((s.noted f).withImage n k img).copyShown n (s.copyPercent n (off + len))) [.twin] [] := by
    unfold State.copyShown; exact .set
  refine ⟨((s.noted f).withImage n k img).copyShown n (s.copyPercent n (off + len)),
    ((s.moves_noted f []).stay.trans (image.stay.trans shown.stay)).changes ?_, cycle, run, apply, whole, rfl⟩
  rw [step, ← kept]
  rfl

theorem copy_lines (s : State) (f : OlviaHdr) (n : Nat) (k : DWord) (l : List (Nat × Byte)) (fresh : s.twin.fresh f = true)
    (follows : s.follows = true) (link : s.twin.link = .catchingUp) (phase : s.twin.phase ≠ 0) (small : n < 32)
    (newer : (s.task n).cycle.toNat < k.toNat) (idle : (s.task n).run = none) :
    ∃ t, Changes (.copy f (.image n k l none)) s t [.cyc, .twin] [] ∧ (t.task n).cycle = k ∧ (t.task n).toApply = false ∧
      (t.task n).image = Tbl.setAll 0#8 (s.task n).image l ∧ t.twin = s.twin.noteCopy f := by
  have step := exec_copy_image k l none fresh follows (State.copying_of link phase) small
  have taken : (s.noted f).copyImage n k l none = (s.noted f).withImage n k (Tbl.setAll 0#8 (s.task n).image l) :=
    if_pos ⟨newer, by change (s.task n).run.isNone = true; rw [idle]; rfl⟩
  obtain ⟨cycle, -, apply, whole⟩ := (s.noted f).task_withImage n k (Tbl.setAll 0#8 (s.task n).image l)
  rw [taken] at step
  exact ⟨_, ((s.moves_noted f []).stay.trans (State.moves_withImage _ n k _).stay).changes step, cycle, apply, whole, rfl⟩

/-! COPY: the sequential state. -/

theorem State.copySeq_facts (s : State) (x : List (Fin 4 × Axis)) (q : List (Nat × Word)) (r : List (Nat × Half)) (p : List (Fin 6 × RxPoll))
    (c : List (Nat × Nat × Word)) : Moves s (s.copySeq x [] q r p c) [.cyc, .ax, .cfg, .net, .twin] [] ∧
      (s.copySeq x [] q r p c).twin = { s.twin with axDiff := false, phase := 4, percent := 100 } ∧
      (s.copySeq x [] q r p c).ax = x.foldl (fun d e => d.set e.1 e.2) s.ax ∧ (s.copySeq x [] q r p c).net.redSeq = Tbl.setAll 0#16 [] r := by
  have counts : Moves s (c.foldl (fun s e => s.modTask e.1 (fun t => { t with consec := e.2.1, overruns := e.2.2 })) s) [.cyc] [] :=
    Moves.foldl _ (fun s e => s.moves_modTask _ _ []) c s
  dsimp only [State.copySeq, List.foldl_nil]
  generalize c.foldl (fun s e => s.modTask e.1 (fun t => { t with consec := e.2.1, overruns := e.2.2 })) s = u at counts
  refine ⟨counts.stay.trans .set, ?_, ?_, rfl⟩
  · rw [counts.twin]
  · rw [counts.ax]

theorem copy_seqState (s : State) (f : OlviaHdr) (x : List (Fin 4 × Axis)) (q : List (Nat × Word)) (r : List (Nat × Half)) (p : List (Fin 6 × RxPoll))
    (c : List (Nat × Nat × Word)) (fresh : s.twin.fresh f = true) (follows : s.follows = true) (link : s.twin.link = .catchingUp)
    (phase : s.twin.phase ≠ 0) :
    ∃ t, Changes (.copy f (.seqState x [] q r p c)) s t [.cyc, .ax, .cfg, .net, .twin] [] ∧ t.twin = { s.twin.noteCopy f with axDiff := false, phase := 4, percent := 100 } ∧
      t.ax = x.foldl (fun d e => d.set e.1 e.2) s.ax ∧ t.net.redSeq = Tbl.setAll 0#16 [] r := by
  obtain ⟨moved, facts⟩ := (s.noted f).copySeq_facts x q r p c
  exact ⟨_, ((s.moves_noted f []).stay.trans moved).changes
    (exec_copy_ofCopying (act := fun t => t.copySeq x [] q r p c) fresh follows (State.copying_of link phase) (fun t follow => if_neg (by simp [follow]))), facts⟩

/-! COPY: a program image. -/

theorem exec_copy_program {s : State} {f : OlviaHdr} (p : Program) (fresh : s.twin.fresh f = true) (follows : s.follows = true)
    (copying : s.copying = true) : exec (.copy f (.program p)) s = .next ((s.noted f).copyProgram p) :=
  exec_copy_ofCopying (act := fun t => t.copyProgram p) fresh follows copying (fun t follow => if_neg (by simp [follow]))

theorem copy_program (s : State) (f : OlviaHdr) (p : Program) (g : Nat) (fresh : s.twin.fresh f = true) (follows : s.follows = true)
    (link : s.twin.link = .catchingUp) (phase : s.twin.phase ≠ 0) (signed : p.signer = some g) (known : g ∈ s.cfg.keyStore.imageKeys) :
    RunsTo (.copy f (.program p)) s { s with
      cfg := { s.cfg with prog := some p, base := if s.cfg.joinProg then s.cfg.base else s.cfg.prog, joinProg := true, progOk := true }
      xch := { s.xch with reverse := none }, twin := { s.twin.noteCopy f with peer := { s.twin.peer with prog := p.hash } } } [] := by
  have peer : (s.noted f).twin.peer = s.twin.peer := by obtain ⟨c, h⟩ := s.twin_noted f; rw [h]
  refine .quiet ((exec_copy_program p fresh follows (State.copying_of link phase)).trans (congrArg _ ?_)) rfl
  unfold State.copyProgram
  rw [if_neg (by simpa [signed, State.noted] using known), peer]
  rfl

theorem State.moves_pnlAlone (s : State) : Moves s s.pnlAlone [.pnl, .done] [] := by
  unfold State.pnlAlone
  exact (Moves.set (t := { s with pnl := _ })).trans (Moves.foldl _ (fun s r => (Moves.refl s _ _).finish _ _ _ (by simp)) _ _)

/-- A SHADOW that refuses a join is SEVERED, and reports it (04 R123, R126). -/
theorem State.joinGivenUp_facts (s : State) : Moves s s.joinGivenUp [.twin, .pnl, .done] [(.twin, 8)] ∧ s.joinGivenUp.raised .twin 8 = true ∧
    s.joinGivenUp.twin = { s.twin with joinReason := 1, link := .severed, phase := 0 } := by
  have told := (Moves.set (s := s) (t := { s with twin := { s.twin with joinReason := 1, link := .severed, phase := 0 } })
    (l := [.twin]) (m := [(.twin, 8)])).setEvent .twin 8 (by decide) (by simp)
  unfold State.joinGivenUp
  exact ⟨told.stay.trans (State.moves_pnlAlone _).stay, (State.moves_pnlAlone _).raised (State.raised_setEvent _ _ _ (by decide)),
    (State.moves_pnlAlone _).twin.trans (State.twin_setEvent _ _ _)⟩

theorem copy_program_refused (s : State) (f : OlviaHdr) (p : Program) (fresh : s.twin.fresh f = true) (follows : s.follows = true)
    (link : s.twin.link = .catchingUp) (phase : s.twin.phase ≠ 0) (unknown : ∀ g, p.signer = some g → g ∉ s.cfg.keyStore.imageKeys) :
    ∃ t, Changes (.copy f (.program p)) s t [.twin, .pnl, .done] [(.twin, 8)] ∧ t.raised .twin 8 = true ∧
      t.twin = { s.twin.noteCopy f with joinReason := 1, link := .severed, phase := 0 } := by
  have refused : (s.noted f).copyProgram p = (s.noted f).joinGivenUp := by
    refine if_pos ?_
    cases signer : p.signer with
    | none => rfl
    | some g => simpa [State.noted] using unknown g signer
  have step := exec_copy_program p fresh follows (State.copying_of link phase)
  rw [refused] at step
  obtain ⟨moved, told, twin⟩ := (s.noted f).joinGivenUp_facts
  exact ⟨_, ((s.moves_noted f []).stay.trans moved).changes step, told, twin⟩

/-! Self-tests after a mismatch (04 R121, R122). -/

theorem State.moves_putResult (s : State) (own pass : Bool) : Moves s (s.putResult own pass) [.twin] [] := by
  unfold State.putResult; exact .set

theorem State.mismTask_putResult (s : State) (own pass : Bool) : (s.putResult own pass).twin.mismTask =
    (s.twin.mismTask &&& (if own = s.holdsToken then 0xF3FFFFFF#32 else 0xFCFFFFFF#32)) |||
      Bits.fld (if pass then 1 else 2) (if own = s.holdsToken then 26 else 24) := by
  by_cases lead : own = s.holdsToken <;> simp [State.putResult, lead]

/-- A mismatch is settled only when both results are in (04 R121). -/
theorem State.mismatchOutcome_waits {s : State} (h : s.twin.ownResult = none ∨ s.twin.peerResult = none) : s.mismatchOutcome = s := by
  unfold State.mismatchOutcome
  split
  next own peer => simp [own, peer] at h
  next => rfl

theorem result_selfTest (s : State) (f : OlviaHdr) (b : Bool) (fresh : s.twin.fresh f = true) (testing : s.twin.testing = true)
    (peer : s.twin.peerResult = none) (own : s.twin.ownResult = none) :
    ∃ t, Changes (.result f (.selfTest b)) s t [.twin] [] ∧ t.twin.peerResult = some b ∧
      t.twin.mismTask = (s.twin.mismTask &&& (if s.holdsToken then 0xFCFFFFFF#32 else 0xF3FFFFFF#32)) ||| Bits.fld (if b then 1 else 2) (if s.holdsToken then 24 else 26) := by
  obtain ⟨c, twin⟩ := s.twin_noted f
  have taken : (s.noted f).takeResult (.selfTest b) = (s.noted f).putResult false b := by
    refine (if_pos (by simp [twin, testing, peer])).trans (State.mismatchOutcome_waits (.inl ?_))
    simp [State.putResult, twin, own]
  have step := exec_result fresh (.selfTest b)
  rw [taken] at step
  refine ⟨_, ((s.moves_noted f []).trans ((s.noted f).moves_putResult false b)).changes step, rfl, ?_⟩
  rw [State.mismTask_putResult, State.holdsToken_noted, twin]
  cases s.holdsToken <;> rfl

theorem exec_mismatchSelfTestDone_pass {s : State} (testing : s.twin.testing = true) (own : s.twin.ownResult = none)
    (ended : s.holdsToken = true → s.fab.selfTesting = false) :
    exec (.mismatchSelfTestDone true) s = .next ((s.putResult true true).olvia (.result true)).mismatchOutcome := by
  have due : ¬ (!s.twin.testing || s.twin.ownResult.isSome || (s.holdsToken && s.fab.selfTesting)) = true := by
    simpa [testing, own] using ended
  exact (if_neg due).trans (if_neg (by simp))

theorem mismatchSelfTestDone_passes (s : State) (testing : s.twin.testing = true) (own : s.twin.ownResult = none) (peer : s.twin.peerResult = none)
    (up : s.twin.linkUp = true) (ended : s.holdsToken = true → s.fab.selfTesting = false) :
    ∃ t, Changes (.mismatchSelfTestDone true) s t [.twin] [] ∧ t.twin.ownResult = some true ∧ t.twin.sent = s.twin.sent ++ [.result true] ∧
      t.twin.mismTask = (s.twin.mismTask &&& (if s.holdsToken then 0xF3FFFFFF#32 else 0xFCFFFFFF#32)) ||| Bits.fld 1 (if s.holdsToken then 26 else 24) := by
  have step := exec_mismatchSelfTestDone_pass testing own ended
  have sent := (s.putResult true true).olvia_up (.result true) up
  rw [State.mismatchOutcome_waits (.inr (by rw [sent]; exact peer))] at step
  refine ⟨_, ((s.moves_putResult true true).trans (State.moves_olvia _ _ _)).changes step, ?_, ?_, ?_⟩
  · rw [sent]; rfl
  · rw [sent]; rfl
  · have word := s.mismTask_putResult true true
    simp only [eq_comm (a := true)] at word
    rw [sent]
    exact word

theorem mismatchSelfTestDone_early (s : State) (holds : s.holdsToken = true) (fenced : s.fab.selfTesting = true) (b : Bool) :
    RunsTo (.mismatchSelfTestDone b) s s [] :=
  .quiet (if_pos (by simp [holds, fenced])) rfl

/-! The timeout of the state copy (04 R125). -/

/-- A state copy begins anew. -/
def State.copyBegun (s : State) : State :=
  { s with twin := { s.twin with
    link := .catchingUp, phase := 1, copyNs := s.nowNs, seqDone := false, percent := 0, testing := false
    shown := false, copyOff := 0, copyTodo := s.configuredTasks
    suspect := false, isolated := false, split := none, lost := false, blocked := false
    tasks := Tbl.map {} TwinTask.restart s.twin.tasks } }

/-- A SHADOW that is not in HOLD lets go and begins the state copy (04 R124). -/
theorem State.startCopy_shadow {s : State} (shadow : s.holdsToken = false) (mode : s.cyc.mode ≠ .hold) (still : s.exchanging = false)
    (free : s.releasePending = false) : s.startCopy = State.setEvent (s.standBack.letGo.copyBegun) .twin 5 := by
  unfold State.startCopy
  extract_lets hold u x0 v t0 w x
  have goes : hold = false := by simp [hold, shadow, mode]
  have left : u = s.standBack.letGo := (if_neg (by simp [shadow])).trans (congrArg State.letGo (if_neg (by simp [free])))
  have kept : v = s.standBack.letGo := by
    have xch : u.xch = s.xch := by rw [left, (s.standBack.moves_letGo []).xch, (s.moves_standBack []).xch]
    have same : u.exchanging = false := by rw [State.exchanging, xch]; exact still
    exact (if_neg (by simp [same])).trans left
  have begun : w = s.standBack.letGo.copyBegun := by
    simp only [w, t0, goes, kept]
    rfl
  have token : x.holdsToken = false := by
    simp only [x, begun, State.holdsToken, State.twin_setEvent]
    exact shadow
  rw [if_neg (by simp [goes]), if_neg (by simp [token])]
  simp only [x, begun]

/-- The pair is CATCHING-UP, and the SHADOW drives nothing and follows the LEAD's time (04 R111, R124, 06 R164). -/
theorem State.copyBegun_facts (s : State) : s.standBack.letGo.copyBegun.twin.link = .catchingUp ∧ s.standBack.letGo.copyBegun.twin.phase = 1 ∧
    s.standBack.letGo.copyBegun.twin.copyNs = s.nowNs ∧ s.standBack.letGo.copyBegun.twin.joinReason = s.twin.joinReason ∧
    s.standBack.letGo.copyBegun.twin.engaged = false ∧ s.standBack.letGo.copyBegun.time = s.time.follow ∧
    s.standBack.letGo.copyBegun.dio = s.dio.engageAll false := ⟨rfl, rfl, rfl, rfl, rfl, rfl, rfl⟩

/-- The copy has not come to its end in time: the reason is noted and reported. -/
def State.copyLate (s : State) : State := State.setEvent { s with twin := { s.twin with joinReason := 4 } } .twin 8

theorem State.copyLate_facts (s : State) : Moves s s.copyLate [.twin] [(.twin, 8)] ∧ s.copyLate.raised .twin 8 = true ∧
    s.copyLate.twin = { s.twin with joinReason := 4 } := by
  unfold State.copyLate
  exact ⟨Moves.setEvent .set .twin 8 (by decide) (by simp), State.raised_setEvent _ _ _ (by decide), State.twin_setEvent _ _ _⟩

theorem stateCopyTimeout_restarts (s : State) (link : s.twin.link = .catchingUp) (phase : s.twin.phase ≠ 0)
    (due : s.twin.copyNs + 60000000000 ≤ s.nowNs) (shadow : s.holdsToken = false) (mode : s.cyc.mode ≠ .hold) (still : s.exchanging = false)
    (free : s.releasePending = false) :
    ∃ t, Changes .stateCopyTimeout s t [.twin, .dio, .aio, .fab, .time, .cyc, .xch] [(.twin, 5), (.twin, 8)] ∧ t.raised .twin 5 = true ∧ t.raised .twin 8 = true ∧
      t.twin.link = .catchingUp ∧ t.twin.phase = 1 ∧ t.twin.copyNs = s.nowNs ∧ t.twin.joinReason = 4 ∧ t.twin.engaged = false ∧ t.time = s.time.follow ∧
      t.dio = s.dio.engageAll false := by
  have step : exec .stateCopyTimeout s = .next s.copyLate.startCopy := if_pos ⟨link, phase, due⟩
  obtain ⟨late, told, twin⟩ := s.copyLate_facts
  have begun := s.copyLate.moves_startCopy
  have moved : Moves s s.copyLate.startCopy [.twin, .dio, .aio, .fab, .time, .cyc, .xch] [(.twin, 5), (.twin, 8)] := late.stay.trans begun.stay
  have again := begun.raised told
  have starts : s.copyLate.startCopy = State.setEvent s.copyLate.standBack.letGo.copyBegun .twin 5 :=
    State.startCopy_shadow (by simpa only [State.holdsToken, twin] using shadow) (by rw [late.cyc]; exact mode)
      (by simpa only [State.exchanging, late.xch] using still) (by simpa only [State.releasePending, twin] using free)
  rw [starts] at again moved step
  obtain ⟨catching, one, clock, reason, released, follows, stages⟩ := s.copyLate.copyBegun_facts
  refine ⟨_, moved.changes step, State.raised_setEvent _ _ _ (by decide), again, ?_⟩
  rw [State.twin_setEvent, State.time_setEvent, State.dio_setEvent, clock, reason, follows, stages, State.nowNs, late.time, late.dio, twin]
  exact ⟨catching, one, rfl, rfl, released, rfl, rfl⟩

/-- Settles O28: a frame acts on the state in which its copy is noted, and each clause is the lemma of its message above. -/
theorem twinCopy : Obligations.TwinCopy :=
  ⟨policy_forward, policy_mode, policy_hold,
    fun _ _ n b k fresh follows => .quiet (exec_policy_ofFollows (m := .act n b k) fresh follows (fun _ linked => if_neg linked)) rfl,
    fun _ _ n k fresh follows => .quiet (exec_policy_ofFollows (m := .restart n k) fresh follows (fun _ linked => if_neg linked)) rfl,
    fun _ _ n l k fresh follows => .quiet (exec_policy_ofFollows (m := .limits n l k) fresh follows (fun _ linked => if_neg linked)) rfl,
    seqstate_rate, seqstate_axis, seqstate_delay,
    fun _ _ c q p r fresh follows => .quiet (exec_seqstate_ofFollows (m := .stream c q p r) fresh follows (fun _ linked => if_neg linked)) rfl,
    fun _ _ u x fresh follows => .quiet (exec_seqstate_ofFollows (m := .rick u x) fresh follows (fun _ linked => if_neg linked)) rfl,
    copy_part, copy_lines, copy_seqState, copy_program, copy_program_refused, result_selfTest, mismatchSelfTestDone_passes,
    mismatchSelfTestDone_early, stateCopyTimeout_restarts⟩

end Sys2Proof.Machine

namespace Sys2Proof.Machine
set_option Elab.async false

/-! The role shown, the starting role and the way to READY (04 R110, R114, 16 R444, R445, R453, 02 R47, R48). -/

/-- The role of a module that has taken one (04 R110). -/
theorem State.role_of_began {s : State} (began : s.twin.began = true) :
    s.role = if s.holdsToken then (if s.twin.link = .severed then .solo else .lead) else .shadow := by
  simp [State.role, began]

/-- Settles O2: the token decides between SHADOW and the others, and with it the link between SOLO and LEAD. -/
theorem roleShown : Obligations.RoleShown := by
  intro s began
  rw [State.role_of_began began]
  refine ⟨fun ⟨token, severed⟩ => ?_, fun ⟨token, linked⟩ => ?_, fun noToken => ?_⟩
  · rw [if_pos token, if_pos severed]
  · rw [if_pos token, if_neg]
    rcases linked with joined | catching
    · rw [joined]; decide
    · rw [catching]; decide
  · rw [if_neg (by simp [noToken])]

/-! The end of the twin search (16 R453, 04 R114). -/

/-- The wait of *Starting role* begins. -/
def State.startsWait (s : State) : State := { s with twin := { s.twin with waiting := true, waitAt := s.mod.uptime } }

theorem State.takeRole_noLink {s : State} (partnerHigh : s.twin.partnerLow = false) (high : s.twin.high1us = true) (down : s.twin.linkUp = false) :
    s.takeRole = s.startsWait := by
  simp [State.takeRole, State.startsWait, partnerHigh, high, down]

theorem State.takeRole_partnerLow {s : State} (seated : s.twin.partner = true) (low : s.twin.partnerLow = true) :
    s.takeRole = s.becomeShadow := by
  simp [State.takeRole, seated, low]

/-- A module that becomes SHADOW with the link down is isolated (04 R114). -/
theorem State.becomeShadow_noLink {s : State} (down : s.twin.linkUp = false) : s.becomeShadow = { s with
    twin := { s.twin with started := true, began := true, waiting := false, isolated := true, ownLow := false, keeper := false, engaged := false }
    cfg := { s.cfg with phase := s.cfg.phase.afterRole false } } := by
  simp [State.becomeShadow, down]

theorem exec_twinSearchEnd {s : State} (search : s.cfg.phase = .twinSearch) (unstarted : s.twin.started = false) (idle : s.twin.waiting = false)
    (seated : s.twin.seated = true) (ended : s.searchOver = true) : exec .twinSearchEnd s = .next s.takeRole :=
  if_neg (by simp [search, unstarted, idle, seated, ended])

theorem twinSearchEnd_waits (s : State) (search : s.cfg.phase = .twinSearch) (unstarted : s.twin.started = false) (idle : s.twin.waiting = false)
    (seated : s.twin.seated = true) (h : s.twin.partner = false ∨ (s.twin.partnerLow = false ∧ s.twin.high1us = true ∧ s.twin.linkUp = false ∧
      s.cfg.searchAt + s.cfg.cur.twinWait * 10000 ≤ s.mod.uptime)) :
    exec .twinSearchEnd s = .next { s with twin := { s.twin with waiting := true, waitAt := s.mod.uptime } } := by
  rcases h with alone | ⟨partnerHigh, high, down, waited⟩
  · rw [exec_twinSearchEnd search unstarted idle seated (by simp [State.searchOver, alone]), State.takeRole_alone s alone]
  · rw [exec_twinSearchEnd search unstarted idle seated (by simp [State.searchOver, waited]), State.takeRole_noLink partnerHigh high down]
    rfl

theorem twinSearchEnd_shadow (s : State) (search : s.cfg.phase = .twinSearch) (unstarted : s.twin.started = false) (idle : s.twin.waiting = false)
    (seated : s.twin.seated = true) (partner : s.twin.partner = true) (low : s.twin.partnerLow = true) (down : s.twin.linkUp = false) :
    exec .twinSearchEnd s = .next { s with
      twin := { s.twin with started := true, began := true, waiting := false, isolated := true, ownLow := false, keeper := false, engaged := false }
      cfg := { s.cfg with phase := .time } } := by
  rw [exec_twinSearchEnd search unstarted idle seated (by simp [State.searchOver, low]), State.takeRole_partnerLow partner low,
    State.becomeShadow_noLink down, search]
  rfl

theorem twinSearchEnd_searches (s : State) (partner : s.twin.partner = true) (high : s.twin.partnerLow = false) (down : s.twin.linkUp = false)
    (early : s.mod.uptime < s.cfg.searchAt + s.cfg.cur.twinWait * 10000) : exec .twinSearchEnd s = .next s :=
  if_pos (by simp [State.searchOver, partner, high, down, early])

/-! The time source has settled (16 R444, R445, 02 R47, R48). -/

theorem exec_timeSourceSettled {s : State} (time : s.cfg.phase = .time) (started : s.twin.started = true) (settled : s.timeSettled = true) :
    exec .timeSourceSettled s = .next (State.becomeReady (if (s.holdsToken || s.twin.link == .severed) && !s.cfg.fresh then s.warmResume
      else if s.xch.cur.state = .armed then s.xchAbort 0x14 else s)) :=
  if_neg (by simp [time, started, settled])

/-- A module that has nothing to resume, and no armed exchange, becomes READY as it is. -/
theorem exec_timeSourceSettled_fresh {s : State} (time : s.cfg.phase = .time) (started : s.twin.started = true) (settled : s.timeSettled = true)
    (copies : (s.holdsToken = false ∧ s.twin.link ≠ .severed) ∨ s.cfg.fresh = true) (unarmed : s.xch.cur.state ≠ .armed) :
    exec .timeSourceSettled s = .next s.becomeReady := by
  rw [exec_timeSourceSettled time started settled, if_neg, if_neg unarmed]
  rcases copies with ⟨noToken, linked⟩ | fresh
  · simp [noToken, linked]
  · simp [fresh]

theorem exec_timeSourceSettled_resumes {s : State} (time : s.cfg.phase = .time) (started : s.twin.started = true) (settled : s.timeSettled = true)
    (token : s.holdsToken = true) (old : s.cfg.fresh = false) : exec .timeSourceSettled s = .next s.warmResume.becomeReady := by
  rw [exec_timeSourceSettled time started settled, if_pos (by simp [token, old])]

theorem State.becomeReady_noToken {s : State} (noToken : s.holdsToken = false) : s.becomeReady =
    State.setEvent { s with mod := { s.mod with ready := true }, cfg := { s.cfg with phase := .ready, settled := true } } .cfg 13 := by
  have still : (State.setEvent { s with mod := { s.mod with ready := true }, cfg := { s.cfg with phase := .ready, settled := true } } .cfg 13).holdsToken = false := by
    simpa [State.holdsToken] using noToken
  exact if_neg (by simp [still])

theorem timeSourceSettled_shadow (s : State) (time : s.cfg.phase = .time) (started : s.twin.started = true) (settled : s.timeSettled = true)
    (noToken : s.holdsToken = false) (linked : s.twin.link ≠ .severed) (unarmed : s.xch.cur.state ≠ .armed) :
    RunsTo .timeSourceSettled s { s with mod := { s.mod with ready := true }, cfg := { s.cfg with phase := .ready, settled := true } } [(.cfg, 13)] := by
  refine .setEvent ((exec_timeSourceSettled_fresh time started settled (.inl ⟨noToken, linked⟩) unarmed).trans ?_) rfl (by decide)
  rw [State.becomeReady_noToken noToken]

theorem timeSourceSettled_fresh (s : State) (time : s.cfg.phase = .time) (started : s.twin.started = true) (settled : s.timeSettled = true)
    (token : s.holdsToken = true) (fresh : s.cfg.fresh = true) (still : s.twin.link ≠ .catchingUp) (unarmed : s.xch.cur.state ≠ .armed) :
    ∃ t, Changes .timeSourceSettled s t [.mod, .dio, .aio, .twin, .cfg] [(.cfg, 13)] ∧ t.raised .cfg 13 = true ∧ t.mod.ready = true ∧
      t.cfg.phase = .ready ∧ t.twin = { s.twin with engaged := true } := by
  obtain ⟨moved, told, ready, phase, twin, -, -⟩ := becomeReady_facts s token still
  exact ⟨_, moved.changes (exec_timeSourceSettled_fresh time started settled (.inr fresh) unarmed), told, ready, phase, twin⟩

theorem timeSourceSettled_resumes (s : State) (n : Nat) (run : Bool) (time : s.cfg.phase = .time) (started : s.twin.started = true)
    (settled : s.timeSettled = true) (token : s.holdsToken = true) (old : s.cfg.fresh = false) (still : s.twin.link ≠ .catchingUp)
    (one : s.configuredTasks = [n]) (idle : s.xch.cur.state = .idle) (wanted : (Bits.bit s.cfg.cur.cyc 0 && !s.xch.cur.inStop) = run)
    (allowed : run = true → s.runReason = 0) :
    ∃ t, Changes .timeSourceSettled s t [.mod, .dio, .aio, .cyc, .twin, .cfg] [(.cfg, 13), (.cyc, 4), (.cyc, 9), (.fab, 10)] ∧
      t.raised .cyc 4 = true ∧ (s.runReason = 3 → t.raised .fab 10 = true) ∧ t.mod.ready = true ∧ t.cfg.phase = .ready ∧ t.twin = { s.twin with engaged := true } ∧
      t.cyc.mode = (if run then .run else .stop) ∧ t.cyc.resumeCnt = Bits.inc s.cyc.resumeCnt ∧
      (t.task n).mode = (if run then .run else .stop) ∧
      (∀ r, (s.task n).record = some r → (t.task n).cycle = r.cycle ∧ (t.task n).bank = r.bank ∧
        (t.task n).image = (if r.bank then (s.task n).imgB else (s.task n).imgA)) ∧
      ((s.task n).record = none → (t.task n).cycle = (s.task n).floor + 0x10000#64 ∧ t.raised .cyc 9 = true) := by
  obtain ⟨resumed, again, unproved, mode, count, task, fromRecord, fromFloor⟩ := warmResume_facts s n run one idle wanted allowed
  obtain ⟨moved, -, ready, phase, twin, cyc, stands⟩ := becomeReady_facts s.warmResume
    (by simpa only [State.holdsToken, resumed.twin] using token) (by rw [resumed.twin]; exact still)
  have same : s.warmResume.becomeReady.task n = s.warmResume.task n := State.task_of_cyc cyc n
  rw [resumed.twin] at twin
  refine ⟨_, (resumed.stay.trans moved.stay).changes (exec_timeSourceSettled_resumes time started settled token old),
    stands _ _ again, fun why => stands _ _ (unproved why), ready, phase, twin, ?_⟩
  rw [cyc, same]
  exact ⟨mode, count, task, fromRecord, fun none => ⟨(fromFloor none).1, stands _ _ (fromFloor none).2⟩⟩

/-- Settles O15: the twin search ends in a wait or, against a partner that holds its line, in an isolated SHADOW; a module whose
time has settled becomes READY, after its warm resume where it acts for the station. -/
theorem roleAndReady : Obligations.RoleAndReady :=
  ⟨twinSearchEnd_waits, twinSearchEnd_shadow, twinSearchEnd_idle, twinSearchEnd_searches, timeSourceSettled_shadow, timeSourceSettled_fresh,
    timeSourceSettled_resumes⟩

end Sys2Proof.Machine

namespace Sys2Proof.Machine
set_option Elab.async false

/-! The lanes of the link and the heartbeat (04 R100-R105, R111, R126). -/

/-! Lanes (04 R101). -/

/-- A lane that has gone DOWN: it forgets its session, and no second copy comes on it any more. -/
def TwinBlk.dropLane (t : TwinBlk) (l next errors : Nat) : TwinBlk :=
  { t.setLane l { state := .down, next := next, errors := errors } with copies := t.copies.filter (fun e => e.1 == l) }

@[simp] theorem TwinBlk.lane_setLane (t : TwinBlk) (l : Nat) (x : OlviaLane) : (t.setLane l x).lane l = x := Tbl.get_set_self _ _ _ _

theorem State.laneDown_ofUp {s : State} {l : Nat} (error : Bool) (up : (s.twin.lane l).state = .up) : s.laneDown l error = State.setEvent
    { s with twin := s.twin.dropLane l s.nowNs (Bits.sat 14 (s.twin.lane l).errors (if error then 1 else 0)) } .twin 6 := by
  simp [State.laneDown, State.setEventIf, TwinBlk.dropLane, up]

/-- A lane that was not UP goes DOWN without a report, and keeps the time of its next attempt. -/
theorem State.laneDown_ofNotUp {s : State} {l : Nat} (notUp : (s.twin.lane l).state ≠ .up) (small : (s.twin.lane l).errors ≤ 16383) :
    s.laneDown l false = { s with twin := s.twin.dropLane l (s.twin.lane l).next (s.twin.lane l).errors } := by
  have kept : Bits.sat 14 (s.twin.lane l).errors 0 = (s.twin.lane l).errors := min_eq_left small
  simp [State.laneDown, State.setEventIf, TwinBlk.dropLane, notUp, kept]

theorem laneBlockLockLoss_drops (s : State) (l : Fin 2) (up : (s.twin.lane l).state = .up) :
    RunsTo (.laneBlockLockLoss l) s { s with twin := { s.twin.setLane l { state := .down, next := s.nowNs, errors := min ((s.twin.lane l).errors + 1) 16383 } with
      copies := s.twin.copies.filter (fun e => e.1 == l.val) } } [(.twin, 6)] := by
  have step : exec (.laneBlockLockLoss l) s = .next (s.laneDown l true) := if_neg (by simp [up])
  exact .setEvent (step.trans (congrArg _ (State.laneDown_ofUp true up))) rfl (by decide)

theorem laneTrainAttempt_trains (s : State) (l : Fin 2) (down : (s.twin.lane l).state = .down) (idle : (s.twin.lane l).training = false)
    (runs : s.lanesRun = true) (seated : s.twin.seated = true) (partner : s.twin.partner = true) (due : (s.twin.lane l).next ≤ s.nowNs) :
    RunsTo (.laneTrainAttempt l) s { s with twin := s.twin.setLane l { s.twin.lane l with training := true, next := s.nowNs + 10000000 } } [] :=
  .quiet (if_pos (by simp [down, idle, runs, seated, partner, due])) rfl

theorem laneTrainTimeout_drops (s : State) (l : Fin 2) (training : (s.twin.lane l).training = true) (notUp : (s.twin.lane l).state ≠ .up)
    (due : (s.twin.lane l).next ≤ s.nowNs + 8000000) (small : (s.twin.lane l).errors ≤ 16383) :
    RunsTo (.laneTrainTimeout l) s { s with twin := { s.twin.setLane l { state := .down, next := (s.twin.lane l).next, errors := (s.twin.lane l).errors } with
      copies := s.twin.copies.filter (fun e => e.1 == l.val) } } [] := by
  have step : exec (.laneTrainTimeout l) s = .next (s.laneDown l false) := if_pos (by simp [training, due])
  exact .quiet (step.trans (congrArg _ (State.laneDown_ofNotUp notUp small))) rfl

theorem laneTrained_shakes (s : State) (l : Fin 2) (training : (s.twin.lane l).training = true) (down : (s.twin.lane l).state = .down) :
    RunsTo (.laneTrained l) s { s with twin := s.twin.setLane l { s.twin.lane l with state := .handshake } } [] :=
  .quiet (if_pos (by simp [training, down])) rfl

/-! The handshake (04 R101, R102). -/

/-- A lane is UP under a new session key, and its frame counter starts anew. -/
def State.laneUp (s : State) (l : Fin 2) (p : PeerId) (key : BitVec 256) : State :=
  { s with twin := { s.twin.setLane l { s.twin.lane l with state := .up, training := false, fails := [], key := key } with
    peer := p, txCtr := Tbl.set 0#64 s.twin.txCtr l 0#64 } }

theorem exec_handshake {s : State} {l : Fin 2} {p : PeerId} {k : Nat} (ra rb : BitVec 128) (shaking : (s.twin.lane l).state = .handshake)
    (own : s.cfg.keyStore.pairKey = some k) (peer : p.pairKey = some k) : exec (.handshake l true p ra rb) s =
      .next (if s.twin.linkUp then s.laneUp l p (Config.sessionKey k ra rb) else (s.laneUp l p (Config.sessionKey k ra rb)).linkJoin) := by
  change execHandshake l true p ra rb s = _
  unfold execHandshake
  simp only [own, peer]
  rw [if_neg (by simp [shaking]), if_neg (by simp)]
  rfl

theorem exec_handshake_fails {s : State} {l : Fin 2} {ok : Bool} {p : PeerId} (ra rb : BitVec 128) (shaking : (s.twin.lane l).state = .handshake)
    (bad : ok = false ∨ p.pairKey = none ∨ s.cfg.keyStore.pairKey ≠ p.pairKey) : exec (.handshake l ok p ra rb) s = .next (s.laneDown l false) := by
  change execHandshake l ok p ra rb s = _
  unfold execHandshake
  cases own : s.cfg.keyStore.pairKey with
  | none => exact congrArg _ (if_neg (by simp [shaking]))
  | some k =>
    dsimp only
    rw [if_neg (by simp [shaking]), if_pos]
    rcases bad with notOk | none | other
    · simp [notOk]
    · simp [none]
    · rw [own] at other
      simp [other.symm]

/-- A module without a role does not join (04 R111). -/
theorem State.linkJoin_unstarted {s : State} (h : s.twin.started = false) : s.linkJoin = s := by simp [State.linkJoin, h]

theorem handshake_up (s : State) (l : Fin 2) (p : PeerId) (k : Nat) (ra rb : BitVec 128) (shaking : (s.twin.lane l).state = .handshake)
    (own : s.cfg.keyStore.pairKey = some k) (peer : p.pairKey = some k) (h : s.twin.linkUp = true ∨ s.twin.started = false) :
    RunsTo (.handshake l true p ra rb) s { s with twin := { s.twin.setLane l { s.twin.lane l with
      state := .up, training := false, fails := [], key := Config.sessionKey k ra rb } with peer := p, txCtr := Tbl.set 0#64 s.twin.txCtr l.val 0#64 } } [] := by
  refine .quiet ((exec_handshake ra rb shaking own peer).trans (congrArg _ ?_)) rfl
  by_cases up : s.twin.linkUp = true
  · rw [if_pos up]
    rfl
  · rw [if_neg up, State.linkJoin_unstarted (by exact h.resolve_left up)]
    rfl

theorem handshake_drops (s : State) (l : Fin 2) (ok : Bool) (p : PeerId) (ra rb : BitVec 128) (shaking : (s.twin.lane l).state = .handshake)
    (bad : ok = false ∨ p.pairKey = none ∨ s.cfg.keyStore.pairKey ≠ p.pairKey) (small : (s.twin.lane l).errors ≤ 16383) :
    RunsTo (.handshake l ok p ra rb) s { s with twin := { s.twin.setLane l { state := .down, next := (s.twin.lane l).next, errors := (s.twin.lane l).errors } with
      copies := s.twin.copies.filter (fun e => e.1 == l.val) } } [] :=
  .quiet ((exec_handshake_fails ra rb shaking bad).trans (congrArg _ (State.laneDown_ofNotUp (by simp [shaking]) small))) rfl

/-! Authentication failures (04 R101, R102). -/

/-- The failures of a lane within the last millisecond. -/
def State.recentFails (s : State) (l : Nat) : List Nat := (s.twin.lane l).fails.filter (fun t => decide (s.nowNs < t + 1000000))

/-- A lane with one more authentication failure. -/
def State.failNoted (s : State) (l : Nat) : State :=
  { s with twin := { s.twin.setLane l { s.twin.lane l with fails := s.recentFails l ++ [s.nowNs], errors := Bits.sat 14 (s.twin.lane l).errors 1 } with
    authCnt := Bits.inc s.twin.authCnt } }

theorem exec_olviaAuthFail (s : State) (l : Fin 2) : exec (.olviaAuthFail l) s =
    .next (if 8 ≤ (s.recentFails l ++ [s.nowNs]).length then ((s.failNoted l).setEvent .twin 7).laneDown l false else (s.failNoted l).setEvent .twin 7) := rfl

theorem olviaAuthFail_counts (s : State) (l : Fin 2) (few : ((s.twin.lane l).fails.filter (fun t => decide (s.nowNs < t + 1000000))).length < 7) :
    RunsTo (.olviaAuthFail l) s { s with twin := { s.twin.setLane l { s.twin.lane l with
      fails := (s.twin.lane l).fails.filter (fun t => decide (s.nowNs < t + 1000000)) ++ [s.nowNs], errors := min ((s.twin.lane l).errors + 1) 16383 } with
      authCnt := Bits.inc s.twin.authCnt } } [(.twin, 7)] := by
  change (s.recentFails l).length < 7 at few
  refine .setEvent (u := s.failNoted l) ((exec_olviaAuthFail s l).trans (congrArg _ (if_neg ?_))) rfl (by decide)
  rw [List.length_append, List.length_singleton]
  omega

theorem TwinBlk.state_dropLane (t : TwinBlk) (l next errors : Nat) : ((t.dropLane l next errors).lane l).state = .down :=
  congrArg OlviaLane.state (t.lane_setLane l _)

theorem State.state_failNoted (s : State) (l : Nat) : ((s.failNoted l).twin.lane l).state = (s.twin.lane l).state := by
  change ((s.twin.setLane l _).lane l).state = _
  rw [TwinBlk.lane_setLane]

theorem olviaAuthFail_drops (s : State) (l : Fin 2) (many : 7 ≤ ((s.twin.lane l).fails.filter (fun t => decide (s.nowNs < t + 1000000))).length)
    (up : (s.twin.lane l).state = .up) :
    ∃ t, Changes (.olviaAuthFail l) s t [.twin] [(.twin, 6), (.twin, 7)] ∧ (t.twin.lane l).state = .down ∧ t.raised .twin 6 = true ∧ t.raised .twin 7 = true := by
  change 7 ≤ (s.recentFails l).length at many
  have step := exec_olviaAuthFail s l
  rw [if_pos (by rw [List.length_append, List.length_singleton]; omega)] at step
  have noted : Moves s ((s.failNoted l).setEvent .twin 7) [.twin] [(.twin, 6), (.twin, 7)] :=
    Moves.setEvent (by unfold State.failNoted; exact .set) .twin 7 (by decide) (by simp)
  have dropped := ((s.failNoted l).setEvent .twin 7).moves_laneDown l false
  have stillUp : (((s.failNoted l).setEvent .twin 7).twin.lane l).state = .up := by
    rw [State.twin_setEvent, State.state_failNoted, up]
  refine ⟨_, (noted.trans dropped.stay).changes step, ?_, ?_, dropped.raised (State.raised_setEvent _ _ _ (by decide))⟩
  · rw [State.laneDown_ofUp false stillUp, State.twin_setEvent, TwinBlk.state_dropLane]
  · rw [State.laneDown_ofUp false stillUp]
    exact State.raised_setEvent _ _ _ (by decide)

/-! Frames on the lanes (04 R100, R102, R103). -/

/-- What a table reads after a change of each key of a list without repetitions. -/
theorem get_foldl_mod {α : Type} [DecidableEq α] (d : α) (g : α → α) {l : List Nat} (once : l.Nodup) (t : Tbl α) (n : Nat) :
    Tbl.get d (l.foldl (fun c k => Tbl.mod d c k g) t) n = if n ∈ l then g (Tbl.get d t n) else Tbl.get d t n := by
  induction l generalizing t with
  | nil => simp
  | cons k l ih =>
    obtain ⟨new, once⟩ := List.nodup_cons.mp once
    rw [List.foldl_cons, ih once, Tbl.mod, Tbl.get_set]
    by_cases here : n = k
    · subst here; simp [new]
    · simp [here]

theorem TwinBlk.mem_upLanes (t : TwinBlk) (l : Fin 2) : l.val ∈ t.upLanes ↔ (t.lane l).state = .up := by
  have known : l.val ∈ [0, 1] := by simp; omega
  rw [TwinBlk.upLanes, List.mem_filter, beq_iff_eq]
  exact and_iff_right known

theorem TwinBlk.upLanes_nodup (t : TwinBlk) : t.upLanes.Nodup := List.Nodup.filter _ (by decide)

theorem TwinBlk.txCtr_send (t : TwinBlk) (o : OlviaOut) (l : Fin 2) :
    Tbl.get 0#64 (t.send o).txCtr l.val = Tbl.get 0#64 t.txCtr l.val + (if (t.lane l).state = .up then 1#64 else 0#64) := by
  rw [TwinBlk.send, get_foldl_mod _ _ t.upLanes_nodup]
  by_cases up : (t.lane l).state = .up
  · rw [if_pos ((t.mem_upLanes l).mpr up), if_pos up]
  · rw [if_neg (mt (t.mem_upLanes l).mp up), if_neg up, BitVec.add_zero]

theorem heartbeatSend_sends (s : State) (alive : s.mod.failed = false) (sound : s.twin.regions = []) (up : s.twin.linkUp = true) :
    RunsTo .heartbeatSend s { s with twin := s.twin.send (.heartbeat s.heartbeatNow) } [] := by
  have step : exec .heartbeatSend s = .next (s.olvia (.heartbeat s.heartbeatNow)) := if_neg (by simp [alive, sound])
  exact .quiet (step.trans (congrArg _ (s.olvia_up _ up))) rfl

theorem TwinBlk.awaited_of_fresh {t : TwinBlk} {f : OlviaHdr} (fresh : t.fresh f = true) : t.copies.contains (1 - f.lane.val, f.seq) = false := by
  simp only [TwinBlk.fresh, Bool.and_eq_true, Bool.not_eq_true'] at fresh
  exact fresh.2

theorem TwinBlk.noteCopy_first {t : TwinBlk} {f : OlviaHdr} (upA : (t.lane 0).state = .up) (upB : (t.lane 1).state = .up) (fresh : t.fresh f = true) :
    t.noteCopy f = { t with copies := t.copies ++ [(f.lane.val, f.seq)] } := by
  have both : (t.lane f.lane.val).state = .up ∧ (t.lane (1 - f.lane.val)).state = .up := by
    rcases (show f.lane.val = 0 ∨ f.lane.val = 1 by omega) with h | h <;> rw [h] <;> exact ⟨by assumption, by assumption⟩
  rw [TwinBlk.noteCopy, if_neg (by rw [TwinBlk.awaited_of_fresh fresh]; decide), if_pos (by simp [both])]

/-- The second copy of a frame does not act (04 R100). -/
theorem TwinBlk.second_not_fresh (t : TwinBlk) (f g : OlviaHdr) (upA : (t.lane 0).state = .up) (upB : (t.lane 1).state = .up)
    (fresh : t.fresh f = true) (same : g.seq = f.seq) (other : g.lane ≠ f.lane) : (t.noteCopy f).fresh g = false := by
  have crossed : 1 - g.lane.val = f.lane.val := by
    have := Fin.val_ne_of_ne other
    omega
  simp [TwinBlk.noteCopy_first upA upB fresh, TwinBlk.fresh, crossed, same]

/-! The heartbeat (04 R105). -/

theorem State.holdsToken_of_leads {s : State} (h : s.leads = true) : s.holdsToken = true := (Bool.and_eq_true_iff.mp h).1

section
variable {s : State} {f : OlviaHdr}
theorem State.onFrame_fresh (fresh : s.twin.fresh f = true) (g : State → State) : s.onFrame f g = g (s.noted f) := if_pos fresh
theorem State.onFrame_stale (stale : s.twin.fresh f = false) (g : State → State) : s.onFrame f g = s.noted f := if_neg (by simp [stale])

theorem State.peer_noted (s : State) (f : OlviaHdr) : (s.noted f).twin.peer = s.twin.peer := by obtain ⟨c, h⟩ := s.twin_noted f; rw [h]

theorem exec_heartbeat (h : Heartbeat) (alive : s.mod.failed = false) :
    exec (.heartbeat f h) s = .next (s.onFrame f (fun s => s.takeHeartbeat h)) := if_neg (by simp [alive])
end

/-- What a module keeps of a HEARTBEAT, with its tick offset. -/
def State.hears (s : State) (h : Heartbeat) (off : Int) : State :=
  { s with twin := { s.twin with heard := some h, lost := false, peer := { s.twin.peer with safetyId := h.safetyId }, tickOff := off }
           xch := { s.xch with ready := h.precarry } }

/-- The partner has shown JOINED (04 R111). -/
def State.shownJoined (s : State) : State := { s with twin := { s.twin with shown := true } }

/-- Both modules show JOINED: that the partner has shown it is all that changes (04 R111). -/
theorem State.linkCompare_joined {s : State} {h : Heartbeat} (was : Nat) (joined : s.twin.link = .joined) (both : h.link = 2) :
    s.linkCompare h was = s.shownJoined := by
  simp [State.linkCompare, State.shownJoined, joined, both]

/-- What the SHADOW of a pair takes from a HEARTBEAT: the tick and the angle clocks (04 R131, 06 R180). -/
def State.timeHeard (s : State) (h : Heartbeat) : State :=
  if s.follows then ((s.takeTick h.tick).acMirror h.clocks h.locked).tickCheck else s

/-- The eligibility of the module at this HEARTBEAT is kept (04 R113). -/
def State.eligNoted (s : State) : State := { s with twin := { s.twin with eligHeard := s.eligible } }

theorem State.moves_shownElig (s : State) : Moves s s.eligNoted.shownJoined [.twin] [] := by
  unfold State.shownJoined State.eligNoted
  exact .set

theorem State.takeHeartbeat_eq (s : State) (h : Heartbeat) : ∃ was, s.takeHeartbeat h =
    ((((s.hears h (if s.follows then -h.tickOff else 0)).timeHeard h).axCompare h).eligNoted).linkCompare h was := ⟨_, rfl⟩

theorem State.axCompare_lead {s : State} (h : Heartbeat) (token : s.holdsToken = true) : s.axCompare h = s :=
  if_neg (by simp [State.follows, token])

theorem State.takeHeartbeat_lead {s : State} {h : Heartbeat} (token : s.holdsToken = true) (joined : s.twin.link = .joined) (both : h.link = 2) :
    s.takeHeartbeat h = (s.hears h 0).eligNoted.shownJoined := by
  obtain ⟨was, step⟩ := s.takeHeartbeat_eq h
  have leads : s.follows = false := by simp [State.follows, token]
  have heard : (s.hears h 0).timeHeard h = s.hears h 0 := if_neg (by rw [show (s.hears h 0).follows = false from leads]; decide)
  rw [leads, if_neg Bool.false_ne_true, heard, State.axCompare_lead h (by exact token), State.linkCompare_joined was (by exact joined) both] at step
  exact step

theorem heartbeat_lead (s : State) (f : OlviaHdr) (h : Heartbeat) (fresh : s.twin.fresh f = true) (alive : s.mod.failed = false)
    (leads : s.leads = true) (joined : s.twin.link = .joined) (both : h.link = 2) :
    ∃ t, Changes (.heartbeat f h) s t [.twin, .xch] [] ∧ t.twin = { s.twin.noteCopy f with
        heard := some h, lost := false, peer := { s.twin.peer with safetyId := h.safetyId }, tickOff := 0, shown := true, eligHeard := t.twin.eligHeard } ∧
      t.xch = { s.xch with ready := h.precarry } := by
  have step := exec_heartbeat (f := f) h alive
  rw [State.onFrame_fresh fresh, State.takeHeartbeat_lead (by simpa using State.holdsToken_of_leads leads) (by simpa using joined) both] at step
  have heard : Moves (s.noted f) ((s.noted f).hears h 0) [.twin, .xch] [] := by unfold State.hears; exact .set
  refine ⟨_, ((s.moves_noted f []).stay.trans (heard.trans (State.moves_shownElig _).stay)).changes step, ?_, rfl⟩
  rw [← State.peer_noted s f]
  rfl

/-! A SHADOW outside FOLLOW (06 R164, R171, 11 R345). -/

/-- Outside FOLLOW a HEARTBEAT ends the watch over the tick offset, and moves neither the tick nor the angle clocks. -/
theorem State.timeHeard_free {s : State} (h : Heartbeat) (follows : s.follows = true) (free : s.time.disc ≠ .follow) :
    s.timeHeard h = { s with time := { s.time with tickBad := none } } := by
  have tick : s.takeTick h.tick = s := if_neg (by simp [free])
  rw [State.timeHeard, if_pos follows, tick, State.acMirror, if_pos free, State.tickCheck, if_pos (by simp [free])]

theorem State.axCompare_differs {s : State} {h : Heartbeat} (noToken : s.holdsToken = false) (joined : s.twin.link = .joined)
    (same : s.twin.axDiff = false) (differs : h.axCheck ≠ s.ax.heartbeatCheck) :
    s.axCompare h = State.setEvent { s with twin := { s.twin with axDiff := true } } .twin 13 := by
  have apart : (h.axCheck != s.ax.heartbeatCheck) = true := bne_iff_ne.mpr differs
  simp [State.axCompare, State.setEventIf, noToken, joined, same, apart]

/-- The watch over the tick offset is over, and the axes of the modules are known to differ. -/
def State.axesDiffer (s : State) : State := { s with time := { s.time with tickBad := none }, twin := { s.twin with axDiff := true } }

theorem State.takeHeartbeat_differs {s : State} {h : Heartbeat} (follows : s.follows = true) (joined : s.twin.link = .joined) (both : h.link = 2)
    (free : s.time.disc ≠ .follow) (same : s.twin.axDiff = false) (differs : h.axCheck ≠ s.ax.heartbeatCheck) :
    s.takeHeartbeat h = ((s.hears h (-h.tickOff)).axesDiffer.setEvent .twin 13).eligNoted.shownJoined := by
  obtain ⟨was, step⟩ := s.takeHeartbeat_eq h
  rw [if_pos follows, State.timeHeard_free h (by exact follows) (by exact free),
    State.axCompare_differs (by exact State.holdsToken_of_follows follows) (by exact joined) (by exact same) (by exact differs)] at step
  exact step.trans (State.linkCompare_joined was (by rw [State.eligNoted, State.twin_setEvent]; exact joined) both)

theorem heartbeat_axesDiffer (s : State) (f : OlviaHdr) (h : Heartbeat) (fresh : s.twin.fresh f = true) (alive : s.mod.failed = false)
    (follows : s.follows = true) (joined : s.twin.link = .joined) (both : h.link = 2) (free : s.time.disc ≠ .follow) (same : s.twin.axDiff = false)
    (differs : h.axCheck ≠ s.ax.heartbeatCheck) :
    ∃ t, Changes (.heartbeat f h) s t [.twin, .xch, .time] [(.twin, 13)] ∧ t.raised .twin 13 = true ∧ t.twin = { s.twin.noteCopy f with
        heard := some h, lost := false, peer := { s.twin.peer with safetyId := h.safetyId }, tickOff := -h.tickOff, axDiff := true, shown := true
        eligHeard := t.twin.eligHeard } ∧
      t.xch = { s.xch with ready := h.precarry } ∧ t.time = { s.time with tickBad := none } := by
  have notedSame : (s.noted f).twin.axDiff = false := by obtain ⟨c, h⟩ := s.twin_noted f; rw [h]; exact same
  have step := exec_heartbeat (f := f) h alive
  rw [State.onFrame_fresh fresh, State.takeHeartbeat_differs (by simpa using follows) (by simpa using joined) both (by exact free) notedSame
    (by exact differs)] at step
  have heard : Moves s ((s.noted f).hears h (-h.tickOff)).axesDiffer [.twin, .xch, .time] [(.twin, 13)] :=
    (s.moves_noted f []).stay.trans (by unfold State.axesDiffer State.hears; exact .set)
  refine ⟨_, ((heard.setEvent .twin 13 (by decide) (by simp)).trans (State.moves_shownElig _).stay).changes step, (State.moves_shownElig _).raised (State.raised_setEvent _ _ _ (by decide)),
    ?_, ?_, ?_⟩
  · rw [← State.peer_noted s f, State.shownJoined, State.eligNoted, State.twin_setEvent]
    rfl
  · rw [(State.moves_shownElig _).xch, State.xch_setEvent]
    rfl
  · rw [(State.moves_shownElig _).time, State.time_setEvent]
    rfl

theorem heartbeat_stale (s : State) (f : OlviaHdr) (h : Heartbeat) (alive : s.mod.failed = false) (stale : s.twin.fresh f = false) :
    RunsTo (.heartbeat f h) s { s with twin := s.twin.noteCopy f } [] :=
  .quiet ((exec_heartbeat h alive).trans (congrArg _ (State.onFrame_stale stale _))) rfl

/-- Settles O25: a lane trains, shakes hands, comes up and drops; a frame goes out on each lane that is UP, and its second copy does
not act; a HEARTBEAT between JOINED modules is noted, and a SHADOW compares its axes with it. -/
theorem twinLanes : Obligations.TwinLanes :=
  ⟨laneBlockLockLoss_drops, laneTrainAttempt_trains, laneTrainTimeout_drops, laneTrained_shakes, handshake_up, handshake_drops,
    olviaAuthFail_counts, olviaAuthFail_drops, heartbeatSend_sends, fun t o l => ⟨rfl, rfl, t.txCtr_send o l⟩, TwinBlk.second_not_fresh,
    heartbeat_stale, heartbeat_lead, heartbeat_axesDiffer⟩

end Sys2Proof.Machine

namespace Sys2Proof.Machine
set_option Elab.async false

/-! Loss of the partner, promotion, yield, handover and the role lines (04 R106-R114, R127-R140). -/

/-! Loss of the partner (04 R105, R111-R113, R134, R137). -/

/-- A yield that the partner has not completed is taken back when the partner is lost (04 R137). -/
def State.takesBack (s : State) : Bool := s.twin.yielding.isSome && !s.twin.partnerLow

/-- The link is SEVERED, and what belonged to the pair is over. -/
def State.lossNoted (s : State) : State := { s with twin := { s.twin with
  link := .severed, lost := true, heard := none, phase := 0, testing := false, suspect := false, yielding := none
  missCnt := Bits.inc s.twin.missCnt, ownLow := s.twin.ownLow || s.takesBack, keeper := s.twin.keeper || s.takesBack } }

/-- The loss is recorded, and FOLLOW ends. -/
def State.lossTold (s : State) : State := (s.lossNoted.twinRecord 0 0xFFFFFFFF).endFollow

theorem exec_partnerLost {s : State} (unlost : s.twin.lost = false) (linked : s.twin.heard.isSome = true ∨ s.twin.link ≠ .severed) :
    exec .partnerLost s = .next (if (s.twin.started && !s.holdsToken) && !s.takesBack then s.lossTold.shadowAlone s.twin.eligHeard
      else s.lossTold.pnlAlone) := by
  have known : ¬ (s.twin.lost || (s.twin.heard.isNone && s.twin.link == .severed)) = true := by
    rcases linked with heard | linked
    · obtain ⟨h, heard⟩ := Option.isSome_iff_exists.mp heard
      simp [unlost, heard]
    · simp [unlost, linked]
  change execPartnerLost s = _
  unfold execPartnerLost
  rw [if_neg known]
  rfl

theorem State.nowNs_endFollow (s : State) : s.endFollow.nowNs = s.nowNs := by
  have kept : ∀ (u : State) (d : Discipline) (b : Nat), (u.discTo d b).nowNs = u.nowNs := by
    intro u d b
    unfold State.discTo State.nowNs
    dsimp only
    rw [State.time_setEvent]
    split <;> rfl
  unfold State.endFollow
  split
  · rfl
  · dsimp only
    split <;> exact kept _ _ _

theorem State.lossTold_facts (s : State) : Moves s s.lossTold [.twin, .time] [(.twin, 0), (.time, 0), (.time, 1)] ∧
    s.lossTold.raised .twin 0 = true ∧ s.lossTold.twin = s.lossNoted.twin ∧ s.lossTold.nowNs = s.nowNs := by
  have noted : Moves s s.lossNoted [.twin] [] := by unfold State.lossNoted; exact .set
  have told := s.lossNoted.moves_twinRecord 0 0xFFFFFFFF (by decide)
  have ended := (s.lossNoted.twinRecord 0 0xFFFFFFFF).moves_endFollow
  refine ⟨noted.stay.trans (told.stay.trans ended.stay), ended.raised (State.raised_recordEvent _ _ _ _ _ (by decide)), ?_, ?_⟩
  · exact ended.twin.trans told.twin
  · rw [State.lossTold, State.nowNs_endFollow, State.nowNs, told.time, noted.time]
    rfl

theorem State.twin_lossNoted {s : State} (steady : s.twin.yielding = none) : s.lossNoted.twin = { s.twin with
    link := .severed, lost := true, heard := none, phase := 0, testing := false, suspect := false, missCnt := Bits.inc s.twin.missCnt } := by
  simp [State.lossNoted, State.takesBack, steady]

theorem State.pnl_pnlAlone (s : State) : s.pnlAlone.pnl = { s.pnl with
    waiting := s.pnl.waiting.map (fun r => { r with acked := true }), done := []
    slots := Tbl.map {} (fun x => { x with req := x.req.map (fun r => { r with acked := true }) }) s.pnl.slots } := by
  unfold State.pnlAlone
  exact (Moves.foldl (l := [.done]) (m := []) _ (fun s r => (Moves.refl s _ _).finish _ _ _ (by simp)) _ _).pnl

theorem partnerLost_again (s : State) (h : s.twin.lost = true ∨ (s.twin.heard = none ∧ s.twin.link = .severed)) : RunsTo .partnerLost s s [] := by
  refine .quiet (if_pos ?_) rfl
  rcases h with lost | ⟨unheard, severed⟩
  · simp [lost]
  · simp [unheard, severed]

theorem partnerLost_solo (s : State) (unlost : s.twin.lost = false) (linked : s.twin.heard.isSome = true ∨ s.twin.link ≠ .severed)
    (token : s.holdsToken = true) (steady : s.twin.yielding = none) :
    ∃ t, Changes .partnerLost s t [.twin, .time, .pnl, .done] [(.twin, 0), (.time, 0), (.time, 1)] ∧ t.raised .twin 0 = true ∧
      t.twin = { s.twin with link := .severed, lost := true, heard := none, phase := 0, testing := false, suspect := false
                             missCnt := Bits.inc s.twin.missCnt } ∧
      t.pnl.done = [] ∧ t.pnl.waiting = s.pnl.waiting.map (fun r => { r with acked := true }) := by
  obtain ⟨lost, told, twin, -⟩ := s.lossTold_facts
  have panel := s.lossTold.moves_pnlAlone
  have step := exec_partnerLost unlost linked
  rw [if_neg (by simp [token])] at step
  refine ⟨_, (lost.stay.trans panel.stay).changes step, panel.raised told, ?_, ?_⟩
  · rw [panel.twin, twin, State.twin_lossNoted steady]
  · rw [State.pnl_pnlAlone, lost.pnl]
    exact ⟨rfl, rfl⟩

theorem partnerLost_takesBack (s : State) (unlost : s.twin.lost = false) (linked : s.twin.heard.isSome = true ∨ s.twin.link ≠ .severed)
    (yields : s.twin.yielding.isSome = true) (high : s.twin.partnerLow = false) :
    ∃ t, Changes .partnerLost s t [.twin, .time, .pnl, .done] [(.twin, 0), (.time, 0), (.time, 1)] ∧ t.raised .twin 0 = true ∧
      t.twin.ownLow = true ∧ t.twin.keeper = true ∧ t.twin.yielding = none := by
  have back : s.takesBack = true := by simp [State.takesBack, yields, high]
  obtain ⟨lost, told, twin, -⟩ := s.lossTold_facts
  have panel := s.lossTold.moves_pnlAlone
  have step := exec_partnerLost unlost linked
  rw [if_neg (by simp [back])] at step
  refine ⟨_, (lost.stay.trans panel.stay).changes step, panel.raised told, ?_⟩
  rw [panel.twin, twin, State.lossNoted, back]
  exact ⟨Bool.or_true _, Bool.or_true _, rfl⟩

/-! A SHADOW that has lost its LEAD (04 R112, R113, R134). -/

/-- A SHADOW that was not yielding decides by itself; it hands on its eligibility before the loss. -/
theorem exec_partnerLost_shadow {s : State} (unlost : s.twin.lost = false) (linked : s.twin.heard.isSome = true ∨ s.twin.link ≠ .severed)
    (started : s.twin.started = true) (noToken : s.holdsToken = false) (steady : s.twin.yielding = none) :
    exec .partnerLost s = .next (s.lossTold.shadowAlone s.twin.eligHeard) := by
  rw [exec_partnerLost unlost linked, if_pos (by simp [started, noToken, State.takesBack, steady])]

theorem State.shadowAlone_highLine {s : State} (elig : Bool) (low : s.twin.partnerLow = false) (high : s.twin.high1us = true) : s.shadowAlone elig =
    if elig then s.promote 1 0 else State.setEvent { s with twin := { s.twin with blocked := true } } .twin 14 := by
  simp [State.shadowAlone, low, high]

/-- The partner still holds its line: a split brain, whose time counts from the first such loss. -/
def State.splitNoted (s : State) : State := { s with twin := { s.twin with
  isolated := true, split := if s.twin.isolated then s.twin.split else some (s.nowNs, 0), splitCnt := Bits.inc s.twin.splitCnt } }

theorem State.shadowAlone_lowLine {s : State} (elig : Bool) (partner : s.twin.partner = true) (low : s.twin.partnerLow = true) :
    s.shadowAlone elig = s.splitNoted.twinRecord 3 0xFFFFFFFF := by
  simp [State.shadowAlone, State.splitNoted, partner, low]

theorem State.holdsToken_ofHigh {s : State} (high : s.twin.ownLow = false) : s.holdsToken = false := by simp [State.holdsToken, high]

theorem partnerLost_promotes (s : State) (unlost : s.twin.lost = false) (linked : s.twin.heard.isSome = true ∨ s.twin.link ≠ .severed)
    (started : s.twin.started = true) (own : s.twin.ownLow = false) (elig : s.twin.eligHeard = true) (steady : s.twin.yielding = none)
    (low : s.twin.partnerLow = false) (high : s.twin.high1us = true) :
    ∃ t, Changes .partnerLost s t [.twin, .xch, .cfg, .cyc, .time, .ax, .pnl, .net, .safe]
        [(.twin, 0), (.twin, 1), (.safe, 5), (.time, 0), (.time, 1), (.ax, 0), (.ax, 1), (.ax, 13), (.pnl, 7), (.net, 4), (.net, 7), (.net, 9)] ∧
      t.raised .twin 0 = true ∧ t.raised .twin 1 = true ∧ t.twin.quiet = ({ s.twin with
        link := .severed, lost := true, heard := none, phase := 0, testing := false, suspect := false, missCnt := Bits.inc s.twin.missCnt
        ownLow := true, keeper := true, takeCnt := Bits.inc s.twin.takeCnt, openElig := none, lastTake := lastTakeWord 1 0 0 s.partnerUnit } : TwinBlk).quiet := by
  obtain ⟨lost, told, twin, -⟩ := s.lossTold_facts
  rw [State.twin_lossNoted steady] at twin
  have promoted := s.lossTold.moves_promote 1 0
  have step := exec_partnerLost_shadow unlost linked started (State.holdsToken_ofHigh own) steady
  rw [State.shadowAlone_highLine _ (by rw [twin]; exact low) (by rw [twin]; exact high), if_pos elig] at step
  refine ⟨_, (lost.stay.trans promoted.stay).changes step, promoted.raised told, State.raised_promote _ _ _, ?_⟩
  rw [State.twin_promote, State.partnerUnit, twin]
  rfl

theorem partnerLost_blocked (s : State) (unlost : s.twin.lost = false) (linked : s.twin.heard.isSome = true ∨ s.twin.link ≠ .severed)
    (started : s.twin.started = true) (own : s.twin.ownLow = false) (unfit : s.twin.eligHeard = false) (steady : s.twin.yielding = none)
    (low : s.twin.partnerLow = false) (high : s.twin.high1us = true) :
    ∃ t, Changes .partnerLost s t [.twin, .time] [(.twin, 0), (.twin, 14), (.time, 0), (.time, 1)] ∧ t.raised .twin 14 = true ∧ t.twin.blocked = true ∧
      t.twin.ownLow = s.twin.ownLow := by
  obtain ⟨lost, -, twin, -⟩ := s.lossTold_facts
  rw [State.twin_lossNoted steady] at twin
  have step := exec_partnerLost_shadow unlost linked started (State.holdsToken_ofHigh own) steady
  rw [State.shadowAlone_highLine _ (by rw [twin]; exact low) (by rw [twin]; exact high), if_neg (by simp [unfit])] at step
  refine ⟨_, (lost.stay.trans (Moves.setEvent .set .twin 14 (by decide) (by simp))).changes step, State.raised_setEvent _ _ _ (by decide), ?_⟩
  rw [State.twin_setEvent, twin]
  exact ⟨rfl, rfl⟩

theorem partnerLost_splits (s : State) (unlost : s.twin.lost = false) (linked : s.twin.heard.isSome = true ∨ s.twin.link ≠ .severed)
    (started : s.twin.started = true) (steady : s.twin.yielding = none) (partner : s.twin.partner = true) (low : s.twin.partnerLow = true) :
    ∃ t, Changes .partnerLost s t [.twin, .time] [(.twin, 0), (.twin, 3), (.time, 0), (.time, 1)] ∧ t.raised .twin 3 = true ∧ t.twin.isolated = true ∧
      t.twin.split = (if s.twin.isolated then s.twin.split else some (s.nowNs, 0)) ∧ t.twin.splitCnt = Bits.inc s.twin.splitCnt ∧
      t.twin.ownLow = s.twin.ownLow ∧ t.twin.engaged = s.twin.engaged := by
  obtain ⟨lost, -, twin, now⟩ := s.lossTold_facts
  rw [State.twin_lossNoted steady] at twin
  have step := exec_partnerLost_shadow unlost linked started (by simp [State.holdsToken, low]) steady
  rw [State.shadowAlone_lowLine _ (by rw [twin]; exact partner) (by rw [twin]; exact low)] at step
  have noted : Moves s.lossTold s.lossTold.splitNoted [.twin] [] := by unfold State.splitNoted; exact .set
  have recorded := s.lossTold.splitNoted.moves_twinRecord 3 0xFFFFFFFF (by decide)
  refine ⟨_, (lost.stay.trans (noted.stay.trans recorded.stay)).changes step, State.raised_recordEvent _ _ _ _ _ (by decide), ?_⟩
  rw [recorded.twin, State.splitNoted, now, twin]
  exact ⟨rfl, rfl, rfl, rfl, rfl⟩

/-! The role lines (04 R106-R109, R127, R130). -/

theorem partnerRoleLineHigh_noted (s : State) (closed : s.twin.openElig = none) (paired : s.twin.isolated = false) :
    RunsTo .partnerRoleLineHigh s { s with twin := { s.twin with partnerLow := false, high1us := true } } [] := by
  refine .quiet (congrArg Host.Outcome.next ?_) rfl
  simp [State.lineHigh, closed, paired]

/-- The partner's role line is low. -/
def State.lineLow (s : State) : State := { s with twin := { s.twin with partnerLow := true, high1us := false } }

theorem exec_partnerRoleLineLow_steady {s : State} (steady : s.twin.yielding = none) : exec .partnerRoleLineLow s = .next s.lineLow := by
  change execPartnerRoleLineLow s = _
  unfold execPartnerRoleLineLow
  dsimp only
  split
  · next y yields => exact absurd (yields.symm.trans steady) (by simp)
  · rfl

theorem exec_partnerRoleLineLow_yields {s : State} {y : Yielding} (yields : s.twin.yielding = some y) :
    exec .partnerRoleLineLow s = .next (s.lineLow.yielded y) := by
  change execPartnerRoleLineLow s = _
  unfold execPartnerRoleLineLow
  dsimp only
  split
  · next z known => rw [Option.some.inj (yields.symm.trans known), State.lineLow]
  · next unknown => exact absurd (yields.symm.trans unknown) (by simp)

/-- A yield to the region `r` is complete: the module follows its partner's time. -/
def State.yieldNoted (s : State) (r : Region) : State := { s with
  twin := { s.twin with yielding := none, lastTake := lastTakeWord 2 r.code 0 s.unitNo }
  cyc := { s.cyc with buf := [] }, time := s.time.follow, cfg := { s.cfg with asking := none } }

/-- With no command waiting to be forwarded a yield loses none. -/
theorem State.yielded_noCommands {s : State} (r : Region) (empty : s.cyc.buf = []) (silent : s.cfg.asking = none) :
    s.yielded { region := some r, origin := .self } =
      (((s.yieldNoted r).twinRecord 1 0xFFFFFFFF).brakeAbortAll.pnlYielded).finish .self stOk 0 := by
  unfold State.yielded
  simp only [empty, silent, List.append_nil, List.foldl_nil]
  rfl

theorem partnerRoleLineLow_yields (s : State) (r : Region) (yields : s.twin.yielding = some { region := some r, origin := .self })
    (empty : s.cyc.buf = []) (silent : s.cfg.asking = none) :
    ∃ t, Changes .partnerRoleLineLow s t [.twin, .time, .pnl, .cyc, .cfg, .safe, .done] [(.twin, 1), (.safe, 5), (.pnl, 2)] ∧ t.raised .twin 1 = true ∧ t.time = s.time.follow ∧
      t.twin = { s.twin with partnerLow := true, high1us := false, yielding := none, lastTake := lastTakeWord 2 r.code 0 s.unitNo } := by
  have step := exec_partnerRoleLineLow_yields yields
  rw [State.yielded_noCommands r (by exact empty) (by exact silent)] at step
  have noted : Moves s (s.lineLow.yieldNoted r) [.twin, .time, .cyc, .cfg] [] := by unfold State.yieldNoted State.lineLow; exact .set
  have recorded := (s.lineLow.yieldNoted r).moves_twinRecord 1 0xFFFFFFFF (by decide)
  have aborted := ((s.lineLow.yieldNoted r).twinRecord 1 0xFFFFFFFF).moves_brakeAbortAll
  have yielded := ((s.lineLow.yieldNoted r).twinRecord 1 0xFFFFFFFF).brakeAbortAll.moves_pnlYielded
  refine ⟨_, ((noted.stay.trans (recorded.stay.trans (aborted.stay.trans yielded.stay))).finish .self stOk 0 (by simp)).changes step, ?_, ?_, ?_⟩
  · exact yielded.raised (aborted.raised (State.raised_recordEvent _ _ _ _ _ (by decide)))
  · rw [State.time_finish, yielded.time, aborted.time, recorded.time]
    rfl
  · rw [State.twin_finish, yielded.twin, aborted.twin, recorded.twin]
    rfl

/-! Role conflict and split brain (04 R107, R134). -/

theorem roleConflict_slotA (s : State) (own : s.twin.ownLow = true) (partner : s.twin.partnerLow = true) (slotA : s.twin.slotB = false) :
    RunsTo .roleConflict s s [(.twin, 12)] := by
  refine .setEvent ?_ rfl (by decide)
  change execRoleConflict s = _
  unfold execRoleConflict
  rw [if_neg (by simp [own, partner])]
  exact if_pos (by simp [slotA])

/-- The module gives up its role line and follows its partner's time. -/
def State.lineGivenUp (s : State) : State := { s with twin := { s.twin with ownLow := false, keeper := false }, time := s.time.follow }

theorem exec_roleConflict_slotB {s : State} (own : s.twin.ownLow = true) (partner : s.twin.partnerLow = true) (slotB : s.twin.slotB = true)
    (linked : s.twin.link ≠ .severed) : exec .roleConflict s = .next (s.setEvent .twin 12).lineGivenUp.pnlYielded := by
  change execRoleConflict s = _
  unfold execRoleConflict
  have joined : (s.twin.link == .severed) = false := by simpa using linked
  rw [if_neg (by simp [own, partner])]
  dsimp only
  rw [State.twin_setEvent, if_neg (by simp [slotB]), joined, Bool.or_false, Bool.false_and, if_neg Bool.false_ne_true, if_neg Bool.false_ne_true,
    State.lineGivenUp, State.twin_setEvent]

theorem roleConflict_slotB (s : State) (own : s.twin.ownLow = true) (partner : s.twin.partnerLow = true) (slotB : s.twin.slotB = true)
    (linked : s.twin.link ≠ .severed) :
    ∃ t, Changes .roleConflict s t [.twin, .time, .pnl, .done] [(.twin, 12), (.pnl, 2)] ∧ t.raised .twin 12 = true ∧ t.time = s.time.follow ∧
      t.twin = { s.twin with ownLow := false, keeper := false } := by
  have told : Moves s (s.setEvent .twin 12) [] [(.twin, 12)] := (Moves.refl s _ _).setEvent .twin 12 (by decide) (by simp)
  have given : Moves (s.setEvent .twin 12) (s.setEvent .twin 12).lineGivenUp [.twin, .time] [] := by unfold State.lineGivenUp; exact .set
  have yielded := (s.setEvent .twin 12).lineGivenUp.moves_pnlYielded
  refine ⟨_, (told.stay.trans (given.stay.trans yielded.stay)).changes (exec_roleConflict_slotB own partner slotB linked),
    yielded.raised (given.raised (State.raised_setEvent _ _ _ (by decide))), ?_, ?_⟩
  · rw [yielded.time, State.lineGivenUp, State.time_setEvent]
  · rw [yielded.twin, State.lineGivenUp, State.twin_setEvent]

theorem splitBrainRelease_releases (s : State) (t c : Nat) (split : s.twin.split = some (t, c)) (reference : s.refTask.isSome = true) (twice : 2 ≤ c) :
    RunsTo .splitBrainRelease s { s with twin := { s.twin with split := none, engaged := false }, dio := s.dio.engageAll false, aio := s.aio.faultReleaseAll } [] := by
  refine .quiet ?_ rfl
  change execSplitBrainRelease s = _
  unfold execSplitBrainRelease
  simp [split, reference, twice]

/-! The wait of *Starting role* (04 R114). -/

theorem exec_startingRoleWait {s : State} (waits : s.twin.waiting = true) (unstarted : s.twin.started = false) (alive : s.mod.failed = false)
    (seated : s.twin.seated = true) (waited : s.twin.waitAt + (if s.twin.slotB then 100 else 10) ≤ s.mod.uptime) :
    exec .startingRoleWait s = .next (if s.twin.partnerLow ∨ !s.twin.high1us ∨ s.twin.regions.contains Region.twin then s.becomeShadow
      else s.becomeLead) := by
  change execStartingRoleWait s = _
  unfold execStartingRoleWait
  rw [if_neg (by simp [waits, unstarted, alive, seated]; omega), apply_ite Host.Outcome.next]

theorem TwinBlk.linkUp_congr {t u : TwinBlk} (same : t.lanes = u.lanes) : t.linkUp = u.linkUp := by
  simp [TwinBlk.linkUp, TwinBlk.lane, same]

/-- A module that takes the token with the link down is SOLO; it engages its stages once it is READY (04 R110, R114). -/
theorem State.becomeLead_noLink {s : State} (starting : s.mod.ready = false) (down : s.twin.linkUp = false) : s.becomeLead = { s with
    twin := { s.twin with started := true, began := true, waiting := false, isolated := false, ownLow := true, keeper := true, engaged := false }
    cfg := { s.cfg with phase := s.cfg.phase.afterRole true } } := by
  unfold State.becomeLead
  simp only [starting, Bool.false_eq_true, if_false]
  refine if_neg (fun joins => ?_)
  obtain ⟨⟨up, -⟩, -⟩ := by simpa only [Bool.and_eq_true] using joins
  exact Bool.false_ne_true (down.symm.trans ((TwinBlk.linkUp_congr rfl).trans up))

theorem Phase.afterRole_eq (p : Phase) (lead : Bool) :
    p.afterRole lead = if p = .twinSearch then (if lead then .rick else .time) else p := by
  simp [Phase.afterRole]

theorem startingRoleWait_lead (s : State) (waits : s.twin.waiting = true) (unstarted : s.twin.started = false) (alive : s.mod.failed = false)
    (low : s.twin.partnerLow = false) (high : s.twin.high1us = true) (starting : s.mod.ready = false) (down : s.twin.linkUp = false)
    (seated : s.twin.seated = true) (sound : s.twin.regions.contains Region.twin = false)
    (waited : s.twin.waitAt + (if s.twin.slotB then 100 else 10) ≤ s.mod.uptime) :
    RunsTo .startingRoleWait s { s with
      twin := { s.twin with started := true, began := true, waiting := false, isolated := false, ownLow := true, keeper := true, engaged := false }
      cfg := { s.cfg with phase := if s.cfg.phase = .twinSearch then .rick else s.cfg.phase } } [] := by
  refine .quiet ((exec_startingRoleWait waits unstarted alive seated waited).trans (congrArg _ ?_)) rfl
  rw [if_neg (by simpa [low, high] using sound), State.becomeLead_noLink starting down, Phase.afterRole_eq, if_pos rfl]

theorem startingRoleWait_shadow (s : State) (waits : s.twin.waiting = true) (unstarted : s.twin.started = false) (alive : s.mod.failed = false)
    (low : s.twin.partnerLow = true) (down : s.twin.linkUp = false) (seated : s.twin.seated = true)
    (waited : s.twin.waitAt + (if s.twin.slotB then 100 else 10) ≤ s.mod.uptime) :
    RunsTo .startingRoleWait s { s with
      twin := { s.twin with started := true, began := true, waiting := false, isolated := true, ownLow := false, keeper := false, engaged := false }
      cfg := { s.cfg with phase := if s.cfg.phase = .twinSearch then .time else s.cfg.phase } } [] := by
  refine .quiet ((exec_startingRoleWait waits unstarted alive seated waited).trans (congrArg _ ?_)) rfl
  rw [if_pos (.inl low), State.becomeShadow_noLink down, Phase.afterRole_eq, if_neg Bool.false_ne_true]

theorem startingRoleWait_not (s : State) (h : s.twin.seated = false ∨ s.mod.uptime < s.twin.waitAt + (if s.twin.slotB then 100 else 10)) :
    RunsTo .startingRoleWait s s [] := by
  refine .quiet (if_pos ?_) rfl
  rcases h with unseated | early
  · simp [unseated]
  · simp [early]

/-! Yield and handover (04 R112, R127, R128, R130). -/

theorem State.eligible_high (s : State) (own : s.twin.ownLow = false) :
    State.eligible { s with twin := { s.twin with partnerLow := false, high1us := true } } = s.eligible := by
  simp [State.eligible, State.role, State.eligibility, State.imageDiff, State.holdsToken, own]

theorem State.takeYield_promotes {s : State} (r : Region) (follows : s.follows = true) (eligible : s.eligible = true) (own : s.twin.ownLow = false) :
    s.takeYield r false = State.promote { s with twin := { s.twin with partnerLow := false, high1us := true } } 2 r.code := by
  rw [State.takeYield, if_neg (by simp [follows])]
  dsimp only
  rw [s.eligible_high own, if_pos eligible]
  rfl

theorem State.eligible_noted (s : State) (f : OlviaHdr) : (s.noted f).eligible = s.eligible := by
  obtain ⟨c, h⟩ := s.twin_noted f
  have unmoved := s.moves_noted f []
  simp [State.eligible, State.role, State.eligibility, State.imageDiff, State.holdsToken_noted, h, unmoved.cyc, unmoved.fab, unmoved.cfg, unmoved.ax]

theorem yield_promotes (s : State) (f : OlviaHdr) (r : Region) (fresh : s.twin.fresh f = true) (follows : s.follows = true) (eligible : s.eligible = true)
    (own : s.twin.ownLow = false) :
    ∃ t, Changes (.yield f r false) s t [.twin, .xch, .cfg, .cyc, .time, .ax, .pnl, .net, .safe]
        [(.twin, 1), (.safe, 5), (.time, 0), (.time, 1), (.ax, 0), (.ax, 1), (.ax, 13), (.pnl, 7), (.net, 4), (.net, 7), (.net, 9)] ∧
      t.raised .twin 1 = true ∧ t.twin.quiet = ({ s.twin.noteCopy f with
        partnerLow := false, high1us := true, ownLow := true, keeper := true
        takeCnt := Bits.inc s.twin.takeCnt, openElig := none, lastTake := lastTakeWord 2 r.code 0 s.partnerUnit } : TwinBlk).quiet := by
  obtain ⟨c, twin⟩ := s.twin.noteCopy_eq f
  have step : exec (.yield f r false) s = .next ((s.noted f).takeYield r false) := congrArg _ (State.onFrame_fresh fresh _)
  rw [State.takeYield_promotes r (by simpa using follows) (by rw [State.eligible_noted]; exact eligible) (by rw [State.noted, twin]; exact own)] at step
  have high : Moves s { s.noted f with twin := { (s.noted f).twin with partnerLow := false, high1us := true } } [.twin] [] := by
    unfold State.noted; exact .set
  refine ⟨_, (high.stay.trans (State.moves_promote _ _ _)).changes step, State.raised_promote _ _ _, ?_⟩
  rw [State.twin_promote, State.noted, State.partnerUnit, State.partnerUnit, twin]

theorem yieldFail_takesBack (s : State) (r : Region) (yields : s.twin.yielding = some { region := some r, origin := .self })
    (low : s.twin.partnerLow = false) (high : s.twin.high1us = true) (shadow : s.partnerShadow = true) :
    RunsTo .yieldFail s { s with twin := { s.twin with keeper := true, ownLow := true, yielding := none } } [] := by
  refine .quiet ?_ rfl
  change execYieldFail s = _
  unfold execYieldFail
  simp [yields, low, high, shadow]

/-- A refused handover is told, and ends the command. -/
theorem EndsTo.handoverRefused {i : Instr} {s : State} {o : Origin} {code : Nat} (e : exec i s = .next (s.handoverRefused o code)) :
    EndsTo i s { s with twin := { s.twin with lastTake := lastTakeWord 5 0 code 0#4 } } [(.twin, 9)] := by
  refine .mk _ e ?_ ?_
  · rw [State.handoverRefused, State.sans_finish _ (by simp), State.sans_setEvent]
  · have told : s.Raises (State.setEvent { s with twin := { s.twin with lastTake := lastTakeWord 5 0 code 0#4 } } .twin 9) [(.twin, 9)] :=
      (State.raises_setEvent _ .twin 9 (by decide)).from rfl
    exact told.trans (m := []) (.of_event (State.event_finish _ _ _ _))

theorem exec_handover {s : State} (o : Origin) (allowed : s.handoverReason = 0) : exec (.handover o) s =
    if s.twin.handover.isSome || s.twin.yielding.isSome then .next (s.handoverRefused o 2)
    else .next (State.passed { s with twin := { s.twin with handover := some o } } o) := by
  change execHandover o s = _
  unfold execHandover
  split
  · rfl
  · next refused => exact absurd allowed refused

theorem handover_accepts (s : State) (o : Origin) (allowed : s.handoverReason = 0) (unasked : s.twin.handover = none) (steady : s.twin.yielding = none) :
    EndsTo (.handover o) s { s with twin := { s.twin with handover := some o } } [] :=
  .passed ((exec_handover o allowed).trans (if_neg (by simp [unasked, steady]))) rfl

theorem handover_busy (s : State) (o : Origin) (allowed : s.handoverReason = 0) (busy : s.twin.handover.isSome = true ∨ s.twin.yielding.isSome = true) :
    EndsTo (.handover o) s { s with twin := { s.twin with lastTake := lastTakeWord 5 0 2 0#4 } } [(.twin, 9)] :=
  .handoverRefused ((exec_handover o allowed).trans (if_pos (by simpa using busy)))

theorem handover_refused (s : State) (o : Origin) (refused : s.handoverReason ≠ 0) :
    EndsTo (.handover o) s { s with twin := { s.twin with lastTake := lastTakeWord 5 0 s.handoverReason 0#4 } } [(.twin, 9)] := by
  refine .handoverRefused (o := o) (code := s.handoverReason) ?_
  change execHandover o s = _
  unfold execHandover
  split
  · next allowed => exact absurd allowed refused
  · rfl

/-- Settles O26: a lost partner leaves a SOLO, a promoted, a blocked or a split SHADOW; the role lines complete a yield and end a
conflict; a wait ends in a role; a YIELD promotes, and a handover waits or is refused. -/
theorem twinRoles : Obligations.TwinRoles :=
  ⟨partnerLost_again, partnerLost_solo, partnerLost_promotes, partnerLost_blocked, partnerLost_splits, partnerLost_takesBack,
    partnerRoleLineHigh_noted, fun _ steady => .quiet (exec_partnerRoleLineLow_steady steady) rfl, partnerRoleLineLow_yields,
    roleConflict_slotA, roleConflict_slotB, splitBrainRelease_releases, startingRoleWait_lead, startingRoleWait_shadow, startingRoleWait_not,
    yield_promotes, yieldFail_takesBack, handover_accepts, handover_busy, handover_refused⟩

end Sys2Proof.Machine

namespace Sys2Proof.Machine
set_option Elab.async false

/-! The exchange of a cycle and its verdict (04 R115-R122). -/

/-! The twin unit's tasks and lanes where a frame acts. -/

theorem TwinBlk.task_noteCopy (t : TwinBlk) (f : OlviaHdr) (n : Nat) : (t.noteCopy f).task n = t.task n := by
  obtain ⟨c, h⟩ := t.noteCopy_eq f
  rw [h]
  rfl
theorem State.task_noted (s : State) (f : OlviaHdr) (n : Nat) : (s.noted f).twin.task n = s.twin.task n := s.twin.task_noteCopy f n

theorem State.mismCnt_noted (s : State) (f : OlviaHdr) : (s.noted f).twin.mismCnt = s.twin.mismCnt := by
  obtain ⟨c, h⟩ := s.twin_noted f
  rw [h]

theorem State.linkUp_noted {s : State} {f : OlviaHdr} (fresh : s.twin.fresh f = true) : (s.noted f).twin.linkUp = true := by
  obtain ⟨c, h⟩ := s.twin_noted f
  have up : (s.twin.lane f.lane.val).state = .up := by simpa using (Bool.and_eq_true_iff.mp fresh).1
  rw [h]
  refine (TwinBlk.linkUp_congr (u := s.twin) rfl).trans ?_
  rw [TwinBlk.linkUp, Bool.or_eq_true, beq_iff_eq, beq_iff_eq]
  rcases Fin.exists_fin_two.mp ⟨f.lane, rfl⟩ with lane | lane
  · exact .inl (by rw [lane] at up; exact up)
  · exact .inr (by rw [lane] at up; exact up)

/-! SAMPLES and AGREED (04 R115, R116), and frames not to use. -/

theorem samples_kept (s : State) (f : OlviaHdr) (n : Fin 32) (k : DWord) (v : List InVal) (fresh : s.twin.fresh f = true) :
    RunsTo (.samples f n k v) s { s with twin := (s.twin.noteCopy f).setTask n { s.twin.task n with samples := some (k, v) } } [] := by
  refine .quiet (congrArg _ ((State.onFrame_fresh fresh _).trans ?_)) rfl
  rw [State.modTwin, State.task_noted]
  rfl

theorem agreed_kept (s : State) (f : OlviaHdr) (n : Fin 32) (k : DWord) (v : List InVal) (fresh : s.twin.fresh f = true) (follows : s.follows = true) :
    RunsTo (.agreed f n k v) s { s with twin := (s.twin.noteCopy f).setTask n { s.twin.task n with agreed := some (k, v) } } [] := by
  refine .quiet (congrArg _ ((State.onFrame_fresh fresh _).trans ?_)) rfl
  rw [if_pos (by rw [State.follows_noted, follows]), State.modTwin, State.task_noted]
  rfl

/-- A frame that is not to use does nothing but note its copy (04 R100). -/
theorem RunsTo.stale {i : Instr} {s : State} {f : OlviaHdr} {g : State → State} (step : exec i s = .next (s.onFrame f g)) (stale : s.twin.fresh f = false) :
    RunsTo i s { s with twin := s.twin.noteCopy f } [] := .quiet (step.trans (congrArg _ (State.onFrame_stale stale g))) rfl

theorem twinCycle_stale (s : State) (f : OlviaHdr) (n : Fin 32) (k : DWord) (v : List InVal) (m : HashMsg) (c : Fin 6) (ta : Nat)
    (stale : s.twin.fresh f = false) :
    RunsTo (.samples f n k v) s { s with twin := s.twin.noteCopy f } [] ∧ RunsTo (.agreed f n k v) s { s with twin := s.twin.noteCopy f } [] ∧
      RunsTo (.hash f n m) s { s with twin := s.twin.noteCopy f } [] ∧ RunsTo (.verdict f n k c ta) s { s with twin := s.twin.noteCopy f } [] :=
  ⟨.stale rfl stale, .stale rfl stale, .stale rfl stale, .stale rfl stale⟩

/-! A SHADOW that has missed part of an exchange (04 R116, R120). -/

theorem TwinBlk.link_quiet {t u : TwinBlk} (h : t.quiet = u.quiet) : t.link = u.link :=
  show t.quiet.link = u.quiet.link from congrArg TwinBlk.link h
theorem TwinBlk.tasks_quiet {t u : TwinBlk} (h : t.quiet = u.quiet) : t.tasks = u.tasks :=
  show t.quiet.tasks = u.quiet.tasks from congrArg TwinBlk.tasks h

theorem State.quiet_sendObjects (s : State) : s.sendObjects.twin.quiet = s.twin.quiet := by
  unfold State.sendObjects
  dsimp only
  split <;> split <;> simp [apply_ite State.twin, apply_ite TwinBlk.quiet]

/-- A state copy begins: the pair is CATCHING-UP, and the exchange of every task starts anew. -/
theorem State.twinTasks_startCopy (s : State) : s.startCopy.twin.link = .catchingUp ∧ s.startCopy.twin.tasks = Tbl.map {} TwinTask.restart s.twin.tasks := by
  unfold State.startCopy
  extract_lets hold u x0 v t0 w x
  have left : u.twin.tasks = s.twin.tasks := by
    simp only [u]
    split
    · rfl
    · split <;> rfl
  clear_value u hold
  have dropped : v.twin.tasks = s.twin.tasks := by
    simp only [v]
    split <;> exact left
  clear_value v
  have begun : w.twin.link = .catchingUp ∧ w.twin.tasks = Tbl.map {} TwinTask.restart s.twin.tasks := ⟨rfl, congrArg (Tbl.map {} TwinTask.restart) dropped⟩
  clear_value w
  have told : x.twin = w.twin := State.twin_setEvent _ _ _
  clear_value x
  rw [← told] at begun
  split
  · rw [← told]
    exact begun
  · split
    · rw [TwinBlk.link_quiet x.quiet_sendObjects, TwinBlk.tasks_quiet x.quiet_sendObjects]
      exact begun
    · exact begun

/-- A JOINED SHADOW that has missed an exchange releases its stages and catches up anew. -/
theorem State.exchangeMissed_joined {s : State} (n : Fin 32) (joined : s.twin.link = .joined) :
    Moves s (s.exchangeMissed n) [.twin, .dio, .aio, .fab, .time, .cyc, .xch] [(.twin, 5), (.twin, 11)] ∧ (s.exchangeMissed n).raised .twin 11 = true ∧
      (s.exchangeMissed n).twin.link = .catchingUp ∧
      (s.exchangeMissed n).twin.tasks = Tbl.map {} TwinTask.restart (s.twin.setTask n { s.twin.task n with release := true }).tasks := by
  have missed : s.exchangeMissed n = ((s.setEvent .twin 11).modTwin n (fun w => { w with release := true })).startCopy := by
    simp [State.exchangeMissed, joined]
  have told : Moves s (s.setEvent .twin 11) [] [(.twin, 11)] := (Moves.refl s _ _).setEvent .twin 11 (by decide) (by simp)
  have released := (s.setEvent .twin 11).moves_modTwin n (fun w => { w with release := true }) []
  have copied := ((s.setEvent .twin 11).modTwin n (fun w => { w with release := true })).moves_startCopy
  obtain ⟨link, tasks⟩ := ((s.setEvent .twin 11).modTwin n (fun w => { w with release := true })).twinTasks_startCopy
  rw [missed]
  refine ⟨told.stay.trans (released.stay.trans copied.stay), copied.raised (released.raised (State.raised_setEvent _ _ _ (by decide))), link, ?_⟩
  rw [tasks, State.twin_modTwin, State.twin_setEvent]

theorem exchangeMiss_catchesUp (s : State) (n : Fin 32) (r : CycleRun) (run : (s.task n).run = some r) (follows : s.follows = true)
    (joined : s.twin.link = .joined) (waits : r.agreed = false) (noSamples : (s.twin.task n).samplesOf r.k = none)
    (noImage : (s.twin.task n).agreedOf r.k = none) (late : r.t0 + 40000 ≤ s.nowNs) :
    ∃ t, Changes (.exchangeMiss n) s t [.twin, .dio, .aio, .fab, .time, .cyc, .xch] [(.twin, 5), (.twin, 11)] ∧ t.raised .twin 11 = true ∧
      t.twin.link = .catchingUp ∧ t.twin.tasks = Tbl.map {} TwinTask.restart (s.twin.setTask n { s.twin.task n with release := true }).tasks := by
  obtain ⟨moves, missed⟩ := State.exchangeMissed_joined n joined
  refine ⟨_, moves.changes ?_, missed⟩
  change execExchangeMiss n s = _
  unfold execExchangeMiss
  simp [run, follows, State.agrees, joined, waits, noSamples, noImage, late]

theorem verdictMissing_catchesUp (s : State) (n : Fin 32) (follows : s.follows = true) (joined : s.twin.link = .joined)
    (applies : (s.task n).toApply = true) (_idle : (s.task n).run = none) (unjudged : (s.twin.task n).verdict = none)
    (held : (s.twin.task n).release = false) :
    ∃ t, Changes (.verdictMissing n) s t [.twin, .dio, .aio, .fab, .time, .cyc, .xch] [(.twin, 5), (.twin, 11)] ∧ t.raised .twin 11 = true ∧
      t.twin.link = .catchingUp ∧ t.twin.tasks = Tbl.map {} TwinTask.restart (s.twin.setTask n { s.twin.task n with release := true }).tasks := by
  obtain ⟨moves, missed⟩ := State.exchangeMissed_joined n joined
  refine ⟨_, moves.changes ?_, missed⟩
  change execVerdictMissing n s = _
  unfold execVerdictMissing
  simp [follows, State.agrees, joined, applies, unjudged, held]

/-! A verdict takes its place (04 R119, R120). -/

/-- No proof is complete in a pair that is JOINED already. -/
theorem State.tryJoin_joined {s : State} (joined : s.twin.link = .joined) : s.tryJoin = s := by
  simp [State.tryJoin, State.proofComplete, joined]

theorem State.takeVerdict_apply {s : State} (n : Nat) (k : DWord) (ta kind : Nat) (joined : s.twin.link = .joined) : s.takeVerdict n k 1 ta kind =
    s.modTwin n (fun w => { w with verdict := some (k, 1, ta), keep := false, matched := w.matched + 1 }) := by
  refine (State.tryJoin_joined (by exact joined)).trans ?_
  simp

theorem State.takeVerdict_late (s : State) (n : Nat) (k : DWord) (ta kind : Nat) : s.takeVerdict n k 3 ta kind =
    s.modTwin n (fun w => { w with verdict := some (k, 3, ta), keep := true, matched := 0 }) := by
  simp [State.takeVerdict]

/-- A task after the verdict MISMATCH; `leave` says whether the module releases its stages. -/
def TwinTask.mismatched (w : TwinTask) (k : DWord) (ta : Nat) (leave : Bool) : TwinTask :=
  { w with verdict := some (k, 2, ta), keep := false, release := w.release || leave, matched := 0 }

/-- The verdict MISMATCH in a JOINED pair: it takes its place, and the mismatch is recorded. -/
def State.mismatchTaken (s : State) (n : Nat) (k : DWord) (ta kind : Nat) (leave : Bool) : State :=
  (s.modTwin n (fun w => w.mismatched k ta leave)).mismatch n k kind

theorem State.takeVerdict_mismatch {s : State} (n : Nat) (k : DWord) (ta kind : Nat) (joined : s.twin.link = .joined) : s.takeVerdict n k 2 ta kind =
    s.mismatchTaken n k ta kind (!s.holdsToken) := by
  simp [State.takeVerdict, State.mismatchTaken, TwinTask.mismatched, joined]

section
variable {s : State} (n : Nat) (k : DWord) (ta kind : Nat) (leave : Bool)
theorem State.moves_mismatchTaken : Moves s (s.mismatchTaken n k ta kind leave) [.twin] [(.twin, 2)] :=
  (s.moves_modTwin n _ _).trans (State.moves_mismatch _ n k kind)
theorem State.raised_mismatchTaken : (s.mismatchTaken n k ta kind leave).raised .twin 2 = true := State.raised_recordEvent _ _ _ _ _ (by decide)
theorem State.twin_mismatchTaken (joined : s.twin.link = .joined) : (s.mismatchTaken n k ta kind leave).twin =
    { s.twin.setTask n ((s.twin.task n).mismatched k ta leave) with
      mismTask := Bits.fld kind 28 ||| Bits.fld (n % 32) 0, mismCycle := k, mismCnt := Bits.inc s.twin.mismCnt
      testing := true, ownResult := none, peerResult := none, suspect := s.twin.suspect || !s.holdsToken } := by
  refine (State.moves_twinRecord _ _ _ (by decide)).twin.trans ?_
  simp [State.modTwin, State.holdsToken, joined]
theorem State.task_mismatchTaken (joined : s.twin.link = .joined) :
    (s.mismatchTaken n k ta kind leave).twin.task n = (s.twin.task n).mismatched k ta leave := by
  rw [State.twin_mismatchTaken n k ta kind leave joined]
  exact TwinBlk.task_setTask _ _ _
end

/-- The state once a frame has gone out. -/
def State.sentOut (s : State) (o : OlviaOut) : State := { s with twin := s.twin.send o }

theorem State.moves_sentOut (s : State) (o : OlviaOut) (m : List (Block × Nat)) : Moves s (s.sentOut o) [.twin] m := by
  unfold State.sentOut; exact .set

theorem State.sendVerdict_up {s : State} (n : Nat) (k : DWord) (code kind : Nat) (up : s.twin.linkUp = true) : s.sendVerdict n k code kind =
    (s.sentOut (.verdict n k code (s.applyInstant n))).takeVerdict n k code (s.applyInstant n) kind := by
  rw [State.sendVerdict, State.olvia_up _ _ up, State.sentOut]

section
variable {s : State} (n : Nat) (k : DWord) (kind : Nat)
theorem State.sendVerdict_apply (up : s.twin.linkUp = true) (joined : s.twin.link = .joined) : s.sendVerdict n k 1 kind =
    (s.sentOut (.verdict n k 1 (s.applyInstant n))).modTwin n
      (fun w => { w with verdict := some (k, 1, s.applyInstant n), keep := false, matched := w.matched + 1 }) := by
  rw [State.sendVerdict_up n k 1 kind up, State.takeVerdict_apply]
  exact joined
theorem State.sendVerdict_late (up : s.twin.linkUp = true) : s.sendVerdict n k 3 kind = (s.sentOut (.verdict n k 3 (s.applyInstant n))).modTwin n
    (fun w => { w with verdict := some (k, 3, s.applyInstant n), keep := true, matched := 0 }) := by
  rw [State.sendVerdict_up n k 3 kind up, State.takeVerdict_late]
theorem State.sendVerdict_mismatch (up : s.twin.linkUp = true) (joined : s.twin.link = .joined) : s.sendVerdict n k 2 kind =
    (s.sentOut (.verdict n k 2 (s.applyInstant n))).mismatchTaken n k (s.applyInstant n) kind (!s.holdsToken) := by
  rw [State.sendVerdict_up n k 2 kind up, State.takeVerdict_mismatch]
  · rfl
  · exact joined
end

/-! The LEAD judges a cycle (04 R117-R119). -/

/-- Both hashes of a cycle not yet judged are there: the LEAD compares them. -/
theorem State.judge_compares {s : State} {n : Nat} {o p : HashPair} (leads : s.leads = true) (own : (s.twin.task n).own = some o)
    (partner : (s.twin.task n).partner = some p) (same : p.k = o.k) (sound : (s.twin.task n).fault = none) (unjudged : (s.twin.task n).verdict = none) :
    s.judge n = if mismatchKind o p = 0 then s.sendVerdict n o.k 1 0 else s.sendVerdict n o.k 2 (mismatchKind o p) := by
  simp [State.judge, leads, own, partner, same, sound, TwinTask.judged, unjudged]

theorem State.judge_shadow {s : State} (n : Nat) (shadow : s.leads = false) : s.judge n = s := by simp [State.judge, shadow]

theorem State.judgeFault_none {s : State} {n : Nat} (sound : (s.twin.task n).ownFault = none) : s.judgeFault n = s := by
  simp [State.judgeFault, sound]

theorem State.leads_ofFollows {s : State} (follows : s.follows = true) : s.leads = false := by
  simp [State.leads, State.holdsToken_of_follows follows]

/-- A task whose partner's hash of a cycle has come. -/
def TwinTask.hashed (w : TwinTask) (p : HashPair) : TwinTask := { w with partner := some p, step := true }

theorem exec_hash_commit {s : State} {f : OlviaHdr} (n : Fin 32) (k h a : DWord) (d : Bool) (fresh : s.twin.fresh f = true) (linked : s.twin.link ≠ .severed) :
    exec (.hash f n (.commit k h a d)) s =
      .next ((((s.noted f).modTwin n (fun w => w.hashed { k := k, hash := h, audit := a, diff := d })).judge n).judgeFault n) := by
  refine congrArg _ ((State.onFrame_fresh fresh _).trans ?_)
  rw [State.takeHash, if_neg (by rw [State.link_noted]; exact linked)]
  rfl

/-- The state in which the LEAD judges the cycle whose hash has come. -/
def State.hashNoted (s : State) (f : OlviaHdr) (n : Nat) (p : HashPair) : State := (s.noted f).modTwin n (fun w => w.hashed p)

section
variable {s : State} {f : OlviaHdr} {n : Nat} {p : HashPair}

theorem State.task_hashNoted (s : State) (f : OlviaHdr) (n : Nat) (p : HashPair) : (s.hashNoted f n p).twin.task n = (s.twin.task n).hashed p := by
  rw [State.hashNoted, State.twin_modTwin, TwinBlk.task_setTask, State.task_noted]

theorem State.moves_hashNoted (s : State) (f : OlviaHdr) (n : Nat) (p : HashPair) : Moves s (s.hashNoted f n p) [.twin] [] := by
  unfold State.hashNoted State.modTwin State.noted; exact .set

theorem State.leads_hashNoted (leads : s.leads = true) : (s.hashNoted f n p).leads = true := (State.leads_noted s f).trans leads

theorem State.link_hashNoted (s : State) (f : OlviaHdr) (n : Nat) (p : HashPair) : (s.hashNoted f n p).twin.link = s.twin.link := State.link_noted s f

theorem State.linkUp_hashNoted (fresh : s.twin.fresh f = true) : (s.hashNoted f n p).twin.linkUp = true := State.linkUp_noted fresh

theorem State.modTwin_hashNoted (s : State) (f : OlviaHdr) (n : Nat) (p : HashPair) (o : OlviaOut) (g : TwinTask → TwinTask) :
    ((s.hashNoted f n p).sentOut o).modTwin n g =
      { s with twin := ((s.twin.noteCopy f).send o).setTask n (g ((s.twin.task n).hashed p)) } := by
  have twin : ((s.hashNoted f n p).sentOut o).twin = ((s.twin.noteCopy f).send o).setTask n ((s.twin.task n).hashed p) := by
    rw [State.hashNoted, State.modTwin, State.task_noted]
    rfl
  rw [State.modTwin, twin, TwinBlk.task_setTask, TwinBlk.setTask_setTask]
  rfl

/-- The LEAD compares its own hash of a cycle with the one that has come. -/
theorem State.judge_hashNoted {o : HashPair} (leads : s.leads = true) (own : (s.twin.task n).own = some o) (same : p.k = o.k)
    (sound : (s.twin.task n).fault = none) (unjudged : (s.twin.task n).verdict = none) :
    (s.hashNoted f n p).judge n = if mismatchKind o p = 0 then (s.hashNoted f n p).sendVerdict n o.k 1 0
      else (s.hashNoted f n p).sendVerdict n o.k 2 (mismatchKind o p) := by
  refine State.judge_compares (p := p) (State.leads_hashNoted leads) ?_ ?_ same ?_ ?_ <;> rw [State.task_hashNoted]
  · exact own
  · rfl
  · exact sound
  · exact unjudged

/-- The hashes differ: the LEAD gives the verdict MISMATCH, and keeps its stages. -/
theorem State.judge_differs {o : HashPair} {kind : Nat} (fresh : s.twin.fresh f = true) (leads : s.leads = true) (joined : s.twin.link = .joined)
    (own : (s.twin.task n).own = some o) (same : p.k = o.k) (sound : (s.twin.task n).fault = none) (unjudged : (s.twin.task n).verdict = none)
    (differ : mismatchKind o p = kind) (bad : kind ≠ 0) : (s.hashNoted f n p).judge n =
      ((s.hashNoted f n p).sentOut (.verdict n o.k 2 (s.applyInstant n))).mismatchTaken n o.k (s.applyInstant n) kind false := by
  have token : (s.hashNoted f n p).holdsToken = true := (State.holdsToken_noted s f).trans (State.holdsToken_of_leads leads)
  rw [State.judge_hashNoted leads own same sound unjudged, differ, if_neg bad,
    State.sendVerdict_mismatch _ _ _ (State.linkUp_hashNoted fresh) ((s.link_hashNoted f n p).trans joined), token]
  rfl
end

theorem hash_matches (s : State) (f : OlviaHdr) (n : Fin 32) (k h a : DWord) (fresh : s.twin.fresh f = true) (leads : s.leads = true)
    (joined : s.twin.link = .joined) (own : (s.twin.task n).own = some { k := k, hash := h, audit := a, diff := false })
    (sound : (s.twin.task n).fault = none) (whole : (s.twin.task n).ownFault = none) (unjudged : (s.twin.task n).verdict = none) :
    RunsTo (.hash f n (.commit k h a false)) s { s with twin := ((s.twin.noteCopy f).send (.verdict n k 1 (s.applyInstant n))).setTask n { s.twin.task n with
      partner := some { k := k, hash := h, audit := a, diff := false }, step := true, verdict := some (k, 1, s.applyInstant n), keep := false
      matched := (s.twin.task n).matched + 1 } } [] := by
  refine .quiet ((exec_hash_commit n k h a false fresh (by simp [joined])).trans (congrArg _ ?_)) rfl
  rw [← State.hashNoted, State.judge_hashNoted leads own rfl sound unjudged, if_pos (by simp [mismatchKind]),
    State.sendVerdict_apply _ _ _ (State.linkUp_hashNoted fresh) ((State.link_hashNoted s f n _).trans joined), State.modTwin_hashNoted,
    State.judgeFault_none (by rw [TwinBlk.task_setTask]; exact whole)]
  rfl

theorem hash_differs (s : State) (f : OlviaHdr) (n : Fin 32) (k h a h' : DWord) (fresh : s.twin.fresh f = true) (leads : s.leads = true)
    (joined : s.twin.link = .joined) (differ : h ≠ h') (own : (s.twin.task n).own = some { k := k, hash := h', audit := a, diff := false })
    (sound : (s.twin.task n).fault = none) (whole : (s.twin.task n).ownFault = none) (unjudged : (s.twin.task n).verdict = none) :
    ∃ t, Changes (.hash f n (.commit k h a false)) s t [.twin] [(.twin, 2)] ∧ t.raised .twin 2 = true ∧ t.twin.testing = true ∧ t.twin.mismCycle = k ∧
      t.twin.mismCnt = Bits.inc s.twin.mismCnt ∧ t.twin.mismTask = Bits.fld 1 28 ||| Bits.fld n 0 ∧ (t.twin.task n).verdict = some (k, 2, s.applyInstant n) ∧
      (t.twin.task n).release = (s.twin.task n).release := by
  let p : HashPair := { k := k, hash := h, audit := a, diff := false }
  let u := (s.hashNoted f n p).sentOut (.verdict n k 2 (s.applyInstant n))
  have judged : (s.hashNoted f n p).judge n = u.mismatchTaken n k (s.applyInstant n) 1 false :=
    State.judge_differs (o := { k := k, hash := h', audit := a, diff := false }) fresh leads joined own rfl sound unjudged (by simp [p, mismatchKind, differ.symm]) (by decide)
  have linked : u.twin.link = .joined := (s.link_hashNoted f n p).trans joined
  have hashed : u.twin.task n = (s.twin.task n).hashed p := s.task_hashNoted f n p
  have task : ((u.mismatchTaken n k (s.applyInstant n) 1 false).twin.task n) = ((s.twin.task n).hashed p).mismatched k (s.applyInstant n) false := by
    rw [State.task_mismatchTaken _ _ _ _ _ linked, hashed]
  have count : u.twin.mismCnt = s.twin.mismCnt := s.mismCnt_noted f
  have step := exec_hash_commit n k h a false fresh (by simp [joined])
  rw [← State.hashNoted, judged, State.judgeFault_none (by rw [task]; exact whole)] at step
  have moved := (s.moves_hashNoted f n p).stay.trans (((s.hashNoted f n p).moves_sentOut _ []).stay.trans (u.moves_mismatchTaken n k (s.applyInstant n) 1 false))
  refine ⟨_, moved.changes step, State.raised_mismatchTaken _ _ _ _ _, ?_, ?_, ?_, ?_, ?_, ?_⟩
  · rw [State.twin_mismatchTaken _ _ _ _ _ linked]
  · rw [State.twin_mismatchTaken _ _ _ _ _ linked]
  · rw [State.twin_mismatchTaken _ _ _ _ _ linked, count]
  · rw [State.twin_mismatchTaken _ _ _ _ _ linked, Nat.mod_eq_of_lt n.isLt]
  · rw [task]
    rfl
  · rw [task]
    exact Bool.or_false _

/-! HASH of a fault and of an image (04 R118, R124). -/

theorem exec_hash_fault {s : State} {f : OlviaHdr} (n : Fin 32) (k : DWord) (fresh : s.twin.fresh f = true) (linked : s.twin.link ≠ .severed) :
    exec (.hash f n (.fault k)) s = .next (((s.noted f).modTwin n (fun w => { w with fault := some k })).judge n) := by
  refine congrArg _ ((State.onFrame_fresh fresh _).trans ?_)
  rw [State.takeHash, if_neg (by rw [State.link_noted]; exact linked)]

theorem hash_fault (s : State) (f : OlviaHdr) (n : Fin 32) (k : DWord) (fresh : s.twin.fresh f = true) (follows : s.follows = true) :
    RunsTo (.hash f n (.fault k)) s { s with twin := (s.twin.noteCopy f).setTask n { s.twin.task n with fault := some k } } [] := by
  refine .quiet ((exec_hash_fault n k fresh (State.link_of_follows follows)).trans (congrArg _ ?_)) rfl
  have shadow : (s.noted f).leads = false := (State.leads_noted s f).trans (State.leads_ofFollows follows)
  rw [State.judge_shadow n (by exact shadow), State.modTwin, State.task_noted]
  rfl

/-- A pair that is JOINED proves no image. -/
theorem State.imageMatch_joined {s : State} (n : Nat) (h : DWord) (joined : s.twin.link = .joined) :
    s.imageMatch n h = s.modTwin n (fun w => { w with image := some h }) := if_neg (by simp [joined])

theorem hash_image (s : State) (f : OlviaHdr) (n : Fin 32) (h : DWord) (fresh : s.twin.fresh f = true) (joined : s.twin.link = .joined) :
    RunsTo (.hash f n (.image h)) s { s with twin := (s.twin.noteCopy f).setTask n { s.twin.task n with image := some h } } [] := by
  have linked : (s.noted f).twin.link = .joined := (State.link_noted s f).trans joined
  refine .quiet (congrArg _ ((State.onFrame_fresh fresh _).trans ?_)) rfl
  rw [State.takeHash, if_neg (by simp [joined]), State.imageMatch_joined _ _ linked, State.modTwin, State.task_noted]
  rfl

/-! The verdict at its deadline, and a verdict that comes (04 R119-R121). -/

/-- Outside an exchange a verdict gives no Tx. -/
theorem State.xchVerdict_idle {s : State} (n : Nat) (k : DWord) (code ta : Nat) (idle : s.xch.cur.state = .idle) : s.xchVerdict n k code ta = s := by
  simp [State.xchVerdict, idle]

theorem verdictDeadline_late (s : State) (n : Fin 32) (r : CycleRun) (leads : s.leads = true) (joined : s.twin.link = .joined)
    (run : (s.task n).run = some r) (sound : r.faulted = false) (idle : s.xch.cur.state = .idle) (up : s.twin.linkUp = true) :
    RunsTo (.verdictDeadline n) s { s with twin := (s.twin.send (.verdict n r.k 3 (s.applyInstant n))).setTask n { s.twin.task n with
      verdict := some (r.k, 3, s.applyInstant n), keep := true, matched := 0 } } [] := by
  refine .quiet ?_ rfl
  change execVerdictDeadline n s = _
  unfold execVerdictDeadline
  simp only [leads, joined, run, sound, Bool.not_true, BEq.rfl, Bool.true_or, Bool.or_false, Bool.false_eq_true, if_false]
  rw [State.sendVerdict_late _ _ _ up, State.xchVerdict_idle _ _ _ _ (by exact idle)]
  rfl

/-- A verdict to use on a SHADOW of a JOINED pair, outside an exchange. -/
theorem exec_verdict {s : State} {f : OlviaHdr} (n : Fin 32) (k : DWord) (c : Fin 6) (ta : Nat) (fresh : s.twin.fresh f = true) (follows : s.follows = true)
    (joined : s.twin.link = .joined) (running : c.val ≠ 5) : exec (.verdict f n k c ta) s =
      .next (((s.noted f).takeVerdict n k c ta (((s.noted f).twin.task n).kindHere k)).xchVerdict n k c ta) := by
  refine congrArg _ ((State.onFrame_fresh fresh _).trans ?_)
  rw [State.obeyVerdict, if_neg (by simp [follows, State.agrees, joined])]
  exact if_neg running

theorem verdict_applies (s : State) (f : OlviaHdr) (n : Fin 32) (k : DWord) (ta : Nat) (fresh : s.twin.fresh f = true) (follows : s.follows = true)
    (joined : s.twin.link = .joined) (idle : s.xch.cur.state = .idle) :
    RunsTo (.verdict f n k 1 ta) s { s with twin := (s.twin.noteCopy f).setTask n { s.twin.task n with
      verdict := some (k, 1, ta), keep := false, matched := (s.twin.task n).matched + 1 } } [] := by
  refine .quiet ((exec_verdict n k 1 ta fresh follows joined (by decide)).trans (congrArg _ ?_)) rfl
  have taken := State.takeVerdict_apply n k ta (((s.noted f).twin.task n).kindHere k) ((State.link_noted s f).trans joined)
  refine (State.xchVerdict_idle _ _ _ _ ?_).trans (taken.trans ?_)
  · rw [show (((1 : Fin 6) : Nat)) = 1 from rfl, taken]
    exact idle
  · rw [State.modTwin, State.task_noted]
    rfl

theorem verdict_mismatch (s : State) (f : OlviaHdr) (n : Fin 32) (k : DWord) (ta : Nat) (fresh : s.twin.fresh f = true) (follows : s.follows = true)
    (joined : s.twin.link = .joined) (idle : s.xch.cur.state = .idle) :
    ∃ t, Changes (.verdict f n k 2 ta) s t [.twin] [(.twin, 2)] ∧ t.twin.suspect = true ∧ t.twin.testing = true ∧ (t.twin.task n).release = true := by
  have linked : (s.noted f).twin.link = .joined := (State.link_noted s f).trans joined
  have step := exec_verdict n k 2 ta fresh follows joined (by decide)
  have noToken : (s.noted f).holdsToken = false := (State.holdsToken_noted s f).trans (State.holdsToken_of_follows follows)
  have moved := (s.moves_noted f []).stay.trans ((s.noted f).moves_mismatchTaken n k ta (((s.noted f).twin.task n).kindHere k) true)
  rw [show ((2 : Fin 6) : Nat) = 2 from rfl, State.takeVerdict_mismatch _ _ _ _ linked, noToken, Bool.not_false,
    State.xchVerdict_idle _ _ _ _ ((congrArg (·.cur.state) moved.xch).trans idle)] at step
  refine ⟨_, moved.changes step, ?_, ?_, ?_⟩
  · rw [State.twin_mismatchTaken _ _ _ _ _ linked, noToken]
    exact Bool.or_true _
  · rw [State.twin_mismatchTaken _ _ _ _ _ linked]
  · rw [State.task_mismatchTaken _ _ _ _ _ linked]
    exact Bool.or_true _

/-- Settles O27: samples, an agreed image and hashes are kept and judged; a missed exchange begins the state copy anew; a verdict takes
its place with both modules, and a mismatch starts the self-tests. -/
theorem twinCycle : Obligations.TwinCycle :=
  ⟨samples_kept, agreed_kept, twinCycle_stale, exchangeMiss_catchesUp, hash_matches, hash_differs, hash_fault, hash_image,
    verdictDeadline_late, verdict_applies, verdict_mismatch, verdictMissing_catchesUp⟩

end Sys2Proof.Machine

namespace Sys2Proof.Machine
set_option Elab.async false

/-! The commands of an exchange on a module that acts alone (05 R144-R149, R159, R160). -/

/-- A command that reports what it raises and then completes. -/
theorem EndsTo.raised_finish {i : Instr} {s u v : State} {o : Origin} {status detail : Nat} {l : List (Block × Nat)}
    (e : exec i s = .next (v.finish o status detail)) (b : v.bare = u.bare) (r : s.Raises v l) : EndsTo i s u l := by
  have told : s.Raises (v.finish o status detail) (l ++ []) := r.trans (.of_event (State.event_finish ..))
  rw [List.append_nil] at told
  exact .mk _ e ((State.sans_finish _ (by simp) ..).trans (State.sans_of_bare b _)) told

/-- A command that sets one EVENT bit and completes. -/
theorem EndsTo.setEvent_finish {i : Instr} {s u : State} {o : Origin} {b : Block} {n status detail : Nat}
    (e : exec i s = .next ((u.setEvent b n).finish o status detail)) (he : u.event = s.event) (hn : n < 32) : EndsTo i s u [(b, n)] :=
  .raised_finish e (State.bare_setEvent u b n) ((u.raises_setEvent b n hn).from he)

/-- A command that sets one EVENT bit, on a condition a second, and completes. -/
theorem EndsTo.setEventIf_finish {i : Instr} {s u : State} {o : Origin} {b c : Block} {n m status detail : Nat} {x : Bool} {q : Prop} [Decidable q]
    (e : exec i s = .next (((u.setEvent b n).setEventIf x c m).finish o status detail)) (he : u.event = s.event) (hn : n < 32) (hm : m < 32)
    (hq : x = true ↔ q) : EndsTo i s u ((b, n) :: if q then [(c, m)] else []) := by
  have told := ((u.raises_setEvent b n hn).from he).trans ((u.setEvent b n).raises_setEventIf x c m hm)
  exact .raised_finish e ((State.bare_setEventIf ..).trans (State.bare_setEvent ..)) (told.congr (by simp [hq]))

/-! STAGE (05 R144, R145). -/

/-- A package whose first piece of `len` bytes has come. -/
def State.stageOpened (s : State) (o : Origin) (len total : Nat) : State :=
  { s with xch := { ({ s.xch.clear with stageOrg := o } : XchBlk).write { state := .staging } with len := len, total := total } }

/-- The whole package in the slot of a module that sends it to no partner. -/
theorem EndsTo.stageWhole {i : Instr} {s u : State} {o : Origin} {p : Package} {signer : Option Nat}
    (e : exec i s = .next (u.stageWhole o p signer)) (alone : u.leads = false) (he : u.event = s.event) :
    EndsTo i s { u with xch := { u.xch with pkg := some p, signer := signer, written := true, ownOk := false, peerOk := false, stageOrg := o } } [] := by
  refine .passed (o := o) (e.trans (congrArg _ ?_)) he
  have still : (State.passed { u with xch := { u.xch with
      pkg := some p, signer := signer, written := true, ownOk := false, peerOk := false, stageOrg := o } } o).leads = false := by
    rw [State.leads, State.holdsToken, State.twin_passed]
    exact alone
  rw [State.stageWhole]
  exact if_neg (by rw [still]; simp)

/-- A first piece that fits opens the slot of an idle exchange unit. -/
theorem exec_stage_first {s : State} (o : Origin) {total len : Nat} {last : Bool} (pkg : Package × Option Nat) (acts : s.actsAsLead = true)
    (idle : s.xch.cur.state = .idle) (fits : len ≤ total) (whole : last = true → len = total) :
    exec (.stage o 0 total len true last pkg) s =
      if last then .next ((s.stageOpened o len total).stageWhole o pkg.1 pkg.2) else .next ((s.stageOpened o len total).finish o stOk 0) := by
  have cleared : s.xch.clear.cur.state = .idle := idle
  change execStage o 0 total len true last pkg s = _
  unfold execStage
  rw [if_neg (by simp [acts]), if_neg (by simp [idle]), if_neg (by simpa [Nat.not_lt.mpr fits] using whole), if_neg (by simp)]
  simp only [if_true, cleared, reduceCtorEq, if_false, Nat.zero_add]
  rfl

theorem stage_opens (s : State) (o : Origin) (total len : Nat) (pkg : Package × Option Nat) (acts : s.actsAsLead = true)
    (idle : s.xch.cur.state = .idle) (fits : len ≤ total) :
    EndsTo (.stage o 0 total len true false pkg) s { s with
      xch := { ({ s.xch.clear with stageOrg := o } : XchBlk).write { state := .staging } with len := len, total := total } } [] :=
  .finish (exec_stage_first o pkg acts idle fits (by simp)) rfl

theorem stage_whole (s : State) (o : Origin) (total : Nat) (pkg : Package × Option Nat) (acts : s.actsAsLead = true) (alone : s.leads = false)
    (idle : s.xch.cur.state = .idle) :
    EndsTo (.stage o 0 total total true true pkg) s { s with
      xch := { ({ s.xch.clear with stageOrg := o } : XchBlk).write { state := .staging } with
        len := total, total := total, pkg := some pkg.1, signer := pkg.2, written := true, ownOk := false, peerOk := false, stageOrg := o } } [] :=
  .stageWhole (u := s.stageOpened o total total) (exec_stage_first o pkg acts idle (Nat.le_refl _) (fun _ => rfl)) alone rfl

theorem stage_notLead (s : State) (o : Origin) (off total len : Nat) (f l : Bool) (pkg : Package × Option Nat) (h : s.actsAsLead = false) :
    EndsTo (.stage o off total len f l pkg) s s [] := .finish (o := o) (status := stNotLead) (detail := 0) (if_pos (by simp [h])) rfl

/-- A STAGE or ROLLBACK that is refused is counted, with its reason. -/
theorem EndsTo.refuseXch {i : Instr} {s : State} {o : Origin} {r : Nat} (e : exec i s = .next (s.refuseXch o r)) :
    EndsTo i s { s with xch := { s.xch with reason := r, refuses := Bits.inc s.xch.refuses } } [] := .finish e rfl

theorem stage_busy (s : State) (o : Origin) (off total len : Nat) (f l : Bool) (pkg : Package × Option Nat) (acts : s.actsAsLead = true)
    (idle : s.xch.cur.state ≠ .idle) (staging : s.xch.cur.state ≠ .staging) :
    EndsTo (.stage o off total len f l pkg) s { s with xch := { s.xch with reason := 8, refuses := Bits.inc s.xch.refuses } } [] :=
  .refuseXch (o := o) ((if_neg (by simp [acts])).trans (if_pos (by simp [idle, staging])))

/-! STAGING_COMPLETE (05 R146, R147). -/

/-- The checks of a package that no partner checks decide alone. -/
theorem exec_stagingComplete {s : State} {p : Package} (pkg : s.xch.pkg = some p) (staging : s.xch.cur.state = .staging)
    (written : s.xch.written = true) (unchecked : s.xch.ownOk = false) (link : s.twin.link = .severed) :
    exec .stagingComplete s = if s.stagingReason p s.xch.signer ≠ 0 then .next (s.stageRefused (s.stagingReason p s.xch.signer))
      else .next (State.staged { s with xch := { s.xch with ownOk := true } }) := by
  change execStagingComplete s = _
  unfold execStagingComplete
  simp only [pkg, link, reduceCtorEq, if_false]
  rw [if_neg (by simp [staging, written]), if_neg (by simp [unchecked])]

/-- A package that has passed its checks is STAGED where no partner has to pass them too. -/
theorem State.staged_alone {s : State} (staging : s.xch.cur.state = .staging) (passed : s.xch.ownOk = true) (link : s.twin.link = .severed) :
    s.staged = (State.setEvent { s with
      xch := { s.xch.write { state := .staged } with reason := 0 }, cfg := { s.cfg with base := none } } .xch 0).finish s.xch.stageOrg stOk 0 := if_pos (by simp [staging, passed, link])

theorem stagingComplete_passes (s : State) (p : Package) (pkg : s.xch.pkg = some p) (staging : s.xch.cur.state = .staging)
    (written : s.xch.written = true) (unchecked : s.xch.ownOk = false) (link : s.twin.link = .severed) (sound : s.stagingReason p s.xch.signer = 0) :
    EndsTo .stagingComplete s { s with
      xch := { ({ s.xch with ownOk := true } : XchBlk).write { state := .staged } with reason := 0 }, cfg := { s.cfg with base := none } } [(.xch, 0)] := by
  have step := exec_stagingComplete pkg staging written unchecked link
  rw [if_neg (by simp [sound]), State.staged_alone (by exact staging) rfl (by exact link)] at step
  exact .setEvent_finish step rfl (by decide)

theorem stagingComplete_refuses (s : State) (p : Package) (r : Nat) (pkg : s.xch.pkg = some p) (staging : s.xch.cur.state = .staging)
    (written : s.xch.written = true) (unchecked : s.xch.ownOk = false) (link : s.twin.link = .severed) (found : s.stagingReason p s.xch.signer = r)
    (failed : r ≠ 0) :
    EndsTo .stagingComplete s { s with
      xch := { s.xch.clear.write {} with reason := r, refuses := Bits.inc (s.xch.clear.write {}).refuses }, cfg := { s.cfg with base := none } }
      ((.xch, 1) :: if r = 4 then [(.fab, 10)] else []) := by
  have step := exec_stagingComplete pkg staging written unchecked link
  rw [found, if_pos failed, State.stageRefused] at step
  exact .setEventIf_finish step rfl (by decide) (by decide) beq_iff_eq

/-! ARM and DISARM (05 R144, R148). -/

/-- A module that acts alone arms a package that passes the arming checks. -/
theorem exec_arm {s : State} (o : Origin) {n : Nat} {k : DWord} {p : Package} (acts : s.actsAsLead = true) (alone : s.leads = false)
    (staged : s.xch.cur.state = .staged) (pkg : s.xch.pkg = some p) (sound : s.armReason p n k = 0) :
    exec (.arm o n k) s = .next (if s.atStop then (s.arm p o n k).passed o else (s.arm p o n k).finish o stOk 0) := by
  change execArm o n k s = _
  unfold execArm
  rw [if_neg (by simp [acts]), if_neg (by simp [staged])]
  simp only [pkg, sound, alone, Bool.false_eq_true, if_false]

/-- An ARM outside STOP waits for the pivot's cycle. -/
theorem State.arm_waits {s : State} (p : Package) (o : Origin) (n : Nat) (k : DWord) (runs : s.atStop = false) :
    s.arm p o n k = State.setEvent { s with xch := ({ s.xch.drop with
      discarded := 0#32, added := 0#32, converted := 0#32, armOrg := o, reason := 0 } : XchBlk).write { state := .armed, pivot := n, n := k } } .xch 2 :=
  if_neg (ne_true_of_eq_false runs)

theorem arm_accepts (s : State) (o : Origin) (n : Nat) (k : DWord) (p : Package) (acts : s.actsAsLead = true) (alone : s.leads = false)
    (staged : s.xch.cur.state = .staged) (pkg : s.xch.pkg = some p) (sound : s.armReason p n k = 0) (runs : s.atStop = false) :
    EndsTo (.arm o n k) s { s with xch := ({ s.xch.drop with
      discarded := 0#32, added := 0#32, converted := 0#32, armOrg := o, reason := 0 } : XchBlk).write { state := .armed, pivot := n, n := k } } [(.xch, 2)] := by
  have step := exec_arm o acts alone staged pkg sound
  rw [if_neg (ne_true_of_eq_false runs), State.arm_waits p o n k runs] at step
  exact .setEvent_finish step rfl (by decide)

theorem exec_arm_refused {s : State} (o : Origin) {n : Nat} {k : DWord} {p : Package} (acts : s.actsAsLead = true)
    (staged : s.xch.cur.state = .staged) (pkg : s.xch.pkg = some p) (failed : s.armReason p n k ≠ 0) :
    exec (.arm o n k) s = .next ((s.setEvent .xch 3).refuseXch o (s.armReason p n k)) := by
  change execArm o n k s = _
  unfold execArm
  rw [if_neg (by simp [acts]), if_neg (by simp [staged])]
  simp only [pkg]

theorem arm_refused (s : State) (o : Origin) (n : Nat) (k : DWord) (p : Package) (r : Nat) (acts : s.actsAsLead = true)
    (staged : s.xch.cur.state = .staged) (pkg : s.xch.pkg = some p) (found : s.armReason p n k = r) (failed : r ≠ 0) :
    EndsTo (.arm o n k) s { s with xch := { s.xch with reason := r, refuses := Bits.inc s.xch.refuses } } [(.xch, 3)] := by
  subst found
  have step := exec_arm_refused o acts staged pkg failed
  rw [State.refuseXch, State.xch_setEvent] at step
  refine .raised_finish step (by simp [State.bare]) ?_
  exact (s.raises_setEvent .xch 3 (by decide)).trans (m := []) (.of_event rfl)

/-- An abort that is told to no partner returns an armed exchange to STAGED. -/
theorem State.xchAbort_armed {s : State} (reason : Nat) (armed : s.xch.cur.state = .armed) (alone : s.leads = false) :
    s.xchAbort reason = State.setEvent { s with xch := { s.xch.drop.write { s.xch.cur with state := .staged } with
      reason := reason, aborts := Bits.inc s.xch.aborts } } .xch 4 := by
  unfold State.xchAbort
  rw [if_neg (by simp [armed])]
  refine if_neg (ne_true_of_eq_false ?_)
  rw [State.leads, State.holdsToken, State.twin_setEvent]
  exact alone

theorem disarm_aborts (s : State) (o : Origin) (acts : s.actsAsLead = true) (alone : s.leads = false) (armed : s.xch.cur.state = .armed) :
    EndsTo (.disarm o) s { s with xch := { s.xch.drop.write { s.xch.cur with state := .staged } with
      reason := 0x10, aborts := Bits.inc s.xch.aborts } } [(.xch, 4)] := by
  refine .setEvent_finish (o := o) (status := stOk) (detail := 0) ?_ rfl (by decide)
  change execDisarm o s = _
  unfold execDisarm
  rw [if_neg (by simp [acts])]
  simp only [armed, State.xchAbort_armed 0x10 armed alone]

/-! DISCARD, ROLLBACK and PRECARRY_COMPLETE (05 R144, R148, R149, R159). -/

theorem discard_empties (s : State) (o : Origin) (acts : s.actsAsLead = true) (alone : s.leads = false) (staged : s.xch.cur.state = .staged) :
    EndsTo (.discard o) s { s with xch := s.xch.drop.clear.write {}, cfg := { s.cfg with base := none } } [] := by
  refine .finish (o := o) (status := stOk) (detail := 0) ?_ rfl
  change execDiscard o s = _
  unfold execDiscard
  rw [if_neg (by simp [acts])]
  simp only [staged, alone, Bool.false_eq_true, if_false]
  rfl

/-- The package that leads from the program `g` back to the image `b` by the reverse map `m` (05 R159). -/
def rollbackPackage (g : Option Program) (b : Program) (m : CarryMap) : Package :=
  { prog := b, base := (match g with | some g => g.hash | none => []), carry := m, proof := some (List.map Prod.fst b.tasks) }

theorem rollback_stages (s : State) (o : Origin) (m : CarryMap) (b : Program) (acts : s.actsAsLead = true) (alone : s.leads = false)
    (idle : s.xch.cur.state = .idle) (reverse : s.xch.reverse = some m) (base : s.cfg.base = some b) :
    ∃ p : Package, p.prog = b ∧ p.carry = m ∧ EndsTo (.rollback o) s { s with xch := { s.xch.clear.write { state := .staging } with
      pkg := some p, signer := b.signer, written := true, ownOk := false, peerOk := false, stageOrg := o } } [] := by
  refine ⟨rollbackPackage s.cfg.prog b m, rfl, rfl, .stageWhole (u := { s with xch := s.xch.clear.write { state := .staging } }) ?_ alone rfl⟩
  change execRollback o s = _
  unfold execRollback
  rw [if_neg (by simp [acts]), if_neg (by simp [idle])]
  simp only [reverse, base]
  rfl

theorem rollback_refused (s : State) (o : Origin) (acts : s.actsAsLead = true) (idle : s.xch.cur.state = .idle) (noMap : s.xch.reverse = none) :
    EndsTo (.rollback o) s { s with xch := { s.xch with reason := 6, refuses := Bits.inc s.xch.refuses } } [] := by
  refine .refuseXch (o := o) ?_
  change execRollback o s = _
  unfold execRollback
  rw [if_neg (by simp [acts]), if_neg (by simp [idle])]
  simp only [noMap]

theorem precarryComplete_done (s : State) (p : Package) (pkg : s.xch.pkg = some p) (armed : s.xch.cur.state = .armed) (undone : s.xch.done = false) :
    RunsTo .precarryComplete s { s with xch := { s.xch with done := true, percent := 100, stage := s.precarryAll p } } [] := by
  refine .quiet ?_ rfl
  change execPrecarryComplete s = _
  unfold execPrecarryComplete
  simp only [pkg]
  exact if_neg (by simp [armed, undone])

/-- Settles O29: a package is staged in one piece or opened by its first, judged, armed, disarmed, discarded or built from the inactive slot,
or refused with its reason; the pre-carry translates every task. -/
theorem exchangeCommands : Obligations.ExchangeCommands :=
  ⟨stage_opens, stage_whole, stage_notLead, stage_busy, stagingComplete_passes, stagingComplete_refuses, arm_accepts, arm_refused, disarm_aborts,
    discard_empties, rollback_stages, rollback_refused, precarryComplete_done⟩

end Sys2Proof.Machine

namespace Sys2Proof.Machine
set_option Elab.async false

/-! The switch of a task, of all tasks in STOP, and the end of an exchange (05 R144, R150-R157). -/

/-! After the last switch settling begins (05 R144). -/

section
variable (s : State) (p : Package)

theorem State.moves_settle : Moves s (s.settle p) [.xch] [(.xch, 5)] := by
  unfold State.settle
  exact .ite ((Moves.set (t := { s with xch := _ })).setEvent _ _ (by decide) (by simp)) (.refl _ _ _)

theorem State.switched_settle : (s.settle p).xch.switched = s.xch.switched := by
  unfold State.settle
  split
  · rw [State.xch_setEvent]; rfl
  · rfl

theorem State.inStop_settle : (s.settle p).xch.cur.inStop = s.xch.cur.inStop := by
  unfold State.settle
  split
  · rw [State.xch_setEvent]; rfl
  · rfl

/-- With every task switched the exchange is SETTLING. -/
theorem State.state_settle (all : ∀ m ∈ s.exchangeTasks p, Bits.bit s.xch.switched m = true) : (s.settle p).xch.cur.state = .settling := by
  rw [State.settle, if_pos (List.all_eq_true.mpr all), State.xch_setEvent]
  rfl

end

/-! CARRY_COMPLETE (05 R150-R153). -/

theorem Bits.bit_setBit_self (w : Word) {i : Nat} (h : i < 32) : Bits.bit (Bits.setBit w i) i = true := by simp [Bits.bit_setBit _ _ _ h]

theorem carryComplete_switches (s : State) (n : Fin 32) (p : Package) (pkg : s.xch.pkg = some p) (ready : s.carryReady p n = true) :
    ∃ t, Changes (.carryComplete n) s t [.cyc, .xch] [(.xch, 5), (.xch, 8)] ∧ Bits.bit t.xch.switched n = true ∧
      (t.task n).image = p.carryTask s.oldImage n ∧ (t.task n).draft = p.carryTask s.oldImage n ∧ (t.task n).exchanged = true ∧ (t.task n).staged = true ∧
      (∀ m : Nat, m ≠ n → t.task m = s.task m) := by
  obtain ⟨u, carried, moved, switched, -, -, image, draft, exchanged, staged, others⟩ := s.carry_facts p n (p.carryTask s.oldImage n)
  have step : exec (.carryComplete n) s = .next (u.settle p) := by
    change execCarryComplete n s = _
    unfold execCarryComplete
    simp only [pkg]
    rw [if_pos ready, carried]
  have task : ∀ m, (u.settle p).task m = u.task m := fun m => State.task_of_cyc (u.moves_settle p).cyc m
  refine ⟨_, (moved.stay.trans (u.moves_settle p).stay).changes step, ?_, ?_, ?_, ?_, ?_, fun m other => (task m).trans (others m other)⟩
  · rw [State.switched_settle, switched]
    exact Bits.bit_setBit_self _ n.isLt
  all_goals rw [task]; assumption

/-! ARM in STOP (05 R155). -/

/-- In STOP a task is carried, and gets a commit record with its present cycle number and BANK 0. -/
def State.carryInStop (p : Package) (stage : Tbl (Tbl Byte)) (s : State) (n : Nat) : State :=
  let new := Tbl.get [] stage n
  let s := s.carry p n new
  let t := s.task n
  let cr : CommitRec := CommitRec.sealed
    { task := n, cycle := t.cycle, sec := s.time.sec, ns := s.time.ns, bank := false, hash := commitHash (s.progTask n) new t.cycle }
  s.setTask n ({ t with bank := false, rec0 := if t.recNext then t.rec0 else some cr, rec1 := if t.recNext then some cr else t.rec1
                        recNext := !t.recNext }.setImage new)

/-- Every task is carried in turn, from a record that says the exchange is one in STOP. -/
theorem State.armInStop_eq (s : State) (p : Package) : ∃ (x : XchBlk) (stage : Tbl (Tbl Byte)), x.cur.inStop = true ∧
    s.armInStop p = ((s.exchangeTasks p).foldl (State.carryInStop p stage) { s with xch := x }).settle p := ⟨_, _, rfl, rfl⟩

section
variable (p : Package) (stage : Tbl (Tbl Byte)) (s : State)

theorem State.carryInStop_eq (n : Nat) : ∃ t, State.carryInStop p stage s n = (s.carry p n (Tbl.get [] stage n)).setTask n t := ⟨_, rfl⟩

theorem State.moves_carryInStop (n : Nat) : Moves s (State.carryInStop p stage s n) [.cyc, .xch] [(.xch, 8)] := by
  obtain ⟨t, eq⟩ := State.carryInStop_eq p stage s n
  obtain ⟨u, carried, moved, -⟩ := s.carry_facts p n (Tbl.get [] stage n)
  rw [eq, carried]
  exact moved.trans (u.moves_setTask n t []).stay

theorem State.switched_carryInStop (n : Nat) : (State.carryInStop p stage s n).xch.switched = Bits.setBit s.xch.switched n := by
  obtain ⟨t, eq⟩ := State.carryInStop_eq p stage s n
  obtain ⟨u, carried, -, switched, -⟩ := s.carry_facts p n (Tbl.get [] stage n)
  rw [eq, carried]
  exact switched

theorem State.inStop_carryInStop (n : Nat) : (State.carryInStop p stage s n).xch.cur.inStop = s.xch.cur.inStop := by
  obtain ⟨t, eq⟩ := State.carryInStop_eq p stage s n
  obtain ⟨u, carried, -, -, -, inStop, -⟩ := s.carry_facts p n (Tbl.get [] stage n)
  rw [eq, carried]
  exact inStop

theorem State.switched_foldl_carryInStop (l : List Nat) :
    (l.foldl (State.carryInStop p stage) s).xch.switched = l.foldl Bits.setBit s.xch.switched :=
  (List.foldl_hom (fun t : State => t.xch.switched) (fun t n => (State.switched_carryInStop p stage t n).symm)).symm

theorem State.inStop_foldl_carryInStop (l : List Nat) : (l.foldl (State.carryInStop p stage) s).xch.cur.inStop = s.xch.cur.inStop :=
  List.foldlRecOn l _ (motive := fun t : State => t.xch.cur.inStop = s.xch.cur.inStop) rfl
    (fun t same n _ => (State.inStop_carryInStop p stage t n).trans same)

end

theorem Bits.bit_foldl_setBit (l : List Nat) (w : Word) {m : Nat} (h : m < 32) :
    Bits.bit (l.foldl Bits.setBit w) m = (Bits.bit w m || l.contains m) := by
  induction l generalizing w with
  | nil => simp
  | cons n l ih => rw [List.foldl_cons, ih, Bits.bit_setBit _ _ _ h, List.contains_cons, Bool.or_assoc]

theorem State.lt_of_exchangeTasks {s : State} {p : Package} {m : Nat} (h : m ∈ s.exchangeTasks p) : m < 32 :=
  List.mem_range.mp (List.mem_filter.mp h).1

/-- Which tasks take part depends on the configuration alone. -/
theorem State.exchangeTasks_of_cfg {s t : State} (h : t.cfg = s.cfg) (p : Package) : t.exchangeTasks p = s.exchangeTasks p := by
  simp only [State.exchangeTasks, State.taskCfg, h]

/-- Carried in STOP, every task has switched, and the exchange is SETTLING (05 R155). -/
theorem State.armInStop_facts (s : State) (p : Package) :
    Moves s (s.armInStop p) [.cyc, .xch] [(.xch, 5), (.xch, 8)] ∧ (s.armInStop p).xch.cur.state = .settling ∧ (s.armInStop p).xch.cur.inStop = true ∧
      ∀ m ∈ s.exchangeTasks p, Bits.bit (s.armInStop p).xch.switched m = true := by
  obtain ⟨x, stage, inStop, eq⟩ := s.armInStop_eq p
  obtain ⟨u, hu⟩ : ∃ u, u = (s.exchangeTasks p).foldl (State.carryInStop p stage) { s with xch := x } := ⟨_, rfl⟩
  have moved : Moves s u [.cyc, .xch] [(.xch, 8)] := by
    rw [hu]
    exact (Moves.set (t := { s with xch := x })).trans (.foldl _ (fun t n => t.moves_carryInStop p stage n) _ _)
  have switched : ∀ m ∈ s.exchangeTasks p, Bits.bit u.xch.switched m = true := by
    intro m hm
    rw [hu, State.switched_foldl_carryInStop, Bits.bit_foldl_setBit _ _ (State.lt_of_exchangeTasks hm)]
    simp [hm]
  rw [eq, ← hu]
  refine ⟨moved.stay.trans (u.moves_settle p).stay, u.state_settle p ?_, ?_, ?_⟩
  · rw [State.exchangeTasks_of_cfg moved.cfg]
    exact switched
  · rw [State.inStop_settle, hu, State.inStop_foldl_carryInStop]
    exact inStop
  · rw [State.switched_settle]
    exact switched

/-- An ARM in STOP carries every task at once. -/
theorem State.arm_inStop {s : State} (p : Package) (o : Origin) (n : Nat) (k : DWord) (stop : s.atStop = true) : ∃ x : XchBlk,
    s.arm p o n k = (State.setEvent { s with xch := x } .xch 2).armInStop p := ⟨_, if_pos stop⟩

theorem arm_inStop (s : State) (o : Origin) (n : Nat) (k : DWord) (p : Package) (acts : s.actsAsLead = true) (alone : s.leads = false)
    (staged : s.xch.cur.state = .staged) (pkg : s.xch.pkg = some p) (sound : s.armReason p n k = 0) (stop : s.atStop = true) :
    ∃ t, Changes (.arm o n k) s t [.cyc, .xch, .done] [(.xch, 2), (.xch, 5), (.xch, 8)] ∧ t.raised .xch 2 = true ∧ t.xch.cur.state = .settling ∧
      t.xch.cur.inStop = true ∧ ∀ m ∈ s.exchangeTasks p, Bits.bit t.xch.switched m = true := by
  obtain ⟨x, armed⟩ := State.arm_inStop p o n k stop
  have step := exec_arm o acts alone staged pkg sound
  rw [if_pos stop, armed] at step
  obtain ⟨u, hu⟩ : ∃ u, u = State.setEvent { s with xch := x } .xch 2 := ⟨_, rfl⟩
  have told : Moves s u [.xch] [(.xch, 2)] := by
    rw [hu]
    exact (Moves.set (t := { s with xch := x })).setEvent _ _ (by decide) (by simp)
  have raised : u.raised .xch 2 = true := hu ▸ State.raised_setEvent _ _ _ (by decide)
  rw [← hu] at step
  obtain ⟨moved, settling, inStop, switched⟩ := u.armInStop_facts p
  refine ⟨_, ((told.stay.trans moved.stay).passed o (by simp)).changes step, ?_, ?_, ?_, ?_⟩
  · exact (moved.stay.passed o (by simp) : Moves u _ [.cyc, .xch, .done] [(.xch, 5), (.xch, 8)]).raised raised
  · rw [State.xch_passed, settling]
  · rw [State.xch_passed, inStop]
  · rw [State.xch_passed, ← State.exchangeTasks_of_cfg told.cfg]
    exact switched

/-! SETTLE_COMPLETE (05 R155, R157). -/

/-- The new slot is the active program slot, and the exchange unit is IDLE. -/
def State.slotSwitched (s : State) (p : Package) : State :=
  { s with
    cfg := { s.cfg with prog := some p.prog, base := s.cfg.prog, progB := !s.cfg.progB, progOk := true }
    cyc := { s.cyc with tasks := Tbl.map {} (fun t => { t with staged := false }) s.cyc.tasks }
    xch := { (s.xch.drop.clear).write {} with reverse := p.reverse, completes := Bits.inc s.xch.completes } }

theorem State.packageCfg_none {s : State} {p : Package} (pkg : s.xch.pkg = some p) (noCfg : p.cfg = none) : s.packageCfg = s := by
  simp only [State.packageCfg, pkg, noCfg]

/-- Without a partner and a configuration to bring into force, settling ends with the switch of the slots. -/
theorem State.settled_alone {s : State} {p : Package} (pkg : s.xch.pkg = some p) (noCfg : p.cfg = none) (link : s.twin.link = .severed) :
    s.settled p = if s.xch.cur.inStop then ((s.slotSwitched p).setEvent .xch 6).finish s.xch.armOrg stOk 0
      else (s.slotSwitched p).setEvent .xch 6 := by
  unfold State.settled
  simp only [State.packageCfg_none pkg noCfg, link, reduceCtorEq, if_false]
  refine if_neg ?_
  split <;> simp [link]

theorem State.moves_slotSwitched (s : State) (p : Package) (m : List (Block × Nat)) : Moves s (s.slotSwitched p) [.cfg, .cyc, .xch] m := by
  unfold State.slotSwitched; exact .set

theorem settleComplete_ends (s : State) (p : Package) (pkg : s.xch.pkg = some p) (ready : s.settleReady = true) (link : s.twin.link = .severed)
    (noCfg : p.cfg = none) :
    ∃ t, Changes .settleComplete s t [.cfg, .cyc, .xch, .done] [(.xch, 6)] ∧ t.raised .xch 6 = true ∧
      t.cfg = { s.cfg with prog := some p.prog, base := s.cfg.prog, progB := !s.cfg.progB, progOk := true } ∧
      t.xch.cur = {} ∧ t.xch.reverse = p.reverse ∧ t.xch.completes = Bits.inc s.xch.completes := by
  obtain ⟨v, hv⟩ : ∃ v, v = (s.slotSwitched p).setEvent .xch 6 := ⟨_, rfl⟩
  have step : exec .settleComplete s = .next (if s.xch.cur.inStop then v.finish s.xch.armOrg stOk 0 else v) := by
    change execSettleComplete s = _
    unfold execSettleComplete
    simp only [pkg]
    rw [if_pos ready, State.settled_alone pkg noCfg link, hv]
  have moved : Moves s v [.cfg, .cyc, .xch, .done] [(.xch, 6)] := by
    rw [hv]
    exact ((s.moves_slotSwitched p []).stay).setEvent _ _ (by decide) (by simp)
  have raised : v.raised .xch 6 = true := hv ▸ State.raised_setEvent _ _ _ (by decide)
  have cfg : v.cfg = (s.slotSwitched p).cfg := by rw [hv, State.cfg_setEvent]
  have xch : v.xch = (s.slotSwitched p).xch := by rw [hv, State.xch_setEvent]
  obtain ⟨t, ht, last⟩ : ∃ t, t = (if s.xch.cur.inStop then v.finish s.xch.armOrg stOk 0 else v) ∧ Moves v t [.done] [] :=
    ⟨_, rfl, .ite ((Moves.refl _ _ _).finish _ _ _ (by simp)) (.refl _ _ _)⟩
  rw [← ht] at step
  refine ⟨t, (moved.trans last.stay).changes step, last.raised raised, ?_, ?_, ?_, ?_⟩
  · rw [last.cfg, cfg]; rfl
  all_goals rw [last.xch, xch]; rfl

/-- Settles O30: a task switches to its carried image; an ARM in STOP switches all; at the end the new slot is the active one. -/
theorem exchangeSwitch : Obligations.ExchangeSwitch := ⟨carryComplete_switches, arm_inStop, settleComplete_ends⟩

end Sys2Proof.Machine

namespace Sys2Proof.Machine
set_option Elab.async false

/-! The discipline of wall time (06 R164, R166, R170, 07 R211, R213, R216). -/

/-! Discipline states and slewing. -/

/-- The time unit in a discipline state newly entered: the pending step stays for QUARANTINE and HOLDOVER alone. -/
def TimeBlk.entered (t : TimeBlk) (d : Discipline) : TimeBlk :=
  { t with disc := d, holdTicks := 0, expired := false, pending := if d = .quarantine ∨ d = .holdover then t.pending else 0 }

theorem State.discTo_eq (s : State) (d : Discipline) (bit : Nat) :
    s.discTo d bit = State.setEvent { s with time := s.time.entered d } .time bit := by
  cases d <;> rfl

theorem TimeBlk.startSlew_residual (t : TimeBlk) (d : Int) (k : Nat) : ∃ v, t.startSlew d k = { t with residual := d * 100000, slew := v } := by
  unfold TimeBlk.startSlew
  dsimp only
  split
  · next zero => exact ⟨0, by rw [zero, Int.zero_mul]⟩
  · exact ⟨_, rfl⟩

theorem State.slewBy_residual (s : State) (d : Int) :
    ∃ v, s.slewBy d = { s with time := { s.time with residual := d * 100000, slew := v }, free := s.free + 1 } := by
  obtain ⟨v, slewed⟩ := s.time.startSlew_residual d s.free
  exact ⟨v, by rw [State.slewBy, slewed]⟩

theorem State.time_discTo (s : State) (d : Discipline) (bit : Nat) : (s.discTo d bit).time = s.time.entered d := by
  rw [State.discTo_eq, State.time_setEvent]

theorem State.raised_discTo (s : State) (d : Discipline) {bit : Nat} (h : bit < 32) : (s.discTo d bit).raised .time bit = true := by
  rw [State.discTo_eq]
  exact State.raised_setEvent _ _ _ h

theorem State.moves_slewBy (s : State) (d : Int) (m : List (Block × Nat)) : Moves s (s.slewBy d) [.time] m := by
  unfold State.slewBy
  exact .set

/-! One Sync of the selected master on an INDEPENDENT pair (07 R211, R213). -/

theorem exec_sync_single {s : State} {b : Announce} (x : SyncStamp) (best : bestMaster s.net.masters = some b)
    (single : s.net.redundant s.net.ptpPair = false) : exec (.sync b.sender (Bits.get s.net.ptpCfg 16 8) (some x) none) s =
      .next (s.syncInterval (some (s.net.offset (2 * s.net.ptpPair + s.net.ptpPort) x)) none) := by
  change execSync _ _ _ _ s = _
  simp [execSync, best, single]

theorem exec_sync_other {s : State} {m : DWord} {d : Nat} (x y : Option SyncStamp)
    (other : (∀ b, bestMaster s.net.masters = some b → b.sender ≠ m) ∨ d ≠ Bits.get s.net.ptpCfg 16 8) :
    exec (.sync m d x y) s = .next s := by
  change execSync m d x y s = _
  unfold execSync
  refine if_pos ?_
  rcases other with unselected | domain
  · cases best : bestMaster s.net.masters with
    | none => rfl
    | some b => simp [unselected b best]
  · simp [domain]

/-- The Sync of the one path ends that path's misses, and gives no cause to re-route. -/
theorem NetBlk.paths_single {d : NetBlk} (o : Int) (single : d.redundant d.ptpPair = false) :
    (d.paths (some o) none).2 = false ∧ (d.paths (some o) none).1.second = false ∧ (d.paths (some o) none).1.both = false ∧
      (d.paths (some o) none).1.missed0 = 0 ∧ (d.paths (some o) none).1.heard0 = true := by
  simp [NetBlk.paths, single]

/-- The network unit after the Sync of the one path. -/
def NetBlk.heardSingle (d : NetBlk) (o : Int) : NetBlk := (d.paths (some o) none).1

/-- Outside HOLDOVER and QUARANTINE the offset acts on the discipline alone; a quarantine that it begins keeps the path delays in use. -/
theorem State.syncInterval_single {s t : State} {o : Int} (single : s.net.redundant s.net.ptpPair = false) (free : s.time.disc ≠ .holdover)
    (steady : s.time.disc ≠ .quarantine)
    (acts : State.measured { s with net := s.net.heardSingle o } o (s.net.heardSingle o).pathCheck = t) :
    s.syncInterval (some o) none =
      { t with net := { (if t.time.disc = .quarantine then t.net.quarantined else t.net) with apart := 0 } } := by
  obtain ⟨cause, second, both, -, -⟩ := NetBlk.paths_single o single
  have still : (s.time.disc == Discipline.quarantine) = false := beq_eq_false_iff_ne.mpr steady
  have unchecked : (s.time.disc == Discipline.holdover) = false := beq_eq_false_iff_ne.mpr free
  unfold NetBlk.heardSingle at acts
  unfold State.syncInterval
  simp only [cause, second, both, still, unchecked, bne, Bool.not_false, Bool.false_and, Bool.and_false, Bool.and_true, Bool.false_eq_true,
    if_false, Nat.add_zero, acts]
  by_cases begins : t.time.disc = .quarantine
  · simp only [begins, beq_self_eq_true, if_true]
    rfl
  · simp only [begins, beq_iff_eq, if_false]
    rfl

theorem State.measured_freeRun {s : State} (o : Int) (ok : Bool) (free : s.time.disc = .freeRun) :
    s.measured o ok = { s with time := { s.time with offset := o, disc := .acquiring, within := 0 } } := by
  simp only [State.measured, free]

theorem State.measured_step {s : State} {o : Int} (ok : Bool) (locked : s.time.disc = .locked) (far : near (o + s.time.residual / 100000) = false) :
    s.measured o ok = State.quarantine { s with time := { s.time with offset := o } } o := by
  simp only [State.measured, locked, far, Bool.false_eq_true, if_false]

theorem sync_acquires (s : State) (b : Announce) (x : SyncStamp) (best : bestMaster s.net.masters = some b) (free : s.time.disc = .freeRun)
    (single : s.net.redundant s.net.ptpPair = false) :
    ∃ t, Changes (.sync b.sender (Bits.get s.net.ptpCfg 16 8) (some x) none) s t [.time, .net] [] ∧
      t.time = { s.time with offset := x.recv - x.sent - (s.net.port (2 * s.net.ptpPair + s.net.ptpPort)).delay, disc := .acquiring, within := 0 } ∧
      t.net.missed0 = 0 ∧ t.net.heard0 = true := by
  obtain ⟨-, -, -, missed, heard⟩ := NetBlk.paths_single (s.net.offset (2 * s.net.ptpPair + s.net.ptpPort) x) single
  have step := exec_sync_single x best single
  rw [State.syncInterval_single single (by rw [free]; decide) (by rw [free]; decide) (State.measured_freeRun _ _ (by exact free))] at step
  exact ⟨_, Moves.changes step .set, rfl, missed, heard⟩

theorem sync_other (s : State) (m : DWord) (d : Nat) (x y : Option SyncStamp)
    (other : (∀ b, bestMaster s.net.masters = some b → b.sender ≠ m) ∨ d ≠ Bits.get s.net.ptpCfg 16 8) : RunsTo (.sync m d x y) s s [] :=
  .quiet (exec_sync_other x y other) rfl

/-- The time unit at the beginning of a quarantine (06 R164). -/
def TimeBlk.quarantined (t : TimeBlk) (o : Int) : TimeBlk :=
  { t with disc := .quarantine, holdTicks := 0, expired := false
           offset := o, pending := o, quarCnt := Bits.inc t.quarCnt, quarSyncs := 0, residual := 0, slew := 0 }

theorem sync_quarantines (s : State) (b : Announce) (x : SyncStamp) (o : Int) (best : bestMaster s.net.masters = some b)
    (locked : s.time.disc = .locked) (single : s.net.redundant s.net.ptpPair = false)
    (measured : o = x.recv - x.sent - (s.net.port (2 * s.net.ptpPair + s.net.ptpPort)).delay) (far : near (o + s.time.residual / 100000) = false) :
    ∃ t, Changes (.sync b.sender (Bits.get s.net.ptpCfg 16 8) (some x) none) s t [.time, .net] [(.time, 2)] ∧ t.raised .time 2 = true ∧
      t.time.disc = .quarantine ∧ t.time.pending = o ∧ t.time.quarCnt = Bits.inc s.time.quarCnt ∧ t.time.quarSyncs = 0 ∧ t.time.slew = 0 ∧
      t.time.sec = s.time.sec ∧ t.time.ns = s.time.ns := by
  obtain ⟨u, begins⟩ : ∃ u : State, u = { s with net := s.net.heardSingle o, time := s.time.quarantined o } := ⟨_, rfl⟩
  have acts : State.measured { s with net := s.net.heardSingle o } o (s.net.heardSingle o).pathCheck = u.setEvent .time 2 := by
    rw [State.measured_step _ (by exact locked) (by exact far), begins]
    rfl
  have step := exec_sync_single x best single
  rw [NetBlk.offset, ← measured, State.syncInterval_single single (by rw [locked]; decide) (by rw [locked]; decide) acts] at step
  have moved : Moves s u [.time, .net] [(.time, 2)] := .set (by rw [begins]; simp [State.sans]) (by rw [begins])
  have time : (u.setEvent .time 2).time = s.time.quarantined o := by rw [State.time_setEvent, begins]
  refine ⟨_, ((moved.setEvent .time 2 (by decide) (by simp)).trans .set).changes step, State.raised_setEvent _ _ _ (by decide), ?_⟩
  dsimp only
  rw [time]
  exact ⟨rfl, rfl, rfl, rfl, rfl, rfl, rfl⟩

/-! The timers of the discipline (06 R164, R166, 07 R216). -/

theorem syncTimeout_holds (s : State) (disc : s.time.disc = .locked ∨ s.time.disc = .quarantine) :
    RunsTo .syncTimeout s { s with time := { s.time with disc := .holdover, pending := 0, within := 0, holdTicks := 0, expired := false } }
      [(.time, 1)] := by
  have step : exec .syncTimeout s = .next (({ s with time := { s.time with pending := 0, within := 0 } } : State).discTo .holdover 1) := by
    change execSyncTimeout s = _
    rcases disc with h | h <;> simp only [execSyncTimeout, h]
  rw [State.discTo_eq] at step
  exact .setEvent step rfl (by decide)

theorem quarantineExpiry_early (s : State) (early : s.time.quarSyncs < 8) : RunsTo .quarantineExpiry s s [] :=
  .quiet (if_neg (fun due => absurd due.2 (by omega))) rfl

theorem exec_quarantineExpiry {s : State} (disc : s.time.disc = .quarantine) (due : 8 ≤ s.time.quarSyncs) :
    exec .quarantineExpiry s = .next ((s.quarantineEnd s.net.pathCheck).checked s.net.pathCheck) := if_pos ⟨disc, due⟩

/-- The step is accepted: LOCKED again, and the pending step is slewed. -/
theorem State.quarantineEnd_accepts {s : State} (disc : s.time.disc = .quarantine) : s.quarantineEnd true =
    ((({ s with time := { s.time with asymmetry := false } } : State).discTo .locked 0).slewBy (-s.time.pending)).setEvent .time 3 := by
  unfold State.quarantineEnd
  rw [if_neg (not_not_intro disc), if_pos rfl]

/-- The step is rejected: HOLDOVER, with the asymmetry of the paths known. -/
theorem State.quarantineEnd_rejects {s : State} (disc : s.time.disc = .quarantine) : s.quarantineEnd false =
    (({ s with time := { s.time with asymmetry := true, pending := 0 } } : State).discTo .holdover 1).setEvent .time 4 := by
  unfold State.quarantineEnd
  rw [if_neg (not_not_intro disc), if_neg Bool.false_ne_true]

/-- LOCKED again, on paths that agree. -/
def State.relocked (s : State) : State := State.discTo { s with time := { s.time with asymmetry := false } } .locked 0

theorem State.moves_relocked (s : State) : Moves s s.relocked [.time] [(.time, 0)] :=
  .trans (.set (t := { s with time := { s.time with asymmetry := false } })) (State.moves_discTo _ _ _ (by decide))

theorem State.moves_checked (s : State) (ok : Bool) (m : List (Block × Nat)) : Moves s (s.checked ok) [.net] m := by
  unfold State.checked
  exact .set

theorem quarantineExpiry_accepts (s : State) (disc : s.time.disc = .quarantine) (due : 8 ≤ s.time.quarSyncs) (agrees : s.net.pathCheck = true) :
    ∃ t, Changes .quarantineExpiry s t [.time, .net] [(.time, 0), (.time, 3)] ∧ t.raised .time 0 = true ∧ t.raised .time 3 = true ∧
      t.time.disc = .locked ∧ t.time.asymmetry = false ∧ t.time.pending = 0 ∧ t.time.residual = -s.time.pending * 100000 ∧
      t.net = { s.net with frozen := false } := by
  obtain ⟨u, slews⟩ : ∃ u, u = s.relocked.slewBy (-s.time.pending) := ⟨_, rfl⟩
  have step : exec .quarantineExpiry s = .next ((u.setEvent .time 3).checked true) := by
    rw [exec_quarantineExpiry disc due, agrees, State.quarantineEnd_accepts disc, slews, State.relocked]
  have moved : Moves s u [.time] [(.time, 0), (.time, 3)] := slews ▸ s.moves_relocked.stay.trans (s.relocked.moves_slewBy _ _)
  have raised : u.raised .time 0 = true := slews ▸ (s.relocked.moves_slewBy _ []).raised (State.raised_discTo _ _ (by decide))
  have checked := (u.setEvent .time 3).moves_checked true [(.time, 0), (.time, 3)]
  have told : Moves s (u.setEvent .time 3) [.time, .net] [(.time, 0), (.time, 3)] := (moved.setEvent .time 3 (by decide) (by simp)).stay
  obtain ⟨v, slewed⟩ := s.relocked.slewBy_residual (-s.time.pending)
  have time : ((u.setEvent .time 3).checked true).time =
      { ({ s.time with asymmetry := false } : TimeBlk).entered .locked with residual := -s.time.pending * 100000, slew := v } := by
    rw [checked.time, State.time_setEvent, slews, slewed, State.relocked, State.time_discTo]
  have net : ((u.setEvent .time 3).checked true).net = { s.net with frozen := false } := by
    rw [State.checked, State.net_setEvent, moved.net]
    rfl
  refine ⟨_, (told.trans checked.stay).changes step, checked.raised ((u.raises_setEvent .time 3 (by decide)).1 _ _ raised),
    checked.raised (State.raised_setEvent _ _ _ (by decide)), ?_⟩
  rw [time]
  exact ⟨rfl, rfl, rfl, rfl, net⟩

theorem State.event_checked (s : State) (ok : Bool) : (s.checked ok).event = s.event := rfl
theorem State.bare_checked (s : State) (ok : Bool) : (s.checked ok).bare = s.bare.checked ok := rfl

theorem quarantineExpiry_rejects (s : State) (disc : s.time.disc = .quarantine) (due : 8 ≤ s.time.quarSyncs) (differs : s.net.pathCheck = false) :
    RunsTo .quarantineExpiry s { s with
      time := { s.time with disc := .holdover, asymmetry := true, pending := 0, holdTicks := 0, expired := false }
      net := s.net.checked false } [(.time, 1), (.time, 4)] := by
  obtain ⟨u, holds⟩ : ∃ u : State, u = { s with
    time := { s.time with disc := .holdover, asymmetry := true, pending := 0, holdTicks := 0, expired := false } } := ⟨_, rfl⟩
  have step : exec .quarantineExpiry s = .next (((u.setEvent .time 1).setEvent .time 4).checked false) := by
    rw [exec_quarantineExpiry disc due, differs, State.quarantineEnd_rejects disc, State.discTo_eq, holds]
    rfl
  have raises := ((u.raises_setEvent .time 1 (by decide)).setEvent .time 4 (by decide)).from (s := s) (by rw [holds])
  refine .mk _ step ?_ (raises.trans (State.Raises.of_event (State.event_checked _ false)))
  rw [State.bare_checked, State.bare_setEvent, State.bare_setEvent, holds]
  rfl

theorem holdoverExpired_expires (s : State) (disc : s.time.disc = .holdover) (due : 60000000 ≤ s.time.holdTicks) (fresh : s.time.expired = false) :
    RunsTo .holdoverExpired s { s with time := { s.time with expired := true } } [(.time, 5)] :=
  .setEvent (if_pos ⟨disc, due, by simp [fresh]⟩) rfl (by decide)

theorem slewDone_ends (s : State) (rest : s.time.residual.natAbs ≤ s.time.slew.natAbs) :
    RunsTo .slewDone s { s with time := { s.time with residual := 0, slew := 0 } } [] := .quiet (if_pos rest) rfl

theorem slewDone_early (s : State) (more : s.time.slew.natAbs < s.time.residual.natAbs) : RunsTo .slewDone s s [] :=
  .quiet (if_neg (by omega)) rfl

/-! Time without a grandmaster (06 R170). -/

theorem syncWaitExpiry_starts (s : State) (a b : Nat) (lanes : s.cfg.lanes = true) (unsettled : s.cfg.settled = false)
    (disc : s.time.disc = .freeRun) (newest : s.newestCommit = some (a, b)) (waited : Bits.get s.time.cfg 0 8 * 1000000000 ≤ s.time.total) :
    RunsTo .syncWaitExpiry s { s with
      time := s.time.setTotal (a * 1000000000 + b + s.time.total), cfg := { s.cfg with settled := true } } [] := by
  refine .quiet ?_ rfl
  change execSyncWaitExpiry s = _
  simp only [execSyncWaitExpiry, newest]
  exact if_neg (by simp [lanes, unsettled, disc, waited])

/-- Settles O31: a Sync acts on the discipline when it is the selected master's; a quarantine ends in LOCKED or in HOLDOVER as the path
check says; the timers end a holdover, a slew and the wait for a grandmaster. -/
theorem discipline : Obligations.Discipline :=
  ⟨sync_acquires, sync_other, sync_quarantines, syncTimeout_holds, quarantineExpiry_early, quarantineExpiry_accepts, quarantineExpiry_rejects,
    holdoverExpired_expires, slewDone_ends, slewDone_early, syncWaitExpiry_starts⟩

end Sys2Proof.Machine

namespace Sys2Proof.Machine
set_option Elab.async false

/-! The angle clocks and their shaft inputs (06 R175-R179, 09 R286, R287). -/

/-! Gaining and losing lock (06 R179). -/

theorem AngleClock.locked_iff (x : AngleClock) : x.locked = true ↔ x.state = .locked := by simp [AngleClock.locked]

/-- The state with one angle clock put. -/
def State.withClock (s : State) (c : Nat) (x : AngleClock) : State := { s with time := s.time.setClock c x }

theorem State.acPut_gains {s : State} {c : Nat} {x : AngleClock} (was : (s.time.clock c).locked = false) (now : x.locked = true) :
    s.acPut c x = (s.withClock c x).setEvent .time 7 := by
  simp [State.acPut, State.withClock, was, now]

theorem State.acPut_loses {s : State} {c : Nat} {x : AngleClock} (was : (s.time.clock c).locked = true) (now : x.locked = false) :
    s.acPut c x = (s.withClock c x).setEvent .time 8 := by
  simp [State.acPut, State.withClock, was, now]

theorem State.acPut_keeps {s : State} {c : Nat} {x : AngleClock} (same : x.locked = (s.time.clock c).locked) :
    s.acPut c x = s.withClock c x := by
  cases h : (s.time.clock c).locked <;> simp [State.acPut, State.withClock, same, h]

theorem State.time_acPut (s : State) (c : Nat) (x : AngleClock) : (s.acPut c x).time = s.time.setClock c x := by
  unfold State.acPut
  dsimp only
  split
  · rw [State.time_setEvent]
  · split
    · rw [State.time_setEvent]
    · rfl

/-! Mains clocks (06 R175). -/

/-- With AC0 on a mains phase and AC1 off, AC0 alone follows the trackers. -/
theorem State.mainsJudge_phase {s : State} (phase : (s.time.clock 0).mode = 1) (off : (s.time.clock 1).mode = 0) :
    s.mainsJudge = s.acPut 0 { s.time.clock 0 with state := if s.mainsLocked (s.time.clock 0) then .locked else .search } := by
  have other : ∀ x, (s.acPut 0 x).time.clock 1 = s.time.clock 1 := fun x => by
    rw [State.time_acPut, TimeBlk.clock_setClock_ne _ _ (by decide)]
  simp only [State.mainsJudge, List.foldl_cons, List.foldl_nil, phase, true_or, if_true, other, off]
  rfl

/-- The state with the tracker of one grid-sense input locked or not. -/
def State.tracker (s : State) (g : Nat) (locked : Bool) : State :=
  { s with aio := s.aio.setGs g { s.aio.getGs g with locked := locked } }

theorem State.mainsLocked_tracker {s : State} {g : Nat} {x : AngleClock} (b : Bool) (phase : x.mode = 1) (source : x.srcA = g)
    (single : b = true → x.diff = false) : (s.tracker g b).mainsLocked x = b := by
  cases b with
  | false => simp [State.mainsLocked, State.tracker, phase, source]
  | true => simp [State.mainsLocked, State.tracker, phase, source, single rfl]

/-- AC0 takes the lock of the tracker that it follows. -/
theorem State.mainsJudge_tracker {s : State} {g : Nat} (b : Bool) (phase : (s.time.clock 0).mode = 1) (source : (s.time.clock 0).srcA = g)
    (off : (s.time.clock 1).mode = 0) (single : b = true → (s.time.clock 0).diff = false) :
    (s.tracker g b).mainsJudge = (s.tracker g b).acPut 0 { s.time.clock 0 with state := if b then .locked else .search } :=
  (State.mainsJudge_phase (s := s.tracker g b) phase off).trans
    (congrArg (fun l : Bool => (s.tracker g b).acPut 0 { s.time.clock 0 with state := if l then .locked else .search })
      (State.mainsLocked_tracker b phase source single))

theorem mainsLock_locks (s : State) (g : Fin 4) (phase : (s.time.clock 0).mode = 1) (single : (s.time.clock 0).diff = false)
    (source : (s.time.clock 0).srcA = g) (was : (s.time.clock 0).locked = false) (off : (s.time.clock 1).mode = 0) :
    RunsTo (.mainsLock g) s { s with aio := s.aio.setGs g { s.aio.getGs g with locked := true }
                                     time := s.time.setClock 0 { s.time.clock 0 with state := .locked } } [(.time, 7)] := by
  have step : exec (.mainsLock g) s = .next (s.tracker g true).mainsJudge := rfl
  rw [State.mainsJudge_tracker true phase source off (fun _ => single), State.acPut_gains (by exact was) rfl] at step
  exact .setEvent step rfl (by decide)

theorem mainsUnlock_unlocks (s : State) (g : Fin 4) (phase : (s.time.clock 0).mode = 1) (source : (s.time.clock 0).srcA = g)
    (was : (s.time.clock 0).locked = true) (off : (s.time.clock 1).mode = 0) :
    RunsTo (.mainsUnlock g) s { s with aio := s.aio.setGs g { s.aio.getGs g with locked := false }
                                       time := s.time.setClock 0 { s.time.clock 0 with state := .search } } [(.time, 8)] := by
  have step : exec (.mainsUnlock g) s = .next (s.tracker g false).mainsJudge := rfl
  rw [State.mainsJudge_tracker false phase source off (fun h => absurd h Bool.false_ne_true), State.acPut_loses (by exact was) rfl] at step
  exact .setEvent step rfl (by decide)

/-! Reference, standstill and overspeed of a shaft clock (06 R177-R179). -/

/-- A Z edge gives a clock that has no reference its position. -/
theorem zEdge_references (s : State) (sh : Fin 2) (off : Fin 10000) (i : Nat) (uses : s.time.shaftClock sh = some i)
    (lines : (s.aio.getSh sh).lineFault = false) (counts : (s.time.clock i).cpt ≠ 0)
    (free : (s.time.clock i).state = .search ∨ (s.time.clock i).state = .unreferenced) :
    RunsTo (.zEdge sh off) s { s with time := s.time.setClock i { s.time.clock i with
      base := Bits.hi (s.time.clock i).own ++ Bits.fld (Bits.get (s.time.clock i).zcfg 16 16) 16
      cnt := 0, between := 0, held := none, refErr := false, state := .locked } } [(.time, 7)] := by
  have unlocked : (s.time.clock i).locked = false := by rcases free with h | h <;> simp [AngleClock.locked, h]
  have step : exec (.zEdge sh off) s = .next (s.acPut i
      { (s.time.clock i).reference (Bits.hi (s.time.clock i).own) with refErr := false, state := .locked }) := by
    change execZEdge sh off s = _
    simp only [execZEdge, uses]
    rw [if_neg (by rcases free with h | h <;> simp [lines, counts, h]), if_neg (by rcases free with h | h <;> simp [h])]
  rw [State.acPut_gains unlocked rfl] at step
  exact .setEvent step rfl (by decide)

theorem shaftStandstill_due (s : State) (sh : Fin 2) (i : Nat) (uses : s.time.shaftClock sh = some i) (was : (s.time.clock i).state = .locked)
    (due : ∀ e, (s.time.clock i).since = some e → ((Bits.get (s.time.clock i).zcfg 0 8 * 10000000 : Nat) : Int) < e + 10000) :
    RunsTo (.shaftStandstill sh) s { s with time := s.time.setClock i { s.time.clock i with
      state := .standstill, rate := 0, between := (s.time.clock i).betweenAt 0 } } [(.time, 8)] := by
  have step : exec (.shaftStandstill sh) s = .next (s.acPut i { s.time.clock i with
      state := .standstill, rate := 0, between := (s.time.clock i).betweenAt 0 }) := by
    change execShaftStandstill sh s = _
    simp only [execShaftStandstill, uses, was]
    refine if_pos ?_
    cases since : (s.time.clock i).since with
    | none => rfl
    | some e => simpa using due e since
  rw [State.acPut_loses ((AngleClock.locked_iff _).mpr was) rfl] at step
  exact .setEvent step rfl (by decide)

theorem shaftStandstill_early (s : State) (sh : Fin 2) (i : Nat) (e : Int) (uses : s.time.shaftClock sh = some i)
    (since : (s.time.clock i).since = some e) (early : e + 10000 ≤ ((Bits.get (s.time.clock i).zcfg 0 8 * 10000000 : Nat) : Int)) :
    RunsTo (.shaftStandstill sh) s s [] := by
  refine .quiet ?_ rfl
  change execShaftStandstill sh s = _
  simp only [execShaftStandstill, uses, since]
  exact if_neg (by rw [decide_eq_false (not_lt.mpr early)]; simp)

/-- A clock that is locked loses its lock to an overspeed. -/
theorem shaftOverspeed_loses (s : State) (sh : Fin 2) (i : Nat) (uses : s.time.shaftClock sh = some i) (was : (s.time.clock i).state = .locked) :
    RunsTo (.shaftOverspeed sh) s { s with time := s.time.setClock i { s.time.clock i with state := .overspeed, held := none } }
      [(.time, 8), (.time, 10)] := by
  have step : exec (.shaftOverspeed sh) s =
      .next ((s.acPut i { s.time.clock i with state := .overspeed, held := none }).setEvent .time 10) := by
    change execShaftOverspeed sh s = _
    simp only [execShaftOverspeed, uses, was]
    rfl
  rw [State.acPut_loses ((AngleClock.locked_iff _).mpr was) rfl] at step
  exact .mk _ step (by rw [State.bare_setEvent, State.bare_setEvent]; rfl)
    (((State.raises_setEvent _ .time 8 (by decide)).setEvent .time 10 (by decide)).from rfl)

/-! Count edges (06 R177, 09 R287). -/

/-- Does an edge `off` ns into the station tick come within 250 ns of the last one? -/
def AngleClock.edgeSoon (k : AngleClock) (off : Nat) : Bool :=
  match k.since with
  | some e => decide ((e + off).toNat < 250)
  | none => false

/-- The rate that an edge `off` ns into the station tick gives a clock that counts forward (06 R174). -/
def AngleClock.edgeRate (k : AngleClock) (off : Nat) : Int :=
  match k.since with
  | some e => 65536000000000 / ((k.cpt * max 250 (e + off).toNat : Nat) : Int)
  | none => 0

/-- A LOCKED clock after a count forward. -/
def AngleClock.countedForward (k : AngleClock) (off : Nat) : AngleClock :=
  { k with cnt := k.cnt + 1, between := 0, since := some (-(off : Int)), back := false, rate := k.edgeRate off
           state := if k.edgeSoon off then .overspeed else .locked, held := if k.edgeSoon off then none else k.held }

/-- A held position is given up where the clock's own is another (06 R178). -/
def AngleClock.released (y : AngleClock) : AngleClock :=
  match y.held with
  | some h => if y.own = h then y else { y with held := none }
  | none => y

theorem AngleClock.released_held (y : AngleClock) : ∃ h, y.released = { y with held := h } := by
  unfold AngleClock.released
  split
  · split
    · exact ⟨y.held, rfl⟩
    · exact ⟨none, rfl⟩
  · exact ⟨y.held, rfl⟩

theorem AngleClock.settle_corr (was k : AngleClock) (n : Nat) : ∃ c, was.settle k n = { k with corr := c } := ⟨_, rfl⟩

/-- Line A of an input whose lines were low rises: one count forward. -/
def State.lineARisen (s : State) (sh : Nat) : State :=
  { s with aio := s.aio.setSh sh { s.aio.getSh sh with a := true, b := false, valid := true, count := (s.aio.getSh sh).count + 1#32 }
           free := s.free + 1 }

/-- Line A rising before line B counts one forward on a QUADRATURE clock; an edge that comes too soon is an overspeed. -/
theorem exec_shaftCountEdge_forward {s : State} {sh : Fin 2} {i : Nat} (ns : Fin 10000) (uses : s.time.shaftClock sh = some i)
    (mode : (s.time.clock i).mode = 3) (was : (s.time.clock i).state = .locked) (a : (s.aio.getSh sh).a = false) (b : (s.aio.getSh sh).b = false) :
    exec (.shaftCountEdge sh true false ns) s =
      .next (((s.lineARisen sh).acPut i ((s.time.clock i).settle ((s.time.clock i).countedForward ns).released s.free)).setEventIf
        ((s.time.clock i).edgeSoon ns) .time 10) := by
  have forward : countStep (s.time.clock i).mode (Bits.bit (s.time.clock i).cfg 27) (s.aio.getSh sh).a (s.aio.getSh sh).b true false = 1 := by
    rw [mode, a, b]
    rfl
  have other : (AcState.locked != AcState.overspeed) = true := rfl
  change execShaftCountEdge sh true false ns s = _
  unfold execShaftCountEdge
  simp only [uses, forward, was]
  rw [if_neg (show ¬ (1 : Int) = 0 by decide)]
  unfold AngleClock.countedForward AngleClock.edgeRate AngleClock.edgeSoon
  cases (s.time.clock i).since with
  | none => rfl
  | some e =>
    simp only [Option.map, other, Bool.and_true, Int.one_mul]
    rfl

/-- The clock that an edge forward leaves counts it, whatever is held and whatever of a correction is left. -/
theorem AngleClock.countedForward_fields (k : AngleClock) (off n : Nat) : ∃ y, y = k.settle (k.countedForward off).released n ∧
    y.cnt = k.cnt + 1 ∧ y.back = false ∧ y.base = k.base ∧ y.state = (if k.edgeSoon off then .overspeed else .locked) := by
  obtain ⟨h, released⟩ := (k.countedForward off).released_held
  obtain ⟨c, settled⟩ := k.settle_corr (k.countedForward off).released n
  refine ⟨_, rfl, ?_⟩
  rw [settled, released]
  exact ⟨rfl, rfl, rfl, rfl⟩

theorem shaftCountEdge_counts (s : State) (sh : Fin 2) (i : Nat) (ns : Fin 10000) (uses : s.time.shaftClock sh = some i)
    (mode : (s.time.clock i).mode = 3) (was : (s.time.clock i).state = .locked) (a : (s.aio.getSh sh).a = false) (b : (s.aio.getSh sh).b = false)
    (gap : ∀ e, (s.time.clock i).since = some e → 250 ≤ e + (ns.val : Int)) :
    ∃ t, Changes (.shaftCountEdge sh true false ns) s t [.aio, .time] [] ∧ (t.time.clock i).cnt = (s.time.clock i).cnt + 1 ∧
      (t.time.clock i).back = false ∧ (t.time.clock i).state = .locked ∧ (t.time.clock i).base = (s.time.clock i).base ∧
      t.aio.getSh sh = { s.aio.getSh sh with a := true, b := false, valid := true, count := (s.aio.getSh sh).count + 1#32 } := by
  have slow : (s.time.clock i).edgeSoon ns = false := by
    unfold AngleClock.edgeSoon
    split
    · next e since => have := gap e since; simp; omega
    · rfl
  have step := exec_shaftCountEdge_forward ns uses mode was a b
  obtain ⟨y, edge, cnt, back, base, state⟩ := (s.time.clock i).countedForward_fields ns s.free
  rw [← edge, slow] at step
  rw [slow] at state
  have locked : y.locked = (s.time.clock i).locked := by rw [AngleClock.locked, AngleClock.locked, state, was]; rfl
  rw [State.acPut_keeps (by exact locked)] at step
  have clock : (((s.lineARisen sh).withClock i y).time.clock i) = y := TimeBlk.clock_setClock _ _ _
  have moved : Moves s ((s.lineARisen sh).withClock i y) [.aio, .time] [] := by
    unfold State.withClock State.lineARisen
    exact .set
  refine ⟨(s.lineARisen sh).withClock i y, moved.changes step, ?_, ?_, ?_, ?_, Aio.getSh_setSh _ _ _⟩
  all_goals rw [clock]; assumption

theorem shaftCountEdge_overspeeds (s : State) (sh : Fin 2) (i : Nat) (ns : Fin 10000) (e : Int) (uses : s.time.shaftClock sh = some i)
    (mode : (s.time.clock i).mode = 3) (was : (s.time.clock i).state = .locked) (a : (s.aio.getSh sh).a = false) (b : (s.aio.getSh sh).b = false)
    (since : (s.time.clock i).since = some e) (soon : e + (ns.val : Int) < 250) :
    ∃ t, Changes (.shaftCountEdge sh true false ns) s t [.aio, .time] [(.time, 8), (.time, 10)] ∧ t.raised .time 10 = true ∧
      t.raised .time 8 = true ∧ (t.time.clock i).cnt = (s.time.clock i).cnt + 1 ∧ (t.time.clock i).state = .overspeed := by
  have fast : (s.time.clock i).edgeSoon ns = true := by
    simp only [AngleClock.edgeSoon, since]
    exact decide_eq_true (by omega)
  have step := exec_shaftCountEdge_forward ns uses mode was a b
  obtain ⟨y, edge, cnt, -, -, state⟩ := (s.time.clock i).countedForward_fields ns s.free
  rw [← edge, fast] at step
  rw [fast] at state
  have unlocked : y.locked = false := by rw [AngleClock.locked, state]; rfl
  rw [State.acPut_loses (by exact (AngleClock.locked_iff _).mpr was) unlocked] at step
  have moved : Moves s ((s.lineARisen sh).withClock i y) [.aio, .time] [(.time, 8), (.time, 10)] := by
    unfold State.withClock State.lineARisen
    exact .set
  have clock : ((((s.lineARisen sh).withClock i y).setEvent .time 8).setEvent .time 10).time.clock i = y := by
    rw [State.time_setEvent, State.time_setEvent]
    exact TimeBlk.clock_setClock _ _ _
  refine ⟨(((s.lineARisen sh).withClock i y).setEvent .time 8).setEvent .time 10,
    ((moved.setEvent .time 8 (by decide) (by simp)).setEvent .time 10 (by decide) (by simp)).changes step,
    State.raised_setEvent _ _ _ (by decide), (State.raises_setEvent _ .time 10 (by decide)).1 _ _ (State.raised_setEvent _ _ _ (by decide)), ?_, ?_⟩
  all_goals rw [clock]; assumption

/-! Diagnostics of a shaft input (09 R286). -/

theorem State.acUnreference_none {s : State} {sh : Nat} (unused : s.time.shaftClock sh = none) : s.acUnreference sh = s := by
  simp only [State.acUnreference, unused]

/-- A clock that is locked loses its lock and its reference to a line fault. -/
theorem State.acUnreference_locked {s : State} {sh i : Nat} (uses : s.time.shaftClock sh = some i) (was : (s.time.clock i).locked = true) :
    s.acUnreference sh =
      ((s.withClock i { s.time.clock i with state := .unreferenced, refErr := true, held := none }).setEvent .time 8).setEvent .time 9 := by
  simp only [State.acUnreference, uses]
  rw [State.acPut_loses was rfl]

/-- The state with a shaft input put. -/
def State.withShaft (s : State) (sh : Nat) (x : ShaftIn) : State := { s with aio := s.aio.setSh sh x }

theorem exec_shaftLineFault {s : State} {sh : Fin 2} (fresh : (s.aio.getSh sh).lineFault = false) (watched : Bits.bit (s.aio.getSh sh).cfg 31 = false) :
    exec (.shaftLineFault sh true) s = .next (((s.withShaft sh { s.aio.getSh sh with lineFault := true }).acUnreference sh).report .aio 17 sh
      ({ s.aio.getSh sh with lineFault := true } : ShaftIn).status) := by
  change execShaftLineFault sh true s = _
  unfold execShaftLineFault
  dsimp only
  rw [if_neg (by simp [fresh, watched])]
  rfl

/-- A diagnostic of a shaft input that takes no clock's reference is reported alone. -/
theorem RunsTo.shaftReport {i : Instr} {s : State} {sh n : Nat} {x : ShaftIn} {w : Word} (e : exec i s = .next ((s.withShaft sh x).report .aio n sh w))
    (hn : n < 32) : RunsTo i s { s with aio := s.aio.setSh sh x } [(.aio, n)] :=
  .mk _ e (State.bare_report _ _ _ _ _) (((s.withShaft sh x).raises_report .aio n sh w hn).from rfl)

/-- A line fault that takes a clock's lock and reference sets their bits before it is reported. -/
theorem RunsTo.lineFault {i : Instr} {s u : State} {sh : Nat} {w : Word}
    (e : exec i s = .next (((u.setEvent .time 8).setEvent .time 9).report .aio 17 sh w)) (he : u.event = s.event) :
    RunsTo i s u [(.aio, 17), (.time, 8), (.time, 9)] := by
  have raises := (((u.raises_setEvent .time 8 (by decide)).setEvent .time 9 (by decide)).report .aio 17 sh w (by decide)).from he
  exact .mk _ e (by rw [State.bare_report, State.bare_setEvent, State.bare_setEvent]) (raises.congr (by simp [or_comm, or_assoc]))

theorem shaftLineFault_unused (s : State) (sh : Fin 2) (unused : s.time.shaftClock sh = none) (fresh : (s.aio.getSh sh).lineFault = false)
    (watched : Bits.bit (s.aio.getSh sh).cfg 31 = false) :
    RunsTo (.shaftLineFault sh true) s { s with aio := s.aio.setSh sh { s.aio.getSh sh with lineFault := true } } [(.aio, 17)] := by
  have step := exec_shaftLineFault fresh watched
  rw [State.acUnreference_none (by exact unused)] at step
  exact .shaftReport step (by decide)

theorem shaftLineFault_unreferences (s : State) (sh : Fin 2) (i : Nat) (uses : s.time.shaftClock sh = some i)
    (was : (s.time.clock i).locked = true) (fresh : (s.aio.getSh sh).lineFault = false) (watched : Bits.bit (s.aio.getSh sh).cfg 31 = false) :
    RunsTo (.shaftLineFault sh true) s { s with
      aio := s.aio.setSh sh { s.aio.getSh sh with lineFault := true }
      time := s.time.setClock i { s.time.clock i with state := .unreferenced, refErr := true, held := none } }
      [(.aio, 17), (.time, 8), (.time, 9)] := by
  have step := exec_shaftLineFault fresh watched
  rw [State.acUnreference_locked (by exact uses) (by exact was)] at step
  exact .lineFault step rfl

theorem quadErr_unused (s : State) (sh : Fin 2) (unused : s.time.shaftClock sh = none) :
    RunsTo (.quadErr sh) s { s with aio := s.aio.setSh sh { s.aio.getSh sh with
      quadErr := true, quadCnt := Bits.inc (s.aio.getSh sh).quadCnt } } [(.aio, 18)] := by
  have step : exec (.quadErr sh) s = .next (((s.withShaft sh { s.aio.getSh sh with
      quadErr := true, quadCnt := Bits.inc (s.aio.getSh sh).quadCnt }).acUnreference sh).report .aio 18 sh
      ({ s.aio.getSh sh with quadErr := true, quadCnt := Bits.inc (s.aio.getSh sh).quadCnt } : ShaftIn).status) := by
    change execQuadErr sh s = _
    simp only [execQuadErr, unused]
    rfl
  rw [State.acUnreference_none (by exact unused)] at step
  exact .shaftReport step (by decide)

theorem encSupplyFault_reports (s : State) (sh : Fin 2) (fresh : (s.aio.getSh sh).encSupply = false) :
    RunsTo (.encSupplyFault sh true) s { s with aio := s.aio.setSh sh { s.aio.getSh sh with encSupply := true } } [(.aio, 19)] := by
  refine .shaftReport (w := ({ s.aio.getSh sh with encSupply := true } : ShaftIn).status) ?_ (by decide)
  change execEncSupplyFault sh true s = _
  unfold execEncSupplyFault
  dsimp only
  rw [if_neg (by simp [fresh])]
  rfl

/-- Settles O32: trackers give and take the lock of a mains clock; a Z edge references a shaft clock, and a standstill, an overspeed or a
line fault takes its lock; the other diagnostics of a shaft input are reported. -/
theorem angleClocks : Obligations.AngleClocks :=
  ⟨mainsLock_locks, mainsUnlock_unlocks, zEdge_references, shaftStandstill_due, shaftStandstill_early, shaftOverspeed_loses,
    fun s sh i ns uses mode was a b _ gap => shaftCountEdge_counts s sh i ns uses mode was a b gap,
    fun s sh i ns e uses mode was a b since _ soon => shaftCountEdge_overspeeds s sh i ns e uses mode was a b since soon,
    shaftLineFault_unused, shaftLineFault_unreferences, quadErr_unused, encSupplyFault_reports⟩

end Sys2Proof.Machine

namespace Sys2Proof.Machine
set_option Elab.async false

/-! Angle-event slots and edge captures (06 R183-R186, R189, R191). -/

/-! Fixing a slot (06 R184, R187, R191). -/

/-- The angle clock of a slot. -/
def State.slotClock (s : State) (n : Nat) : AngleClock := s.time.clock (s.time.slot n).content.clock

/-- The state with one slot put. -/
def State.withSlot (s : State) (n : Nat) (x : AngleSlot) : State := { s with time := s.time.setSlot n x }

theorem State.slotCounts_iff (s : State) (n : Nat) : s.slotCounts (s.time.slot n) = true ↔
    (s.slotClock n).locked = true ∧ (s.time.slot n).content.rateOk (s.slotClock n).rateNow = true := by
  simp [State.slotCounts, State.slotClock]

/-- A crossing that no prediction gave is fixed at the next fine tick. -/
theorem State.slotDue_passed {s : State} {n : Nat} (passed : (s.time.slot n).passed (s.slotClock n).seen (s.slotClock n).pos = true) :
    s.slotDue (s.time.slot n) = some (s.nowNs / 10 * 10 + 10) := if_pos passed

/-- A predicted crossing less than 30 µs ahead is fixed at the fine tick that reaches the target. -/
theorem State.slotDue_predicted {s : State} {n d : Nat} (ahead : (s.time.slot n).passed (s.slotClock n).seen (s.slotClock n).pos = false)
    (predicted : predictNs ((s.time.slot n).targetPos (s.slotClock n).pos) (s.slotClock n).pos (s.slotClock n).rateNow = some d)
    (soon : d < 30000) (admits : (s.time.slot n).content.admits (s.slotClock n).rateNow = true) :
    s.slotDue (s.time.slot n) = some ((s.nowNs + d + 9) / 10 * 10) := by
  unfold State.slotClock at *
  unfold State.slotDue
  dsimp only
  rw [if_neg (by simp [ahead]), predicted]
  exact if_pos (by simp [soon, admits])

theorem exec_slotFix {s : State} {n : Fin 256} {tang : Nat} (armed : (s.time.slot n).state = .armed)
    (counts : s.slotCounts (s.time.slot n) = true) (fixes : s.fixesSlots = true) (due : s.slotDue (s.time.slot n) = some tang) :
    exec (.slotFix n) s = .next (s.slotFixAt n tang (s.slotClock n).seen) := by
  change execSlotFix n s = _
  unfold execSlotFix
  dsimp only
  rw [if_pos ⟨armed, counts, fixes⟩, due]
  rfl

theorem State.leads_severed {s : State} (link : s.twin.link = .severed) : s.leads = false := by simp [State.leads, link]

/-- The state with a slot FIXED at an instant. -/
def State.slotFixed (s : State) (n tang : Nat) (p : DWord) : State := s.withSlot n ((s.time.slot n).fix tang p)

theorem slotFix_alone (s : State) (n : Fin 256) (armed : (s.time.slot n).state = .armed) (locked : (s.slotClock n).locked = true)
    (rate : (s.time.slot n).content.rateOk (s.slotClock n).rateNow = true) (link : s.twin.link = .severed)
    (passed : (s.time.slot n).passed (s.slotClock n).seen (s.slotClock n).pos = true) :
    RunsTo (.slotFix n) s { s with time := s.time.setSlot n { s.time.slot n with
      state := .fixed, tang := s.nowNs / 10 * 10 + 10
      tangTurn := Bits.hi ((s.time.slot n).targetPos (s.slotClock n).seen) } } [] := by
  have step := exec_slotFix armed ((s.slotCounts_iff n).mpr ⟨locked, rate⟩) (by simp [State.fixesSlots, link]) (State.slotDue_passed passed)
  have silent : ∀ tang p, s.slotFixAt n tang p = s.slotFixed n tang p := fun tang p =>
    if_neg (by rw [State.leads_severed (by exact link)]; decide)
  rw [silent] at step
  exact .quiet step rfl

/-- A LEAD tells the instant to its SHADOW. -/
theorem State.slotFixAt_leads {s : State} {n : Nat} {tang : Nat} {p : DWord} (leads : s.leads = true) :
    s.slotFixAt n tang p = (s.slotFixed n tang p).olvia (.seq (.slot n tang)) := if_pos leads

theorem State.time_olvia (s : State) (o : OlviaOut) : (s.olvia o).time = s.time := (s.moves_olvia o []).time

theorem slotFix_leads (s : State) (n : Fin 256) (d : Nat) (armed : (s.time.slot n).state = .armed) (locked : (s.slotClock n).locked = true)
    (rate : (s.time.slot n).content.rateOk (s.slotClock n).rateNow = true) (leads : s.leads = true)
    (ahead : (s.time.slot n).passed (s.slotClock n).seen (s.slotClock n).pos = false)
    (predicted : predictNs ((s.time.slot n).targetPos (s.slotClock n).pos) (s.slotClock n).pos (s.slotClock n).rateNow = some d)
    (soon : d < 30000) (admits : (s.time.slot n).content.admits (s.slotClock n).rateNow = true) :
    ∃ t, Changes (.slotFix n) s t [.time, .twin] [] ∧ (t.time.slot n).state = .fixed ∧ (t.time.slot n).tang = (s.nowNs + d + 9) / 10 * 10 ∧
      (s.twin.linkUp = true → t.twin.sent = s.twin.sent ++ [.seq (.slot n ((s.nowNs + d + 9) / 10 * 10))]) := by
  have fixes : s.fixesSlots = true := by simp [State.fixesSlots, State.holdsToken_of_leads leads]
  have step := exec_slotFix armed ((s.slotCounts_iff n).mpr ⟨locked, rate⟩) fixes (State.slotDue_predicted ahead predicted soon admits)
  rw [State.slotFixAt_leads leads] at step
  obtain ⟨tang, instant⟩ : ∃ tang, tang = (s.nowNs + d + 9) / 10 * 10 := ⟨_, rfl⟩
  rw [← instant] at step ⊢
  have fixed : Moves s (s.slotFixed n tang (s.slotClock n).seen) [.time, .twin] [] := by
    unfold State.slotFixed State.withSlot
    exact .set
  have slot : ((s.slotFixed n tang (s.slotClock n).seen).olvia (.seq (.slot n tang))).time.slot n = (s.time.slot n).fix tang (s.slotClock n).seen := by
    rw [State.time_olvia]
    exact TimeBlk.slot_setSlot _ _ _
  refine ⟨_, (fixed.trans (State.moves_olvia _ _ []).stay).changes step, ?_, ?_, fun up => ?_⟩
  · rw [slot]
    rfl
  · rw [slot]
    rfl
  · rw [State.olvia_up _ _ (by exact up)]
    rfl

theorem slotFix_early (s : State) (n : Fin 256) (early : s.slotDue (s.time.slot n) = none) : RunsTo (.slotFix n) s s [] := by
  refine .quiet ?_ rfl
  change execSlotFix n s = _
  unfold execSlotFix
  dsimp only
  rw [early]
  exact ite_self _

/-! Missed crossings (06 R183, R184). -/

theorem exec_slotMissed {s : State} {n : Fin 256} (armed : (s.time.slot n).state = .armed) (missed : s.slotCounts (s.time.slot n) = false)
    (passed : (s.time.slot n).passed (s.slotClock n).seen ((s.slotClock n).posAt 10000) = true) :
    exec (.slotMissed n) s = .next (s.slotMissed n) := if_pos ⟨armed, by simp [missed], passed⟩

theorem slotMissed_unlocked (s : State) (n : Fin 256) (armed : (s.time.slot n).state = .armed) (unlocked : (s.slotClock n).locked = false)
    (once : (s.time.slot n).content.every = false)
    (passed : (s.time.slot n).passed (s.slotClock n).seen ((s.slotClock n).posAt 10000) = true) :
    RunsTo (.slotMissed n) s { s with time := { s.time.setSlot n { s.time.slot n with state := .missed, reason := 3 } with
      missCnt := Bits.inc s.time.missCnt } } [(.time, 11)] := by
  have missed : s.slotCounts (s.time.slot n) = false := by
    rw [Bool.eq_false_iff, ne_eq, State.slotCounts_iff]
    simp [unlocked]
  have step := exec_slotMissed armed missed passed
  unfold State.slotClock at unlocked
  simp only [State.slotMissed, once, unlocked, Bool.false_eq_true, if_false] at step
  exact .setEvent step rfl (by decide)

theorem slotMissed_rate (s : State) (n : Fin 256) (armed : (s.time.slot n).state = .armed) (locked : (s.slotClock n).locked = true)
    (rate : (s.time.slot n).content.rateOk (s.slotClock n).rateNow = false) (every : (s.time.slot n).content.every = true)
    (passed : (s.time.slot n).passed (s.slotClock n).seen ((s.slotClock n).posAt 10000) = true) :
    RunsTo (.slotMissed n) s { s with time := { s.time.setSlot n { s.time.slot n with reason := 4 } with
      missCnt := Bits.inc s.time.missCnt } } [] := by
  have missed : s.slotCounts (s.time.slot n) = false := by
    rw [Bool.eq_false_iff, ne_eq, State.slotCounts_iff]
    simp [rate]
  have step := exec_slotMissed armed missed passed
  unfold State.slotClock at locked
  simp only [State.slotMissed, every, locked, if_true] at step
  exact .quiet step rfl

/-! Actions (06 R185, R186). -/

/-- A DIO is switched at an instant by a slot: the action is kept, and the channel takes it as a demand. -/
def State.dioSwitched (s : State) (target ns : Nat) (on : Bool) : State :=
  { s with time := { s.time with lastAct := Tbl.set none s.time.lastAct target (some (ns, on)) }
           dio := s.dio.slot s.tickNo s.time.sec.toNat target on }

/-- A switching on is dropped after any action on its channel at its instant, a switching off after a switching off. -/
def State.SlotDone (s : State) (target ns : Nat) (on : Bool) : Prop :=
  ∃ was, Tbl.get none s.time.lastAct target = some (ns, was) ∧ (on = true ∨ was = false)

theorem State.slotDone_withSlot {s : State} {n target ns : Nat} {x : AngleSlot} {on : Bool} :
    (s.withSlot n x).SlotDone target ns on ↔ s.SlotDone target ns on := Iff.rfl

theorem State.slotDone_off {s : State} {target ns : Nat} (done : s.SlotDone target ns false) :
    Tbl.get none s.time.lastAct target = some (ns, false) := by
  obtain ⟨was, last, drops⟩ := done
  rw [last, drops.resolve_left Bool.false_ne_true]

theorem State.slotSwitch_dio_new {s : State} {target ns : Nat} {on : Bool} (new : ¬ s.SlotDone target ns on) :
    s.slotSwitch false target ns on = s.dioSwitched target ns on := by
  unfold State.slotSwitch
  simp only [Bool.false_eq_true, if_false]
  refine if_neg ?_
  cases last : Tbl.get none s.time.lastAct target with
  | none => simp
  | some e =>
    obtain ⟨instant, was⟩ := e
    intro done
    simp only [Bool.and_eq_true, beq_iff_eq, Bool.or_eq_true, Bool.not_eq_true'] at done
    exact new ⟨was, by rw [last, done.1], done.2⟩

theorem State.slotSwitch_dio_done {s : State} {target ns : Nat} {on : Bool} (done : s.SlotDone target ns on) :
    s.slotSwitch false target ns on = s := by
  obtain ⟨was, last, drops⟩ := done
  unfold State.slotSwitch
  simp only [Bool.false_eq_true, if_false, last]
  exact if_pos (by rcases drops with h | h <;> simp [h])

theorem exec_slotFire {s : State} {n : Fin 256} (fixed : (s.time.slot n).state = .fixed) (due : (s.time.slot n).tang < s.nowNs + 10000)
    (held : (s.time.slot n).heldNew = none) :
    exec (.slotFire n) s = .next ((s.withSlot n (s.time.slot n).fired).slotAct (s.time.slot n)) := by
  change execSlotFire n s = _
  unfold execSlotFire
  dsimp only
  rw [if_neg (by simp [fixed, due]), held]
  rfl

theorem slotFire_off (s : State) (n : Fin 256) (fixed : (s.time.slot n).state = .fixed) (due : (s.time.slot n).tang < s.nowNs + 10000)
    (held : (s.time.slot n).heldNew = none) (action : (s.time.slot n).content.action = 2)
    (last : Tbl.get none s.time.lastAct (s.time.slot n).content.target ≠ some ((s.time.slot n).tang, false)) :
    RunsTo (.slotFire n) s { s with
      time := { s.time.setSlot n (s.time.slot n).fired with
        lastAct := Tbl.set none s.time.lastAct (s.time.slot n).content.target (some ((s.time.slot n).tang, false)) }
      dio := s.dio.slot s.tickNo s.time.sec.toNat (s.time.slot n).content.target false } [] := by
  have step := exec_slotFire fixed due held
  simp only [State.slotAct, action] at step
  rw [State.slotSwitch_dio_new (mt State.slotDone_withSlot.mp fun done => last (State.slotDone_off done))] at step
  exact .quiet step rfl

theorem slotFire_pulse (s : State) (n : Fin 256) (fixed : (s.time.slot n).state = .fixed) (due : (s.time.slot n).tang < s.nowNs + 10000)
    (held : (s.time.slot n).heldNew = none) (action : (s.time.slot n).content.action = 3)
    (last : ∀ b, Tbl.get none s.time.lastAct (s.time.slot n).content.target ≠ some ((s.time.slot n).tang, b)) :
    RunsTo (.slotFire n) s { s with
      time := { s.time.setSlot n (s.time.slot n).fired with
        lastAct := Tbl.set none s.time.lastAct (s.time.slot n).content.target (some ((s.time.slot n).tang, true)) }
      dio := s.dio.slot s.tickNo s.time.sec.toNat (s.time.slot n).content.target true } [] := by
  have step := exec_slotFire fixed due held
  simp only [State.slotAct, action] at step
  rw [State.slotSwitch_dio_new (mt State.slotDone_withSlot.mp fun ⟨was, done, _⟩ => last was done)] at step
  exact .quiet step rfl

theorem slotFire_dropped (s : State) (n : Fin 256) (b : Bool) (fixed : (s.time.slot n).state = .fixed)
    (due : (s.time.slot n).tang < s.nowNs + 10000) (held : (s.time.slot n).heldNew = none) (action : (s.time.slot n).content.action = 1)
    (last : Tbl.get none s.time.lastAct (s.time.slot n).content.target = some ((s.time.slot n).tang, b)) :
    RunsTo (.slotFire n) s { s with time := s.time.setSlot n (s.time.slot n).fired } [] := by
  have step := exec_slotFire fixed due held
  simp only [State.slotAct, action] at step
  rw [State.slotSwitch_dio_done (State.slotDone_withSlot.mpr ⟨b, last, .inl rfl⟩)] at step
  exact .quiet step rfl

theorem slotFire_early (s : State) (n : Fin 256) (early : s.nowNs + 10000 ≤ (s.time.slot n).tang) : RunsTo (.slotFire n) s s [] :=
  .quiet (if_pos (.inr early)) rfl

theorem AngleSlot.fired_facts (x : AngleSlot) : x.fired.state = (if x.content.every then .armed else .fired) ∧ x.fired.fireNs = x.tang ∧
    x.fired.fireTurn = x.tangTurn ∧ x.fired.fireCount = min (x.fireCount + 1) 65535 ∧ (x.fired.pulsing = true ↔ x.content.action = 3) :=
  ⟨rfl, rfl, rfl, rfl, beq_iff_eq⟩

theorem slotPulseEnd_off (s : State) (n : Fin 256) (pulsing : (s.time.slot n).pulsing = true)
    (due : (s.time.slot n).fireNs + (s.time.slot n).content.pulse.toNat * 1000 < s.nowNs + 10000)
    (last : Tbl.get none s.time.lastAct (s.time.slot n).content.target ≠
      some ((s.time.slot n).fireNs + (s.time.slot n).content.pulse.toNat * 1000, false)) :
    RunsTo (.slotPulseEnd n) s { s with
      time := { s.time.setSlot n { s.time.slot n with pulsing := false } with
        lastAct := Tbl.set none s.time.lastAct (s.time.slot n).content.target
          (some ((s.time.slot n).fireNs + (s.time.slot n).content.pulse.toNat * 1000, false)) }
      dio := s.dio.slot s.tickNo s.time.sec.toNat (s.time.slot n).content.target false } [] := by
  have step : exec (.slotPulseEnd n) s = .next ((s.withSlot n { s.time.slot n with pulsing := false }).slotSwitch false
      (s.time.slot n).content.target ((s.time.slot n).fireNs + (s.time.slot n).content.pulse.toNat * 1000) false) :=
    if_neg (by simp [pulsing, due])
  rw [State.slotSwitch_dio_new (mt State.slotDone_withSlot.mp fun done => last (State.slotDone_off done))] at step
  exact .quiet step rfl

/-! Captures (06 R189). -/

theorem inputEdgeCapture_adds (s : State) (ch : CapCh) (r : Bool) (ns i n : Nat) (clock : s.capClock ch = some i)
    (tasks : s.capTasks (capCode ch) = [n]) :
    RunsTo (.inputEdgeCapture ch r ns) s { s with time := { s.time with
      accum := Tbl.mod {} s.time.accum (n * 256 + capCode ch) (fun c => c.add
        { ns := ns / 10 * 10, angle := Bits.lo ((s.time.clock i).posAt ((ns : Int) - s.nowNs)), turn := Bits.hi ((s.time.clock i).posAt ((ns : Int) - s.nowNs))
          rising := r, locked := (s.time.clock i).locked }) } } [] := by
  refine .quiet ?_ rfl
  change execInputEdgeCapture ch r ns s = _
  simp only [execInputEdgeCapture, clock, tasks, List.foldl_cons, List.foldl_nil]

/-- Settles O33: an ARMED slot is fixed or missed; a FIXED one fires at T_ang, each channel switched once at an instant and OFF before ON;
an edge joins the capture of the task that takes its channel. -/
theorem angleSlots : Obligations.AngleSlots :=
  ⟨slotFix_alone, slotFix_leads, fun s n _ early => slotFix_early s n early, slotMissed_unlocked, slotMissed_rate, slotFire_off, slotFire_pulse,
    slotFire_dropped, slotFire_early, AngleSlot.fired_facts, slotPulseEnd_off, inputEdgeCapture_adds⟩

end Sys2Proof.Machine

namespace Sys2Proof.Machine
set_option Elab.async false

/-! The station tick (06 R162, R164, R167, 15 R440). -/

theorem stationTick_unpowered (s : State) (e : TickEnv) (off : s.mod.powered = false) : exec (.stationTick e) s = .next s :=
  if_pos (by rw [off]; rfl)

theorem stationTick_measures (s : State) (e : TickEnv) (on : s.mod.powered = true) (lanes : s.cfg.lanes = false) :
    exec (.stationTick e) s = .next (s.measureTick e) := by
  change execStationTick e s = _
  unfold execStationTick
  rw [if_neg (by simp [on])]
  exact if_pos (by rw [State.measureTick, lanes]; rfl)

/-- The tick of a module that runs: the modes of the tick that ends, the advance of time, and what has waited for a tick. -/
theorem stationTick_runs {s : State} (e : TickEnv) (on : s.mod.powered = true) (lanes : s.cfg.lanes = true) {u : State}
    (modes : (if (s.measureTick e).mod.failed then s.measureTick e else (s.measureTick e).modeTick) = u) :
    exec (.stationTick e) s = .next (u.advance.timeTick e).dueTick := by
  change execStationTick e s = _
  unfold execStationTick
  rw [if_neg (by simp [on])]
  dsimp only
  rw [if_neg (by rw [State.measureTick, lanes]; decide), modes]

/-- Nothing of what a station tick begins is waiting (02 R53, 04 R130, 10 R309, R321, 16 R452, 13 R379). -/
structure State.TickIdle (s : State) : Prop where
  handover : s.twin.handover = none
  safety   : s.cfg.safeOrg = none
  switch   : s.cfg.asking = none
  brakes   : s.safe.valid = []
  copy     : s.leads = false ∨ s.twin.link = .joined
  settling : s.xch.cur.state ≠ .settling
  triggers : s.recorder.nextDefs = none

theorem State.modeTick_idle {s : State} (buffer : s.cyc.buf = []) (pends : s.cyc.pends = []) : s.modeTick = s := by
  have now : s.pendsNow = s := by
    unfold State.pendsNow
    rw [pends]
    exact congrArg (fun p => ({ s with cyc := { s.cyc with pends := p } } : State)) pends.symm
  unfold State.modeTick
  dsimp only
  rw [now, ite_self, buffer]
  rfl

theorem State.brakeDues_none {s : State} (h : s.safe.valid = []) : s.brakeDues = s := by
  unfold State.brakeDues
  rw [h]
  rfl

theorem State.recTick_none {s : State} (h : s.recorder.nextDefs = none) : s.recTick = s := by
  unfold State.recTick Recorder.takeDefs
  rw [h]

theorem State.copyTick_idle {s : State} (h : s.leads = false ∨ s.twin.link = .joined) : s.copyTick = s :=
  if_pos (by rcases h with h | h <;> simp [h])

theorem State.handoverTick_none {s : State} (h : s.twin.handover = none) : s.handoverTick = s := by
  unfold State.handoverTick
  rw [h]

theorem State.safetyTick_none {s : State} (h : s.cfg.safeOrg = none) : s.safetyTick = s := by
  unfold State.safetyTick
  rw [h]

theorem State.cfgTick_none {s : State} (h : s.cfg.asking = none) : s.cfgTick = s := by
  unfold State.cfgTick
  rw [h]

theorem Recorder.nextDefs_of_bare {r q : Recorder} (h : r.bare = q.bare) : r.nextDefs = q.nextDefs :=
  congrArg (fun x => x.nextDefs) h

/-- With nothing waiting, the network unit alone acts at a tick. -/
theorem State.dueTick_idle {s : State} (alive : s.mod.failed = false) (idle : s.TickIdle) : s.dueTick = s.netTick := by
  unfold State.dueTick
  rw [if_neg (by simp [alive]), State.handoverTick_none idle.handover, State.safetyTick_none idle.safety, State.cfgTick_none idle.switch,
    State.copyTick_idle idle.copy, State.mirrorTick, if_pos idle.settling, State.brakeDues_none idle.brakes]
  exact State.recTick_none ((Recorder.nextDefs_of_bare (s.moves_netTick.recorder)).trans idle.triggers)

theorem State.moves_dueTick {s : State} (idle : s.mod.failed = true ∨ s.TickIdle) :
    Moves s s.dueTick [.net] [(.net, 7)] ∧ (s.mod.failed = true → s.dueTick = s) := by
  cases failed : s.mod.failed with
  | true =>
    have nothing : s.dueTick = s := if_pos failed
    exact ⟨nothing.symm ▸ .refl _ _ _, fun _ => nothing⟩
  | false =>
    have due := State.dueTick_idle failed (idle.resolve_left (by simp [failed]))
    exact ⟨due.symm ▸ s.moves_netTick, fun h => absurd h (by decide)⟩

theorem State.moves_measureTick (s : State) (e : TickEnv) (m : List (Block × Nat)) : Moves s (s.measureTick e) [.mod, .ax, .fab] m := by
  unfold State.measureTick
  exact .set

/-- Whether anything waits for a tick rests on five blocks alone. -/
theorem State.TickIdle.congr {s t : State} (h : s.TickIdle) (twin : t.twin = s.twin) (cfg : t.cfg = s.cfg) (safe : t.safe = s.safe)
    (xch : t.xch = s.xch) (recorder : t.recorder.bare = s.recorder.bare) : t.TickIdle where
  handover := by rw [twin]; exact h.handover
  safety := by rw [cfg]; exact h.safety
  switch := by rw [cfg]; exact h.switch
  brakes := by rw [safe]; exact h.brakes
  copy := by rw [State.leads, State.holdsToken, twin]; exact h.copy
  settling := by rw [xch]; exact h.settling
  triggers := (Recorder.nextDefs_of_bare recorder).trans h.triggers

theorem stationTick_advances (s : State) (e : TickEnv) (on : s.mod.powered = true) (lanes : s.cfg.lanes = true)
    (sec : s.time.sec.toNat < 2 ^ 64 - 2 ^ 40) (ns : s.time.ns.toNat < 1000000000) (fwd : s.time.fwdStep < 2 ^ 64)
    (idle : s.mod.failed = true ∨ (s.cyc.buf = [] ∧ s.cyc.pends = [] ∧ s.twin.handover = none ∧ s.cfg.safeOrg = none ∧ s.cfg.asking = none ∧
      s.safe.valid = [] ∧ (s.leads = false ∨ s.twin.link = .joined) ∧ s.xch.cur.state ≠ .settling ∧ s.recorder.nextDefs = none)) :
    ∃ t, Changes (.stationTick e) s t [.mod, .ax, .time, .net, .cyc, .fab] [(.time, 6), (.cyc, 6), (.net, 7)] ∧
      t.nowNs = ((s.nowNs + s.time.fwdStep) / 10000 + 1) * 10000 ∧ t.time.fwdStep = 0 ∧ (s.time.fwdStep = 0 → t.cyc = s.cyc) ∧
      t.mod.uptime = s.mod.uptime + 1 ∧ t.mod.psA.mv = e.psA ∧ t.mod.psB.mv = e.psB ∧ t.mod.die = e.die ∧ t.mod.power = e.power ∧
      t.fab = { s.fab with corrected := Bits.sat 16 s.fab.corrected e.sram } ∧ (s.mod.failed = true → t.net = s.net) ∧
      t.time.holdTicks = (if s.time.disc = .holdover then s.time.holdTicks + 1 else s.time.holdTicks) := by
  have measured := s.moves_measureTick e []
  have modes : (if (s.measureTick e).mod.failed then s.measureTick e else (s.measureTick e).modeTick) = s.measureTick e := by
    rcases idle with failed | ⟨buffer, pends, -⟩
    · exact if_pos failed
    · rw [State.modeTick_idle (by exact buffer) (by exact pends), ite_self]
  have step := stationTick_runs e on lanes modes
  obtain ⟨advanced, now, stepped, disc, hold, still⟩ := advance_facts (s.measureTick e) sec ns fwd
  obtain ⟨ticked, tickSec, tickNs, tickStep, tickHold⟩ := timeTick_facts (s.measureTick e).advance e
  have before : Moves s ((s.measureTick e).advance.timeTick e) [.mod, .ax, .time, .cyc, .fab] [(.time, 6), (.cyc, 6), (.net, 7)] :=
    measured.stay.trans (advanced.stay.trans ticked.stay)
  have mod : ((s.measureTick e).advance.timeTick e).mod = (s.measureTick e).mod := ticked.mod.trans advanced.mod
  have waits : ((s.measureTick e).advance.timeTick e).mod.failed = true ∨ ((s.measureTick e).advance.timeTick e).TickIdle := by
    rcases idle with failed | ⟨-, -, handover, safety, switch, brakes, copy, settling, triggers⟩
    · exact .inl (by rw [mod]; exact failed)
    · exact .inr (State.TickIdle.congr ⟨handover, safety, switch, brakes, copy, settling, triggers⟩ before.twin before.cfg before.safe
        before.xch before.recorder)
  obtain ⟨due, rest⟩ := State.moves_dueTick waits
  have fab : ((s.measureTick e).advance.timeTick e).dueTick.fab = (s.measureTick e).fab := by rw [due.fab, ticked.fab, advanced.fab]
  refine ⟨_, (before.stay.trans due.stay).changes step, ?_, ?_, fun now => ?_, ?_⟩
  · rw [State.nowNs, due.time, tickSec, tickNs]
    exact now
  · rw [due.time, tickStep, stepped]
  · rw [due.cyc, ticked.cyc]
    exact still now
  · rw [due.mod, mod, fab]
    refine ⟨rfl, rfl, rfl, rfl, rfl, rfl, fun failed => ?_, ?_⟩
    · rw [rest (by rw [mod]; exact failed), before.net]
    · rw [due.time, tickHold, disc, hold]
      rfl

/-- Settles O17: without supply there is no tick; before the lanes run the module only measures itself; after that time advances, and
with nothing waiting the network unit alone acts. -/
theorem stationTick : Obligations.StationTick := ⟨stationTick_unpowered, stationTick_measures, stationTick_advances⟩

end Sys2Proof.Machine

namespace Sys2Proof.Machine
set_option Elab.async false

/-! Ports, rings, services and precision time (07 R195, R198-R200, R211-R216, R221, R223). -/

/-! Links (07 R215, R223). -/

/-- The network unit once the link of a port is lost. -/
def NetBlk.linkLost (d : NetBlk) (p : Nat) : NetBlk := d.setPort p { d.port p with link := false, downs := Bits.inc (d.port p).downs }

theorem exec_portLinkDown {s : State} {p : Fin 4} (up : (s.net.port p).link = true) :
    exec (.portLinkDown p) s = .next (if pairOf p == s.net.ptpPair then (State.setEvent { s with net := s.net.linkLost p } .net 0).setReroute
      else State.setEvent { s with net := s.net.linkLost p } .net 0) := if_neg (by simp [up])

theorem portLinkDown_other (s : State) (p : Fin 4) (up : (s.net.port p).link = true) (other : pairOf p ≠ s.net.ptpPair) :
    RunsTo (.portLinkDown p) s { s with net := s.net.setPort p { s.net.port p with
      link := false, downs := Bits.inc (s.net.port p).downs } } [(.net, 0)] :=
  .setEvent ((exec_portLinkDown up).trans (congrArg _ (if_neg (by simpa using other)))) rfl (by decide)

theorem State.setReroute_new {s : State} (new : s.net.reroute = false) :
    s.setReroute = State.setEvent { s with net := { s.net with reroute := true, rerouted := true } } .net 2 := if_pos (by rw [new]; rfl)

/-- Two states that reports alone tell apart stay so when the network unit is replaced. -/
theorem State.bare_withNet {s t : State} (same : t.bare = s.bare) (d : NetBlk) : ({ t with net := d } : State).bare = { s.bare with net := d } :=
  congrArg (fun u : State => ({ u with net := d } : State)) same

theorem portLinkDown_ptp (s : State) (p : Fin 4) (up : (s.net.port p).link = true) (ptp : pairOf p = s.net.ptpPair)
    (new : s.net.reroute = false) :
    RunsTo (.portLinkDown p) s { s with net := { s.net.setPort p { s.net.port p with
      link := false, downs := Bits.inc (s.net.port p).downs } with reroute := true, rerouted := true } } [(.net, 0), (.net, 2)] := by
  have step := exec_portLinkDown up
  rw [if_pos (by simpa using ptp), State.setReroute_new (by rw [State.net_setEvent]; exact new), State.net_setEvent] at step
  refine .mk _ step ((State.bare_setEvent _ _ _).trans (State.bare_withNet (State.bare_setEvent _ _ _) _)) ?_
  have lost : s.Raises (State.setEvent { s with net := s.net.linkLost p } .net 0) [(.net, 0)] :=
    (State.raises_setEvent { s with net := s.net.linkLost p } .net 0 (by decide)).from rfl
  exact lost.trans ((State.raises_setEvent _ .net 2 (by decide)).from rfl)

theorem portLinkUp_counts (s : State) (p : Fin 4) (down : (s.net.port p).link = false) :
    RunsTo (.portLinkUp p) s { s with net := s.net.setPort p { s.net.port p with link := true } } [(.net, 1)] :=
  .setEvent (if_neg (by simp [down])) rfl (by decide)

/-! Rings (07 R199). -/

theorem hsrForward_sends (s : State) (f : RingFrame) (gate : s.gateOpen = true) (hsr : s.net.pairMode (pairOf f.port) = 2)
    (attached : s.net.isolated (pairOf f.port) = false) (foreign : s.net.macOf f.port ≠ f.src) (unseen : s.net.fwdSeen = [])
    (plain : f.ptp = none) (short : f.length ≤ s.net.longest (pairOf f.port)) :
    RunsTo (.hsrForward f) s { s with net := {
      (s.net.modPort f.port (fun x => { x with fwd := Bits.inc x.fwd })).modPort (2 * pairOf f.port + (1 - f.port.val % 2))
        (fun x => { x with tx := x.tx + 1#64
                           busy := max x.busy (s.fitOn (2 * pairOf f.port + (1 - f.port.val % 2)) f.ns (wireNs f.length) + wireNs f.length) }) with
      fwdSeen := [(f.port.val, f.src, f.redSeq, f.ns)]
      sent := s.net.sent ++ [.forward (2 * pairOf f.port + (1 - f.port.val % 2))
        (s.fitOn (2 * pairOf f.port + (1 - f.port.val % 2)) f.ns (wireNs f.length)) f.src f.redSeq none] } } [] := by
  refine .quiet ?_ rfl
  change execHsrForward f s = _
  unfold execHsrForward
  dsimp only
  rw [if_neg (by simp [gate, hsr, attached, foreign, unseen, short]), unseen, plain]
  rfl

theorem hsrForward_once (s : State) (f : RingFrame) (ns : Nat) (seen : (f.port.val, f.src, f.redSeq, ns) ∈ s.net.fwdSeen)
    (recent : f.ns < ns + 400000000) : RunsTo (.hsrForward f) s s [] := by
  refine .quiet (if_pos ?_) rfl
  have again : ((s.net.fwdSeen.filter (fun e => decide (f.ns < e.2.2.2 + 400000000))).any
      (fun e => e.1 == f.port.val && e.2.1 == f.src && e.2.2.1 == f.redSeq)) = true :=
    List.any_eq_true.mpr ⟨_, List.mem_filter.mpr ⟨seen, decide_eq_true recent⟩, by simp⟩
  simp [again]

/-! Frames of the supervisor (07 R195, R198, R200, R205). -/

theorem pairOf_first (p : Nat) : pairOf (2 * p) = p := Nat.mul_div_cancel_left p Nat.two_pos

/-- On an INDEPENDENT pair a frame goes out on its one port, without a redundancy number. -/
theorem State.svSend_single {s : State} {p : Nat} (single : s.net.redundant (pairOf p) = false) (len : Nat) (both : Bool)
    (mk : List (Nat × Nat) → Option Half → NetOut) :
    s.svSend p len both mk = { s with net := {
      s.net.modPort p (fun x => { x with tx := x.tx + 1#64, busy := max x.busy (s.fitOn p s.nowNs (wireNs (max 64 len)) + wireNs (max 64 len)) }) with
      sent := s.net.sent ++ [mk [(p, s.fitOn p s.nowNs (wireNs (max 64 len)))] none] } } := by
  unfold State.svSend
  simp only [single, Bool.false_and, Bool.false_eq_true, if_false, Nat.add_zero]
  rfl

/-- Where and when a frame of `dur` ns that is sent now on both ports of a pair starts. -/
def State.pairStarts (s : State) (pair dur : Nat) : List (Nat × Nat) :=
  [(2 * pair, s.fitOn (2 * pair) s.nowNs dur), (2 * pair + 1, s.fitOn (2 * pair + 1) s.nowNs dur)]

/-- On a redundant pair a frame goes out on both ports with the pair's next redundancy number. -/
theorem State.svSend_both {s : State} {p : Nat} (red : s.net.redundant (pairOf p) = true) (len : Nat)
    (mk : List (Nat × Nat) → Option Half → NetOut) :
    ∃ q, s.svSend p len true mk = { s with net := { s.net with
      ports := q
      sent := s.net.sent ++ [mk (s.pairStarts (pairOf p) (wireNs (max 64 len + 6))) (some (Tbl.get 0#16 s.net.redSeq (pairOf p)))]
      redSeq := Tbl.set 0#16 s.net.redSeq (pairOf p) (Tbl.get 0#16 s.net.redSeq (pairOf p) + 1#16) } } := by
  unfold State.svSend
  simp only [red, Bool.and_self, if_true]
  exact ⟨_, rfl⟩

theorem State.supervise_redundant {s : State} {p : Nat} (red : s.net.redundant p = true) (attached : s.net.isolated p = false) :
    s.supervise p = s.svSend (2 * p) 64 true .supervision := if_pos (by rw [red, attached]; rfl)

theorem State.supervise_independent {s : State} {p : Nat} (single : s.net.redundant p = false) : s.supervise p = s :=
  if_neg (by simp [single])

theorem supervisionFrameSend_sends (s : State) (gate : s.gateOpen = true) (red : s.net.redundant 0 = true)
    (attached : s.net.isolated 0 = false) (single : s.net.redundant 1 = false) :
    ∃ t, Changes .supervisionFrameSend s t [.net] [] ∧
      t.net.sent = s.net.sent ++ [.supervision [(0, s.fitOn 0 s.nowNs (wireNs 70)), (1, s.fitOn 1 s.nowNs (wireNs 70))] (some (Tbl.get 0#16 s.net.redSeq 0))] ∧
      t.net.redSeq = Tbl.set 0#16 s.net.redSeq 0 (Tbl.get 0#16 s.net.redSeq 0 + 1#16) := by
  have step : exec .supervisionFrameSend s = .next ((s.supervise 0).supervise 1) := if_pos gate
  obtain ⟨q, sends⟩ := State.svSend_both (p := 2 * 0) red 64 .supervision
  rw [State.supervise_redundant red attached, sends, State.supervise_independent (by exact single)] at step
  exact ⟨_, Moves.changes step .set, rfl, rfl⟩

theorem supervisionFrameSend_closed (s : State) (closed : s.gateOpen = false) : RunsTo .supervisionFrameSend s s [] :=
  .quiet (if_neg (by simp [closed])) rfl

/-- A module that transmits answers for the station address of a port whose pair stands. -/
theorem exec_addressServiceRequest {s : State} {p : Fin 4} (r : AddrReq) (len : Nat) {ip : Word} (gate : s.gateOpen = true)
    (alive : s.svDown = false) (attached : s.net.isolated (pairOf p) = false) (asks : r = .arp ip ∨ r = .echo ip)
    (address : Tbl.get 0#32 s.net.ips (if s.net.redundant (pairOf p) then 2 * pairOf p else p) = ip) (given : ip ≠ 0#32) :
    exec (.addressServiceRequest p r len) s = .next (s.svSend p len true (fun on q => .answer on q r)) := by
  change execAddressServiceRequest p r len s = _
  unfold execAddressServiceRequest
  rcases asks with rfl | rfl <;> simp [gate, alive, attached, address, given]

theorem addressServiceRequest_single (s : State) (p : Fin 4) (n : Nat) (gate : s.gateOpen = true) (alive : s.svDown = false)
    (attached : s.net.isolated (pairOf p) = false) (single : s.net.redundant (pairOf p) = false) (given : Tbl.get 0#32 s.net.ips p ≠ 0#32) :
    RunsTo (.addressServiceRequest p (.arp (Tbl.get 0#32 s.net.ips p)) n) s { s with net := {
      s.net.modPort p (fun x => { x with tx := x.tx + 1#64, busy := max x.busy (s.fitOn p s.nowNs (wireNs (max 64 n)) + wireNs (max 64 n)) }) with
      sent := s.net.sent ++ [.answer [(p.val, s.fitOn p s.nowNs (wireNs (max 64 n)))] none (.arp (Tbl.get 0#32 s.net.ips p))] } } [] := by
  have step := exec_addressServiceRequest _ n gate alive attached (.inl rfl) (by rw [single]; rfl) given
  rw [State.svSend_single single] at step
  exact .quiet step rfl

theorem addressServiceRequest_redundant (s : State) (p : Fin 4) (n : Nat) (gate : s.gateOpen = true) (alive : s.svDown = false)
    (attached : s.net.isolated (pairOf p) = false) (red : s.net.redundant (pairOf p) = true)
    (given : Tbl.get 0#32 s.net.ips (2 * pairOf p) ≠ 0#32) :
    ∃ t on, Changes (.addressServiceRequest p (.echo (Tbl.get 0#32 s.net.ips (2 * pairOf p))) n) s t [.net] [] ∧
      t.net.sent = s.net.sent ++ [.answer on (some (Tbl.get 0#16 s.net.redSeq (pairOf p))) (.echo (Tbl.get 0#32 s.net.ips (2 * pairOf p)))] ∧
      on.map Prod.fst = [2 * pairOf p, 2 * pairOf p + 1] ∧
      t.net.redSeq = Tbl.set 0#16 s.net.redSeq (pairOf p) (Tbl.get 0#16 s.net.redSeq (pairOf p) + 1#16) := by
  have step := exec_addressServiceRequest _ n gate alive attached (.inr rfl) (by rw [red]; rfl) given
  obtain ⟨q, sends⟩ := State.svSend_both red n (fun on q => .answer on q (.echo (Tbl.get 0#32 s.net.ips (2 * pairOf p))))
  rw [sends] at step
  exact ⟨_, _, Moves.changes step .set, rfl, rfl, rfl⟩

/-! Precision time (07 R211, R213, R215). -/

theorem ptpAnnounce_takes (s : State) (m b : Announce) (l : List Announce) (domain : m.domain = Bits.get s.net.ptpCfg 16 8)
    (masters : l = ((s.net.mastersAt m.heard).filter (fun o => o.sender != m.sender)) ++ [m]) (room : l.length ≤ 8)
    (best : bestMaster l = some b) :
    ∃ t, Changes (.ptpAnnounce m) s t [.time, .net] [(.time, 14)] ∧ t.net = { s.net with masters := l } ∧
      t.time = { s.time with utcValid := b.utcValid, utcOffset := b.utcOffset, leap59 := b.leap59, leap61 := b.leap61 } := by
  have few : ((s.net.mastersAt m.heard).filter (fun o => o.sender != m.sender)).length < 8 := by
    rw [masters, List.length_append] at room
    exact room
  have step : exec (.ptpAnnounce m) s = .next (State.setEventIf { s with
      time := { s.time with utcValid := b.utcValid, utcOffset := b.utcOffset, leap59 := b.leap59, leap61 := b.leap61 }
      net := { s.net with masters := l } }
      (s.time.utcOffset != b.utcOffset || s.time.leap59 != b.leap59 || s.time.leap61 != b.leap61) .time 14) := by
    change execPtpAnnounce m s = _
    unfold execPtpAnnounce
    dsimp only
    rw [if_neg (by simp [domain]), if_pos few, ← masters, best]
  exact ⟨_, (Moves.setEventIf .set _ _ _ (by decide) (by simp)).changes step, State.net_setEventIf _ _ _ _, State.time_setEventIf _ _ _ _⟩

/-- The transmitting module adopts the first delay measured on a path; a LEAD tells its SHADOW. -/
theorem exec_ptpDelayResponse {s : State} {p : Fin 4} (ns : Nat) (gate : s.gateOpen = true) (first : (s.net.port p).newest = none)
    (free : s.net.frozen = false) {t : State}
    (adopted : t = { s with net := s.net.setPort p { s.net.port p with newest := some ns, delay := ns } }) :
    exec (.ptpDelayResponse p ns) s = .next (if s.leads then t.olvia (.seq (.delay p ns)) else t) := by
  change execPtpDelayResponse p ns s = _
  unfold execPtpDelayResponse
  rw [if_neg (by simp [gate]), State.delayMeasured_first ns first, free, adopted]
  rfl

theorem ptpDelayResponse_alone (s : State) (p : Fin 4) (ns : Nat) (gate : s.gateOpen = true) (alone : s.leads = false)
    (first : (s.net.port p).newest = none) (free : s.net.frozen = false) :
    RunsTo (.ptpDelayResponse p ns) s { s with net := s.net.setPort p { s.net.port p with newest := some ns, delay := ns } } [] :=
  .quiet ((exec_ptpDelayResponse ns gate first free rfl).trans (congrArg _ (if_neg (by simp [alone])))) rfl

theorem ptpDelayResponse_leads (s : State) (p : Fin 4) (ns : Nat) (gate : s.gateOpen = true) (leads : s.leads = true)
    (up : s.twin.linkUp = true) (first : (s.net.port p).newest = none) (free : s.net.frozen = false) :
    RunsTo (.ptpDelayResponse p ns) s { s with
      twin := s.twin.send (.seq (.delay p ns)), net := s.net.setPort p { s.net.port p with newest := some ns, delay := ns } } [] := by
  have step := exec_ptpDelayResponse ns gate first free rfl
  rw [if_pos leads, State.olvia_up _ _ (by exact up)] at step
  exact .quiet step rfl

/-! Modbus/TCP (07 R221). -/

/-- The module serves Modbus/TCP: it transmits, it is READY, its supervisor runs, the server is enabled and its pair stands. -/
structure State.ServesModbus (s : State) : Prop where
  gate     : s.gateOpen = true
  ready    : s.mod.ready = true
  alive    : s.svDown = false
  enabled  : Bits.bit s.net.pairCfg 15 = true
  attached : s.net.isolated (Bits.get s.net.pairCfg 14 1) = false

/-- The state with the connections of the server put. -/
def State.withConns (s : State) (l : List Nat) : State := { s with net := { s.net with conns := l } }

theorem State.moves_withConns (s : State) (l : List Nat) : Moves s (s.withConns l) [.net] [] := by
  unfold State.withConns
  exact .set

theorem exec_modbusRequest {s : State} (serves : s.ServesModbus) (conn fn : Nat) (seg : TcpSeg) (ops : List ModbusOp) :
    exec (.modbusRequest conn seg fn ops) s =
      if !s.net.conns.contains conn && (seg != .syn || decide (8 ≤ s.net.conns.length)) then .next (s.netAnswer 0 (fun on q => .reset on q conn))
      else .next ((s.modbusServe conn fn ops).withConns
        (if seg = .fin then s.net.conns.filter (fun c => c != conn) else s.net.conns.filter (fun c => c != conn) ++ [conn])) :=
  if_neg (by simp [serves.gate, serves.ready, serves.alive, serves.enabled, serves.attached])

/-- On an INDEPENDENT pair the server answers on its first port and keeps its connections. -/
theorem State.netAnswer_single {s : State} (single : s.net.redundant (Bits.get s.net.pairCfg 14 1) = false) (n : Nat)
    (mk : List (Nat × Nat) → Option Half → NetOut) :
    ∃ on, (s.netAnswer n mk).net.sent = s.net.sent ++ [mk on none] ∧ on.map Prod.fst = [2 * Bits.get s.net.pairCfg 14 1] ∧
      (s.netAnswer n mk).net.conns = s.net.conns := by
  unfold State.netAnswer
  rw [State.svSend_single (by rw [pairOf_first]; exact single)]
  exact ⟨_, rfl, rfl, rfl⟩

theorem State.modbusServe_read {s : State} {n off len : Nat} (conn : Nat) (configured : (s.taskCfg n).configured = true)
    (within : off + len ≤ (s.progTask n).size) :
    s.modbusServe conn 3 [.read n off len] = s.netAnswer (2 + (Tbl.getList 0#8 (s.task n).image off len).length)
      (fun on q => .modbus on q conn 3 (Tbl.getList 0#8 (s.task n).image off len)) := by
  unfold State.modbusServe
  rw [if_neg (by decide), if_neg (by simp [State.modbusOk, configured, within])]
  simp [State.modbusWrite, State.modbusRead, TaskSt.bytes]

theorem modbusRequest_reads (s : State) (conn n off len : Nat) (serves : s.ServesModbus)
    (single : s.net.redundant (Bits.get s.net.pairCfg 14 1) = false) (isOpen : conn ∈ s.net.conns)
    (configured : (s.taskCfg n).configured = true) (within : off + len ≤ (s.progTask n).size) :
    ∃ t on, Changes (.modbusRequest conn .data 3 [.read n off len]) s t [.net] [] ∧
      t.net.sent = s.net.sent ++ [.modbus on none conn 3 (Tbl.getList 0#8 (s.task n).image off len)] ∧
      on.map Prod.fst = [2 * Bits.get s.net.pairCfg 14 1] ∧ t.net.conns = s.net.conns.filter (fun c => c != conn) ++ [conn] := by
  have step := exec_modbusRequest serves conn 3 .data [.read n off len]
  rw [if_neg (by simp [isOpen]), State.modbusServe_read conn configured within, if_neg (by decide)] at step
  obtain ⟨on, sent, ports, -⟩ := State.netAnswer_single single (2 + (Tbl.getList 0#8 (s.task n).image off len).length)
    (fun on q => .modbus on q conn 3 (Tbl.getList 0#8 (s.task n).image off len))
  exact ⟨_, on, ((s.moves_svSend _ _ _ _ []).trans (State.moves_withConns _ _)).changes step, sent, ports, rfl⟩

theorem modbusRequest_full (s : State) (conn fn : Nat) (seg : TcpSeg) (ops : List ModbusOp) (serves : s.ServesModbus)
    (single : s.net.redundant (Bits.get s.net.pairCfg 14 1) = false) (closed : conn ∉ s.net.conns) (full : 8 ≤ s.net.conns.length) :
    ∃ t on, Changes (.modbusRequest conn seg fn ops) s t [.net] [] ∧ t.net.sent = s.net.sent ++ [.reset on none conn] ∧ t.net.conns = s.net.conns := by
  have step := exec_modbusRequest serves conn fn seg ops
  rw [if_pos (by simp [closed, full])] at step
  obtain ⟨on, sent, -, conns⟩ := State.netAnswer_single single 0 (fun on q => .reset on q conn)
  exact ⟨_, on, (s.moves_svSend _ _ _ _ []).changes step, sent, conns⟩

/-- Settles O34: links and ring frames are counted, the supervisor's frames and answers go out on one port or on both of a redundant pair,
the best master's offset and the first delay of a path are adopted, and Modbus serves eight connections. -/
theorem netPorts : Obligations.NetPorts :=
  ⟨portLinkDown_other, portLinkDown_ptp, portLinkUp_counts, hsrForward_sends, hsrForward_once, supervisionFrameSend_sends,
    supervisionFrameSend_closed, addressServiceRequest_single, addressServiceRequest_redundant, ptpAnnounce_takes, ptpDelayResponse_alone,
    ptpDelayResponse_leads,
    fun s conn n off len gate ready alive enabled attached single => modbusRequest_reads s conn n off len ⟨gate, ready, alive, enabled, attached⟩ single,
    fun s conn fn seg ops gate ready alive enabled attached single => modbusRequest_full s conn fn seg ops ⟨gate, ready, alive, enabled, attached⟩ single⟩

end Sys2Proof.Machine

namespace Sys2Proof.Machine
set_option Elab.async false

/-! Stream contexts (07 R201-R209). -/

/-! Launches (07 R202-R206, R209). -/

/-- The state once the launch of a T0 is noted in its context. -/
def State.launchNoted (s : State) (n t0 : Nat) : State :=
  { s with net := s.net.setCtx n { s.net.ctx n with launched := some t0 } }

@[simp] theorem State.ctx_launchNoted (s : State) (n t0 : Nat) : (s.launchNoted n t0).net.ctx n = { s.net.ctx n with launched := some t0 } :=
  NetBlk.ctx_setCtx _ _ _

theorem exec_periodicLaunch {s : State} {n : Fin 1024} {t0 k : Nat} (sched : s.taskSched (s.net.ctx n).task = some (t0, k))
    (may : s.mayLaunch (s.net.ctx n) = true) (periodic : (s.net.ctx n).slotLaunch = false) (turn : k % (s.net.ctx n).every = 0)
    (due : t0 + (s.net.ctx n).offset * 10 < s.nowNs + 10000) (new : (s.net.ctx n).launched ≠ some t0) :
    exec (.periodicLaunch n) s = .next ((s.launchNoted n t0).launchDue n (t0 + (s.net.ctx n).offset * 10)) := by
  change execPeriodicLaunch n s = _
  unfold execPeriodicLaunch
  simp only [sched]
  exact if_pos (by simp [may, periodic, turn, due, new])

theorem periodicLaunch_idle (s : State) (n : Fin 1024) (t0 k : Nat) (sched : s.taskSched (s.net.ctx n).task = some (t0, k))
    (idle : s.nowNs + 10000 ≤ t0 + (s.net.ctx n).offset * 10 ∨ (s.net.ctx n).launched = some t0 ∨ k % (s.net.ctx n).every ≠ 0) :
    RunsTo (.periodicLaunch n) s s [] := by
  refine .quiet ?_ rfl
  change execPeriodicLaunch n s = _
  unfold execPeriodicLaunch
  simp only [sched]
  refine if_neg ?_
  rcases idle with early | done | other
  · simp [Nat.not_lt.mpr early]
  · simp [done]
  · simp [other]

theorem State.launchDue_open {s : State} (gate : s.gateOpen = true) (n launch : Nat) : s.launchDue n launch = s.launch n launch := if_pos gate

/-- A launch that falls due while the gate is closed waits for a takeover. -/
theorem State.launchDue_closed {s : State} (closed : s.gateOpen = false) (room : s.net.due.length < 1024) (n launch : Nat) :
    s.launchDue n launch = { s with net := { s.net with due := s.net.due ++ [(n, launch)] } } := by
  unfold State.launchDue
  rw [if_neg (by simp [closed]), Nat.sub_eq_zero_of_le (by omega), List.drop_zero]

theorem State.brakeWrite_none {s : State} {n : Nat} (unbraked : s.brakeOn n = none) (launch : Nat) : s.brakeWrite n launch = s := by
  unfold State.brakeWrite
  rw [unbraked]

/-- Does a context take part in the budget, and would a frame at an instant go beyond it (07 R209)? -/
def NetBlk.overBudget (d : NetBlk) (n launch : Nat) : Prop :=
  (d.ctx n).budget ≠ 0 ∧ (d.ctx n).budget < (d.ctx n).useAt launch + (d.ctx n).frameLen (d.redundant (d.ctx n).pair)

theorem State.overBudget_launchNoted (s : State) (n t0 launch : Nat) :
    (s.launchNoted n t0).net.overBudget n launch ↔ s.net.overBudget n launch := by
  rw [NetBlk.overBudget, s.ctx_launchNoted n t0]
  rfl

theorem State.launch_overBudget {s : State} {n launch : Nat} (unbraked : s.brakeOn n = none) (exceeds : s.net.overBudget n launch) :
    s.launch n launch = State.setEvent { s with net := s.net.setCtx n { s.net.ctx n with dropCnt := min ((s.net.ctx n).dropCnt + 1) 65535 } } .net 4 := by
  unfold State.launch
  dsimp only
  rw [State.brakeWrite_none unbraked]
  exact if_pos exceeds

/-- Where and when a frame of a context starts. -/
def State.launchStarts (s : State) (n launch : Nat) : List (Nat × Nat) := (s.net.ctx n).ports.map (fun p => (p, s.startOn p n launch))

/-- Does a frame start more than 1 µs late on one of its ports (07 R205)? -/
def startsLate (launch : Nat) (on : List (Nat × Nat)) : Bool := on.any (fun e => decide (launch + 1000 < e.2))

theorem State.ports_launchStarts (s : State) (n launch : Nat) : (s.launchStarts n launch).map Prod.fst = (s.net.ctx n).ports := by
  simp [State.launchStarts, Function.comp_def]

/-- Frames on the wire change the ports alone. -/
theorem NetBlk.foldl_modPort {α : Type} (port : α → Nat) (f : α → NetPort → NetPort) (l : List α) (d : NetBlk) :
    ∃ q, l.foldl (fun (d : NetBlk) e => d.modPort (port e) (f e)) d = { d with ports := q } := by
  induction l generalizing d with
  | nil => exact ⟨d.ports, rfl⟩
  | cons e l ih => exact ih (d.modPort (port e) (f e))

/-- A context after one of its frames is launched: its sequence number, its time, its use of the budget and its late frames. -/
def StreamCtx.launchedAt (c : StreamCtx) (launch len : Nat) (late : Bool) : StreamCtx :=
  { c with seq := c.seq + 1#32, lastTime := launch, windowUse := c.useAt launch + len, winMs := launch / 1000000
           lateCnt := if late then min (c.lateCnt + 1) 65535 else c.lateCnt }

/-- The redundancy counters after a frame of a pair. -/
def NetBlk.nextRedSeq (d : NetBlk) (pair : Nat) : Tbl Half :=
  if d.redundant pair then Tbl.set 0#16 d.redSeq pair (Tbl.get 0#16 d.redSeq pair + 1#16) else d.redSeq

/-- The redundancy number of the next frame of a pair. -/
def NetBlk.redNumber (d : NetBlk) (pair : Nat) : Option Half := if d.redundant pair then some (Tbl.get 0#16 d.redSeq pair) else none

/-- The frame of a context that is launched at an instant. -/
def State.streamFrame (s : State) (n launch : Nat) : NetOut :=
  .stream n (s.launchStarts n launch) (s.net.redNumber (s.net.ctx n).pair) (if (s.net.ctx n).encap = 2 then some 1 else none)
    ((s.net.ctx n).header (s.streamFlags (s.net.ctx n).task) launch) (s.net.ctx n).payload

/-- The state once a frame of a context is on the wire, with the ports that carry it. -/
def State.frameSent (s : State) (n launch : Nat) (ports : Tbl NetPort) : State :=
  { s with net := { s.net.setCtx n ((s.net.ctx n).launchedAt launch ((s.net.ctx n).frameLen (s.net.redundant (s.net.ctx n).pair))
      (startsLate launch (s.launchStarts n launch))) with
    ports := ports, sent := s.net.sent ++ [s.streamFrame n launch], redSeq := s.net.nextRedSeq (s.net.ctx n).pair } }

/-- A frame within its budget goes out; one that starts late is reported, and a LEAD tells its SHADOW. -/
theorem State.launch_sends {s : State} {n launch : Nat} (unbraked : s.brakeOn n = none) (within : ¬ s.net.overBudget n launch)
    (unstamped : (s.net.ctx n).tsReq = false) :
    ∃ ports, Moves ((s.frameSent n launch ports).setEventIf (startsLate launch (s.launchStarts n launch)) .net 9) (s.launch n launch) [.twin] [] := by
  unfold State.launch
  rw [State.brakeWrite_none unbraked]
  extract_lets u c red len on late r out d1 d2 d3 v w
  rw [if_neg (by exact within), if_pos (by simp [c, u, unstamped])]
  obtain ⟨ports, carried⟩ := NetBlk.foldl_modPort (fun e => e.1) (fun e x => x.carry n launch e.2 (wireNs len)) on d1
  have sent : v = (s.frameSent n launch ports).setEventIf (startsLate launch (s.launchStarts n launch)) .net 9 := by
    simp only [v, d3, d2, carried]
    rfl
  refine ⟨ports, sent ▸ ?_⟩
  exact .ite (State.moves_olvia _ _ _) (.refl _ _ _)

theorem periodicLaunch_sends (s : State) (n : Fin 1024) (t0 k l : Nat) (sched : s.taskSched (s.net.ctx n).task = some (t0, k))
    (may : s.mayLaunch (s.net.ctx n) = true) (periodic : (s.net.ctx n).slotLaunch = false) (turn : k % (s.net.ctx n).every = 0)
    (gate : s.gateOpen = true) (unlimited : (s.net.ctx n).budget = 0) (unstamped : (s.net.ctx n).tsReq = false)
    (launch : l = t0 + (s.net.ctx n).offset * 10) (due : l < s.nowNs + 10000) (new : (s.net.ctx n).launched ≠ some t0)
    (unbraked : s.brakeOn n = none) :
    ∃ t on, Changes (.periodicLaunch n) s t [.net, .safe, .twin] [(.net, 4), (.net, 7), (.net, 9)] ∧ t.safe = s.safe ∧ on.map Prod.fst = (s.net.ctx n).ports ∧
      t.net.sent = s.net.sent ++ [.stream n on (if s.net.redundant (s.net.ctx n).pair then some (Tbl.get 0#16 s.net.redSeq (s.net.ctx n).pair) else none)
        (if (s.net.ctx n).encap = 2 then some 1 else none) ((s.net.ctx n).header (s.streamFlags (s.net.ctx n).task) l) (s.net.ctx n).payload] ∧
      t.net.ctx n = { s.net.ctx n with
        launched := some t0, seq := (s.net.ctx n).seq + 1#32, lastTime := l
        windowUse := (s.net.ctx n).useAt l + (s.net.ctx n).frameLen (s.net.redundant (s.net.ctx n).pair), winMs := l / 1000000
        lateCnt := if on.any (fun e => decide (l + 1000 < e.2)) then min ((s.net.ctx n).lateCnt + 1) 65535 else (s.net.ctx n).lateCnt } ∧
      (on.any (fun e => decide (l + 1000 < e.2)) = true → t.raised .net 9 = true) ∧
      t.net.redSeq = (if s.net.redundant (s.net.ctx n).pair then
        Tbl.set 0#16 s.net.redSeq (s.net.ctx n).pair (Tbl.get 0#16 s.net.redSeq (s.net.ctx n).pair + 1#16) else s.net.redSeq) := by
  subst launch
  have step := exec_periodicLaunch sched may periodic turn due new
  rw [State.launchDue_open (by exact gate)] at step
  have noted := s.ctx_launchNoted n t0
  obtain ⟨ports, told⟩ := State.launch_sends (s := s.launchNoted n t0) (n := n) (launch := t0 + (s.net.ctx n).offset * 10)
    unbraked (mt (s.overBudget_launchNoted _ _ _).mp fun exceeds => exceeds.1 unlimited) (by rw [noted]; exact unstamped)
  have moved : Moves s (s.launchNoted n t0) [.net, .safe, .twin] [(.net, 4), (.net, 7), (.net, 9)] := by
    unfold State.launchNoted
    exact .set
  have net := told.net.trans (State.net_setEventIf _ _ _ _)
  refine ⟨_, (s.launchNoted n t0).launchStarts n (t0 + (s.net.ctx n).offset * 10), (moved.trans (State.moves_launch _ _ _)).changes step,
    told.safe.trans (State.safe_setEventIf _ _ _ _), ?_, ?_, ?_, fun late => told.2.1 _ _ ?_, ?_⟩
  · rw [State.ports_launchStarts, noted]
    rfl
  · rw [net, State.frameSent, State.streamFrame, noted]
    rfl
  · rw [net, State.frameSent, noted]
    exact NetBlk.ctx_setCtx _ _ _
  · rw [State.setEventIf, if_pos (by exact late)]
    exact State.raised_setEvent _ _ _ (by decide)
  · rw [net, State.frameSent, noted]
    rfl

theorem periodicLaunch_overBudget (s : State) (n : Fin 1024) (t0 k l : Nat) (sched : s.taskSched (s.net.ctx n).task = some (t0, k))
    (may : s.mayLaunch (s.net.ctx n) = true) (periodic : (s.net.ctx n).slotLaunch = false) (turn : k % (s.net.ctx n).every = 0)
    (gate : s.gateOpen = true) (launch : l = t0 + (s.net.ctx n).offset * 10) (limited : (s.net.ctx n).budget ≠ 0)
    (exceeds : (s.net.ctx n).budget < (s.net.ctx n).useAt l + (s.net.ctx n).frameLen (s.net.redundant (s.net.ctx n).pair))
    (due : l < s.nowNs + 10000) (new : (s.net.ctx n).launched ≠ some t0) (unbraked : s.brakeOn n = none) :
    RunsTo (.periodicLaunch n) s { s with net := s.net.setCtx n { s.net.ctx n with
      launched := some t0, dropCnt := min ((s.net.ctx n).dropCnt + 1) 65535 } } [(.net, 4)] := by
  subst launch
  have step := exec_periodicLaunch sched may periodic turn due new
  rw [State.launchDue_open (by exact gate), State.launch_overBudget (s := s.launchNoted n t0) unbraked
    ((s.overBudget_launchNoted _ _ _).mpr ⟨limited, exceeds⟩), s.ctx_launchNoted n t0, State.launchNoted, NetBlk.setCtx_setCtx] at step
  exact .setEvent step rfl (by decide)

theorem periodicLaunch_waits (s : State) (n : Fin 1024) (t0 k : Nat) (sched : s.taskSched (s.net.ctx n).task = some (t0, k))
    (may : s.mayLaunch (s.net.ctx n) = true) (periodic : (s.net.ctx n).slotLaunch = false) (turn : k % (s.net.ctx n).every = 0)
    (closed : s.gateOpen = false) (due : t0 + (s.net.ctx n).offset * 10 < s.nowNs + 10000) (new : (s.net.ctx n).launched ≠ some t0)
    (room : s.net.due.length < 1024) :
    RunsTo (.periodicLaunch n) s { s with net := { s.net.setCtx n { s.net.ctx n with launched := some t0 } with
      due := s.net.due ++ [(n.val, t0 + (s.net.ctx n).offset * 10)] } } [] := by
  have step := exec_periodicLaunch sched may periodic turn due new
  rw [State.launchDue_closed (by exact closed) (by exact room)] at step
  exact .quiet step rfl

/-! Windows and source addresses (07 R207, R209). -/

theorem budgetWindow_begins (s : State) : RunsTo .budgetWindow s { s with net := { s.net with
    ctxs := Tbl.map {} (fun c => if c.winMs < s.nowNs / 1000000 then { c with windowUse := 0, winMs := s.nowNs / 1000000 } else c) s.net.ctxs } } [] :=
  .quiet rfl rfl

theorem srcMacForget_forgets (s : State) (n : Fin 1024) (receives : (s.net.ctx n).receive = true)
    (silent : (s.net.ctx n).lastTime + 60000000000 ≤ s.nowNs) :
    RunsTo (.srcMacForget n) s { s with net := s.net.setCtx n { s.net.ctx n with srcMac := 0, anySeq := true } } [] :=
  .quiet (if_pos ⟨receives, silent⟩) rfl

theorem ddWindowClear_clears (s : State) (n : Fin 1024) (receives : (s.net.ctx n).receive = true)
    (silent : (s.net.ctx n).lastTime + 400000000 ≤ s.nowNs) :
    RunsTo (.ddWindowClear n) s { s with net := s.net.setCtx n { s.net.ctx n with ddOpen := false, ddMask := 0#32 } } [] :=
  .quiet (if_pos ⟨receives, silent⟩) rfl

/-! Receive (07 R193, R207). -/

theorem streamFrameRx_long (s : State) (f : RxFrame) (long : s.net.longest (pairOf f.port) < f.length) : RunsTo (.streamFrameRx f) s s [] :=
  .quiet (if_pos (by simp [long])) rfl

theorem streamFrameRx_corrupt (s : State) (f : RxFrame) (attached : s.net.isolated (pairOf f.port) = false)
    (short : f.length ≤ s.net.longest (pairOf f.port)) (corrupt : f.fcsOk = false) :
    RunsTo (.streamFrameRx f) s { s with net := s.net.setPort f.port { s.net.port f.port with
      rx := (s.net.port f.port).rx + 1#64, err := Bits.inc (s.net.port f.port).err } } [] :=
  .quiet ((if_neg (by simp [attached, short])).trans (if_pos (by simp [corrupt]))) rfl

/-- The state once a frame is counted on its port. -/
def State.rxCounted (s : State) (f : RxFrame) : State :=
  { s with net := s.net.setPort f.port { s.net.port f.port with rx := (s.net.port f.port).rx + 1#64 } }

/-- What is assumed of a sound frame that the transmitting module receives and that a receive context matches (07 R207 steps 1 and 2). -/
structure State.Matches (s : State) (f : RxFrame) (n : Nat) (c : StreamCtx) : Prop where
  attached : s.net.isolated (pairOf f.port) = false
  short    : f.length ≤ s.net.longest (pairOf f.port)
  sound    : f.fcsOk = true
  gate     : s.gateOpen = true
  stream   : f.kind ≠ .supervision
  found    : s.net.ctxs.find? (fun e => e.2.matchesRx f) = some (n, c)

theorem exec_streamFrameRx {s : State} {f : RxFrame} {n : Nat} {c : StreamCtx} (hit : s.Matches f n c) :
    exec (.streamFrameRx f) s = .next ((s.rxCounted f).streamIn n f) := by
  change execStreamFrameRx f s = _
  unfold execStreamFrameRx
  simp only [hit.attached, hit.sound, hit.gate, hit.stream, hit.found, Nat.not_lt.mpr hit.short, decide_false, Bool.not_true, Bool.false_and,
    Bool.or_self, Bool.false_eq_true, false_and, if_false]
  rfl

theorem StreamCtx.judge_conflict {c : StreamCtx} {f : RxFrame} (other : c.srcMac ≠ f.src) (red : Bool) : c.judge red f = .conflict := if_pos other

theorem State.streamIn_accept {s : State} {f : RxFrame} {n : Nat} (known : (s.net.ctx n).srcMac ≠ 0)
    (accepts : (s.net.ctx n).judge (s.net.redundant (s.net.ctx n).pair) f = .accept) :
    s.streamIn n f = { s with net := s.net.setCtx n ((s.net.ctx n).take (s.net.redundant (s.net.ctx n).pair) f) } := by
  simp only [State.streamIn, known, if_false, accepts]

/-- A frame of another source than the one that the context holds is dropped and reported. -/
theorem State.streamIn_conflict {s : State} {f : RxFrame} {n : Nat} (known : (s.net.ctx n).srcMac ≠ 0) (other : (s.net.ctx n).srcMac ≠ f.src) :
    s.streamIn n f = State.setEvent { s with net := s.net.setCtx n { s.net.ctx n with dropCnt := min ((s.net.ctx n).dropCnt + 1) 65535 } } .net 6 := by
  simp only [State.streamIn, known, if_false, StreamCtx.judge_conflict other]
  rfl

theorem streamFrameRx_accepts (s : State) (f : RxFrame) (n : Nat) (c : StreamCtx) (hit : s.Matches f n c)
    (source : (s.net.ctx n).srcMac = f.src) (named : f.src ≠ 0)
    (accepts : (s.net.ctx n).judge (s.net.redundant (s.net.ctx n).pair) f = .accept) :
    RunsTo (.streamFrameRx f) s { s with net := ((s.net.setPort f.port { s.net.port f.port with rx := (s.net.port f.port).rx + 1#64 }).setCtx n
        ((s.net.ctx n).take (s.net.redundant (s.net.ctx n).pair) f)) } [] :=
  .quiet ((exec_streamFrameRx hit).trans (congrArg _ (State.streamIn_accept (s := s.rxCounted f) (source.trans_ne named) accepts))) rfl

theorem streamFrameRx_conflicts (s : State) (f : RxFrame) (n : Nat) (c : StreamCtx) (hit : s.Matches f n c)
    (known : (s.net.ctx n).srcMac ≠ 0) (other : (s.net.ctx n).srcMac ≠ f.src) :
    RunsTo (.streamFrameRx f) s { s with net := ((s.net.setPort f.port { s.net.port f.port with rx := (s.net.port f.port).rx + 1#64 }).setCtx n
        { s.net.ctx n with dropCnt := min ((s.net.ctx n).dropCnt + 1) 65535 }) } [(.net, 6)] :=
  .setEvent ((exec_streamFrameRx hit).trans (congrArg _ (State.streamIn_conflict (s := s.rxCounted f) known other))) rfl (by decide)

/-- Settles O35: a due launch goes out, is dropped beyond its budget or waits for the gate; windows and source addresses end with time; a
matched frame is taken, or dropped when its source is another. -/
theorem streams : Obligations.Streams :=
  ⟨periodicLaunch_sends, periodicLaunch_idle, periodicLaunch_overBudget, periodicLaunch_waits, budgetWindow_begins, srcMacForget_forgets,
    ddWindowClear_clears, streamFrameRx_long, streamFrameRx_corrupt,
    fun s f n c attached short sound gate stream found => streamFrameRx_accepts s f n c ⟨attached, short, sound, gate, stream, found⟩,
    fun s f n c attached short sound gate stream found => streamFrameRx_conflicts s f n c ⟨attached, short, sound, gate, stream, found⟩⟩

end Sys2Proof.Machine

namespace Sys2Proof.Machine
set_option Elab.async false

/-! The protections of a stage (08 R239, R242, R243). -/

/-! Diagnostics of a channel (08 R239, R240). -/

theorem DioDiag.bit_lt (x : DioDiag) : x.bit < 32 := by cases x <;> decide

/-- The state with one digital channel put. -/
def State.withDioCh (s : State) (n : Nat) (c : DioCh) : State := { s with dio := s.dio.setCh n c }

theorem State.moves_dio (s : State) (d : Dio) (m : List (Block × Nat)) : Moves s { s with dio := d } [.dio] m := .set

/-- The channel with a new diagnostic. -/
def DioCh.diagnosed (x : DioDiag) (c : DioCh) : DioCh := { c with active := x :: c.active, lastDiag := some x }

theorem DioCh.raise_of_new {x : DioDiag} {c : DioCh} (new : x ∉ c.active) : DioCh.raise x c = c.diagnosed x :=
  if_neg (by simpa using new)

/-- A new diagnostic is raised on its channel alone and reported. -/
theorem State.dioRaise_of_new {s : State} {n : Nat} {x : DioDiag} (new : x ∉ (s.dio.getCh n).active) :
    ∃ w, s.dioRaise n x = (s.withDioCh n ((s.dio.getCh n).diagnosed x)).report .dio x.bit n w := by
  rw [← DioCh.raise_of_new new]
  exact ⟨_, if_neg (by simpa using new)⟩

/-- A command that raises one new diagnostic. -/
theorem RunsTo.dioRaise {i : Instr} {s : State} {n : Nat} {x : DioDiag} (e : exec i s = .next (s.dioRaise n x))
    (new : x ∉ (s.dio.getCh n).active) : RunsTo i s (s.withDioCh n ((s.dio.getCh n).diagnosed x)) [(.dio, x.bit)] := by
  obtain ⟨w, raised⟩ := State.dioRaise_of_new new
  exact .mk _ (e.trans (congrArg _ raised)) (State.bare_report _ _ _ _ _) ((State.raises_report _ _ _ _ _ x.bit_lt).from rfl)

/-- A command that changes a channel and raises one new diagnostic on it. -/
theorem RunsTo.withDioCh_dioRaise {i : Instr} {s u : State} {n : Nat} {c : DioCh} {x : DioDiag}
    (e : exec i s = .next ((u.withDioCh n c).dioRaise n x)) (new : x ∉ c.active) (he : u.event = s.event := by rfl) :
    RunsTo i s (u.withDioCh n (c.diagnosed x)) [(.dio, x.bit)] := by
  have put : (u.withDioCh n c).dio.getCh n = c := Dio.getCh_setCh _ _ _
  obtain ⟨w, raised⟩ := State.dioRaise_of_new (s := u.withDioCh n c) (by rwa [put])
  have twice : (u.withDioCh n c).withDioCh n (c.diagnosed x) = u.withDioCh n (c.diagnosed x) :=
    congrArg (fun d => { u with dio := d }) (Dio.setCh_setCh _ _ _ _)
  rw [put, twice] at raised
  exact .mk _ (e.trans (congrArg _ raised)) (State.bare_report _ _ _ _ _) ((State.raises_report _ _ _ _ _ x.bit_lt).from he)

theorem State.dioClear_withDioCh (s : State) (n : Nat) (c : DioCh) (x : DioDiag) :
    (s.withDioCh n c).dioClear n x = s.withDioCh n (DioCh.clear x c) := by
  simp only [State.dioClear, State.withDioCh, Dio.modCh, Dio.getCh_setCh, Dio.setCh_setCh]

/-- A command that changes a channel and clears a diagnostic on it. -/
theorem RunsTo.withDioCh_dioClear {i : Instr} {s : State} {n : Nat} {c : DioCh} {x : DioDiag}
    (e : exec i s = .next ((s.withDioCh n c).dioClear n x)) : RunsTo i s (s.withDioCh n (DioCh.clear x c)) [] :=
  .quiet (e.trans (congrArg _ (s.dioClear_withDioCh n c x))) rfl

/-- A stage whose main switch a protection opens takes no pulse. -/
def DioCh.opened (c : DioCh) : DioCh := { c.endPulse with ovlOpen := true }

/-! The commands. -/

theorem exec_overload (s : State) (ch : Fin 96) (on : (s.dio.getCh ch).drives = true) (good : (s.dio.cellOf ch).supply.good = true) :
    exec (.overload ch) s = .next ((s.withDioCh ch (s.dio.getCh ch).opened).dioRaise ch .overload) :=
  if_pos (by simp only [on, good, Bool.and_self])

theorem exec_overtemp_above (s : State) (ch : Fin 96) (output : (s.dio.getCh ch).isOutput = true) :
    exec (.overtemp ch true) s = .next ((s.withDioCh ch { (s.dio.getCh ch).endPulse with tempOpen := true }).dioRaise ch .overtemp) :=
  if_pos output

theorem exec_overtemp_below (s : State) (ch : Fin 96) (output : (s.dio.getCh ch).isOutput = true) :
    exec (.overtemp ch false) s = .next ((s.withDioCh ch { s.dio.getCh ch with tempOpen := false }).dioClear ch .overtemp) :=
  if_pos output

theorem exec_openWire_present (s : State) (ch : Fin 96) (output : (s.dio.getCh ch).isOutput = true)
    (good : (s.dio.cellOf ch).supply.good = true) (evaluated : (s.dio.getCh ch).drives = true ∨ (s.dio.getCh ch).openOffEn = true) :
    exec (.openWire ch true) s = .next (s.dioRaise ch .openWire) :=
  if_pos (by simpa only [output, good, Bool.true_and, Bool.or_eq_true] using evaluated)

theorem exec_shareLow_present (s : State) (ch : Fin 96) (on : (s.dio.getCh ch).drives = true) (partner : s.partnerEngaged = true)
    (live : (s.dio.cellOf ch).supply.live = true) : exec (.shareLow ch true) s = .next (s.dioRaise ch .shareLow) :=
  if_pos (by simp only [on, partner, live, Bool.and_self])

theorem exec_stuckOn (s : State) (ch : Fin 96) (output : (s.dio.getCh ch).isOutput = true) (engaged : (s.dio.getCh ch).engaged = true)
    (off : (s.dio.getCh ch).drives = false) (live : (s.dio.cellOf ch).supply.live = true) :
    exec (.stuckOn ch) s = .next ((s.withDioCh ch { (s.dio.getCh ch).endPulse with isolated := true }).dioRaise ch .stuckOn) :=
  if_pos (by simp only [output, engaged, off, live, Bool.not_false, Bool.and_self])

/-- Settles O36: each protection raises one new diagnostic, some on a channel whose switch it opens; a stage that has cooled clears its
own. -/
theorem dioStageProtection : Obligations.DioStageProtection :=
  ⟨fun s ch on good new => .withDioCh_dioRaise (exec_overload s ch on good) new,
    fun s ch output new => .withDioCh_dioRaise (exec_overtemp_above s ch output) new,
    fun s ch output => .withDioCh_dioClear (exec_overtemp_below s ch output),
    fun s ch output good evaluated new => .dioRaise (exec_openWire_present s ch output good evaluated) new,
    fun s ch on partner live new => .dioRaise (exec_shareLow_present s ch on partner live) new,
    fun s ch output engaged off live new => .withDioCh_dioRaise (exec_stuckOn s ch output engaged off live) new⟩

end Sys2Proof.Machine

namespace Sys2Proof.Machine
set_option Elab.async false

/-! Retries, shorts, crosses and the cell's overload (08 R239, R242, R244, R245). -/

/-! Retries (08 R239, R242). -/

theorem exec_overloadRetry (s : State) (ch : Fin 96) (failed : Bool) (opened : (s.dio.getCh ch).ovlOpen = true)
    (left : (s.dio.getCh ch).exhausted = false) (force : (s.dio.getCh ch).force = true) (engaged : (s.dio.getCh ch).engaged = true)
    (good : (s.dio.cellOf ch).supply.good = true) : exec (.overloadRetry ch failed) s =
    .next { s with dio := (s.dio.modCh ch (DioCh.retried failed)).settleOverload (ch / 16) } :=
  if_pos (by simp only [opened, left, force, engaged, good, Bool.true_or, Bool.not_false, Bool.and_self])

/-- A retry changes its own channel, and of the cell no more than what CELL_OVERLOAD shows. -/
theorem overloadRetry_retries (s : State) (ch : Fin 96) (failed : Bool) (opened : (s.dio.getCh ch).ovlOpen = true)
    (left : (s.dio.getCh ch).exhausted = false) (force : (s.dio.getCh ch).force = true) (engaged : (s.dio.getCh ch).engaged = true)
    (good : (s.dio.cellOf ch).supply.good = true) :
    ∃ t, Changes (.overloadRetry ch failed) s t [.dio] [] ∧ t.dio.getCh ch = DioCh.retried failed (s.dio.getCh ch) ∧
      ∀ i, i ≠ ch.val → t.dio.getCh i = s.dio.getCh i :=
  ⟨_, (s.moves_dio _ []).changes (exec_overloadRetry s ch failed opened left force engaged good), Dio.getCh_setCh _ _ _,
    fun _ other => Dio.getCh_setCh_ne _ _ other⟩

theorem DioCh.retried_failed {c : DioCh} (opened : c.ovlOpen = true) :
    DioCh.retried true c = { c with retry := c.retry + 1, exhausted := decide (10 ≤ c.retry + 1), offSeen := false } := by
  have same : { c with ovlOpen := true } = c := by rw [← opened]
  exact congrArg (fun x : DioCh => { x with retry := c.retry + 1, exhausted := decide (10 ≤ c.retry + 1), offSeen := false }) same

theorem DioCh.retried_closed (c : DioCh) : DioCh.retried false c =
    { c with retry := 0, ovlOpen := false, active := c.active.filter (fun x => x != .cellOverload && x != .overload) } := by
  simp [DioCh.retried, DioCh.clear, List.filter_filter, Bool.and_comm]

/-! A short to the supply (08 R244). -/

theorem exec_shortSupply_present (s : State) (ch : Fin 96) (output : (s.dio.getCh ch).isOutput = true)
    (off : (s.dio.getCh ch).drives = false) (live : (s.dio.cellOf ch).supply.live = true) (alone : s.dio.crossOn ch = false) :
    exec (.shortSupply ch true false false) s = .next (s.dioRaise ch .shortSupply) := by
  change execShortSupply ch true false false s = _
  unfold execShortSupply
  simp only [output, off, live, alone, Bool.not_true, Bool.or_self, Bool.false_eq_true, if_false]

/-! Crosses (08 R245). -/

/-- Raising a diagnostic changes no more of a channel than its diagnostics. -/
theorem DioCh.raise_eq (x : DioDiag) (c : DioCh) :
    DioCh.raise x c = { c with active := (DioCh.raise x c).active, lastDiag := (DioCh.raise x c).lastDiag } := by
  unfold DioCh.raise
  split <;> rfl

@[simp] theorem DioCh.partner_raise (x : DioDiag) (c : DioCh) : (DioCh.raise x c).partner = c.partner := by rw [DioCh.raise_eq]
@[simp] theorem DioCh.ovlOpen_raise (x : DioDiag) (c : DioCh) : (DioCh.raise x c).ovlOpen = c.ovlOpen := by rw [DioCh.raise_eq]
@[simp] theorem DioCh.pulse_raise (x : DioDiag) (c : DioCh) : (DioCh.raise x c).pulse = c.pulse := by rw [DioCh.raise_eq]
@[simp] theorem DioCh.force_raise (x : DioDiag) (c : DioCh) : (DioCh.raise x c).force = c.force := by rw [DioCh.raise_eq]
@[simp] theorem DioCh.value_raise (x : DioDiag) (c : DioCh) : (DioCh.raise x c).value = c.value := by rw [DioCh.raise_eq]
@[simp] theorem DioCh.band_raise (x : DioDiag) (c : DioCh) : (DioCh.raise x c).band = c.band := by rw [DioCh.raise_eq]
@[simp] theorem DioCh.deferred_raise (x : DioDiag) (c : DioCh) : (DioCh.raise x c).deferred = c.deferred := by rw [DioCh.raise_eq]

/-- The channel crossed with another, which it names. -/
def DioCh.crossed (j : Nat) (c : DioCh) : DioCh := DioCh.raise .cross { c with partner := j }

theorem DioCh.partner_crossed (j : Nat) (c : DioCh) : (c.crossed j).partner = j := DioCh.partner_raise _ _

theorem State.getCh_dioCross (s : State) {i j : Nat} (ne : i ≠ j) (n : Nat) : (s.dioCross i j).dio.getCh n =
    if n = j then (s.dio.getCh j).crossed i else if n = i then (s.dio.getCh i).crossed j else s.dio.getCh n := by
  simp only [State.dioCross, State.getCh_dioRaise, Dio.modCh, Dio.getCh_setCh, Dio.getCh_setCh_ne _ _ ne, Dio.getCh_setCh_ne _ _ ne.symm,
    ne.symm, if_false]
  by_cases first : n = i
  · simp only [first, ne, if_false, if_true]; rfl
  by_cases second : n = j
  · simp only [second, if_true]; rfl
  · simp only [first, second, if_false, Dio.getCh_setCh_ne _ _ first, Dio.getCh_setCh_ne _ _ second]

theorem State.moves_dioCross (s : State) (i j : Nat) : Moves s (s.dioCross i j) [.dio] [(.dio, 6)] :=
  ((s.moves_dio _ _).trans (State.moves_dioRaise _ i .cross)).trans (State.moves_dioRaise _ j .cross)

theorem State.cell_dioCross (s : State) (i j : Nat) : (s.dioCross i j).dio.cell = s.dio.cell := by
  simp only [State.dioCross, State.cell_dioRaise]
  rfl

theorem exec_cross (s : State) (i j : Fin 96) (ne : i ≠ j) (first : (s.dio.getCh i).isOutput = true) (second : (s.dio.getCh j).isOutput = true)
    (live : (s.dio.cellOf i).supply.live = true) (live' : (s.dio.cellOf j).supply.live = true)
    (evidence : ((s.dio.getCh i).drives = false ∧ (s.dio.getCh j).drives = true) ∨ (s.dio.getCh j).pulse = some .dark) :
    exec (.cross i j) s = .next (s.dioCross i j) := by
  refine if_pos ?_
  rcases evidence with ⟨off, on⟩ | dark
  · simp [ne, first, second, live, live', off, on]
  · simp [ne, first, second, live, live', dark]

theorem cross_names (s : State) (i j : Fin 96) (ne : i ≠ j) (first : (s.dio.getCh i).isOutput = true) (second : (s.dio.getCh j).isOutput = true)
    (live : (s.dio.cellOf i).supply.live = true) (live' : (s.dio.cellOf j).supply.live = true)
    (evidence : ((s.dio.getCh i).drives = false ∧ (s.dio.getCh j).drives = true) ∨ (s.dio.getCh j).pulse = some .dark) :
    ∃ t, Changes (.cross i j) s t [.dio] [(.dio, 6)] ∧ (t.dio.getCh i).partner = j ∧ (t.dio.getCh j).partner = i ∧
      DioDiag.cross ∈ (t.dio.getCh i).active ∧ DioDiag.cross ∈ (t.dio.getCh j).active ∧
      (∀ n, n ≠ i.val → n ≠ j.val → t.dio.getCh n = s.dio.getCh n) ∧ t.dio.cell = s.dio.cell := by
  have apart : i.val ≠ j.val := fun h => ne (Fin.ext h)
  have channels := s.getCh_dioCross apart
  have atI : (s.dioCross i j).dio.getCh i = (s.dio.getCh i).crossed j := by rw [channels, if_neg apart, if_pos rfl]
  have atJ : (s.dioCross i j).dio.getCh j = (s.dio.getCh j).crossed i := by rw [channels, if_pos rfl]
  refine ⟨_, (s.moves_dioCross i j).changes (exec_cross s i j ne first second live live' evidence), ?_, ?_, ?_, ?_, fun n hi hj => ?_,
    s.cell_dioCross i j⟩
  · rw [atI]; exact DioCh.partner_crossed _ _
  · rw [atJ]; exact DioCh.partner_crossed _ _
  · rw [atI]; exact DioCh.mem_raise _ _
  · rw [atJ]; exact DioCh.mem_raise _ _
  · rw [channels, if_neg hj, if_neg hi]

/-! The overload of a cell (08 R239). -/

/-- A stage opened by CELL_OVERLOAD. -/
def DioCh.cellOpened (c : DioCh) : DioCh := DioCh.raise .cellOverload c.opened

theorem DioCh.opened_raise (x : DioDiag) (c : DioCh) : (DioCh.raise x c.opened).opened = DioCh.raise x c.opened := by
  rw [DioCh.raise_eq]; rfl

/-- An opened stage that is opened again stays as it is. -/
@[simp] theorem DioCh.cellOpened_cellOpened (c : DioCh) : c.cellOpened.cellOpened = c.cellOpened := by
  unfold DioCh.cellOpened
  rw [DioCh.opened_raise]
  exact if_pos (by simp)

/-- CELL_OVERLOAD opens one stage. -/
def State.cellOpen (s : State) (n : Nat) : State := (s.withDioCh n (s.dio.getCh n).opened).dioRaise n .cellOverload

theorem State.getCh_cellOpen (s : State) (a n : Nat) :
    (s.cellOpen a).dio.getCh n = if n = a then (s.dio.getCh a).cellOpened else s.dio.getCh n := by
  unfold State.cellOpen
  rw [State.getCh_dioRaise]
  by_cases own : n = a
  · rw [if_pos own, if_pos own]
    exact congrArg (DioCh.raise .cellOverload) (Dio.getCh_setCh _ _ _)
  · rw [if_neg own, if_neg own]
    exact Dio.getCh_setCh_ne _ _ own

theorem State.moves_cellOpen (s : State) (n : Nat) : Moves s (s.cellOpen n) [.dio] [(.dio, 1)] :=
  (s.moves_dio _ _).trans (State.moves_dioRaise _ n .cellOverload)

@[simp] theorem State.cell_foldl_cellOpen (l : List Nat) (s : State) : (l.foldl State.cellOpen s).dio.cell = s.dio.cell := by
  induction l generalizing s with
  | nil => rfl
  | cons a l ih => exact (ih _).trans (State.cell_dioRaise _ _ _)

/-- The channels after the stages of a list are opened. -/
theorem State.getCh_foldl_cellOpen (l : List Nat) (s : State) (n : Nat) :
    (l.foldl State.cellOpen s).dio.getCh n = if n ∈ l then (s.dio.getCh n).cellOpened else s.dio.getCh n := by
  induction l generalizing s with
  | nil => rfl
  | cons a l ih =>
    rw [List.foldl_cons, ih, State.getCh_cellOpen]
    by_cases own : n = a
    · subst own
      simp
    · simp [own]

theorem Dio.getCell_congr {d e : Dio} (same : e.cell = d.cell) (i : Nat) : e.getCell i = d.getCell i := by
  unfold Dio.getCell
  rw [same]

/-- The state in which CELL_OVERLOAD shows on a cell. -/
def State.cellOverloaded (s : State) (c : Nat) : State := { s with dio := s.dio.modCell c (fun x => { x with overload := true }) }

/-- The channels that CELL_OVERLOAD opens for the currents measured. -/
def State.overloadOpens (s : State) (c : Nat) (l : List Nat) : List Nat :=
  cellOverloadOpens ((((l.take 16).zipIdx.map (fun e => (16 * c + e.2, e.1))).filter (fun e => (s.dio.getCh e.1).drives)).reverse)
    (l.foldl (· + ·) 0)

theorem exec_cellOverload (s : State) (c : Fin 6) (l : List Nat) (high : 4400 < l.foldl (· + ·) 0)
    (live : (s.dio.getCell c).supply.live = true) :
    exec (.cellOverload c l) s = .next ((s.overloadOpens c l).foldl State.cellOpen (s.cellOverloaded c)) :=
  if_pos (by simp only [high, live, decide_true, Bool.and_self])

theorem cellOverload_opens (s : State) (c : Fin 6) (l : List Nat) (high : 4400 < l.foldl (· + ·) 0)
    (live : (s.dio.getCell c).supply.live = true) :
    ∃ t, Changes (.cellOverload c l) s t [.dio] [(.dio, 1)] ∧ (t.dio.getCell c).overload = true ∧
      (∀ i, i ≠ c.val → t.dio.getCell i = s.dio.getCell i) ∧
      ∀ n, if n ∈ s.overloadOpens c l
        then (t.dio.getCh n).ovlOpen = true ∧ (t.dio.getCh n).pulse = none ∧ DioDiag.cellOverload ∈ (t.dio.getCh n).active
        else t.dio.getCh n = s.dio.getCh n := by
  have cells : ∀ i, ((s.overloadOpens c l).foldl State.cellOpen (s.cellOverloaded c)).dio.getCell i = (s.cellOverloaded c).dio.getCell i :=
    Dio.getCell_congr (State.cell_foldl_cellOpen _ _)
  have moved := (s.moves_dio (s.cellOverloaded c).dio _).trans (.foldl _ State.moves_cellOpen (s.overloadOpens c l) _)
  refine ⟨_, moved.changes (exec_cellOverload s c l high live), ?_, fun i other => ?_, fun n => ?_⟩
  · rw [cells]; exact congrArg DioCell.overload (Dio.getCell_setCell _ _ _)
  · rw [cells]; exact Dio.getCell_setCell_ne _ _ other
  · rw [State.getCh_foldl_cellOpen]
    split
    · exact ⟨DioCh.ovlOpen_raise _ _, DioCh.pulse_raise _ _, DioCh.mem_raise _ _⟩
    · rfl

/-- Settles O37: a retry counts or closes its stage, a short is one new diagnostic, a cross names two channels to each other, and an
overloaded cell opens its highest stages that drive. -/
theorem dioCellFaults : Obligations.DioCellFaults := by
  refine ⟨fun s ch opened left force engaged good => ?_, fun s ch opened left force engaged good => ?_,
    fun s ch output off live alone new => .dioRaise (exec_shortSupply_present s ch output off live alone) new, cross_names, cellOverload_opens⟩
  · rw [← DioCh.retried_failed opened]
    exact overloadRetry_retries s ch true opened left force engaged good
  · rw [← DioCh.retried_closed]
    exact overloadRetry_retries s ch false opened left force engaged good

end Sys2Proof.Machine

namespace Sys2Proof.Machine
set_option Elab.async false

/-! Inputs and test pulses (08 R232-R234, R246-R249). -/

/-! Wire-break bands (08 R233, R234). -/

/-- A diagnostic of a channel follows its condition. -/
def DioCh.judged (x : DioDiag) (present : Bool) (c : DioCh) : DioCh := if present then DioCh.raise x c else DioCh.clear x c

@[simp] theorem DioCh.mem_clear {x y : DioDiag} {c : DioCh} : y ∈ (DioCh.clear x c).active ↔ y ∈ c.active ∧ y ≠ x := by
  simp [DioCh.clear]

theorem DioCh.mem_raise_ne {x y : DioDiag} (ne : y ≠ x) (c : DioCh) : y ∈ (DioCh.raise x c).active ↔ y ∈ c.active := by
  unfold DioCh.raise
  split
  · rfl
  · simp [ne]

theorem DioCh.mem_judged (x : DioDiag) (present : Bool) (c : DioCh) : x ∈ (c.judged x present).active ↔ present = true := by
  cases present <;> simp [DioCh.judged]

theorem DioCh.mem_judged_ne {x y : DioDiag} (ne : y ≠ x) (present : Bool) (c : DioCh) :
    y ∈ (c.judged x present).active ↔ y ∈ c.active := by
  cases present
  · exact DioCh.mem_clear.trans (and_iff_left ne)
  · exact DioCh.mem_raise_ne ne c

@[simp] theorem DioCh.band_judged (x : DioDiag) (present : Bool) (c : DioCh) : (c.judged x present).band = c.band := by
  cases present
  · rfl
  · exact DioCh.band_raise x c

@[simp] theorem DioCh.value_judged (x : DioDiag) (present : Bool) (c : DioCh) : (c.judged x present).value = c.value := by
  cases present
  · rfl
  · exact DioCh.value_raise x c

theorem State.getCh_dioDiag (s : State) (n i : Nat) (x : DioDiag) (present : Bool) :
    (s.dioDiag n x present).dio.getCh i = if i = n then (s.dio.getCh n).judged x present else s.dio.getCh i := by
  cases present
  · change (s.dio.setCh n _).getCh i = _
    by_cases own : i = n
    · rw [own, Dio.getCh_setCh, if_pos rfl]; rfl
    · rw [Dio.getCh_setCh_ne _ _ own, if_neg own]
  · exact s.getCh_dioRaise n i x

theorem State.moves_dioDiag (s : State) (n : Nat) (x : DioDiag) (present : Bool) : Moves s (s.dioDiag n x present) [.dio] [(.dio, x.bit)] := by
  cases present
  · exact s.moves_dio _ _
  · exact s.moves_dioRaise n x

@[simp] theorem State.cell_dioDiag (s : State) (n : Nat) (x : DioDiag) (present : Bool) : (s.dioDiag n x present).dio.cell = s.dio.cell := by
  cases present
  · rfl
  · exact s.cell_dioRaise n x

/-- The state in which a channel has entered a band, and its two diagnostics follow. -/
def State.bandEntered (s : State) (n : Nat) (b : WbBand) : State :=
  ((s.withDioCh n (DioCh.toBand b (s.dio.getCh n))).dioDiag n .wireBreak (b == .wireBreak)).dioDiag n .inputShort (b == .short)

/-- The channel that has entered a band. -/
def DioCh.bandEntered (b : WbBand) (c : DioCh) : DioCh :=
  ((DioCh.toBand b c).judged .wireBreak (b == .wireBreak)).judged .inputShort (b == .short)

theorem State.getCh_bandEntered (s : State) (n i : Nat) (b : WbBand) :
    (s.bandEntered n b).dio.getCh i = if i = n then (s.dio.getCh n).bandEntered b else s.dio.getCh i := by
  unfold State.bandEntered
  rw [State.getCh_dioDiag, State.getCh_dioDiag, State.getCh_dioDiag, if_pos rfl]
  by_cases own : i = n
  · rw [if_pos own, if_pos own]
    exact congrArg (fun c => (DioCh.judged _ _ c).judged _ _) (Dio.getCh_setCh _ _ _)
  · rw [if_neg own, if_neg own, if_neg own]
    exact Dio.getCh_setCh_ne _ _ own

theorem State.moves_bandEntered (s : State) (n : Nat) (b : WbBand) : Moves s (s.bandEntered n b) [.dio] [(.dio, 9), (.dio, 10)] :=
  ((s.moves_dio _ _).trans ((State.moves_dioDiag _ n .wireBreak _).mono (by simp) (by simp [DioDiag.bit]))).trans
    ((State.moves_dioDiag _ n .inputShort _).mono (by simp) (by simp [DioDiag.bit]))

theorem State.cell_bandEntered (s : State) (n : Nat) (b : WbBand) : (s.bandEntered n b).dio.cell = s.dio.cell := by
  unfold State.bandEntered
  rw [State.cell_dioDiag, State.cell_dioDiag]
  rfl

theorem DioCh.band_bandEntered (b : WbBand) (c : DioCh) : (c.bandEntered b).band = some b := by
  rw [DioCh.bandEntered, DioCh.band_judged, DioCh.band_judged]
  cases b <;> rfl

theorem DioCh.value_bandEntered (b : WbBand) (c : DioCh) : (c.bandEntered b).value = (DioCh.toBand b c).value := by
  rw [DioCh.bandEntered, DioCh.value_judged, DioCh.value_judged]

theorem DioCh.wireBreak_bandEntered (b : WbBand) (c : DioCh) : DioDiag.wireBreak ∈ (c.bandEntered b).active ↔ b = .wireBreak := by
  rw [DioCh.bandEntered, DioCh.mem_judged_ne (by decide), DioCh.mem_judged, beq_iff_eq]

theorem DioCh.inputShort_bandEntered (b : WbBand) (c : DioCh) : DioDiag.inputShort ∈ (c.bandEntered b).active ↔ b = .short := by
  rw [DioCh.bandEntered, DioCh.mem_judged, beq_iff_eq]

theorem exec_wireBreakBandChange (s : State) (ch : Fin 96) (b : WbBand) (watched : (s.dio.getCh ch).isWb = true)
    (change : (s.dio.getCh ch).band ≠ some b) : exec (.wireBreakBandChange ch b) s = .next (s.bandEntered ch b) :=
  if_neg (by simp [watched, change])

theorem wireBreakBandChange_enters (s : State) (ch : Fin 96) (b : WbBand) (watched : (s.dio.getCh ch).isWb = true)
    (change : (s.dio.getCh ch).band ≠ some b) :
    ∃ t, Changes (.wireBreakBandChange ch b) s t [.dio] [(.dio, 9), (.dio, 10)] ∧ t.dio.getCh ch = (s.dio.getCh ch).bandEntered b ∧
      (∀ i, i ≠ ch.val → t.dio.getCh i = s.dio.getCh i) ∧ t.dio.cell = s.dio.cell :=
  ⟨s.bandEntered ch b, (s.moves_bandEntered ch b).changes (exec_wireBreakBandChange s ch b watched change),
    (s.getCh_bandEntered ch ch b).trans (if_pos rfl), fun i other => (s.getCh_bandEntered ch i b).trans (if_neg other),
    s.cell_bandEntered ch b⟩

/-! Test pulses (08 R246-R249). -/

theorem State.pulseDue_of_interval {s : State} {n : Nat} (instant : s.time.ns.toNat = 2000000 + n * 1250000)
    (tested : (s.dio.getCh n).testInterval ≠ 0)
    (second : s.time.sec.toNat % (s.dio.getCh n).testInterval = n % (s.dio.getCh n).testInterval) : s.pulseDue n = true := by
  simp [State.pulseDue, instant, tested, second]

theorem exec_testPulseStart {s : State} {ch : Fin 96} {k : PulseKind} (due : s.pulseDue ch = true) (kind : s.dio.pulseKind ch = some k) :
    exec (.testPulseStart ch false) s =
      .next (s.withDioCh ch { s.dio.getCh ch with pulse := some k, pulseTick := s.tickNo, again := none }) := by
  change execTestPulseStart ch false s = _
  unfold execTestPulseStart
  rw [due, kind]
  rfl

/-- A demand on the same fine tick comes before the pulse (08 R249). -/
theorem exec_testPulseStart_demand {s : State} {ch : Fin 96} {k : PulseKind} (due : s.pulseDue ch = true)
    (kind : s.dio.pulseKind ch = some k) : exec (.testPulseStart ch true) s = .next { s with
      dio := (s.dio.setCh ch { s.dio.getCh ch with again := some (s.time.sec.toNat + 1) }).setCell (ch / 16) { s.dio.cellOf ch with
        preempted := Bits.sat 16 (s.dio.cellOf ch).preempted 1 } } := by
  change execTestPulseStart ch true s = _
  unfold execTestPulseStart
  rw [due, kind]
  rfl

/-- The verdict of a pulse that has ended (08 R248). -/
def State.pulseVerdict (s : State) (n : Nat) (m : PulseMeas) : PulseKind → State
  | .dark => s.darkEnd n m
  | .bright => s.brightEnd n m

/-- A pulse that has lasted its width is judged on the channel without it. -/
theorem exec_testPulseEnd (s : State) (ch : Fin 96) (m : PulseMeas) {k : PulseKind} (pulse : (s.dio.getCh ch).pulse = some k)
    (due : (s.dio.getCh ch).pulseTick + (s.dio.getCh ch).pulseTicks k ≤ s.tickNo) :
    exec (.testPulseEnd ch m) s = .next ((s.withDioCh ch (s.dio.getCh ch).endPulse).pulseVerdict ch m k) := by
  change execTestPulseEnd ch m s = _
  unfold execTestPulseEnd
  simp only [pulse]
  rw [if_neg (Nat.not_lt.mpr due)]
  cases k <;> rfl

theorem testPulseEnd_early (s : State) (ch : Fin 96) (m : PulseMeas) (k : PulseKind) (pulse : (s.dio.getCh ch).pulse = some k)
    (early : s.tickNo < (s.dio.getCh ch).pulseTick + (s.dio.getCh ch).pulseTicks k) : RunsTo (.testPulseEnd ch m) s s [] := by
  refine .quiet ?_ rfl
  change execTestPulseEnd ch m s = _
  unfold execTestPulseEnd
  simp only [pulse]
  exact if_pos early

theorem testPulseEnd_bright_passes (s : State) (ch : Fin 96) (m : PulseMeas) (pulse : (s.dio.getCh ch).pulse = some .bright)
    (due : (s.dio.getCh ch).pulseTick + (s.dio.getCh ch).pulseTicks .bright ≤ s.tickNo) (pass : brightOk m s.solo = true) :
    RunsTo (.testPulseEnd ch m) s (s.withDioCh ch (DioCh.clear .pulseFail (s.dio.getCh ch).endPulse)) [] :=
  .withDioCh_dioClear ((exec_testPulseEnd s ch m pulse due).trans (congrArg _ (if_pos pass)))

/-- The state in which the cell of a channel has counted a failed pulse. -/
def State.pulseFailCounted (s : State) (n : Nat) : State :=
  { s with dio := s.dio.setCell (n / 16) { s.dio.cellOf n with failed := Bits.sat 16 (s.dio.cellOf n).failed 1 } }

theorem testPulseEnd_bright_fails (s : State) (ch : Fin 96) (m : PulseMeas) (pulse : (s.dio.getCh ch).pulse = some .bright)
    (due : (s.dio.getCh ch).pulseTick + (s.dio.getCh ch).pulseTicks .bright ≤ s.tickNo) (fail : brightOk m s.solo = false)
    (new : DioDiag.pulseFail ∉ (s.dio.getCh ch).active) :
    RunsTo (.testPulseEnd ch m) s ((s.pulseFailCounted ch).withDioCh ch ((s.dio.getCh ch).endPulse.diagnosed .pulseFail)) [(.dio, 8)] := by
  have step : exec (.testPulseEnd ch m) s = .next (((s.pulseFailCounted ch).withDioCh ch (s.dio.getCh ch).endPulse).dioRaise ch .pulseFail) :=
    (exec_testPulseEnd s ch m pulse due).trans (congrArg _ (if_neg (ne_true_of_eq_false fail)))
  exact .withDioCh_dioRaise step new

theorem testPulseEnd_dark_falls (s : State) (ch : Fin 96) (m : PulseMeas) (pulse : (s.dio.getCh ch).pulse = some .dark)
    (due : (s.dio.getCh ch).pulseTick + (s.dio.getCh ch).pulseTicks .dark ≤ s.tickNo) (inward : m.outward = false) (uncrossed : m.cross = none)
    (high : m.lowSince = false) (fell : m.fell = true) :
    RunsTo (.testPulseEnd ch m) s (s.withDioCh ch (DioCh.clear .shortSupply (s.dio.getCh ch).endPulse)) [] := by
  refine .withDioCh_dioClear ((exec_testPulseEnd s ch m pulse due).trans (congrArg _ ?_))
  simp only [State.pulseVerdict, State.darkEnd, inward, uncrossed, high, fell, Bool.false_eq_true, if_false, if_true]

/-- Settles O38: an input takes its level and a wire-break channel its band; a due pulse begins unless a demand falls on its tick, and ends
with the verdict on its channel. -/
theorem dioInputsAndPulses : Obligations.DioInputsAndPulses := by
  refine ⟨fun s ch v input => .quiet (if_pos input) rfl, fun s ch b watched change => ?_, fun s ch k instant tested second kind => ?_,
    fun s ch k instant tested second kind => ?_, testPulseEnd_bright_passes, testPulseEnd_bright_fails, testPulseEnd_dark_falls,
    testPulseEnd_early⟩
  · obtain ⟨t, changes, own, others, cells⟩ := wireBreakBandChange_enters s ch b watched change
    refine ⟨t, changes, ?_, ?_, ?_, ?_, others, cells⟩
    all_goals rw [own]
    · exact DioCh.band_bandEntered _ _
    · exact (DioCh.value_bandEntered _ _).trans (by cases b <;> rfl)
    · exact DioCh.wireBreak_bandEntered _ _
    · exact DioCh.inputShort_bandEntered _ _
  · exact .quiet (exec_testPulseStart (State.pulseDue_of_interval instant tested second) kind) rfl
  · exact .quiet (exec_testPulseStart_demand (State.pulseDue_of_interval instant tested second) kind) rfl

end Sys2Proof.Machine

namespace Sys2Proof.Machine
set_option Elab.async false

/-! The crossings of the field cells and the loop cells (08 R226-R228, 09 R258, R259). -/

/-! Changes of a whole cell. -/

/-- From `old` to `new` every channel of cell `c` changes by `f`, and no other. -/
structure CellWide {α : Type} (c : Nat) (f : α → α) (old new : Nat → α) : Prop where
  inside  : ∀ n, n / 16 = c → new n = f (old n)
  outside : ∀ n, n / 16 ≠ c → new n = old n

/-- The digital cell `c` with its channels changed by `f` and the cell itself by `g`. -/
def Dio.modWhole (d : Dio) (c : Nat) (f : DioCh → DioCh) (g : DioCell → DioCell) : Dio := (d.modCellCh c f).modCell c g

theorem Dio.cellWide_modWhole (d : Dio) (c : Nat) (f : DioCh → DioCh) (g : DioCell → DioCell) :
    CellWide c f d.getCh (d.modWhole c f g).getCh :=
  ⟨fun n own => (d.getCh_modCellCh c f n).trans (if_pos own), fun n other => (d.getCh_modCellCh c f n).trans (if_neg other)⟩

theorem Dio.getCell_modWhole (d : Dio) (c : Nat) (f : DioCh → DioCh) (g : DioCell → DioCell) :
    (d.modWhole c f g).getCell c = g (d.getCell c) := Dio.getCell_setCell _ _ _

/-- The loop cell `c` with its channels changed by `f` and the cell itself by `g`. -/
def Aio.modWhole (d : Aio) (c : Nat) (f : AioCh → AioCh) (g : LoopCell → LoopCell) : Aio := (d.modCellCh c f).modCell c g

theorem Aio.cellWide_modWhole (d : Aio) (c : Nat) (f : AioCh → AioCh) (g : LoopCell → LoopCell) :
    CellWide c f d.getCh (d.modWhole c f g).getCh :=
  ⟨fun n own => (d.getCh_modCellCh c f n).trans (if_pos own), fun n other => (d.getCh_modCellCh c f n).trans (if_neg other)⟩

theorem Aio.getCell_modWhole (d : Aio) (c : Nat) (f : AioCh → AioCh) (g : LoopCell → LoopCell) :
    (d.modWhole c f g).getCell c = g (d.getCell c) := Aio.getCell_setCell _ _ _

theorem State.moves_aio (s : State) (d : Aio) (m : List (Block × Nat)) : Moves s { s with aio := d } [.aio] m := .set

/-- A command that changes a digital cell whole and reports it. -/
theorem changes_dioWhole {i : Instr} {s : State} {c bit obj : Nat} {w : Word} {f : DioCh → DioCh} {g : DioCell → DioCell}
    (e : exec i s = .next (({ s with dio := s.dio.modWhole c f g } : State).report .dio bit obj w)) (h : bit < 32) :
    ∃ t, Changes i s t [.dio] [(.dio, bit)] ∧ t.raised .dio bit = true ∧ t.dio.getCell c = g (s.dio.getCell c) ∧
      CellWide c f s.dio.getCh t.dio.getCh := by
  refine ⟨_, ((s.moves_dio _ _).report _ _ _ _ h List.mem_cons_self).changes e, State.raised_report _ _ _ _ _ h, ?_, ?_⟩
  all_goals rw [State.dio_report]
  · exact Dio.getCell_modWhole _ _ _ _
  · exact Dio.cellWide_modWhole _ _ _ _

/-- A command that changes a loop cell whole and reports it. -/
theorem changes_aioWhole {i : Instr} {s : State} {c bit obj : Nat} {w : Word} {f : AioCh → AioCh} {g : LoopCell → LoopCell}
    (e : exec i s = .next (({ s with aio := s.aio.modWhole c f g } : State).report .aio bit obj w)) (h : bit < 32) :
    ∃ t, Changes i s t [.aio] [(.aio, bit)] ∧ t.raised .aio bit = true ∧ t.aio.getCell c = g (s.aio.getCell c) ∧
      CellWide c f s.aio.getCh t.aio.getCh := by
  refine ⟨_, ((s.moves_aio _ _).report _ _ _ _ h List.mem_cons_self).changes e, State.raised_report _ _ _ _ _ h, ?_, ?_⟩
  all_goals rw [State.aio_report]
  · exact Aio.getCell_modWhole _ _ _ _
  · exact Aio.cellWide_modWhole _ _ _ _

/-! Frames (08 R226, 09 R258). -/

/-- A newer valid frame outside the crossing safe state leaves its flags with the cell. -/
theorem exec_cellFrame_down (s : State) (c : Fin 6) (seq : Nat) (newer : (s.dio.getCell c).seqDown < seq)
    (fresh : (s.dio.getCell c).safe = false) : exec (.cellFrame (.field c) true seq .down) s =
    .next { s with dio := s.dio.setCell c { s.dio.getCell c with
      seqDown := seq, safe := false, engage := s.sharedEngaged, partnerEng := s.partnerEngaged, sense := s.holdsToken } } := by
  change Host.Outcome.next (s.dioFrame c true seq .down) = _
  simp only [State.dioFrame, State.dioDown, newer, fresh, decide_true, Bool.and_self, if_true, Bool.false_eq_true, if_false]
  rfl

/-- A frame of a field cell that fails its CRC is counted, whatever it carries. -/
theorem cellFrame_field_corrupt (s : State) (c : Fin 6) (seq : Nat) (f : CrossFrame) :
    RunsTo (.cellFrame (.field c) false seq f) s { s with dio := s.dio.setCell c { s.dio.getCell c with
      crcCnt := Bits.inc (s.dio.getCell c).crcCnt } } [(.dio, 16)] := by
  have bad : s.dioFrame c false seq f = s.dioBadFrame c := by cases f <;> rfl
  exact .setEvent (congrArg Host.Outcome.next bad) rfl (by decide)

theorem exec_cellFrame_up (s : State) (c : Fin 2) (seq : Nat) (u : UpFrame) (newer : (s.aio.getCell c).seqUp < seq) :
    exec (.cellFrame (.loop c) true seq (.up u)) s = .next { s with aio := s.aio.setCell c { s.aio.getCell c with
      seqUp := seq, laplus := u.supplyMv % 65536, current := u.currentMa % 65536 } } :=
  congrArg Host.Outcome.next (if_pos (by simp only [newer, decide_true, Bool.and_self]))

/-- A frame of a loop cell that fails its CRC is counted, whatever it carries. -/
theorem cellFrame_loop_corrupt (s : State) (c : Fin 2) (seq : Nat) (f : CrossFrame) :
    RunsTo (.cellFrame (.loop c) false seq f) s { s with aio := s.aio.setCell c { s.aio.getCell c with
      crcCnt := Bits.inc (s.aio.getCell c).crcCnt } } [(.aio, 15)] := by
  have bad : s.aioFrame c false seq f = s.aioBadFrame c := by cases f <;> rfl
  exact .setEvent (congrArg Host.Outcome.next bad) rfl (by decide)

/-! The watchdog of a field cell (08 R227, R228). -/

/-- The force of a stage in its safe state: OFF while the partner drives or no supply stands, else as the channel's safe code asks. -/
def DioCh.safeForce (x : DioCell) (c : DioCh) : Bool :=
  if x.partnerEng || !x.supply.live then false
  else if c.safeCode = 1 then true
  else if c.safeCode = 2 then c.force else false

@[simp] theorem DioCh.engaged_raise (x : DioDiag) (c : DioCh) : (DioCh.raise x c).engaged = c.engaged := by rw [DioCh.raise_eq]
@[simp] theorem DioCh.safeCode_raise (x : DioDiag) (c : DioCh) : (DioCh.raise x c).safeCode = c.safeCode := by rw [DioCh.raise_eq]; rfl

/-- Whatever a stage does in its safe state, CROSSING stands and no pulse goes on. -/
theorem DioCh.goSafe_shows (x : DioCell) (c : DioCh) :
    DioDiag.crossing ∈ (DioCh.goSafe x c).active ∧ (DioCh.goSafe x c).pulse = none := by
  have raised := DioCh.mem_raise .crossing c
  unfold DioCh.goSafe
  dsimp only
  repeat' split
  all_goals exact ⟨raised, rfl⟩

theorem DioCh.force_goSafe_engaged {x : DioCell} {c : DioCh} (engage : x.engage = true) (engaged : c.engaged = true) :
    (DioCh.goSafe x c).force = c.safeForce x := by
  have still : (DioCh.raise .crossing c).endPulse.engaged = true := (DioCh.engaged_raise _ _).trans engaged
  have code : (DioCh.raise .crossing c).endPulse.safeCode = c.safeCode := DioCh.safeCode_raise _ _
  unfold DioCh.goSafe DioCh.safeForce
  simp only [engage, still, code, Bool.and_self, Bool.not_true, Bool.false_eq_true, if_false]
  split
  · rfl
  · split
    · next one => rw [if_pos one]
    · next two => rw [if_neg (by omega), if_pos two]; exact DioCh.force_raise _ _
    · next one two => rw [if_neg one, if_neg two]

theorem DioCh.force_goSafe_released {x : DioCell} (released : x.engage = false) (c : DioCh) : (DioCh.goSafe x c).force = c.force := by
  unfold DioCh.goSafe
  simp only [released, Bool.false_and, Bool.not_false, if_true]
  exact DioCh.force_raise _ _

theorem exec_crossingWatchdog (s : State) (c : Fin 6) (fresh : (s.dio.getCell c).safe = false) : ∃ w, exec (.crossingWatchdog c) s =
    .next (({ s with dio := s.dio.modWhole c (DioCh.goSafe (s.dio.getCell c)) (fun y => { y with safe := true }) } : State).report .dio 15 c w) :=
  ⟨_, if_neg (ne_true_of_eq_false fresh)⟩

theorem crossingWatchdog_goesSafe (s : State) (c : Fin 6) (fresh : (s.dio.getCell c).safe = false) :
    ∃ t, Changes (.crossingWatchdog c) s t [.dio] [(.dio, 15)] ∧ t.raised .dio 15 ∧ t.dio.getCell c = { s.dio.getCell c with safe := true } ∧
      (∀ n : Nat, n / 16 = c.val → DioDiag.crossing ∈ (t.dio.getCh n).active ∧ (t.dio.getCh n).pulse = none ∧
        ((s.dio.getCell c).engage → (s.dio.getCh n).engaged → (t.dio.getCh n).force = (s.dio.getCh n).safeForce (s.dio.getCell c)) ∧
        ((s.dio.getCell c).engage = false → (t.dio.getCh n).force = (s.dio.getCh n).force)) ∧
      ∀ n : Nat, n / 16 ≠ c.val → t.dio.getCh n = s.dio.getCh n := by
  obtain ⟨w, step⟩ := exec_crossingWatchdog s c fresh
  obtain ⟨t, changes, told, cell, wide⟩ := changes_dioWhole step (by decide)
  refine ⟨t, changes, told, cell, fun n own => ?_, wide.outside⟩
  rw [wide.inside n own]
  obtain ⟨shown, ended⟩ := DioCh.goSafe_shows (s.dio.getCell c) (s.dio.getCh n)
  exact ⟨shown, ended, DioCh.force_goSafe_engaged, fun released => DioCh.force_goSafe_released released _⟩

/-! The watchdog and the faults of a loop cell (09 R258, R259). -/

/-- Raising a diagnostic changes no more of an analogue channel than its diagnostics. -/
theorem AioCh.raise_eq (x : AioDiag) (c : AioCh) :
    AioCh.raise x c = { c with active := (AioCh.raise x c).active, lastDiag := (AioCh.raise x c).lastDiag } := by
  unfold AioCh.raise
  split <;> rfl

@[simp] theorem AioCh.share_raise (x : AioDiag) (c : AioCh) : (AioCh.raise x c).share = c.share := by rw [AioCh.raise_eq]
@[simp] theorem AioCh.target_raise (x : AioDiag) (c : AioCh) : (AioCh.raise x c).target = c.target := by rw [AioCh.raise_eq]
@[simp] theorem AioCh.feedOpen_raise (x : AioDiag) (c : AioCh) : (AioCh.raise x c).feedOpen = c.feedOpen := by rw [AioCh.raise_eq]
@[simp] theorem AioCh.isOutput_raise (x : AioDiag) (c : AioCh) : (AioCh.raise x c).isOutput = c.isOutput := by rw [AioCh.raise_eq]; rfl

/-- Whatever a source does in its safe state, CROSSING stands. -/
theorem AioCh.crossing_goSafe (x : LoopCell) (c : AioCh) : AioDiag.crossing ∈ (AioCh.goSafe x c).active := by
  have raised := AioCh.mem_raise .crossing c
  unfold AioCh.goSafe
  dsimp only
  repeat' split
  all_goals exact raised

/-- An output whose partner drives opens (09 R258). -/
theorem AioCh.goSafe_partner {x : LoopCell} {c : AioCh} (output : c.isOutput = true) (partner : x.partnerEng = true) :
    AioCh.goSafe x c = AioCh.open (AioCh.raise .crossing c) := by
  unfold AioCh.goSafe
  simp only [AioCh.isOutput_raise, output, partner, Bool.not_true, Bool.false_eq_true, if_false, Bool.or_true, Bool.true_or, if_true]

theorem exec_loopCrossingWatchdog (s : State) (c : Fin 2) (fresh : (s.aio.getCell c).safe = false) : ∃ w, exec (.loopCrossingWatchdog c) s =
    .next (({ s with aio := s.aio.modWhole c (AioCh.goSafe (s.aio.getCell c)) (fun y => { y with safe := true }) } : State).report .aio 14 c w) :=
  ⟨_, if_neg (ne_true_of_eq_false fresh)⟩

theorem loopCrossingWatchdog_goesSafe (s : State) (c : Fin 2) (fresh : (s.aio.getCell c).safe = false) :
    ∃ t, Changes (.loopCrossingWatchdog c) s t [.aio] [(.aio, 14)] ∧ t.raised .aio 14 ∧
      t.aio.getCell c = { s.aio.getCell c with safe := true } ∧
      (∀ n : Nat, n / 16 = c.val → AioDiag.crossing ∈ (t.aio.getCh n).active ∧
        ((s.aio.getCh n).isOutput → (s.aio.getCell c).partnerEng → (t.aio.getCh n).share = .released ∧ (t.aio.getCh n).target = 0)) ∧
      ∀ n : Nat, n / 16 ≠ c.val → t.aio.getCh n = s.aio.getCh n := by
  obtain ⟨w, step⟩ := exec_loopCrossingWatchdog s c fresh
  obtain ⟨t, changes, told, cell, wide⟩ := changes_aioWhole step (by decide)
  refine ⟨t, changes, told, cell, fun n own => ?_, wide.outside⟩
  rw [wide.inside n own]
  exact ⟨AioCh.crossing_goSafe _ _, fun output partner => by rw [AioCh.goSafe_partner output partner]; exact ⟨rfl, rfl⟩⟩

/-- A faulted loop cell opens every source and shows CROSSING on its channels. -/
theorem exec_loopCellFault (s : State) (c : Fin 2) : ∃ w, exec (.loopCellFault c) s =
    .next (({ s with aio := s.aio.modWhole c (fun x => AioCh.raise .crossing (AioCh.open x)) (fun y => { y with fault := true }) } :
      State).report .aio 14 c w) := ⟨_, rfl⟩

theorem loopCellFault_opens (s : State) (c : Fin 2) :
    ∃ t, Changes (.loopCellFault c) s t [.aio] [(.aio, 14)] ∧ t.raised .aio 14 ∧ t.aio.getCell c = { s.aio.getCell c with fault := true } ∧
      (∀ n : Nat, n / 16 = c.val →
        (t.aio.getCh n).share = .released ∧ (t.aio.getCh n).target = 0 ∧ AioDiag.crossing ∈ (t.aio.getCh n).active) ∧
      ∀ n : Nat, n / 16 ≠ c.val → t.aio.getCh n = s.aio.getCh n := by
  obtain ⟨w, step⟩ := exec_loopCellFault s c
  obtain ⟨t, changes, told, cell, wide⟩ := changes_aioWhole step (by decide)
  refine ⟨t, changes, told, cell, fun n own => ?_, wide.outside⟩
  rw [wide.inside n own]
  exact ⟨AioCh.share_raise _ _, AioCh.target_raise _ _, AioCh.mem_raise _ _⟩

/-- Settles O40: a newer valid frame leaves its content with the cell, one that fails its CRC is counted; a watchdog expiry puts the
channels of a cell in their safe state, and a faulted loop cell opens its sources. -/
theorem crossings : Obligations.Crossings :=
  ⟨fun s c seq newer fresh => .quiet (exec_cellFrame_down s c seq newer fresh) rfl, cellFrame_field_corrupt,
    fun s c seq u newer => .quiet (exec_cellFrame_up s c seq u newer) rfl, cellFrame_loop_corrupt, crossingWatchdog_goesSafe,
    loopCrossingWatchdog_goesSafe, loopCellFault_opens⟩

end Sys2Proof.Machine

namespace Sys2Proof.Machine
set_option Elab.async false

/-! The supplies of the field cells and of the loop cells (08 R250-R252, 09 R261). -/

/-! Sags (08 R250). -/

theorem exec_cellSag (s : State) (c : Fin 6) (good : (s.dio.getCell c).supply.good = true) : ∃ w, exec (.cellSag c) s =
    .next (({ s with dio := s.dio.modWhole c (fun x => DioCh.raise .undervoltage x.endPulse) (fun x => { x with supply := .sag }) } :
      State).report .dio 12 c w) :=
  ⟨_, if_pos good⟩

theorem cellSag_sags (s : State) (c : Fin 6) (good : (s.dio.getCell c).supply.good) :
    ∃ t, Changes (.cellSag c) s t [.dio] [(.dio, 12)] ∧ t.raised .dio 12 ∧ t.dio.getCell c = { s.dio.getCell c with supply := .sag } ∧
      (∀ n : Nat, n / 16 = c.val → DioDiag.undervoltage ∈ (t.dio.getCh n).active ∧
        (t.dio.getCh n).pulse = none ∧ (t.dio.getCh n).force = (s.dio.getCh n).force) ∧
      ∀ n : Nat, n / 16 ≠ c.val → t.dio.getCh n = s.dio.getCh n := by
  obtain ⟨w, step⟩ := exec_cellSag s c good
  obtain ⟨t, changes, told, cell, wide⟩ := changes_dioWhole step (by decide)
  refine ⟨t, changes, told, cell, fun n own => ?_, wide.outside⟩
  rw [wide.inside n own]
  exact ⟨DioCh.mem_raise _ _, DioCh.pulse_raise _ _, DioCh.force_raise _ _⟩

theorem DioCh.undervoltage_leaveSag (tick : Nat) (c : DioCh) : DioDiag.undervoltage ∉ (DioCh.leaveSag tick c).active := by
  have cleared : DioDiag.undervoltage ∉ (DioCh.clear .undervoltage c).active := fun h => (DioCh.mem_clear.mp h).2 rfl
  unfold DioCh.leaveSag
  dsimp only
  split <;> exact cleared

theorem DioCh.force_leaveSag (tick : Nat) (c : DioCh) : (DioCh.leaveSag tick c).force = c.force := by
  unfold DioCh.leaveSag
  dsimp only
  split <;> rfl

/-- A deferred ON resumes at a T0 (08 R250). -/
theorem DioCh.leaveSag_deferred (tick : Nat) {c : DioCh} (deferred : c.deferred = true) (waits : c.restore = .none) :
    (DioCh.leaveSag tick c).restore = .resume := by
  have still : ((DioCh.clear .undervoltage c).deferred && (DioCh.clear .undervoltage c).restore = .none) = true := by
    simp [DioCh.clear, deferred, waits]
  unfold DioCh.leaveSag
  dsimp only
  rw [if_pos still]

theorem cellSagExit_warns (s : State) (c : Fin 6) (sag : (s.dio.getCell c).supply = .sag) :
    ∃ t, Changes (.cellSagExit c) s t [.dio] [] ∧ t.dio.getCell c = { s.dio.getCell c with supply := .warn } ∧
      (∀ n : Nat, n / 16 = c.val → DioDiag.undervoltage ∉ (t.dio.getCh n).active ∧ (t.dio.getCh n).force = (s.dio.getCh n).force ∧
        ((s.dio.getCh n).deferred → (s.dio.getCh n).restore = .none → (t.dio.getCh n).restore = .resume)) ∧
      ∀ n : Nat, n / 16 ≠ c.val → t.dio.getCh n = s.dio.getCh n := by
  have step : exec (.cellSagExit c) s =
      .next { s with dio := s.dio.modWhole c (DioCh.leaveSag s.tickNo) (fun x => { x with supply := .warn }) } := if_pos sag
  have wide := s.dio.cellWide_modWhole c (DioCh.leaveSag s.tickNo) (fun x => { x with supply := .warn })
  refine ⟨_, (s.moves_dio _ _).changes step, Dio.getCell_modWhole _ _ _ _, fun n own => ?_, wide.outside⟩
  rw [wide.inside n own]
  exact ⟨DioCh.undervoltage_leaveSag _ _, DioCh.force_leaveSag _ _, DioCh.leaveSag_deferred _⟩

/-! Loss and return of a field supply (08 R250-R252). -/

theorem exec_cellSupplyLost (s : State) (c : Fin 6) (live : (s.dio.getCell c).supply.live = true) : ∃ w, exec (.cellSupplyLost c) s =
    .next (({ s with dio := s.dio.modWhole c DioCh.loseSupply (fun x => { x with supply := .lost, supplyLost := true }) } :
      State).report .dio 13 c w) :=
  ⟨_, if_pos live⟩

theorem cellSupplyLost_opens (s : State) (c : Fin 6) (live : (s.dio.getCell c).supply.live) :
    ∃ t, Changes (.cellSupplyLost c) s t [.dio] [(.dio, 13)] ∧ t.raised .dio 13 ∧
      t.dio.getCell c = { s.dio.getCell c with supply := .lost, supplyLost := true } ∧
      (∀ n : Nat, n / 16 = c.val → DioDiag.supplyLost ∈ (t.dio.getCh n).active ∧
        (t.dio.getCh n).force = false ∧ (t.dio.getCh n).deferred = false) ∧
      ∀ n : Nat, n / 16 ≠ c.val → t.dio.getCh n = s.dio.getCh n := by
  obtain ⟨w, step⟩ := exec_cellSupplyLost s c live
  obtain ⟨t, changes, told, cell, wide⟩ := changes_dioWhole step (by decide)
  refine ⟨t, changes, told, cell, fun n own => ?_, wide.outside⟩
  rw [wide.inside n own]
  exact ⟨DioCh.mem_raise _ _, DioCh.force_raise _ _, DioCh.deferred_raise _ _⟩

theorem exec_cellSupplyReturn_lost (s : State) (c : Fin 6) (mv : Nat) (lost : (s.dio.getCell c).supply = .lost) (back : 18000 ≤ mv) :
    exec (.cellSupplyReturn c mv) s =
      .next { s with dio := s.dio.setCell c { s.dio.getCell c with supply := .recovering, recovTick := s.tickNo } } :=
  if_pos (by simp [lost, back])

theorem exec_cellSupplyReturn_recovering (s : State) (c : Fin 6) (mv : Nat) (recovering : (s.dio.getCell c).supply = .recovering)
    (low : mv < 18000) :
    exec (.cellSupplyReturn c mv) s = .next { s with dio := s.dio.setCell c { s.dio.getCell c with supply := .lost } } :=
  (if_neg (by simp [recovering])).trans (if_pos (by simp [recovering, low]))

theorem DioCh.supplyLost_recover (tick : Nat) (c : DioCh) : DioDiag.supplyLost ∉ (DioCh.recover tick c).active := by
  have cleared : DioDiag.supplyLost ∉ (DioCh.clear .supplyLost c).active := fun h => (DioCh.mem_clear.mp h).2 rfl
  unfold DioCh.recover
  dsimp only
  repeat' split
  all_goals exact cleared

/-- A stage waits as its restore policy says (08 R252). -/
theorem DioCh.restore_recover (tick : Nat) {c : DioCh} (output : c.isOutput = true) :
    (DioCh.recover tick c).restore = if c.staysOff then .stayOff else .resume := by
  have still : (!(DioCh.clear .supplyLost c).isOutput) = false := congrArg Bool.not output
  have policy : (DioCh.clear .supplyLost c).staysOff = c.staysOff := rfl
  unfold DioCh.recover
  simp only [still, policy, Bool.false_eq_true, if_false]
  cases c.staysOff <;> rfl

/-- The state in which a cell has its supply again, at `mv`. -/
def State.cellSupplied (s : State) (c mv : Nat) : State :=
  { s with dio := s.dio.modWhole c (DioCh.recover s.tickNo) (fun x => { x with supply := if mv < 19200 then .warn else .normal }) }

theorem exec_cellRecovered (s : State) (c : Fin 6) (mv : Nat) (recovering : (s.dio.getCell c).supply = .recovering) (back : 18000 ≤ mv)
    (due : (s.dio.getCell c).recovTick + 1000 ≤ s.tickNo) :
    exec (.cellRecovered c mv) s = .next (((s.cellSupplied c mv).setEvent .dio 14).setEventIf (decide (mv < 19200)) .dio 11) := by
  refine (if_pos (by simp [recovering, back, due])).trans ?_
  simp only [State.cellSupplied, decide_eq_true_eq]
  rfl

theorem cellRecovered_restores (s : State) (c : Fin 6) (mv : Nat) (recovering : (s.dio.getCell c).supply = .recovering) (back : 18000 ≤ mv)
    (due : (s.dio.getCell c).recovTick + 1000 ≤ s.tickNo) :
    ∃ t, Changes (.cellRecovered c mv) s t [.dio] [(.dio, 11), (.dio, 14)] ∧ t.raised .dio 14 ∧ (mv < 19200 → t.raised .dio 11) ∧
      t.dio.getCell c = { s.dio.getCell c with supply := if mv < 19200 then .warn else .normal } ∧
      (∀ n : Nat, n / 16 = c.val → DioDiag.supplyLost ∉ (t.dio.getCh n).active ∧
        ((s.dio.getCh n).isOutput → (t.dio.getCh n).restore = if (s.dio.getCh n).staysOff then .stayOff else .resume)) ∧
      ∀ n : Nat, n / 16 ≠ c.val → t.dio.getCh n = s.dio.getCh n := by
  have moved : Moves s (s.cellSupplied c mv) [.dio] [(.dio, 11), (.dio, 14)] := s.moves_dio _ _
  have told := State.raised_setEvent (s.cellSupplied c mv) .dio 14 (by decide)
  have warned := State.raises_setEventIf ((s.cellSupplied c mv).setEvent .dio 14) (decide (mv < 19200)) .dio 11 (by decide)
  have dio : (((s.cellSupplied c mv).setEvent .dio 14).setEventIf (decide (mv < 19200)) .dio 11).dio = (s.cellSupplied c mv).dio := by
    rw [State.dio_setEventIf, State.dio_setEvent]
  have wide : CellWide c (DioCh.recover s.tickNo) s.dio.getCh (s.cellSupplied c mv).dio.getCh := Dio.cellWide_modWhole _ _ _ _
  refine ⟨_, ((moved.setEvent .dio 14 (by decide) (by simp)).setEventIf _ .dio 11 (by decide) (by simp)).changes
    (exec_cellRecovered s c mv recovering back due), warned.1 _ _ told, fun low => warned.2.1 (.dio, 11) (by simp [low]), ?_, fun n own => ?_, ?_⟩
  all_goals rw [dio]
  · exact Dio.getCell_modWhole _ _ _ _
  · rw [wide.inside n own]
    exact ⟨DioCh.supplyLost_recover _ _, DioCh.restore_recover _⟩
  · exact wide.outside

/-! Loop supplies (09 R261). -/

theorem AioCh.loseSupply_output {c : AioCh} (output : c.isOutput = true) :
    AioCh.loseSupply c = AioCh.raise .loopSupply (AioCh.open c) := if_pos output

theorem AioCh.loseSupply_loop {c : AioCh} (loop : c.isLoop = true) :
    AioCh.loseSupply c = AioCh.raise .loopSupply { c with feedOpen := true } := by
  have mode : c.mode = 2 := by simpa [AioCh.isLoop] using loop
  exact (if_neg (by simp [AioCh.isOutput, mode])).trans (if_pos loop)

/-- Without a calibration window the loss of a loop supply changes no more than its cell. -/
theorem exec_loopSupplyLost (s : State) (c : Fin 2) (stands : (s.aio.getCell c).supply ≠ .lost) (closed : s.aio.window = false) :
    ∃ w, exec (.loopSupplyLost c) s =
      .next (({ s with aio := s.aio.modWhole c AioCh.loseSupply (fun x => { x with supply := .lost }) } : State).report .aio 12 c w) := by
  have none : (s.aio.window && s.aio.calCh / 16 == c) = false := by rw [closed, Bool.false_and]
  change ∃ w, execLoopSupplyLost c s = _
  unfold execLoopSupplyLost
  rw [if_pos stands]
  simp only [none, Bool.false_eq_true, if_false]
  exact ⟨_, rfl⟩

theorem loopSupplyLost_opens (s : State) (c : Fin 2) (stands : (s.aio.getCell c).supply ≠ .lost) (closed : s.aio.window = false) :
    ∃ t, Changes (.loopSupplyLost c) s t [.aio] [(.aio, 12)] ∧ t.raised .aio 12 ∧ t.aio.getCell c = { s.aio.getCell c with supply := .lost } ∧
      (∀ n : Nat, n / 16 = c.val →
        ((s.aio.getCh n).isOutput →
          (t.aio.getCh n).share = .released ∧ (t.aio.getCh n).target = 0 ∧ AioDiag.loopSupply ∈ (t.aio.getCh n).active) ∧
        ((s.aio.getCh n).isLoop → (t.aio.getCh n).feedOpen = true ∧ AioDiag.loopSupply ∈ (t.aio.getCh n).active)) ∧
      ∀ n : Nat, n / 16 ≠ c.val → t.aio.getCh n = s.aio.getCh n := by
  obtain ⟨w, step⟩ := exec_loopSupplyLost s c stands closed
  obtain ⟨t, changes, told, cell, wide⟩ := changes_aioWhole step (by decide)
  refine ⟨t, changes, told, cell, fun n own => ⟨fun output => ?_, fun loop => ?_⟩, wide.outside⟩
  · rw [wide.inside n own, AioCh.loseSupply_output output]
    exact ⟨AioCh.share_raise _ _, AioCh.target_raise _ _, AioCh.mem_raise _ _⟩
  · rw [wide.inside n own, AioCh.loseSupply_loop loop]
    exact ⟨AioCh.feedOpen_raise _ _, AioCh.mem_raise _ _⟩

theorem AioCh.loopSupply_supplyBack (fault : Bool) (c : AioCh) : AioDiag.loopSupply ∉ (AioCh.supplyBack fault c).active := by
  have cleared : AioDiag.loopSupply ∉ (AioCh.clear .loopSupply c).active := by simp [AioCh.clear]
  unfold AioCh.supplyBack
  dsimp only
  repeat' split
  all_goals exact cleared

/-- An engaged source of a sound cell ramps at the next T0 (09 R261). -/
theorem AioCh.rampAtT0_supplyBack (fault : Bool) {c : AioCh} (output : c.isOutput = true) :
    (AioCh.supplyBack fault c).rampAtT0 = (c.engaged && !fault) := congrArg AioCh.rampAtT0 (if_pos output)

/-- The state in which a loop cell has its supply again, at `mv`. -/
def State.loopSupplied (s : State) (c mv : Nat) : State :=
  { s with aio := s.aio.modWhole c (AioCh.supplyBack (s.aio.getCell c).fault) (fun x => { x with supply := if 22000 ≤ mv then .normal else .low }) }

theorem exec_loopSupplyBack (s : State) (c : Fin 2) (mv : Nat) (lost : (s.aio.getCell c).supply = .lost) (back : 18000 ≤ mv) :
    exec (.loopSupplyBack c mv) s = .next ((s.loopSupplied c mv).setEvent .aio 13) :=
  if_pos (by simp [lost, back])

theorem loopSupplyBack_restores (s : State) (c : Fin 2) (mv : Nat) (lost : (s.aio.getCell c).supply = .lost) (back : 18000 ≤ mv) :
    ∃ t, Changes (.loopSupplyBack c mv) s t [.aio] [(.aio, 13)] ∧ t.raised .aio 13 ∧
      t.aio.getCell c = { s.aio.getCell c with supply := if 22000 ≤ mv then .normal else .low } ∧
      (∀ n : Nat, n / 16 = c.val → AioDiag.loopSupply ∉ (t.aio.getCh n).active ∧
        ((s.aio.getCh n).isOutput → (t.aio.getCh n).rampAtT0 = ((s.aio.getCh n).engaged && !(s.aio.getCell c).fault))) ∧
      ∀ n : Nat, n / 16 ≠ c.val → t.aio.getCh n = s.aio.getCh n := by
  have moved : Moves s (s.loopSupplied c mv) [.aio] [(.aio, 13)] := s.moves_aio _ _
  have wide : CellWide c (AioCh.supplyBack (s.aio.getCell c).fault) s.aio.getCh (s.loopSupplied c mv).aio.getCh := Aio.cellWide_modWhole _ _ _ _
  refine ⟨_, (moved.setEvent .aio 13 (by decide) List.mem_cons_self).changes (exec_loopSupplyBack s c mv lost back),
    State.raised_setEvent _ _ _ (by decide), ?_, fun n own => ?_, ?_⟩
  all_goals rw [State.aio_setEvent]
  · exact Aio.getCell_modWhole _ _ _ _
  · rw [wide.inside n own]
    exact ⟨AioCh.loopSupply_supplyBack _ _, AioCh.rampAtT0_supplyBack _⟩
  · exact wide.outside

/-- Settles O39: a warning, a low supply or a return changes its cell alone; a sag, a loss or a recovery changes every channel of the
cell with it. -/
theorem cellSupplies : Obligations.CellSupplies :=
  ⟨fun _ _ normal => .setEvent (if_pos normal) rfl (by decide), fun _ _ warn => .quiet (if_pos warn) rfl, cellSag_sags, cellSagExit_warns,
    cellSupplyLost_opens, fun s c mv lost back => .quiet (exec_cellSupplyReturn_lost s c mv lost back) rfl,
    fun s c mv recovering low => .quiet (exec_cellSupplyReturn_recovering s c mv recovering low) rfl, cellRecovered_restores,
    fun _ _ normal => .setEvent (if_pos normal) rfl (by decide), fun _ _ low => .quiet (if_pos low) rfl, loopSupplyLost_opens,
    loopSupplyBack_restores⟩

end Sys2Proof.Machine

namespace Sys2Proof.Machine
set_option Elab.async false

/-! The shared source of an analogue output (09 R267-R274). -/

/-! Diagnostics of an analogue channel (09 R274). -/

theorem AioDiag.bit_lt (x : AioDiag) : x.bit < 32 := by cases x <;> decide

/-- The state with one analogue channel put. -/
def State.withAioCh (s : State) (n : Nat) (c : AioCh) : State := { s with aio := s.aio.setCh n c }

@[simp] theorem State.getCh_withAioCh (s : State) (n : Nat) (c : AioCh) : (s.withAioCh n c).aio.getCh n = c := Aio.getCh_setCh _ _ _

@[simp] theorem State.withAioCh_withAioCh (s : State) (n : Nat) (a b : AioCh) : (s.withAioCh n a).withAioCh n b = s.withAioCh n b :=
  congrArg (fun d => { s with aio := d }) (Aio.setCh_setCh _ _ _ _)

/-- The channel with a new diagnostic. -/
def AioCh.diagnosed (x : AioDiag) (c : AioCh) : AioCh := { c with active := x :: c.active, lastDiag := some x }

theorem AioCh.raise_of_new {x : AioDiag} {c : AioCh} (new : x ∉ c.active) : AioCh.raise x c = c.diagnosed x :=
  if_neg (by simpa using new)

/-- A new diagnostic is raised on its channel alone and reported. -/
theorem State.aioRaise_of_new {s : State} {n : Nat} {x : AioDiag} (new : x ∉ (s.aio.getCh n).active) :
    ∃ w, s.aioRaise n x = (s.withAioCh n ((s.aio.getCh n).diagnosed x)).report .aio x.bit n w := by
  rw [← AioCh.raise_of_new new]
  exact ⟨_, if_neg (by simpa using new)⟩

/-- A command that raises one new diagnostic. -/
theorem RunsTo.aioRaise {i : Instr} {s u : State} {n : Nat} {x : AioDiag} (e : exec i s = .next (u.aioRaise n x))
    (new : x ∉ (u.aio.getCh n).active) (he : u.event = s.event := by rfl) :
    RunsTo i s (u.withAioCh n ((u.aio.getCh n).diagnosed x)) [(.aio, x.bit)] := by
  obtain ⟨w, raised⟩ := State.aioRaise_of_new new
  exact .mk _ (e.trans (congrArg _ raised)) (State.bare_report _ _ _ _ _) ((State.raises_report _ _ _ _ _ x.bit_lt).from he)

/-- A command that changes a channel and raises one new diagnostic on it. -/
theorem RunsTo.withAioCh_aioRaise {i : Instr} {s : State} {n : Nat} {c : AioCh} {x : AioDiag}
    (e : exec i s = .next ((s.withAioCh n c).aioRaise n x)) (new : x ∉ c.active) :
    RunsTo i s (s.withAioCh n (c.diagnosed x)) [(.aio, x.bit)] := by
  have run := RunsTo.aioRaise e (by rwa [State.getCh_withAioCh])
  rwa [State.getCh_withAioCh, State.withAioCh_withAioCh] at run

/-! Share modes (09 R267, R268). -/

theorem exec_trimUpdate (s : State) (ch : Fin 32) (e : Int) (half : (s.aio.getCh ch).share = .half)
    (outside : (s.aio.getCh ch).inCompl = false) (noCal : (s.aio.getCh ch).cal = false) (frames : (s.aio.cellOf ch).safe = false) :
    exec (.trimUpdate ch e false) s = .next (s.withAioCh ch { s.aio.getCh ch with
      trim := max (-50000) (min 50000 ((s.aio.getCh ch).trim + e / 2))
      target := ((s.aio.getCh ch).cmd : Int) / 2 + max (-50000) (min 50000 ((s.aio.getCh ch).trim + e / 2)) }) :=
  if_pos (by simp [half, outside, noCal, frames])

/-- TRIM returns to 0 with a new share mode. -/
theorem AioCh.toShare_of_ne {m : Share} {c : AioCh} (new : c.share ≠ m) :
    AioCh.toShare m c = { c with share := m, trim := 0, target := AioCh.shareTarget { c with share := m, trim := 0 } } := by
  unfold AioCh.toShare
  rw [if_neg new]

theorem AioCh.shareTarget_half {c : AioCh} (half : c.share = .half) (untrimmed : c.trim = 0) : c.shareTarget = (c.cmd : Int) / 2 := by
  simp [AioCh.shareTarget, half, untrimmed]

theorem AioCh.shareTarget_makeup {c : AioCh} (makeup : c.share = .makeup) (outside : c.inCompl = false) :
    c.shareTarget = clampSource (c.cmd - c.iP) := by
  simp [AioCh.shareTarget, makeup, outside]

/-- The source once it is in MAKEUP for the partner's current `iP`, with PARTNER_ENGAGED as `partner`. -/
def AioCh.madeUp (partner : Bool) (iP : Int) (c : AioCh) : AioCh :=
  { c with pe := partner, share := .makeup, trim := 0, iP := iP, target := clampSource (c.cmd - iP) }

theorem AioCh.makeUp_enters {c : AioCh} (partner : Bool) (iP : Int) (new : c.share ≠ .makeup) (outside : c.inCompl = false) :
    AioCh.makeUp iP { c with pe := partner } = c.madeUp partner iP := by
  unfold AioCh.makeUp
  rw [AioCh.toShare_of_ne (by exact new), AioCh.shareTarget_makeup rfl (by exact outside)]
  rfl

/-- What is assumed of a source that may enter MAKEUP (09 R267, R268): it carries its share, outside compliance and calibration, in a cell
that takes frames. -/
structure State.Shares (s : State) (n : Nat) : Prop where
  engaged : (s.aio.getCh n).engaged = true
  carries : (s.aio.getCh n).share = .half ∨ (s.aio.getCh n).share = .full
  outside : (s.aio.getCh n).inCompl = false
  noCal   : (s.aio.getCh n).cal = false
  frames  : (s.aio.cellOf n).safe = false

theorem State.Shares.ne_makeup {s : State} {n : Nat} (h : s.Shares n) : (s.aio.getCh n).share ≠ .makeup := by
  rcases h.carries with half | full
  · simp [half]
  · simp [full]

theorem State.Shares.ne_released {s : State} {n : Nat} (h : s.Shares n) : (s.aio.getCh n).share ≠ .released := by
  rcases h.carries with half | full
  · simp [half]
  · simp [full]

/-- What makes a source enter MAKEUP (09 R268): a change of PARTNER_ENGAGED, or three samples with the partner away from its share. -/
def State.makesUp (s : State) (n : Nat) (samples : List (Int × Int)) (recentChange : Bool) : Prop :=
  (s.aio.getCh n).pe ≠ s.partnerEngaged ∨
    samples.length = 3 ∧ (∀ e ∈ samples, (s.aio.getCh n).deviates e.1 e.2 = true) ∧ recentChange = false ∧ (s.aio.getCh n).ramp = .none

theorem exec_makeupEnter {s : State} {ch : Fin 32} {l : List (Int × Int)} {iT iOwn : Int} {b : Bool} (shares : s.Shares ch)
    (last : l.getLast? = some (iT, iOwn)) (cause : s.makesUp ch l b) : exec (.makeupEnter ch l b false) s =
      .next ((s.withAioCh ch (AioCh.makeUp (iT - iOwn) { s.aio.getCh ch with pe := s.partnerEngaged })).setEvent .aio 7) := by
  have unlimited : l.any (fun e => (s.aio.getCh ch).complies e.1 false) = false := List.any_eq_false.mpr fun _ _ => Bool.false_ne_true
  change execMakeupEnter ch l b false s = _
  unfold execMakeupEnter
  dsimp only
  rw [last, unlimited]
  refine (if_neg (by simp [shares.engaged, shares.ne_released, shares.outside, shares.noCal, shares.frames])).trans
    ((if_neg shares.ne_makeup).trans (if_pos ?_))
  rcases cause with partner | ⟨three, away, settled, flat⟩
  · simp [partner]
  · simp [three, List.all_eq_true.mpr away, settled, flat]

theorem makeupEnter_enters {s : State} {ch : Fin 32} {l : List (Int × Int)} {iT iOwn : Int} {b : Bool} (shares : s.Shares ch)
    (last : l.getLast? = some (iT, iOwn)) (cause : s.makesUp ch l b) :
    RunsTo (.makeupEnter ch l b false) s (s.withAioCh ch ((s.aio.getCh ch).madeUp s.partnerEngaged (iT - iOwn))) [(.aio, 7)] := by
  have step := exec_makeupEnter shares last cause
  rw [AioCh.makeUp_enters _ _ shares.ne_makeup shares.outside] at step
  exact .setEvent step rfl (by decide)

theorem exec_makeupExit_full (s : State) (ch : Fin 32) (i : Int) (makeup : (s.aio.getCh ch).share = .makeup)
    (noCal : (s.aio.getCh ch).cal = false) (frames : (s.aio.cellOf ch).safe = false) (alone : s.partnerEngaged = false) (low : i < 120000) :
    exec (.makeupExit ch i) s = .next (s.withAioCh ch (AioCh.toShare .full { s.aio.getCh ch with iP := i })) :=
  (if_neg (by simp [makeup, noCal, frames])).trans (if_pos (by simp [alone, low]))

theorem exec_makeupExit_half (s : State) (ch : Fin 32) (i : Int) (makeup : (s.aio.getCh ch).share = .makeup)
    (noCal : (s.aio.getCh ch).cal = false) (frames : (s.aio.cellOf ch).safe = false) (partner : s.partnerEngaged = true)
    (near : (i - ((s.aio.getCh ch).cmd : Int) / 2).natAbs ≤ 120000) :
    exec (.makeupExit ch i) s = .next (s.withAioCh ch (AioCh.toShare .half { s.aio.getCh ch with iP := i })) :=
  (if_neg (by simp [makeup, noCal, frames])).trans ((if_neg (by simp [partner])).trans (if_pos (by simp [partner, near])))

theorem makeupExit_full (s : State) (ch : Fin 32) (i : Int) (makeup : (s.aio.getCh ch).share = .makeup)
    (noCal : (s.aio.getCh ch).cal = false) (frames : (s.aio.cellOf ch).safe = false) (alone : s.partnerEngaged = false) (low : i < 120000) :
    RunsTo (.makeupExit ch i) s (s.withAioCh ch { s.aio.getCh ch with
      share := .full, trim := 0, iP := i, target := (s.aio.getCh ch).cmd }) [] := by
  have step := exec_makeupExit_full s ch i makeup noCal frames alone low
  rw [AioCh.toShare_of_ne (by simp [makeup])] at step
  exact .quiet step rfl

theorem makeupExit_half (s : State) (ch : Fin 32) (i : Int) (makeup : (s.aio.getCh ch).share = .makeup)
    (noCal : (s.aio.getCh ch).cal = false) (frames : (s.aio.cellOf ch).safe = false) (partner : s.partnerEngaged = true)
    (near : (i - ((s.aio.getCh ch).cmd : Int) / 2).natAbs ≤ 120000) :
    RunsTo (.makeupExit ch i) s (s.withAioCh ch { s.aio.getCh ch with
      share := .half, trim := 0, iP := i, target := ((s.aio.getCh ch).cmd : Int) / 2 }) [] := by
  have step := exec_makeupExit_half s ch i makeup noCal frames partner near
  rw [AioCh.toShare_of_ne (by simp [makeup]), AioCh.shareTarget_half rfl rfl] at step
  exact .quiet step rfl

/-! Release and faults of a source (09 R269, R270). -/

theorem exec_sourceRampEnd_release (s : State) (ch : Fin 32) (release : (s.aio.getCh ch).ramp = .release) :
    exec (.sourceRampEnd ch) s = .next (s.withAioCh ch (AioCh.open (s.aio.getCh ch))) := by
  change execSourceRampEnd ch s = _
  unfold execSourceRampEnd
  rw [release]
  rfl

theorem exec_sourceFault (s : State) (ch : Fin 32) (i : Int) (output : (s.aio.getCh ch).isOutput = true)
    (closed : (s.aio.getCh ch).share ≠ .released) (outside : (s.aio.getCh ch).inCompl = false)
    (away : 120000 < (i - (s.aio.getCh ch).target).natAbs) :
    exec (.sourceFault ch i) s =
      .next ((s.withAioCh ch { AioCh.open (s.aio.getCh ch) with srcFault := true }).aioRaise ch .sourceFault) :=
  if_pos (by simp [output, closed, outside, away])

/-! Loop diagnostics (09 R272-R274). -/

theorem exec_compliance_present (s : State) (ch : Fin 32) (output : (s.aio.getCh ch).isOutput = true)
    (closed : (s.aio.getCh ch).share ≠ .released) (loop : AioDiag.openLoop ∉ (s.aio.getCh ch).active) :
    exec (.compliance ch true) s = .next ((s.withAioCh ch { s.aio.getCh ch with inCompl := true }).aioRaise ch .compliance) :=
  (if_neg (by simp [output, closed])).trans (if_neg (by simp [loop]))

theorem exec_openLoop_present (s : State) (ch : Fin 32) (output : (s.aio.getCh ch).isOutput = true)
    (closed : (s.aio.getCh ch).share ≠ .released) (commanded : 1000000 ≤ (s.aio.getCh ch).cmd) :
    exec (.openLoop ch true) s = .next ((s.withAioCh ch (AioCh.clear .compliance (s.aio.getCh ch))).aioRaise ch .openLoop) :=
  if_pos (by simp [output, closed, commanded])

theorem exec_readbackDiff_present (s : State) (ch : Fin 32) (used : (s.aio.getCh ch).mode ≠ 0) :
    exec (.readbackDiff ch true) s = .next (s.aioRaise ch .readbackDiff) := if_neg used

/-- Clearing a diagnostic raises no other. -/
theorem AioCh.not_mem_clear {x y : AioDiag} {c : AioCh} (absent : y ∉ c.active) : y ∉ (AioCh.clear x c).active :=
  fun h => absent (List.mem_of_mem_filter h)

/-- Settles O41: a source takes a share mode with its target, opens after its release and at a fault, and each diagnostic of its loop is
raised once. -/
theorem aioSources : Obligations.AioSources :=
  ⟨fun s ch e half outside noCal frames => .quiet (exec_trimUpdate s ch e half outside noCal frames) rfl,
    fun _ _ _ _ _ _ engaged carries outside noCal frames last partner =>
      makeupEnter_enters ⟨engaged, carries, outside, noCal, frames⟩ last (.inl partner),
    fun _ _ _ _ _ engaged carries outside noCal frames flat away =>
      makeupEnter_enters ⟨engaged, carries, outside, noCal, frames⟩ rfl (.inr ⟨rfl, away, rfl, flat⟩),
    makeupExit_full, makeupExit_half, fun s ch release => .quiet (exec_sourceRampEnd_release s ch release) rfl,
    fun s ch i output closed outside away new => .withAioCh_aioRaise (exec_sourceFault s ch i output closed outside away) new,
    fun s ch output closed loop new => .withAioCh_aioRaise (exec_compliance_present s ch output closed loop) new,
    fun s ch output closed commanded new =>
      .withAioCh_aioRaise (exec_openLoop_present s ch output closed commanded) (AioCh.not_mem_clear new),
    fun s ch used new => .aioRaise (exec_readbackDiff_present s ch used) new⟩

end Sys2Proof.Machine

namespace Sys2Proof.Machine
set_option Elab.async false

/-! Conversions, bands, the loop feed and the grid-sense inputs (09 R263-R265, R283). -/

/-! Bands of an input (09 R264, R265). -/

@[simp] theorem AioCh.raw_raise (x : AioDiag) (c : AioCh) : (AioCh.raise x c).raw = c.raw := by rw [AioCh.raise_eq]
@[simp] theorem AioCh.fresh_raise (x : AioDiag) (c : AioCh) : (AioCh.raise x c).fresh = c.fresh := by rw [AioCh.raise_eq]
@[simp] theorem AioCh.band_raise (x : AioDiag) (c : AioCh) : (AioCh.raise x c).band = c.band := by rw [AioCh.raise_eq]

/-- The channel in a new band, before the band's diagnostic is raised. -/
def AioCh.enterBand (b : AioBand) (c : AioCh) : AioCh :=
  { AioCh.dropBands c with band := b, feedOpen := c.feedOpen || (b == .overCurrent && c.isLoop) }

/-- What is assumed of an input whose value lies in another band with a diagnostic, and that no opened loop feed holds back. -/
structure AioCh.Enters (c : AioCh) (b : AioBand) (x : AioDiag) : Prop where
  input  : c.isInput = true
  change : b ≠ c.band
  free   : c.feedOpen = false ∨ c.band ≠ .overCurrent
  shown  : b.diag = some x

theorem State.bandTo_enters {s : State} {n : Nat} {b : AioBand} {x : AioDiag} (h : (s.aio.getCh n).Enters b x) :
    s.bandTo n b = (s.withAioCh n ((s.aio.getCh n).enterBand b)).aioRaise n x := by
  have moves : (!(s.aio.getCh n).isInput || decide (b = (s.aio.getCh n).band) ||
      (s.aio.getCh n).isLoop && (s.aio.getCh n).feedOpen && (s.aio.getCh n).band == .overCurrent) = false := by
    rcases h.free with closed | other
    · simp [h.input, h.change, closed]
    · simp [h.input, h.change, other]
  unfold State.bandTo
  dsimp only
  rw [if_neg (ne_true_of_eq_false moves), h.shown]
  rfl

theorem State.moves_bandTo {s : State} {n : Nat} {b : AioBand} {x : AioDiag} (h : (s.aio.getCh n).Enters b x) :
    Moves s (s.bandTo n b) [.aio] [(.aio, x.bit)] := by
  rw [State.bandTo_enters h]
  exact (s.moves_aio _ _).trans (State.moves_aioRaise _ _ _)

theorem State.getCh_bandTo {s : State} {n : Nat} {b : AioBand} {x : AioDiag} (h : (s.aio.getCh n).Enters b x) :
    (s.bandTo n b).aio.getCh n = AioCh.raise x ((s.aio.getCh n).enterBand b) := by
  rw [State.bandTo_enters h, State.getCh_aioRaise, if_pos rfl, State.getCh_withAioCh]

theorem State.getCh_bandTo_ne {s : State} {n i : Nat} {b : AioBand} {x : AioDiag} (h : (s.aio.getCh n).Enters b x) (other : i ≠ n) :
    (s.bandTo n b).aio.getCh i = s.aio.getCh i := by
  rw [State.bandTo_enters h, State.getCh_aioRaise, if_neg other]
  exact Aio.getCh_setCh_ne _ _ other

/-- No band of a value opens a loop feed. -/
theorem aioBandOf_ne_overCurrent (ne43 : Bool) (na : Int) : aioBandOf ne43 na ≠ .overCurrent := by
  unfold aioBandOf
  repeat' split
  all_goals decide

theorem AioCh.feedOpen_enterBand {b : AioBand} (quiet : b ≠ .overCurrent) (c : AioCh) : (c.enterBand b).feedOpen = c.feedOpen := by
  simp [AioCh.enterBand, quiet]

theorem AioCh.feedOpen_enterBand_overCurrent {c : AioCh} (loop : c.isLoop = true) : (c.enterBand .overCurrent).feedOpen = true := by
  simp [AioCh.enterBand, loop]

theorem AioCh.isInput_of_isLoop {c : AioCh} (loop : c.isLoop = true) : c.isInput = true := by
  have mode : c.mode = 2 := by simpa [AioCh.isLoop] using loop
  simp [AioCh.isInput, mode]

/-- A command that enters a band changes its channel alone and shows the band's diagnostic. -/
theorem changes_bandTo {i : Instr} {s : State} {n : Nat} {b : AioBand} {x : AioDiag} (e : exec i s = .next (s.bandTo n b))
    (h : (s.aio.getCh n).Enters b x) :
    ∃ t, Changes i s t [.aio] [(.aio, x.bit)] ∧ (t.aio.getCh n).band = b ∧ x ∈ (t.aio.getCh n).active ∧
      (t.aio.getCh n).feedOpen = ((s.aio.getCh n).enterBand b).feedOpen ∧ ∀ i, i ≠ n → t.aio.getCh i = s.aio.getCh i := by
  refine ⟨_, (State.moves_bandTo h).changes e, ?_, ?_, ?_, fun _ other => State.getCh_bandTo_ne h other⟩
  all_goals rw [State.getCh_bandTo h]
  · exact AioCh.band_raise _ _
  · exact AioCh.mem_raise _ _
  · exact AioCh.feedOpen_raise _ _

theorem exec_aioBandChange_value (s : State) (ch : Fin 32) (na : Int) :
    exec (.aioBandChange ch na false) s = .next (s.bandTo ch (aioBandOf (s.aio.getCh ch).ne43 na)) := rfl

theorem exec_aioBandChange_overCurrent (s : State) (ch : Fin 32) (na : Int) (high : 25000000 < na) :
    exec (.aioBandChange ch na true) s = .next (s.bandTo ch .overCurrent) :=
  congrArg (fun b => Host.Outcome.next (s.bandTo ch b)) (if_pos (by simp [high]))

theorem aioBandChange_value (s : State) (ch : Fin 32) (na : Int) (x : AioDiag)
    (h : (s.aio.getCh ch).Enters (aioBandOf (s.aio.getCh ch).ne43 na) x) :
    ∃ t, Changes (.aioBandChange ch na false) s t [.aio] [(.aio, x.bit)] ∧ (t.aio.getCh ch).band = aioBandOf (s.aio.getCh ch).ne43 na ∧
      x ∈ (t.aio.getCh ch).active ∧ (t.aio.getCh ch).feedOpen = (s.aio.getCh ch).feedOpen ∧
      ∀ i, i ≠ ch.val → t.aio.getCh i = s.aio.getCh i := by
  have moved := changes_bandTo (exec_aioBandChange_value s ch na) h
  rwa [AioCh.feedOpen_enterBand (aioBandOf_ne_overCurrent _ _)] at moved

/-- A current above 25.0 mA opens the loop feed (09 R265). -/
theorem aioBandChange_overCurrent (s : State) (ch : Fin 32) (na : Int) (loop : (s.aio.getCh ch).isLoop = true)
    (new : (s.aio.getCh ch).band ≠ .overCurrent) (high : 25000000 < na) :
    ∃ t, Changes (.aioBandChange ch na true) s t [.aio] [(.aio, 3)] ∧ (t.aio.getCh ch).band = .overCurrent ∧
      AioDiag.overCurrent ∈ (t.aio.getCh ch).active ∧ (t.aio.getCh ch).feedOpen = true ∧
      ∀ i, i ≠ ch.val → t.aio.getCh i = s.aio.getCh i := by
  have moved := changes_bandTo (exec_aioBandChange_overCurrent s ch na high) ⟨AioCh.isInput_of_isLoop loop, new.symm, .inr new, rfl⟩
  rwa [AioCh.feedOpen_enterBand_overCurrent loop] at moved

/-! Conversions (09 R263, R264). -/

/-- Keeping a good value changes no more of a channel than that value. -/
theorem Aio.getCh_keepGood (d : Aio) (n : Nat) : ∃ v, (d.keepGood n).getCh n = { d.getCh n with lastGood := v } := by
  unfold Aio.keepGood
  split
  · exact ⟨_, Aio.getCh_setCh _ _ _⟩
  · exact ⟨_, rfl⟩

theorem Aio.getCh_keepGood_ne (d : Aio) {n i : Nat} (other : i ≠ n) : (d.keepGood n).getCh i = d.getCh i := by
  unfold Aio.keepGood
  split
  · exact Aio.getCh_setCh_ne _ _ other
  · rfl

theorem Aio.cell_keepGood (d : Aio) (n : Nat) : (d.keepGood n).cell = d.cell := by
  unfold Aio.keepGood
  split <;> rfl

theorem AioCh.result_outside_cal {c : AioCh} (noCal : c.cal = false) (na : Int) :
    AioCh.result na c = { c with raw := na, fresh := true, since := if c.average then c.since ++ [na] else [] } :=
  if_neg (ne_true_of_eq_false noCal)

/-- The state once a result is taken on a channel. -/
def State.converted (s : State) (n : Nat) (na : Int) : State := s.withAioCh n (AioCh.result na (s.aio.getCh n))

/-- The state once the newest value of a channel is kept while it is good. -/
def State.goodKept (s : State) (n : Nat) : State := { s with aio := s.aio.keepGood n }

theorem State.moves_converted (s : State) (n : Nat) (na : Int) (m : List (Block × Nat)) : Moves s (s.converted n na) [.aio] m := s.moves_aio _ m

theorem State.moves_goodKept (s : State) (n : Nat) (m : List (Block × Nat)) : Moves s (s.goodKept n) [.aio] m := s.moves_aio _ m

theorem exec_aioConversionDone_filtered (s : State) (ch : Fin 32) (na : Int) (filter : Bits.get (s.aio.getCh ch).cfg 16 8 ≠ 0) :
    exec (.aioConversionDone [(ch, na)]) s = .next ((s.converted ch na).goodKept ch) :=
  congrArg (fun t => Host.Outcome.next (State.goodKept t ch)) (if_neg (by simp [filter]))

theorem exec_aioConversionDone_unfiltered (s : State) (ch : Fin 32) (na : Int) (noCal : (s.aio.getCh ch).cal = false)
    (unfiltered : Bits.get (s.aio.getCh ch).cfg 16 8 = 0) (free : (s.aio.getCh ch).band ≠ .overCurrent) :
    exec (.aioConversionDone [(ch, na)]) s =
      .next (((s.converted ch na).bandTo ch (aioBandOf (s.aio.getCh ch).ne43 na)).goodKept ch) :=
  congrArg (fun t => Host.Outcome.next (State.goodKept t ch)) (if_pos (by simp [noCal, unfiltered, free]))

theorem aioConversionDone_filtered (s : State) (ch : Fin 32) (na : Int) (noCal : (s.aio.getCh ch).cal = false)
    (filter : Bits.get (s.aio.getCh ch).cfg 16 8 ≠ 0) :
    ∃ t, Changes (.aioConversionDone [(ch, na)]) s t [.aio] [] ∧ (t.aio.getCh ch).raw = na ∧ (t.aio.getCh ch).fresh = true ∧
      (t.aio.getCh ch).share = (s.aio.getCh ch).share ∧ (t.aio.getCh ch).target = (s.aio.getCh ch).target ∧
      (∀ i, i ≠ ch.val → t.aio.getCh i = s.aio.getCh i) ∧ t.aio.cell = s.aio.cell := by
  obtain ⟨v, kept⟩ := (s.converted ch na).aio.getCh_keepGood ch
  have channel : ((s.converted ch na).goodKept ch).aio.getCh ch = { AioCh.result na (s.aio.getCh ch) with lastGood := v } :=
    kept.trans (congrArg (fun c : AioCh => { c with lastGood := v }) (State.getCh_withAioCh _ _ _))
  rw [AioCh.result_outside_cal noCal] at channel
  have moved := (s.moves_converted ch na []).trans (State.moves_goodKept _ ch _)
  refine ⟨_, moved.changes (exec_aioConversionDone_filtered s ch na filter), ?_, ?_, ?_, ?_, fun i other => ?_, Aio.cell_keepGood _ _⟩
  · exact congrArg AioCh.raw channel
  · exact congrArg AioCh.fresh channel
  · rw [channel]
  · rw [channel]
  · exact (Aio.getCh_keepGood_ne _ other).trans (Aio.getCh_setCh_ne _ _ other)

theorem aioConversionDone_unfiltered (s : State) (ch : Fin 32) (na : Int) (x : AioDiag) (noCal : (s.aio.getCh ch).cal = false)
    (unfiltered : Bits.get (s.aio.getCh ch).cfg 16 8 = 0) (input : (s.aio.getCh ch).isInput = true)
    (free : (s.aio.getCh ch).band ≠ .overCurrent) (change : aioBandOf (s.aio.getCh ch).ne43 na ≠ (s.aio.getCh ch).band)
    (shown : (aioBandOf (s.aio.getCh ch).ne43 na).diag = some x) :
    ∃ t, Changes (.aioConversionDone [(ch, na)]) s t [.aio] [(.aio, x.bit)] ∧ (t.aio.getCh ch).raw = na ∧ (t.aio.getCh ch).fresh = true ∧
      (t.aio.getCh ch).band = aioBandOf (s.aio.getCh ch).ne43 na ∧ x ∈ (t.aio.getCh ch).active ∧
      ∀ i, i ≠ ch.val → t.aio.getCh i = s.aio.getCh i := by
  have taken : (s.converted ch na).aio.getCh ch = { s.aio.getCh ch with
      raw := na, fresh := true, since := if (s.aio.getCh ch).average then (s.aio.getCh ch).since ++ [na] else [] } :=
    (State.getCh_withAioCh _ _ _).trans (AioCh.result_outside_cal noCal na)
  have enters : ((s.converted ch na).aio.getCh ch).Enters (aioBandOf (s.aio.getCh ch).ne43 na) x := by
    rw [taken]
    exact ⟨input, change, .inr free, shown⟩
  obtain ⟨v, channel⟩ := ((s.converted ch na).bandTo ch (aioBandOf (s.aio.getCh ch).ne43 na)).aio.getCh_keepGood ch
  rw [State.getCh_bandTo enters, taken] at channel
  have moved := ((s.moves_converted ch na _).trans (State.moves_bandTo enters)).trans (State.moves_goodKept _ ch _)
  refine ⟨_, moved.changes (exec_aioConversionDone_unfiltered s ch na noCal unfiltered free), ?_, ?_, ?_, ?_, fun i other => ?_⟩
  · exact (congrArg AioCh.raw channel).trans (AioCh.raw_raise _ _)
  · exact (congrArg AioCh.fresh channel).trans (AioCh.fresh_raise _ _)
  · exact (congrArg AioCh.band channel).trans (AioCh.band_raise _ _)
  · exact (congrArg AioCh.active channel) ▸ AioCh.mem_raise _ _
  · exact (Aio.getCh_keepGood_ne _ other).trans ((State.getCh_bandTo_ne enters other).trans (Aio.getCh_setCh_ne _ _ other))

/-! The loop feed and the grid-sense inputs (09 R265, R283). -/

theorem exec_loopFeedReclose_kept (s : State) (ch : Fin 32) (loop : (s.aio.getCh ch).isLoop = true)
    (opened : (s.aio.getCh ch).feedOpen = true) (shown : AioDiag.overCurrent ∈ (s.aio.getCh ch).active) :
    exec (.loopFeedReclose ch true) s =
      .next (s.withAioCh ch { AioCh.clear .overCurrent (s.aio.getCh ch) with feedOpen := false, band := .measuring }) :=
  if_pos (by simp [loop, opened, shown])

/-- The state with a grid-sense input put. -/
def State.withGridIn (s : State) (g : Nat) (x : GridIn) : State := { s with aio := s.aio.setGs g x }

theorem gridSenseSaturated_reports (s : State) (g : Fin 4) :
    RunsTo (.gridSenseSaturated g) s (s.withGridIn g { s.aio.getGs g with saturated := true, valid := true }) [(.aio, 16)] :=
  .mk _ rfl (State.bare_report _ _ _ _ _) ((State.raises_report _ _ _ _ _ (by decide)).from rfl)

/-- Settles O42: a result is taken on its channel, a value in another band shows that band's diagnostic, a current above 25.0 mA opens the
loop feed until it recloses, and a saturated grid-sense input is reported. -/
theorem aioInputs : Obligations.AioInputs :=
  ⟨aioConversionDone_filtered, fun s ch na x input change shown free => aioBandChange_value s ch na x ⟨input, change, free, shown⟩,
    aioConversionDone_unfiltered, aioBandChange_overCurrent,
    fun s ch loop opened shown => .quiet (exec_loopFeedReclose_kept s ch loop opened shown) rfl, gridSenseSaturated_reports⟩

end Sys2Proof.Machine

namespace Sys2Proof.Machine
set_option Elab.async false

/-! Calibration windows (09 R277-R281). -/

/-! Starts (09 R277, R278). -/

/-- The rotation offers a channel: it counts when it has wrapped. -/
def Aio.offered (d : Aio) (n : Nat) (wrap : Bool) : Aio :=
  { d with calCh := n, rotations := if wrap then Bits.sat 16 d.rotations 1 else d.rotations }

/-- The state once the window of a channel has started. -/
def State.calStarted (s : State) (n : Nat) (wrap : Bool) : State :=
  { s with aio := { (s.aio.offered n wrap).modCh n (fun c => { c with cal := true }) with window := true, lastStart := some s.nowNs } }

/-- What is assumed of an instant at which the rotation offers a channel (09 R277). -/
structure State.Offers (s : State) (n : Nat) (wrap : Bool) : Prop where
  enabled : Bits.bit s.aio.calCfg 31 = true
  closed  : s.aio.window = false
  instant : s.calInstant = true
  next    : s.aio.nextCal s.aio.calCh = some (n, wrap)

theorem exec_calWindowStart {s : State} {n : Nat} {wrap : Bool} (p q : Bool) (offers : s.Offers n wrap) :
    exec (.calWindowStart p q) s = if s.calBlocked n p q then
      .next (({ s with aio := s.aio.offered n wrap } : State).calDefer (n / 16)) else .next (s.calStarted n wrap) := by
  change execCalWindowStart p q s = _
  unfold execCalWindowStart
  rw [if_neg (by simp [offers.enabled, offers.closed, offers.instant]), offers.next]
  rfl

theorem calWindowStart_starts {s : State} {n : Nat} {wrap : Bool} {p q : Bool} (offers : s.Offers n wrap)
    (free : s.calBlocked n p q = false) : RunsTo (.calWindowStart p q) s (s.calStarted n wrap) [] :=
  .quiet ((exec_calWindowStart p q offers).trans (if_neg (ne_true_of_eq_false free))) rfl

theorem calWindowStart_defers (s : State) (n : Nat) (wrap p q : Bool) (offers : s.Offers n wrap) (blocked : s.calBlocked n p q = true) :
    RunsTo (.calWindowStart p q) s { s with aio := (s.aio.offered n wrap).modCell (n / 16) (fun x => { x with
      deferred := Bits.sat 8 x.deferred 1 }) } [(.aio, 10)] :=
  .setEvent ((exec_calWindowStart p q offers).trans (if_pos blocked)) rfl (by decide)

/-! Ends (09 R280, R281). -/

theorem Aio.calAdvance_of_lt {d : Aio} (inside : d.calCh < 31) : d.calAdvance = { d with calCh := d.calCh + 1 } := if_neg (by omega)

@[simp] theorem Aio.window_calAdvance (d : Aio) : d.calAdvance.window = d.window := by unfold Aio.calAdvance; split <;> rfl
@[simp] theorem Aio.getCh_calAdvance (d : Aio) (n : Nat) : d.calAdvance.getCh n = d.getCh n := by unfold Aio.calAdvance; split <;> rfl

/-- A channel whose window has passed takes the new coefficients. -/
def AioCh.calibrated (offset gain : Int) (c : AioCh) : AioCh :=
  { AioCh.clear .calFail c with cal := false, offset := offset, gain := gain, calFails := 0 }

/-- A channel whose window has failed counts it. -/
def AioCh.calFailed (c : AioCh) : AioCh := { c with cal := false, calFails := (c.calFails + 1) % 3 }

/-- The block once the window in progress has ended with a verdict, with its channel and its cell changed. -/
def Aio.calClosed (d : Aio) (f : AioCh → AioCh) (g : LoopCell → LoopCell) : Aio :=
  { (d.modCh d.calCh f).modCell (d.calCh / 16) g with window := false }

theorem Aio.getCh_calClosed (d : Aio) (f : AioCh → AioCh) (g : LoopCell → LoopCell) :
    (d.calClosed f g).getCh d.calCh = f (d.getCh d.calCh) := Aio.getCh_setCh _ _ _

/-- The block once the window in progress has failed; the third failure in a row moves the rotation on. -/
def Aio.calFailed (d : Aio) : Aio :=
  let closed := d.calClosed AioCh.calFailed (fun x => { x with failed := Bits.sat 8 x.failed 1 })
  if (d.getCh d.calCh).calFails = 2 then closed.calAdvance else closed

theorem Aio.window_calFailed (d : Aio) : d.calFailed.window = false := by
  unfold Aio.calFailed
  dsimp only
  split
  · exact Aio.window_calAdvance _
  · rfl

theorem Aio.getCh_calFailed (d : Aio) : d.calFailed.getCh d.calCh = (d.getCh d.calCh).calFailed := by
  unfold Aio.calFailed
  dsimp only
  split
  · exact (Aio.getCh_calAdvance _ _).trans (Aio.getCh_calClosed _ _ _)
  · exact Aio.getCh_calClosed _ _ _

theorem exec_calWindowEnd_passes (s : State) (o g : Int) (opened : s.aio.window = true)
    (passes : (s.aio.getCh s.aio.calCh).calPasses o g = true) : exec (.calWindowEnd o g) s =
      .next { s with aio := (s.aio.calClosed (AioCh.calibrated o g) (fun x => { x with done := Bits.sat 16 x.done 1 })).calAdvance } :=
  (if_neg (by simp [opened])).trans (if_pos passes)

/-- A failed window raises CAL_FAIL, or reports it again while it stands. -/
theorem exec_calWindowEnd_fails (s : State) (o g : Int) (opened : s.aio.window = true)
    (fails : (s.aio.getCh s.aio.calCh).calPasses o g = false) : exec (.calWindowEnd o g) s =
      .next (if (s.aio.getCh s.aio.calCh).active.contains .calFail then ({ s with aio := s.aio.calFailed } : State).setEvent .aio 9
        else ({ s with aio := s.aio.calFailed } : State).aioRaise s.aio.calCh .calFail) :=
  (if_neg (by simp [opened])).trans (if_neg (by simp [fails]))

theorem calWindowEnd_passes (s : State) (o g : Int) (opened : s.aio.window = true) (inside : s.aio.calCh < 31)
    (passes : (s.aio.getCh s.aio.calCh).calPasses o g = true) : RunsTo (.calWindowEnd o g) s { s with aio :=
      { s.aio.calClosed (AioCh.calibrated o g) (fun x => { x with done := Bits.sat 16 x.done 1 }) with calCh := s.aio.calCh + 1 } } [] := by
  have step := exec_calWindowEnd_passes s o g opened passes
  rw [Aio.calAdvance_of_lt (by exact inside)] at step
  exact .quiet step rfl

/-- A failed window leaves CAL_FAIL standing and reported, and the coefficients as they were (09 R281). -/
theorem calWindowEnd_fails (s : State) (o g : Int) (opened : s.aio.window = true)
    (fails : (s.aio.getCh s.aio.calCh).calPasses o g = false) :
    ∃ t, Changes (.calWindowEnd o g) s t [.aio] [(.aio, 9)] ∧ t.raised .aio 9 = true ∧ t.aio.window = false ∧
      AioDiag.calFail ∈ (t.aio.getCh s.aio.calCh).active ∧ (t.aio.getCh s.aio.calCh).offset = (s.aio.getCh s.aio.calCh).offset ∧
      (t.aio.getCh s.aio.calCh).gain = (s.aio.getCh s.aio.calCh).gain := by
  have step := exec_calWindowEnd_fails s o g opened fails
  have closed : Moves s { s with aio := s.aio.calFailed } [.aio] [(.aio, 9)] := s.moves_aio _ _
  have channel := s.aio.getCh_calFailed
  by_cases stands : AioDiag.calFail ∈ (s.aio.getCh s.aio.calCh).active
  · rw [if_pos (by simpa using stands)] at step
    refine ⟨_, (closed.setEvent _ _ (by decide) List.mem_cons_self).changes step, State.raised_setEvent _ _ _ (by decide), ?_⟩
    rw [State.aio_setEvent, channel]
    exact ⟨Aio.window_calFailed _, stands, rfl, rfl⟩
  · have new : AioDiag.calFail ∉ (s.aio.calFailed.getCh s.aio.calCh).active := by rwa [channel]
    obtain ⟨w, raised⟩ := State.aioRaise_of_new (s := { s with aio := s.aio.calFailed }) new
    rw [if_neg (by simpa using stands), raised] at step
    refine ⟨_, ((closed.trans (State.moves_aio _ _ _)).report _ _ _ _ (by decide) List.mem_cons_self).changes step,
      State.raised_report _ _ _ _ _ (by decide), ?_⟩
    rw [State.aio_report, State.getCh_withAioCh, channel]
    exact ⟨Aio.window_calFailed _, List.mem_cons_self, rfl, rfl⟩

theorem calWindowAbandon_defers (s : State) (opened : s.aio.window = true) (output : (s.aio.getCh s.aio.calCh).isOutput = true) :
    RunsTo .calWindowAbandon s { s with aio := s.aio.calClosed (fun c => { c with cal := false }) (fun x => { x with
      deferred := Bits.sat 8 x.deferred 1 }) } [(.aio, 10)] :=
  .setEvent (if_pos (by simp [opened, output])) rfl (by decide)

/-- Settles O43: an offered window starts or is deferred; it ends with new coefficients, with CAL_FAIL, or abandoned and deferred. -/
theorem aioCalibration : Obligations.AioCalibration :=
  ⟨fun _ _ _ enabled closed instant next free => calWindowStart_starts ⟨enabled, closed, instant, next⟩ free,
    fun s n w p q enabled closed instant next blocked => calWindowStart_defers s n w p q ⟨enabled, closed, instant, next⟩ blocked,
    calWindowEnd_passes, calWindowEnd_fails, calWindowAbandon_defers⟩

end Sys2Proof.Machine

namespace Sys2Proof.Machine

/-! The safety lanes and their supplies (10 R290, R292, R295, R297, R305, R306, R314, R494). -/

/-! What makes lane H demand an output, and what opens its low-side switch (10 R293, R295, R306). -/

/-- A pair of the IMMEDIATE_MASK in demand demands the output. -/
theorem Safe.hDemand_of_pair {x : Safe} {now n : Nat} {p : Fin 16} (listed : Bits.bit (Tbl.get {} x.laneH.so n).masks p = true)
    (demand : x.demandH p = true) : x.hDemand now n = true := by
  have pair : (List.range 16).any (fun p => Bits.bit (Tbl.get {} x.laneH.so n).masks p && x.demandH p) = true :=
    List.any_eq_true.mpr ⟨p, List.mem_range.mpr p.isLt, by rw [listed, demand]; rfl⟩
  simp [Safe.hDemand, pair]

/-- The demand of a completed delay lasts 1 ms. -/
theorem Safe.hDemand_of_done {x : Safe} {now n t : Nat} (done : (x.getSo n).hDoneNs = some t) (recent : now < t + 1000000) :
    x.hDemand now n = true := by simp [Safe.hDemand, done, recent]

theorem Safe.hDemand_of_laneH {x : Safe} (fault : x.laneHOk = false) (now n : Nat) : x.hDemand now n = true := by
  simp [Safe.hDemand, fault]

theorem Safe.lsClosed_of_hDemand {x : Safe} {now n : Nat} (demand : x.hDemand now n = true) : x.lsClosed now n = false := by
  simp [Safe.lsClosed, demand]

theorem Safe.ownXtl_of_hDemand {x : Safe} {now n : Nat} (demand : x.hDemand now n = true) : x.ownXtl now n = true := by
  simp [Safe.ownXtl, demand]

/-! What opens lane P's high-side switch (10 R302). -/

theorem Safe.hsOn_of_laneP {x : Safe} (down : x.laneP = false) (n : Nat) : x.hsOn n = false := by simp [Safe.hsOn, Safe.hsMay, down]
theorem Safe.hsOn_of_lsOk {x : Safe} (low : x.lsOk = false) (n : Nat) : x.hsOn n = false := by simp [Safe.hsOn, Safe.hsMay, low]
theorem Safe.hsOn_of_seated {x : Safe} (out : x.seated = false) (n : Nat) : x.hsOn n = false := by simp [Safe.hsOn, Safe.hsMay, out]

/-- An unseated module closes no switch (00 R2). -/
theorem Safe.open_of_unseated (x : Safe) (now n : Nat) (out : x.seated = false) :
    x.lsClosed now n = false ∧ x.hsOn n = false ∧ x.hsClosed now n = false := by
  refine ⟨by simp [Safe.lsClosed, out], Safe.hsOn_of_seated out n, ?_⟩
  simp [Safe.hsClosed, Safe.hsOn_of_seated out n, out]

/-- A cell without power closes no switch and drives its cross lines to demand (10 R295, R494). -/
theorem Safe.open_of_unpowered {x : Safe} (dead : x.cellPower = false) (down : x.laneP = false) (now n : Nat) :
    x.hsClosed now n = false ∧ x.lsClosed now n = false ∧ x.ownXtl now n = true := by
  refine ⟨?_, by simp [Safe.lsClosed, dead], by simp [Safe.ownXtl, dead]⟩
  simp [Safe.hsClosed, Safe.hsOn_of_laneP down n, down]

/-! What settling keeps. -/

theorem Settled.demandH {x y : Safe} (h : Settled x y) (p : Nat) : y.demandH p = x.demandH p := by rw [h.rest]; rfl
theorem Settled.hDoneNs {x y : Safe} (h : Settled x y) (n : Nat) : (y.getSo n).hDoneNs = (x.getSo n).hDoneNs := by rw [h.so n]

/-! A change of one pair in lane H (10 R298, R306). -/

/-- A pair can be read off the table of the pairs. -/
theorem Safe.getSip_of_sip {x y : Safe} (h : y.sip = x.sip) (p : Nat) : y.getSip p = x.getSip p := by simp only [Safe.getSip, h]

theorem Safe.getSip_modSip (x : Safe) (p q : Nat) (g : SipPair → SipPair) :
    (x.modSip p g).getSip q = if q = p then g (x.getSip p) else x.getSip q := by
  by_cases same : q = p
  · subst same; rw [if_pos rfl, Safe.modSip, Safe.getSip_setSip]
  · rw [if_neg same, Safe.modSip, Safe.getSip_setSip_ne _ _ same]

/-- Besides the pair only the delays of outputs change. -/
theorem Safe.hChange_so (x : Safe) (now p : Nat) (g : SipPair → SipPair) : ∃ y, x.hChange now p g = { x.modSip p g with so := y } := by
  unfold Safe.hChange
  dsimp only
  split
  · exact Safe.startDelays_so _ _ _
  · exact ⟨_, rfl⟩

theorem Safe.getSip_hChange (x : Safe) (now p q : Nat) (g : SipPair → SipPair) :
    (x.hChange now p g).getSip q = if q = p then g (x.getSip p) else x.getSip q := by
  obtain ⟨y, e⟩ := x.hChange_so now p g
  rw [e]
  exact x.getSip_modSip p q g

theorem Safe.laneH_hChange (x : Safe) (now p : Nat) (g : SipPair → SipPair) : (x.hChange now p g).laneH = x.laneH := by
  obtain ⟨y, e⟩ := x.hChange_so now p g
  rw [e]; rfl

theorem Safe.fn_hChange (x : Safe) (now p : Nat) (g : SipPair → SipPair) : (x.hChange now p g).fn = x.fn := by
  obtain ⟨y, e⟩ := x.hChange_so now p g
  rw [e]; rfl

theorem Safe.discCnt_hChange (x : Safe) (now p : Nat) (g : SipPair → SipPair) : (x.hChange now p g).discCnt = x.discCnt := by
  obtain ⟨y, e⟩ := x.hChange_so now p g
  rw [e]; rfl

/-- A used pair whose channels, latch or comparators ask for it is in demand after the change. -/
theorem Safe.demandH_hChange (x : Safe) (now p : Nat) (g : SipPair → SipPair) (used : pairUsed (Tbl.get 0#32 x.laneH.pairs p) = true)
    (asks : ((g (x.getSip p)).hDemand || (g (x.getSip p)).discH || (g (x.getSip p)).failH) = true) :
    (x.hChange now p g).demandH p = true := by
  unfold Safe.demandH
  rw [Safe.laneH_hChange, Safe.getSip_hChange, if_pos rfl, used]
  exact asks

theorem exec_laneHSipDemand (s : State) (p : Fin 16) (c1 c2 : Bool) (power : s.safe.cellPower = true) :
    exec (.laneHSipDemand p c1 c2) s = .next (s.setSafe (s.safe.hChange s.nowNs p (fun v =>
      { v with h1 := c1, h2 := c2, disH := holdSince s.nowNs (c1 != c2) v.disH, stepH := v.stepH || (v.discH && c1 && c2) }))) :=
  if_neg (by simp [power])

theorem laneHSipDemand_samples (s : State) (p : Fin 16) (c1 c2 : Bool) (power : s.safe.cellPower = true) :
    ∃ t, Changes (.laneHSipDemand p c1 c2) s t [.safe] [] ∧
    t.safe.getSip p = { s.safe.getSip p with
      h1 := c1, h2 := c2
      disH := if c1 != c2 then some ((s.safe.getSip p).disH.getD s.nowNs) else none
      stepH := (s.safe.getSip p).stepH || ((s.safe.getSip p).discH && c1 && c2) } ∧
    (∀ q : Fin 16, q ≠ p → t.safe.getSip q = s.safe.getSip q) ∧ (∀ f, (t.safe.getFn f).untimed = (s.safe.getFn f).untimed) ∧
    (pairUsed (Tbl.get 0#32 s.safe.laneH.pairs p) = true → c1 = true ∨ c2 = true → t.safe.demandH p = true ∧
      ∀ n : Fin 8, Bits.bit (Tbl.get {} s.safe.laneH.so n).masks p = true → t.safe.lsClosed s.nowNs n = false) := by
  refine ⟨_, changes_setSafe (exec_laneHSipDemand s p c1 c2 power), ?_, fun q other => ?_, fun f => ?_, fun used channel => ?_⟩
  · rw [State.getSip_setSafe, Safe.getSip_hChange, if_pos rfl]; rfl
  · rw [State.getSip_setSafe, Safe.getSip_hChange, if_neg (fun same => other (Fin.ext same))]
  · rw [State.fn_setSafe, Safe.getFn, Safe.fn_hChange]; rfl
  · have demand := ((s.settled_setSafe _).demandH p).trans (s.safe.demandH_hChange s.nowNs p (fun v =>
      { v with h1 := c1, h2 := c2, disH := holdSince s.nowNs (c1 != c2) v.disH, stepH := v.stepH || (v.discH && c1 && c2) }) used
      (by rcases channel with rfl | rfl <;> simp [SipPair.hDemand]))
    refine ⟨demand, fun n listed => Safe.lsClosed_of_hDemand (Safe.hDemand_of_pair ?_ demand)⟩
    rw [State.laneH_setSafe, Safe.laneH_hChange]
    exact listed

/-! The delays of lane H (10 R306). -/

theorem exec_laneHDelayDone (s : State) (n : Fin 8) {t0 : Nat} (since : (s.safe.getSo n).hDelay = some t0)
    (due : t0 + (Tbl.get {} s.safe.laneH.so n).delayH * 9900 ≤ s.nowNs) :
    exec (.laneHDelayDone n) s = .next (s.setSafe (s.safe.setSo n { s.safe.getSo n with hDelay := none, hDoneNs := some s.nowNs })) := by
  change execLaneHDelayDone n s = _
  unfold execLaneHDelayDone
  simp only [since]
  exact if_pos due

theorem laneHDelayDone_demands (s : State) (n : Fin 8) (t0 : Nat) (since : (s.safe.getSo n).hDelay = some t0)
    (due : t0 + (Tbl.get {} s.safe.laneH.so n).delayH * 9900 ≤ s.nowNs) : ∃ t, Changes (.laneHDelayDone n) s t [.safe] [] ∧
    Settled (s.safe.setSo n { s.safe.getSo n with hDelay := none, hDoneNs := some s.nowNs }) t.safe ∧ t.safe.lsClosed s.nowNs n = false := by
  obtain ⟨t, changed, settled⟩ := settles_setSafe (exec_laneHDelayDone s n since due)
  refine ⟨t, changed, settled, Safe.lsClosed_of_hDemand (Safe.hDemand_of_done (t := s.nowNs) ?_ (by omega))⟩
  rw [settled.hDoneNs, Safe.getSo_setSo]

/-! Lane P starts (10 R292, R305). -/

/-- A pair as lane P starts with it. -/
def SipPair.freshP (v : SipPair) : SipPair :=
  { v with discP := false, stepP := false, disP := none, failP1 := false, failP2 := false, pressNs := none }

/-- The cell of a running lane P with the pairs that it starts with. -/
def Safe.pairsFreshP (x : Safe) : Safe := (List.range 16).foldl (fun x p => x.modSip p SipPair.freshP)
  { x with laneP := x.cellPower, idOk := x.laneHAgrees, pFaultNs := none }

/-- That cell with the outputs that lane P starts with. -/
def Safe.outsFreshP (x : Safe) : Safe :=
  (List.range 8).foldl (fun x n => x.modSo n (fun o => { o with onNs := none, ovlNs := none })) x.pairsFreshP

/-- The cell as lane P starts with it. -/
def Safe.startedP (x : Safe) (now : Nat) (energised : BitVec 8) : Safe :=
  x.outsFreshP.valid.foldl (fun y e => y.modFn e.1 (fun v => { v with
    phase := x.outsFreshP.startPhase energised e.2, cause := .none, faults := [], running := false, swNs := now })) x.outsFreshP

theorem Safe.pairsFreshP_sip (x : Safe) :
    ∃ y, x.pairsFreshP = { x with laneP := x.cellPower, idOk := x.laneHAgrees, pFaultNs := none, sip := y } := foldl_modSip_rest _ _ _

theorem Safe.outsFreshP_so (x : Safe) : ∃ y, x.outsFreshP = { x.pairsFreshP with so := y } := foldl_modSo_rest _ _ _

theorem Safe.startedP_fn (x : Safe) (now : Nat) (e : BitVec 8) : ∃ y, x.startedP now e = { x.outsFreshP with fn := y } :=
  foldl_modFn_rest _ (fun f v => { v with
    phase := x.outsFreshP.startPhase e f, cause := .none, faults := [], running := false, swNs := now }) _

theorem Safe.getSip_pairsFreshP (x : Safe) (p : Fin 16) : x.pairsFreshP.getSip p = (x.getSip p).freshP := by
  rw [Safe.pairsFreshP, Safe.getSip_foldl SipPair.freshP (fun _ => rfl), if_pos (List.mem_range.mpr p.isLt)]
  rfl

/-- A started lane P runs, has judged the identity of its tables, and holds fresh pairs. -/
theorem Safe.startedP_facts (x : Safe) (now : Nat) (e : BitVec 8) : (x.startedP now e).laneP = x.cellPower ∧
    (x.startedP now e).pFaultNs = none ∧ (x.startedP now e).idOk = x.laneHAgrees ∧
    ∀ p : Fin 16, (x.startedP now e).getSip p = (x.getSip p).freshP := by
  obtain ⟨a, pairs⟩ := x.pairsFreshP_sip
  obtain ⟨b, outs⟩ := x.outsFreshP_so
  obtain ⟨c, fns⟩ := x.startedP_fn now e
  have table : (x.startedP now e).sip = x.pairsFreshP.sip := by rw [fns, outs]
  refine ⟨by rw [fns, outs, pairs], by rw [fns, outs, pairs], by rw [fns, outs, pairs], fun p => ?_⟩
  rw [Safe.getSip_of_sip table, Safe.getSip_pairsFreshP]

/-- Lane P's start puts the started cell in place, and records an identity that does not agree. -/
theorem State.lanePStart_eq (s : State) (e : BitVec 8) : s.lanePStart e =
    if s.safe.laneHAgrees then s.setSafe (s.safe.startedP s.nowNs e)
    else (s.setSafe (s.safe.startedP s.nowNs e)).recordEvent .safe 15 noObj 0#32 := by
  obtain ⟨a, pairs⟩ := s.safe.pairsFreshP_sip
  obtain ⟨b, outs⟩ := s.safe.outsFreshP_so
  have agrees : s.safe.laneHAgrees = s.safe.outsFreshP.idOk := by rw [outs, pairs]
  rw [agrees]
  rfl

theorem exec_lanePStart (s : State) (e : BitVec 8) (down : s.safe.laneP = false) (power : s.safe.cellPower = true)
    (lanes : s.cfg.lanes = true) (tested : ∀ t0, s.safe.pFaultNs = some t0 → t0 + 100000000 ≤ s.nowNs) :
    exec (.lanePStart e) s = .next (s.lanePStart e) := by
  change execLanePStart e s = _
  unfold execLanePStart
  rw [if_neg (by simp [down, power, lanes])]
  split
  · next t0 fault => exact if_pos (tested t0 fault)
  · rfl

theorem lanePStart_runs (s : State) (e : BitVec 8) (down : s.safe.laneP = false) (power : s.safe.cellPower = true)
    (lanes : s.cfg.lanes = true) (tested : ∀ t0, s.safe.pFaultNs = some t0 → t0 + 100000000 ≤ s.nowNs) :
    ∃ t, Changes (.lanePStart e) s t [.safe] [(.safe, 15)] ∧ t.safe.laneP = true ∧ t.safe.pFaultNs = none ∧ t.safe.idOk = s.safe.laneHAgrees ∧
    (∀ p : Fin 16, t.safe.getSip p = { s.safe.getSip p with discP := false, stepP := false, disP := none, failP1 := false, failP2 := false, pressNs := none }) ∧
    (s.safe.laneHAgrees = false → t.raised .safe 15 = true) := by
  have step := exec_lanePStart s e down power lanes tested
  have start := s.lanePStart_eq e
  obtain ⟨runs, cleared, judged, fresh⟩ := s.safe.startedP_facts s.nowNs e
  have cell : (s.lanePStart e).safe = (s.setSafe (s.safe.startedP s.nowNs e)).safe := by
    rw [start]; split
    · rfl
    · exact State.safe_recordEvent _ _ _ _ _
  have moved : Moves s (s.lanePStart e) [.safe] [(.safe, 15)] := by
    rw [start]; split
    · exact s.moves_setSafe _ _
    · exact (s.moves_setSafe _ _).recordEvent _ _ _ _ (by decide) List.mem_cons_self
  refine ⟨_, moved.changes step, ?_, ?_, ?_, fun p => ?_, fun differs => ?_⟩
  · rw [cell, State.laneP_setSafe, runs, power]
  · rw [cell, State.pFaultNs_setSafe, cleared]
  · rw [cell, State.idOk_setSafe, judged]
  · rw [cell, State.getSip_setSafe, fresh]; rfl
  · rw [start, differs]; exact State.raised_recordEvent _ _ _ _ _ (by decide)

/-! Faults of a lane (10 R290, R303). -/

/-- Lane P stops on a fault. -/
def State.lanePStopped (s : State) : State := s.setSafe { s.safe with laneP := false, pFaultNs := some s.nowNs }

theorem exec_lanePFault (s : State) (power : s.safe.cellPower = true) :
    exec .lanePFault s = .next (s.lanePStopped.report .safe 14 noObj 0#32) := if_neg (by simp [power])

theorem lanePFault_stops (s : State) (power : s.safe.cellPower = true) : ∃ t, Changes .lanePFault s t [.safe] [(.safe, 14)] ∧
    t.raised .safe 14 = true ∧ Settled { s.safe with laneP := false, pFaultNs := some s.nowNs } t.safe ∧ ∀ n : Fin 8, t.safe.hsOn n = false := by
  have stopped : Moves s s.lanePStopped [.safe] [(.safe, 14)] := s.moves_setSafe _ _
  have moved := stopped.report .safe 14 noObj 0#32 (by decide) List.mem_cons_self
  refine ⟨_, moved.changes (exec_lanePFault s power), State.raised_report _ _ _ _ _ (by decide), ?_, fun n => Safe.hsOn_of_laneP ?_ n⟩
  · rw [State.safe_report]; exact s.settled_setSafe _
  · rw [State.safe_report, State.lanePStopped, State.laneP_setSafe]

/-- A changed cell is reported, and lane P takes the demands that now stand. -/
theorem moves_reportedDemands (s : State) (x : Safe) {n obj : Nat} {w : Word} (h : n < 32) :
    Moves s ((s.setSafe x).report .safe n obj w).evalDemands [.safe] [(.safe, n), (.safe, 0)] :=
  ((s.moves_setSafe x _).report _ _ _ _ h List.mem_cons_self).trans (State.moves_evalDemands _).stay

/-- A report stands when lane P has taken the demands. -/
theorem raised_reportedDemands (s : State) {n obj : Nat} {w : Word} (h : n < 32) :
    (s.report .safe n obj w).evalDemands.raised .safe n = true :=
  (State.moves_evalDemands _).raised (State.raised_report _ _ _ _ _ h)

/-- Taking the demands after a report leaves what they rest on. -/
theorem same_reportedDemands (s : State) (n obj : Nat) (w : Word) : SameInputs s.safe (s.report .safe n obj w).evalDemands.safe := by
  have same := (s.report .safe n obj w).same_evalDemands
  rwa [State.safe_report] at same

theorem laneHFault_demands (s : State) : ∃ t, Changes .laneHFault s t [.safe] [(.safe, 14), (.safe, 0)] ∧ t.raised .safe 14 = true ∧
    t.safe.laneHOk = false ∧ ∀ n : Fin 8, t.safe.lsClosed s.nowNs n = false ∧ t.safe.ownXtl s.nowNs n = true := by
  have fault : ((s.setSafe { s.safe with laneHOk := false }).report .safe 14 noObj 0#32).evalDemands.safe.laneHOk = false := by
    rw [(same_reportedDemands _ _ _ _).laneHOk, State.laneHOk_setSafe]
  refine ⟨_, (moves_reportedDemands s _ (by decide)).changes rfl, raised_reportedDemands _ (by decide), fault, fun n => ?_⟩
  exact ⟨Safe.lsClosed_of_hDemand (Safe.hDemand_of_laneH fault _ _), Safe.ownXtl_of_hDemand (Safe.hDemand_of_laneH fault _ _)⟩

/-! The tests of the comparators (10 R297). -/

theorem exec_comparatorTest_rests (s : State) (l : Lane) (c : CompTerm) (b : Bool) (rest : s.comparatorDue l c = false) :
    exec (.comparatorTest l c b) s = .next s := if_pos (by simp [rest])

theorem exec_comparatorTest_passes (s : State) (l : Lane) (c : CompTerm) (due : s.comparatorDue l c = true) :
    exec (.comparatorTest l c true) s = .next (s.setSafe (s.safe.setComp s.nowNs l c false)).evalWithdrawn := if_neg (by simp [due])

/-- A first failure of a comparator of a pair is reported, and its pair reads as demand. -/
theorem exec_comparatorTest_fails (s : State) (l : Lane) (p : Fin 16) (two : Bool) (due : s.comparatorDue l (.sip p two) = true)
    (new : s.safe.compFailed l (.sip p two) = false) : exec (.comparatorTest l (.sip p two) false) s =
      .next ((s.setSafe (s.safe.setComp s.nowNs l (.sip p two) true)).report .safe 14 p 0#32).evalDemands := by
  change execComparatorTest l (.sip p two) false s = _
  unfold execComparatorTest
  rw [if_neg (by simp [due])]
  simp only [new, Bool.false_eq_true, if_false, Bool.not_false]

/-- The pair with the result of one lane H comparator. -/
def SipPair.withFailH (two fail : Bool) (v : SipPair) : SipPair := if two then { v with failH2 := fail } else { v with failH1 := fail }

theorem Safe.setComp_h (x : Safe) (now : Nat) (p : Fin 16) (two fail : Bool) :
    x.setComp now .h (.sip p two) fail = x.hChange now p (SipPair.withFailH two fail) := rfl

theorem SipPair.failH_withFailH (v : SipPair) (two : Bool) : (v.withFailH two true).failH = true := by
  cases two <;> simp [SipPair.withFailH, SipPair.failH]

theorem Safe.compFailed_setComp (x : Safe) (now : Nat) (l : Lane) (p : Fin 16) (two fail : Bool) :
    (x.setComp now l (.sip p two) fail).compFailed l (.sip p two) = fail := by
  cases l with
  | p =>
    simp only [Safe.compFailed, Safe.setComp, Safe.getSip_modSip, if_true]
    cases two <;> rfl
  | h =>
    simp only [Safe.compFailed, Safe.setComp, Safe.getSip_hChange, if_true]
    cases two <;> rfl

theorem SameInputs.compFailed {x y : Safe} (h : SameInputs x y) (l : Lane) (c : CompTerm) : y.compFailed l c = x.compFailed l c := by
  rw [← h]; rfl
theorem Settled.compFailed {x y : Safe} (h : Settled x y) (l : Lane) (c : CompTerm) : y.compFailed l c = x.compFailed l c := by
  rw [h.rest]; rfl

theorem comparatorTest_fails (s : State) (p : Fin 16) (two : Bool) (due : s.comparatorDue .h (.sip p two) = true)
    (new : s.safe.compFailed .h (.sip p two) = false) :
    ∃ t, Changes (.comparatorTest .h (.sip p two) false) s t [.safe] [(.safe, 14), (.safe, 0)] ∧ t.raised .safe 14 = true ∧
    t.safe.getSip p = (if two then { s.safe.getSip p with failH2 := true } else { s.safe.getSip p with failH1 := true }) ∧
    (pairUsed (Tbl.get 0#32 s.safe.laneH.pairs p) = true → t.safe.demandH p = true) := by
  refine ⟨_, (moves_reportedDemands s _ (by decide)).changes (exec_comparatorTest_fails s .h p two due new),
    raised_reportedDemands _ (by decide), ?_, fun used => ?_⟩
  · rw [(same_reportedDemands _ _ _ _).getSip, State.getSip_setSafe, Safe.setComp_h, Safe.getSip_hChange, if_pos rfl]; rfl
  · rw [(same_reportedDemands _ _ _ _).demandH, (s.settled_setSafe _).demandH, Safe.setComp_h]
    exact s.safe.demandH_hChange _ _ _ used (by rw [SipPair.failH_withFailH, Bool.or_true])

theorem comparatorTest_passes (s : State) (l : Lane) (p : Fin 16) (two : Bool) (due : s.comparatorDue l (.sip p two) = true) :
    ∃ t, Changes (.comparatorTest l (.sip p two) true) s t [.safe] [(.safe, 5)] ∧ t.safe.compFailed l (.sip p two) = false := by
  refine ⟨_, ((s.moves_setSafe _ _).trans (State.moves_evalWithdrawn _)).changes (exec_comparatorTest_passes s l _ due), ?_⟩
  rw [(State.same_evalWithdrawn _).compFailed, (s.settled_setSafe _).compFailed, Safe.compFailed_setComp]

/-! The supplies of the cell (10 R295, R314, R494). -/

/-- The cell with LS+ low. -/
def Safe.supplyLow (x : Safe) : Safe := (List.range 8).foldl (fun x n => x.modSo n (So.raise .lsSupply)) { x with lsOk := false }

/-- The cell with LS+ back. -/
def Safe.supplyBack (x : Safe) : Safe :=
  (List.range 8).foldl (fun x n => x.modSo n (So.clear .lsSupply)) { x with lsOk := true, lsLow12 := false }

theorem Safe.supplyLow_so (x : Safe) : ∃ y, x.supplyLow = { x with lsOk := false, so := y } := foldl_modSo_rest _ _ _
theorem Safe.supplyBack_so (x : Safe) : ∃ y, x.supplyBack = { x with lsOk := true, lsLow12 := false, so := y } := foldl_modSo_rest _ _ _

theorem exec_lsSupplyLow (s : State) (ok : s.safe.lsOk = true) :
    exec .lsSupplyLow s = .next ((s.setSafe s.safe.supplyLow).report .safe 13 noObj 0#32).evalDemands := if_pos ok

theorem lsSupplyLow_opens (s : State) (ok : s.safe.lsOk = true) : ∃ t, Changes .lsSupplyLow s t [.safe] [(.safe, 13), (.safe, 0)] ∧
    t.raised .safe 13 = true ∧ t.safe.lsOk = false ∧ ∀ n : Fin 8, t.safe.hsOn n = false := by
  obtain ⟨y, cell⟩ := s.safe.supplyLow_so
  have low : ((s.setSafe s.safe.supplyLow).report .safe 13 noObj 0#32).evalDemands.safe.lsOk = false := by
    rw [(same_reportedDemands _ _ _ _).lsOk, State.lsOk_setSafe, cell]
  exact ⟨_, (moves_reportedDemands s _ (by decide)).changes (exec_lsSupplyLow s ok), raised_reportedDemands _ (by decide), low,
    fun n => Safe.hsOn_of_lsOk low n⟩

theorem exec_lsSupplyBack (s : State) : exec .lsSupplyBack s = .next (s.setSafe s.safe.supplyBack).evalWithdrawn := rfl

theorem lsSupplyBack_clears (s : State) : ∃ t, Changes .lsSupplyBack s t [.safe] [(.safe, 5)] ∧ t.safe.lsOk = true ∧
    t.safe.lsLow12 = false ∧ t.safe.sip = s.safe.sip := by
  obtain ⟨y, cell⟩ := s.safe.supplyBack_so
  have same : SameInputs (s.setSafe s.safe.supplyBack).safe (s.setSafe s.safe.supplyBack).evalWithdrawn.safe := State.same_evalWithdrawn _
  refine ⟨_, ((s.moves_setSafe _ _).trans (State.moves_evalWithdrawn _)).changes (exec_lsSupplyBack s), ?_, ?_, ?_⟩
  · rw [same.lsOk, State.lsOk_setSafe, cell]
  · rw [same.lsLow12, State.lsLow12_setSafe, cell]
  · rw [same.sip, State.sip_setSafe, cell]

theorem exec_safetyCellPowerLost (s : State) (off : s.mod.powered = false) : exec .safetyCellPowerLost s = .next (s.setSafe
    { s.safe with cellPower := false, laneP := false, pFaultNs := none, laneHOk := false, lsOk := false, lsLow12 := true }) :=
  if_neg (by simp [off])

theorem safetyCellPowerLost_opens (s : State) (off : s.mod.powered = false) : ∃ t, Changes .safetyCellPowerLost s t [.safe] [] ∧
    Settled { s.safe with cellPower := false, laneP := false, pFaultNs := none, laneHOk := false, lsOk := false, lsLow12 := true } t.safe ∧
    ∀ n : Fin 8, t.safe.hsClosed s.nowNs n = false ∧ t.safe.lsClosed s.nowNs n = false ∧ t.safe.ownXtl s.nowNs n = true := by
  obtain ⟨t, changed, settled⟩ := settles_setSafe (exec_safetyCellPowerLost s off)
  exact ⟨t, changed, settled, fun n => Safe.open_of_unpowered (by rw [settled.rest]) (by rw [settled.rest]) _ _⟩

/-- The powered cell with the pairs that lane H starts with. -/
def Safe.pairsFreshH (x : Safe) : Safe :=
  (List.range 16).foldl (fun x p => x.modSip p SipPair.freshH) { x with cellPower := true, laneHOk := true }

/-- The cell as lane H starts afresh with it. -/
def Safe.startedH (x : Safe) : Safe := (List.range 8).foldl (fun x n => x.modSo n So.freshH) x.pairsFreshH

theorem Safe.pairsFreshH_sip (x : Safe) : ∃ y, x.pairsFreshH = { x with cellPower := true, laneHOk := true, sip := y } :=
  foldl_modSip_rest _ _ _

theorem Safe.startedH_so (x : Safe) : ∃ y, x.startedH = { x.pairsFreshH with so := y } := foldl_modSo_rest _ _ _

theorem Safe.getSip_pairsFreshH (x : Safe) (p : Fin 16) : x.pairsFreshH.getSip p = (x.getSip p).freshH := by
  rw [Safe.pairsFreshH, Safe.getSip_foldl SipPair.freshH (fun _ => rfl), if_pos (List.mem_range.mpr p.isLt)]
  rfl

theorem exec_safetyCellPowerBack (s : State) (off : s.safe.cellPower = false) :
    exec .safetyCellPowerBack s = .next (s.setSafe s.safe.startedH) := if_neg (by simp [off])

theorem safetyCellPowerBack_starts (s : State) (off : s.safe.cellPower = false) : ∃ t, Changes .safetyCellPowerBack s t [.safe] [] ∧
    t.safe.cellPower = true ∧ t.safe.laneHOk = true ∧ t.safe.laneP = s.safe.laneP ∧ ∀ p : Fin 16, t.safe.getSip p = { s.safe.getSip p with
      h1 := true, h2 := true, disH := none, discH := false, stepH := false, failH1 := false, failH2 := false } := by
  obtain ⟨y, pairs⟩ := s.safe.pairsFreshH_sip
  obtain ⟨z, cell⟩ := s.safe.startedH_so
  refine ⟨_, changes_setSafe (exec_safetyCellPowerBack s off), ?_, ?_, ?_, fun p => ?_⟩
  · rw [State.cellPower_setSafe, cell, pairs]
  · rw [State.laneHOk_setSafe, cell, pairs]
  · rw [State.laneP_setSafe, cell, pairs]
  · have table : s.safe.startedH.sip = s.safe.pairsFreshH.sip := by rw [cell]
    rw [State.getSip_setSafe, Safe.getSip_of_sip table, Safe.getSip_pairsFreshH]
    rfl

/-- Settles O45: each command puts a changed cell in place; a fault or a low supply is also reported and its demands are taken, and a
cell that reads a demand, a fault or no power has its switches open. -/
theorem safetyLanes : Obligations.SafetyLanes :=
  ⟨laneHSipDemand_samples, laneHDelayDone_demands, lanePStart_runs, lanePFault_stops, laneHFault_demands, comparatorTest_fails,
    comparatorTest_passes, exec_comparatorTest_rests, lsSupplyLow_opens, lsSupplyBack_clears, safetyCellPowerLost_opens,
    safetyCellPowerBack_starts, fun s n out => s.safe.open_of_unseated s.nowNs n out⟩

end Sys2Proof.Machine

namespace Sys2Proof.Machine

/-! Safety functions (10 R296, R299, R300, R303, R304, R307). -/

/-! What settling, and the operations on functions, keep. -/

theorem Settled.fnDemand {x y : Safe} (h : Settled x y) (e : FnEntry) : y.fnDemand e = x.fnDemand e := by rw [h.rest]; rfl
theorem Settled.edmShut {x y : Safe} (h : Settled x y) (e : FnEntry) : y.edmShut e = x.edmShut e := by rw [h.rest]; rfl
theorem Settled.phase {x y : Safe} (h : Settled x y) (f : Nat) : (y.getFn f).phase = (x.getFn f).phase :=
  FnState.of_untimed FnState.phase (fun _ => rfl) (h.fn f)
theorem Settled.terminal {x y : Safe} (h : Settled x y) (n : Nat) : (y.getSo n).terminal = (x.getSo n).terminal := by rw [h.so n]
theorem Settled.getFb {x y : Safe} (h : Settled x y) (n : Nat) : y.getFb n = x.getFb n := by rw [h.rest]; rfl
theorem Settled.escal {x y : Safe} (h : Settled x y) (n : Nat) : (y.getSo n).escal = (x.getSo n).escal := by rw [h.so n]
theorem Settled.feedbackHolds {x y : Safe} (h : Settled x y) (e : FnEntry) : y.feedbackHolds e = x.feedbackHolds e := by
  simp only [Safe.feedbackHolds, h.getFb, h.terminal]
/-- A reset acts on the same functions after the cell has settled. -/
theorem Settled.resets {x y : Safe} (h : Settled x y) (p f : Nat) (e : FnEntry) : y.resets p f e = x.resets p f e := by
  simp only [Safe.resets, h.phase, h.fnDemand, h.edmShut, h.feedbackHolds]

theorem SameInputs.getFb {x y : Safe} (h : SameInputs x y) (n : Nat) : y.getFb n = x.getFb n := by rw [← h]; rfl
theorem SameOuts.active {x y : Safe} (h : SameOuts x y) (n : Nat) : (y.getSo n).active = (x.getSo n).active := by rw [h n]
theorem SameOuts.escal {x y : Safe} (h : SameOuts x y) (n : Nat) : (y.getSo n).escal = (x.getSo n).escal := by rw [h n]

@[simp] theorem Safe.getFb_setFb (x : Safe) (n : Nat) (v : Fb) : (x.setFb n v).getFb n = v := Tbl.get_set_self _ _ _ _

/-! A sample of a pair in lane P (10 R298-R300, R303). -/

/-- The pair with a sample of lane P. -/
def SipPair.sampledP (w : Word) (now : Nat) (l1 l2 : Bool) (v : SipPair) : SipPair :=
  { v with l1 := l1, l2 := l2, disP := holdSince now (levelDisagree w l1 l2) v.disP, stepP := v.stepP || (v.discP && levelBoth w l1 l2) }

theorem Safe.getSip_sampleP (x : Safe) (now p q : Nat) (l1 l2 : Bool) : (x.sampleP now p l1 l2).getSip q =
    if q = p then (x.getSip p).sampledP (Tbl.get 0#32 x.pairs p) now l1 l2 else x.getSip q := x.getSip_modSip p q _

/-- A used pair sampled at levels of a demand is in demand. -/
theorem Safe.demandP_sampleP (x : Safe) (now p : Nat) (l1 l2 : Bool) (used : pairUsed (Tbl.get 0#32 x.pairs p) = true)
    (level : levelDemand (Tbl.get 0#32 x.pairs p) l1 l2 = true) : (x.sampleP now p l1 l2).demandP p = true := by
  have pair : (x.sampleP now p l1 l2).getSip p = (x.getSip p).sampledP (Tbl.get 0#32 x.pairs p) now l1 l2 := by
    rw [Safe.getSip_sampleP, if_pos rfl]
  have table : (x.sampleP now p l1 l2).pairs = x.pairs := rfl
  simp [Safe.demandP, pair, table, SipPair.sampledP, used, level]

/-- A pair in demand demands each function that lists it. -/
theorem Safe.fnDemand_of_pair {x : Safe} {e : FnEntry} {p : Fin 16} (lists : e.sip p = true) (demand : x.demandP p = true) :
    (x.fnDemand e).isSome = true := by
  have pair : (List.range 16).any (fun p => e.sip p && x.demandP p) = true :=
    List.any_eq_true.mpr ⟨p, List.mem_range.mpr p.isLt, by rw [lists, demand]; rfl⟩
  rw [Safe.fnDemand, if_pos pair]
  rfl

theorem exec_lanePDemand (s : State) (d : Demand) (lane : s.safe.laneP = true) :
    exec (.lanePDemand d) s = .next (s.laneSample d).evalDemands := if_pos lane

theorem exec_demandWithdrawn (s : State) (d : Demand) (lane : s.safe.laneP = true) :
    exec (.demandWithdrawn d) s = .next (s.laneSample d).evalWithdrawn := if_pos lane

/-- Lane P's sample of a pair puts a changed cell in place. -/
theorem State.laneSample_sip (s : State) (p : Fin 16) (l1 l2 : Bool) :
    s.laneSample (.sip p l1 l2) = s.setSafe (s.safe.sampleP s.nowNs p l1 l2) := rfl

theorem lanePDemand_trips (s : State) (p : Fin 16) (l1 l2 : Bool) (f : Nat) (e : FnEntry) (lane : s.safe.laneP = true)
    (valid : (f, e) ∈ s.safe.valid) (lists : e.sip p = true) (used : pairUsed (Tbl.get 0#32 s.safe.pairs p) = true)
    (level : levelDemand (Tbl.get 0#32 s.safe.pairs p) l1 l2 = true) (type : (s.safe.entry f).type ≠ .timedStop)
    (phase : (s.safe.getFn f).phase = .active ∨ (s.safe.getFn f).phase = .awaitReset) :
    ∃ t, Changes (.lanePDemand (.sip p l1 l2)) s t [.safe] [(.safe, 0)] ∧ (t.safe.getFn f).phase = .demanded ∧
      t.safe.getSip p = { s.safe.getSip p with
        l1 := l1, l2 := l2
        disP := if levelDisagree (Tbl.get 0#32 s.safe.pairs p) l1 l2 then some ((s.safe.getSip p).disP.getD s.nowNs) else none
        stepP := (s.safe.getSip p).stepP || ((s.safe.getSip p).discP && levelBoth (Tbl.get 0#32 s.safe.pairs p) l1 l2) } := by
  have step := exec_lanePDemand s (.sip p l1 l2) lane
  rw [State.laneSample_sip] at step
  have sampled : Settled (s.safe.sampleP s.nowNs p l1 l2) (s.setSafe (s.safe.sampleP s.nowNs p l1 l2)).safe := s.settled_setSafe _
  refine ⟨_, ((s.moves_setSafe _ _).trans (State.moves_evalDemands _)).changes step, ?_, ?_⟩
  · refine State.evalDemands_trips _ f e ?_ ?_ ?_ ?_ ?_
    · rw [State.laneP_setSafe]; exact lane
    · rw [State.valid_setSafe]; exact valid
    · rw [sampled.fnDemand]; exact Safe.fnDemand_of_pair lists (s.safe.demandP_sampleP _ _ _ _ used level)
    · rw [State.entry_setSafe]; exact type
    · rw [sampled.phase]; exact phase.imp_right Or.inl
  · rw [(State.same_evalDemands _).getSip, State.getSip_setSafe, Safe.getSip_sampleP, if_pos rfl]
    rfl

theorem demandWithdrawn_leaves (s : State) (f : Nat) (e : FnEntry) (lane : s.safe.laneP = true) (valid : (f, e) ∈ s.safe.valid)
    (only : ∀ d, (f, d) ∈ s.safe.valid → d = e) (none : s.safe.fnDemand e = none) (free : e.monitors = false)
    (phase : (s.safe.getFn f).phase = .demanded) :
    ∃ t, Changes (.demandWithdrawn .lsSupply) s t [.safe] [(.safe, 5)] ∧ (t.safe.getFn f).phase = (if e.manual then .awaitReset else .active) :=
  ⟨_, s.moves_evalWithdrawn.changes (exec_demandWithdrawn s .lsSupply lane), s.evalWithdrawn_leaves f e lane valid only none free phase⟩

/-! A timed stop (10 R303). -/

theorem exec_timedStopDelay (s : State) (f : Fin 64) (lane : s.safe.laneP = true) (phase : (s.safe.getFn f).phase = .timing)
    (due : (s.safe.getFn f).timingNs + (s.safe.entry f).delayMs * 999000 ≤ s.nowNs) :
    exec (.timedStopDelay f) s = .next (s.fnTrip f (s.safe.getFn f).cause) := if_pos (by simp [lane, phase, due])

/-- A function that enters DEMANDED for the cause it has already keeps everything but its phase. -/
theorem State.settled_fnTrip (s : State) (f : Nat) : Settled { s.safe.setFn f { s.safe.getFn f with phase := .demanded } with
    tripCnt := Bits.inc s.safe.tripCnt } (s.fnTrip f (s.safe.getFn f).cause).safe := by
  unfold State.fnTrip
  dsimp only
  rw [State.safe_recordEvent]
  exact s.settled_setSafe _

theorem timedStopDelay_trips (s : State) (f : Fin 64) (lane : s.safe.laneP = true) (phase : (s.safe.getFn f).phase = .timing)
    (due : (s.safe.getFn f).timingNs + (s.safe.entry f).delayMs * 999000 ≤ s.nowNs) :
    ∃ t, Changes (.timedStopDelay f) s t [.safe] [(.safe, 0)] ∧ t.raised .safe 0 = true ∧
      Settled { s.safe.setFn f { s.safe.getFn f with phase := .demanded } with tripCnt := Bits.inc s.safe.tripCnt } t.safe :=
  ⟨_, (s.moves_fnTrip _ _).changes (exec_timedStopDelay s f lane phase due), State.raised_recordEvent _ _ _ _ _ (by decide),
    s.settled_fnTrip f⟩

/-! Discrepancies (10 R299, R300). -/

theorem discDue_of_le {w : Word} {since : Option Nat} {now t0 : Nat} (period : Nat) (used : pairUsed w = true) (began : since = some t0)
    (due : t0 + discNs w ≤ now) : discDue w since now period = true := by
  have reached : t0 + discNs w ≤ now + period := by omega
  simp [discDue, used, began, reached]

/-- The pair with a discrepancy latched in lane P. -/
def SipPair.latchP (v : SipPair) : SipPair := { v with discP := true, stepP := false }

/-- The pair with a discrepancy latched in lane H. -/
def SipPair.latchH (v : SipPair) : SipPair := { v with discH := true, stepH := false }

/-- The cell with a discrepancy latched in lane P and counted. -/
def Safe.latchedP (x : Safe) (p : Nat) : Safe := { x.modSip p SipPair.latchP with discCnt := Bits.inc x.discCnt }

theorem Safe.getSip_latchedP (x : Safe) (p : Nat) : (x.latchedP p).getSip p = (x.getSip p).latchP :=
  (x.getSip_modSip p p SipPair.latchP).trans (if_pos rfl)

/-- Lane P has latched a discrepancy and reported it. -/
def State.latchedP (s : State) (p : Nat) : State := (s.setSafe (s.safe.latchedP p)).report .safe 1 p 0#32

theorem exec_discrepancyLatch_p (s : State) (p : Fin 16) (t0 : Nat) (lane : s.safe.laneP = true)
    (used : pairUsed (Tbl.get 0#32 s.safe.pairs p) = true) (since : (s.safe.getSip p).disP = some t0)
    (due : t0 + discNs (Tbl.get 0#32 s.safe.pairs p) ≤ s.nowNs) (new : (s.safe.getSip p).discP = false) :
    exec (.discrepancyLatch .p p) s = .next ((s.latchedP p).evalDemands.fnFaultAll (fun e => e.sip p) .discrepancy) :=
  (if_neg (by simp [lane, discDue_of_le 100000 used since due])).trans (if_neg (by simp [new]))

theorem discrepancyLatch_faults (s : State) (p : Fin 16) (f : Nat) (e : FnEntry) (t0 : Nat) (lane : s.safe.laneP = true)
    (used : pairUsed (Tbl.get 0#32 s.safe.pairs p) = true) (since : (s.safe.getSip p).disP = some t0)
    (due : t0 + discNs (Tbl.get 0#32 s.safe.pairs p) ≤ s.nowNs) (new : (s.safe.getSip p).discP = false)
    (valid : (f, e) ∈ s.safe.valid) (lists : e.sip p = true) (phase : (s.safe.getFn f).phase = .demanded) :
    ∃ t, Changes (.discrepancyLatch .p p) s t [.safe] [(.safe, 0), (.safe, 1)] ∧ t.raised .safe 1 = true ∧ (t.safe.getSip p).discP = true ∧
      t.safe.discCnt = Bits.inc s.safe.discCnt ∧ (t.safe.getFn f).phase = .faulted ∧ FnCause.discrepancy ∈ (t.safe.getFn f).faults := by
  have moved : Moves s (s.latchedP p) [.safe] [(.safe, 0), (.safe, 1)] :=
    (s.moves_setSafe _ _).report _ _ _ _ (by decide) (by simp)
  have told : (s.latchedP p).raised .safe 1 = true := State.raised_report _ _ _ _ _ (by decide)
  have cell : (s.latchedP p).safe = (s.setSafe (s.safe.latchedP p)).safe := State.safe_report _ _ _ _ _
  have demands := (s.latchedP p).moves_evalDemands
  have faults := (s.latchedP p).evalDemands.moves_fnFaultAll (fun e => e.sip p) .discrepancy [(.safe, 0), (.safe, 1)]
  have same := (s.latchedP p).same_evalDemands
  have kept := same.trans ((s.latchedP p).evalDemands.same_fnFaultAll (fun e => e.sip p) .discrepancy)
  have demanded : ((s.latchedP p).evalDemands.safe.getFn f).phase = .demanded := by
    refine State.demanded_evalDemands _ f ?_
    rw [cell, State.fnPhase_setSafe]; exact phase
  refine ⟨_, ((moved.trans demands.stay).trans faults).changes (exec_discrepancyLatch_p s p t0 lane used since due new),
    faults.raised (demands.raised told), ?_, ?_, ?_⟩
  · rw [kept.getSip, cell, State.getSip_setSafe, Safe.getSip_latchedP]; rfl
  · rw [kept.discCnt, cell, State.discCnt_setSafe]; rfl
  · refine State.fnFaultAll_faults _ _ _ f e ?_ lists (by rw [demanded]; decide)
    rw [same.valid, cell, State.valid_setSafe]
    exact valid

/-- The cell with a discrepancy latched in lane H and counted. -/
def Safe.latchedH (x : Safe) (now p : Nat) : Safe :=
  { x.hChange now p SipPair.latchH with discCnt := Bits.inc (x.hChange now p SipPair.latchH).discCnt }

theorem Safe.getSip_latchedH (x : Safe) (now p : Nat) : (x.latchedH now p).getSip p = (x.getSip p).latchH :=
  (x.getSip_hChange now p p SipPair.latchH).trans (if_pos rfl)

theorem exec_discrepancyLatch_h (s : State) (p : Fin 16) (t0 : Nat) (power : s.safe.cellPower = true)
    (used : pairUsed (Tbl.get 0#32 s.safe.laneH.pairs p) = true) (since : (s.safe.getSip p).disH = some t0)
    (due : t0 + discNs (Tbl.get 0#32 s.safe.laneH.pairs p) ≤ s.nowNs) (new : (s.safe.getSip p).discH = false) :
    exec (.discrepancyLatch .h p) s = .next ((s.setSafe (s.safe.latchedH s.nowNs p)).report .safe 1 p 1#32) :=
  (if_neg (by simp [power, discDue_of_le 10000 used since due])).trans (if_neg (by simp [new]))

theorem discrepancyLatch_latches (s : State) (p : Fin 16) (t0 : Nat) (power : s.safe.cellPower = true)
    (used : pairUsed (Tbl.get 0#32 s.safe.laneH.pairs p) = true) (since : (s.safe.getSip p).disH = some t0)
    (due : t0 + discNs (Tbl.get 0#32 s.safe.laneH.pairs p) ≤ s.nowNs) (new : (s.safe.getSip p).discH = false) :
    ∃ t, Changes (.discrepancyLatch .h p) s t [.safe] [(.safe, 1)] ∧ t.raised .safe 1 = true ∧ (t.safe.getSip p).discH = true ∧
      t.safe.discCnt = Bits.inc s.safe.discCnt := by
  refine ⟨_, ((s.moves_setSafe _ _).report _ _ _ _ (by decide) List.mem_cons_self).changes (exec_discrepancyLatch_h s p t0 power used since due new),
    State.raised_report _ _ _ _ _ (by decide), ?_, ?_⟩
  · rw [State.safe_report, State.getSip_setSafe, Safe.getSip_latchedH]; rfl
  · rw [State.safe_report, State.discCnt_setSafe, Safe.latchedH, Safe.discCnt_hChange]

theorem exec_discrepancyClear_h (s : State) (p : Fin 16) (power : s.safe.cellPower = true) (latched : (s.safe.getSip p).discH = true)
    (stepped : (s.safe.getSip p).stepH = true) (quiet : (s.safe.getSip p).hDemand = false) :
    exec (.discrepancyClear .h p) s = .next (s.setSafe (s.safe.setSip p { s.safe.getSip p with discH := false, stepH := false })) :=
  if_pos (by simp [power, latched, stepped, quiet])

/-- Without the first step of R300 lane H's latch stands. -/
theorem exec_discrepancyClear_h_waits (s : State) (p : Fin 16) (waits : (s.safe.getSip p).stepH = false) :
    exec (.discrepancyClear .h p) s = .next s := if_neg (by simp [waits])

/-- Without the first step of R300 lane P's latch stands. -/
theorem exec_discrepancyClear_p_waits (s : State) (p : Fin 16) (waits : (s.safe.getSip p).stepP = false) :
    exec (.discrepancyClear .p p) s = .next s := if_neg (by simp [waits])

/-! Resets (10 R304). -/

theorem exec_resetPress (s : State) (p : Fin 16) (l1 l2 : Bool) (lane : s.safe.laneP = true)
    (used : pairUsed (Tbl.get 0#32 s.safe.pairs p) = true) (level : levelDemand (Tbl.get 0#32 s.safe.pairs p) l1 l2 = true) :
    exec (.resetPress p l1 l2) s = .next (s.setSafe ((s.safe.sampleP s.nowNs p l1 l2).modSip p (fun v =>
      { v with pressNs := some (v.pressNs.getD s.nowNs) }))) := if_pos (by simp [lane, used, level])

theorem resetPress_starts (s : State) (p : Fin 16) (l1 l2 : Bool) (lane : s.safe.laneP = true)
    (used : pairUsed (Tbl.get 0#32 s.safe.pairs p) = true) (level : levelDemand (Tbl.get 0#32 s.safe.pairs p) l1 l2 = true) :
    ∃ t, Changes (.resetPress p l1 l2) s t [.safe] [] ∧
      (t.safe.getSip p).pressNs = some ((s.safe.getSip p).pressNs.getD s.nowNs) ∧ (t.safe.getSip p).l1 = l1 ∧ (t.safe.getSip p).l2 = l2 ∧
      (∀ q : Fin 16, q ≠ p → t.safe.getSip q = s.safe.getSip q) ∧ ∀ f, (t.safe.getFn f).untimed = (s.safe.getFn f).untimed := by
  have pair : (s.setSafe ((s.safe.sampleP s.nowNs p l1 l2).modSip p (fun v => { v with pressNs := some (v.pressNs.getD s.nowNs) }))).safe.getSip p
      = { (s.safe.getSip p).sampledP (Tbl.get 0#32 s.safe.pairs p) s.nowNs l1 l2 with
          pressNs := some ((s.safe.getSip p).pressNs.getD s.nowNs) } := by
    rw [State.getSip_setSafe, Safe.getSip_modSip, if_pos rfl, Safe.getSip_sampleP, if_pos rfl]
    rfl
  refine ⟨_, changes_setSafe (exec_resetPress s p l1 l2 lane used level), by rw [pair], by rw [pair]; rfl, by rw [pair]; rfl,
    fun q other => ?_, fun f => ?_⟩
  · have ne : q.val ≠ p.val := fun same => other (Fin.ext same)
    rw [State.getSip_setSafe, Safe.getSip_modSip, if_neg ne, Safe.getSip_sampleP, if_neg ne]
  · rw [State.fn_setSafe]; rfl

/-- The cell once lane P has sampled the end of a press. -/
def Safe.released (x : Safe) (now p : Nat) (l1 l2 : Bool) : Safe := (x.sampleP now p l1 l2).modSip p (fun v => { v with pressNs := none })

theorem exec_resetRelease (s : State) (p : Fin 16) (l1 l2 : Bool) (t0 : Nat) (pressed : (s.safe.getSip p).pressNs = some t0)
    (lane : s.safe.laneP = true) (level : levelDemand (Tbl.get 0#32 s.safe.pairs p) l1 l2 = false) (long : 100000000 ≤ s.nowNs - t0)
    (short : s.nowNs - t0 ≤ 5000000000) (free : (s.safe.getSip p).discP = false) :
    exec (.resetRelease p l1 l2 none) s = .next ((s.setSafe (s.safe.released s.nowNs p l1 l2)).resetBy p) := by
  change execResetRelease p l1 l2 none s = _
  unfold execResetRelease
  simp only [pressed]
  rw [if_neg (by simp [lane, level])]
  exact if_pos (by simp [long, short, free])

theorem resetRelease_resets (s : State) (p : Fin 16) (l1 l2 : Bool) (t0 f : Nat) (e : FnEntry)
    (pressed : (s.safe.getSip p).pressNs = some t0) (lane : s.safe.laneP = true)
    (level : levelDemand (Tbl.get 0#32 s.safe.pairs p) l1 l2 = false) (long : 100000000 ≤ s.nowNs - t0)
    (short : s.nowNs - t0 ≤ 5000000000) (free : (s.safe.getSip p).discP = false) (valid : (f, e) ∈ s.safe.valid)
    (acts : ((s.safe.sampleP s.nowNs p l1 l2).modSip p (fun v => { v with pressNs := none })).resets p f e = true) :
    ∃ t, Changes (.resetRelease p l1 l2 none) s t [.safe] [(.safe, 5), (.safe, 17)] ∧ t.raised .safe 17 = true ∧
      (t.safe.getFn f).phase = .active ∧ (t.safe.getSip p).pressNs = none := by
  have settled : Settled (s.safe.released s.nowNs p l1 l2) (s.setSafe (s.safe.released s.nowNs p l1 l2)).safe := s.settled_setSafe _
  obtain ⟨active, told, same, moved⟩ := (s.setSafe (s.safe.released s.nowNs p l1 l2)).resetBy_acts p f e
    (by rw [State.valid_setSafe]; exact valid) ((settled.resets p f e).trans acts)
  refine ⟨_, ((s.moves_setSafe _ _).trans moved).changes (exec_resetRelease s p l1 l2 t0 pressed lane level long short free), told, active, ?_⟩
  rw [same.getSip, State.getSip_setSafe, Safe.released, Safe.getSip_modSip, if_pos rfl]

/-! Feedback (10 R303, R307). -/

theorem State.fnFault_cause (s : State) (f : Nat) (c : FnCause) (used : (s.safe.getFn f).phase ≠ .unused) :
    ((s.fnFault f c).safe.getFn f).cause = c := by
  rw [FnState.of_untimed FnState.cause (fun _ => rfl) (s.fn_fnFault f f c), if_pos ⟨rfl, used⟩]

/-- Lane P has read a feedback that did not follow, and its function is FAULTED. -/
def State.edmFaulted (s : State) (f : Nat) (fb : Bool) : State :=
  (s.setSafe (s.safe.setFb (s.safe.entry f).fb { s.safe.getFb (s.safe.entry f).fb with level := fb })).fnFault f .edm

theorem exec_edmTimeout (s : State) (f : Fin 64) (fb : Bool) (lane : s.safe.laneP = true) (valid : (s.safe.entry f).valid = true)
    (monitors : (s.safe.entry f).monitors = true) (unseen : (s.safe.getFn f).fbSeen = false) (level : fb = (s.safe.getFn f).on)
    (due : (s.safe.getFn f).swNs + (s.safe.entry f).fbTime * 10000000 ≤ s.nowNs) :
    exec (.edmTimeout f fb) s = .next ((s.edmFaulted f fb).report .safe 2 f ((s.edmFaulted f fb).safe.fnWord f)) :=
  if_pos (by simp [lane, valid, monitors, unseen, level, due])

theorem edmTimeout_faults (s : State) (f : Fin 64) (fb : Bool) (lane : s.safe.laneP = true) (valid : (s.safe.entry f).valid = true)
    (monitors : (s.safe.entry f).monitors = true) (used : (s.safe.getFn f).phase ≠ .unused) (unseen : (s.safe.getFn f).fbSeen = false)
    (level : fb = (s.safe.getFn f).on) (due : (s.safe.getFn f).swNs + (s.safe.entry f).fbTime * 10000000 ≤ s.nowNs) :
    ∃ t, Changes (.edmTimeout f fb) s t [.safe] [(.safe, 2)] ∧ t.raised .safe 2 = true ∧ (t.safe.getFn f).phase = .faulted ∧
      (t.safe.getFn f).cause = .edm ∧ (t.safe.getFb (s.safe.entry f).fb).level = fb := by
  have faulted : Moves s (s.edmFaulted f fb) [.safe] [(.safe, 2)] := (s.moves_setSafe _ _).trans (State.moves_fnFault _ _ _ _)
  have stands : ((s.setSafe (s.safe.setFb (s.safe.entry f).fb { s.safe.getFb (s.safe.entry f).fb with level := fb })).safe.getFn f).phase ≠
      .unused := by rw [State.fnPhase_setSafe]; exact used
  refine ⟨_, (faulted.report _ _ _ _ (by decide) List.mem_cons_self).changes (exec_edmTimeout s f fb lane valid monitors unseen level due),
    State.raised_report _ _ _ _ _ (by decide), ?_, ?_, ?_⟩
  · rw [State.safe_report, State.edmFaulted, State.fnFault_phase, if_pos ⟨rfl, stands⟩]
  · rw [State.safe_report, State.edmFaulted, State.fnFault_cause _ _ _ stands]
  · rw [State.safe_report, State.edmFaulted, (State.same_fnFault _ _ _).getFb, State.getFb_setSafe, Safe.getFb_setFb]

theorem exec_edmFaultClear (s : State) (f : Fin 64) (t0 : Nat) (lane : s.safe.laneP = true) (since : (s.safe.getFn f).openNs = some t0)
    (due : t0 + 1000000000 ≤ s.nowNs) : exec (.edmFaultClear f) s = .next (s.fnClear f .edm) := by
  change execEdmFaultClear f s = _
  unfold execEdmFaultClear
  simp only [since]
  exact if_pos (by simp [lane, due])

theorem edmFaultClear_clears (s : State) (f : Fin 64) (t0 : Nat) (lane : s.safe.laneP = true) (since : (s.safe.getFn f).openNs = some t0)
    (due : t0 + 1000000000 ≤ s.nowNs) (phase : (s.safe.getFn f).phase = .faulted) (faults : (s.safe.getFn f).faults = [.edm]) :
    ∃ t, Changes (.edmFaultClear f) s t [.safe] [] ∧ (t.safe.getFn f).phase = .awaitReset ∧ (t.safe.getFn f).faults = [] := by
  have cleared := s.fn_fnClear f .edm phase (by rw [faults]; exact List.mem_cons_self)
  have gone : (s.safe.getFn f).faults.filter (fun d => d != .edm) = [] := by rw [faults]; rfl
  rw [gone] at cleared
  exact ⟨_, (s.moves_fnClear f .edm _).changes (exec_edmFaultClear s f t0 lane since due),
    congrArg FnState.phase cleared, congrArg FnState.faults cleared⟩

/-! Escalation (10 R296). -/

/-- After a diagnostic was detected it stands on its output; the inputs of the lanes, the functions and an escalation are as before. -/
theorem State.soRaise_keeps (s : State) (n : Nat) (d : SoDiag) : d ∈ ((s.soRaise n d).safe.getSo n).active ∧
    ((s.soRaise n d).safe.getSo n).escal = (s.safe.getSo n).escal ∧ SameInputs s.safe (s.soRaise n d).safe ∧
    ∀ f, ((s.soRaise n d).safe.getFn f).phase = (s.safe.getFn f).phase := by
  by_cases stands : d ∈ (s.safe.getSo n).active
  · have same : s.soRaise n d = s := if_pos (by simpa using stands)
    rw [same]
    exact ⟨stands, rfl, .refl _, fun _ => rfl⟩
  · obtain ⟨settled, -⟩ := s.soRaise_of_new stands
    refine ⟨?_, ?_, SameInputs.settled (y := s.safe.setSo n ((s.safe.getSo n).diagnosed d s.nowNs)) rfl settled, fun f => ?_⟩
    · rw [settled.active, Safe.getSo_setSo]; exact List.mem_cons_self
    · rw [settled.escal, Safe.getSo_setSo]; rfl
    · rw [settled.phase, Safe.getFn_setSo]

/-- Lane H asserts the escalation of an output. -/
def State.escalated (s : State) (n : Nat) : State := s.setSafe (s.safe.setSo n { s.safe.getSo n with escal := true })

theorem exec_escalation (s : State) (n : Fin 8) (t0 : Nat) (new : (s.safe.getSo n).escal = false) (since : (s.safe.getSo n).openNs = some t0)
    (due : t0 + 12000000 ≤ s.nowNs) :
    exec (.escalation n) s = .next (((s.escalated n).soRaise n .escalated).fnFaultAll (fun e => e.so n) .escalation) := by
  change execEscalation n s = _
  unfold execEscalation
  simp only [since]
  exact if_pos (by simp [new, due])

theorem escalation_faults (s : State) (n : Fin 8) (t0 f : Nat) (e : FnEntry) (new : (s.safe.getSo n).escal = false)
    (since : (s.safe.getSo n).openNs = some t0) (due : t0 + 12000000 ≤ s.nowNs) (valid : (f, e) ∈ s.safe.valid) (lists : e.so n = true)
    (used : (s.safe.getFn f).phase ≠ .unused) :
    ∃ t, Changes (.escalation n) s t [.safe] [(.safe, 7)] ∧ (t.safe.getSo n).escal = true ∧ SoDiag.escalated ∈ (t.safe.getSo n).active ∧
      (t.safe.getFn f).phase = .faulted := by
  have asserted : Settled (s.safe.setSo n { s.safe.getSo n with escal := true }) (s.escalated n).safe := s.settled_setSafe _
  obtain ⟨active, escal, same, phases⟩ := (s.escalated n).soRaise_keeps n .escalated
  have outs := ((s.escalated n).soRaise n .escalated).outs_fnFaultAll (fun e => e.so n) .escalation
  have moved := (s.moves_setSafe _ _).trans ((s.escalated n).moves_soRaise n .escalated)
  refine ⟨_, (moved.trans (State.moves_fnFaultAll _ _ _ _)).changes (exec_escalation s n t0 new since due), ?_, ?_, ?_⟩
  · rw [outs.escal, escal, asserted.escal, Safe.getSo_setSo]
  · rw [outs.active]; exact active
  · refine (State.fnFaultAll_faults _ _ _ f e ?_ lists ?_).1
    · rw [same.valid, State.escalated, State.valid_setSafe]; exact valid
    · rw [phases, asserted.phase, Safe.getFn_setSo]; exact used

/-- Settles O46: demands and withdrawals reach the functions through the loops over the function table, a latch, a missing feedback or
an escalation also faults its functions, and a reset takes effect on the cell in which its press has ended. -/
theorem safetyFunctions : Obligations.SafetyFunctions :=
  ⟨lanePDemand_trips, demandWithdrawn_leaves, timedStopDelay_trips, discrepancyLatch_faults, discrepancyLatch_latches,
    fun s p power latched stepped quiet => settles_setSafe (exec_discrepancyClear_h s p power latched stepped quiet),
    exec_discrepancyClear_h_waits, exec_discrepancyClear_p_waits, resetPress_starts, resetRelease_resets, edmTimeout_faults,
    edmFaultClear_clears, escalation_faults⟩

end Sys2Proof.Machine

namespace Sys2Proof.Machine

/-! Brake tests and the tests of the safety outputs (10 R309, R311, R313). -/

/-! A brake test starts (10 R309). -/

/-- The function with a brake test running, from the position and the count at its origin. -/
def FnState.brakeStarted (v : FnState) (now : Nat) (position count : Word) : FnState :=
  { v with running := true, testNo := v.testNo + 1#16, asked := false, abort := false, startNs := now, slip := 0#32
           startPos := position, startCnt := count }

theorem exec_brakeTestStart (s : State) (f : Fin 64) (ready : s.brakeReady f = true) :
    exec (.brakeTestStart f) s = .next (s.setSafe (s.safe.setFn f ((s.safe.getFn f).brakeStarted s.nowNs
      (s.clockAngle (s.safe.entry f).clock) (s.aio.getSh (s.clockShaft (s.safe.entry f).clock)).count))) := if_pos ready

/-! A brake test ends with a verdict (10 R311). -/

/-- The function with its brake test passed at a TAI second. -/
def FnState.brakePassed (v : FnState) (slip : Word) (sec : Nat) : FnState :=
  { v with running := false, result := .pass, slip := slip, due := false, lastPass := some sec }

/-- Lane P has recorded that the brake test of a function passed. -/
def State.brakePassed (s : State) (f : Nat) (slip : Word) : State :=
  (s.setSafe (s.safe.setFn f ((s.safe.getFn f).brakePassed slip s.time.sec.toNat))).recordEvent .safe 4 f slip

theorem State.fn_brakePassed (s : State) (f : Nat) (slip : Word) :
    ((s.brakePassed f slip).safe.getFn f).untimed = ((s.safe.getFn f).brakePassed slip s.time.sec.toNat).untimed := by
  rw [State.brakePassed, State.safe_recordEvent, State.fn_setSafe, Safe.getFn_setFn]

theorem exec_brakeTestEnd (s : State) (f : Fin 64) (w : Word) (running : (s.safe.getFn f).running = true) (lane : s.safe.laneP = true)
    (due : (s.safe.getFn f).startNs + 6000000000 ≤ s.nowNs) (within : w.toNat ≤ (s.safe.entry f).slipLimit.toNat)
    (steady : s.clockSteady (s.safe.entry f).clock = true) :
    exec (.brakeTestEnd f w) s = .next ((s.brakePassed f w).fnClear f .brakeTest) :=
  if_pos (by simp [running, lane, due, within, steady])

/-- Only a FAULTED function has a fault to clear. -/
theorem State.fnClear_of_phase_ne (s : State) (f : Nat) (c : FnCause) (phase : (s.safe.getFn f).phase ≠ .faulted) : s.fnClear f c = s :=
  if_neg (by simp [phase])

theorem brakeTestEnd_passes (s : State) (f : Fin 64) (w : Word) (running : (s.safe.getFn f).running = true) (lane : s.safe.laneP = true)
    (due : (s.safe.getFn f).startNs + 6000000000 ≤ s.nowNs) (within : w.toNat ≤ (s.safe.entry f).slipLimit.toNat)
    (steady : s.clockSteady (s.safe.entry f).clock = true) :
    ∃ t, Changes (.brakeTestEnd f w) s t [.safe] [(.safe, 4)] ∧ t.raised .safe 4 = true ∧
      ((s.safe.getFn f).faults = [.brakeTest] → (s.safe.getFn f).phase = .faulted →
        (t.safe.getFn f).untimed = { (s.safe.getFn f).untimed with
          running := false, result := .pass, slip := w, due := false, lastPass := some s.time.sec.toNat, phase := .awaitReset, faults := [] }) ∧
      ((s.safe.getFn f).phase ≠ .faulted → (t.safe.getFn f).untimed = { (s.safe.getFn f).untimed with
          running := false, result := .pass, slip := w, due := false, lastPass := some s.time.sec.toNat }) := by
  have passed := s.fn_brakePassed f w
  have samePhase : ((s.brakePassed f w).safe.getFn f).phase = (s.safe.getFn f).phase :=
    (FnState.of_untimed FnState.phase (fun _ => rfl) passed :)
  have sameFaults : ((s.brakePassed f w).safe.getFn f).faults = (s.safe.getFn f).faults :=
    (FnState.of_untimed FnState.faults (fun _ => rfl) passed :)
  have moved : Moves s (s.brakePassed f w) [.safe] [(.safe, 4)] :=
    (s.moves_setSafe _ _).recordEvent _ _ _ _ (by decide) List.mem_cons_self
  have told : (s.brakePassed f w).raised .safe 4 = true := State.raised_recordEvent _ _ _ _ _ (by decide)
  have cleared := (s.brakePassed f w).moves_fnClear f .brakeTest [(.safe, 4)]
  refine ⟨_, (moved.trans cleared).changes (exec_brakeTestEnd s f w running lane due within steady), cleared.raised told,
    fun fault phase => ?_, fun phase => ?_⟩
  · have gone : ((s.brakePassed f w).safe.getFn f).faults.filter (fun d => d != .brakeTest) = [] := by rw [sameFaults, fault]; rfl
    rw [State.fn_fnClear _ _ _ (samePhase.trans phase) (by rw [sameFaults, fault]; exact List.mem_cons_self), gone, passed]
    rfl
  · rw [State.fnClear_of_phase_ne _ _ _ (by rw [samePhase]; exact phase), passed]
    rfl

/-- The function with its brake test failed. -/
def FnState.brakeFailed (v : FnState) (slip : Word) : FnState := { v with running := false, result := .fail, slip := slip }

/-- Lane P has found a slip beyond its limit. -/
def State.brakeSlipped (s : State) (f : Nat) (slip : Word) : State :=
  s.setSafe (s.safe.setFn f ((s.safe.getFn f).brakeFailed slip))

/-- A fault changes nothing of a function but its phase, its cause and its faults, and what lane P times of it. -/
theorem State.fnFault_field {α : Type} (s : State) (f g : Nat) (c : FnCause) (p : FnState → α) (timeless : ∀ v, p v.untimed = p v)
    (apart : ∀ v ph d l, p { v with phase := ph, cause := d, faults := l } = p v) :
    p ((s.fnFault f c).safe.getFn g) = p (s.safe.getFn g) := by
  rw [FnState.of_untimed p timeless (s.fn_fnFault f g c)]
  split
  · next h => rw [apart, h.1]
  · rfl

theorem exec_brakeTestFail (s : State) (f : Fin 64) (w : Word) (running : (s.safe.getFn f).running = true) (lane : s.safe.laneP = true)
    (time : s.nowNs ≤ (s.safe.getFn f).startNs + 6000000000) (beyond : (s.safe.entry f).slipLimit.toNat < w.toNat) :
    exec (.brakeTestFail f w) s = .next (((s.brakeSlipped f w).fnFault f .brakeTest).report .safe 3 f w) :=
  if_pos (by simp [running, lane, time, beyond])

theorem brakeTestFail_faults (s : State) (f : Fin 64) (w : Word) (running : (s.safe.getFn f).running = true) (lane : s.safe.laneP = true)
    (time : s.nowNs ≤ (s.safe.getFn f).startNs + 6000000000) (beyond : (s.safe.entry f).slipLimit.toNat < w.toNat)
    (used : (s.safe.getFn f).phase ≠ .unused) :
    ∃ t, Changes (.brakeTestFail f w) s t [.safe] [(.safe, 3)] ∧ t.raised .safe 3 = true ∧ (t.safe.getFn f).phase = .faulted ∧
      (t.safe.getFn f).cause = .brakeTest ∧ (t.safe.getFn f).result = .fail ∧ (t.safe.getFn f).slip = w ∧ (t.safe.getFn f).running = false := by
  have stands : ((s.brakeSlipped f w).safe.getFn f).phase ≠ .unused := by
    rw [State.brakeSlipped, State.fnPhase_setSafe, Safe.getFn_setFn]; exact used
  have found : Moves s (s.brakeSlipped f w) [.safe] [(.safe, 3)] := s.moves_setSafe _ _
  have moved := (found.trans (State.moves_fnFault _ f .brakeTest _)).report .safe 3 f w (by decide) List.mem_cons_self
  refine ⟨_, moved.changes (exec_brakeTestFail s f w running lane time beyond), State.raised_report _ _ _ _ _ (by decide), ?_⟩
  rw [State.safe_report]
  refine ⟨?_, State.fnFault_cause _ _ _ stands, ?_, ?_, ?_⟩
  · rw [State.fnFault_phase, if_pos ⟨rfl, stands⟩]
  · rw [State.fnFault_field _ _ _ _ FnState.result (fun _ => rfl) (fun _ _ _ _ => rfl), State.brakeSlipped, State.fnResult_setSafe,
      Safe.getFn_setFn, FnState.brakeFailed]
  · rw [State.fnFault_field _ _ _ _ FnState.slip (fun _ => rfl) (fun _ _ _ _ => rfl), State.brakeSlipped, State.fnSlip_setSafe,
      Safe.getFn_setFn, FnState.brakeFailed]
  · rw [State.fnFault_field _ _ _ _ FnState.running (fun _ => rfl) (fun _ _ _ _ => rfl), State.brakeSlipped, State.fnRunning_setSafe,
      Safe.getFn_setFn, FnState.brakeFailed]

/-! A brake test ends without a verdict (10 R311). -/

/-- The result that a brake test without a verdict leaves. -/
def brakeResult : BrakeEnd → BrakeResult
  | .aborted => .aborted
  | .inconclusive => .inconclusive

/-- The function with its brake test ended without a verdict. -/
def FnState.brakeAborted (v : FnState) (why : BrakeEnd) (slip : Word) : FnState :=
  { v with running := false, abort := true, result := brakeResult why, slip := slip }

theorem State.brakeAbort_of_running (s : State) (f : Nat) (why : BrakeEnd) (w : Word) (running : (s.safe.getFn f).running = true) :
    s.brakeAbort f why w = (s.setSafe (s.safe.setFn f ((s.safe.getFn f).brakeAborted why w))).recordEvent .safe 5 f w := by
  cases why <;> exact if_pos running

/-- A command that ends a running brake test without a verdict. -/
theorem changes_brakeAbort {i : Instr} {s : State} {f : Nat} {why : BrakeEnd} {w : Word} (step : exec i s = .next (s.brakeAbort f why w))
    (running : (s.safe.getFn f).running = true) : ∃ t, Changes i s t [.safe] [(.safe, 5)] ∧ t.raised .safe 5 = true ∧
      Settled (s.safe.setFn f ((s.safe.getFn f).brakeAborted why w)) t.safe := by
  refine ⟨_, (s.moves_brakeAbort f why w).changes step, ?_, ?_⟩ <;> rw [s.brakeAbort_of_running f why w running]
  · exact State.raised_recordEvent _ _ _ _ _ (by decide)
  · rw [State.safe_recordEvent]; exact s.settled_setSafe _

theorem exec_brakeTestAbort_aborted (s : State) (f : Fin 64) (w : Word) (lane : s.safe.laneP = true)
    (cause : s.clockSteady (s.safe.entry f).clock = false ∨ (s.safe.getFn f).permit = false) :
    exec (.brakeTestAbort f .aborted w) s = .next (s.brakeAbort f .aborted w) :=
  if_pos (by rcases cause with lost | withdrawn <;> simp [*])

theorem exec_brakeTestAbort_inconclusive (s : State) (f : Fin 64) (w : Word) (lane : s.safe.laneP = true)
    (enabled : (s.safe.entry f).rxEn = true) (early : 1500000000 ≤ s.nowNs - (s.safe.getFn f).startNs)
    (late : s.nowNs - (s.safe.getFn f).startNs ≤ 4000000000) :
    exec (.brakeTestAbort f .inconclusive w) s = .next (s.brakeAbort f .inconclusive w) :=
  if_pos (by simp [lane, enabled, early, late])

/-! The tests of the safety outputs (10 R313, R322). -/

/-- A test that is due starts, or gives way to a demand and is counted. -/
theorem exec_safetyTestStart (s : State) (n : Fin 8) (demand k : Bool) (due : s.safetyTestDue n = true)
    (kind : s.safe.testKind s.nowNs n = some k) : exec (.safetyTestStart n demand) s = .next { s with safe :=
      (if demand then { s.safe with preempted := min (s.safe.preempted + 1) 65535 }
        else s.safe.setSo n { s.safe.getSo n with test := some (s.nowNs, k) }) } := by
  change execSafetyTestStart n demand s = _
  unfold execSafetyTestStart
  rw [if_neg (by simp [due])]
  simp only [kind]
  cases demand <;> rfl

theorem exec_safetyTestStepEnd_closure (s : State) (n : Fin 8) (past : (s.safe.getSo n).stepOver s.nowNs .closure = true) :
    exec (.safetyTestStepEnd n .closure true) s = .next { s with safe := s.safe.setSo n { s.safe.getSo n with test := none } } :=
  if_neg (by simp [past])

theorem exec_safetyTestStepEnd_hsDark (s : State) (n : Fin 8) (past : (s.safe.getSo n).stepOver s.nowNs .hsDark = true) :
    exec (.safetyTestStepEnd n .hsDark false) s = .next (s.pulseFailed.soRaise n .hsStuck) := if_neg (by simp [past])

theorem So.faultNs_diagnosed (o : So) {d : SoDiag} (now : Nat) (latched : d.latched = true) : (o.diagnosed d now).faultNs.isSome = true := by
  cases since : o.faultNs <;> simp [So.diagnosed, latched, since]

theorem Settled.faultNs {x y : Safe} (h : Settled x y) (n : Nat) : (y.getSo n).faultNs = (x.getSo n).faultNs := by rw [h.so n]

theorem safetyTestStepEnd_fails (s : State) (n : Fin 8) (past : (s.safe.getSo n).stepOver s.nowNs .hsDark = true)
    (new : SoDiag.hsStuck ∉ (s.safe.getSo n).active) :
    ∃ t, Changes (.safetyTestStepEnd n .hsDark false) s t [.safe] [(.safe, 8)] ∧ t.raised .safe 8 = true ∧
      t.safe.failed = min (s.safe.failed + 1) 65535 ∧ SoDiag.hsStuck ∈ (t.safe.getSo n).active ∧ (t.safe.getSo n).faultNs.isSome = true := by
  obtain ⟨settled, told⟩ := s.pulseFailed.soRaise_of_new (n := n) (d := .hsStuck) new
  have counted : Moves s s.pulseFailed [.safe] [(.safe, 8)] := .set (by simp [State.sans, State.pulseFailed])
  refine ⟨_, (counted.trans (s.pulseFailed.moves_soRaise n .hsStuck)).changes (exec_safetyTestStepEnd_hsDark s n past), told, ?_, ?_, ?_⟩
  · rw [settled.rest]; rfl
  · rw [settled.active, Safe.getSo_setSo]; exact List.mem_cons_self
  · rw [settled.faultNs, Safe.getSo_setSo]; exact So.faultNs_diagnosed _ _ rfl

/-- Settles O47: a brake test starts, or ends passed, failed or without a verdict, each on its one function; a test of an output starts,
gives way, ends, or fails with a latched switch fault. -/
theorem safetyTests : Obligations.SafetyTests :=
  ⟨fun s f ready => settles_setSafe (exec_brakeTestStart s f ready), brakeTestEnd_passes, brakeTestFail_faults,
    fun s f w running lane cause => changes_brakeAbort (exec_brakeTestAbort_aborted s f w lane cause) running,
    fun s f w running lane enabled early late => changes_brakeAbort (exec_brakeTestAbort_inconclusive s f w lane enabled early late) running,
    fun s n k due kind => .quiet (exec_safetyTestStart s n false k due kind) rfl,
    fun s n k due kind => .quiet (exec_safetyTestStart s n true k due kind) rfl,
    fun s n past => .quiet (exec_safetyTestStepEnd_closure s n past) rfl, safetyTestStepEnd_fails⟩

end Sys2Proof.Machine

namespace Sys2Proof.Machine
set_option Elab.async false

/-! What every command keeps: the queue, the invariant and the peat records. -/

/-- The command is a memory fault of the peat block that holds the record with the sequence number `n` (13 R390). -/
def LosesPeat (i : Instr) (s : State) (n : Nat) : Prop :=
  ∃ block verify readable, i = .memFault .peat block verify readable ∧ s.recorder.peatBlock block = some (n / 128)

/-- The command answers a next state with the same queue, that meets the invariant where `s` does and holds every peat record but those
that a memory fault loses. -/
def Kept (i : Instr) (s : State) (o : Host.Outcome State Fault Refusal) : Prop :=
  ∃ t, o = .next t ∧ t.pending = s.pending ∧ (s.Inv → t.Inv) ∧ ∀ e ∈ s.recorder.peat, e ∈ t.recorder.peat ∨ LosesPeat i s e.1

theorem Kept.of_keeps {i : Instr} {s : State} {o : Host.Outcome State Fault Refusal} (h : ∃ t, o = .next t ∧ Keeps s t) : Kept i s o := by
  obtain ⟨t, next, keeps⟩ := h
  exact ⟨t, next, keeps.pending, keeps.inv, fun e mem => .inl (keeps.peat e mem)⟩

theorem Kept.of_kept {i : Instr} {s : State} {o : Host.Outcome State Fault Refusal} (h : ∃ t, o = .next t ∧ t.kept = s.kept) : Kept i s o := by
  obtain ⟨t, next, same⟩ := h
  exact .of_keeps ⟨t, next, .of_kept same⟩

theorem kept_memFault (area : RecArea) (block : Nat) (verify : Bool) (readable : List Nat) (s : State) :
    Kept (.memFault area block verify readable) s (execMemFault area block verify readable s) := by
  obtain ⟨t, next, pending, inv, peat⟩ := keeps_execMemFault area block verify readable s
  refine ⟨t, next, pending, inv, fun e mem => ?_⟩
  by_cases lost : area = .peat ∧ s.recorder.peatBlock block = some (e.1 / 128)
  · exact .inr ⟨block, verify, readable, by rw [lost.1], lost.2⟩
  · exact .inl (peat e mem (fun peat held => lost ⟨peat, held⟩))

/-- Every command keeps, by the lemma of its meaning. -/
theorem exec_kept (i : Instr) (s : State) : Kept i s (exec i s) :=
  match i with
  | .seatClose slotB => .of_kept (kept_execSeatClose slotB s)
  | .xtlArm n => .of_kept (kept_execXtlArm n s)
  | .xtlDemandChange n demand => .of_kept (kept_execXtlDemandChange n demand s)
  | .networkUnitFault pair => .of_kept (kept_execNetworkUnitFault pair s)
  | .taskT0 n env => .of_kept (kept_execTaskT0 n env s)
  | .angleFiring n entry forward ns env => .of_kept (kept_execAngleFiring n entry forward ns env s)
  | .fallbackT0 n firing env => .of_kept (kept_execFallbackT0 n firing env s)
  | .agreedImageComplete n => .of_kept (kept_execAgreedImageComplete n s)
  | .rickInputDeadline n => .of_kept (kept_execRickInputDeadline n s)
  | .engineExamine es => .of_kept (kept_execEngineExamine es s)
  | .billetLoadDone e => .of_kept (kept_execBilletLoadDone e s)
  | .billetRetire e ok us ns => .of_kept (kept_execBilletRetire e ok us ns s)
  | .commitDurable n => .of_kept (kept_execCommitDurable n s)
  | .commitDeadline n => .of_kept (kept_execCommitDeadline n s)
  | .billetFault e us => .of_kept (kept_execBilletFault e us s)
  | .billetRunaway e addr us => .of_kept (kept_execBilletRunaway e addr us s)
  | .engineFence e us => .of_kept (kept_execEngineFence e us s)
  | .engineSelfTestDone e pass => .of_kept (kept_execEngineSelfTestDone e pass s)
  | .engineFwLoaded e => .of_kept (kept_execEngineFwLoaded e s)
  | .sramUe line engines => .of_kept (kept_execSramUe line engines s)
  | .sramLineReloaded line => .of_kept (kept_execSramLineReloaded line s)
  | .breakpointReached e off => .of_kept (kept_execBreakpointReached e off s)
  | .modeRun o => .of_kept (kept_execModeRun o s)
  | .modeStop o => .of_kept (kept_execModeStop o s)
  | .modeHold o => .of_kept (kept_execModeHold o s)
  | .modeStep o n => .of_kept (kept_execModeStep o n s)
  | .breakSet o n billet off => .of_kept (kept_execBreakSet o n billet off s)
  | .breakClear o n billet off => .of_kept (kept_execBreakClear o n billet off s)
  | .taskRestart o n => .of_kept (kept_execTaskRestart o n s)
  | .budget o n budget quota limit stop => .of_kept (kept_execBudget o n budget quota limit stop s)
  | .laneBlockLockLoss l => .of_kept (kept_execLaneBlockLockLoss l s)
  | .laneTrainAttempt l => .of_kept (kept_execLaneTrainAttempt l s)
  | .laneTrainTimeout l => .of_kept (kept_execLaneTrainTimeout l s)
  | .laneTrained l => .of_kept (kept_execLaneTrained l s)
  | .handshake l ok peer randA randB => .of_kept (kept_execHandshake l ok peer randA randB s)
  | .olviaAuthFail l => .of_kept (kept_execOlviaAuthFail l s)
  | .heartbeat f h => .of_kept (kept_execHeartbeat f h s)
  | .samples f n k vals => .of_kept (kept_execSamples f n k vals s)
  | .agreed f n k vals => .of_kept (kept_execAgreed f n k vals s)
  | .exchangeMiss n => .of_kept (kept_execExchangeMiss n s)
  | .hash f n m => .of_kept (kept_execHash f n m s)
  | .verdictDeadline n => .of_kept (kept_execVerdictDeadline n s)
  | .verdict f n k code ta => .of_kept (kept_execVerdict f n k code ta s)
  | .verdictMissing n => .of_kept (kept_execVerdictMissing n s)
  | .policy f m => .of_kept (kept_execPolicy f m s)
  | .seqstate f m => .of_kept (kept_execSeqstate f m s)
  | .yield f r handover => .of_kept (kept_execYield f r handover s)
  | .copy f m => .of_kept (kept_execCopy f m s)
  | .result f m => .of_kept (kept_execResult f m s)
  | .mismatchSelfTestDone pass => .of_kept (kept_execMismatchSelfTestDone pass s)
  | .handover o => .of_kept (kept_execHandover o s)
  | .stage o off total len first last pkg => .of_kept (kept_execStage o off total len first last pkg s)
  | .arm o n k => .of_kept (kept_execArm o n k s)
  | .disarm o => .of_kept (kept_execDisarm o s)
  | .discard o => .of_kept (kept_execDiscard o s)
  | .rollback o => .of_kept (kept_execRollback o s)
  | .carryComplete n => .of_kept (kept_execCarryComplete n s)
  | .sync sender domain first second => .of_kept (kept_execSync sender domain first second s)
  | .mainsLock g => .of_kept (kept_execMainsLock g s)
  | .mainsUnlock g => .of_kept (kept_execMainsUnlock g s)
  | .zEdge sh offNs => .of_kept (kept_execZEdge sh offNs s)
  | .shaftStandstill sh => .of_kept (kept_execShaftStandstill sh s)
  | .shaftOverspeed sh => .of_kept (kept_execShaftOverspeed sh s)
  | .slotFix n => .of_kept (kept_execSlotFix n s)
  | .slotMissed n => .of_kept (kept_execSlotMissed n s)
  | .slotFire n => .of_kept (kept_execSlotFire n s)
  | .slotPulseEnd n => .of_kept (kept_execSlotPulseEnd n s)
  | .inputEdgeCapture ch rising ns => .of_kept (kept_execInputEdgeCapture ch rising ns s)
  | .periodicLaunch ctx => .of_kept (kept_execPeriodicLaunch ctx s)
  | .streamFrameRx f => .of_kept (kept_execStreamFrameRx f s)
  | .hsrForward f => .of_kept (kept_execHsrForward f s)
  | .srcMacForget ctx => .of_kept (kept_execSrcMacForget ctx s)
  | .ddWindowClear ctx => .of_kept (kept_execDdWindowClear ctx s)
  | .portLinkDown p => .of_kept (kept_execPortLinkDown p s)
  | .portLinkUp p => .of_kept (kept_execPortLinkUp p s)
  | .modbusRequest conn seg fn ops => .of_kept (kept_execModbusRequest conn seg fn ops s)
  | .addressServiceRequest p r len => .of_kept (kept_execAddressServiceRequest p r len s)
  | .cellFrame cell crcOk seq f => .of_kept (kept_execCellFrame cell crcOk seq f s)
  | .crossingWatchdog c => .of_kept (kept_execCrossingWatchdog c s)
  | .wireBreakBandChange ch band => .of_kept (kept_execWireBreakBandChange ch band s)
  | .dioInputChange ch level => .of_kept (kept_execDioInputChange ch level s)
  | .overload ch => .of_kept (kept_execOverload ch s)
  | .cellOverload c currentsMa => .of_kept (kept_execCellOverload c currentsMa s)
  | .overloadRetry ch failed => .of_kept (kept_execOverloadRetry ch failed s)
  | .overtemp ch above => .of_kept (kept_execOvertemp ch above s)
  | .openWire ch present => .of_kept (kept_execOpenWire ch present s)
  | .shortSupply ch present ownOut partnerOut => .of_kept (kept_execShortSupply ch present ownOut partnerOut s)
  | .stuckOn ch => .of_kept (kept_execStuckOn ch s)
  | .cross a b => .of_kept (kept_execCross a b s)
  | .shareLow ch present => .of_kept (kept_execShareLow ch present s)
  | .testPulseStart ch demand => .of_kept (kept_execTestPulseStart ch demand s)
  | .testPulseEnd ch meas => .of_kept (kept_execTestPulseEnd ch meas s)
  | .cellUv1 c => .of_kept (kept_execCellUv1 c s)
  | .cellWarnClear c => .of_kept (kept_execCellWarnClear c s)
  | .cellSag c => .of_kept (kept_execCellSag c s)
  | .cellSagExit c => .of_kept (kept_execCellSagExit c s)
  | .cellSupplyLost c => .of_kept (kept_execCellSupplyLost c s)
  | .cellSupplyReturn c mv => .of_kept (kept_execCellSupplyReturn c mv s)
  | .cellRecovered c mv => .of_kept (kept_execCellRecovered c mv s)
  | .loopCrossingWatchdog c => .of_kept (kept_execLoopCrossingWatchdog c s)
  | .loopCellFault c => .of_kept (kept_execLoopCellFault c s)
  | .loopSupplyLow c => .of_kept (kept_execLoopSupplyLow c s)
  | .loopSupplyNormal c => .of_kept (kept_execLoopSupplyNormal c s)
  | .loopSupplyLost c => .of_kept (kept_execLoopSupplyLost c s)
  | .loopSupplyBack c mv => .of_kept (kept_execLoopSupplyBack c mv s)
  | .aioConversionDone results => .of_kept (kept_execAioConversionDone results s)
  | .aioBandChange ch na above => .of_kept (kept_execAioBandChange ch na above s)
  | .loopFeedReclose ch kept => .of_kept (kept_execLoopFeedReclose ch kept s)
  | .trimUpdate ch meanErr sawCompliance => .of_kept (kept_execTrimUpdate ch meanErr sawCompliance s)
  | .makeupEnter ch samples recentChange atLimit => .of_kept (kept_execMakeupEnter ch samples recentChange atLimit s)
  | .makeupExit ch iP => .of_kept (kept_execMakeupExit ch iP s)
  | .sourceRampEnd ch => .of_kept (kept_execSourceRampEnd ch s)
  | .sourceFault ch iOwn => .of_kept (kept_execSourceFault ch iOwn s)
  | .compliance ch present => .of_kept (kept_execCompliance ch present s)
  | .openLoop ch present => .of_kept (kept_execOpenLoop ch present s)
  | .readbackDiff ch present => .of_kept (kept_execReadbackDiff ch present s)
  | .calWindowStart partnerRamping partnerSource => .of_kept (kept_execCalWindowStart partnerRamping partnerSource s)
  | .calWindowEnd offsetNa gainPpm => .of_kept (kept_execCalWindowEnd offsetNa gainPpm s)
  | .shaftLineFault sh present => .of_kept (kept_execShaftLineFault sh present s)
  | .quadErr sh => .of_kept (kept_execQuadErr sh s)
  | .encSupplyFault sh present => .of_kept (kept_execEncSupplyFault sh present s)
  | .laneHSipDemand p c1 c2 => .of_kept (kept_execLaneHSipDemand p c1 c2 s)
  | .laneHDelayDone n => .of_kept (kept_execLaneHDelayDone n s)
  | .lanePDemand d => .of_kept (kept_execLanePDemand d s)
  | .demandWithdrawn d => .of_kept (kept_execDemandWithdrawn d s)
  | .timedStopDelay f => .of_kept (kept_execTimedStopDelay f s)
  | .discrepancyLatch lane p => .of_kept (kept_execDiscrepancyLatch lane p s)
  | .discrepancyClear lane p => .of_kept (kept_execDiscrepancyClear lane p s)
  | .resetRelease p l1 l2 d => .of_kept (kept_execResetRelease p l1 l2 d s)
  | .comparatorTest lane t pass => .of_kept (kept_execComparatorTest lane t pass s)
  | .lanePStart energised => .of_kept (kept_execLanePStart energised s)
  | .escalation n => .of_kept (kept_execEscalation n s)
  | .edmTimeout f fb => .of_kept (kept_execEdmTimeout f fb s)
  | .sbcBoostEnd n => .of_kept (kept_execSbcBoostEnd n s)
  | .brakeTestStart f => .of_kept (kept_execBrakeTestStart f s)
  | .brakeTestEnd f slip => .of_kept (kept_execBrakeTestEnd f slip s)
  | .brakeTestFail f slip => .of_kept (kept_execBrakeTestFail f slip s)
  | .brakeTestAbort f why slip => .of_kept (kept_execBrakeTestAbort f why slip s)
  | .safetyTestStart n demand => .of_kept (kept_execSafetyTestStart n demand s)
  | .safetyTestStepEnd n step pass => .of_kept (kept_execSafetyTestStepEnd n step pass s)
  | .repairTimeExpiry n => .of_kept (kept_execRepairTimeExpiry n s)
  | .soOverloadRetry n failed => .of_kept (kept_execSoOverloadRetry n failed s)
  | .axisEnable a seq => .of_kept (kept_execAxisEnable a seq s)
  | .axisDisable a seq => .of_kept (kept_execAxisDisable a seq s)
  | .axisAppend a seq entries => .of_kept (kept_execAxisAppend a seq entries s)
  | .axisReplace a seq entries => .of_kept (kept_execAxisReplace a seq entries s)
  | .axisStop a seq => .of_kept (kept_execAxisStop a seq s)
  | .axisEstop a seq => .of_kept (kept_execAxisEstop a seq s)
  | .axisVelocity a seq vel acc => .of_kept (kept_execAxisVelocity a seq vel acc s)
  | .axisHome a seq h => .of_kept (kept_execAxisHome a seq h s)
  | .axisSetRates a seq aOvr dOvr => .of_kept (kept_execAxisSetRates a seq aOvr dOvr s)
  | .axisClearFault a seq absent => .of_kept (kept_execAxisClearFault a seq absent s)
  | .axisProfileTick a => .of_kept (kept_execAxisProfileTick a s)
  | .axisLimitEdge a sw active edgePos => .of_kept (kept_execAxisLimitEdge a sw active edgePos s)
  | .axisHomingEdge a sw active edgePos => .of_kept (kept_execAxisHomingEdge a sw active edgePos s)
  | .axisStall a => .of_kept (kept_execAxisStall a s)
  | .axisHoldDelay a => .of_kept (kept_execAxisHoldDelay a s)
  | .axisBridgeFault a f => .of_kept (kept_execAxisBridgeFault a f s)
  | .axisBridgeTestDone a pass => .of_kept (kept_execAxisBridgeTestDone a pass s)
  | .gatedBridgeTest a pass => .of_kept (kept_execGatedBridgeTest a pass s)
  | .vmLow mv => .of_kept (kept_execVmLow mv s)
  | .vmOver mv => .of_kept (kept_execVmOver mv s)
  | .axisStateSave a => .of_kept (kept_execAxisStateSave a s)
  | .epFrameStart late => .of_kept (kept_execEpFrameStart late s)
  | .panelWrite o id rect len bytes => .of_kept (kept_execPanelWrite o id rect len bytes s)
  | .panelPresent o id => .of_kept (kept_execPanelPresent o id s)
  | .panelUpdate o id rect wf => .of_kept (kept_execPanelUpdate o id rect wf s)
  | .panelTemp o id t => .of_kept (kept_execPanelTemp o id t s)
  | .panelPowerOn o id => .of_kept (kept_execPanelPowerOn o id s)
  | .panelPowerOff o id => .of_kept (kept_execPanelPowerOff o id s)
  | .ptempMeasure t => .of_kept (kept_execPtempMeasure t s)
  | .pnlPgFall row => .of_kept (kept_execPnlPgFall row s)
  | .holdoffExpiry n => .of_kept (kept_execHoldoffExpiry n s)
  | .memFault area block verify readable => kept_memFault area block verify readable s
  | .recWinSelect who w => .of_keeps (keeps_execRecWinSelect who w s)
  | .servicePass descs => .of_keeps (keeps_execServicePass descs s)
  | .dataReadDone sq tag data obj pkg => .of_keeps (keeps_execDataReadDone sq tag data obj pkg s)
  | .dmaFailure sq tag how places => .of_kept (kept_execDmaFailure sq tag how places s)
  | .ringAccessFailure r index how => .of_keeps (keeps_execRingAccessFailure r index how s)
  | .nop o => .of_kept (kept_execNop o s)
  | .mode o mode task billet off => .of_kept (kept_execMode o mode task billet off s)
  | .imageWrite o target off total len first last obj => .of_kept (kept_execImageWrite o target off total len first last obj s)
  | .activateConfig o => .of_kept (kept_execActivateConfig o s)
  | .activateSafety o => .of_kept (kept_execActivateSafety o s)
  | .activateFwEngine o e => .of_kept (kept_execActivateFwEngine o e s)
  | .activateFwModule o => .of_keeps (keeps_execActivateFwModule o s)
  | .areaWrite o area off bytes => .of_kept (kept_execAreaWrite o area off bytes s)
  | .areaRead o area addr len => .of_kept (kept_execAreaRead o area addr len s)
  | .recRead o first count peat annex addr len => .of_kept (kept_execRecRead o first count peat annex addr len s)
  | .recNote o detail words => .of_kept (kept_execRecNote o detail words s)
  | .trigger o n => .of_kept (kept_execTrigger o n s)
  | .quota o source quota => .of_kept (kept_execQuota o source quota s)
  | .panel o id op => .of_kept (kept_execPanel o id op s)
  | .sqTailDoorbell n tail => .of_keeps (keeps_execSqTailDoorbell n tail s)
  | .cqHeadDoorbell n head => .of_keeps (keeps_execCqHeadDoorbell n head s)
  | .eqHeadDoorbell head => .of_keeps (keeps_execEqHeadDoorbell head s)
  | .ringStopped n => .of_keeps (keeps_execRingStopped n s)
  | .msixCoalesceTimeout r => .of_kept (kept_execMsixCoalesceTimeout r s)
  | .busMasterEnable msixEn msixMask => .of_kept (kept_execBusMasterEnable msixEn msixMask s)
  | .pcieLinkUp speed width => .of_kept (kept_execPcieLinkUp speed width s)
  | .registerWrite who off w => .of_keeps (keeps_execRegisterWrite who off w s)
  | .badAccess who write => .of_kept (kept_execBadAccess who write s)
  | .guardedValueWrite who off w => .of_keeps (keeps_execGuardedValueWrite who off w s)
  | .complementWrite who off w ns => .of_keeps (keeps_execComplementWrite who off w ns s)
  | .guardLate who => .of_kept (kept_execGuardLate who s)
  | .bitAliasWrite who off b v => .of_keeps (keeps_execBitAliasWrite who off b v s)
  | .lowWordRead who off => .of_kept (kept_execLowWordRead who off s)
  | .groupLatchRead who off => .of_kept (kept_execGroupLatchRead who off s)
  | .scrubPass us found => .of_kept (kept_execScrubPass us found s)
  | .holdupMeasure tenths => .of_kept (kept_execHoldupMeasure tenths s)
  | .scrubNow who busy => .of_keeps (keeps_execScrubNow who busy s)
  | .mntCmdDone cmd tenths => .of_kept (kept_execMntCmdDone cmd tenths s)
  | .mntOpen key => .of_kept (kept_execMntOpen key s)
  | .mntRead off count => .of_kept (kept_execMntRead off count s)
  | .mntWrite off w => .of_keeps (keeps_execMntWrite off w s)
  | .mntCommand d data obj pkg => .of_kept (kept_execMntCommand d data obj pkg s)
  | .supplyLost b => .of_kept (kept_execSupplyLost b s)
  | .supplyBack b => .of_kept (kept_execSupplyBack b s)
  | .thermalWarn on => .of_kept (kept_execThermalWarn on s)
  | .powerUp psA psB romOk torn bookA bookB rebuilt failing => .of_keeps (keeps_execPowerUp psA psB romOk torn bookA bookB rebuilt failing s)
  | .firmwareVerified okA okB => .of_kept (kept_execFirmwareVerified okA okB s)
  | .objectsVerified found => .of_kept (kept_execObjectsVerified found s)
  | .lanesStart energised => .of_kept (kept_execLanesStart energised s)
  | .enumerate cmd => .of_kept (kept_execEnumerate cmd s)
  | .enumCollectEnd delays => .of_kept (kept_execEnumCollectEnd delays s)
  | .ident serial position hops0 hops1 => .of_kept (kept_execIdent serial position hops0 hops1 s)
  | .rxAuth u ok randM randU => .of_kept (kept_execRxAuth u ok randM randU s)
  | .pathDelayMeasure delays => .of_kept (kept_execPathDelayMeasure delays s)
  | .reply u hops0 hops1 samples => .of_kept (kept_execReply u hops0 hops1 samples s)
  | .ack u n k => .of_kept (kept_execAck u n k s)
  | .unitLost u => .of_kept (kept_execUnitLost u s)
  | .rxAckDeadline n => .of_kept (kept_execRxAckDeadline n s)
  | .edmFaultClear f => .of_kept (kept_execEdmFaultClear f s)
  | .soOverload n => .of_kept (kept_execSoOverload n s)
  | .soOpenLoad n => .of_kept (kept_execSoOpenLoad n s)
  | .fwStuck n => .of_kept (kept_execFwStuck n s)
  | .lowSideClosureFail n => .of_kept (kept_execLowSideClosureFail n s)
  | .shaftCountEdge sh a b offNs => .of_kept (kept_execShaftCountEdge sh a b offNs s)
  | .gridSenseSaturated g => .of_kept (kept_execGridSenseSaturated g s)
  | .parityCheckedRead who off found intact => .of_kept (kept_execParityCheckedRead who off found intact s)
  | .ptpAnnounce m => .of_kept (kept_execPtpAnnounce m s)
  | .ptpDelayResponse p ns => .of_kept (kept_execPtpDelayResponse p ns s)
  | .resetPress p l1 l2 => .of_kept (kept_execResetPress p l1 l2 s)
  | .stationTick env => .of_kept (kept_execStationTick env s)
  | .seatOpen => .of_kept (kept_execSeatOpen s)
  | .partnerSeatOpen => .of_kept (kept_execPartnerSeatOpen s)
  | .partnerSeatClose => .of_kept (kept_execPartnerSeatClose s)
  | .cycleControllerFault => .of_kept (kept_execCycleControllerFault s)
  | .svFault => .of_kept (kept_execSvFault s)
  | .twinUnitFault => .of_kept (kept_execTwinUnitFault s)
  | .timeUnitFault => .of_kept (kept_execTimeUnitFault s)
  | .retainedStoreUe => .of_kept (kept_execRetainedStoreUe s)
  | .powerLoss => .of_kept (kept_execPowerLoss s)
  | .heartbeatSend => .of_kept (kept_execHeartbeatSend s)
  | .partnerLost => .of_kept (kept_execPartnerLost s)
  | .keeperLapse => .of_kept (kept_execKeeperLapse s)
  | .partnerRoleLineHigh => .of_kept (kept_execPartnerRoleLineHigh s)
  | .partnerRoleLineLow => .of_kept (kept_execPartnerRoleLineLow s)
  | .roleConflict => .of_kept (kept_execRoleConflict s)
  | .splitBrainRelease => .of_kept (kept_execSplitBrainRelease s)
  | .startingRoleWait => .of_kept (kept_execStartingRoleWait s)
  | .yieldFail => .of_kept (kept_execYieldFail s)
  | .stateCopyTimeout => .of_kept (kept_execStateCopyTimeout s)
  | .stagingComplete => .of_kept (kept_execStagingComplete s)
  | .precarryComplete => .of_kept (kept_execPrecarryComplete s)
  | .settleComplete => .of_kept (kept_execSettleComplete s)
  | .syncTimeout => .of_kept (kept_execSyncTimeout s)
  | .quarantineExpiry => .of_kept (kept_execQuarantineExpiry s)
  | .holdoverExpired => .of_kept (kept_execHoldoverExpired s)
  | .syncWaitExpiry => .of_kept (kept_execSyncWaitExpiry s)
  | .budgetWindow => .of_kept (kept_execBudgetWindow s)
  | .calWindowAbandon => .of_kept (kept_execCalWindowAbandon s)
  | .lanePFault => .of_kept (kept_execLanePFault s)
  | .laneHFault => .of_kept (kept_execLaneHFault s)
  | .lsSupplyLow => .of_kept (kept_execLsSupplyLow s)
  | .lsSupplyBack => .of_kept (kept_execLsSupplyBack s)
  | .lcdFrameStart => .of_kept (kept_execLcdFrameStart s)
  | .frontBackCopyDone => .of_kept (kept_execFrontBackCopyDone s)
  | .tempTimeout => .of_kept (kept_execTempTimeout s)
  | .pnlPgRise => .of_kept (kept_execPnlPgRise s)
  | .panelUnitFault => .of_kept (kept_execPanelUnitFault s)
  | .recordWrite => .of_keeps (keeps_execRecordWrite s)
  | .quotaWindow => .of_kept (kept_execQuotaWindow s)
  | .pcieLinkDown => .of_keeps (keeps_execPcieLinkDown s)
  | .pcieHotReset => .of_keeps (keeps_execPcieHotReset s)
  | .flr => .of_keeps (keeps_execFlr s)
  | .holdupTest => .of_keeps (keeps_execHoldupTest s)
  | .identify => .of_keeps (keeps_execIdentify s)
  | .mntClose => .of_kept (kept_execMntClose s)
  | .mntIdleTimeout => .of_kept (kept_execMntIdleTimeout s)
  | .mntCableRemoved => .of_kept (kept_execMntCableRemoved s)
  | .mntLockoutEnd => .of_kept (kept_execMntLockoutEnd s)
  | .dieOvertemp => .of_kept (kept_execDieOvertemp s)
  | .twinSearchEnd => .of_kept (kept_execTwinSearchEnd s)
  | .timeSourceSettled => .of_kept (kept_execTimeSourceSettled s)
  | .configSwitchInstant => .of_kept (kept_execConfigSwitchInstant s)
  | .rickFormed => .of_kept (kept_execRickFormed s)
  | .rickPoll => .of_kept (kept_execRickPoll s)
  | .commission => .of_kept (kept_execCommission s)
  | .commissionDone => .of_kept (kept_execCommissionDone s)
  | .commissionArmExpiry => .of_kept (kept_execCommissionArmExpiry s)
  | .safetyCellPowerLost => .of_kept (kept_execSafetyCellPowerLost s)
  | .safetyCellPowerBack => .of_kept (kept_execSafetyCellPowerBack s)
  | .svRestartDone => .of_kept (kept_execSvRestartDone s)
  | .vmHigh => .of_kept (kept_execVmHigh s)
  | .vmLowClear => .of_kept (kept_execVmLowClear s)
  | .busMasterDisable => .of_kept (kept_execBusMasterDisable s)
  | .mntCableAttached => .of_kept (kept_execMntCableAttached s)
  | .supervisionFrameSend => .of_kept (kept_execSupervisionFrameSend s)
  | .slewDone => .of_kept (kept_execSlewDone s)

/-- Settles O7: what `exec_kept` says of the queue. -/
theorem everyCommandAnswers : Obligations.EveryCommandAnswers := fun i s => by
  obtain ⟨t, next, pending, -, -⟩ := exec_kept i s
  exact ⟨t, next, pending⟩

/-- Settles O8: a step runs one command, which keeps the invariant, or none. -/
theorem stepKeepsInv : Obligations.StepKeepsInv := fun s t inv stepped => by
  unfold step at stepped
  split at stepped
  · cases stepped; exact inv
  · next c rest front =>
    obtain ⟨u, next, -, kept, -⟩ := exec_kept c { s with pending := rest }
    cases stepped.symm.trans next
    exact kept inv

/-- Settles O9: a step runs one command, and of all commands only a memory fault of its block takes a peat record away. -/
theorem peatIsKept : Obligations.PeatIsKept := fun s t stepped e mem => by
  unfold step at stepped
  split at stepped
  · cases stepped; exact .inl mem
  · next c rest front =>
    obtain ⟨u, next, -, -, peat⟩ := exec_kept c { s with pending := rest }
    cases stepped.symm.trans next
    refine (peat e mem).imp_right (fun ⟨block, verify, readable, fault, held⟩ => ?_)
    exact ⟨block, verify, readable, rest, by rw [front, fault], held⟩

end Sys2Proof.Machine

namespace Sys2Proof.Machine
set_option Elab.async false

/-! Reserved offsets (15 R425). -/

/-- A read of a reserved offset gives 0 and changes nothing, a write of it reaches no register. -/
def Reserved (s : State) (who : Requester) (off : Nat) (w : Word) : Prop :=
  s.busRead who off = (0#32, s) ∧ exec (.registerWrite who off w) s = .next (s.written who)

/-- Registers and their complement ports. -/
theorem reserved_register (s : State) (who : Requester) (off : Nat) (w : Word) (small : off < 0x8000) (aligned : off % 4 = 0)
    (reserved : isReg (off % 0x4000) = false) : Reserved s who off w := by
  by_cases port : 0x4000 ≤ off
  · have reg : isReg (off - 0x4000) = false := by rwa [show off - 0x4000 = off % 0x4000 by omega]
    refine ⟨?_, congrArg Host.Outcome.next ?_⟩
    · rw [State.busRead, if_neg (by omega), if_neg (by omega), if_neg (by omega), if_neg (by omega), if_pos (by simp [port])]
    · rw [State.busWrite]
      rw [if_neg (by omega), if_neg (by omega), if_neg (by omega), if_neg (by omega), if_pos port, if_neg (by simp [reg])]
      rfl
  · have reg : isReg off = false := by rwa [show off % 0x4000 = off by omega] at reserved
    refine ⟨?_, registerWrite_ignored s who off w (by omega) aligned (.inl reg)⟩
    rw [State.busRead, if_neg (by omega), if_neg (by omega), if_neg (by omega), if_neg (by omega), if_pos (by simp [reg])]

/-- The MSI-X area, and what lies behind it. -/
theorem reserved_msix (s : State) (who : Requester) (off : Nat) (w : Word) (low : 0x8200 ≤ off) (high : off < 0x80000) (pba : off ≠ 0x9000) :
    Reserved s who off w := by
  refine ⟨?_, congrArg Host.Outcome.next ?_⟩
  · rw [State.busRead, if_neg (by omega), if_neg (by omega), if_pos (by omega), if_neg (by omega : ¬off < 0x8200), if_neg pba, ite_self]
  · rw [State.busWrite]
    rw [if_neg (by omega), if_neg (by omega), if_pos (by omega), if_neg (by omega)]
    rfl

/-- The bit aliases. -/
theorem reserved_alias (s : State) (who : Requester) (off : Nat) (w : Word) (low : 0x80000 ≤ off) (high : off < 0x100000) (aligned : off % 4 = 0)
    (reserved : isReg ((off - 0x80000) / 128 * 4) = false) : Reserved s who off w := by
  refine ⟨?_, congrArg Host.Outcome.next ?_⟩
  · rw [State.busRead, if_neg (by omega), if_pos low, if_neg (by omega), if_pos (by simp [reserved])]
  · rw [State.busWrite]
    rw [if_neg (by omega), if_pos low, if_neg (by omega), State.regWrite_none _ _ _ _ _ _ (.inl reserved)]
    rfl

/-- Settles O1: the three areas of BAR0 one after the other. -/
theorem reservedOffsets : Obligations.ReservedOffsets := by
  rintro s who off w (⟨small, aligned, reserved⟩ | ⟨low, high, pba⟩ | ⟨low, high, aligned, reserved⟩)
  · exact reserved_register s who off w small aligned reserved
  · exact reserved_msix s who off w low high pba
  · exact reserved_alias s who off w low high aligned reserved

/-! The front indicators (18 R490). -/

theorem State.indicators_unpowered {s : State} (dark : s.mod.powered = false) : s.indicators = ⟨.off, .off, .off, .off, .off, .off, false⟩ :=
  if_pos (by simp [dark])

/-- ROLE of a powered module. -/
def roleLamp (isolated : Bool) : Role → Lamp
  | .lead => .on .green
  | .solo => .flash .green
  | .shadow => if isolated then .flash .amber else .on .amber
  | .none => .off

/-- TWIN of a powered module. -/
def linkLamp : LinkState → Lamp
  | .joined => .on .green
  | .catchingUp => .flash .green
  | .severed => .off

section
variable {s : State} (lit : s.mod.powered = true)
include lit

theorem State.pwr_indicators : s.indicators.pwr = if s.mod.ready then .on .green else .flash .green := by simp [State.indicators, lit]
theorem State.role_indicators (role : Role) (shown : s.role = role) : s.indicators.role = roleLamp s.twin.isolated role := by
  simp only [State.indicators, lit, ← shown]; rfl
theorem State.twin_indicators (link : LinkState) (shown : s.twin.link = link) : s.indicators.twin = linkLamp link := by
  simp only [State.indicators, lit, ← shown]; rfl
theorem State.field_indicators : s.indicators.field = .on .red ↔ s.fieldDiag = true := by
  cases diag : s.fieldDiag <;> simp [State.indicators, lit, diag]
theorem State.safe_indicators : s.indicators.safe = if s.safe.laneP && s.safe.laneHOk && s.safe.idOk then .on .green else .on .red := by
  simp [State.indicators, lit]
theorem State.fault_indicators : s.indicators.fault =
    if s.mod.failed then .on .red else if s.cfg.phase == .noConfig || s.cfg.phase == .rom then .flash .red else .off := by
  simp [State.indicators, lit]
theorem State.identify_indicators : s.indicators.identify = s.mnt.identify := by simp [State.indicators, lit]
end

theorem State.fieldDiag_iff (s : State) :
    s.fieldDiag = true ↔ (∃ n, n < 96 ∧ (s.dio.getCh n).diag ≠ 0) ∨ ∃ n, n < 32 ∧ (s.aio.getCh n).diag ≠ 0 := by
  simp only [State.fieldDiag, Bool.or_eq_true, List.any_eq_true, List.mem_range, bne_iff_ne]

/-- SAFE is green when both lanes run and agree, and red when one of the three fails. -/
theorem State.safe_green_red {s : State} (lit : s.mod.powered = true) :
    (s.indicators.safe = .on .green ↔ s.safe.laneP = true ∧ s.safe.laneHOk = true ∧ s.safe.idOk = true) ∧
    (s.indicators.safe = .on .red ↔ s.safe.laneP = false ∨ s.safe.laneHOk = false ∨ s.safe.idOk = false) := by
  rw [State.safe_indicators lit]
  cases s.safe.laneP <;> cases s.safe.laneHOk <;> cases s.safe.idOk <;> decide

/-- FAULT is red when FAILED, and flashes without a configuration or in the ROM. -/
theorem State.fault_red {s : State} (lit : s.mod.powered = true) :
    (s.indicators.fault = .on .red ↔ s.mod.failed = true) ∧
    (s.mod.failed = false → (s.indicators.fault = .flash .red ↔ s.cfg.phase = .noConfig ∨ s.cfg.phase = .rom)) := by
  rw [State.fault_indicators lit]
  cases s.mod.failed <;> cases s.cfg.phase <;> decide

/-- Settles O3: each indicator by its own lemma. -/
theorem frontIndicators : Obligations.FrontIndicators := by
  refine ⟨fun s dark => by rw [State.indicators_unpowered dark], fun s lit => ?_⟩
  obtain ⟨green, red⟩ := State.safe_green_red lit
  obtain ⟨failed, flashes⟩ := State.fault_red lit
  exact ⟨State.pwr_indicators lit, State.role_indicators lit .lead, State.role_indicators lit .solo, State.role_indicators lit .shadow,
    State.twin_indicators lit .joined, State.twin_indicators lit .catchingUp, State.twin_indicators lit .severed,
    (State.field_indicators lit).trans s.fieldDiag_iff, green, red, failed, flashes, State.identify_indicators lit⟩

/-! Steps and reset. -/

/-- Settles O4: by the two cases of a queue. -/
theorem stepRunsFront : Obligations.StepRunsFront := by
  refine ⟨fun c rest s front => ?_, fun s empty => ?_⟩ <;> unfold step
  · rw [front]
  · rw [empty]

/-- Settles O5: every value is one that `State.reset` is built with. -/
theorem resetValues : Obligations.ResetValues :=
  ⟨rfl, rfl, rfl, rfl, rfl, rfl, rfl, rfl, rfl, rfl, rfl, rfl, fun _ => rfl, rfl⟩

/-- Settles O6: after reset every submission ring is DISABLED and the annex is empty. -/
theorem resetInv : Obligations.ResetInv := ⟨fun _ => .inl rfl, Nat.zero_le _⟩

end Sys2Proof.Machine

namespace Sys2Proof.Machine
set_option Elab.async false

/-! The commands of an axis (11 R328-R340). -/

/-- A new command record that its axis takes: LAST_SEQ and the position are kept, and its events are set (11 R328, R344). -/
theorem State.axCmd_taken {s : State} {a : Nat} {seq : Word} {f : Axis → AxAns} {y : Axis} {l : List Nat} (new : seq ≠ (s.ax.get a).lastSeq)
    (taken : f (s.ax.get a) = .taken y l) : s.axCmd a seq f = (s.axAfter a seq y).axEvents l := by
  unfold State.axCmd
  simp only [if_neg new, taken]
  rfl

/-- A command that its axis takes without an event. -/
theorem RunsTo.axTaken {i : Instr} {s : State} {a : Nat} {seq : Word} {f : Axis → AxAns} {y : Axis} (e : exec i s = .next (s.axCmd a seq f))
    (new : seq ≠ (s.ax.get a).lastSeq) (taken : f (s.ax.get a) = .taken y []) : RunsTo i s (s.axAfter a seq y) [] :=
  .quiet (e.trans (congrArg _ (State.axCmd_taken new taken))) rfl

theorem axEnable_taken {vm : VmState} {x : Axis} (off : x.state = .disabled) (supplied : vm = .normal ∨ vm = .high) :
    axEnable vm x = .taken { x with state := .idle, bridge := true, hold := true, offLeft := 0, mask := 2000, result := 0 } [] :=
  if_pos ⟨off, supplied⟩

theorem axDisable_idle {x : Axis} (idle : x.state = .idle) :
    axDisable x = .taken { x with state := .disabled, offLeft := 10000, hold := true, result := 0 } [] := by
  rw [axDisable, idle]

/-- A stop of a moving axis flushes its queue (11 R340). -/
theorem axStopCmd_moving {x : Axis} (dec : Nat) (off : Bool) (moving : x.state = .moving) :
    axStopCmd dec off x = .taken { x.stopAt dec 9 off with result := 0 } [] := by
  rw [axStopCmd, moving]

theorem axEstop_moving {x : Axis} (moving : x.state = .moving) : axEstop x = .taken { x.stopAt x.eDecel 9 false with result := 0 } [] :=
  (if_neg (by simp [moving])).trans (axStopCmd_moving _ _ moving)

/-- Entries that pass the checks are put behind a queue that holds moves already (11 R331). -/
theorem axAppend_taken {x : Axis} {es : List MoveEntry} (takes : x.takesMoves = true) (busy : x.queue ≠ [])
    (passed : x.judge x.lastTarget (16 - x.queue.length) es = none) : axAppend es x = .taken { x with
      queue := x.queue ++ resolve x.lastTarget es, state := .moving, motion := .moves, result := 0 } [] := by
  have full : x.queue.isEmpty = false := by simpa using busy
  simp only [axAppend, takes, passed, full, Bool.not_true, Bool.false_eq_true, if_false]

/-- One entry that passes the checks becomes the move in progress (11 R331, R332). -/
theorem axReplace_taken {x : Axis} {e : MoveEntry} (takes : x.takesMoves = true) (passed : x.judge x.pos 16 [e] = none) :
    axReplace [e] x = .taken { x with
      queue := [{ target := if e.relative then x.pos + e.target else e.target, v := e.v, a := e.a, d := e.d, j := e.j, blend := e.blend }]
      state := .moving, motion := .moves, result := 0, braking := false, exit := none, decelPending := false, acc := 0
      curA := if x.aOvr = 0 then e.a else x.aOvr, curD := if x.dOvr = 0 then e.d else x.dOvr } [] := by
  simp only [axReplace, takes, passed, Bool.not_true, Bool.false_eq_true, if_false]
  rfl

theorem axVelocity_taken {x : Axis} {v : Int} {acc : Nat} (takes : x.takesMoves = true) (legal : v.natAbs ≤ 5120000) (legalA : acc ≤ 1000000)
    (down : x.limn = false ∨ 0 ≤ v) (up : x.limp = false ∨ v ≤ 0) : axVelocity v acc x = .taken { x with
      queue := [], motion := .run v acc, state := .moving, result := 0, braking := false, exit := none, decelPending := false } [] := by
  have free : ¬((x.limn = true ∧ v < 0) ∨ (x.limp = true ∧ 0 < v)) := by
    rintro (⟨on, h⟩ | ⟨on, h⟩)
    · simp only [on, Bool.true_eq_false, false_or] at down; omega
    · simp only [on, Bool.true_eq_false, false_or] at up; omega
  rw [axVelocity, if_neg (by simp [takes]), if_neg (by omega), if_neg free]

/-- Homing on the present position ends at once (11 R338). -/
theorem axHome_present {x : Axis} {h : HomeCmd} (idle : x.state = .idle) (mode : h.mode = 5) (vel : h.vel ≤ 5120000) (acc : h.acc ≤ 1000000)
    (dec : h.dec ≤ 1000000) : axHome h x = .taken { x with
      pos := h.offset, x := h.offset * 1000000000000, homed := true, unverified := false, homing := none, result := 1 } [2] := by
  have here : x.pos + (h.offset - x.pos) = h.offset := by omega
  rw [axHome, if_neg (by simp [idle]), if_neg (by omega), if_pos mode]
  simp only [Axis.setHome, here, axScale]

theorem axSetRates_run {x : Axis} {v : Int} {acc ra rd : Nat} (moving : x.state = .moving) (run : x.motion = .run v acc) (legalA : ra ≤ 1000000)
    (legalD : rd ≤ 1000000) : axSetRates ra rd x = .taken { x with aOvr := ra, dOvr := rd, result := 0 } [] := by
  rw [axSetRates, if_neg (by simp [moving]), if_neg (by omega)]
  simp only [run]

theorem axClearFault_taken {x : Axis} (faulted : x.state = .faulted) (still : x.motion = .still) :
    axClearFault .normal true x = .taken { x with state := .disabled, fault := 0, bridge := false, result := 0 } [] := by
  simp [axClearFault, faulted, still]

theorem axisHome_present (s : State) (a : Fin 4) (seq : Word) (h : HomeCmd) (new : seq ≠ (s.ax.get a).lastSeq) (idle : (s.ax.get a).state = .idle)
    (mode : h.mode = 5) (vel : h.vel ≤ 5120000) (acc : h.acc ≤ 1000000) (dec : h.dec ≤ 1000000) :
    RunsTo (.axisHome a seq h) s (s.axAfter a seq { s.ax.get a with
      pos := h.offset, x := h.offset * 1000000000000, homed := true, unverified := false, homing := none, result := 1 }) [(.ax, 2)] :=
  .setEvent (congrArg Host.Outcome.next (State.axCmd_taken new (axHome_present idle mode vel acc dec))) rfl (by decide)

theorem axisClearFault_taken (s : State) (a : Fin 4) (seq : Word) (new : seq ≠ (s.ax.get a).lastSeq) (faulted : (s.ax.get a).state = .faulted)
    (still : (s.ax.get a).motion = .still) (vm : s.ax.vm = .normal) : RunsTo (.axisClearFault a seq true) s
      (s.axAfter a seq { s.ax.get a with state := .disabled, fault := 0, bridge := false, result := 0 }) [] :=
  .axTaken rfl new (by rw [vm]; exact axClearFault_taken faulted still)

/-- Settles O48: each command is taken by its axis as the lemma of that command says. -/
theorem axisCommands : Obligations.AxisCommands :=
  ⟨fun _ _ _ new off supplied => .axTaken rfl new (axEnable_taken off supplied), fun _ _ _ new idle => .axTaken rfl new (axDisable_idle idle),
    fun _ _ _ new moving => .axTaken rfl new (axStopCmd_moving _ _ moving), fun _ _ _ new moving => .axTaken rfl new (axEstop_moving moving),
    fun _ _ _ _ new takes busy passed => .axTaken rfl new (axAppend_taken takes busy passed),
    fun _ _ _ _ new takes passed => .axTaken rfl new (axReplace_taken takes passed),
    fun _ _ _ _ _ new takes vel acc down up => .axTaken rfl new (axVelocity_taken takes vel acc down up), axisHome_present,
    fun _ _ _ _ _ _ _ new moving run ra rd => .axTaken rfl new (axSetRates_run moving run ra rd), axisClearFault_taken⟩

end Sys2Proof.Machine

namespace Sys2Proof.Machine
set_option Elab.async false

/-! The motion of an axis: ticks, switches, stalls and standstill (11 R327-R344). -/

/-! What an axis put with its events leaves. -/

@[simp] theorem State.ax_axEvents (l : List Nat) (s : State) : (s.axEvents l).ax = s.ax := by
  induction l generalizing s with
  | nil => rfl
  | cons b l ih => exact (ih (s.setEvent .ax b)).trans (State.ax_setEvent s .ax b)

/-- The state with an axis put. -/
def State.withAxis (s : State) (a : Nat) (x : Axis) : State := { s with ax := s.ax.set a x }

@[simp] theorem State.event_withAxis (s : State) (a : Nat) (x : Axis) : (s.withAxis a x).event = s.event := rfl

theorem State.moves_withAxis (s : State) (a : Nat) (x : Axis) (m : List (Block × Nat)) : Moves s (s.withAxis a x) [.ax] m := by
  unfold State.withAxis; exact .set

/-- An event that the token holder decided goes to the partner (11 R345). -/
def State.axSent (s : State) (e : AxEvent) : State := { s with ax := { s.ax with sent := s.ax.sent ++ [e] } }

theorem State.moves_axSent (s : State) (e : AxEvent) (m : List (Block × Nat)) : Moves s (s.axSent e) [.ax] m := by
  unfold State.axSent; exact .set

theorem State.bare_axSent {s t : State} (h : t.bare = s.bare) (e : AxEvent) : (t.axSent e).bare = (s.axSent e).bare := by
  have through : ∀ u : State, (u.axSent e).bare = State.bare { u.bare with ax := { u.bare.ax with sent := u.bare.ax.sent ++ [e] } } := fun _ => rfl
  rw [through, through, h]

/-- An axis whose position stays as well known as it was is put with its own events alone. -/
theorem State.axPut_known {s : State} {a : Nat} {x : Axis} (l : List Nat) (known : x.unverified = (s.ax.get a).unverified) :
    s.axPut a x l = (s.withAxis a x).axEvents l := by
  have same : (x.unverified && !(s.ax.get a).unverified) = false := by rw [known, Bool.and_not_self]
  unfold State.axPut
  simp only [same, Bool.false_eq_true, if_false, List.append_nil]
  rfl

/-- The token holder applies the edges that it decides, and sends them (11 R345). -/
theorem State.axOwnEdge_holder {s : State} (a : Nat) (sw : AxSwitch) (active : Bool) (p : Int) (holds : s.holdsToken = true) :
    s.axOwnEdge a sw active p = (s.axEdge a sw active p).axSent (.edge a sw active s.nowNs p) :=
  if_pos (by simp [holds])

/-- A SHADOW keeps the edges that it decides, and takes the level alone (11 R345). -/
theorem State.axOwnEdge_shadow {s : State} (a : Nat) (sw : AxSwitch) (active : Bool) (p : Int) (holds : s.holdsToken = false)
    (alone : s.solo = false) : s.axOwnEdge a sw active p = { s with ax := { s.ax.set a ((s.ax.get a).setSwitch sw active) with
      own := (AxEvent.edge a sw active s.nowNs p :: s.ax.own).take 64 } } :=
  if_neg (by simp [holds, alone])

/-! One µs of the profile (11 R330, R333). -/

/-- The axis once the counts of a µs have run: the stall mask and the time until the bridges go off. -/
def Axis.counted (x : Axis) : Axis := { x with mask := x.mask - 1, offLeft := x.offLeft - 1, bridge := x.bridge && x.offLeft != 1 }

/-- The µs of the motion in progress. -/
def Axis.moved (x : Axis) : Axis :=
  match x.motion with
  | .still => x
  | .moves => x.headTick
  | .run vel acc => x.runTick vel acc
  | .stop dec => x.stopTick dec

/-- With no configuration waiting a µs is the motion's; a position count that follows leaves velocity and state. -/
theorem Axis.tick_moved {x : Axis} (up : Bool) (settled : x.nextCfg = none) :
    (x.tick up).v = x.counted.moved.v ∧ (x.tick up).state = x.counted.moved.state ∧ (x.counted.moved.v = 0 → x.tick up = x.counted.moved) := by
  have same : x.takeCfg = x := by rw [Axis.takeCfg, settled]
  have tick : x.tick up = if x.counted.moved.motion = .still ∨ x.counted.moved.v = 0 then x.counted.moved else
      if fullStep x.counted.pos (x.counted.moved.count up) then
        { x.counted.moved with hold := false, pos := x.counted.moved.count up
                               strong := Axis.modeAt { x.counted.moved with hold := false, pos := x.counted.moved.count up } }
      else { x.counted.moved with hold := false, pos := x.counted.moved.count up } := by
    rw [Axis.tick, same]; rfl
  refine ⟨?_, ?_, fun stands => ?_⟩ <;> rw [tick]
  · split
    · rfl
    · split <;> rfl
  · split
    · rfl
    · split <;> rfl
  · exact if_pos (.inr stands)

/-- A homing search runs towards its velocity. -/
theorem Axis.tick_run (x : Axis) (up : Bool) (vel : Int) (acc : Nat) (settled : x.nextCfg = none) (run : x.motion = .run vel acc)
    (unhomed : x.homed = false) (homing : x.state = .homing) :
    (x.tick up).v = (if x.v < vel * 1000000 then min (x.v + 256 * acc) (vel * 1000000) else max (x.v - 256 * acc) (vel * 1000000)) ∧
    (x.tick up).state = .homing := by
  obtain ⟨v, state, -⟩ := Axis.tick_moved up settled
  have free : x.counted.softAhead vel = none := by simp [Axis.softAhead, Axis.counted, unhomed]
  have moved : x.counted.moved = { x.counted with v := approach x.v (vel * 1000000) (axAcc acc)
                                                  x := x.x + approach x.v (vel * 1000000) (axAcc acc) } := by
    rw [Axis.moved, show x.counted.motion = .run vel acc from run]
    simp only [Axis.runTick, free]
    exact if_neg (fun h => by rw [show x.counted.state = .homing from homing] at h; simp at h)
  rw [v, state, moved]
  exact ⟨by simp [approach, axAcc], homing⟩

/-- A stop that reaches velocity 0 leaves the axis IDLE, with the result recorded for its standstill. -/
theorem Axis.tick_stop (x : Axis) (up : Bool) (d : Nat) (settled : x.nextCfg = none) (stop : x.motion = .stop d) (stopping : x.state = .stopping)
    (plain : x.homing = none) (stays : x.toDisabled = false) (reached : (if x.v < 0 then min (x.v + 256 * d) 0 else max (x.v - 256 * d) 0) = 0) :
    (x.tick up).state = .idle ∧ (x.tick up).v = 0 ∧ (x.tick up).result = x.endResult ∧ (x.tick up).pos = x.pos := by
  obtain ⟨-, -, whole⟩ := Axis.tick_moved up settled
  have still : approach x.v 0 (axAcc d) = 0 := (by simp [approach, axAcc] : _ = _).trans reached
  have moved : x.counted.moved = { x.counted.halt with state := .idle, result := x.endResult, homing := none } := by
    rw [Axis.moved, show x.counted.motion = .stop d from stop]
    refine (if_pos still).trans ?_
    simp only [Axis.standstill, show x.counted.halt.state = .stopping from stopping, show x.counted.halt.homing = none from plain,
      show x.counted.halt.toDisabled = false from stays, Bool.false_eq_true, if_false]
    rfl
  rw [whole (by rw [moved]; rfl), moved]
  exact ⟨rfl, rfl, rfl, rfl⟩

/-- The events of a tick tell of a homing that ends. -/
theorem axTickEvents_homing (x y : Axis) : ∀ b ∈ axTickEvents x y, b = 2 ∨ b = 3 := by
  unfold axTickEvents
  intro b mem
  split at mem
  · split at mem
    · simp_all
    · split at mem <;> simp_all
  · simp at mem

theorem axisProfileTick_ticks (s : State) (a : Fin 4) : ∃ t, Changes (.axisProfileTick a) s t [.ax] [(.ax, 2), (.ax, 3)] ∧
    t.ax.get a = { (s.ax.get a).tick (Config.profileRound s.free) with
      stepNs := if ((s.ax.get a).tick (Config.profileRound s.free)).pos = (s.ax.get a).pos then ((s.ax.get a).tick (Config.profileRound s.free)).stepNs else s.nowNs } ∧
    t.ax.vm = s.ax.vm ∧ ∀ i : Nat, i ≠ a → t.ax.get i = s.ax.get i := by
  have events := axTickEvents_homing (s.ax.get a)
  obtain ⟨y, l, d, exe, axis, block, told⟩ : ∃ (y : Axis) (l : List Nat) (d : AxBlk),
      exec (.axisProfileTick a) s = .next (({ s with ax := d, free := s.free + 1 } : State).axEvents l) ∧
      y = { (s.ax.get a).tick (Config.profileRound s.free) with
        stepNs := if ((s.ax.get a).tick (Config.profileRound s.free)).pos = (s.ax.get a).pos then ((s.ax.get a).tick (Config.profileRound s.free)).stepNs else s.nowNs } ∧
      (∃ past, d = { s.ax.set a y with past := past }) ∧ ∀ b ∈ l, b = 2 ∨ b = 3 := by
    refine ⟨_, _, _, rfl, ?_, ⟨_, rfl⟩, events _⟩
    split <;> rfl
  obtain ⟨past, rfl⟩ := block
  have moves := State.moves_axEvents l { s with ax := { s.ax.set a y with past := past }, free := s.free + 1 }
    (fun b mem => by
      have twoThree := told b (by simpa using mem)
      omega)
  have bits : ∀ e ∈ l.map (fun b => (Block.ax, b)), e ∈ [(Block.ax, 2), (.ax, 3)] ∨ e ∈ reportBits := by
    intro e mem
    obtain ⟨b, listed, rfl⟩ := List.mem_map.mp mem
    rcases told b listed with rfl | rfl <;> simp
  refine ⟨_, ((Moves.set (by simp [State.sans])).trans (moves.mono (fun _ h => h) bits)).changes exe, ?_, ?_, fun i other => ?_⟩
  all_goals rw [State.ax_axEvents]
  · exact (AxBlk.get_set _ _ _).trans axis
  · rfl
  · exact AxBlk.get_set_ne _ _ other

/-! Switches and stalls (11 R336-R339). -/

theorem Axis.switch_setSwitch_unverified (x : Axis) (sw : AxSwitch) (b : Bool) : (x.setSwitch sw b).unverified = x.unverified := by cases sw <;> rfl

/-- Moving into a limit stops the axis at E_DECEL (11 R336). -/
theorem Axis.limitEdge_limn {x : Axis} (moving : x.state = .moving) (down : x.v < 0) : x.limitEdge .limn true =
    ({ ({ x with limn := true } : Axis).stopAt x.eDecel 7 false with limitStops := Bits.sat 16 x.limitStops 1 }, [1]) := by
  simp [Axis.limitEdge, down, moving, Axis.setSwitch]

theorem State.axEdge_plain {s : State} {a : Nat} (sw : AxSwitch) (b : Bool) (p : Int) (homing : (s.ax.get a).state ≠ .homing) :
    s.axEdge a sw b p = s.axPut a ((s.ax.get a).limitEdge sw b).1 ((s.ax.get a).limitEdge sw b).2 := by
  unfold State.axEdge
  dsimp only
  split
  · next state _ => exact absurd state homing
  · rfl

theorem State.axEdge_homing {s : State} {a : Nat} {h : Homing} (sw : AxSwitch) (b : Bool) (p : Int) (homing : (s.ax.get a).state = .homing)
    (run : (s.ax.get a).homing = some h) : s.axEdge a sw b p = s.axPut a ((s.ax.get a).homingEdge h sw b p) [] := by
  simp only [State.axEdge, homing, run]

/-- An edge that the token holder decides and sends. -/
theorem RunsTo.axSent {i : Instr} {s u : State} {a : AxEvent} {b : Nat} (e : exec i s = .next ((u.setEvent .ax b).axSent a)) (he : u.event = s.event)
    (hb : b < 32) : RunsTo i s (u.axSent a) [(.ax, b)] :=
  .mk _ e (State.bare_axSent (State.bare_setEvent u .ax b) a) (((u.raises_setEvent .ax b hb).from he).trans (m := []) (.of_event rfl))

theorem axisLimitEdge_stops (s : State) (a : Fin 4) (p : Int) (moving : (s.ax.get a).state = .moving) (down : (s.ax.get a).v < 0)
    (new : (s.ax.get a).limn = false) (holds : s.holdsToken = true) :
    RunsTo (.axisLimitEdge a .limn true p) s { s with ax := { s.ax.set a { s.ax.get a with
      limn := true, queue := [], motion := .stop (s.ax.get a).cfg.eDecel.toNat, state := .stopping, endResult := 7, toDisabled := false
      braking := false, exit := none, decelPending := false, limitStops := min ((s.ax.get a).limitStops + 1) 65535 } with
      sent := s.ax.sent ++ [.edge a .limn true s.nowNs p] } } [(.ax, 1)] := by
  have exe : exec (.axisLimitEdge a .limn true p) s = .next (s.axOwnEdge a .limn true p) := if_neg (by simp [moving, Axis.switch, new])
  rw [State.axOwnEdge_holder _ _ _ _ holds, State.axEdge_plain _ _ _ (by simp [moving]), Axis.limitEdge_limn moving down,
    State.axPut_known _ (by rfl)] at exe
  exact .axSent (u := s.withAxis a _) exe rfl (by decide)

theorem axisLimitEdge_kept (s : State) (a : Fin 4) (sw : AxSwitch) (act : Bool) (p : Int) (homing : (s.ax.get a).state ≠ .homing)
    (new : (s.ax.get a).switch sw ≠ act) (holds : s.holdsToken = false) (alone : s.solo = false) :
    RunsTo (.axisLimitEdge a sw act p) s { s with ax := { s.ax.set a ((s.ax.get a).setSwitch sw act) with
      own := (AxEvent.edge a sw act s.nowNs p :: s.ax.own).take 64 } } [] :=
  .quiet ((if_neg (by simp [homing, new])).trans (congrArg _ (State.axOwnEdge_shadow a sw act p holds alone))) rfl

/-- The switch of HOME_SWITCH is found (11 R338, R339). -/
theorem Axis.homingEdge_found {x : Axis} {h : Homing} (p : Int) (mode : h.cmd.mode = 0) (search : h.phase = .search) :
    x.homingEdge h .home true p = ({ x with home := true } : Axis).homeFound h p p := by
  simp [Axis.homingEdge, expectedSwitch, mode, search, homeRef, Axis.setSwitch]

theorem axisHomingEdge_found (s : State) (a : Fin 4) (p : Int) (h : Homing) (homing : (s.ax.get a).state = .homing)
    (run : (s.ax.get a).homing = some h) (mode : h.cmd.mode = 0) (search : h.phase = .search) (new : (s.ax.get a).home = false)
    (holds : s.holdsToken = true) :
    RunsTo (.axisHomingEdge a .home true p) s { s with ax := { s.ax.set a { s.ax.get a with
      home := true, homing := some { h with ref := some p, phase := .finish }, capture := p, motion := .stop h.cmd.dec
      state := .stopping, endResult := 1, toDisabled := false } with sent := s.ax.sent ++ [.edge a .home true s.nowNs p] } } [] := by
  have exe : exec (.axisHomingEdge a .home true p) s = .next (s.axOwnEdge a .home true p) := if_pos (by simp [homing, Axis.switch, new])
  rw [State.axOwnEdge_holder _ _ _ _ holds, State.axEdge_homing _ _ _ homing run, Axis.homingEdge_found p mode search,
    State.axPut_known _ (by rfl)] at exe
  exact .quiet exe rfl

/-- A stall while moving faults the axis at once (11 R337). -/
theorem Axis.stalled_moving {x : Axis} (p : Int) (moving : x.state = .moving) : x.stalled p =
    ({ x.halt with queue := [], state := .faulted, fault := 1, result := 9, hold := true, unverified := true
                   homing := none, decelPending := false, stalls := Bits.sat 16 x.stalls 1 }, true) := by
  unfold Axis.stalled
  split
  · next state _ => rw [moving] at state; cases state
  · rfl

theorem axisStall_faults (s : State) (a : Fin 4) (watched : (s.ax.get a).stallWatched = true) (moving : (s.ax.get a).state = .moving)
    (lost : (s.ax.get a).unverified = true) (holds : s.holdsToken = true) :
    ∃ t, Changes (.axisStall a) s t [.ax] [(.ax, 0)] ∧ t.raised .ax 0 = true ∧ t.ax.get a = { s.ax.get a with
      x := (s.ax.get a).pos * 1000000000000, v := 0, acc := 0, motion := .still, braking := false, exit := none, queue := [], state := .faulted
      fault := 1, result := 9, hold := true, homing := none, decelPending := false, stalls := min ((s.ax.get a).stalls + 1) 65535 } := by
  have exe : exec (.axisStall a) s = .next ((s.axStall a (s.ax.get a).pos).axSent (.stall a s.nowNs (s.ax.get a).pos)) :=
    (if_neg (by simp [watched])).trans (if_pos (by simp [holds]))
  unfold State.axStall at exe
  rw [Axis.stalled_moving _ moving] at exe
  dsimp only at exe
  rw [State.axPut_known _ lost.symm] at exe
  refine ⟨_, ((((s.moves_withAxis _ _ _).report .ax 0 _ _ (by decide) (by simp))).trans (State.moves_axSent _ _ _)).changes exe, ?_, ?_⟩
  · exact ((State.moves_axSent _ _ []).raised (State.raised_report _ _ _ _ _ (by decide)))
  · refine (congrArg (fun d : AxBlk => d.get a) (State.ax_report _ _ _ _ _)).trans ((AxBlk.get_set _ _ _).trans ?_)
    simp only [Axis.halt, axScale, Bits.sat, lost]
    rfl

theorem axisHoldDelay_holds (s : State) (a : Fin 4) (on : (s.ax.get a).bridge = true) (still : (s.ax.get a).v = 0)
    (due : (s.ax.get a).stepNs + Bits.get (s.ax.get a).cfg.config 8 7 * 10000000 ≤ s.nowNs) :
    RunsTo (.axisHoldDelay a) s { s with ax := s.ax.set a { s.ax.get a with hold := true } } [] :=
  .quiet (if_pos (by simp [on, still, due])) rfl

theorem axisEdge_same (s : State) (a : Fin 4) (sw : AxSwitch) (act : Bool) (p : Int) (same : (s.ax.get a).switch sw = act) :
    exec (.axisLimitEdge a sw act p) s = .next s ∧ exec (.axisHomingEdge a sw act p) s = .next s :=
  ⟨if_pos (.inr same), if_neg (fun h => h.2 same)⟩

theorem axisStateSave_saves (s : State) (a : Fin 4) (moves : (s.ax.get a).motion ≠ .still) (due : (s.ax.get a).savedNs + 1000000 ≤ s.nowNs) :
    RunsTo (.axisStateSave a) s { s with ax := s.ax.set a { s.ax.get a with
      savedSeq := (s.ax.get a).lastSeq, savedPos := (s.ax.get a).pos, savedNs := s.nowNs } } [] :=
  .quiet (if_pos (by simp [moves, due])) rfl

/-- Settles O49: each clause is the lemma of its command above, or of the tick of an axis. -/
theorem axisMotion : Obligations.AxisMotion :=
  ⟨axisProfileTick_ticks, Axis.tick_run, Axis.tick_stop, axisLimitEdge_stops, axisLimitEdge_kept, axisHomingEdge_found, axisStall_faults,
    axisHoldDelay_holds, axisEdge_same, axisStateSave_saves⟩

end Sys2Proof.Machine

namespace Sys2Proof.Machine
set_option Elab.async false

/-! Faults of the axes: bridges and the motor supply (11 R341, R342, R345, 01 R22). -/

/-- A fault of an axis that is not DISABLED and whose position is unverified already: the axis faults and reports. -/
theorem State.axFault_unverified {s : State} {a : Nat} (cause bit : Nat) (ramp : Bool) (on : (s.ax.get a).state ≠ .disabled)
    (lost : (s.ax.get a).unverified = true) : s.axFault a cause bit ramp =
      (s.withAxis a ((s.ax.get a).faultAt cause ramp)).report .ax bit a ((s.ax.get a).faultAt cause ramp).status := by
  have known : ((s.ax.get a).faultAt cause ramp).unverified = (s.ax.get a).unverified := by
    rw [lost, Axis.faultAt]; dsimp only; split <;> rfl
  exact (if_neg on).trans (by rw [State.axPut_known _ known]; rfl)

/-- What a command that faults one axis leaves. -/
theorem changes_axFault {i : Instr} {s : State} {a cause bit : Nat} {ramp : Bool} (e : exec i s = .next (s.axFault a cause bit ramp))
    (on : (s.ax.get a).state ≠ .disabled) (lost : (s.ax.get a).unverified = true) (small : bit < 32) :
    ∃ t, Changes i s t [.ax] [(.ax, bit)] ∧ t.raised .ax bit = true ∧ t.ax = s.ax.set a ((s.ax.get a).faultAt cause ramp) := by
  rw [State.axFault_unverified cause bit ramp on lost] at e
  exact ⟨_, ((s.moves_withAxis _ _ _).report .ax bit _ _ small (by simp)).changes e, State.raised_report _ _ _ _ _ small, State.ax_report _ _ _ _ _⟩

/-- A fault without a ramp opens the bridge at once and flushes the queue (11 R341). -/
theorem Axis.faultAt_atOnce (x : Axis) (cause : Nat) : (x.faultAt cause false).state = .faulted ∧ (x.faultAt cause false).fault = cause ∧
    (x.faultAt cause false).bridge = false ∧ (x.faultAt cause false).queue = [] ∧ (x.faultAt cause false).v = 0 ∧
    (x.faultAt cause false).pos = x.pos := ⟨rfl, rfl, rfl, rfl, rfl, rfl⟩

/-- A fault of a moving axis with a ramp stops it at E_DECEL (11 R341). -/
theorem Axis.faultAt_ramp {x : Axis} (cause : Nat) (moving : x.state = .moving) : (x.faultAt cause true).state = .faulted ∧
    (x.faultAt cause true).fault = cause ∧ (x.faultAt cause true).motion = .stop x.cfg.eDecel.toNat ∧
    (x.faultAt cause true).bridge = x.bridge ∧ (x.faultAt cause true).v = x.v := by
  simp [Axis.faultAt, moving, Axis.eDecel]

theorem axisBridgeFault_overcurrent (s : State) (a : Fin 4) (on : (s.ax.get a).state ≠ .disabled) (lost : (s.ax.get a).unverified = true) :
    ∃ t, Changes (.axisBridgeFault a .overcurrent) s t [.ax] [(.ax, 6)] ∧ t.raised .ax 6 = true ∧ (t.ax.get a).state = .faulted ∧
      (t.ax.get a).fault = 2 ∧ (t.ax.get a).bridge = false ∧ (t.ax.get a).queue = [] ∧ (t.ax.get a).v = 0 ∧ (t.ax.get a).pos = (s.ax.get a).pos ∧
      ∀ i : Nat, i ≠ a → t.ax.get i = s.ax.get i := by
  obtain ⟨t, changes, told, ax⟩ := changes_axFault (i := .axisBridgeFault a .overcurrent) rfl on lost (by decide)
  obtain ⟨state, fault, bridge, queue, v, pos⟩ := (s.ax.get a).faultAt_atOnce 2
  refine ⟨t, changes, told, ?_⟩
  rw [ax, AxBlk.get_set]
  exact ⟨state, fault, bridge, queue, v, pos, fun i other => AxBlk.get_set_ne _ _ other⟩

theorem axisBridgeFault_overtemp (s : State) (a : Fin 4) (moving : (s.ax.get a).state = .moving) (lost : (s.ax.get a).unverified = true) :
    ∃ t, Changes (.axisBridgeFault a (.overtemp false)) s t [.ax] [(.ax, 7)] ∧ t.raised .ax 7 = true ∧ (t.ax.get a).state = .faulted ∧
      (t.ax.get a).fault = 3 ∧ (t.ax.get a).motion = .stop (s.ax.get a).cfg.eDecel.toNat ∧ (t.ax.get a).bridge = (s.ax.get a).bridge ∧
      (t.ax.get a).v = (s.ax.get a).v := by
  obtain ⟨t, changes, told, ax⟩ := changes_axFault (i := .axisBridgeFault a (.overtemp false)) rfl (by simp [moving]) lost (by decide)
  refine ⟨t, changes, told, ?_⟩
  rw [ax, AxBlk.get_set]
  exact Axis.faultAt_ramp 3 moving

/-! Tests of the bridges. -/

theorem State.regionFault_alone {s : State} {r : Region} (partner : s.partnerEligible = false) (healthy : s.twin.regions = []) :
    s.regionFault r = { s with twin := { s.twin with regions := [r] } } := by
  rw [State.regionFault_of_new s r (by simp [healthy]), if_neg (by simp [partner])]
  simp [State.addRegion, healthy]

theorem axisBridgeTestDone_fails (s : State) (a : Fin 4) (holds : s.holdsToken = true) (faulted : (s.ax.get a).state = .faulted)
    (cause : (s.ax.get a).fault = 2) (partner : s.partnerEligible = false) (healthy : s.twin.regions = []) :
    RunsTo (.axisBridgeTestDone a false) s { s with twin := { s.twin with regions := [.ax] } } [] :=
  .quiet ((if_pos (by simp [holds, faulted, cause])).trans (congrArg _ (State.regionFault_alone partner healthy))) rfl

theorem gatedBridgeTest_fails (s : State) (a : Fin 4) (shadow : s.role = .shadow) :
    RunsTo (.gatedBridgeTest a false) s { s with ax := s.ax.set a { s.ax.get a with bridgeBad := true } } [(.ax, 12)] := by
  refine .mk _ (if_neg (by simp [shadow])) (State.bare_report _ _ _ _ _) ?_
  exact (State.raises_report (s.withAxis a { s.ax.get a with bridgeBad := true }) .ax 12 _ _ (by decide)).from rfl

/-- Whether every bridge is good once one has passed its test. -/
theorem bridgesGood_iff (d : AxBlk) (a : Fin 4) :
    (List.finRange 4).all (fun b => !((d.set a { d.get a with bridgeBad := false }).get b).bridgeBad) = true ↔
      ∀ b : Fin 4, b ≠ a → (d.get b).bridgeBad = false := by
  simp only [List.all_eq_true, List.mem_finRange, true_implies, Bool.not_eq_true']
  refine forall_congr' fun b => ?_
  by_cases same : b = a
  · subst same; simp
  · rw [AxBlk.get_set_ne _ _ (fun e => same (Fin.ext e))]; simp [same]

theorem gatedBridgeTest_allGood (s : State) (a : Fin 4) (shadow : s.role = .shadow) (good : ∀ b : Fin 4, b ≠ a → (s.ax.get b).bridgeBad = false) :
    RunsTo (.gatedBridgeTest a true) s { s with
      ax := s.ax.set a { s.ax.get a with bridgeBad := false }
      twin := { s.twin with regions := s.twin.regions.filter (fun r => r != Region.ax) } } [] := by
  refine .quiet ((if_neg (by simp [shadow])).trans ((if_pos rfl).trans (congrArg _ (if_pos ?_)))) rfl
  exact (bridgesGood_iff s.ax a).mpr good

theorem gatedBridgeTest_otherBad (s : State) (a b : Fin 4) (shadow : s.role = .shadow) (other : b ≠ a) (bad : (s.ax.get b).bridgeBad = true) :
    RunsTo (.gatedBridgeTest a true) s { s with ax := s.ax.set a { s.ax.get a with bridgeBad := false } } [] := by
  refine .quiet ((if_neg (by simp [shadow])).trans ((if_pos rfl).trans (congrArg _ (if_neg ?_)))) rfl
  exact fun all => Bool.false_ne_true (((bridgesGood_iff s.ax a).mp all b other).symm.trans bad)

/-! The motor supply (11 R342). -/

@[simp] theorem State.ax_axPut (s : State) (a : Nat) (x : Axis) (l : List Nat) : (s.axPut a x l).ax = s.ax.set a x := State.ax_axEvents _ _

/-- An axis put with no event of its own tells at most that its position has become unverified. -/
theorem State.moves_axPut_silent (s : State) (a : Nat) (x : Axis) : Moves s (s.axPut a x []) [.ax] [(.ax, 13)] := by
  unfold State.axPut
  dsimp only
  split
  · exact (s.moves_withAxis a x _).setEvent .ax 13 (by decide) (by simp)
  · exact s.moves_withAxis a x _

/-- One axis at a fault of the motor supply: it faults unless it is DISABLED. -/
def State.vmAxis (cause : Nat) (s : State) (a : Nat) : State :=
  if (s.ax.get a).state = .disabled then s else s.axPut a ((s.ax.get a).faultAt cause false) []

theorem State.moves_vmAxis (cause : Nat) (s : State) (a : Nat) : Moves s (s.vmAxis cause a) [.ax] [(.ax, 13)] := by
  unfold State.vmAxis; exact .ite (.refl _ _ _) (s.moves_axPut_silent _ _)

theorem State.ax_vmAxis (cause : Nat) (s : State) (a : Nat) : (s.vmAxis cause a).ax.vm = s.ax.vm ∧ (s.vmAxis cause a).ax.mv = s.ax.mv ∧
    ∀ i, (s.vmAxis cause a).ax.get i = if i = a ∧ (s.ax.get i).state ≠ .disabled then (s.ax.get i).faultAt cause false else s.ax.get i := by
  unfold State.vmAxis
  split
  · next off =>
    refine ⟨rfl, rfl, fun i => (if_neg ?_).symm⟩
    rintro ⟨rfl, on⟩
    exact on off
  · next on =>
    rw [State.ax_axPut]
    refine ⟨rfl, rfl, fun i => ?_⟩
    by_cases same : i = a
    · subst same; simp [on]
    · simp [same, AxBlk.get_set_ne _ _ same]

/-- All axes one after the other. -/
theorem State.ax_vmAxes (cause : Nat) (l : List Nat) (once : l.Nodup) (s : State) :
    (l.foldl (State.vmAxis cause) s).ax.vm = s.ax.vm ∧ (l.foldl (State.vmAxis cause) s).ax.mv = s.ax.mv ∧
      ∀ i ∈ l, (s.ax.get i).state ≠ .disabled → (l.foldl (State.vmAxis cause) s).ax.get i = (s.ax.get i).faultAt cause false := by
  have others : ∀ (l : List Nat) (s : State) (i : Nat), i ∉ l → (l.foldl (State.vmAxis cause) s).ax.get i = s.ax.get i := by
    intro l
    induction l with
    | nil => intros; rfl
    | cons a l ih =>
      intro s i out
      rw [List.mem_cons, not_or] at out
      rw [List.foldl_cons, ih _ _ out.2, (s.ax_vmAxis cause a).2.2, if_neg (by simp [out.1])]
  induction l generalizing s with
  | nil => exact ⟨rfl, rfl, by simp⟩
  | cons a l ih =>
    obtain ⟨new, rest⟩ := List.nodup_cons.mp once
    obtain ⟨vm, mv, axis⟩ := s.ax_vmAxis cause a
    obtain ⟨vms, mvs, axes⟩ := ih rest (s.vmAxis cause a)
    refine ⟨vms.trans vm, mvs.trans mv, fun i mem on => ?_⟩
    rw [List.foldl_cons]
    by_cases same : i = a
    · subst same
      rw [others l _ i new, axis, if_pos ⟨rfl, on⟩]
    · have still : (s.vmAxis cause a).ax.get i = s.ax.get i := by rw [axis, if_neg (by simp [same])]
      rw [axes i ((List.mem_cons.mp mem).resolve_left same) (by rwa [still]), still]

/-- What a declared fault of the motor supply leaves: its state, and every axis that is not DISABLED faulted with its bridge open. -/
theorem changes_vmFault {i : Instr} {s : State} {v : VmState} {mv cause bit : Nat} (e : exec i s = .next (s.vmFault v mv cause bit)) (small : bit < 32) :
    ∃ t, Changes i s t [.ax] [(.ax, bit), (.ax, 13)] ∧ t.raised .ax bit = true ∧ t.ax.vm = v ∧ t.ax.mv = mv ∧
      ∀ a : Fin 4, (s.ax.get a).state ≠ .disabled → (t.ax.get a).state = .faulted ∧ (t.ax.get a).fault = cause ∧ (t.ax.get a).bridge = false := by
  obtain ⟨w, step⟩ : ∃ w, s.vmFault v mv cause bit =
      (List.foldl (State.vmAxis cause) { s with ax := { s.ax with vm := v, mv := mv } } [0, 1, 2, 3]).report .ax bit noObj w := ⟨_, rfl⟩
  obtain ⟨vm, volts, axes⟩ := State.ax_vmAxes cause [0, 1, 2, 3] (by decide) { s with ax := { s.ax with vm := v, mv := mv } }
  have moves : Moves s (List.foldl (State.vmAxis cause) { s with ax := { s.ax with vm := v, mv := mv } } [0, 1, 2, 3]) [.ax] [(.ax, 13)] :=
    (Moves.set (by simp [State.sans])).trans (Moves.foldl _ (State.moves_vmAxis cause) _ _)
  rw [step] at e
  refine ⟨_, ((moves.mono (fun _ h => h) (by simp)).report .ax bit _ _ small (by simp)).changes e, State.raised_report _ _ _ _ _ small, ?_⟩
  rw [State.ax_report]
  refine ⟨vm, volts, fun a on => ?_⟩
  rw [axes a (by have := a.isLt; simp; omega) on]
  exact ⟨rfl, rfl, rfl⟩

theorem vmHigh_reports (s : State) (high : 52000 < s.ax.mv) (normal : s.ax.vm = .normal) :
    RunsTo .vmHigh s { s with ax := { s.ax with vm := .high } } [(.ax, 10)] := by
  refine .mk _ (if_pos ⟨high, normal⟩) (State.bare_report _ _ _ _ _) ?_
  exact (State.raises_report { s with ax := { s.ax with vm := .high } } .ax 10 _ _ (by decide)).from rfl

theorem vmLowClear_clears (s : State) (up : 11500 ≤ s.ax.mv) (notHigh : s.ax.mv ≤ 52000) (low : s.ax.vm = .low) :
    RunsTo .vmLowClear s { s with ax := { s.ax with vm := .normal } } [] := by
  have normal : vmStateOf s.ax.mv = .normal := if_neg (by omega)
  exact .quiet ((if_pos ⟨up, low⟩).trans (by rw [normal])) rfl

/-- Settles O50: bridge faults and bridge tests, each on its one axis, and the faults of the motor supply on them all. -/
theorem axisFaults : Obligations.AxisFaults :=
  ⟨axisBridgeFault_overcurrent, axisBridgeFault_overtemp, axisBridgeTestDone_fails, gatedBridgeTest_fails, gatedBridgeTest_allGood,
    gatedBridgeTest_otherBad, fun _ _ low new => changes_vmFault (if_pos ⟨low, new⟩) (by decide),
    fun _ _ above new => changes_vmFault (if_pos ⟨above, new⟩) (by decide), vmHigh_reports, vmLowClear_clears⟩

end Sys2Proof.Machine

namespace Sys2Proof.Machine
set_option Elab.async false

/-! Panel requests (12 R355, R359, R361-R363). -/

/-- A command that changes the panel unit and completes: the unit's new value and the bits set say what it did. -/
theorem EndsTo.panel {i : Instr} {s t : State} {p : PnlBlk} {l : List (Block × Nat)} (step : exec i s = .next t)
    (moves : Moves s t [.pnl, .done] l) (pnl : t.pnl = p) (bits : ∀ e ∈ l, t.raised e.1 e.2 = true) :
    EndsTo i s { s with pnl := p } l := by
  have split : ∀ u : State, ({ u with pnl := p } : State).sans [.done] = { u.sans [.pnl, .done] with pnl := p } := fun u => by simp [State.sans]
  refine .mk t step ?_ ⟨moves.2.1, bits, moves.2.2⟩
  calc t.sans [.done] = ({ t with pnl := p } : State).sans [.done] := by rw [← pnl]
    _ = ({ s with pnl := p } : State).sans [.done] := by rw [split, split, moves.1]

/-- As `EndsTo.panel`, where nothing is reported. -/
theorem EndsTo.panelQuiet {i : Instr} {s t : State} {p : PnlBlk} (step : exec i s = .next t)
    (moves : Moves s t [.pnl, .done] []) (pnl : t.pnl = p) : EndsTo i s { s with pnl := p } [] :=
  .panel step moves pnl (by simp)

@[simp] theorem State.joined_passed (s : State) (o : Origin) : (s.passed o).joined = s.joined := by simp [State.joined]
@[simp] theorem State.leads_passed (s : State) (o : Origin) : (s.passed o).leads = s.leads := by simp [State.leads, State.holdsToken]
@[simp] theorem State.nowNs_passed (s : State) (o : Origin) : (s.passed o).nowNs = s.nowNs := by simp [State.nowNs]
@[simp] theorem State.tickNo_passed (s : State) (o : Origin) : (s.passed o).tickNo = s.tickNo := by simp [State.tickNo]

/-- The panel unit once a message for the partner is in its log. -/
def PnlBlk.told (p : PnlBlk) (joined : Bool) (m : PnlMsg) : PnlBlk := { p with sent := if joined then p.sent ++ [m] else p.sent }

theorem State.pnlSend_eq (s : State) (m : PnlMsg) : s.pnlSend m = { s with pnl := s.pnl.told s.joined m } := by
  unfold State.pnlSend PnlBlk.told
  cases s.joined <;> rfl

/-- The state once a request has left its place and the partner knows of it (12 R363). -/
def State.asked (s : State) (o : Origin) (id : Half) (op : PanelOp) : State :=
  { s.passed o with pnl := s.pnl.told s.joined (.request id op) }

section
variable (s : State) (o : Origin) (id : Half) (op : PanelOp)
theorem State.moves_asked (m : List (Block × Nat)) : Moves s (s.asked o id op) [.pnl, .done] m :=
  ((Moves.refl _ _ _).passed o (by simp)).trans (Moves.set (t := { s.passed o with pnl := _ }))
@[simp] theorem State.joined_asked : (s.asked o id op).joined = s.joined := State.joined_passed s o
@[simp] theorem State.leads_asked : (s.asked o id op).leads = s.leads := State.leads_passed s o
@[simp] theorem State.nowNs_asked : (s.asked o id op).nowNs = s.nowNs := State.nowNs_passed s o
@[simp] theorem State.tickNo_asked : (s.asked o id op).tickNo = s.tickNo := State.tickNo_passed s o
@[simp] theorem State.pnl_asked : (s.asked o id op).pnl = s.pnl.told s.joined (.request id op) := rfl
end

theorem State.moves_pnlTell (s : State) (m : PnlMsg) (l : List (Block × Nat)) : Moves s (s.pnlTell m) [.pnl] l := by
  unfold State.pnlTell
  rw [State.pnlSend_eq]
  exact .ite .set (.refl _ _ _)

/-- What carrying out a request leaves of the panel unit. -/
theorem State.pnl_pnlDone (s : State) (r : PReq) :
    (s.pnlDone r).pnl = { s.pnl with done := if r.acked || !s.joined then s.pnl.done else s.pnl.done ++ [r] } := by
  unfold State.pnlDone
  cases r.acked || !s.joined
  · rfl
  · exact State.pnl_finish ..

theorem State.moves_pnlDone (s : State) (r : PReq) (l : List (Block × Nat)) : Moves s (s.pnlDone r) [.pnl, .done] l := by
  unfold State.pnlDone
  exact .ite ((Moves.refl _ _ _).finish _ _ _ (by simp)) .set

theorem State.moves_drain (s : State) (ahead rs : List PReq) (l : List (Block × Nat)) : Moves s (s.drain ahead rs) [.pnl, .done] l := by
  induction rs generalizing s ahead with
  | nil => exact Moves.set (t := { s with pnl := _ })
  | cons r rs ih =>
    unfold State.drain
    split
    · refine .ite ?_ (ih _ _)
      exact (Moves.set (t := { s with pnl := _ })).trans ((State.moves_pnlDone _ _ _).trans (ih _ _))
    · exact ih _ _

theorem State.moves_pnlServe (s : State) (l : List (Block × Nat)) : Moves s s.pnlServe [.pnl, .done] l := s.moves_drain _ _ _

theorem State.moves_presentEarly (s : State) (l : List (Block × Nat)) : Moves s s.presentEarly [.pnl] l := by
  unfold State.presentEarly
  split
  · exact .refl _ _ _
  · exact .ite (.refl _ _ _) ((Moves.set (t := { s with pnl := _ })).trans (State.moves_pnlTell _ _ _))

theorem State.moves_pnlTemp (s : State) (v : Int) : Moves s (s.pnlTemp v) [.pnl] [(.pnl, 0)] :=
  (Moves.set (t := { s with pnl := _ })).setEventIf _ _ _ (by decide) (by simp)

/-- A temperature that changes the band is reported. -/
theorem State.raised_pnlTemp (s : State) (v : Int) (h : s.pnl.cfg.wave.bandOf v ≠ s.pnl.band) : (s.pnlTemp v).raised .pnl 0 = true :=
  EvBit.setEventIf (.inr ⟨by simpa using h, rfl, rfl⟩) (by decide)

theorem State.pnl_pnlTemp (s : State) (v : Int) :
    (s.pnlTemp v).pnl = { s.pnl with temp := v, tempValid := true, band := s.pnl.cfg.wave.bandOf v } := by
  unfold State.pnlTemp
  exact State.pnl_setEventIf ..

/-- What the requests but TEMP do, they do without a report. -/
theorem State.moves_pnlTake (s : State) (r : PReq) (quiet : ∀ v, r.op ≠ .temp v) (l : List (Block × Nat)) :
    Moves s (s.pnlTake r) [.pnl, .done] l := by
  unfold State.pnlTake
  split
  next => exact (Moves.set (t := { s with pnl := _ })).trans (State.moves_pnlServe _ _)
  next => exact (Moves.set (t := { s with pnl := _ })).trans ((State.moves_presentEarly _ l).mono (by simp) (fun _ h => .inl h))
  next => exact .set
  next v h => exact absurd h (quiet v)
  next => exact (Moves.ite (.refl _ _ _) .set).trans (State.moves_pnlDone _ _ _)
  next => exact (Moves.set (t := { s with pnl := _ })).trans (State.moves_pnlDone _ _ _)
  next => exact .refl _ _ _

/-- A request that is not refused at once is told to the partner and taken (12 R363). -/
theorem State.panelRequest_taken {s : State} {o : Origin} {id : Half} {op : PanelOp} (drives : s.panelDriving = true)
    (fits : s.pnl.judge op = none) :
    s.panelRequest o id op = (s.asked o id op).pnlTake { id := id, op := op, origin := o, acked := !s.joined } := by
  simp [State.panelRequest, drives, fits, State.pnlSend_eq, State.asked]

/-- A taken request but TEMP ends with what `pnlTake` leaves of the panel unit. -/
theorem endsTo_pnlTake {i : Instr} {s : State} {o : Origin} {id : Half} {op : PanelOp} {p : PnlBlk}
    (step : exec i s = .next (s.panelRequest o id op)) (drives : s.panelDriving = true) (fits : s.pnl.judge op = none) (quiet : ∀ v, op ≠ .temp v)
    (pnl : ((s.asked o id op).pnlTake { id := id, op := op, origin := o, acked := !s.joined }).pnl = p) :
    EndsTo i s { s with pnl := p } [] := by
  rw [State.panelRequest_taken drives fits] at step
  exact .panelQuiet step ((s.moves_asked o id op _).trans (State.moves_pnlTake _ _ quiet _)) pnl

section
variable {s : State} {r : PReq} {q : Rect} {n : Nat} {bs : List Byte} (op : r.op = .write q n bs) (alone : s.pnl.waiting = [])
include op alone

/-- A WRITE with none ahead lands in BACK between two copies (12 R355). -/
theorem State.pnl_pnlTake_lands (lcd : s.pnl.mode = 1) (free : s.pnl.copying = false) : (s.pnlTake r).pnl = { s.pnl with
    back := Tbl.setAll 0 s.pnl.back (s.pnl.pixels q bs), done := if r.acked || !s.joined then s.pnl.done else s.pnl.done ++ [r] } := by
  have may : ({ s.pnl with waiting := [r] } : PnlBlk).mayWrite q [] = true := (if_pos lcd).trans (by simp [free])
  have land : ({ s.pnl with waiting := [r] } : PnlBlk).land q bs =
      { s.pnl with waiting := [r], back := Tbl.setAll 0 s.pnl.back (s.pnl.pixels q bs) } := if_pos lcd
  simp only [State.pnlTake, op, State.pnlServe, alone, List.nil_append, State.drain, may, if_true, land, State.pnl_pnlDone]
  rfl

/-- A WRITE with none ahead waits for an update of its rectangle (12 R357). -/
theorem State.pnl_pnlTake_held (ep : s.pnl.mode = 2) (covered : s.pnl.covered q = true) :
    (s.pnlTake r).pnl = { s.pnl with waiting := [r] } := by
  have may : ({ s.pnl with waiting := [r] } : PnlBlk).mayWrite q [] = false :=
    (if_neg (show ¬ s.pnl.mode = 1 by omega)).trans (show (!s.pnl.refresh && !s.pnl.covered q && true) = false by simp [covered])
  simp only [State.pnlTake, op, State.pnlServe, alone, List.nil_append, State.drain, may, Bool.false_eq_true, if_false]

end

/-- A PRESENT brings the scheduled frame forward and the LEAD tells of it (12 R354). -/
theorem State.pnl_presentEarly {s : State} {t u : Nat} (scheduled : s.pnl.nextNs = some t) (runs : s.pnl.inFrame = true)
    (free : s.pnl.copying = false) (due : u = max (lcdNext s.pnl.frameNs s.pnl.rateActive) ((s.tickNo + 1) * 10000)) (sooner : u < t) :
    s.presentEarly.pnl = { s.pnl with
      nextNs := some u, sent := if s.leads && s.joined then s.pnl.sent ++ [.early (s.pnl.frameNo + 1) u] else s.pnl.sent } := by
  have same : ({ s with pnl := { s.pnl with nextNs := some u } } : State).leads = s.leads ∧
      ({ s with pnl := { s.pnl with nextNs := some u } } : State).joined = s.joined := ⟨rfl, rfl⟩
  unfold State.presentEarly
  rw [scheduled]
  dsimp only
  rw [← due, if_neg (by simp [free, runs, sooner]), State.pnlTell, State.pnlSend_eq, same.1, same.2]
  cases s.leads <;> cases s.joined <;> rfl

/-- The state with a request at the end of the waiting ones. -/
def State.queued (s : State) (r : PReq) : State := { s with pnl := { s.pnl with waiting := s.pnl.waiting ++ [r] } }

@[simp] theorem State.leads_queued (s : State) (r : PReq) : (s.queued r).leads = s.leads := rfl
@[simp] theorem State.joined_queued (s : State) (r : PReq) : (s.queued r).joined = s.joined := rfl

theorem State.pnlTake_present {s : State} {r : PReq} (op : r.op = .present) : s.pnlTake r = (s.queued r).presentEarly := by
  simp only [State.pnlTake, op]
  rfl

theorem panelWrite_lands (s : State) (o : Origin) (id : Half) (r : Rect) (len : Nat) (bs : List Byte) (drives : s.panelDriving = true)
    (fits : s.pnl.judge (.write r len bs) = none) (idle : s.pnl.waiting = []) (lcd : s.pnl.mode = 1) (free : s.pnl.copying = false) :
    EndsTo (.panelWrite o id r len bs) s { s with pnl := { s.pnl with
      back := Tbl.setAll 0 s.pnl.back (s.pnl.pixels r bs), sent := if s.joined then s.pnl.sent ++ [.request id (.write r len bs)] else s.pnl.sent
      done := if s.joined then s.pnl.done ++ [{ id := id, op := .write r len bs, origin := o, acked := false }] else s.pnl.done } } [] := by
  refine endsTo_pnlTake rfl drives fits (by simp) ((State.pnl_pnlTake_lands (s := s.asked o id _) rfl idle lcd free).trans ?_)
  rw [State.joined_asked, State.pnl_asked]
  cases s.joined <;> rfl

theorem panelWrite_waits (s : State) (o : Origin) (id : Half) (r : Rect) (len : Nat) (bs : List Byte) (drives : s.panelDriving = true)
    (fits : s.pnl.judge (.write r len bs) = none) (idle : s.pnl.waiting = []) (ep : s.pnl.mode = 2) (_ : s.pnl.refresh = false)
    (covered : s.pnl.covered r = true) :
    EndsTo (.panelWrite o id r len bs) s { s with pnl := { s.pnl with
      waiting := [{ id := id, op := .write r len bs, origin := o, acked := !s.joined }]
      sent := if s.joined then s.pnl.sent ++ [.request id (.write r len bs)] else s.pnl.sent } } [] :=
  endsTo_pnlTake rfl drives fits (by simp) (State.pnl_pnlTake_held (s := s.asked o id _) rfl idle ep covered)

theorem panelPresent_waits (s : State) (o : Origin) (id : Half) (drives : s.panelDriving = true) (fits : s.pnl.judge .present = none)
    (unscheduled : s.pnl.nextNs = none) :
    EndsTo (.panelPresent o id) s { s with pnl := { s.pnl with
      waiting := s.pnl.waiting ++ [{ id := id, op := .present, origin := o, acked := !s.joined }]
      sent := if s.joined then s.pnl.sent ++ [.request id .present] else s.pnl.sent } } [] := by
  refine endsTo_pnlTake rfl drives fits (by simp) ?_
  simp [State.pnlTake, State.presentEarly, PnlBlk.told, unscheduled]

theorem panelPresent_early (s : State) (o : Origin) (id : Half) (t u : Nat) (drives : s.panelDriving = true) (fits : s.pnl.judge .present = none)
    (scheduled : s.pnl.nextNs = some t) (runs : s.pnl.inFrame = true) (free : s.pnl.copying = false)
    (due : u = max ((s.pnl.frameNs + 1000000000 / s.pnl.rateActive) / 10 * 10) ((s.tickNo + 1) * 10000)) (sooner : u < t) :
    EndsTo (.panelPresent o id) s { s with pnl := { s.pnl with
      waiting := s.pnl.waiting ++ [{ id := id, op := .present, origin := o, acked := !s.joined }], nextNs := some u
      sent := if s.joined then s.pnl.sent ++ (.request id .present :: (if s.leads then [.early (s.pnl.frameNo + 1) u] else [])) else s.pnl.sent } } [] := by
  have early := State.pnl_presentEarly (s := (s.asked o id .present).queued { id := id, op := .present, origin := o, acked := !s.joined })
    scheduled runs free (due.trans (by rw [← s.tickNo_asked o id .present]; rfl)) sooner
  refine endsTo_pnlTake rfl drives fits (by simp) ((congrArg State.pnl (State.pnlTake_present rfl)).trans (early.trans ?_))
  rw [State.leads_queued, State.leads_asked, State.joined_queued, State.joined_asked]
  simp only [State.queued, State.pnl_asked, PnlBlk.told]
  cases s.leads <;> cases s.joined <;> simp

theorem panelUpdate_waits (s : State) (o : Origin) (id : Half) (r : Rect) (wf : Fin 8) (drives : s.panelDriving = true)
    (fits : s.pnl.judge (.update r wf) = none) :
    EndsTo (.panelUpdate o id r wf) s { s with pnl := { s.pnl with
      waiting := s.pnl.waiting ++ [{ id := id, op := .update r wf, origin := o, acked := !s.joined }]
      sent := if s.joined then s.pnl.sent ++ [.request id (.update r wf)] else s.pnl.sent } } [] :=
  endsTo_pnlTake rfl drives fits (by simp) rfl

theorem panelTemp_takes (s : State) (o : Origin) (id : Half) (v : Int) (drives : s.panelDriving = true) (fits : s.pnl.judge (.temp v) = none)
    (requested : Bits.bit s.pnl.cfg.config 26 = true) :
    ∃ t, Changes (.panelTemp o id v) s t [.pnl, .done] [(.pnl, 0)] ∧ t.pnl.temp = v ∧ t.pnl.tempValid = true ∧ t.pnl.tempNs = s.nowNs ∧
      t.pnl.band = s.pnl.cfg.wave.bandOf v ∧ (s.pnl.cfg.wave.bandOf v ≠ s.pnl.band → t.raised .pnl 0 = true) := by
  obtain ⟨u, hu⟩ : ∃ u : State, u = { s.asked o id (.temp v) with pnl := { (s.asked o id (.temp v)).pnl with tempNs := s.nowNs } } := ⟨_, rfl⟩
  have start : Moves s u [.pnl, .done] [(.pnl, 0)] := hu ▸ (s.moves_asked o id (.temp v) _).trans (Moves.set (t := { s.asked o id (.temp v) with pnl := _ }))
  have step : exec (.panelTemp o id v) s = .next ((u.pnlTemp v).pnlDone { id := id, op := .temp v, origin := o, acked := !s.joined }) := by
    refine congrArg Host.Outcome.next ((State.panelRequest_taken drives fits).trans ?_)
    have by26 : Bits.bit (s.asked o id (.temp v)).pnl.cfg.config 26 = true := requested
    simp only [State.pnlTake, by26, if_true, hu, State.nowNs_asked]
  have done := State.moves_pnlDone (u.pnlTemp v) { id := id, op := .temp v, origin := o, acked := !s.joined } [(.pnl, 0)]
  refine ⟨_, ((start.trans (.stay (State.moves_pnlTemp u v))).trans done).changes step, ?_, ?_, ?_, ?_, fun new => ?_⟩
  · simp [State.pnl_pnlDone, State.pnl_pnlTemp]
  · simp [State.pnl_pnlDone, State.pnl_pnlTemp]
  · simp [State.pnl_pnlDone, State.pnl_pnlTemp, hu]
  · simp [State.pnl_pnlDone, State.pnl_pnlTemp, hu, PnlBlk.told]
  · exact done.raised (State.raised_pnlTemp u v (by simpa [hu, PnlBlk.told] using new))

theorem panelPowerOn_powers (s : State) (o : Origin) (id : Half) (drives : s.panelDriving = true) (fits : s.pnl.judge .powerOn = none)
    (off : s.pnl.power = false) (alone : s.joined = false) :
    EndsTo (.panelPowerOn o id) s { s with pnl := { s.pnl with power := true, frameCnt := 0#64 } } [] := by
  refine endsTo_pnlTake rfl drives fits (by simp) ?_
  simp [State.pnlTake, State.pnl_pnlDone, PnlBlk.told, alone, off]

theorem panelPowerOff_powers (s : State) (o : Origin) (id : Half) (drives : s.panelDriving = true) (fits : s.pnl.judge .powerOff = none)
    (alone : s.joined = false) : EndsTo (.panelPowerOff o id) s { s with pnl := { s.pnl with power := false } } [] := by
  refine endsTo_pnlTake rfl drives fits (by simp) ?_
  simp [State.pnlTake, State.pnl_pnlDone, PnlBlk.told, alone]

/-- A module that does not drive the panel refuses every request (12 R363). -/
theorem panelRequest_notLead {i : Instr} {s : State} {o : Origin} {id : Half} {op : PanelOp} (step : exec i s = .next (s.panelRequest o id op))
    (idle : s.panelDriving = false) : EndsTo i s { s with pnl := { s.pnl with refuseCnt := Bits.inc s.pnl.refuseCnt } } [(.pnl, 2)] := by
  rw [show s.panelRequest o id op = s.pnlRefuse o 5 by simp [State.panelRequest, idle]] at step
  exact .setEvent_finish step rfl (by decide)

theorem panelRequests_notLead (s : State) (o : Origin) (id : Half) (r : Rect) (len : Nat) (bs : List Byte) (wf : Fin 8) (v : Int)
    (idle : s.panelDriving = false) : ∀ i ∈ ([.panelWrite o id r len bs, .panelPresent o id, .panelUpdate o id r wf, .panelTemp o id v,
      .panelPowerOn o id, .panelPowerOff o id] : List Instr),
      EndsTo i s { s with pnl := { s.pnl with refuseCnt := Bits.inc s.pnl.refuseCnt } } [(.pnl, 2)] := by
  simp only [List.forall_mem_cons, List.not_mem_nil, false_implies, implies_true, and_true]
  exact ⟨panelRequest_notLead rfl idle, panelRequest_notLead rfl idle, panelRequest_notLead rfl idle, panelRequest_notLead rfl idle,
    panelRequest_notLead rfl idle, panelRequest_notLead rfl idle⟩

/-- Settles O51: one lemma for each kind of request, and one for them all where the module does not drive the panel. -/
theorem panelRequests : Obligations.PanelRequests :=
  ⟨panelWrite_lands, panelWrite_waits, panelPresent_waits, panelPresent_early, panelUpdate_waits, panelTemp_takes, panelPowerOn_powers,
    panelPowerOff_powers, panelRequests_notLead⟩

end Sys2Proof.Machine

namespace Sys2Proof.Machine
set_option Elab.async false

/-! Panel frames, temperature and power good (12 R353-R359, R362-R366, R369). -/

theorem State.moves_setPnl (s : State) (p : PnlBlk) (m : List (Block × Nat)) : Moves s { s with pnl := p } [.pnl] m := .set

/-! LCD frames. -/

theorem lcdFrameStart_swaps (s : State) (t : Nat) (r : PReq) (rest : List PReq) (scheduled : s.pnl.nextNs = some t) (runs : s.pnl.lcdRuns = true)
    (due : t < (s.tickNo + 1) * 10000) (frame : s.pnl.inFrame = true) (free : s.pnl.copying = false)
    (present : takeFirst (fun r => r.op == .present) s.pnl.waiting = some (r, rest)) (active : s.pnl.hz = s.pnl.rateActive) :
    EndsTo .lcdFrameStart s { s with pnl := { s.pnl with
      front := s.pnl.back, back := s.pnl.front, copying := true, waiting := rest
      done := if r.acked || !s.joined then s.pnl.done else s.pnl.done ++ [r], frameNo := s.pnl.frameNo + 1, frameNs := t
      nextNs := some ((t + 1000000000 / s.pnl.rateActive) / 10 * 10), idle := 0, frameCnt := s.pnl.frameCnt + 1#64 } } [(.pnl, 1)] := by
  obtain ⟨u, hu⟩ : ∃ u : State, u = { s with pnl := { s.pnl with
      front := s.pnl.back, back := s.pnl.front, copying := true, waiting := rest, frameNo := s.pnl.frameNo + 1, frameNs := t
      nextNs := some (lcdNext t s.pnl.rateActive), idle := 0, frameCnt := s.pnl.frameCnt + 1#64 } } := ⟨_, rfl⟩
  have step : exec .lcdFrameStart s = .next ((u.setEvent .pnl 1).pnlDone r) := by
    change execLcdFrameStart s = _
    simp [execLcdFrameStart, scheduled, runs, Nat.not_le.mpr due, frame, free, present, ← active, PnlBlk.swap, hu]
  have swapped : Moves s (u.setEvent .pnl 1) [.pnl, .done] [(.pnl, 1)] :=
    (Moves.mono (hu ▸ s.moves_setPnl _ [(.pnl, 1)]) (by simp) (fun _ h => .inl h)).setEvent .pnl 1 (by decide) (by simp)
  have done := State.moves_pnlDone (u.setEvent .pnl 1) r [(.pnl, 1)]
  refine .panel step (swapped.trans done) ?_ ?_
  · have same : (u.setEvent .pnl 1).joined = s.joined := by simp [State.joined, hu]
    rw [State.pnl_pnlDone, same, State.pnl_setEvent, hu]
    rfl
  · simpa using done.raised (State.raised_setEvent u .pnl 1 (by decide))

theorem lcdFrameStart_shows (s : State) (t : Nat) (scheduled : s.pnl.nextNs = some t) (runs : s.pnl.lcdRuns = true)
    (due : t < (s.tickNo + 1) * 10000) (frame : s.pnl.inFrame = true) (copies : s.pnl.copying = true) (never : s.pnl.idleFrames = 0)
    (active : s.pnl.hz = s.pnl.rateActive) :
    RunsTo .lcdFrameStart s { s with pnl := { s.pnl with
      frameNo := s.pnl.frameNo + 1, frameNs := t
      nextNs := some ((t + 1000000000 / s.pnl.rateActive) / 10 * 10), idle := s.pnl.idle + 1, frameCnt := s.pnl.frameCnt + 1#64 } } [] := by
  refine .quiet (?_ : execLcdFrameStart s = _) rfl
  simp [execLcdFrameStart, scheduled, runs, Nat.not_le.mpr due, frame, copies, never, ← active, lcdNext]

theorem frontBackCopyDone_copies (s : State) (copies : s.pnl.copying = true) (idle : s.pnl.waiting = []) :
    RunsTo .frontBackCopyDone s { s with pnl := { s.pnl with back := s.pnl.front, copying := false } } [] := by
  refine .quiet ((if_pos copies).trans ?_) rfl
  simp only [State.pnlServe, idle, State.drain]

/-! Journal slots. -/

theorem PnlBlk.slot_congr {p q : PnlBlk} (h : p.slots = q.slots) (i : Nat) : p.slot i = q.slot i := by
  rw [PnlBlk.slot, PnlBlk.slot, h]

theorem PnlBlk.slot_setSlot (p : PnlBlk) (i j : Nat) (x : PSlot) : (p.setSlot i x).slot j = if j = i then x else p.slot j := Tbl.get_set ..

/-- Of the slots a journal write moves its own. -/
theorem State.slot_journal (s : State) (i j : Nat) (x : PSlot) (e : JEntry) :
    (s.journal i x e).pnl.slot j = if j = i then x.write e else s.pnl.slot j := by
  refine Eq.trans ?_ (s.pnl.slot_setSlot i j (x.write e))
  unfold State.journal
  dsimp only
  split
  · split <;> rfl
  · rfl

/-- Of the panel unit a journal write moves the slots and the log of what was sent. -/
theorem State.pnl_journal (s : State) (i : Nat) (x : PSlot) (e : JEntry) :
    ∃ slots sent, (s.journal i x e).pnl = { s.pnl with slots := slots, sent := sent } := by
  unfold State.journal
  dsimp only
  repeat' split
  all_goals exact ⟨_, _, rfl⟩

theorem State.moves_journal (s : State) (i : Nat) (x : PSlot) (e : JEntry) (m : List (Block × Nat)) : Moves s (s.journal i x e) [.pnl] m := by
  unfold State.journal
  dsimp only
  repeat' split
  all_goals exact .set

/-- A run that changes nothing at any of its places. -/
theorem foldl_same {α : Type} {f : State → α → State} {l : List α} {s : State} (h : ∀ a ∈ l, f s a = s) : l.foldl f s = s := by
  induction l with
  | nil => rfl
  | cons a l ih => rw [List.foldl_cons, h a (by simp), ih (fun b mem => h b (by simp [mem]))]

/-- One slot of a run that writes an entry where a condition holds. -/
def State.journalWhere (c : PSlot → JEntry → Bool) (y : PSlot → JEntry → PSlot) (e : PSlot → JEntry → JEntry) (s : State) (i : Nat) : State :=
  match (s.pnl.slot i).cur with
  | some j => if c (s.pnl.slot i) j then s.journal i (y (s.pnl.slot i) j) (e (s.pnl.slot i) j) else s
  | none => s

/-- What such a run makes of a slot. -/
def PSlot.writtenWhere (c : PSlot → JEntry → Bool) (y : PSlot → JEntry → PSlot) (e : PSlot → JEntry → JEntry) (x : PSlot) : PSlot :=
  match x.cur with
  | some j => if c x j then (y x j).write (e x j) else x
  | none => x

section
variable (c : PSlot → JEntry → Bool) (y : PSlot → JEntry → PSlot) (e : PSlot → JEntry → JEntry)

theorem State.slot_journalWhere (s : State) (i j : Nat) : (s.journalWhere c y e i).pnl.slot j =
    if j = i then (s.pnl.slot j).writtenWhere c y e else s.pnl.slot j := by
  unfold State.journalWhere
  by_cases same : j = i
  · subst same
    rw [if_pos rfl, PSlot.writtenWhere]
    cases cur : (s.pnl.slot j).cur with
    | none => rfl
    | some x =>
      dsimp only
      split
      · rw [State.slot_journal, if_pos rfl]
      · rfl
  · rw [if_neg same]
    split
    · split
      · rw [State.slot_journal, if_neg same]
      · rfl
    · rfl

theorem State.slot_journalRun {l : List Nat} (once : l.Nodup) (s : State) (j : Nat) :
    (l.foldl (State.journalWhere c y e) s).pnl.slot j = if j ∈ l then (s.pnl.slot j).writtenWhere c y e else s.pnl.slot j := by
  induction l generalizing s with
  | nil => rfl
  | cons i l ih =>
    obtain ⟨notIn, once⟩ := List.nodup_cons.mp once
    rw [List.foldl_cons, ih once, State.slot_journalWhere]
    by_cases same : j = i
    · subst same; simp [notIn]
    · simp [same]

/-- Of the panel unit such a run moves the slots and the log of what was sent. -/
theorem State.pnl_journalRun (l : List Nat) (s : State) :
    ∃ slots sent, (l.foldl (State.journalWhere c y e) s).pnl = { s.pnl with slots := slots, sent := sent } := by
  induction l generalizing s with
  | nil => exact ⟨_, _, rfl⟩
  | cons i l ih =>
    obtain ⟨slots, sent, one⟩ : ∃ slots sent, (s.journalWhere c y e i).pnl = { s.pnl with slots := slots, sent := sent } := by
      unfold State.journalWhere
      split
      · split
        · exact State.pnl_journal ..
        · exact ⟨_, _, rfl⟩
      · exact ⟨_, _, rfl⟩
    obtain ⟨slots', sent', rest⟩ := ih (s.journalWhere c y e i)
    exact ⟨slots', sent', by rw [List.foldl_cons, rest, one]⟩

end

/-- A slot that runs, stopped by a fall of PNL_PG (12 R365). -/
def PSlot.stopped (x : PSlot) (_ : JEntry) : PSlot := { x with running := false, fixing := false, fix := none, driven := false }

theorem State.pnlStop_eq (s : State) (row : Option Nat) : s.pnlStop row =
    (List.range 16).foldl (State.journalWhere (fun x _ => x.running) PSlot.stopped (fun x e => x.stopEntry row e)) s := by
  unfold State.pnlStop
  exact congrArg (fun f => List.foldl f s (List.range 16)) (funext fun _ => funext fun _ => rfl)

theorem State.slot_pnlStop (s : State) (row : Option Nat) {i : Nat} (h : i < 16) : (s.pnlStop row).pnl.slot i =
    (s.pnl.slot i).writtenWhere (fun x _ => x.running) PSlot.stopped (fun x e => x.stopEntry row e) := by
  rw [State.pnlStop_eq, State.slot_journalRun _ _ _ List.nodup_range, if_pos (List.mem_range.mpr h)]

/-- A slot whose completion begins (12 R366). -/
def PSlot.completing (x : PSlot) (e : JEntry) : PSlot :=
  { x with running := true, driven := false, fixing := false, fix := if e.row != 0 then some (e.row, e.rect.y + e.rect.h) else none
           next := if e.row != 0 then e.frame + 1 else e.frame }

theorem State.pnlComplete_eq (s : State) : s.pnlComplete =
    (List.range 16).foldl (State.journalWhere (fun x e => e.active && !x.running) PSlot.completing (fun _ e => { e with completion := true })) s := by
  unfold State.pnlComplete
  exact congrArg (fun f => List.foldl f s (List.range 16)) (funext fun _ => funext fun _ => rfl)

theorem State.slot_pnlComplete (s : State) {i : Nat} {e : JEntry} (h : i < 16) (cur : (s.pnl.slot i).cur = some e) (active : e.active = true)
    (idle : (s.pnl.slot i).running = false) : s.pnlComplete.pnl.slot i = ((s.pnl.slot i).completing e).write { e with completion := true } := by
  rw [State.pnlComplete_eq, State.slot_journalRun _ _ _ List.nodup_range, if_pos (List.mem_range.mpr h), PSlot.writtenWhere, cur]
  exact if_pos (by simp [active, idle])

/-! Temperature and power good. -/

/-- What a reading of PTEMP does: a temperature, or none where the sensor is open or short. -/
def State.ptempRead (s : State) : Option Int → State
  | some v => s.pnlTemp v
  | none => s.setEvent .pnl 5

section
variable {s : State} (measures : Bits.bit s.pnl.cfg.config 26 = false) (due : ∀ u, s.pnl.measNs = some u → u + 1000000000 ≤ s.nowNs)
include measures due

/-- A measurement that is due takes its time (12 R359). -/
theorem ptempMeasure_due (v : Option Int) :
    exec (.ptempMeasure v) s = .next (({ s with pnl := { s.pnl with measNs := some s.nowNs } } : State).ptempRead v) := by
  change execPtempMeasure v s = _
  unfold execPtempMeasure
  rw [measures]
  cases last : s.pnl.measNs with
  | none => cases v <;> rfl
  | some u =>
    have since := due u last
    simp only [Bool.false_or, decide_eq_true_eq, if_neg (show ¬ s.nowNs < u + 1000000000 by omega)]
    cases v <;> rfl

end

theorem ptempMeasure_takes (s : State) (v : Int) (measures : Bits.bit s.pnl.cfg.config 26 = false)
    (due : ∀ u, s.pnl.measNs = some u → u + 1000000000 ≤ s.nowNs) :
    ∃ t, Changes (.ptempMeasure (some v)) s t [.pnl] [(.pnl, 0)] ∧
      t.pnl = { s.pnl with temp := v, tempValid := true, band := s.pnl.cfg.wave.bandOf v, measNs := some s.nowNs } ∧
      (s.pnl.cfg.wave.bandOf v ≠ s.pnl.band → t.raised .pnl 0 = true) :=
  ⟨_, ((s.moves_setPnl { s.pnl with measNs := some s.nowNs } _).trans (State.moves_pnlTemp _ v)).changes (ptempMeasure_due measures due (some v)),
    State.pnl_pnlTemp _ v, State.raised_pnlTemp { s with pnl := { s.pnl with measNs := some s.nowNs } } v⟩

theorem ptempMeasure_fails (s : State) (measures : Bits.bit s.pnl.cfg.config 26 = false)
    (due : ∀ u, s.pnl.measNs = some u → u + 1000000000 ≤ s.nowNs) :
    RunsTo (.ptempMeasure none) s { s with pnl := { s.pnl with measNs := some s.nowNs } } [(.pnl, 5)] :=
  .setEvent (ptempMeasure_due measures due none) rfl (by decide)

theorem tempTimeout_reports (s : State) (requested : Bits.bit s.pnl.cfg.config 26 = true) (late : s.pnl.tempNs + 600000000000 ≤ s.nowNs) :
    RunsTo .tempTimeout s s [(.pnl, 5)] :=
  .setEvent (if_pos (by simp [requested, late])) rfl (by decide)

theorem pnlPgFall_stops (s : State) (row : Option Nat) (good : s.pnl.pg = true) :
    ∃ t, Changes (.pnlPgFall row) s t [.pnl] [(.pnl, 4)] ∧ t.pnl.pg = false ∧ t.pnl.nextNs = none ∧ (s.pnl.power = true → t.raised .pnl 4 = true) ∧
      (∀ i : Nat, i < 16 → (s.pnl.slot i).cur.isSome → (t.pnl.slot i).running = false) ∧
      (∀ (i : Nat) (e : JEntry) (n : Nat), i < 16 → (s.pnl.slot i).cur = some e → (s.pnl.slot i).running = true → (s.pnl.slot i).driven = true →
        (s.pnl.slot i).fixing = false → row = some n → (t.pnl.slot i).cur = some (sealEntry { e with row := n, jseq := e.jseq + 1 })) := by
  have stop := s.moves_pnlStop row [(.pnl, 4)]
  have slots := fun i (h : i < 16) => s.slot_pnlStop row h
  obtain ⟨v, hv⟩ : ∃ v : State, v = { s.pnlStop row with pnl := { (s.pnlStop row).pnl with pg := false, inFrame := false, nextNs := none } } := ⟨_, rfl⟩
  have step : exec (.pnlPgFall row) s = .next (v.setEventIf s.pnl.power .pnl 4) := by
    change execPnlPgFall row s = _
    simp only [execPnlPgFall, good, Bool.not_true, Bool.false_eq_true, if_false, hv]
  have moves : Moves s v [.pnl] [(.pnl, 4)] := hv ▸ stop.trans (State.moves_setPnl _ _ _)
  have same : ∀ i, v.pnl.slot i = (s.pnlStop row).pnl.slot i := fun i => PnlBlk.slot_congr (by rw [hv]) i
  refine ⟨_, (moves.setEventIf _ _ _ (by decide) (by simp)).changes step, ?_, ?_, fun on => ?_, fun i h some => ?_, fun i e n h cur runs driven whole first => ?_⟩
  · rw [State.pnl_setEventIf, hv]
  · rw [State.pnl_setEventIf, hv]
  · exact EvBit.setEventIf (.inr ⟨on, rfl, rfl⟩) (by decide)
  · obtain ⟨e, cur⟩ := Option.isSome_iff_exists.mp some
    rw [State.pnl_setEventIf, same, slots i h, PSlot.writtenWhere, cur]
    dsimp only
    split
    · rfl
    · next idle => simpa using idle
  · subst first
    rw [State.pnl_setEventIf, same, slots i h, PSlot.writtenWhere, cur]
    simp only [runs, if_true, PSlot.stopEntry, driven, whole, PSlot.write, PSlot.stopped, cur]
    rfl

theorem pnlPgRise_lcd (s : State) (low : s.pnl.pg = false) (lcd : s.pnl.mode = 1) :
    RunsTo .pnlPgRise s { s with pnl := { s.pnl with
      pg := true, inFrame := false, nextNs := some ((s.time.sec.toNat + 1) * 1000000000), idle := 0
      hz := s.pnl.rateActive } } [] := by
  refine .quiet ((if_neg (by simp [low])).trans ?_) rfl
  rw [lcd]
  simp

theorem pnlPgRise_completes (s : State) (low : s.pnl.pg = false) (ep : s.pnl.mode = 2) (drives : s.panelDriving = true) :
    ∃ t, Changes .pnlPgRise s t [.pnl] [] ∧ t.pnl.pg = true ∧ ∀ (i : Nat) (e : JEntry), i < 16 → (s.pnl.slot i).cur = some e → e.active = true → (s.pnl.slot i).running = false →
      (t.pnl.slot i).running = true ∧ (t.pnl.slot i).cur = some (sealEntry { e with completion := true, jseq := e.jseq + 1 }) ∧
      (t.pnl.slot i).fix = (if e.row = 0 then none else some (e.row, e.rect.y + e.rect.h)) ∧
      (t.pnl.slot i).next = (if e.row = 0 then e.frame else e.frame + 1) := by
  obtain ⟨v, hv⟩ : ∃ v : State, v = { s with pnl := { s.pnl with pg := true, inFrame := false, nextNs := none, idle := 0, hz := s.pnl.rateActive } } := ⟨_, rfl⟩
  have step : exec .pnlPgRise s = .next v.pnlComplete := by
    change execPnlPgRise s = _
    simp [execPnlPgRise, low, ep, drives, hv]
  have start : Moves s v [.pnl] [] := hv ▸ s.moves_setPnl _ _
  refine ⟨_, (start.trans (pnlComplete_moves v [])).changes step, ?_, fun i e h cur active idle => ?_⟩
  · obtain ⟨slots, sent, pnl⟩ := State.pnl_journalRun (fun x e => e.active && !x.running) PSlot.completing (fun _ e => { e with completion := true })
      (List.range 16) v
    rw [State.pnlComplete_eq, pnl, hv]
  · rw [State.slot_pnlComplete v h (by rw [hv]; exact cur) active (by rw [hv]; exact idle)]
    have same : (v.pnl.slot i).cur = some e := by rw [hv]; exact cur
    by_cases whole : e.row = 0 <;> simp [PSlot.write, PSlot.completing, same, whole]

theorem panelUnitFault_stops (s : State) (apart : s.leads = false) (sound : s.twin.regions = []) :
    ∃ t, Changes .panelUnitFault s t [.pnl, .twin] [(.pnl, 8)] ∧ t.raised .pnl 8 = true ∧ t.pnl.faulted = true ∧ t.pnl.nextNs = none ∧
      t.twin = { s.twin with regions := [.pnl] } := by
  have stop := s.moves_pnlStop none [(.pnl, 8)]
  obtain ⟨v, w, hv, step⟩ : ∃ (v : State) (w : Word), v = { s.pnlStop none with pnl := { (s.pnlStop none).pnl with faulted := true, inFrame := false, nextNs := none } } ∧
      exec .panelUnitFault s = .next ((v.report .pnl 8 noObj w).regionFault .pnl) := ⟨_, _, rfl, rfl⟩
  have moves : Moves s v [.pnl] [(.pnl, 8)] := hv ▸ stop.trans (State.moves_setPnl _ _ _)
  have told := moves.report .pnl 8 noObj w (by decide) (by simp)
  have raised := State.raised_report v .pnl 8 noObj w (by decide)
  have twin : v.twin = s.twin := moves.twin
  have pnl : (v.report .pnl 8 noObj w).pnl = v.pnl := State.pnl_report ..
  have leads : (v.report .pnl 8 noObj w).leads = false := by
    rw [← apart]
    simp [State.leads, State.holdsToken, twin]
  rw [State.regionFault_noted _ .pnl leads (by simp [twin, sound])] at step
  refine ⟨_, (told.stay.trans (Moves.set (t := State.addRegion _ _) (by simp [State.sans, State.addRegion]))).changes step, raised, ?_, ?_, ?_⟩
  · exact (congrArg PnlBlk.faulted pnl).trans (by rw [hv])
  · exact (congrArg PnlBlk.nextNs pnl).trans (by rw [hv])
  · simp [State.addRegion, twin, sound]

/-! An electrophoretic frame that starts one update (12 R356, R362). -/

section
variable {s : State} (empty : s.pnl.slots = [])
include empty

theorem State.slot_empty (i : Nat) : s.pnl.slot i = {} := by
  rw [PnlBlk.slot, empty]
  rfl

/-- With no journal entry in any slot, no completion begins. -/
theorem State.pnlComplete_empty : s.pnlComplete = s := by
  rw [State.pnlComplete_eq]
  exact foldl_same (fun i _ => by simp [State.journalWhere, State.slot_empty empty])

/-- With no journal entry in any slot, no update ends. -/
theorem State.epEnd_empty : (List.range 16).foldl State.epEnd s = s :=
  foldl_same (fun i _ => by simp [State.epEnd, State.slot_empty empty])

theorem State.completionPending_empty : s.pnl.completionPending = false := by
  simp [PnlBlk.completionPending, PnlBlk.slotsL, State.slot_empty empty]

/-- The one waiting UPDATE starts in the first slot (12 R362). -/
theorem State.startWaiting_one {r : PReq} {q : Rect} {wf : Nat} (op : r.op = .update q wf) (frames : 0 < s.pnl.framesOf wf) :
    s.startWaiting [] [r] = { s.startUpdate 0 r.id q wf (s.pnl.framesOf wf) (some r) with
      pnl := { (s.startUpdate 0 r.id q wf (s.pnl.framesOf wf) (some r)).pnl with waiting := [] } } := by
  have free : s.pnl.freeSlot = some 0 := by
    simp [PnlBlk.freeSlot, PnlBlk.slotsL, State.slot_empty empty, PSlot.active, List.range_succ_eq_map]
  have clear : s.pnl.covered q = false := by simp [PnlBlk.covered, PnlBlk.slotsL, State.slot_empty empty]
  simp [State.startWaiting, op, free, clear, Nat.ne_of_gt frames]

end

/-- An UPDATE that waits alone is no WRITE to serve. -/
theorem State.pnlServe_update {s : State} {r : PReq} {q : Rect} {wf : Nat} (alone : s.pnl.waiting = [r]) (op : r.op = .update q wf) :
    s.pnlServe = s := by
  simp only [State.pnlServe, alone, State.drain, op, List.nil_append]
  rw [← alone]

/-- A frame drives the one update in flight (12 R356). -/
theorem State.epDrive_one {s : State} {e : JEntry} (t : Nat) (others : ∀ i, i ≠ 0 → (s.pnl.slot i).cur = none) (cur : (s.pnl.slot 0).cur = some e)
    (runs : (s.pnl.slot 0).running = true) (whole : (s.pnl.slot 0).fix = none) : (List.range 16).foldl (State.epDrive t []) s =
      s.journal 0 { s.pnl.slot 0 with driven := true, next := (s.pnl.slot 0).next + 1 }
        { e with frame := (s.pnl.slot 0).next, row := 0, start := BitVec.ofNat 64 t } := by
  have first : s.epDrive t [] 0 = s.journal 0 { s.pnl.slot 0 with driven := true, next := (s.pnl.slot 0).next + 1 }
      { e with frame := (s.pnl.slot 0).next, row := 0, start := BitVec.ofNat 64 t } := by
    simp [State.epDrive, cur, runs, whole]
  rw [List.range_succ_eq_map, List.foldl_cons, first]
  refine foldl_same (fun i mem => ?_)
  obtain ⟨j, -, rfl⟩ := List.mem_map.mp mem
  have empty : ((s.journal 0 { s.pnl.slot 0 with driven := true, next := (s.pnl.slot 0).next + 1 }
      { e with frame := (s.pnl.slot 0).next, row := 0, start := BitVec.ofNat 64 t }).pnl.slot (j + 1)).cur = none := by
    rw [State.slot_journal, if_neg (Nat.succ_ne_zero j), others _ (Nat.succ_ne_zero j)]
  simp [State.epDrive, empty]

theorem epFrameStart_starts (s : State) (t : Nat) (r : PReq) (q : Rect) (wf : Nat) (instant : s.epInstant = some t) (ep : s.pnl.mode = 2)
    (on : s.pnl.power = true) (good : s.pnl.pg = true) (sound : s.pnl.faulted = false) (holds : s.holdsToken = true) (_ : s.joined = false)
    (first : s.pnl.inFrame = false) (empty : s.pnl.slots = []) (whole : s.pnl.refresh = false) (op : r.op = .update q wf)
    (alone : s.pnl.waiting = [r]) (frames : 0 < s.pnl.framesOf wf) :
    ∃ u, Changes (.epFrameStart []) s u [.pnl] [] ∧ u.pnl.waiting = [] ∧ u.pnl.frameCnt = s.pnl.frameCnt + 1#64 ∧ (u.pnl.slot 0).running = true ∧
      (u.pnl.slot 0).next = 1 ∧ (u.pnl.slot 0).req = some r ∧
      (u.pnl.slot 0).cur = some (sealEntry { jseq := 1, id := r.id, active := true, completion := false, wf := wf, band := s.pnl.band, rect := q, frame := 0
                                             frames := s.pnl.framesOf wf, row := 0, start := BitVec.ofNat 64 t }) := by
  obtain ⟨v, hv⟩ : ∃ v : State, v = { s with pnl := { s.pnl with inFrame := true, frameNs := t } } := ⟨_, rfl⟩
  have bare : v.pnl.slots = [] := by rw [hv]; exact empty
  have queue : v.pnl.waiting = [r] := by rw [hv]; exact alone
  have fits : 0 < v.pnl.framesOf wf := by rw [hv]; exact frames
  obtain ⟨w, hw⟩ : ∃ w, w = v.startUpdate 0 r.id q wf (v.pnl.framesOf wf) (some r) := ⟨_, rfl⟩
  obtain ⟨x, hx⟩ : ∃ x : State, x = { w with pnl := { w.pnl with waiting := [], frameCnt := w.pnl.frameCnt + 1#64 } } := ⟨_, rfl⟩
  have slots : ∀ i, x.pnl.slot i = w.pnl.slot i := PnlBlk.slot_congr (by rw [hx])
  have slot : x.pnl.slot 0 = { cur := some (sealEntry { jseq := 0, id := r.id, active := true, completion := false, wf := wf, band := s.pnl.band, rect := q
                                                        frame := 0, frames := s.pnl.framesOf wf, row := 0, start := 0#64 })
                               running := true, req := some r } := by
    rw [slots, hw, State.startUpdate, State.slot_journal, if_pos rfl, State.slot_empty bare, hv]
    rfl
  have others : ∀ i, i ≠ 0 → (x.pnl.slot i).cur = none := fun i h => by
    rw [slots, hw, State.startUpdate, State.slot_journal, if_neg h, State.slot_empty bare]
  have step : exec (.epFrameStart []) s = .next ((List.range 16).foldl (State.epDrive t []) x) := by
    have noRefresh : v.pnl.refresh = false := by rw [hv]; exact whole
    have flies : ({ w with pnl := { w.pnl with waiting := [] } } : State).pnl.inFlight.isEmpty = false := by
      have running : (w.pnl.slot 0).running = true := by rw [← slots, slot]
      have zero : (0, w.pnl.slot 0) ∈ ({ w.pnl with waiting := [] } : PnlBlk).inFlight :=
        List.mem_filter.mpr ⟨List.mem_map.mpr ⟨0, by simp, rfl⟩, running⟩
      exact Bool.eq_false_iff.mpr (fun none => by rw [List.isEmpty_iff.mp none] at zero; cases zero)
    change execEpFrameStart [] s = _
    simp only [execEpFrameStart, instant]
    rw [if_neg (by simp [ep, on, good, sound, State.panelDriving, holds, first]), ← hv, State.pnlComplete_empty bare, State.epEnd_empty bare,
      State.pnlServe_update queue op, State.completionPending_empty bare, noRefresh, queue, if_neg Bool.false_ne_true, if_neg Bool.false_ne_true,
      State.startWaiting_one bare op fits, ← hw, flies, if_neg Bool.false_ne_true, hx]
  rw [State.epDrive_one t others (by rw [slot]) (by rw [slot]) (by rw [slot])] at step
  have start : Moves s w [.pnl] [] := hw ▸ (hv ▸ s.moves_setPnl _ _ : Moves s v [.pnl] []).trans (v.moves_journal _ _ _ _)
  have moves : Moves s x [.pnl] [] := hx ▸ start.trans (State.moves_setPnl _ _ _)
  obtain ⟨_, _, before⟩ := v.pnl_journal 0 _ _
  obtain ⟨_, _, after⟩ := x.pnl_journal 0 { x.pnl.slot 0 with driven := true, next := (x.pnl.slot 0).next + 1 } _
  refine ⟨_, (moves.trans (x.moves_journal _ _ _ _)).changes step, by rw [after, hx], ?_, ?_⟩
  · rw [after, hx, hw]
    exact congrArg (· + 1#64) ((congrArg PnlBlk.frameCnt before).trans (by rw [hv]))
  · rw [State.slot_journal, if_pos rfl, slot]
    exact ⟨rfl, rfl, rfl, rfl⟩

/-- Settles O52: LCD frames, electrophoretic frames, temperature and power good, a lemma for each clause. -/
theorem panelFrames : Obligations.PanelFrames :=
  ⟨lcdFrameStart_swaps, lcdFrameStart_shows, frontBackCopyDone_copies, epFrameStart_starts, ptempMeasure_takes, ptempMeasure_fails,
    tempTimeout_reports, pnlPgFall_stops, pnlPgRise_lcd, pnlPgRise_completes, panelUnitFault_stops⟩

end Sys2Proof.Machine

namespace Sys2Proof.Machine
set_option Elab.async false

/-! What a report, an event entry and a completion are, with no trigger of kind EVENT (13 R373, R383-R385, 14 R399, R412-R414). -/

theorem State.report_obtains (s : State) (b : Block) (n obj : Nat) (w : Word) (plain : s.recorder.trigDefs = []) (works : s.recorder.failed = false)
    (quota : s.recorder.overQuota b.code = false) : s.report b n obj w = { s with
      event := Tbl.set 0#32 s.event b.code (Bits.setBit (s.eventReg b) n)
      recorder := s.recorder.obtain { source := b.code, code := n, time := s.tickStart, cycle := s.refCycle, detail := mkDetail obj w, entry := true } } := by
  unfold State.report State.eventRecord
  rw [State.setEventN_quiet 3 s b n plain]
  have ask : (s.rawEvent b n).request { source := b.code, code := n, time := s.tickStart, cycle := s.refCycle, detail := mkDetail obj w, entry := true } =
      ({ s.rawEvent b n with
        recorder := s.recorder.obtain { source := b.code, code := n, time := s.tickStart, cycle := s.refCycle, detail := mkDetail obj w, entry := true } }, true) :=
    (if_neg (by simpa [State.rawEvent] using works)).trans (if_neg (by simpa [State.rawEvent] using quota))
  exact (congrArg (fun r : State × Bool => if r.2 then r.1 else if true then r.1.eventEntry _ else r.1) ask).trans (if_pos rfl)

/-- A record refused for its quota is counted and sets the recorder's own bit (13 R384). -/
theorem State.request_refused {s : State} {q : RecReq} {src : Nat} (plain : s.recorder.trigDefs = []) (works : s.recorder.failed = false) (asks : q.source = src)
    (quota : s.recorder.overQuota src = true) (quiet : s.enabledBit .recorder 3 = false) :
    s.request q = (({ s with recorder := s.recorder.countRefusal src } : State).rawEvent .recorder 3, false) := by
  subst asks
  refine (if_neg (by simp [works])).trans ((if_pos quota).trans (congrArg (·, false) ?_))
  refine (congrArg (State.setEventN 3 _ .recorder 3) (quiet : State.enabledBit _ .recorder 3 = false)).trans ?_
  exact State.setEventN_quiet 3 _ .recorder 3 plain

theorem State.recordEvent_refused (s : State) (b : Block) (n obj : Nat) (w : Word) (plain : s.recorder.trigDefs = []) (works : s.recorder.failed = false)
    (quota : s.recorder.overQuota b.code = true) (quiet : s.enabledBit .recorder 3 = false) :
    s.recordEvent b n obj w = (if s.enabledBit b n then State.eventEntry { s with
        event := Tbl.set 0#32 (Tbl.set 0#32 s.event b.code (Bits.setBit (s.eventReg b) n)) Block.recorder.code
          (Bits.setBit (Tbl.get 0#32 (Tbl.set 0#32 s.event b.code (Bits.setBit (s.eventReg b) n)) Block.recorder.code) 3)
        recorder := s.recorder.countRefusal b.code } { source := b.code, code := n, detail := mkDetail obj w }
      else { s with
        event := Tbl.set 0#32 (Tbl.set 0#32 s.event b.code (Bits.setBit (s.eventReg b) n)) Block.recorder.code
          (Bits.setBit (Tbl.get 0#32 (Tbl.set 0#32 s.event b.code (Bits.setBit (s.eventReg b) n)) Block.recorder.code) 3)
        recorder := s.recorder.countRefusal b.code }) := by
  unfold State.recordEvent State.eventRecord
  rw [State.setEventN_quiet 3 s b n plain]
  dsimp only
  rw [State.request_refused (s := s.rawEvent b n) (src := b.code) plain works rfl quota quiet]
  rfl

/-! Event entries. -/

/-- An entry finds room and nothing was lost before it. -/
theorem State.entryNow_written {s : State} (e : EventEntry) (on : s.host.eq.state = .enabled) (room : s.host.eq.room ≠ 0) (whole : s.host.eq.dropped = 0)
    (master : s.host.busMaster = true) (noIrq : Bits.bit s.host.eq.cfg 15 = false) (closed : s.mnt.session = none) :
    s.entryNow e = ({ s with
      free := s.free + 1
      host := { s.host with eq := s.host.eq.advance, sent := s.host.sent ++ [.event (s.host.eq.addr s.host.eq.tail) s.host.eq.phase { e with time := s.detectNs }] } },
      false) := by
  have cfg : s.host.eq.advance.cfg = s.host.eq.cfg := by unfold OutRing.advance; split <;> rfl
  have pend : s.host.eq.advance.pend s.detectNs.toNat = (s.host.eq.advance, false) := if_pos (by simp [cfg, noIrq])
  simp only [State.entryNow, State.eventPut, on, ne_eq, not_true, if_false, room, whole, if_true, HostBlk.eqPut, pend, HostBlk.emit, master,
    State.mntEvent, closed, Bool.false_eq_true]

theorem State.eventEntry_written (s : State) (e : EventEntry) (on : s.host.eq.state = .enabled) (room : s.host.eq.room ≠ 0) (whole : s.host.eq.dropped = 0)
    (master : s.host.busMaster = true) (noIrq : Bits.bit s.host.eq.cfg 15 = false) (closed : s.mnt.session = none) :
    s.eventEntry e = { s with
      free := s.free + 1
      host := { s.host with eq := s.host.eq.advance, sent := s.host.sent ++ [.event (s.host.eq.addr s.host.eq.tail) s.host.eq.phase { e with time := s.detectNs }] } } := by
  unfold State.eventEntry
  rw [State.entryNow_written e on room whole master noIrq closed]
  rfl

theorem State.eventEntry_lost (s : State) (e : EventEntry) (on : s.host.eq.state = .enabled) (full : s.host.eq.room = 0)
    (plain : s.recorder.trigDefs = []) : s.eventEntry e = { s with
      free := s.free + 1
      event := Tbl.set 0#32 s.event Block.host.code (Bits.setBit (s.eventReg .host) 3)
      host := { s.host with eq := { s.host.eq with full := Bits.sat 17 s.host.eq.full 1, dropped := s.host.eq.dropped + 1 } } } := by
  have lost : s.entryNow e = ({ s with
      free := s.free + 1
      host := { s.host with eq := { s.host.eq with full := Bits.sat 17 s.host.eq.full 1, dropped := s.host.eq.dropped + 1 } } }, true) :=
    (if_neg (not_not.mpr on)).trans (if_pos full)
  unfold State.eventEntry
  rw [lost]
  exact (if_pos rfl).trans (State.setEventN_quiet 3 _ .host 3 plain)

theorem State.eventEntry_dropped (s : State) (e : EventEntry) (off : s.host.eq.state ≠ .enabled) : s.eventEntry e = { s with free := s.free + 1 } := by
  have dropped : s.entryNow e = ({ s with free := s.free + 1 }, false) := if_pos off
  unfold State.eventEntry
  rw [dropped]
  rfl

/-! Completions. -/

/-- A completion goes to its ring, which gives no interrupt. -/
theorem HostBlk.cqPut_written {h : HostBlk} {n : Nat} (c : Completion) (on : (h.cq n).state = .enabled) (master : h.busMaster = true)
    (noIrq : Bits.bit (h.cq n).cfg 15 = false) : h.cqPut n c =
      { h.setCq n (h.cq n).advance with sent := h.sent ++ [.completion n ((h.cq n).addr (h.cq n).tail) (h.cq n).phase c] } := by
  have cfg : (h.cq n).advance.cfg = (h.cq n).cfg := by unfold OutRing.advance; split <;> rfl
  have pend : (h.cq n).advance.pend c.time.toNat = ((h.cq n).advance, false) := if_pos (by simp [cfg, noIrq])
  simp [HostBlk.cqPut, on, pend, HostBlk.emit, HostBlk.setCq, master]

theorem State.finish_host (s : State) (k : Fin 8) (x : Taken) (l : List Taken) (status detail : Nat) (works : s.mod.failed = false)
    (taken : s.host.taken = x :: l) (ring : x.sq = k.val) (on : (s.host.cq (s.host.sq k).bound).state = .enabled) (master : s.host.busMaster = true)
    (noIrq : Bits.bit (s.host.cq (s.host.sq k).bound).cfg 15 = false) :
    s.finish (.host k x.desc.tag) status detail = { s with
      free := s.free + 1
      host := { ({ s.host with taken := l } : HostBlk).setCq (s.host.sq k).bound (s.host.cq (s.host.sq k).bound).advance with
        sent := s.host.sent ++ [.completion (s.host.sq k).bound ((s.host.cq (s.host.sq k).bound).addr (s.host.cq (s.host.sq k).bound).tail) (s.host.cq (s.host.sq k).bound).phase
          { tag := x.desc.tag, opcode := x.desc.opcode, status := status, detail := detail, sq := k.val
            sqHead := (s.host.sq k).head, time := s.detectNs, cycle := 0#64, result := [] }] } } := by
  have found : takeFirst (fun t : Taken => t.isFor k x.desc.tag) s.host.taken = some (x, l) := by simp [taken, takeFirst, Taken.isFor, ring]
  change s.completeHost k x.desc.tag status detail 0#64 [] = _
  simp only [State.completeHost, works, Bool.false_eq_true, if_false, found]
  rw [HostBlk.cqPut_written (h := { s.host with taken := l }) _ on master noIrq]
  rfl

theorem State.finish_maint (s : State) (c : MntCmd) (l : List MntCmd) (status detail : Nat) (cmds : s.mnt.cmds = c :: l)
    (session : s.mnt.session.isSome = true) : s.finish (.maint c.desc.tag) status detail = { s with mnt := { s.mnt with
      cmds := l, sent := s.mnt.sent ++ [.completion c.desc.tag c.desc.opcode status detail 0#64 []] } } := by
  have found : takeFirst (fun d : MntCmd => d.desc.tag == c.desc.tag) s.mnt.cmds = some (c, l) := by simp [cmds, takeFirst]
  change s.completeMnt c.desc.tag status detail 0#64 [] = _
  simp only [State.completeMnt, found, session, if_true]

/-- Settles O10: the shared operations of Machine/Ops and Machine/HostOps, a lemma for each clause. -/
theorem reportsAndCompletions : Obligations.ReportsAndCompletions :=
  ⟨State.report_obtains, State.recordEvent_refused, State.eventEntry_written, State.eventEntry_lost, State.eventEntry_dropped, State.finish_host,
    State.finish_maint⟩

end Sys2Proof.Machine

namespace Sys2Proof.Machine
set_option Elab.async false

/-! The scrubber, parity, the hold-up and the commands of MNT_CMD (15 R436-R440, R442). -/

/-! Parity. -/

/-- A mismatch whose reference can be read is counted and recorded (15 R437). -/
theorem State.parityErr_intact {s : State} {off : Nat} (w : Word) (held : hasParity off = true) : s.parityErr off w true =
    State.recordEvent { s with mod := { s.mod with parityCnt := Bits.inc s.mod.parityCnt } } .mod 2 off w := by
  simp [State.parityErr, held]

/-- A command that counts a parity mismatch. -/
theorem State.raises_parity (s : State) (off : Nat) (w : Word) :
    s.Raises (State.recordEvent { s with mod := { s.mod with parityCnt := Bits.inc s.mod.parityCnt } } .mod 2 off w) [(.mod, 2)] :=
  (State.raises_recordEvent _ .mod 2 off w (by decide)).from rfl

/-- The counts of one pass of the scrubber. -/
def State.scrubbed (us : Nat) (s : State) : State := { s with
  mod := { s.mod with passes := s.mod.passes + 1, longestUs := max s.mod.longestUs us }, mnt := { s.mnt with scrubLeft := s.mnt.scrubLeft - 1 } }

theorem State.bare_scrubbed {s t : State} (us : Nat) (h : t.bare = s.bare) : (t.scrubbed us).bare = (s.scrubbed us).bare := by
  have through : ∀ u : State, (u.scrubbed us).bare = (State.scrubbed us u.bare).bare := fun _ => rfl
  rw [through t, through s, h]

theorem scrubPass_finds (s : State) (us off : Nat) (w : Word) (held : hasParity off = true) : RunsTo (.scrubPass us [(off, w, true)]) s { s with
    mod := { s.mod with parityCnt := Bits.inc s.mod.parityCnt, passes := s.mod.passes + 1, longestUs := max s.mod.longestUs us }
    mnt := { s.mnt with scrubLeft := s.mnt.scrubLeft - 1 } } [(.mod, 2)] := by
  have step : exec (.scrubPass us [(off, w, true)]) s = .next ((s.parityErr off w true).scrubbed us) := rfl
  rw [State.parityErr_intact w held] at step
  refine .mk _ step (State.bare_scrubbed us (State.bare_recordEvent _ .mod 2 off w)) ?_
  exact (s.raises_parity off w).trans (m := []) (.of_event rfl)

theorem parityCheckedRead_finds (s : State) (w : Word) : RunsTo (.parityCheckedRead .host 0x5C w true) s { s with
    mod := { s.mod with parityCnt := Bits.inc s.mod.parityCnt } } [(.mod, 2)] := by
  have held : hasParity 0x5C = true := by decide
  have read : ∀ t : State, (t.busRead .host 0x5C).2 = t := fun t => by
    unfold State.busRead
    rw [if_neg (by decide), if_neg (by decide), if_neg (by decide), if_neg (by decide), if_neg (by decide), if_neg (by decide)]
    exact congrArg (t.latch .host) (show latches 0x5C = [] by decide)
  refine .mk _ ((congrArg Host.Outcome.next (if_pos held)).trans (congrArg Host.Outcome.next (read _))) ?_ ?_
  · rw [State.parityErr_intact w held]; exact State.bare_recordEvent ..
  · rw [State.parityErr_intact w held]; exact s.raises_parity 0x5C w

theorem parityCheckedRead_plain (s : State) (who : Requester) (off : Nat) (w : Word) (ok : Bool) (plain : hasParity off = false) :
    exec (.parityCheckedRead who off w ok) s = .next s :=
  congrArg Host.Outcome.next (if_neg (by simp [plain]))

/-! The commands of MNT_CMD. -/

theorem identify_starts (s : State) (idle : s.mnt.identify = false) :
    exec .identify s = .next { s.written .host with mnt := { s.mnt with identify := true, identAt := s.mod.uptime } } :=
  congrArg Host.Outcome.next ((busWrite_mntCmd s 1#32).trans ((startCmds_one (s.written .host) 0).trans (if_neg (by simpa [State.written_host] using idle))))

theorem identify_busy (s : State) (busy : s.mnt.identify = true) : RunsTo .identify s (s.written .host) [(.mnt, 4)] :=
  .setEvent (congrArg Host.Outcome.next ((busWrite_mntCmd s 1#32).trans ((startCmds_one (s.written .host) 0).trans (if_pos busy)))) rfl (by decide)

theorem holdupTest_starts (s : State) (idle : s.mnt.holdTest = false) :
    exec .holdupTest s = .next { s.written .host with mnt := { s.mnt with holdTest := true, testAt := s.mod.uptime } } :=
  congrArg Host.Outcome.next ((busWrite_mntCmd s 4#32).trans ((startCmds_one (s.written .host) 2).trans (if_neg (by simpa [State.written_host] using idle))))

theorem holdupTest_busy (s : State) (busy : s.mnt.holdTest = true) : RunsTo .holdupTest s (s.written .host) [(.mnt, 4)] :=
  .setEvent (congrArg Host.Outcome.next ((busWrite_mntCmd s 4#32).trans ((startCmds_one (s.written .host) 2).trans (if_pos busy)))) rfl (by decide)

theorem scrubNow_starts (s : State) (busy : Bool) (idle : s.mnt.scrubNow = false) : exec (.scrubNow .host busy) s = .next { s.written .host with
    mnt := { s.mnt with scrubNow := true, scrubLeft := if busy then 2 else 1 } } := by
  have write : s.busWrite .host 0x3C0C 2#32 = { s.written .host with mnt := { s.mnt with scrubNow := true, scrubLeft := 1 } } :=
    (busWrite_mntCmd s 2#32).trans ((startCmds_one (s.written .host) 1).trans (if_neg (by simpa [State.written_host] using idle)))
  change execScrubNow .host busy s = _
  simp only [execScrubNow, write, idle]
  cases busy <;> rfl

/-! The hold-up. -/

/-- A hold-up time under 24 ms is reported. -/
theorem State.raises_holdupMeasured (s : State) (n : Nat) : s.Raises (s.holdupMeasured n) (if n < 240 then [(.mod, 6)] else []) := by
  have told := State.raises_setEventIf { s with mod := { s.mod with holdup := n, holdupOk := decide (240 ≤ n) } } (decide (n < 240)) .mod 6 (by decide)
  simp only [decide_eq_true_eq] at told
  exact told.from rfl

/-- A measurement that is due. -/
theorem holdupMeasure_due {s : State} (n : Nat) (powered : s.mod.powered = true) (due : ∀ t, s.mod.holdupAt = some t → t + 6000000 ≤ s.mod.uptime) :
    exec (.holdupMeasure n) s = .next (State.holdupMeasured { s with mod := { s.mod with holdupAt := some s.mod.uptime } } n) := by
  change execHoldupMeasure n s = _
  unfold execHoldupMeasure
  rw [powered]
  cases last : s.mod.holdupAt with
  | none => rfl
  | some t => simp [due t last]

theorem holdupMeasure_measures (s : State) (n : Nat) (powered : s.mod.powered = true) (due : ∀ t, s.mod.holdupAt = some t → t + 6000000 ≤ s.mod.uptime) :
    RunsTo (.holdupMeasure n) s { s with mod := { s.mod with holdupAt := some s.mod.uptime, holdup := n, holdupOk := decide (240 ≤ n) } } (if n < 240 then [(.mod, 6)] else []) := by
  refine .mk _ (holdupMeasure_due n powered due) (State.bare_setEventIf ..) ?_
  exact (State.raises_holdupMeasured _ n).from rfl

theorem holdupMeasure_ignored (s : State) (n t : Nat) (early : s.mod.powered = false ∨ (s.mod.holdupAt = some t ∧ s.mod.uptime < t + 6000000)) :
    exec (.holdupMeasure n) s = .next s := by
  change execHoldupMeasure n s = _
  unfold execHoldupMeasure
  rcases early with dark | ⟨last, soon⟩
  · exact if_pos (by simp [dark])
  · rw [last]
    exact if_pos (by simp [soon])

theorem mntCmdDone_identify (s : State) (n : Nat) (powered : s.mod.powered = true) (runs : s.mnt.identify = true)
    (due : s.mnt.identAt + 1000000 ≤ s.mod.uptime) : RunsTo (.mntCmdDone 0 n) s { s with mnt := { s.mnt with identify := false } } [(.mnt, 3)] :=
  .setEvent ((if_neg (by simp [powered])).trans (if_pos (by simp [runs, due]))) rfl (by decide)

theorem mntCmdDone_scrub (s : State) (n : Nat) (powered : s.mod.powered = true) (runs : s.mnt.scrubNow = true) (seen : s.mnt.scrubLeft = 0) :
    RunsTo (.mntCmdDone 1 n) s { s with mnt := { s.mnt with scrubNow := false } } [(.mnt, 3)] :=
  .setEvent ((if_neg (by simp [powered])).trans (if_pos (by simp [runs, seen]))) rfl (by decide)

theorem mntCmdDone_holdup (s : State) (n : Nat) (powered : s.mod.powered = true) (runs : s.mnt.holdTest = true) (due : s.mnt.testAt + 20 ≤ s.mod.uptime)
    (holds : 240 ≤ n) : RunsTo (.mntCmdDone 2 n) s { s with
      mnt := { s.mnt with holdTest := false }, mod := { s.mod with holdup := n, holdupOk := true } } [(.mnt, 3)] := by
  refine .setEvent ((if_neg (by simp [powered])).trans ((if_pos (by simp [runs, due])).trans ?_)) rfl (by decide)
  rw [State.holdupMeasured, decide_eq_true holds, decide_eq_false (Nat.not_lt.mpr holds)]
  rfl

/-- Settles O12: the scrubber and parity, MNT_CMD and its completions, and the hold-up, a lemma for each clause. -/
theorem scrubAndHoldup : Obligations.ScrubAndHoldup :=
  ⟨fun _ _ => rfl, scrubPass_finds, parityCheckedRead_finds, parityCheckedRead_plain, identify_starts, identify_busy, holdupTest_starts,
    holdupTest_busy, scrubNow_starts, holdupMeasure_measures, holdupMeasure_ignored, mntCmdDone_identify, mntCmdDone_scrub, mntCmdDone_holdup⟩

end Sys2Proof.Machine

namespace Sys2Proof.Machine
set_option Elab.async false

/-! The maintenance port (15 R426, R427, R441, R442). -/

/-- A message that sets one EVENT bit and is answered. -/
theorem RunsTo.setEvent_answer {i : Instr} {s u : State} {b : Block} {n : Nat} {a : MntOut} (e : exec i s = .next ((u.setEvent b n).answer a))
    (he : u.event = s.event) (hn : n < 32) : RunsTo i s u [(b, n)] :=
  .mk _ e (u.bare_setEvent b n) (((u.raises_setEvent b n hn).from he).trans (m := []) (.of_event rfl))

/-! OPEN. -/

/-- A failed OPEN once the port has counted it. -/
def State.failed (s : State) (fails : List Nat) (full : Bool) : State := { s with mnt := { s.mnt with
  authCnt := Bits.inc s.mnt.authCnt, fails := if full then [] else fails, lockout := full || s.mnt.lockout
  lockNs := if full then s.nowNs else s.mnt.lockNs } }

theorem State.openFailed_open {s : State} {l : List Nat} {full : Bool} (unlocked : s.mnt.lockout = false)
    (recent : s.mnt.fails.filter (fun t => decide (s.nowNs < t + 60000000000)) = l) (count : decide (4 ≤ l.length) = full) :
    s.openFailed = ((s.failed (l ++ [s.nowNs]) full).setEvent .mnt 2).answer .refused := by
  have five : decide (5 ≤ (l ++ [s.nowNs]).length) = full := by rw [← count]; simp
  simp only [State.openFailed, State.failed, unlocked, Bool.false_eq_true, if_false, recent, five, Bool.or_false, Bool.false_or]

theorem State.openFailed_locked {s : State} (locked : s.mnt.lockout = true) : s.openFailed = ((s.failed [] false).setEvent .mnt 2).answer .refused := by
  simp [State.openFailed, State.failed, locked]

theorem mntOpen_opens (s : State) (k : Nat) (r : Rights) (on : s.mntOn = true) (unlocked : s.mnt.lockout = false) (rights : s.cfg.rights k = some r) :
    RunsTo (.mntOpen (some k)) s { s with
      mnt := { s.mnt with msgCnt := s.mnt.msgCnt + 1#64, lastMsg := s.nowNs, session := some r, sessKey := k } } [(.mnt, 0)] := by
  refine .setEvent_answer (a := .opened) (?_ : execMntOpen (some k) s = _) rfl (by decide)
  simp [execMntOpen, on, State.message, rights, unlocked]

/-- An OPEN without a key fails. -/
theorem exec_mntOpen_none {s : State} (on : s.mntOn = true) : exec (.mntOpen none) s = .next s.message.openFailed := if_neg (by simp [on])

theorem mntOpen_fails (s : State) (on : s.mntOn = true) (unlocked : s.mnt.lockout = false)
    (few : (s.mnt.fails.filter (fun t => decide (s.nowNs < t + 60000000000))).length < 4) : RunsTo (.mntOpen none) s { s with
      mnt := { s.mnt with msgCnt := s.mnt.msgCnt + 1#64, lastMsg := s.nowNs, authCnt := Bits.inc s.mnt.authCnt
                          fails := s.mnt.fails.filter (fun t => decide (s.nowNs < t + 60000000000)) ++ [s.nowNs] } } [(.mnt, 2)] := by
  have step := (exec_mntOpen_none on).trans (congrArg Host.Outcome.next (State.openFailed_open (s := s.message) unlocked rfl (decide_eq_false (Nat.not_le.mpr few))))
  exact .setEvent_answer (a := .refused) step rfl (by decide)

theorem mntOpen_locks (s : State) (on : s.mntOn = true) (unlocked : s.mnt.lockout = false)
    (many : 4 ≤ (s.mnt.fails.filter (fun t => decide (s.nowNs < t + 60000000000))).length) : RunsTo (.mntOpen none) s { s with
      mnt := { s.mnt with msgCnt := s.mnt.msgCnt + 1#64, lastMsg := s.nowNs, authCnt := Bits.inc s.mnt.authCnt, fails := [], lockout := true, lockNs := s.nowNs } } [(.mnt, 2)] := by
  have step := (exec_mntOpen_none on).trans (congrArg Host.Outcome.next (State.openFailed_open (s := s.message) unlocked rfl (decide_eq_true many)))
  exact .setEvent_answer (a := .refused) step rfl (by decide)

theorem mntOpen_locked (s : State) (k : Option Nat) (on : s.mntOn = true) (locked : s.mnt.lockout = true) : RunsTo (.mntOpen k) s { s with
    mnt := { s.mnt with msgCnt := s.mnt.msgCnt + 1#64, lastMsg := s.nowNs, authCnt := Bits.inc s.mnt.authCnt, fails := [] } } [(.mnt, 2)] := by
  have step : exec (.mntOpen k) s = .next s.message.openFailed := by
    change execMntOpen k s = _
    simp only [execMntOpen, on, Bool.not_true, Bool.false_eq_true, if_false, show s.message.mnt.lockout = true from locked, if_true]
    split <;> rfl
  exact .setEvent_answer (a := .refused) (step.trans (congrArg Host.Outcome.next (State.openFailed_locked (s := s.message) locked))) rfl (by decide)

/-! The end of a session. -/

/-- A session that is open closes (15 R441). -/
theorem State.closeSession_open {s : State} {r : Rights} (session : s.mnt.session = some r) : s.closeSession = State.setEvent { s with
    mnt := { s.mnt with session := none }, mod := { s.mod with maint := {} }
    recorder := { s.recorder with window := Tbl.erase s.recorder.window 1 } } .mnt 1 := if_neg (by simp [session])

theorem mntClose_closes (s : State) (r : Rights) (on : s.mntOn = true) (session : s.mnt.session = some r) : RunsTo .mntClose s { s with
    mnt := { s.mnt with msgCnt := s.mnt.msgCnt + 1#64, lastMsg := s.nowNs, session := none }
    mod := { s.mod with maint := {} }
    recorder := { s.recorder with window := Tbl.erase s.recorder.window 1 } } [(.mnt, 1)] := by
  have step : exec .mntClose s = .next (s.message.closeSession.answer .closed) :=
    (if_neg (by simp [on])).trans (if_neg (by simp [State.message, session]))
  rw [State.closeSession_open (s := s.message) session] at step
  exact .setEvent_answer step rfl (by decide)

theorem mntIdleTimeout_closes (s : State) (r : Rights) (session : s.mnt.session = some r) (idle : s.mnt.lastMsg + 900000000000 ≤ s.nowNs) :
    RunsTo .mntIdleTimeout s { s with
      mnt := { s.mnt with session := none }, mod := { s.mod with maint := {} }, recorder := { s.recorder with window := Tbl.erase s.recorder.window 1 } } [(.mnt, 1)] :=
  .setEvent ((if_neg (Nat.not_lt.mpr idle)).trans (congrArg Host.Outcome.next (State.closeSession_open session))) rfl (by decide)

theorem mntCableRemoved_closes (s : State) (r : Rights) (session : s.mnt.session = some r) : RunsTo .mntCableRemoved s { s with
    mnt := { s.mnt with session := none, attached := false }, mod := { s.mod with maint := {} }, recorder := { s.recorder with window := Tbl.erase s.recorder.window 1 } } [(.mnt, 1)] :=
  .setEvent (congrArg Host.Outcome.next (State.closeSession_open (s := { s with mnt := { s.mnt with attached := false } }) session)) rfl (by decide)

theorem mntCableRemoved_idle (s : State) (closed : s.mnt.session = none) :
    exec .mntCableRemoved s = .next { s with mnt := { s.mnt with attached := false } } :=
  congrArg Host.Outcome.next (if_pos (by simp [closed]))

theorem mntLockoutEnd_ends (s : State) (locked : s.mnt.lockout = true) (due : s.mnt.lockNs + 300000000000 ≤ s.nowNs) :
    exec .mntLockoutEnd s = .next { s with mnt := { s.mnt with lockout := false, fails := [] } } :=
  if_neg (by simp [locked, due])

theorem mntLockoutEnd_early (s : State) (early : s.mnt.lockout = false ∨ s.nowNs < s.mnt.lockNs + 300000000000) : exec .mntLockoutEnd s = .next s :=
  if_pos (by simpa using early)

/-! READ, WRITE and COMMAND. -/

theorem State.mntRight_session {s : State} {r : Rights} (p : Rights → Bool) (session : s.mnt.session = some r) (up : s.cfg.phase ≠ .rom) :
    s.message.mntRight p = p r := by
  simp [State.mntRight, State.message, session, up]

theorem busRead_scratch (s : State) (who : Requester) : s.busRead who 0x5C = (s.mod.scratch, s) := by
  have noLatch : latches 0x5C = [] := by decide
  have same : s.setReq who (s.req who) = s := by cases who <;> rfl
  have seen : s.seen who 0x5C = s.mod.scratch := if_neg (by decide)
  unfold State.busRead
  rw [if_neg (by decide), if_neg (by decide), if_neg (by decide), if_neg (by decide), if_neg (by decide), if_neg (by decide), seen, noLatch]
  exact congrArg (Prod.mk _) same

theorem mntRead_scratch (s : State) (r : Rights) (on : s.mntOn = true) (session : s.mnt.session = some r) (reads : r.read = true)
    (up : s.cfg.phase ≠ .rom) : exec (.mntRead 0x5C 1) s = .next { s with
      mnt := { s.mnt with msgCnt := s.mnt.msgCnt + 1#64, lastMsg := s.nowNs, sent := s.mnt.sent ++ [.words [s.mod.scratch]] } } := by
  have right := (State.mntRight_session Rights.read session up).trans reads
  refine (if_neg (by simp [on])).trans ((if_neg (by simp [right])).trans ?_)
  simp only [State.readWords, busRead_scratch]
  rfl

theorem mntRead_refused (s : State) (r : Rights) (off n : Nat) (on : s.mntOn = true) (session : s.mnt.session = some r)
    (bad : r.read = false ∨ n = 0 ∨ 64 < n) : exec (.mntRead off n) s = .next { s with
      mnt := { s.mnt with msgCnt := s.mnt.msgCnt + 1#64, lastMsg := s.nowNs, sent := s.mnt.sent ++ [.refused] } } := by
  refine (if_neg (by simp [on])).trans (if_pos ?_)
  rcases bad with noRight | zero | many
  · simp [State.mntRight, State.message, session, noRight]
  · simp [zero]
  · simp [many]

theorem mntWrite_scratch (s : State) (r : Rights) (w : Word) (on : s.mntOn = true) (session : s.mnt.session = some r) (writes : r.write = true)
    (up : s.cfg.phase ≠ .rom) : exec (.mntWrite 0x5C w) s = .next { s with
      mod := { s.mod with scratch := w, maint := { s.mod.maint with expired := none } }
      mnt := { s.mnt with msgCnt := s.mnt.msgCnt + 1#64, lastMsg := s.nowNs, sent := s.mnt.sent ++ [.written] } } := by
  have write : s.message.busWrite .maint 0x5C w = (s.message.written .maint).putRw .maint 0x5C w := by
    have may : (s.message.written .maint).mayWrite .maint 0x5C = true := by simp [State.mayWrite, State.written_maint, State.message, session, writes]
    rw [State.busWrite_reg _ _ _ _ (by decide) (by decide), State.regWrite_plain _ _ _ _ _ _ (by decide) (by decide) may (by decide), State.writeBits,
      accessOf_scratch.1]
    simp [listedValue]
  have step : exec (.mntWrite 0x5C w) s = .next ((s.message.busWrite .maint 0x5C w).answer .written) := by
    change execMntWrite 0x5C w s = _
    unfold execMntWrite
    rw [if_neg (by simp [on])]
    refine (if_neg (by simp [State.message, session, up])).trans (if_pos ((State.mntRight_session Rights.write session up).trans writes))
  rw [step, write, putRw_scratch]
  rfl

/-- What a write that the port's session does not allow leaves and raises (15 R426). -/
theorem State.refused_maint (s : State) : s.Raises ((s.written .maint).accessErr.setEvent .mnt 5) [(.mod, 1), (.mnt, 5)] ∧
    ((s.written .maint).accessErr.setEvent .mnt 5).bare = State.bare { s with
      mod := { s.mod with accessCnt := Bits.inc s.mod.accessCnt, maint := { s.mod.maint with expired := none } } } := by
  have counted : s.Raises (s.written .maint).accessErr [(.mod, 1)] :=
    (State.raises_setEvent { s.written .maint with mod := _ } .mod 1 (by decide)).from rfl
  refine ⟨counted.setEvent .mnt 5 (by decide), ?_⟩
  rw [State.bare_setEvent, State.accessErr, State.bare_setEvent]
  rfl

theorem mntWrite_refused (s : State) (r : Rights) (w : Word) (on : s.mntOn = true) (session : s.mnt.session = some r) (noRight : r.write = false)
    (up : s.cfg.phase ≠ .rom) : RunsTo (.mntWrite 0x5C w) s { s with
      mod := { s.mod with accessCnt := Bits.inc s.mod.accessCnt, maint := { s.mod.maint with expired := none } }
      mnt := { s.mnt with msgCnt := s.mnt.msgCnt + 1#64, lastMsg := s.nowNs } } [(.mod, 1), (.mnt, 5)] := by
  have write : s.message.busWrite .maint 0x5C w = (s.message.written .maint).accessErr.setEvent .mnt 5 := by
    have may : (s.message.written .maint).mayWrite .maint 0x5C = false := by simp [State.mayWrite, State.written_maint, State.message, session, noRight]
    rw [State.busWrite_reg _ _ _ _ (by decide) (by decide), State.regWrite_refused _ _ _ _ _ _ (by decide) (by decide) may]
    rfl
  have step : exec (.mntWrite 0x5C w) s = .next ((s.message.busWrite .maint 0x5C w).answer .refused) := by
    change execMntWrite 0x5C w s = _
    unfold execMntWrite
    rw [if_neg (by simp [on])]
    refine (if_neg (by simp [State.message, session, up])).trans (if_neg ?_)
    rw [State.mntRight_session Rights.write session up, noRight]
    exact Bool.false_ne_true
  obtain ⟨raises, bare⟩ := s.message.refused_maint
  rw [write] at step
  exact .mk _ step bare ((raises.from rfl).trans (m := []) (.of_event rfl))

theorem mntCommand_waits (s : State) (r : Rights) (d : Desc) (data : List Byte) (o : ImageObj) (p : Package × Option Nat) (on : s.mntOn = true)
    (session : s.mnt.session = some r) (commands : r.command = true) : exec (.mntCommand d data o p) s = .next { s with
      mnt := { s.mnt with msgCnt := s.mnt.msgCnt + 1#64, lastMsg := s.nowNs, cmds := s.mnt.cmds ++ [{ desc := d, data := data, obj := o, pkg := p }] } } := by
  refine (if_neg (by simp [on])).trans (if_pos ?_)
  simp [State.message, session, commands]

/-- Settles O13: OPEN, the end of a session, and READ, WRITE and COMMAND, a lemma for each clause. -/
theorem maintenancePort : Obligations.MaintenancePort :=
  ⟨mntOpen_opens, mntOpen_fails, mntOpen_locks, mntOpen_locked, mntClose_closes, mntIdleTimeout_closes, mntCableRemoved_closes, mntCableRemoved_idle,
    fun _ => rfl, fun _ soon => if_pos soon, mntLockoutEnd_ends, mntLockoutEnd_early, mntRead_scratch, mntRead_refused, mntWrite_scratch,
    mntWrite_refused, mntCommand_waits⟩

end Sys2Proof.Machine

namespace Sys2Proof.Machine
set_option Elab.async false

/-! Supplies, temperature and the start-up up to the starting role (15 R440, 16 R444-R448, R453, 18 R480). -/

/-! Supplies and temperature. -/

/-- A command that makes one record with an EVENT bit. -/
theorem RunsTo.recordEvent {i : Instr} {s u : State} {b : Block} {n obj : Nat} {w : Word} (e : exec i s = .next (u.recordEvent b n obj w))
    (he : u.event = s.event) (hn : n < 32) : RunsTo i s u [(b, n)] :=
  .mk _ e (u.bare_recordEvent b n obj w) ((u.raises_recordEvent b n obj w hn).from he)

theorem supplyLost_a (s : State) (ok : s.mod.psA.ok = true) :
    RunsTo (.supplyLost false) s { s with mod := { s.mod with psA := { s.mod.psA with ok := false } } } [(.mod, 3)] :=
  .recordEvent (if_neg (by simp [ok])) rfl (by decide)

theorem supplyLost_b (s : State) (ok : s.mod.psB.ok = true) :
    RunsTo (.supplyLost true) s { s with mod := { s.mod with psB := { s.mod.psB with ok := false } } } [(.mod, 4)] :=
  .recordEvent (if_neg (by simp [ok])) rfl (by decide)

theorem supplyBack_a (s : State) (lost : s.mod.psA.ok = false) (powered : s.mod.powered = true) (up : 1000 ≤ s.mod.psA.up) :
    RunsTo (.supplyBack false) s { s with mod := { s.mod with psA := { s.mod.psA with ok := true } } } [(.mod, 5)] :=
  .recordEvent ((if_neg (by simp [lost, up])).trans (congrArg Host.Outcome.next (if_pos powered))) rfl (by decide)

theorem supplyBack_b (s : State) (lost : s.mod.psB.ok = false) (powered : s.mod.powered = true) (up : 1000 ≤ s.mod.psB.up) :
    RunsTo (.supplyBack true) s { s with mod := { s.mod with psB := { s.mod.psB with ok := true } } } [(.mod, 5)] :=
  .recordEvent ((if_neg (by simp [lost, up])).trans (congrArg Host.Outcome.next (if_pos powered))) rfl (by decide)

theorem thermalWarn_on (s : State) (off : s.mod.warn = false) (hot : 100000 ≤ s.mod.coldHot) :
    RunsTo (.thermalWarn true) s { s with mod := { s.mod with warn := true } } [(.mod, 7)] :=
  .recordEvent (if_neg (by simp [off, hot])) rfl (by decide)

theorem thermalWarn_off (s : State) (on : s.mod.warn = true) (cool : s.mod.coldRail < 680) :
    exec (.thermalWarn false) s = .next { s with mod := { s.mod with warn := false } } :=
  if_neg (by simp [on, cool])

/-! POWER_UP. -/

theorem State.setEventIf_false (s : State) (b : Block) (n : Nat) : s.setEventIf false b n = s := rfl

/-- With no commit begun and no record held the hold-up has nothing to finish (02 R45). -/
theorem State.finishHoldup_idle {s : State} (idle : ∀ n : Nat, (s.task n).run = none) (empty : s.recorder.queue = []) : s.finishHoldup = s := by
  unfold State.finishHoldup
  rw [foldl_same (l := List.range 32) (s := s)]
  · dsimp only
    rw [empty]
    exact ite_self _
  · intro n _
    simp only [idle]

/-- The engines after the power-up self-test: those that fail it are RETIRED (03 R98). -/
def enginesUp (failing : List (Fin 16)) : Tbl Engine := failing.foldl (fun (t : Tbl Engine) (e : Fin 16) => Tbl.set {} t e.val { state := .retired }) []

theorem engine_foldl_retire (l : List (Fin 16)) (t : Tbl Engine) (e : Fin 16) :
    Tbl.get {} (l.foldl (fun (t : Tbl Engine) (e : Fin 16) => Tbl.set {} t e.val { state := .retired }) t) e.val =
      if e ∈ l then { state := .retired } else Tbl.get {} t e.val := by
  induction l generalizing t with
  | nil => rfl
  | cons a l ih =>
    rw [List.foldl_cons, ih, Tbl.get_set]
    by_cases same : e = a
    · simp [same]
    · simp [same, Fin.val_inj]

theorem engine_enginesUp (l : List (Fin 16)) (e : Fin 16) : Tbl.get {} (enginesUp l) e.val = if e ∈ l then { state := .retired } else {} :=
  engine_foldl_retire l [] e

/-- The engines that count after the self-test and those that fail it are all sixteen. -/
theorem count_enginesUp (l : List (Fin 16)) :
    FabBlk.count { engines := enginesUp l } Engine.counts + ((List.finRange 16).filter (fun e => decide (e ∈ l))).length = 16 := by
  have counts : ∀ e : Fin 16, Engine.counts (FabBlk.engine { engines := enginesUp l } e.val) = !decide (e ∈ l) := fun e => by
    rw [FabBlk.engine, engine_enginesUp]
    by_cases retired : e ∈ l <;> simp [retired, Engine.counts]
  have range : List.range 16 = (List.finRange 16).map Fin.val := by decide
  have count : FabBlk.count { engines := enginesUp l } Engine.counts = ((List.finRange 16).filter (fun e => !decide (e ∈ l))).length := by
    rw [FabBlk.count, range, List.filter_map, List.length_map]
    exact congrArg List.length (List.filter_congr (fun e _ => counts e))
  have all := List.length_eq_length_filter_add (l := List.finRange 16) (fun e => decide (e ∈ l))
  rw [count, Nat.add_comm, ← all, List.length_finRange]

/-- Up to two failing engines leave the reserve. -/
theorem reserveKept {l : List (Fin 16)} (few : l.length ≤ 2) : FabBlk.reserveLost { engines := enginesUp l } = false := by
  have lost : ((List.finRange 16).filter (fun e => decide (e ∈ l))).length ≤ l.length :=
    (((List.nodup_finRange 16).filter _).subperm (fun e mem => of_decide_eq_true (List.mem_filter.mp mem).2)).length_le
  have all := count_enginesUp l
  exact decide_eq_false (by omega)

/-- Three failing engines take it (03 R85). -/
theorem reserveLost_three {a b c : Fin 16} (ab : a ≠ b) (ac : a ≠ c) (bc : b ≠ c) : FabBlk.reserveLost { engines := enginesUp [a, b, c] } = true := by
  have three : [a, b, c].Nodup := by simp [ab, ac, bc]
  have lost : [a, b, c].length ≤ ((List.finRange 16).filter (fun e => decide (e ∈ [a, b, c]))).length :=
    (three.subperm (fun e mem => List.mem_filter.mpr ⟨List.mem_finRange e, decide_eq_true mem⟩)).length_le
  have all := count_enginesUp [a, b, c]
  rw [List.length_cons, List.length_cons, List.length_cons, List.length_nil] at lost
  exact decide_eq_true (by omega)

section
variable {s : State} (rom bb rb : Bool) (l : List (Fin 16)) (off : s.mod.powered = false) (idle : ∀ n : Nat, (s.task n).run = none)
  (empty : s.recorder.queue = []) (works : s.recorder.failed = false) (sound : s.recorder.emberWorn = false) (books : s.recorder.bookBad = [])

include works sound books in
/-- A recorder with a sound bookkeeping copy works on. -/
theorem State.failed_powerUp : (s.powerUp true true rom true bb rb l).recorder.failed = false := by
  simp [State.powerUp, Recorder.startUp, works, sound, books]

include off idle empty works sound books in
/-- A start-up that finds the recorder whole reports a lost reserve at most. -/
theorem exec_powerUp : exec (.powerUp true true rom false true bb rb l) s =
    .next ((s.powerUp true true rom true bb rb l).setEventIf (FabBlk.reserveLost { engines := enginesUp l }) .fab 3) := by
  change execPowerUp true true rom false true bb rb l s = _
  unfold execPowerUp
  rw [if_neg (by simp [off]), State.finishHoldup_idle idle empty]
  simp only [State.setEventIf_false, State.failed_powerUp rom bb rb l works sound books, Bool.false_and]
  rfl

end

theorem powerUp_starts (s : State) (rom bb rb : Bool) (l : List (Fin 16)) (off : s.mod.powered = false) (idle : ∀ n : Nat, (s.task n).run = none)
    (empty : s.recorder.queue = []) (works : s.recorder.failed = false) (sound : s.recorder.emberWorn = false) (books : s.recorder.bookBad = [])
    (few : l.length ≤ 2) :
    ∃ t, exec (.powerUp true true rom false true bb rb l) s = .next t ∧ t.event = [] ∧ t.eventEn = [] ∧ t.mod.powered = true ∧ t.mod.ready = false ∧
      t.mod.serial = s.mod.serial ∧ t.mnt.bootCnt = Bits.inc s.mnt.bootCnt ∧ t.cfg.phase = .rom ∧ t.cfg.slotA = s.cfg.slotA ∧ t.cfg.slotB = s.cfg.slotB ∧
      t.cfg.keys0 = s.cfg.keys0 ∧ t.recorder.head = s.recorder.head ∧ t.recorder.peat = s.recorder.peat ∧ t.recorder.ember = s.recorder.ember ∧ t.recorder.failed = false ∧
      t.host = {} ∧ t.time = {} ∧ t.dio = {} ∧ t.aio = {} ∧ t.net = {} ∧ t.pending = s.pending ∧
      ∀ e : Fin 16, (t.fab.engine e).state = if e ∈ l then .retired else .available := by
  have step := exec_powerUp rom bb rb l off idle empty works sound books
  rw [reserveKept few] at step
  refine ⟨s.powerUp true true rom true bb rb l, step, rfl, rfl, rfl, rfl, rfl, rfl, rfl, rfl, rfl, rfl, rfl, rfl, rfl,
    State.failed_powerUp rom bb rb l works sound books, rfl, rfl, rfl, rfl, rfl, rfl, fun e => ?_⟩
  refine (congrArg Engine.state (engine_enginesUp l e)).trans ?_
  split <;> rfl

theorem powerUp_noReserve (s : State) (rom bb rb : Bool) (a b c : Fin 16) (off : s.mod.powered = false) (idle : ∀ n : Nat, (s.task n).run = none)
    (empty : s.recorder.queue = []) (works : s.recorder.failed = false) (sound : s.recorder.emberWorn = false) (books : s.recorder.bookBad = [])
    (ab : a ≠ b) (ac : a ≠ c) (bc : b ≠ c) :
    ∃ t, exec (.powerUp true true rom false true bb rb [a, b, c]) s = .next t ∧ t.raised .fab 3 = true :=
  ⟨_, exec_powerUp rom bb rb _ off idle empty works sound books, EvBit.setEventIf (.inr ⟨reserveLost_three ab ac bc, rfl, rfl⟩) (by decide)⟩

theorem powerUp_ignored (s : State) (a b rom torn ba bb rb : Bool) (l : List (Fin 16)) (on : s.mod.powered = true ∨ (a = false ∧ b = false)) :
    exec (.powerUp a b rom torn ba bb rb l) s = .next s := by
  refine if_pos ?_
  rcases on with powered | ⟨noA, noB⟩
  · simp [powered]
  · simp [noA, noB]

/-! FIRMWARE_VERIFIED. -/

/-- The firmware of a slot is in force and the objects come next (16 R446). -/
def State.firmTaken (s : State) (onB : Bool) (f : FirmObj) : State :=
  { s with cfg := { s.cfg with firmOnB := onB, phase := .verify }, mod := { s.mod with fwRelease := f.release } }

theorem State.bare_firmTaken {s t : State} (h : t.bare = s.bare) (onB : Bool) (f : FirmObj) : (t.firmTaken onB f).bare = (s.firmTaken onB f).bare := by
  have through : ∀ u : State, (u.firmTaken onB f).bare = (State.firmTaken u.bare onB f).bare := fun _ => rfl
  rw [through t, through s, h]

theorem firmwareVerified_own (s : State) (f : FirmObj) (other : Bool) (powered : s.mod.powered = true) (rom : s.cfg.phase = .rom)
    (onA : s.cfg.firmOnB = false) (slot : s.cfg.firmA = some f) (ok : f.ok = true) : RunsTo (.firmwareVerified true other) s { s with
      cfg := { s.cfg with phase := .verify }, mod := { s.mod with fwRelease := f.release } } [] := by
  have step : exec (.firmwareVerified true other) s = .next ((s.firmTaken false f).note 0 0x100 (f.release ++ BitVec.ofNat 32 s.mnt.romVer)) := by
    change execFirmwareVerified true other s = _
    simp [execFirmwareVerified, powered, rom, onA, slot, firmOk, ok, State.setEventIf, State.firmTaken]
  refine .mk _ step ((State.bare_note _ _ _ _).trans ?_) ((State.raises_note _ _ _ _).from rfl)
  rw [State.firmTaken, ← onA]

theorem firmwareVerified_other (s : State) (f : FirmObj) (powered : s.mod.powered = true) (rom : s.cfg.phase = .rom)
    (onA : s.cfg.firmOnB = false) (slot : s.cfg.firmB = some f) (ok : f.ok = true) : RunsTo (.firmwareVerified false true) s { s with
      cfg := { s.cfg with phase := .verify, firmOnB := true }, mod := { s.mod with fwRelease := f.release } } [(.cfg, 2), (.cfg, 3)] := by
  obtain ⟨v, hv⟩ : ∃ v, v = s.setEvent .cfg 2 := ⟨_, rfl⟩
  have cfg : v.cfg = s.cfg := by rw [hv, State.cfg_setEvent]
  obtain ⟨d, step⟩ : ∃ d, exec (.firmwareVerified false true) s = .next (((v.firmTaken true f).setEvent .cfg 3).note 0 0x100 d) := by
    change ∃ d, execFirmwareVerified false true s = _
    simp only [execFirmwareVerified, powered, rom, onA, slot, firmOk, ok, Bool.false_and, Bool.true_and, Bool.false_eq_true, if_false, Bool.not_false,
      Bool.not_true, Bool.and_false, bne_self_eq_false, Bool.or_self, State.setEventIf, if_true, ← hv, cfg, State.firmTaken]
    exact ⟨_, rfl⟩
  have taken : v.bare = s.bare := hv ▸ State.bare_setEvent _ _ _
  have first : s.Raises v [(.cfg, 2)] := hv ▸ s.raises_setEvent .cfg 2 (by decide)
  have second : s.Raises (v.firmTaken true f) ([(.cfg, 2)] ++ []) := first.trans (.of_event rfl)
  refine .mk _ step ?_ ((second.setEvent .cfg 3 (by decide)).note _ _ _)
  rw [State.bare_note, State.bare_setEvent]
  exact State.bare_firmTaken taken true f

theorem firmwareVerified_none (s : State) (powered : s.mod.powered = true) (rom : s.cfg.phase = .rom) :
    RunsTo (.firmwareVerified false false) s s [(.cfg, 2)] := by
  refine .setEvent (?_ : execFirmwareVerified false false s = _) rfl (by decide)
  simp [execFirmwareVerified, powered, rom, firmOk, State.setEventIf]

/-! OBJECTS_VERIFIED and LANES_START. -/

theorem objectsVerified_slotA (s : State) (c : StationCfg) (q : DWord) (u : SlotUse) (phase : s.cfg.phase = .verify) (fresh : s.cfg.loaded = false)
    (key0 : s.cfg.keyBad0 = false) (key1 : s.cfg.keyBad1 = false) (unmarked : s.cfg.marker = none)
    (slotA : s.cfg.slotA = { body := some c, seq := q, header := true, use := u }) (slotB : s.cfg.slotB = {}) (signed : s.configSigned c = true)
    (noProg : s.cfg.prog = none) (safeA : s.cfg.safeA = none) (safeB : s.cfg.safeB = none) :
    ∃ t, Changes (.objectsVerified {}) s t [.recorder, .time, .dio, .aio, .safe, .ax, .pnl, .net, .cyc, .cfg] [(.time, 7), (.time, 8), (.pnl, 0)] ∧
      t.cfg.cur = c ∧ t.cfg.loaded = true ∧ t.cfg.slotLoaded = false ∧ t.cfg.slotA.use = .active ∧ t.cfg.phase = .verify ∧ t.time.cfg = c.timeCfg ∧
      t.net.pairCfg = c.pairCfg ∧ t.recorder.trigDefs = c.trigs ∧ t.cfg.taskCfgs = c.tasks := by
  have foundA : s.slotFound s.cfg.slotA true = { s.cfg.slotA with use := .valid } := by simp [State.slotFound, slotA, signed]
  have foundB : s.slotFound s.cfg.slotB true = s.cfg.slotB := by rw [slotB]; rfl
  have step := objectsVerified_exec s _ _ phase fresh key0 key1 foundA foundB rfl (by rw [slotB]; rfl) noProg safeA safeB
  obtain ⟨v, hv⟩ : ∃ v : State, v = State.setSafe { s with cfg := { s.cfg with slotA := { s.cfg.slotA with use := .valid }, slotB := s.cfg.slotB, safeOnB := false, safeOk := false } }
    (withoutSafety s.safe) := ⟨_, rfl⟩
  have cfg : v.cfg = { s.cfg with slotA := { s.cfg.slotA with use := .valid }, slotB := s.cfg.slotB, safeOnB := false, safeOk := false } := by rw [hv]; simp
  have start : Moves s v [.safe, .cfg] [] := hv ▸ (Moves.set (t := { s with cfg := _ }) : Moves s _ [.safe, .cfg] []).trans (State.moves_setSafe _ _ []).stay
  obtain ⟨w, moves, chosen, cur, loaded, slotLoaded, use, kept, prog, time, pair, trigs, tasks⟩ :=
    chooseConfig_slotA v c (by rw [cfg]; exact unmarked) (by rw [cfg]) (by rw [cfg, slotB]; decide) (by rw [cfg, slotA])
  rw [← hv, chosen, checkStreams_none w (prog.trans (by rw [cfg]; exact noProg))] at step
  exact ⟨w, (start.stay.trans moves.stay).changes step, cur, loaded, slotLoaded, use, kept.trans (by rw [cfg]; exact phase), time, pair,
    trigs (by rw [cfg]; exact fresh), tasks⟩

theorem objectsVerified_noConfig (s : State) (phase : s.cfg.phase = .verify) (fresh : s.cfg.loaded = false) (key0 : s.cfg.keyBad0 = false)
    (key1 : s.cfg.keyBad1 = false) (unmarked : s.cfg.marker = none) (slotA : s.cfg.slotA = {}) (slotB : s.cfg.slotB = {}) (noProg : s.cfg.prog = none)
    (safeA : s.cfg.safeA = none) (safeB : s.cfg.safeB = none) :
    ∃ t, Changes (.objectsVerified {}) s t [.safe, .cfg] [(.cfg, 4)] ∧ t.cfg.phase = .noConfig ∧ t.raised .cfg 4 = true ∧ t.safe.laneHOk = false := by
  have foundA : s.slotFound s.cfg.slotA true = s.cfg.slotA := by rw [slotA]; rfl
  have foundB : s.slotFound s.cfg.slotB true = s.cfg.slotB := by rw [slotB]; rfl
  have step := objectsVerified_exec s _ _ phase fresh key0 key1 foundA foundB (by rw [slotA]; rfl) (by rw [slotB]; rfl) noProg safeA safeB
  obtain ⟨v, hv⟩ : ∃ v : State, v = State.setSafe { s with cfg := { s.cfg with slotA := s.cfg.slotA, slotB := s.cfg.slotB, safeOnB := false, safeOk := false } }
    (withoutSafety s.safe) := ⟨_, rfl⟩
  have cfg : v.cfg = { s.cfg with safeOnB := false, safeOk := false } := by rw [hv]; simp
  have start : Moves s v [.safe, .cfg] [(.cfg, 4)] := hv ▸ (Moves.set (t := { s with cfg := _ }) : Moves s _ [.safe, .cfg] [(.cfg, 4)]).trans (State.moves_setSafe _ _ []).stay
  rw [← hv, chooseConfig_none v (by rw [cfg]; exact unmarked) (by rw [cfg, slotA]; decide) (by rw [cfg, slotB]; decide),
    checkStreams_none _ (by rw [State.cfg_setEvent, cfg]; exact noProg)] at step
  refine ⟨_, ((start.trans (Moves.set (t := { v with cfg := { v.cfg with phase := .noConfig } }))).setEvent .cfg 4 (by decide) (by simp)).changes step, ?_,
    State.raised_setEvent _ .cfg 4 (by decide), ?_⟩
  · rw [State.cfg_setEvent]
  · rw [State.safe_setEvent]
    change v.safe.laneHOk = false
    rw [hv, State.laneHOk_setSafe]
    rfl

theorem lanesStart_unsafe (s : State) (on : BitVec 8) (phase : s.cfg.phase = .verify) (loaded : s.cfg.loaded = true) (unmarked : s.cfg.marker = none)
    (stopped : s.cfg.lanes = false) (noSafe : s.cfg.safeOk = false) :
    ∃ t, Changes (.lanesStart on) s t [.safe, .time, .cfg] [(.safe, 14), (.safe, 15)] ∧ t.cfg.lanes = true ∧ t.cfg.phase = .twinSearch ∧
      t.raised .safe 14 = true ∧ t.safe.laneHOk = false ∧ t.time.sec = 0#64 ∧ t.time.ns = 0#32 := by
  obtain ⟨v, hv⟩ : ∃ v : State, v = s.setSafe (s.safe.lanesFresh false) := ⟨_, rfl⟩
  have start : Moves s v [.safe, .time, .cfg] [(.safe, 14), (.safe, 15)] := hv ▸ (s.moves_setSafe _ []).stay
  have stop : v.safe.laneHOk = false := by rw [hv, State.laneHOk_setSafe, lanesFresh_off]
  have cfg : v.cfg = s.cfg := by rw [hv]; exact (s.moves_setSafe _ []).cfg
  obtain ⟨moves, laneH, kept⟩ := lanePStart_facts v on stop
  obtain ⟨w, hw⟩ : ∃ w : State, w = (v.lanePStart on).report .safe 14 noObj 0#32 := ⟨_, rfl⟩
  have told : Moves s w [.safe, .time, .cfg] [(.safe, 14), (.safe, 15)] := hw ▸ (start.trans moves).report .safe 14 _ _ (by decide) (by simp)
  have raised : w.raised .safe 14 = true := hw ▸ State.raised_report _ .safe 14 _ _ (by decide)
  have phaseW : w.cfg.phase = .verify := by rw [hw, State.cfg_report, kept, cfg, phase]
  have laneW : w.safe.laneHOk = false := by rw [hw, State.safe_report, laneH]
  have step : exec (.lanesStart on) s = .next { w with
      time := w.time.setTotal 0
      cfg := { w.cfg with lanes := true, searchAt := w.mod.uptime, phase := if w.cfg.phase == .verify then .twinSearch else w.cfg.phase } } := by
    change execLanesStart on s = _
    have report : (v.lanePStart on).reportIf (!(v.lanePStart on).cfg.safeOk) .safe 14 noObj 0#32 = w := by
      rw [kept, cfg, noSafe, hw]
      rfl
    unfold execLanesStart
    dsimp only
    rw [if_neg (by simp [phase, loaded, unmarked, stopped]), noSafe, ← hv, report]
  rw [phaseW] at step
  exact ⟨_, (told.trans (Moves.set (t := { w with time := _, cfg := _ }))).changes step, rfl, rfl, raised, laneW, rfl, rfl⟩

/-- Settles O14: supplies, temperature and the steps of start-up, a lemma for each clause. -/
theorem startUp : Obligations.StartUp :=
  ⟨supplyLost_a, supplyLost_b, supplyBack_a, supplyBack_b, thermalWarn_on, thermalWarn_off, powerUp_starts, powerUp_noReserve, powerUp_ignored,
    firmwareVerified_own, firmwareVerified_other, firmwareVerified_none, objectsVerified_slotA, objectsVerified_noConfig, lanesStart_unsafe⟩

end Sys2Proof.Machine

namespace Sys2Proof.Machine
set_option Elab.async false

/-! First commissioning (16 R459, R460). -/

theorem commission_refused (s : State) (bad : s.commissionOk = false) : RunsTo .commission s s [(.cfg, 11)] :=
  .setEvent (congrArg Host.Outcome.next (if_neg (by simp [bad]))) rfl (by decide)

/-- A task as first commissioning leaves it has run no cycle and has no record (02 R43, R47). -/
theorem TaskSt.commissioned_fresh (t : TaskSt) (p : TaskProg) : (t.commissioned p).cycle = 0#64 ∧ (t.commissioned p).run = none ∧
    (t.commissioned p).record = none ∧ (t.commissioned p).floor = 0#64 := ⟨rfl, rfl, rfl, rfl⟩

theorem commission_clears (s : State) (ok : s.commissionOk = true) : ∃ t, Changes .commission s t [.ax, .pnl, .cyc, .xch, .cfg] [] ∧
    t.cfg = { s.cfg with marker := some (s.cfg.slotLoaded, s.cfg.active.seq) } ∧ t.xch.cur = {} ∧ t.xch.old = {} ∧ t.cyc.mode = .stop ∧
    t.cyc.target = .stop ∧ t.cyc.bps = [] ∧ t.cyc.steps = [] ∧
    ∀ n : Nat, n < 32 → (t.task n).cycle = 0#64 ∧ (t.task n).run = none ∧ (t.task n).record = none ∧ (t.task n).floor = 0#64 := by
  obtain ⟨v, hv⟩ : ∃ v : State, v = { s with cfg := { s.cfg with marker := some (s.cfg.slotLoaded, s.cfg.active.seq) } } := ⟨_, rfl⟩
  have step : exec .commission s = .next v.pnlComplete.clearPartition := congrArg Host.Outcome.next ((if_pos ok).trans (by rw [hv]))
  have marked : Moves s v [.cfg] [] := hv ▸ Moves.set (t := { s with cfg := _ })
  have panel := pnlComplete_moves v []
  obtain ⟨moves, cfg, cur, old, mode, target, bps, steps, tasks⟩ := clearPartition_facts v.pnlComplete
  refine ⟨_, ((marked.stay.trans panel.stay).trans moves.stay).changes step, ?_, cur, old, mode, target, bps, steps, fun n h => ?_⟩
  · rw [cfg, panel.cfg, hv]
  · rw [tasks n h]
    exact TaskSt.commissioned_fresh _ _

theorem commissionDone_ends (s : State) (marked : s.cfg.marker.isSome = true) (loaded : s.cfg.loaded = true) : RunsTo .commissionDone s { s with
    cfg := { s.cfg with keys0 := some s.cfg.cur.keys, keys1 := some s.cfg.cur.keys, keyBad0 := false, keyBad1 := false
                        marker := none, armed := none, commCnt := Bits.inc s.cfg.commCnt }
    cyc := { s.cyc with resumeCnt := 0#32, tasks := Tbl.map {} (fun t => { t with overruns := 0#32 }) s.cyc.tasks }
    xch := { s.xch with completes := 0#32 }
    recorder := { s.recorder with annexTotal := 0 }
    pnl := { s.pnl with slots := s.pnl.slots.filter (fun e => match e.2.cur with | some j => j.active | none => false) } } [(.cfg, 10)] := by
  obtain ⟨e, he⟩ := Option.isSome_iff_exists.mp marked
  obtain ⟨u, hu⟩ : ∃ u : State, u = { s with
    cfg := { s.cfg with keys0 := some s.cfg.cur.keys, keys1 := some s.cfg.cur.keys, keyBad0 := false, keyBad1 := false
                        marker := none, armed := none, commCnt := Bits.inc s.cfg.commCnt }
    cyc := { s.cyc with resumeCnt := 0#32, tasks := Tbl.map {} (fun t => { t with overruns := 0#32 }) s.cyc.tasks }
    xch := { s.xch with completes := 0#32 }
    recorder := { s.recorder with annexTotal := 0 }
    pnl := { s.pnl with slots := s.pnl.slots.filter (fun e => match e.2.cur with | some j => j.active | none => false) } } := ⟨_, rfl⟩
  have step : exec .commissionDone s = .next ((u.note 0 0x102 ((Bits.inc s.cfg.commCnt).setWidth 64)).setEvent .cfg 10) := by
    rw [hu]
    exact if_neg (by simp [he, loaded])
  have told : u.Raises (u.note 0 0x102 ((Bits.inc s.cfg.commCnt).setWidth 64)) [] := State.raises_note _ _ _ _
  rw [← hu]
  refine .mk _ step ?_ ((told.from (by rw [hu])).setEvent .cfg 10 (by decide))
  rw [State.bare_setEvent, State.bare_note]

theorem commissionDone_unmarked (s : State) (unmarked : s.cfg.marker = none) : exec .commissionDone s = .next s := if_pos (by simp [unmarked])

theorem commissionArmExpiry_due (s : State) (t : Nat) (armed : s.cfg.armed = some t) (due : t + 10000000000 ≤ s.nowNs) :
    exec .commissionArmExpiry s = .next { s with cfg := { s.cfg with armed := none } } := by
  change execCommissionArmExpiry s = _
  simp only [execCommissionArmExpiry, armed, due, if_true]

theorem commissionArmExpiry_early (s : State) (early : ∀ t, s.cfg.armed = some t → s.nowNs < t + 10000000000) : exec .commissionArmExpiry s = .next s := by
  change execCommissionArmExpiry s = _
  unfold execCommissionArmExpiry
  cases armed : s.cfg.armed with
  | none => rfl
  | some t => exact congrArg Host.Outcome.next (if_neg (Nat.not_le.mpr (early t armed)))

/-- Settles O16: COMMISSION, its completion and the expiry of ARM, a lemma for each clause. -/
theorem commissioning : Obligations.Commissioning :=
  ⟨commission_refused, commission_clears, commissionDone_ends, commissionDone_unmarked, commissionArmExpiry_due, commissionArmExpiry_early⟩

end Sys2Proof.Machine

namespace Sys2Proof.Machine
set_option Elab.async false

/-! What the recorder does by itself (13 R374-R377, R381-R392), and the window selection (13 R394). -/

/-! RECORD_WRITE. -/

/-- With no lost capture no record of one is owed (13 R382). -/
theorem State.reportLost_none {s : State} (clean : ∀ e ∈ s.recorder.trigs, e.2.lost = 0) : s.reportLost = s := by
  have owed : s.recorder.trigs.filter (fun e => decide (0 < e.2.lost)) = [] :=
    List.filter_eq_nil_iff.mpr (fun e mem => by simp [clean e mem])
  unfold State.reportLost
  rw [owed]
  rfl

/-- Which slot is good does not hang on what waits to be written. -/
theorem Recorder.goodSlot_withQueue (r : Recorder) (l : List RecReq) : ∀ k slot, ({ r with queue := l } : Recorder).goodSlot k slot = r.goodSlot k slot
  | 0, _ => rfl
  | k + 1, slot => by
    have good : ({ r with queue := l } : Recorder).emberGood slot = r.emberGood slot := rfl
    simp only [Recorder.goodSlot, good, r.goodSlot_withQueue l k]

/-- A record with a number below 65 536 enters the peat layer where its place is free (13 R376). -/
theorem Recorder.put_peat {r : Recorder} {a : Record} (low : a.peat = true) (fresh : r.peat.all (fun e => e.1 != a.seq.toNat) = true) :
    (a.seq.toNat, a) ∈ (r.put a).peat := by
  have layer : (r.put a).peat = Tbl.insert a.seq.toNat a r.peat := if_pos (by rw [low, fresh]; rfl)
  rw [layer]
  exact Tbl.mem_insert.mpr (.inl rfl)

theorem recordWrite_writes (s : State) (q : RecReq) (l : List RecReq) (works : s.recorder.failed = false) (up : s.svDown = false)
    (queue : s.recorder.queue = q :: l) (clean : ∀ e ∈ s.recorder.trigs, e.2.lost = 0) :
    ∃ t, Changes .recordWrite s t [.recorder, .done] [(.recorder, 4), (.recorder, 6)] ∧ t.recorder.head = s.recorder.head + 1#64 ∧
      Tbl.get {} t.recorder.ember (s.recorder.goodSlot 2048 s.recorder.slot) = s.recordOf q ∧
      t.recorder.slot = (s.recorder.goodSlot 2048 s.recorder.slot + 1) % 262144 ∧
      (∀ k r, (k, r) ∈ s.recorder.peat → (k, r) ∈ t.recorder.peat) ∧
      ((s.recorder.head + 1#64).toNat < 65536 → s.recorder.peat.all (fun e => e.1 != (s.recorder.head + 1#64).toNat) = true →
        ((s.recorder.head + 1#64).toNat, s.recordOf q) ∈ t.recorder.peat) := by
  obtain ⟨v, hv⟩ : ∃ v : State, v = { s with recorder := { s.recorder with queue := l } } := ⟨_, rfl⟩
  obtain ⟨r, hr⟩ : ∃ r : Recorder, r = v.recorder := ⟨_, rfl⟩
  have record : v.recordOf q = s.recordOf q := by subst hv; rfl
  have slot : r.goodSlot 2048 r.slot = s.recorder.goodSlot 2048 s.recorder.slot := by
    rw [hr, hv]
    exact s.recorder.goodSlot_withQueue l 2048 _
  have peat : r.peat = s.recorder.peat := by rw [hr, hv]
  have step : exec .recordWrite s = .next (v.writeReq q) := by
    refine (if_neg (by simp [works, up])).trans (congrArg Host.Outcome.next ?_)
    rw [State.reportLost_none clean, State.writeFront, queue, hv]
  obtain ⟨moves, written⟩ := v.writeReq_facts q
  rw [← hr, record] at written
  have same : Moves s v [.recorder, .done] [(.recorder, 4), (.recorder, 6)] := by subst hv; exact .set
  have layer : (v.writeReq q).recorder.peat = (r.put (s.recordOf q)).peat := (congrArg Recorder.peat written : _)
  refine ⟨v.writeReq q, (same.trans moves).changes step, (congrArg Recorder.head written : _), ?_, ?_, fun k e mem => ?_, fun low fresh => ?_⟩
  · rw [show (v.writeReq q).recorder.ember = (r.put (s.recordOf q)).ember from (congrArg Recorder.ember written : _), ← slot]
    exact Tbl.get_set_self _ _ _ _
  · rw [show (v.writeReq q).recorder.slot = (r.put (s.recordOf q)).slot from (congrArg Recorder.slot written : _), ← slot]
    rfl
  · rw [layer]
    exact Recorder.peat_put _ _ _ (by rwa [peat])
  · rw [layer]
    exact Recorder.put_peat (decide_eq_true low) (by rwa [peat])

/-! HOLDOFF_EXPIRY and QUOTA_WINDOW. -/

theorem holdoffExpiry_ends (s : State) (n : Fin 256) (holding : (Tbl.get {} s.recorder.trigs n).holding = true)
    (due : (Tbl.get {} s.recorder.trigs n).firedNs + (Tbl.get {} s.recorder.trigDefs n).holdoff * 1000000 ≤ s.nowNs) :
    exec (.holdoffExpiry n) s = .next { s with recorder := { s.recorder with
      trigs := Tbl.set {} s.recorder.trigs n { Tbl.get {} s.recorder.trigs n with holding := false } } } :=
  if_neg (by simp [Recorder.heldOut, holding, due])

theorem holdoffExpiry_early (s : State) (n : Fin 256)
    (early : s.nowNs < (Tbl.get {} s.recorder.trigs n).firedNs + (Tbl.get {} s.recorder.trigDefs n).holdoff * 1000000) :
    exec (.holdoffExpiry n) s = .next s :=
  if_pos (by simp [Recorder.heldOut, early])

theorem quotaWindow_open (s : State) (same : s.nowNs / 1000000000 = s.recorder.winSec) : exec .quotaWindow s = .next s :=
  congrArg Host.Outcome.next (if_pos same)

theorem quotaWindow_quiet (s : State) (later : s.nowNs / 1000000000 ≠ s.recorder.winSec) (quiet : s.recorder.refused = [] ∨ s.recorder.failed = true) :
    exec .quotaWindow s = .next { s with recorder := { s.recorder with winSec := s.nowNs / 1000000000, use := [], refused := [] } } := by
  refine congrArg Host.Outcome.next ((if_neg later).trans ?_)
  cases failed : s.recorder.failed with
  | true => exact if_pos failed
  | false =>
    have clean : s.recorder.refused = [] := by simpa [failed] using quiet
    refine (if_neg (by simp [failed])).trans ?_
    rw [clean]
    rfl

theorem State.tickStart_withRecorder (s : State) (r : Recorder) : ({ s with recorder := r } : State).tickStart = s.tickStart := rfl
theorem State.refCycle_withRecorder (s : State) (r : Recorder) : ({ s with recorder := r } : State).refCycle = s.refCycle := rfl

/-- A window opens after refusals of one source (13 R384). -/
theorem State.openWindow_tells {s : State} {src n : Nat} (sec : Nat) (works : s.recorder.failed = false) (refused : s.recorder.refused = [(src, n)]) :
    s.openWindow sec = { s with recorder := { s.recorder with
      winSec := sec, use := Tbl.set 0 [] 12 1, refused := []
      queue := enqueueFirst { source := 12, code := 0x100, time := s.tickStart, cycle := s.refCycle
                              detail := BitVec.ofNat 64 (src * 4294967296 + min n 4294967295) } s.recorder.queue } } := by
  have told : s.openWindow sec = State.suppressed { s with recorder := { s.recorder with winSec := sec, use := [], refused := [] } } src n := by
    refine (if_neg (by simp [works])).trans ?_
    simp only [refused, List.reverse_singleton, List.foldl_cons, List.foldl_nil]
  have use : Tbl.mod 0 ([] : Tbl Nat) 12 (· + 1) = Tbl.set 0 [] 12 1 := rfl
  rw [told]
  simp only [State.suppressed, use, State.tickStart_withRecorder, State.refCycle_withRecorder]

theorem quotaWindow_tells (s : State) (src n : Nat) (later : s.nowNs / 1000000000 ≠ s.recorder.winSec) (works : s.recorder.failed = false)
    (refused : s.recorder.refused = [(src, n)]) : exec .quotaWindow s = .next { s with recorder := { s.recorder with
      winSec := s.nowNs / 1000000000, use := Tbl.set 0 [] 12 1, refused := []
      queue := enqueueFirst { source := 12, code := 0x100, time := s.tickStart, cycle := s.refCycle
                              detail := BitVec.ofNat 64 (src * 4294967296 + min n 4294967295) } s.recorder.queue } } := by
  have step : exec .quotaWindow s = .next (s.openWindow (s.nowNs / 1000000000)) := congrArg Host.Outcome.next (if_neg later)
  exact step.trans (congrArg Host.Outcome.next (State.openWindow_tells _ works refused))

/-! MEM_FAULT. -/

/-- The parts that a memory fault moves, and the EVENT bits that it may set. -/
abbrev faultParts : List Part := [.recorder, .twin, .done]
abbrev faultBits : List (Block × Nat) := [(.recorder, 0), (.recorder, 1), (.recorder, 2), (.recorder, 3), (.recorder, 4), (.recorder, 6)]

/-- What a memory fault leads to, once its block is marked and the annex holds it. -/
def FaultStep (s t : State) : Prop :=
  Moves s t faultParts faultBits ∧
    t.recorder.bad = s.recorder.bad ∧ t.recorder.annexTotal = s.recorder.annexTotal

theorem FaultStep.refl (s : State) : FaultStep s s := ⟨.refl _ _ _, rfl, rfl⟩

theorem FaultStep.trans {s t u : State} (first : FaultStep s t) (second : FaultStep t u) : FaultStep s u :=
  ⟨first.1.trans second.1, second.2.1.trans first.2.1, second.2.2.trans first.2.2⟩

theorem FaultStep.ite {s t u : State} {c : Prop} [Decidable c] (yes : FaultStep s t) (no : FaultStep s u) : FaultStep s (if c then t else u) := by
  split
  · exact yes
  · exact no

/-- What moves the recorder only as a report does. -/
theorem FaultStep.of_moves {s t : State}
    (moves : Moves s t faultParts faultBits)
    (same : t.recorder.bare = s.recorder.bare) : FaultStep s t := by
  obtain ⟨bad, -, total⟩ := recorder_bare_bad same
  exact ⟨moves, bad, total⟩

/-- Another recorder with the same bad blocks and annex. -/
theorem FaultStep.withRecorder (s : State) (r : Recorder) (bad : r.bad = s.recorder.bad) (total : r.annexTotal = s.recorder.annexTotal) :
    FaultStep s { s with recorder := r } := ⟨.set, bad, total⟩

theorem FaultStep.setEvent (s : State) (n : Nat) (listed : n = 2 ∨ n = 3) : FaultStep s (s.setEvent .recorder n) :=
  .of_moves ((Moves.refl s _ _).setEvent .recorder n (by omega) (by rcases listed with rfl | rfl <;> simp)) (by simp)

theorem FaultStep.eventEntry (s : State) (e : EventEntry) : FaultStep s (s.eventEntry e) :=
  .of_moves (s.moves_eventEntry e []).stay (by simp)

theorem FaultStep.finish (s : State) (o : Origin) (status detail : Nat) : FaultStep s (s.finish o status detail) :=
  .of_moves ((Moves.refl s _ _).finish o status detail (by simp)) (by simp)

theorem FaultStep.foldl {α : Type} (f : State → α → State) (h : ∀ (s : State) (a : α), FaultStep s (f s a)) (x : List α) (s : State) :
    FaultStep s (x.foldl f s) := by
  induction x generalizing s with
  | nil => exact .refl s
  | cons a x ih => exact (h s a).trans (ih _)

theorem FaultStep.olvia (s : State) (o : OlviaOut) : FaultStep s (s.olvia o) := by
  have same : (s.olvia o).recorder = s.recorder := by
    unfold State.olvia
    split <;> rfl
  exact .of_moves (s.moves_olvia o []).stay (congrArg Recorder.bare same)

theorem FaultStep.writeReq (s : State) (q : RecReq) : FaultStep s (s.writeReq q) := by
  obtain ⟨moves, written⟩ := s.writeReq_facts q
  obtain ⟨bad, -, total⟩ := recorder_bare_bad written
  exact ⟨moves.stay, bad, total⟩

/-- The recorder enters FAILED (13 R391). -/
theorem FaultStep.recFail (s : State) : FaultStep s s.recFail := by
  unfold State.recFail
  extract_lets queue kept fails
  refine .ite (.refl s) (((FaultStep.withRecorder s { s.recorder with failed := true, queue := queue.filter kept } rfl rfl).trans
    (.setEvent _ 2 (.inl rfl))).trans (.foldl _ (fun s q => ?_) _ _))
  exact (FaultStep.ite (.eventEntry s _) (.refl s)).trans (.finish _ _ _ _)

/-- The fault is told to the partner and to the host, and recorded (13 R387, R391). -/
theorem FaultStep.memReport (s : State) (d : DWord) : FaultStep s (s.memReport d) := by
  have counted : FaultStep s (State.setEvent { s with recorder := s.recorder.countRefusal 12 } .recorder 3) :=
    (FaultStep.withRecorder s (s.recorder.countRefusal 12) rfl rfl).trans (.setEvent _ 3 (.inr rfl))
  unfold State.memReport
  split
  · exact (FaultStep.ite (.refl s) counted).trans ((FaultStep.olvia _ _).trans (.eventEntry _ _))
  · refine FaultStep.trans (.olvia s (.memFault s.unitNo (s.recorder.head + 1#64) d s.tickStart s.refCycle)) ?_
    dsimp only
    generalize s.olvia _ = told
    exact (FaultStep.withRecorder told { told.recorder with use := Tbl.mod 0 told.recorder.use 12 (· + 1) } rfl rfl).trans (.writeReq _ _)

theorem Recorder.peatSpare_keeps (r : Recorder) (b : Nat) (l : List Nat) (f : Nat → Record) :
    (r.peatSpare b l f).bad = r.bad ∧ (r.peatSpare b l f).annexTotal = r.annexTotal := by
  unfold Recorder.peatSpare
  split
  · exact ⟨rfl, rfl⟩
  · split <;> exact ⟨rfl, rfl⟩

/-- The block that failed is marked, whether it was or not. -/
theorem Recorder.mem_markBad (r : Recorder) (a : RecArea) (b : Nat) : (a, b) ∈ (r.markBad a b).bad := by
  change (a, b) ∈ if r.bad.contains (a, b) then r.bad else r.bad ++ [(a, b)]
  split
  · rename_i marked
    exact List.contains_iff_mem.mp marked
  · simp

theorem Recorder.annexPut_total {r : Recorder} (e : Record) (ok : r.annexOk = true) : (r.annexPut e).annexTotal = r.annexTotal + 1 :=
  (congrArg Recorder.annexTotal (if_pos ok) : _)

theorem Recorder.annexPut_bad (r : Recorder) (e : Record) : (r.annexPut e).bad = r.bad := by
  unfold Recorder.annexPut
  split <;> rfl

/-- The first part of a memory fault: the block is marked and the annex takes the fault. -/
def State.annexed (s : State) (a : RecArea) (b : Nat) (d : DWord) : State :=
  let s := { s with recorder := s.recorder.markBad a b }.setEventIf (!s.recorder.bad.contains (a, b)) .recorder 1
  { s with recorder := s.recorder.annexPut (s.recordOf (s.memReq d)) }

theorem State.annexed_facts (s : State) (a : RecArea) (b : Nat) (d : DWord) :
    Moves s (s.annexed a b d) faultParts faultBits ∧
      ((a, b) ∉ s.recorder.bad → (s.annexed a b d).raised .recorder 1 = true) ∧ (a, b) ∈ (s.annexed a b d).recorder.bad ∧
      (s.recorder.annexOk = true → (s.annexed a b d).recorder.annexTotal = s.recorder.annexTotal + 1) := by
  obtain ⟨v, hv⟩ : ∃ v : State, v = { s with recorder := s.recorder.markBad a b } := ⟨_, rfl⟩
  obtain ⟨w, hw⟩ : ∃ w : State, w = v.setEventIf (!s.recorder.bad.contains (a, b)) .recorder 1 := ⟨_, rfl⟩
  have shape : s.annexed a b d = { w with recorder := w.recorder.annexPut (w.recordOf (w.memReq d)) } := by rw [hw, hv]; rfl
  obtain ⟨bad, ok, total⟩ := recorder_bare_bad (r := w.recorder) (q := v.recorder) (by rw [hw]; simp)
  have marked : Moves s v faultParts faultBits := by
    subst hv; exact .set
  have first : Moves s w faultParts faultBits := by
    rw [hw]; exact marked.setEventIf _ .recorder 1 (by decide) (by simp)
  rw [shape]
  refine ⟨first.trans .set, fun fresh => ?_, ?_, fun annexOk => ?_⟩
  · have raised : w = v.setEvent .recorder 1 := by rw [hw]; exact if_pos (by simpa using fresh)
    change w.raised .recorder 1 = true
    rw [raised]
    exact (v.raises_setEvent .recorder 1 (by decide)).2.1 (.recorder, 1) (by simp)
  · rw [show State.recorder { w with recorder := w.recorder.annexPut (w.recordOf (w.memReq d)) } = w.recorder.annexPut (w.recordOf (w.memReq d)) from rfl,
      Recorder.annexPut_bad, bad, hv]
    exact s.recorder.mem_markBad a b
  · have good : w.recorder.annexOk = true := by rw [ok, hv]; exact annexOk
    refine (Recorder.annexPut_total _ good).trans ?_
    rw [total, hv]
    rfl

theorem memFault_told (s : State) (a : RecArea) (b : Nat) (verify : Bool) (readable : List Nat) :
    ∃ t, Changes (.memFault a b verify readable) s t [.recorder, .twin, .done]
        [(.recorder, 0), (.recorder, 1), (.recorder, 2), (.recorder, 3), (.recorder, 4), (.recorder, 6)] ∧
      t.raised .recorder 0 = true ∧ ((a, b) ∉ s.recorder.bad → t.raised .recorder 1 = true) ∧ (a, b) ∈ t.recorder.bad ∧
      (s.recorder.annexOk = true → t.recorder.annexTotal = s.recorder.annexTotal + 1) := by
  obtain ⟨first, marked, bad, total⟩ := s.annexed_facts a b (memDetail a b verify)
  obtain ⟨v, hv⟩ : ∃ v, v = s.annexed a b (memDetail a b verify) := ⟨_, rfl⟩
  obtain ⟨w, hw⟩ : ∃ w, w = State.setEventN 3 v .recorder 0 false := ⟨_, rfl⟩
  rw [← hv] at first marked bad total
  have raises : v.Raises w [(.recorder, 0)] := by rw [hw]; exact State.raises_setEventN 3 v .recorder 0 false (by decide)
  have second : FaultStep v w := .of_moves ⟨State.sans_of_bare (by rw [hw]; exact State.bare_setEventN ..) _, raises.may (by simp)⟩ (by rw [hw]; simp)
  have rest : ∃ t, exec (.memFault a b verify readable) s = .next t ∧ FaultStep w t := by
    change ∃ t, execMemFault a b verify readable s = .next t ∧ FaultStep w t
    unfold execMemFault
    extract_lets d again l s1 s2 s3 s4 s5
    have start : s3 = w := by rw [hw, hv]; rfl
    have third : FaultStep w s4 := by
      rw [← start]
      refine .ite (.withRecorder s3 _ ?_ ?_) (.refl s3)
      · exact (s3.recorder.peatSpare_keeps b l s3.lostRecord).1
      · exact (s3.recorder.peatSpare_keeps b l s3.lostRecord).2
    have fourth : FaultStep w s5 := third.trans ((FaultStep.ite (.recFail s4) (.refl s4)).trans (.memReport _ _))
    clear_value s5 again
    cases again with
    | none => exact ⟨_, rfl, fourth⟩
    | some e => exact ⟨_, rfl, fourth.trans (.ite (.refl s5) (.withRecorder s5 _ rfl rfl))⟩
  obtain ⟨t, step, third⟩ := rest
  obtain ⟨moves, sameBad, sameTotal⟩ := second.trans third
  refine ⟨t, (first.trans moves).changes step, third.1.raised (raises.2.1 (.recorder, 0) (by simp)), fun fresh => moves.raised (marked fresh), ?_, fun ok => ?_⟩
  · rwa [sameBad]
  · rw [sameTotal, total ok]

/-! REC_WIN_SELECT. -/

/-- The access of REC_WIN_SEQ_HI. -/
theorem accessOf_recWin : isReg 0x3048 = true ∧ accessOf 0x3048 = (.rw, 0xFFFFFFFF#32) ∧ ringReg 0x3048 = none ∧ perRequester 0x3048 = true := by decide

/-- A requester that may write REC_WIN_SEQ_HI selects the window of its own. -/
theorem busWrite_recWin {s : State} {who : Requester} (w : Word) (may : (s.written who).mayWrite who 0x3048 = true) :
    s.busWrite who 0x3048 w = (s.written who).putSel who 0x3048 w := by
  obtain ⟨reg, access, ring, own⟩ := accessOf_recWin
  rw [State.busWrite_reg _ _ _ _ (by decide) (by decide),
    State.regWrite_plain _ _ _ _ _ _ reg (by rw [access]; decide) may (by rw [access]; decide), State.writeBits, access]
  simp [listedValue, State.putRw, ring, own]

/-- The window that REC_WIN_SEQ_HI selects. -/
theorem putSel_recWin_host (s : State) (w : Word) : s.putSel .host 0x3048 w = { s with
    mod := { s.mod with host := { s.mod.host with sels := Tbl.set 0#32 s.mod.host.sels 0x3048 w } }
    recorder := { s.recorder with window := Tbl.insert 0 (s.sel .host 0x3044, w) (Tbl.erase s.recorder.window 0) } } := by
  have low : Tbl.get 0#32 (Tbl.set 0#32 s.mod.host.sels 0x3048 w) 0x3044 = s.sel .host 0x3044 := Tbl.get_set_ne _ _ _ (by decide)
  rw [← low]
  rfl

theorem putSel_recWin_maint (s : State) (w : Word) : s.putSel .maint 0x3048 w = { s with
    mod := { s.mod with maint := { s.mod.maint with sels := Tbl.set 0#32 s.mod.maint.sels 0x3048 w } }
    recorder := { s.recorder with window := Tbl.insert 1 (s.sel .maint 0x3044, w) (Tbl.erase s.recorder.window 1) } } := by
  have low : Tbl.get 0#32 (Tbl.set 0#32 s.mod.maint.sels 0x3048 w) 0x3044 = s.sel .maint 0x3044 := Tbl.get_set_ne _ _ _ (by decide)
  rw [← low]
  rfl

theorem recWinSelect_host (s : State) (w : Word) : exec (.recWinSelect .host w) s = .next { s with
    mod := { s.mod with host := { s.mod.host with expired := none, sels := Tbl.set 0#32 s.mod.host.sels 0x3048 w } }
    recorder := { s.recorder with window := Tbl.insert 0 (s.sel .host 0x3044, w) (Tbl.erase s.recorder.window 0) } } :=
  congrArg Host.Outcome.next ((busWrite_recWin w rfl).trans (putSel_recWin_host _ w))

theorem recWinSelect_maint (s : State) (r : Rights) (w : Word) (session : s.mnt.session = some r) (writes : r.write = true) :
    exec (.recWinSelect .maint w) s = .next { s with
      mod := { s.mod with maint := { s.mod.maint with expired := none, sels := Tbl.set 0#32 s.mod.maint.sels 0x3048 w } }
      recorder := { s.recorder with window := Tbl.insert 1 (s.sel .maint 0x3044, w) (Tbl.erase s.recorder.window 1) } } := by
  have may : (s.written .maint).mayWrite .maint 0x3048 = true := by simp [State.mayWrite, State.written_maint, session, writes]
  exact congrArg Host.Outcome.next ((busWrite_recWin w may).trans (putSel_recWin_maint _ w))

theorem recWinSelect_refused (s : State) (w : Word) (closed : s.mnt.session = none) : RunsTo (.recWinSelect .maint w) s { s with
    mod := { s.mod with accessCnt := Bits.inc s.mod.accessCnt, maint := { s.mod.maint with expired := none } } } [(.mod, 1), (.mnt, 5)] := by
  obtain ⟨reg, access, -, -⟩ := accessOf_recWin
  have may : (s.written .maint).mayWrite .maint 0x3048 = false := by simp [State.mayWrite, State.written_maint, closed]
  have step : exec (.recWinSelect .maint w) s = .next ((s.written .maint).accessErr.setEvent .mnt 5) := by
    refine congrArg Host.Outcome.next ?_
    rw [State.busWrite_reg _ _ _ _ (by decide) (by decide), State.regWrite_refused _ _ _ _ _ _ reg (by rw [access]; decide) may]
    rfl
  obtain ⟨raises, bare⟩ := s.refused_maint
  exact .mk _ step bare raises

/-- Settles O53: the commands of the recorder and the window selection, a lemma for each clause. -/
theorem recorderEvents : Obligations.RecorderEvents :=
  ⟨recordWrite_writes, fun _ failed => .quiet (if_pos (by simp [failed])) rfl, holdoffExpiry_ends, holdoffExpiry_early, quotaWindow_open,
    quotaWindow_quiet, quotaWindow_tells, memFault_told, recWinSelect_host, recWinSelect_maint, recWinSelect_refused⟩

end Sys2Proof.Machine

namespace Sys2Proof.Machine
set_option Elab.async false

/-! Taking a descriptor, the access to its data buffer and the failure of that access (14 R401, R402, R417). -/

/-! SERVICE_PASS. -/

/-- A descriptor that nothing holds back is taken. -/
theorem State.serveRing_takes {s : State} {n : Fin 8} {d : Desc} (k : Nat) (on : (s.host.sq n).state = .enabled)
    (bound : (s.host.cq (s.host.sq n).bound).state = .enabled) (alone : s.host.taken = []) (may : s.mod.ready = true ∨ earlyOpcode d = true)
    (room : 0 < (s.host.cq (s.host.sq n).bound).room) : State.serveRing n (k + 1) [d] s = s.takeDesc n d := by
  have idle : s.host.inFlight n = 0 := by simp [HostBlk.inFlight, alone]
  have free : s.host.reserved (s.host.sq n).bound = 0 := by simp [HostBlk.reserved, alone]
  have early : (!s.mod.ready && !earlyOpcode d) = false := by rcases may with ready | early <;> simp [*]
  have last : State.serveRing n k [] (s.takeDesc n d) = s.takeDesc n d := by cases k <;> rfl
  unfold State.serveRing
  refine (if_neg (by simp [on, bound])).trans ((if_neg (by simp [idle])).trans ((if_neg (by simp [early])).trans ((if_neg ?_).trans last)))
  rw [free]
  omega

/-- A descriptor finds no room in its completion ring: CQ_FULL counts when the wait begins (14 R401). -/
theorem State.serveRing_waits {s : State} {n : Fin 8} {d : Desc} (k : Nat) (on : (s.host.sq n).state = .enabled)
    (bound : (s.host.cq (s.host.sq n).bound).state = .enabled) (plain : d.fence = false) (ready : s.mod.ready = true)
    (full : (s.host.cq (s.host.sq n).bound).room ≤ s.host.reserved (s.host.sq n).bound) :
    State.serveRing n (k + 1) [d] s = if (s.host.sq n).waiting then s else { s with
      host := (s.host.setCq (s.host.sq n).bound { s.host.cq (s.host.sq n).bound with full := Bits.sat 17 (s.host.cq (s.host.sq n).bound).full 1 }).setSq n
        { s.host.sq n with waiting := true } } := by
  unfold State.serveRing
  exact (if_neg (by simp [on, bound])).trans ((if_neg (by simp [plain])).trans ((if_neg (by simp [ready])).trans (if_pos full)))

theorem servicePass_stopped (s : State) (l : List (Fin 8 × List Desc)) (stopped : s.mod.failed = true ∨ s.svDown = true) :
    exec (.servicePass l) s = .next s := if_pos (by simpa using stopped)

theorem servicePass_nop (s : State) (n : Fin 8) (d : Desc) (works : s.mod.failed = false) (up : s.svDown = false) (master : s.host.busMaster = true)
    (noMnt : s.mnt.cmds = []) (on : (s.host.sq n).state = .enabled) (bound : (s.host.cq (s.host.sq n).bound).state = .enabled)
    (alone : s.host.taken = []) (used : 0 < (s.host.sq n).used) (room : 0 < (s.host.cq (s.host.sq n).bound).room) (nop : d.opcode = 0#8)
    (ok : descOk d = true) : EndsTo (.servicePass [(n, [d])]) s { s with
      host := s.host.setSq n { s.host.sq n with head := ((s.host.sq n).head + 1) % (s.host.sq n).size, waiting := false } } [] := by
  have listed : descListed d = true := by simp [descListed, nop]
  have unbuffered : descBuffered d = false := by simp [descBuffered, nop]
  obtain ⟨k, step⟩ := servicePass_one s n d works up master used
  obtain ⟨u, hu⟩ : ∃ u : State, u = { s with host := {
      s.host.setSq n { s.host.sq n with head := ((s.host.sq n).head + 1) % (s.host.sq n).size, waiting := false } with
      taken := s.host.taken ++ [{ sq := n.val, desc := d, reading := false, sinceNs := s.nowNs }] } } := ⟨_, rfl⟩
  have takes : s.takeDesc n d = u.finish (.host n d.tag) stOk 0 := by
    have carried : u.carryOut (.host n d.tag) d [] .none ({}, none) = u.finish (.host n d.tag) stOk 0 := by
      unfold State.carryOut
      rw [nop]
      rfl
    rw [← carried, State.takeDesc, State.beginDesc]
    simp only [listed, ok, unbuffered, Bool.not_true, Bool.false_eq_true, if_false, Bool.and_false, Bool.and_true]
    rw [hu]
    rfl
  have noneServed : (u.finish (.host n d.tag) stOk 0).serveMnt = u.finish (.host n d.tag) stOk 0 := by
    refine serveMnt_none _ ?_
    have kept : (u.finish (.host n d.tag) stOk 0).mnt = u.mnt := by
      change (u.completeHost n d.tag stOk 0 0#64 []).mnt = u.mnt
      unfold State.completeHost
      split
      · rfl
      · split <;> rfl
    rw [kept, hu]
    exact noMnt
  rw [State.serveRing_takes k on bound alone (.inr (by simp [earlyOpcode, nop])) room, takes, noneServed] at step
  refine .mk _ step ?_ (.of_event ((State.event_finish ..).trans (by rw [hu])))
  rw [State.sans_finish _ (by simp), hu]
  rfl

theorem servicePass_waits (s : State) (n : Fin 8) (d : Desc) (works : s.mod.failed = false) (up : s.svDown = false) (master : s.host.busMaster = true)
    (noMnt : s.mnt.cmds = []) (on : (s.host.sq n).state = .enabled) (bound : (s.host.cq (s.host.sq n).bound).state = .enabled)
    (plain : d.fence = false) (ready : s.mod.ready = true) (used : 0 < (s.host.sq n).used)
    (full : (s.host.cq (s.host.sq n).bound).room ≤ s.host.reserved (s.host.sq n).bound) :
    exec (.servicePass [(n, [d])]) s = .next (if (s.host.sq n).waiting then s else { s with
      host := (s.host.setCq (s.host.sq n).bound { s.host.cq (s.host.sq n).bound with full := Bits.sat 17 (s.host.cq (s.host.sq n).bound).full 1 }).setSq n
        { s.host.sq n with waiting := true } }) := by
  obtain ⟨k, step⟩ := servicePass_one s n d works up master used
  rw [State.serveRing_waits k on bound plain ready full, serveMnt_none] at step
  · exact step
  · split
    · exact noMnt
    · exact noMnt

theorem servicePass_reads (s : State) (n : Fin 8) (d : Desc) (works : s.mod.failed = false) (up : s.svDown = false) (master : s.host.busMaster = true)
    (noMnt : s.mnt.cmds = []) (on : (s.host.sq n).state = .enabled) (bound : (s.host.cq (s.host.sq n).bound).state = .enabled)
    (alone : s.host.taken = []) (ready : s.mod.ready = true) (used : 0 < (s.host.sq n).used) (room : 0 < (s.host.cq (s.host.sq n).bound).room)
    (listed : descListed d = true) (ok : descOk d = true) (buffered : descBuffered d = true) :
    exec (.servicePass [(n, [d])]) s = .next { s with host := {
      s.host.setSq n { s.host.sq n with head := ((s.host.sq n).head + 1) % (s.host.sq n).size, waiting := false } with
      taken := [{ sq := n.val, desc := d, reading := true, sinceNs := s.nowNs }] } } := by
  obtain ⟨k, step⟩ := servicePass_one s n d works up master used
  have takes : s.takeDesc n d = { s with host := {
      s.host.setSq n { s.host.sq n with head := ((s.host.sq n).head + 1) % (s.host.sq n).size, waiting := false } with
      taken := [{ sq := n.val, desc := d, reading := true, sinceNs := s.nowNs }] } } := by
    rw [State.takeDesc, State.beginDesc]
    simp only [listed, ok, buffered, Bool.not_true, Bool.false_eq_true, if_false, if_true, Bool.and_true, HostBlk.setSq, alone, List.nil_append]
  rw [State.serveRing_takes k on bound alone (.inl ready) room, takes, serveMnt_none _ (by exact noMnt)] at step
  exact step

/-! DATA_READ_DONE. -/

theorem wordsOf_length (data : List Byte) (n : Nat) : (wordsOf data n).length = n := by simp [wordsOf]

/-- A REC_NOTE that the recorder takes (14 R405). -/
theorem execRecNote_takes {s : State} {o : Origin} {detail : DWord} {ws : List Word} (short : ws.length ≤ 112) (works : s.recorder.failed = false)
    (quota : s.recorder.overQuota 13 = false) : execRecNote o detail ws s = .next (State.passed { s with
      recorder := s.recorder.obtain { source := 13, code := 0x100, time := s.tickStart, cycle := s.refCycle, detail := detail, words := ws, origin := o } } o) := by
  refine (if_neg (Nat.not_lt.mpr short)).trans (congrArg Host.Outcome.next ?_)
  have asks : s.request { source := 13, code := 0x100, time := s.tickStart, cycle := s.refCycle, detail := detail, words := ws, origin := o } =
      ({ s with recorder := s.recorder.obtain { source := 13, code := 0x100, time := s.tickStart, cycle := s.refCycle, detail := detail, words := ws, origin := o } }, true) :=
    (if_neg (by simp [works])).trans (if_neg (by simp [quota]))
  rw [asks]
  rfl

theorem dataReadDone_notes (s : State) (n : Fin 8) (d : Desc) (k : Nat) (data : List Byte) (o : ImageObj) (p : Package × Option Nat)
    (master : s.host.busMaster = true) (up : s.svDown = false) (works : s.mod.failed = false)
    (taken : s.host.taken = [{ sq := n.val, desc := d, reading := true, sinceNs := k }]) (note : d.opcode = 0x0F#8)
    (len : d.dataLen = 4 * Bits.leAt d.params 8 1) (short : Bits.leAt d.params 8 1 ≤ 112) (writes : s.recorder.failed = false)
    (quota : s.recorder.overQuota 13 = false) : exec (.dataReadDone n d.tag data o p) s = .next { s with
      host := { s.host with taken := [{ sq := n.val, desc := d, reading := false, sinceNs := k, passed := true }] }
      recorder := s.recorder.obtain { source := 13, code := 0x100, time := s.tickStart, cycle := s.refCycle
                                      detail := BitVec.ofNat 64 (Bits.leAt d.params 0 8), words := wordsOf data (Bits.leAt d.params 8 1)
                                      origin := .host n d.tag } } := by
  obtain ⟨u, hu⟩ : ∃ u : State, u = { s with host := { s.host with taken := [{ sq := n.val, desc := d, reading := false, sinceNs := k }] } } := ⟨_, rfl⟩
  have found : s.host.readDone n d.tag = some ({ sq := n.val, desc := d, reading := true, sinceNs := k },
      { s.host with taken := [{ sq := n.val, desc := d, reading := false, sinceNs := k }] }) := by
    simp [HostBlk.readDone, taken, takeFirst, Taken.isFor]
  have step : exec (.dataReadDone n d.tag data o p) s = .next (u.carryOut (.host n d.tag) d data o p) := by
    change execDataReadDone n d.tag data o p s = _
    simp only [execDataReadDone, master, up, works, Bool.not_true, Bool.or_self, Bool.false_eq_true, if_false, found, hu]
  have carried : u.carryOut (.host n d.tag) d data o p =
      u.after (execRecNote (.host n d.tag) (BitVec.ofNat 64 (Bits.leAt d.params 0 8)) (wordsOf data (Bits.leAt d.params 8 1)) u) := by
    unfold State.carryOut
    rw [note]
    exact if_neg (not_not.mpr len)
  have noted := execRecNote_takes (s := u) (o := .host n d.tag) (detail := BitVec.ofNat 64 (Bits.leAt d.params 0 8))
    (ws := wordsOf data (Bits.leAt d.params 8 1)) (by rwa [wordsOf_length]) (by rw [hu]; exact writes) (by rw [hu]; exact quota)
  rw [step, carried, noted]
  refine congrArg Host.Outcome.next ?_
  have tick : u.tickStart = s.tickStart := by rw [hu]; rfl
  have cycle : u.refCycle = s.refCycle := by rw [hu]; rfl
  rw [tick, cycle, hu]
  simp [State.after, State.passed, Taken.isFor]

theorem dataReadDone_paused (s : State) (n : Fin 8) (tag : Word) (data : List Byte) (o : ImageObj) (p : Package × Option Nat)
    (paused : s.host.busMaster = false ∨ s.svDown = true ∨ s.mod.failed = true) : exec (.dataReadDone n tag data o p) s = .next s :=
  if_pos (by rcases paused with off | down | failed <;> simp [*])

/-! DMA_FAILURE. -/

/-- An access that runs finds its descriptor, which was taken and reads. -/
theorem HostBlk.readDone_found {h : HostBlk} {sq : Nat} {tag : Word} {a : Taken} (mem : a ∈ h.taken) (ring : a.sq = sq) (named : a.desc.tag = tag)
    (reads : a.reading = true) : ∃ t l, h.readDone sq tag = some (t, { h with taken := l }) ∧ t ∈ h.taken ∧ t.sq = sq ∧ t.desc.tag = tag ∧ t.reading = true := by
  have first : ∀ l : List Taken, a ∈ l → ∃ t rest, takeFirst (fun t => t.isFor sq tag && t.reading) l = some (t, rest) ∧ t ∈ l ∧
      (t.isFor sq tag && t.reading) = true := by
    intro l
    induction l with
    | nil => intro mem; cases mem
    | cons b l ih =>
      intro mem
      by_cases fits : (b.isFor sq tag && b.reading) = true
      · exact ⟨b, l, if_pos fits, by simp, fits⟩
      · have later : a ∈ l := by
          rcases List.mem_cons.mp mem with same | later
          · subst same
            exact absurd (by simp [Taken.isFor, ring, named, reads]) fits
          · exact later
        obtain ⟨t, rest, found, inside, good⟩ := ih later
        exact ⟨t, b :: rest, (if_neg fits).trans (by rw [found]; rfl), by simp [inside], good⟩
  obtain ⟨t, rest, found, inside, good⟩ := first h.taken mem
  obtain ⟨⟨sameRing, sameTag⟩, reading⟩ : (t.sq = sq ∧ t.desc.tag = tag) ∧ t.reading = true := by simpa [Taken.isFor] using good
  exact ⟨t, _, by rw [HostBlk.readDone, found], inside, sameRing, sameTag, reading⟩

/-- What is sent to a data buffer of the host moves nothing that a completion does not. -/
theorem State.sans_toBuffer (s : State) (o : Origin) (addr : DWord) (bytes : List Byte) : (s.toBuffer o addr bytes).sans [.done] = s.sans [.done] := by
  unfold State.toBuffer HostBlk.emit
  split
  · split
    · rfl
    · split <;> rfl
  · rfl

/-- The places of a REC_READ that were written before its access failed. -/
def State.placesWritten (s : State) (d : Desc) (places : Nat) : List Byte :=
  if d.opcode = 0x0E#8 ∧ places ≠ 0 then
    (s.recorder.places (Bits.leAt d.params 0 8) (min places (Bits.leAt d.params 8 2)) (Bits.leAt d.params 10 1 % 2 == 1)
      (Bits.leAt d.params 10 1 / 2 % 2 == 1)).2.flatMap placeBytes
  else []

theorem dmaFailure_counted (s : State) (n : Fin 8) (tag : Word) (how : DmaFail) (places : Nat) (a : Taken) (mem : a ∈ s.host.taken) (ring : a.sq = n.val)
    (named : a.desc.tag = tag) (reads : a.reading = true)
    (fails : ∀ b ∈ s.host.taken, b.sq = n.val → b.desc.tag = tag → b.reading = true → b.failsBy how s.nowNs = true) :
    EndsTo (.dmaFailure n tag how places) s { s with host := { s.host with dmaErrCnt := Bits.inc s.host.dmaErrCnt } } [(.host, 1)] := by
  obtain ⟨t, l, found, inside, sameRing, sameTag, reading⟩ := HostBlk.readDone_found mem ring named reads
  obtain ⟨u, hu⟩ : ∃ u : State, u = { s with host := { s.host with taken := l, dmaErrCnt := Bits.inc s.host.dmaErrCnt } } := ⟨_, rfl⟩
  have step : exec (.dmaFailure n tag how places) s =
      .next (((u.toBuffer (.host n tag) t.desc.dataAddr (s.placesWritten t.desc places)).setEvent .host 1).finish (.host n tag) stBadAddress 0) := by
    change execDmaFailure n tag how places s = _
    unfold execDmaFailure
    rw [found]
    refine (if_neg (by simp [fails t inside sameRing sameTag reading])).trans ?_
    rw [hu]
    rfl
  have sent : (u.toBuffer (.host n tag) t.desc.dataAddr (s.placesWritten t.desc places)).event = s.event := by
    rw [hu]
    unfold State.toBuffer
    dsimp only
    split <;> rfl
  refine .mk _ step ?_ (((State.raises_setEvent _ .host 1 (by decide)).from sent).trans (m := []) (.of_event (State.event_finish ..)))
  rw [State.sans_finish _ (by simp), State.sans_setEvent, State.sans_toBuffer, hu]
  rfl

/-- Settles O54: service passes, data reads and their failure, a lemma for each clause. -/
theorem descriptorService : Obligations.DescriptorService :=
  ⟨servicePass_stopped, servicePass_nop, servicePass_waits, servicePass_reads, dataReadDone_notes, dataReadDone_paused, dmaFailure_counted⟩

end Sys2Proof.Machine

namespace Sys2Proof.Machine
set_option Elab.async false

/-! Bus Master Enable and the link (14 R415, R419, R496). -/

/-! Bus Master Enable. -/

/-- With Bus Master Enable set, nothing but interrupts is sent: what was kept stays kept, and the sent log grows. -/
def HostBlk.Interrupts (h g : HostBlk) : Prop :=
  g.busMaster = true ∧ g.bare = h.bare ∧ g.kept = h.kept ∧ g.keptMsix = h.keptMsix ∧ ∃ l, g.sent = h.sent ++ l

theorem HostBlk.Interrupts.refl {h : HostBlk} (master : h.busMaster = true) : h.Interrupts h := ⟨master, rfl, rfl, rfl, [], by simp⟩

theorem HostBlk.Interrupts.trans {h g k : HostBlk} (first : h.Interrupts g) (second : g.Interrupts k) : h.Interrupts k := by
  obtain ⟨-, bare, kept, msix, l, sent⟩ := first
  obtain ⟨master, bare', kept', msix', l', sent'⟩ := second
  exact ⟨master, bare'.trans bare, kept'.trans kept, msix'.trans msix, l ++ l', by rw [sent', sent, List.append_assoc]⟩

theorem HostBlk.Interrupts.foldl {f : HostBlk → Nat → HostBlk} (each : ∀ (h : HostBlk) (v : Nat), h.busMaster = true → h.Interrupts (f h v)) (x : List Nat) :
    ∀ {h : HostBlk}, h.busMaster = true → h.Interrupts (x.foldl f h) := by
  induction x with
  | nil => intro h master; exact .refl master
  | cons v x ih => intro h master; exact (each h v master).trans (ih (each h v master).1)

theorem HostBlk.interrupts_interrupt (h : HostBlk) (v : Nat) (master : h.busMaster = true) : h.Interrupts (h.interrupt v) := by
  unfold HostBlk.interrupt
  rw [if_neg (by simp [master])]
  split
  · exact .refl master
  · split
    · exact ⟨master, rfl, rfl, rfl, [], by simp⟩
    · exact ⟨master, rfl, rfl, rfl, _, rfl⟩

theorem HostBlk.interrupts_unmask {h : HostBlk} (master : h.busMaster = true) : h.Interrupts h.unmask := by
  unfold HostBlk.unmask
  split
  · exact .refl master
  · refine .foldl (fun h v master => ?_) _ master
    split
    · exact ⟨master, rfl, rfl, rfl, _, rfl⟩
    · exact .refl master

/-- No pending bit, nothing to send. -/
theorem HostBlk.unmask_idle {h : HostBlk} (idle : h.pba = 0#32) : h.unmask = h := by
  have same : ∀ x : List Nat, x.foldl (fun (h : HostBlk) v =>
      if Bits.bit h.pba v && !h.masked v then { h with pba := Bits.clrBit h.pba v, sent := h.sent ++ [.msix v] } else h) h = h := by
    intro x
    induction x with
    | nil => rfl
    | cons v x ih => rw [List.foldl_cons, if_neg (by simp [idle, Bits.bit]), ih]
  unfold HostBlk.unmask
  split
  · rfl
  · exact same _

theorem busMasterEnable_sends (s : State) (en mask : Bool) (noPending : s.host.pba = 0#32) (noKept : s.host.keptMsix = []) :
    exec (.busMasterEnable en mask) s = .next { s with host := { s.host with
      busMaster := true, msixEn := en, msixMask := mask, sent := s.host.sent ++ s.host.kept, kept := [] } } := by
  change execBusMasterEnable en mask s = _
  simp only [execBusMasterEnable, noKept, List.foldl_nil]
  rw [HostBlk.unmask_idle (by exact noPending)]

theorem busMasterEnable_kept (s : State) (en mask : Bool) : ∃ t, exec (.busMasterEnable en mask) s = .next t ∧
    t.bare = (State.bare { s with host := { s.host with busMaster := true, msixEn := en, msixMask := mask } }) ∧ t.event = s.event ∧
    t.host.kept = [] ∧ t.host.keptMsix = [] ∧ ∃ l, t.host.sent = s.host.sent ++ s.host.kept ++ l := by
  obtain ⟨h, hh⟩ : ∃ h : HostBlk, h = { s.host with
    busMaster := true, msixEn := en, msixMask := mask, sent := s.host.sent ++ s.host.kept, kept := [], keptMsix := [] } := ⟨_, rfl⟩
  have start : h.bare = ({ s.host with busMaster := true, msixEn := en, msixMask := mask } : HostBlk).bare := by rw [hh]; rfl
  have told : h.Interrupts (s.host.keptMsix.foldl HostBlk.interrupt h) :=
    .foldl HostBlk.interrupts_interrupt _ (by rw [hh])
  obtain ⟨-, bare, kept, msix, l, sent⟩ := told.trans (HostBlk.interrupts_unmask told.1)
  refine ⟨{ s with host := (s.host.keptMsix.foldl HostBlk.interrupt h).unmask }, by rw [hh]; rfl, ?_, rfl, ?_, ?_, l, ?_⟩
  · exact congrArg (fun b : HostBlk => ({ s.bare with host := b } : State)) (bare.trans start)
  · exact kept.trans (by rw [hh])
  · exact msix.trans (by rw [hh])
  · exact sent.trans (by rw [hh])

/-! The link. -/

/-- What a lost link leaves, with the host block at its reset values but for the fields of the link (14 R419, 15 R427). -/
def State.hostGone (s : State) (h : HostBlk) : State := { s with
  eventEn := Tbl.set 0#32 s.eventEn 13 0#32
  mod := { s.mod with host := {} }
  recorder := { s.recorder with window := Tbl.erase s.recorder.window 0 }
  host := h
  cfg := { s.cfg with transfers := s.cfg.transfers.filter (fun e => 8 ≤ e.2.sq) } }

/-- With no open transfer the reset leaves the exchange unit alone. -/
theorem State.hostReset_calm {s : State} (calm : s.xch.cur.state ≠ .staging) :
    s.hostReset = { s.hostGone { sent := s.host.sent } with event := Tbl.set 0#32 s.event 13 0#32 } := by
  have quiet : (s.xch.cur.state == .staging) = false := by simpa using calm
  simp only [State.hostReset, quiet, Bool.false_and, Bool.false_eq_true, if_false]
  rfl

/-- An event of the link on a host block that was reset. -/
theorem State.linkEvent_gone (s v : State) (h : HostBlk) (n : Nat) (small : n < 32) (event : v.event = Tbl.set 0#32 s.event 13 0#32)
    (bare : v.bare = (s.hostGone h).bare) :
    (v.linkEvent n).bare = (s.hostGone h).bare ∧ State.Raises { s with event := Tbl.set 0#32 s.event 13 0#32 } (v.linkEvent n) [(.host, n)] :=
  ⟨(v.bare_recordEvent _ _ _ _).trans bare, (v.raises_recordEvent .host n _ _ small).from event⟩

theorem exec_linkLost {s : State} {i : Instr} (lost : i ∈ [Instr.pcieLinkDown, .pcieHotReset]) (up : s.host.linkUp = true) :
    exec i s = .next (s.hostReset.linkEvent 4) := by
  simp only [List.mem_cons, List.not_mem_nil, or_false] at lost
  rcases lost with rfl | rfl
  · exact if_neg (by simp [up])
  · exact if_neg (by simp [up])

theorem linkLost_resets (s : State) (i : Instr) (lost : i ∈ [Instr.pcieLinkDown, .pcieHotReset]) (up : s.host.linkUp = true)
    (calm : s.xch.cur.state ≠ .staging) : ∃ t, exec i s = .next t ∧ t.bare = (s.hostGone {}).bare ∧
      State.Raises { s with event := Tbl.set 0#32 s.event 13 0#32 } t [(.host, 4)] :=
  ⟨_, exec_linkLost lost up, s.linkEvent_gone _ {} 4 (by decide) rfl (by rw [State.hostReset_calm calm]; rfl)⟩

theorem flr_resets (s : State) (up : s.host.linkUp = true) (calm : s.xch.cur.state ≠ .staging) : ∃ t, exec .flr s = .next t ∧
    t.bare = (s.hostGone { linkUp := true, speed := s.host.speed, width := s.host.width }).bare ∧
      State.Raises { s with event := Tbl.set 0#32 s.event 13 0#32 } t [(.host, 6)] := by
  refine ⟨_, if_neg (by simp [up]), s.linkEvent_gone _ _ 6 (by decide) rfl ?_⟩
  rw [State.hostReset_calm calm, up]
  rfl

/-- An open transfer of a host ring ends with the host block (14 R419). -/
theorem State.hostReset_discards {s : State} {n : Fin 8} {tag : Word} (staging : s.xch.cur.state = .staging) (unwritten : s.xch.written = false)
    (host : s.xch.stageOrg = .host n tag) : s.hostReset.xch = s.xch.clear.write {} :=
  if_pos (by simp [staging, unwritten, host])

theorem linkLost_discards (s : State) (i : Instr) (n : Fin 8) (tag : Word) (lost : i ∈ [Instr.pcieLinkDown, .pcieHotReset, .flr])
    (up : s.host.linkUp = true) (staging : s.xch.cur.state = .staging) (unwritten : s.xch.written = false) (host : s.xch.stageOrg = .host n tag) :
    ∃ t, exec i s = .next t ∧ t.xch.cur.state = .idle ∧ t.xch.len = 0 := by
  have discarded := State.hostReset_discards staging unwritten host
  have told : ∀ (v : State) (k : Nat), v.xch = s.hostReset.xch → (v.linkEvent k).xch.cur.state = .idle ∧ (v.linkEvent k).xch.len = 0 := by
    intro v k same
    have kept : (v.linkEvent k).xch = s.xch.clear.write {} := (State.xch_recordEvent ..).trans (same.trans discarded)
    rw [kept]
    exact ⟨rfl, rfl⟩
  by_cases flr : i = .flr
  · subst flr
    exact ⟨_, if_neg (by simp [up]), told _ 6 rfl⟩
  · have down : i ∈ [Instr.pcieLinkDown, .pcieHotReset] := by simpa [flr] using lost
    exact ⟨_, exec_linkLost down up, told _ 4 rfl⟩

theorem pcieLinkUp_trains (s : State) (sp wd : BitVec 2) (down : s.host.linkUp = false) (up : s.cfg.phase ≠ .rom) :
    RunsTo (.pcieLinkUp sp wd) s { s with host := { s.host with linkUp := true, speed := sp, width := wd } } [(.host, 5)] :=
  .recordEvent (if_neg (by simp [down, up])) rfl (by decide)

theorem pcieLinkUp_rom (s : State) (sp wd : BitVec 2) (rom : s.cfg.phase = .rom) : exec (.pcieLinkUp sp wd) s = .next s :=
  if_pos (by simp [rom])

/-- Settles O55: Bus Master Enable, and the link lost and trained, a lemma for each clause. -/
theorem hostLink : Obligations.HostLink :=
  ⟨busMasterEnable_sends, busMasterEnable_kept, fun _ => rfl, linkLost_resets, flr_resets, linkLost_discards, pcieLinkUp_trains, pcieLinkUp_rom⟩

end Sys2Proof.Machine

namespace Sys2Proof.Machine
set_option Elab.async false

/-! The doorbells, the states of a ring and its interrupts (14 R398, R399, R403, R415, R416, R418). -/

/-! A ring in ERROR. -/

theorem State.ringError_sq (s : State) (n : Fin 8) {k : Nat} (i : Nat) (small : k < 5) : s.ringError (.sq n) k i = State.setEvent { s with host := {
    s.host.setSq n { s.host.sq n with state := .error } with
    errInfo := BitVec.ofNat 32 (k * 2 ^ 28 + n.val * 2 ^ 23) ||| BitVec.ofNat 32 (i % 4096)
    kept := s.host.kept.filter (fun o => !o.inRing (.sq n)) } } .host 0 := by
  have word := errInfo_word k 0 n i ⟨n.isLt, small, by decide⟩
  rw [Nat.zero_mul, Nat.add_zero] at word
  rw [← word]
  rfl

theorem State.ringError_cq (s : State) (n : Fin 8) {k : Nat} (i : Nat) (small : k < 5) : s.ringError (.cq n) k i = State.setEvent { s with host := {
    s.host.setCq n { s.host.cq n with state := .error } with
    errInfo := BitVec.ofNat 32 (k * 2 ^ 28 + 1 * 2 ^ 26 + n.val * 2 ^ 23) ||| BitVec.ofNat 32 (i % 4096)
    kept := s.host.kept.filter (fun o => !o.inRing (.cq n)) } } .host 0 := by
  rw [← errInfo_word k 1 n i ⟨n.isLt, small, by decide⟩]
  rfl

theorem State.ringError_eq (s : State) {k : Nat} (i : Nat) (small : k < 5) : s.ringError .eq k i = State.setEvent { s with host := { s.host with
    eq := { s.host.eq with state := .error }
    errInfo := BitVec.ofNat 32 (k * 2 ^ 28 + 2 * 2 ^ 26) ||| BitVec.ofNat 32 (i % 4096)
    kept := s.host.kept.filter (fun o => !o.inRing .eq) } } .host 0 := by
  have word := errInfo_word k 2 0 i ⟨by decide, small, by decide⟩
  rw [Nat.zero_mul, Nat.add_zero] at word
  rw [← word]
  rfl

/-! HOST_SQn_TAIL. -/

theorem sqTailDoorbell_advances (s : State) (n : Fin 8) (tail : Nat) (on : (s.host.sq n).state = .enabled) (moves : tail ≠ (s.host.sq n).tail)
    (inside : tail < (s.host.sq n).size) (small : tail < 4096)
    (room : (tail + (s.host.sq n).size - (s.host.sq n).tail) % (s.host.sq n).size ≤ (s.host.sq n).size - 1 - (s.host.sq n).used) :
    RunsTo (.sqTailDoorbell n tail) s { s.written .host with host := s.host.setSq n { s.host.sq n with tail := tail } } [] := by
  have valid : ¬((s.host.sq n).size ≤ tail ∨
      (s.host.sq n).size - 1 - (s.host.sq n).used < (tail + (s.host.sq n).size - (s.host.sq n).tail) % (s.host.sq n).size) :=
    not_or.mpr ⟨Nat.not_le.mpr inside, Nat.not_lt.mpr room⟩
  have rung : (s.written .host).tailDoorbell n tail = { s.written .host with host := s.host.setSq n { s.host.sq n with tail := tail } } :=
    (if_neg (not_or.mpr ⟨not_not.mpr on, moves⟩)).trans (if_neg valid)
  exact .quiet ((sqTailDoorbell_exec s n tail small).trans (congrArg Host.Outcome.next rung)) rfl

theorem sqTailDoorbell_invalid (s : State) (n : Fin 8) (tail : Nat) (on : (s.host.sq n).state = .enabled) (moves : tail ≠ (s.host.sq n).tail)
    (small : tail < 4096) (invalid : (s.host.sq n).size ≤ tail ∨
      (s.host.sq n).size - 1 - (s.host.sq n).used < (tail + (s.host.sq n).size - (s.host.sq n).tail) % (s.host.sq n).size) :
    RunsTo (.sqTailDoorbell n tail) s { s.written .host with host := {
      s.host.setSq n { s.host.sq n with state := .error } with
      errInfo := BitVec.ofNat 32 (1 * 2 ^ 28 + n.val * 2 ^ 23) ||| BitVec.ofNat 32 tail
      kept := s.host.kept.filter (fun o => !o.inRing (.sq n)) } } [(.host, 0)] := by
  have rung : (s.written .host).tailDoorbell n tail = (s.written .host).ringError (.sq n) 1 tail :=
    (if_neg (not_or.mpr ⟨not_not.mpr on, moves⟩)).trans (if_pos invalid)
  rw [State.ringError_sq _ n tail (by decide), Nat.mod_eq_of_lt small] at rung
  exact .setEvent ((sqTailDoorbell_exec s n tail small).trans (congrArg Host.Outcome.next rung)) rfl (by decide)

/-! HOST_CQn_HEAD and HOST_EQ_HEAD. -/

theorem OutRing.headOk_iff (q : OutRing) (head : Nat) : q.headOk head = true ↔ head < q.size ∧ (head + q.size - q.head) % q.size ≤ q.used := by
  simp [OutRing.headOk]

theorem OutRing.headOk_false {q : OutRing} {head : Nat} (invalid : q.size ≤ head ∨ q.used < (head + q.size - q.head) % q.size) : q.headOk head = false := by
  rcases invalid with outside | beyond
  · simp [OutRing.headOk, Nat.not_lt.mpr outside]
  · simp [OutRing.headOk, Nat.not_le.mpr beyond]

theorem cqHeadDoorbell_advances (s : State) (n : Fin 8) (head : Nat) (on : (s.host.cq n).state = .enabled) (moves : head ≠ (s.host.cq n).head)
    (inside : head < (s.host.cq n).size) (small : head < 4096)
    (written : (head + (s.host.cq n).size - (s.host.cq n).head) % (s.host.cq n).size ≤ (s.host.cq n).used) :
    RunsTo (.cqHeadDoorbell n head) s { s.written .host with host := s.host.setCq n { s.host.cq n with head := head } } [] := by
  have ok := ((s.host.cq n).headOk_iff head).mpr ⟨inside, written⟩
  have rung : (s.written .host).cqDoorbell n head = { s.written .host with host := s.host.setCq n { s.host.cq n with head := head } } :=
    (if_neg (not_or.mpr ⟨not_not.mpr on, moves⟩)).trans (if_neg (by rw [Bool.not_eq_true, Bool.not_eq_false']; exact ok))
  exact .quiet ((cqHeadDoorbell_exec s n head small).trans (congrArg Host.Outcome.next rung)) rfl

theorem cqHeadDoorbell_invalid (s : State) (n : Fin 8) (head : Nat) (on : (s.host.cq n).state = .enabled) (moves : head ≠ (s.host.cq n).head)
    (small : head < 4096)
    (invalid : (s.host.cq n).size ≤ head ∨ (s.host.cq n).used < (head + (s.host.cq n).size - (s.host.cq n).head) % (s.host.cq n).size) :
    RunsTo (.cqHeadDoorbell n head) s { s.written .host with host := {
      s.host.setCq n { s.host.cq n with state := .error } with
      errInfo := BitVec.ofNat 32 (2 * 2 ^ 28 + 1 * 2 ^ 26 + n.val * 2 ^ 23) ||| BitVec.ofNat 32 head
      kept := s.host.kept.filter (fun o => !o.inRing (.cq n)) } } [(.host, 0)] := by
  have rung : (s.written .host).cqDoorbell n head = (s.written .host).ringError (.cq n) 2 head :=
    (if_neg (not_or.mpr ⟨not_not.mpr on, moves⟩)).trans (if_pos (by rw [Bool.not_eq_true']; exact OutRing.headOk_false invalid))
  rw [State.ringError_cq _ n head (by decide), Nat.mod_eq_of_lt small] at rung
  exact .setEvent ((cqHeadDoorbell_exec s n head small).trans (congrArg Host.Outcome.next rung)) rfl (by decide)

theorem eqHeadDoorbell_advances (s : State) (head : Nat) (on : s.host.eq.state = .enabled) (moves : head ≠ s.host.eq.head)
    (inside : head < s.host.eq.size) (small : head < 4096) (written : (head + s.host.eq.size - s.host.eq.head) % s.host.eq.size ≤ s.host.eq.used) :
    RunsTo (.eqHeadDoorbell head) s { s.written .host with host := { s.host with eq := { s.host.eq with head := head } } } [] := by
  have ok := (s.host.eq.headOk_iff head).mpr ⟨inside, written⟩
  have rung : (s.written .host).eqDoorbell head = { s.written .host with host := { s.host with eq := { s.host.eq with head := head } } } :=
    (if_neg (not_or.mpr ⟨not_not.mpr on, moves⟩)).trans (if_neg (by rw [Bool.not_eq_true, Bool.not_eq_false']; exact ok))
  exact .quiet ((eqHeadDoorbell_exec s head small).trans (congrArg Host.Outcome.next rung)) rfl

theorem eqHeadDoorbell_invalid (s : State) (head : Nat) (on : s.host.eq.state = .enabled) (moves : head ≠ s.host.eq.head) (small : head < 4096)
    (invalid : s.host.eq.size ≤ head ∨ s.host.eq.used < (head + s.host.eq.size - s.host.eq.head) % s.host.eq.size) :
    RunsTo (.eqHeadDoorbell head) s { s.written .host with host := { s.host with
      eq := { s.host.eq with state := .error }
      errInfo := BitVec.ofNat 32 (2 * 2 ^ 28 + 2 * 2 ^ 26) ||| BitVec.ofNat 32 head
      kept := s.host.kept.filter (fun o => !o.inRing .eq) } } [(.host, 0)] := by
  have rung : (s.written .host).eqDoorbell head = (s.written .host).ringError .eq 2 head :=
    (if_neg (not_or.mpr ⟨not_not.mpr on, moves⟩)).trans (if_pos (by rw [Bool.not_eq_true']; exact OutRing.headOk_false invalid))
  rw [State.ringError_eq _ head (by decide), Nat.mod_eq_of_lt small] at rung
  exact .setEvent ((eqHeadDoorbell_exec s head small).trans (congrArg Host.Outcome.next rung)) rfl (by decide)

/-! RING_ACCESS_FAILURE and RING_STOPPED. -/

theorem ringAccessFailure_sq (s : State) (n : Fin 8) (i : Nat) (how : DmaFail) (on : (s.host.sq n).state = .enabled) :
    RunsTo (.ringAccessFailure (.sq n) i how) s { s with host := {
      s.host.setSq n { s.host.sq n with state := .error } with
      errInfo := BitVec.ofNat 32 (3 * 2 ^ 28 + n.val * 2 ^ 23) ||| BitVec.ofNat 32 (i % 4096)
      kept := s.host.kept.filter (fun o => !o.inRing (.sq n)) } } [(.host, 0)] :=
  .setEvent ((if_neg (by simp [HostBlk.enabled, on])).trans (congrArg Host.Outcome.next (s.ringError_sq n (k := 3) i (by decide)))) rfl (by decide)

theorem ringAccessFailure_cq (s : State) (n : Fin 8) (i : Nat) (how : DmaFail) (on : (s.host.cq n).state = .enabled) :
    RunsTo (.ringAccessFailure (.cq n) i how) s { s with host := {
      s.host.setCq n { s.host.cq n with state := .error } with
      errInfo := BitVec.ofNat 32 (4 * 2 ^ 28 + 1 * 2 ^ 26 + n.val * 2 ^ 23) ||| BitVec.ofNat 32 (i % 4096)
      kept := s.host.kept.filter (fun o => !o.inRing (.cq n)) } } [(.host, 0)] :=
  .setEvent ((if_neg (by simp [HostBlk.enabled, on])).trans (congrArg Host.Outcome.next (s.ringError_cq n (k := 4) i (by decide)))) rfl (by decide)

theorem ringStopped_ends (s : State) (n : Fin 8) (stopping : (s.host.sq n).state = .stopping) (idle : s.host.inFlight n = 0) :
    RunsTo (.ringStopped n) s { s with host := s.host.setSq n { s.host.sq n with state := .disabled, aborted := false } }
      (if (s.host.sq n).aborted then [(.host, 7)] else []) :=
  .mk _ (if_neg (by simp [stopping, idle])) (State.bare_setEventIf ..) ((State.raises_setEventIf _ _ .host 7 (by decide)).from rfl)

/-! MSIX_COALESCE_TIMEOUT. -/

theorem msixCoalesceTimeout_cq (s : State) (n : Fin 8) (pends : (s.host.cq n).irqPend ≠ 0)
    (due : (s.host.cq n).irqNs + Bits.get (s.host.cq n).cfg 0 8 * 10000 ≤ s.nowNs + 9999) : exec (.msixCoalesceTimeout (.cq n)) s = .next { s with
      host := (s.host.setCq n { s.host.cq n with irqPend := 0 }).interrupt (Bits.get (s.host.cq n).cfg 16 5) } :=
  if_neg (by simp [OutRing.coalesced, pends, due])

theorem msixCoalesceTimeout_eq (s : State) (pends : s.host.eq.irqPend ≠ 0) (due : s.host.eq.irqNs + Bits.get s.host.eq.cfg 0 8 * 10000 ≤ s.nowNs + 9999)
    (master : s.host.busMaster = true) (enabled : s.host.msixEn = true) (unmasked : s.host.masked (Bits.get s.host.eq.cfg 16 5) = false) :
    exec (.msixCoalesceTimeout .eq) s = .next { s with host := { s.host with
      eq := { s.host.eq with irqPend := 0 }
      sent := s.host.sent ++ [.msix (Bits.get s.host.eq.cfg 16 5)] } } := by
  refine (if_neg (by simp [OutRing.coalesced, pends, due])).trans (congrArg (fun h : HostBlk => Host.Outcome.next { s with host := h }) ?_)
  exact (if_neg (by simp [master])).trans ((if_neg (by simp [enabled])).trans (if_neg (Bool.eq_false_iff.mp unmasked)))

theorem msixCoalesceTimeout_early (s : State) (n : Fin 8)
    (early : (s.host.cq n).irqPend = 0 ∨ s.nowNs + 9999 < (s.host.cq n).irqNs + Bits.get (s.host.cq n).cfg 0 8 * 10000) :
    exec (.msixCoalesceTimeout (.cq n)) s = .next s := by
  refine if_pos ?_
  rcases early with idle | soon
  · simp [OutRing.coalesced, idle]
  · simp [OutRing.coalesced, Nat.not_le.mpr soon]

/-- Settles O56: the doorbells, the ring states and the interrupts of the rings, a lemma for each clause. -/
theorem ringStates : Obligations.RingStates :=
  ⟨sqTailDoorbell_advances, sqTailDoorbell_invalid, cqHeadDoorbell_advances, cqHeadDoorbell_invalid, eqHeadDoorbell_advances, eqHeadDoorbell_invalid,
    ringAccessFailure_sq, ringAccessFailure_cq, ringStopped_ends, msixCoalesceTimeout_cq, msixCoalesceTimeout_eq, msixCoalesceTimeout_early⟩

end Sys2Proof.Machine

namespace Sys2Proof.Machine
set_option Elab.async false

/-! The opcodes of the HOST block that no other unit carries out (13 R380-R385, 14 R405-R411). -/

/-! NOP and MODE. -/

theorem nop_host (s : State) (n : Fin 8) (d : Desc) (works : s.mod.failed = false) (taken : s.host.taken = [{ sq := n.val, desc := d }])
    (master : s.host.busMaster = true) (on : (s.host.cq (s.host.sq n).bound).state = .enabled)
    (noIrq : Bits.bit (s.host.cq (s.host.sq n).bound).cfg 15 = false) : exec (.nop (.host n d.tag)) s = .next { s with free := s.free + 1, host := {
      s.host.setCq (s.host.sq n).bound (s.host.cq (s.host.sq n).bound).advance with
      taken := []
      sent := s.host.sent ++ [.completion (s.host.sq n).bound ((s.host.cq (s.host.sq n).bound).addr (s.host.cq (s.host.sq n).bound).tail) (s.host.cq (s.host.sq n).bound).phase
        { tag := d.tag, opcode := d.opcode, status := 0, detail := 0, sq := n.val, sqHead := (s.host.sq n).head, time := s.detectNs }] } } :=
  congrArg Host.Outcome.next (s.finish_host n { sq := n.val, desc := d } [] stOk 0 works taken rfl on master noIrq)

theorem nop_maint (s : State) (d : Desc) (r : Rights) (cmds : s.mnt.cmds = [{ desc := d }]) (session : s.mnt.session = some r) :
    exec (.nop (.maint d.tag)) s = .next { s with mnt := { s.mnt with cmds := [], sent := s.mnt.sent ++ [.completion d.tag d.opcode 0 0 0#64 []] } } :=
  congrArg Host.Outcome.next (s.finish_maint { desc := d } [] stOk 0 cmds (by simp [session]))

theorem mode_names (s : State) (o : Origin) (t b off : Nat) :
    EndsTo (.mode o 1 t b off) s { s with cyc := { s.cyc with buf := s.cyc.buf ++ [(.run, o)] } } [] ∧
    EndsTo (.mode o 2 t b off) s { s with cyc := { s.cyc with buf := s.cyc.buf ++ [(.stop, o)] } } [] ∧
    EndsTo (.mode o 3 t b off) s { s with cyc := { s.cyc with buf := s.cyc.buf ++ [(.hold, o)] } } [] ∧
    exec (.mode o 4 t b off) s = exec (.modeStep o t) s ∧ exec (.mode o 5 t b off) s = exec (.breakSet o t b off) s ∧
    EndsTo (.mode o 6 t b off) s { s with cyc := { s.cyc with bps := s.cyc.bps.filter (fun x => x != (t, b, off)) } } [] :=
  ⟨.passed rfl rfl, .passed rfl rfl, .passed rfl rfl, rfl, rfl, .finish rfl rfl⟩

theorem mode_unknown (s : State) (o : Origin) (m t b off : Nat) (unknown : 6 < m) : exec (.mode o m t b off) s = .next (s.finish o 3 0) :=
  match m, unknown with
  | _ + 7, _ => rfl

/-! Exchange and read areas. -/

theorem State.hostArea_small {s : State} {n : Nat} (small : n < 256) : s.hostArea n = s.areaDef n := if_pos small

theorem areaWrite_stores (s : State) (o : Origin) (n off : Nat) (bs : List Byte) (d : AreaDef) (small : n < 256) (area : s.areaDef n = some d)
    (writable : d.read = false) (inside : off + bs.length ≤ d.len) : EndsTo (.areaWrite o n off bs) s { s with cyc := { s.cyc with
      areas := Tbl.set {} s.cyc.areas n ((Tbl.get {} s.cyc.areas n).store s.tickNo s.nowNs off bs) } } [] := by
  obtain ⟨u, hu⟩ : ∃ u : State, u = State.storeArea { s with free := s.free + 1 } n off bs := ⟨_, rfl⟩
  have step : exec (.areaWrite o n off bs) s =
      .next (u.complete o stOk 0 0#64 (BitVec.ofNat 8 d.task :: List.replicate 7 0#8 ++ Bits.natBytes 8 (s.nextSchedT0 d.task))) := by
    change execAreaWrite o n off bs s = _
    simp only [execAreaWrite, State.hostArea_small small, area, writable, Bool.false_or, decide_eq_true_eq, Nat.not_lt.mpr inside, if_false, hu]
  refine .mk _ step ?_ (.of_event ((State.event_complete ..).trans (by rw [hu]; rfl)))
  rw [State.sans_complete _ (by simp), hu]
  rfl

theorem areaWrite_refused (s : State) (o : Origin) (n off : Nat) (bs : List Byte) (d : AreaDef) (area : s.areaDef n = some d)
    (bad : d.read = true ∨ d.len < off + bs.length) : exec (.areaWrite o n off bs) s = .next (s.finish o 3 0) := by
  change execAreaWrite o n off bs s = _
  by_cases small : n < 256
  · have outside : (d.read || decide (d.len < off + bs.length)) = true := by simpa using bad
    simp only [execAreaWrite, State.hostArea_small small, area, outside, if_true]
    rfl
  · have unknown : s.hostArea n = none := if_neg small
    simp only [execAreaWrite, unknown]
    rfl

theorem areaRead_reads (s : State) (o : Origin) (n len : Nat) (addr : DWord) (d : AreaDef) (small : n < 256) (area : s.areaDef n = some d)
    (readable : d.read = true) (room : (d.len + 3) / 4 * 4 ≤ len) : exec (.areaRead o n addr len) s = .next ((s.toBuffer o addr
      (Tbl.getList 0#8 (s.task d.task).image d.off d.len ++ List.replicate ((d.len + 3) / 4 * 4 - d.len) 0#8)).complete o 0 0 (s.task d.task).cycle
        (Bits.natBytes 4 d.len)) := by
  change execAreaRead o n addr len s = _
  simp only [execAreaRead, State.hostArea_small small, area, readable, round4, Bool.not_true, Bool.false_or, decide_eq_true_eq, Nat.not_lt.mpr room,
    if_false]
  rfl

/-! REC_READ. -/

/-- The newest record is the one place that a read of it gives. -/
theorem Recorder.places_newest {r : Recorder} {n : Nat} {a : Record} (head : r.head.toNat = n) (small : n + 1 < 2 ^ 64) (oldest : r.oldest ≤ n)
    (held : r.inEmber n = some a) : r.places n 1 false false = (n, [some a]) := by
  have inside : r.head ≠ 0xFFFFFFFFFFFFFFFF#64 := by
    intro top
    rw [top] at head
    have : (0xFFFFFFFFFFFFFFFF#64 : DWord).toNat = 2 ^ 64 - 1 := by decide
    omega
  simp [Recorder.places, inside, head, Nat.max_eq_left oldest, held]

theorem recRead_newest (s : State) (o : Origin) (n : Nat) (addr : DWord) (r : Record) (head : s.recorder.head.toNat = n) (small : n + 1 < 2 ^ 64)
    (oldest : s.recorder.oldest ≤ n) (held : s.recorder.inEmber n = some r) : exec (.recRead o n 1 false false addr 512) s =
      .next ((s.toBuffer o addr (r.wordList.flatMap Bits.bytes32)).complete o 0 0 0#64 (Bits.natBytes 8 n ++ Bits.natBytes 2 1 ++ Bits.natBytes 2 0)) := by
  have ok : recReadOk n 1 false 512 = true := by simp [recReadOk]
  change execRecRead o n 1 false false addr 512 s = _
  simp only [execRecRead, ok, Bool.not_true, Bool.false_eq_true, if_false, Recorder.places_newest head small oldest held]
  simp [placeBytes, stOk]

theorem recRead_refused (s : State) (o : Origin) (first count len : Nat) (peat annex : Bool) (addr : DWord)
    (bad : count = 0 ∨ 2048 < count ∨ len < count * 512) : exec (.recRead o first count peat annex addr len) s = .next (s.finish o 3 0) := by
  refine if_pos ?_
  rcases bad with zero | many | short
  · simp [recReadOk, zero]
  · simp [recReadOk, Nat.not_le.mpr many]
  · simp [recReadOk, Nat.not_le.mpr short]

/-! REC_NOTE and TRIGGER. -/

theorem recNote_overQuota (s : State) (o : Origin) (dt : DWord) (ws : List Word) (short : ws.length ≤ 112) (works : s.recorder.failed = false)
    (quota : s.recorder.overQuota 13 = true) : EndsTo (.recNote o dt ws) s s [(.recorder, 3)] := by
  have refused : s.request { source := 13, code := 0x100, time := s.tickStart, cycle := s.refCycle, detail := dt, words := ws, origin := o } =
      (State.setEvent { s with recorder := s.recorder.countRefusal 13 } .recorder 3, false) :=
    (if_neg (by simp [works])).trans (if_pos quota)
  have step : exec (.recNote o dt ws) s = .next ((State.setEvent { s with recorder := s.recorder.countRefusal 13 } .recorder 3).finish o stRefused 0) := by
    refine (if_neg (Nat.not_lt.mpr short)).trans (congrArg Host.Outcome.next ?_)
    rw [refused]
    rfl
  obtain ⟨t, next, same, raises⟩ := endsTo_setEvent_finish step rfl (by decide)
  exact ⟨t, next, same.trans rfl, raises⟩

theorem trigger_captures (s : State) (o : Origin) (n : Nat) (d : TrigDef) (defined : Tbl.get {} s.recorder.trigDefs n = d) (valid : d.valid = true)
    (host : d.kind = .host) (works : s.recorder.failed = false) (free : (Tbl.get {} s.recorder.trigs n).holding = false)
    (quota : (s.recorder.fired s.nowNs n).overQuota 16 = false) (room : s.recorder.depth < 64) :
    exec (.trigger o n) s = .next (State.passed { s with recorder := (s.recorder.fired s.nowNs n).obtain {
      source := 16, code := n, time := s.tickStart, cycle := s.refCycle, words := s.snapshot d.snaps, origin := o } } o) := by
  subst defined
  have takes : s.capture n s.refCycle o = ({ s with recorder := (s.recorder.fired s.nowNs n).obtain {
        source := 16, code := n, time := s.tickStart, cycle := s.refCycle, words := s.snapshot (Tbl.get {} s.recorder.trigDefs n).snaps, origin := o } },
      .taken) :=
    (if_neg (by simp [free])).trans ((if_neg (by simp [quota])).trans (if_neg (Nat.not_le.mpr room)))
  change execTrigger o n s = _
  simp only [execTrigger, valid, host, works, takes]
  rfl

theorem trigger_undefined (s : State) (o : Origin) (n : Nat) (d : TrigDef) (defined : Tbl.get {} s.recorder.trigDefs n = d)
    (bad : d.valid = false ∨ d.kind ≠ .host) : exec (.trigger o n) s = .next (s.finish o 1 1) := by
  subst defined
  refine if_pos ?_
  rcases bad with invalid | other
  · simp [invalid]
  · simp [other]

/-! QUOTA and PANEL. -/

theorem quota_set (s : State) (o : Origin) (src q : Nat) (known : src ≤ 16) (small : q ≤ 65535) :
    EndsTo (.quota o src q) s { s with recorder := { s.recorder with quota := Tbl.set 0 s.recorder.quota src (q + 1) } } [] :=
  .finish (if_neg (not_or.mpr ⟨Nat.not_lt.mpr known, Nat.not_lt.mpr small⟩)) rfl

theorem panel_waits (s : State) (o : Origin) (id : Half) (r : Rect) (wf : Fin 8) (drives : s.panelDriving = true)
    (fits : s.pnl.judge (.update r wf) = none) : EndsTo (.panel o id (.update r wf)) s { s with pnl := { s.pnl with
      waiting := s.pnl.waiting ++ [{ id := id, op := .update r wf, origin := o, acked := !s.joined }]
      sent := if s.joined then s.pnl.sent ++ [.request id (.update r wf)] else s.pnl.sent } } [] :=
  endsTo_pnlTake rfl drives fits (by simp) rfl

/-- Settles O57: the opcodes one after the other, a lemma for each clause. -/
theorem hostCommands : Obligations.HostCommands :=
  ⟨nop_host, nop_maint, mode_names, mode_unknown, areaWrite_stores, areaWrite_refused, areaRead_reads, recRead_newest, recRead_refused,
    fun _ _ _ _ short works quota => execRecNote_takes short works quota, recNote_overQuota, trigger_captures, trigger_undefined, quota_set, panel_waits⟩

end Sys2Proof.Machine

namespace Sys2Proof.Machine
set_option Elab.async false

/-! Image writes and activations (14 R405, R406, 16 R448-R451, 17 R463-R465, 10 R321). -/

/-! IMAGE_WRITE. -/

/-- A piece that no check refuses. -/
theorem imageWrite_accepted {s : State} {o : Origin} {k off total len : Nat} {first last : Bool} {obj : ImageObj} (low : 1 ≤ k) (high : k ≤ 3)
    (inside : off + len ≤ total) (fits : total ≤ slotSize k) (idle : s.slotBusy k = false)
    (ring : (!first && s.cfg.transfers.any (fun e => e.1 == k) && (Tbl.get {} s.cfg.transfers k).sq != originRing o) = false)
    (order : ((first && off != 0) || (!first && (!s.cfg.transfers.any (fun e => e.1 == k) || off != (Tbl.get {} s.cfg.transfers k).len ||
      total != (Tbl.get {} s.cfg.transfers k).total)) || (last && off + len != total)) = false) :
    exec (.imageWrite o k off total len first last obj) s =
      if !last then .next (State.finish { s with cfg := { s.cfg with
        transfers := Tbl.insert k { sq := originRing o, len := off + len, total := total } (Tbl.erase s.cfg.transfers k) } } o stOk 0)
      else if State.objectOk { s with cfg := { s.cfg with transfers := Tbl.erase s.cfg.transfers k } } k obj then
        .next (State.finish { s with cfg := ({ s.cfg with transfers := Tbl.erase s.cfg.transfers k } : CfgBlk).putObject obj } o stOk 0)
      else .next (State.finish { s with cfg := { s.cfg with transfers := Tbl.erase s.cfg.transfers k } } o stRefused 1) :=
  (if_neg (by omega)).trans ((if_neg (Nat.not_lt.mpr fits)).trans ((if_neg (by rw [idle, ring]; decide)).trans (if_neg (by rw [order]; decide))))

theorem imageWrite_opens (s : State) (o : Origin) (k total len : Nat) (obj : ImageObj) (low : 1 ≤ k) (high : k ≤ 3) (inside : len ≤ total)
    (fits : total ≤ slotSize k) (idle : s.slotBusy k = false) : EndsTo (.imageWrite o k 0 total len true false obj) s { s with cfg := { s.cfg with
      transfers := Tbl.insert k { sq := originRing o, len := len, total := total } (Tbl.erase s.cfg.transfers k) } } [] := by
  have step := imageWrite_accepted (o := o) (first := true) (last := false) (obj := obj) (off := 0) (len := len) low high (by omega) fits idle (by simp) (by simp)
  rw [Nat.zero_add] at step
  exact .finish step rfl

theorem imageWrite_goesOn (s : State) (o : Origin) (k off total len : Nat) (obj : ImageObj) (low : 1 ≤ k) (high : k ≤ 3) (inside : off + len ≤ total)
    (fits : total ≤ slotSize k) (idle : s.slotBusy k = false) (opened : s.cfg.transfers.any (fun e => e.1 == k) = true)
    (here : Tbl.get {} s.cfg.transfers k = { sq := originRing o, len := off, total := total }) :
    EndsTo (.imageWrite o k off total len false false obj) s { s with cfg := { s.cfg with
      transfers := Tbl.insert k { sq := originRing o, len := off + len, total := total } (Tbl.erase s.cfg.transfers k) } } [] := by
  have step := imageWrite_accepted (o := o) (first := false) (last := false) (obj := obj) low high inside fits idle
    (by simp [here]) (by simp [opened, here])
  exact .finish step rfl

/-- Whether an object verifies does not hang on the open transfers. -/
theorem State.objectOk_transfers (s : State) (l : Tbl Transfer) (k : Nat) (obj : ImageObj) :
    State.objectOk { s with cfg := { s.cfg with transfers := l } } k obj = s.objectOk k obj := rfl

theorem imageWrite_lands (s : State) (o : Origin) (k total : Nat) (obj : ImageObj) (low : 1 ≤ k) (high : k ≤ 3) (fits : total ≤ slotSize k)
    (idle : s.slotBusy k = false) (ok : s.objectOk k obj = true) : EndsTo (.imageWrite o k 0 total total true true obj) s { s with
      cfg := ({ s.cfg with transfers := Tbl.erase s.cfg.transfers k } : CfgBlk).putObject obj } [] := by
  have step := imageWrite_accepted (o := o) (first := true) (last := true) (obj := obj) (off := 0) (len := total) low high (by omega) fits idle
    (by simp) (by simp)
  rw [if_neg (by simp), if_pos ((s.objectOk_transfers ..).trans ok)] at step
  exact .finish step rfl

theorem imageWrite_badObject (s : State) (o : Origin) (k total : Nat) (obj : ImageObj) (low : 1 ≤ k) (high : k ≤ 3) (fits : total ≤ slotSize k)
    (idle : s.slotBusy k = false) (bad : s.objectOk k obj = false) : exec (.imageWrite o k 0 total total true true obj) s =
      .next (State.finish { s with cfg := { s.cfg with transfers := Tbl.erase s.cfg.transfers k } } o 1 1) := by
  have step := imageWrite_accepted (o := o) (first := true) (last := true) (obj := obj) (off := 0) (len := total) low high (by omega) fits idle
    (by simp) (by simp)
  rw [if_neg (by simp), if_neg (by rw [State.objectOk_transfers, bad]; decide)] at step
  exact step

/-! ACTIVATE_CONFIG. -/

theorem exec_activateConfig {s : State} {o : Origin} {c : StationCfg} (body : s.cfg.staged.body = some c) (good : s.switchReason (some c) = 0) :
    exec (.activateConfig o) s = if s.cfg.phase = .noConfig then .next ((s.firstConfig c).finish o stOk 0)
      else if s.leads && s.twin.link == .joined then
        .next (State.passed (State.olvia { s with cfg := { s.cfg with asking := some (c, o) } } (.copy (.config c))) o)
      else .next (s.acceptConfig c o) := by
  change execActivateConfig o s = _
  simp only [execActivateConfig, body, good]

/-- On a module without a partner the switch pends with no word to the partner (16 R450). -/
theorem State.acceptConfig_alone {s : State} (c : StationCfg) (o : Origin) (alone : s.twin.link = .severed) :
    s.acceptConfig c o = (s.pendConfig c s.switchEffect o).passed o := by
  have follows : s.leads = false := by simp [State.leads, alone]
  simp [State.acceptConfig, follows]

theorem exec_activateConfig_alone {s : State} {o : Origin} {c : StationCfg} (body : s.cfg.staged.body = some c) (good : s.switchReason (some c) = 0)
    (loaded : s.cfg.phase ≠ .noConfig) (alone : s.twin.link = .severed) :
    exec (.activateConfig o) s = .next ((s.pendConfig c s.switchEffect o).passed o) := by
  rw [exec_activateConfig body good, if_neg loaded, if_neg (by simp [alone]), State.acceptConfig_alone c o alone]

theorem activateConfig_stopped (s : State) (o : Origin) (c : StationCfg) (body : s.cfg.staged.body = some c) (good : s.switchReason (some c) = 0)
    (loaded : s.cfg.phase ≠ .noConfig) (alone : s.twin.link = .severed) (stopped : s.cyc.mode ≠ .run) :
    EndsTo (.activateConfig o) s { s with cfg := { s.cfg.writeHeader with
      pend := some { cfg := c, effect := .tick (s.tickNo + 199), task := none, origin := o }, refTask := 0, reason := 0 } } [] := by
  have effect : s.switchEffect = .tick (s.tickNo + 199) := by
    unfold State.switchEffect
    split
    · rename_i running _
      exact absurd running stopped
    · rfl
  have run : (s.cyc.mode == .run) = false := by simpa using stopped
  have step := exec_activateConfig_alone (o := o) body good loaded alone
  simp only [effect, State.pendConfig, run, Bool.false_eq_true, if_false] at step
  exact .passed step rfl

theorem activateConfig_running (s : State) (o : Origin) (c : StationCfg) (n : Nat) (body : s.cfg.staged.body = some c)
    (good : s.switchReason (some c) = 0) (loaded : s.cfg.phase ≠ .noConfig) (alone : s.twin.link = .severed) (running : s.cyc.mode = .run)
    (reference : s.refTask = some n) : EndsTo (.activateConfig o) s { s with cfg := { s.cfg.writeHeader with
      pend := some { cfg := c, effect := .tick (s.tickNo + 199), task := some n, origin := o }, refTask := n, reason := 0 } } [] := by
  have effect : s.switchEffect = .tick (s.tickNo + 199) := by
    simp only [State.switchEffect, running, reference, alone, if_true]
  have run : (s.cyc.mode == .run) = true := by simp [running]
  have step := exec_activateConfig_alone (o := o) body good loaded alone
  simp only [effect, State.pendConfig, run, if_true, reference, Option.getD_some] at step
  exact .passed step rfl

theorem activateConfig_refused (s : State) (o : Origin) (bad : s.switchReason s.cfg.staged.body ≠ 0) :
    EndsTo (.activateConfig o) s { s with cfg := { s.cfg with reason := s.switchReason s.cfg.staged.body, refuseCnt := Bits.inc s.cfg.refuseCnt } }
      ((.cfg, 1) :: if s.switchReason s.cfg.staged.body == 4 then [(.fab, 10)] else []) := by
  have step : exec (.activateConfig o) s = .next (s.configRefused o (s.switchReason s.cfg.staged.body)) := by
    change execActivateConfig o s = _
    unfold execActivateConfig
    split
    · rename_i good _
      exact absurd good bad
    · rfl
  exact .setEventIf_finish step rfl (by decide) (by decide) Iff.rfl

theorem activateConfig_asks (s : State) (o : Origin) (c : StationCfg) (body : s.cfg.staged.body = some c) (good : s.switchReason (some c) = 0)
    (loaded : s.cfg.phase ≠ .noConfig) (leads : s.leads = true) (joined : s.twin.link = .joined) (up : s.twin.linkUp = true) :
    EndsTo (.activateConfig o) s { s with cfg := { s.cfg with asking := some (c, o) }, twin := s.twin.send (.copy (.config c)) } [] := by
  have told : State.olvia { s with cfg := { s.cfg with asking := some (c, o) } } (.copy (.config c)) =
      { s with cfg := { s.cfg with asking := some (c, o) }, twin := s.twin.send (.copy (.config c)) } := if_pos up
  have step := exec_activateConfig (o := o) body good
  rw [if_neg loaded, if_pos (by simp [leads, joined]), told] at step
  exact .passed step rfl

/-- Writing the header of a slot keeps which slot is loaded, the lanes and the count of switches. -/
theorem CfgBlk.writeHeader_keeps (c : CfgBlk) : c.writeHeader.slotLoaded = c.slotLoaded ∧ c.writeHeader.lanes = c.lanes ∧
    c.writeHeader.switchCnt = c.switchCnt := by
  unfold CfgBlk.writeHeader
  split
  · exact ⟨rfl, rfl, rfl⟩
  · exact ⟨rfl, rfl, rfl⟩

theorem activateConfig_first (s : State) (o : Origin) (c : StationCfg) (body : s.cfg.staged.body = some c) (good : s.switchReason (some c) = 0)
    (fresh : s.cfg.phase = .noConfig) : ∃ t, exec (.activateConfig o) s = .next t ∧ t.cfg.slotLoaded = !s.cfg.slotLoaded ∧ t.cfg.cur = c ∧
      t.cfg.loaded = true ∧ t.cfg.phase = (if s.cfg.lanes then .twinSearch else .verify) ∧ t.cfg.searchAt = s.mod.uptime ∧
      t.cfg.switchCnt = Bits.inc s.cfg.switchCnt ∧ t.raised .cfg 0 = true := by
  have step := exec_activateConfig (o := o) body good
  rw [if_pos fresh] at step
  obtain ⟨w, hw⟩ : ∃ w : State, w = { s with cfg := { s.cfg.writeHeader.flip with switchCnt := Bits.inc s.cfg.writeHeader.flip.switchCnt } } := ⟨_, rfl⟩
  obtain ⟨slot, lanes, count⟩ := s.cfg.writeHeader_keeps
  obtain ⟨-, moves, same, cur, loaded, -⟩ := loadConfig_facts w c true
  obtain ⟨v, hv⟩ : ∃ v : State, v = w.loadConfig c true := ⟨_, rfl⟩
  obtain ⟨u, hu⟩ : ∃ u : State, u = { v with pnl := v.pnl.startUp, cfg := { v.cfg with
    searchAt := v.mod.uptime, phase := if v.cfg.lanes then .twinSearch else .verify } } := ⟨_, rfl⟩
  rw [← hv] at moves same cur loaded
  have shape : s.firstConfig c = u.setEvent .cfg 0 := by rw [hu, hv, hw]; rfl
  rw [shape] at step
  have cfg : ((u.setEvent .cfg 0).finish o stOk 0).cfg = u.cfg := (State.cfg_finish ..).trans (State.cfg_setEvent ..)
  have mod : v.mod = s.mod := ((moves rfl).mod).trans (by rw [hw])
  have lanes' : v.cfg.lanes = s.cfg.lanes := same.lanes.trans ((by rw [hw]; rfl : w.cfg.lanes = s.cfg.writeHeader.lanes).trans lanes)
  refine ⟨_, step, ?_, ?_, ?_, ?_, ?_, ?_, ?_⟩
  · rw [cfg, hu, ← slot]
    exact same.slotLoaded.trans (by rw [hw]; rfl)
  · rw [cfg, hu]
    exact cur
  · rw [cfg, hu]
    exact loaded
  · rw [cfg, hu, ← lanes']
  · rw [cfg, hu, ← mod]
  · rw [cfg, hu, ← count]
    exact same.switchCnt.trans (by rw [hw]; rfl)
  · rw [State.raised, State.eventReg, State.event_finish]
    exact State.raised_setEvent u .cfg 0 (by decide)

/-! CONFIG_SWITCH_INSTANT. -/

theorem configSwitchInstant_switches (s : State) (p : CfgSwitch) (k : Nat) (pend : s.cfg.pend = some p) (task : p.task = none)
    (effect : p.effect = .tick k) (due : k < s.tickNo) (alone : s.twin.link = .severed) : ∃ t, exec .configSwitchInstant s = .next t ∧
      Changes .configSwitchInstant s t [.mod, .mnt, .recorder, .done, .time, .dio, .aio, .ax, .pnl, .net, .cyc, .cfg]
        [(.cfg, 0), (.time, 7), (.time, 8), (.pnl, 0), (.mnt, 1)] ∧
      t.raised .cfg 0 = true ∧ t.cfg.slotLoaded = !s.cfg.slotLoaded ∧ t.cfg.cur = p.cfg ∧ t.cfg.pend = none ∧ t.cfg.switchCnt = Bits.inc s.cfg.switchCnt ∧
      t.recorder.quota = p.cfg.quotas ∧
      (if s.cfg.loaded then t.recorder.nextDefs = some p.cfg.trigs ∧ t.recorder.trigDefs = s.recorder.trigDefs else t.recorder.trigDefs = p.cfg.trigs) ∧
      t.time.cfg = p.cfg.timeCfg ∧ t.net.pairCfg = p.cfg.pairCfg ∧ t.pnl.cfg = p.cfg.pnl := by
  obtain ⟨v, hv⟩ : ∃ v : State, v = { s with cfg := { s.cfg with pend := none } } := ⟨_, rfl⟩
  have now : s.switchDue p = true := by simp [State.switchDue, task, effect, Effect.due, due]
  have step : exec .configSwitchInstant s = .next ((v.switchNow p.cfg).finish p.origin stOk 0) := by
    change execConfigSwitchInstant s = _
    simp only [execConfigSwitchInstant, pend, now, if_true, hv]
  obtain ⟨u, shape, moves, slot, cur, noPend, count, quota, defs, time, net, pnl⟩ := switchNow_facts v p.cfg (by rw [hv]; exact alone)
  have start : Moves s v loadParts loadBits := by rw [hv]; exact .set
  have whole : Moves s ((u.setEvent .cfg 0).finish p.origin stOk 0) [.mod, .mnt, .recorder, .done, .time, .dio, .aio, .ax, .pnl, .net, .cyc, .cfg]
      [(.cfg, 0), (.time, 7), (.time, 8), (.pnl, 0), (.mnt, 1)] :=
    (((start.trans moves).stay).setEvent .cfg 0 (by decide) (by simp)).finish _ _ _ (by simp)
  have cfg : ((u.setEvent .cfg 0).finish p.origin stOk 0).cfg = u.cfg := (State.cfg_finish ..).trans (State.cfg_setEvent ..)
  have recorder : ((u.setEvent .cfg 0).finish p.origin stOk 0).recorder.bare = u.recorder.bare :=
    (State.recorder_bare_finish ..).trans (State.recorder_bare_setEvent ..)
  have sameQuota : ((u.setEvent .cfg 0).finish p.origin stOk 0).recorder.quota = u.recorder.quota := (congrArg Recorder.quota recorder : _)
  have sameNext : ((u.setEvent .cfg 0).finish p.origin stOk 0).recorder.nextDefs = u.recorder.nextDefs := (congrArg Recorder.nextDefs recorder : _)
  have sameDefs : ((u.setEvent .cfg 0).finish p.origin stOk 0).recorder.trigDefs = u.recorder.trigDefs := (congrArg Recorder.trigDefs recorder : _)
  rw [shape] at step
  refine ⟨_, step, whole.changes step, ?_, ?_, ?_, ?_, ?_, ?_, ?_, ?_, ?_, ?_⟩
  · rw [State.raised, State.eventReg, State.event_finish]
    exact State.raised_setEvent u .cfg 0 (by decide)
  · rw [cfg, slot, hv]
  · rw [cfg, cur]
  · rw [cfg, noPend, hv]
  · rw [cfg, count, hv]
  · rw [sameQuota, quota]
  · rw [sameNext, sameDefs]
    rw [hv] at defs
    exact defs
  · rw [State.time_finish, State.time_setEvent, time]
  · rw [State.net_finish, State.net_setEvent, net]
  · rw [State.pnl_finish, State.pnl_setEvent, pnl]

theorem configSwitchInstant_idle (s : State) (idle : s.cfg.pend = none) : exec .configSwitchInstant s = .next s := by
  change execConfigSwitchInstant s = _
  simp only [execConfigSwitchInstant, idle]

/-! ACTIVATE_SAFETY. -/

theorem activateSafety_waits (s : State) (o : Origin) (x : SafetyObj) (follows : s.follows = true) (joined : s.twin.link = .joined)
    (idle : s.cfg.idleSafe = some x) (ok : s.objectOk 2 (.safety x) = true) (free : s.cfg.safeOrg = none) :
    EndsTo (.activateSafety o) s { s with cfg := { s.cfg with safeOrg := some o } } [] := by
  refine .passed (o := o) ?_ rfl
  change execActivateSafety o s = _
  simp [execActivateSafety, follows, joined, idle, ok, free]

theorem activateSafety_alone (s : State) (o : Origin) (alone : s.twin.link ≠ .joined) : exec (.activateSafety o) s = .next (s.finish o 1 5) :=
  if_pos (by simp [alone])

/-! ACTIVATE_FW_ENGINE. -/

/-- A good module firmware of a line that may be taken now passes the first checks. -/
theorem exec_activateFwEngine {s : State} {o : Origin} {e : Fin 16} {f : FirmObj} (idle : s.cfg.idleFirm = some f) (ok : f.ok = true)
    (line : f.line = Bits.get s.mod.fwRelease 24 8 ∨ s.cyc.mode = .stop) : exec (.activateFwEngine o e) s =
      if s.fab.count (fun x => x.state == .available) < 16 then
        .next ((State.setEvent { s with fab := { s.fab with drainCnt := Bits.inc s.fab.drainCnt } } .fab 11).finish o stRefused 3)
      else if s.exchangeArmed then .next (s.finish o stRefused 6)
      else .next ((s.setFab { s.fab.setEngine e (Engine.settle { s.fab.engine e with state := .draining }) with fwCmd := some (e.val, o) }).passed o) := by
  have obj : (if s.cfg.firmOnB then s.cfg.firmA else s.cfg.firmB) = some f := idle
  have here : ¬(f.line ≠ Bits.get s.mod.fwRelease 24 8 ∧ s.cyc.mode ≠ .stop) := by
    rintro ⟨other, runs⟩
    rcases line with same | stopped
    · exact other same
    · exact runs stopped
  change execActivateFwEngine o e s = _
  simp only [execActivateFwEngine, obj, ok, Bool.not_true, Bool.false_eq_true, if_false]
  exact if_neg here

theorem FabBlk.count_eq_countP (f : FabBlk) (p : Engine → Bool) : f.count p = (List.range 16).countP (fun e => p (f.engine e)) :=
  List.countP_eq_length_filter.symm

/-- Where every engine counts, every engine is available. -/
theorem FabBlk.available_of_counts {f : FabBlk} (all : f.count Engine.counts = 16) : ¬f.count (fun x => x.state == .available) < 16 := by
  have more : f.count Engine.counts ≤ f.count (fun x => x.state == .available) := by
    rw [f.count_eq_countP, f.count_eq_countP]
    refine List.countP_mono_left (fun e _ counts => ?_)
    exact (Bool.and_eq_true_iff.mp counts).1
  omega

/-- One engine that leaves does not end the reserve of sixteen. -/
theorem FabBlk.reserve_setEngine {f : FabBlk} (e : Fin 16) (x : Engine) (all : f.count Engine.counts = 16) : (f.setEngine e x).reserveLost = false := by
  have each : ∀ d ∈ List.range 16, (f.engine d).counts = true := by
    rw [f.count_eq_countP] at all
    exact List.countP_eq_length.mp (all.trans List.length_range.symm)
  have others : ∀ e : Fin 16, (List.range 16).countP (fun d => d != e.val) = 15 := by decide
  have kept : 15 ≤ (f.setEngine e x).count Engine.counts := by
    rw [FabBlk.count_eq_countP, ← others e]
    refine List.countP_mono_left (fun d mem apart => ?_)
    rw [FabBlk.engine_setEngine_ne _ _ (by simpa using apart)]
    exact each d mem
  exact decide_eq_false (by omega)

/-- An engine that is to drain is drained at once when it runs nothing (03 R68). -/
theorem Engine.settle_draining (x : Engine) : Engine.settle { x with state := .draining } =
    { x with state := if x.run.isNone then .drained else .draining } := by
  cases run : x.run with
  | none => simp [Engine.settle]
  | some g => simp [Engine.settle]

theorem activateFwEngine_drains (s : State) (o : Origin) (e : Fin 16) (f : FirmObj) (idle : s.cfg.idleFirm = some f) (ok : f.ok = true)
    (line : f.line = Bits.get s.mod.fwRelease 24 8 ∨ s.cyc.mode = .stop) (all : s.fab.count Engine.counts = 16) (unarmed : s.exchangeArmed = false) :
    EndsTo (.activateFwEngine o e) s { s with fab := {
      s.fab.setEngine e { s.fab.engine e with state := if (s.fab.engine e).run.isNone then .drained else .draining } with
      fwCmd := some (e.val, o) } } [] := by
  have step := exec_activateFwEngine (o := o) (e := e) idle ok line
  rw [if_neg (FabBlk.available_of_counts all), if_neg (by simp [unarmed]), Engine.settle_draining] at step
  have reserve := FabBlk.reserve_setEngine e { s.fab.engine e with state := if (s.fab.engine e).run.isNone then .drained else .draining } all
  have quiet : s.setFab { s.fab.setEngine e { s.fab.engine e with state := if (s.fab.engine e).run.isNone then .drained else .draining } with
      fwCmd := some (e.val, o) } = { s with fab := {
      s.fab.setEngine e { s.fab.engine e with state := if (s.fab.engine e).run.isNone then .drained else .draining } with fwCmd := some (e.val, o) } } :=
    if_neg (fun lost => absurd ((Bool.and_eq_true_iff.mp lost).2) (Bool.eq_false_iff.mp reserve))
  rw [quiet] at step
  exact .passed step rfl

theorem activateFwEngine_refused (s : State) (o : Origin) (e : Fin 16) (f : FirmObj) (idle : s.cfg.idleFirm = some f) (ok : f.ok = true)
    (line : f.line = Bits.get s.mod.fwRelease 24 8 ∨ s.cyc.mode = .stop) (few : s.fab.count (fun x => x.state == .available) < 16) :
    EndsTo (.activateFwEngine o e) s { s with fab := { s.fab with drainCnt := Bits.inc s.fab.drainCnt } } [(.fab, 11)] :=
  .setEvent_finish ((exec_activateFwEngine idle ok line).trans (if_pos few)) rfl (by decide)

/-! ACTIVATE_FW_MODULE. -/

theorem activateFwModule_rom (s : State) (o : Origin) (f : FirmObj) (idle : s.cfg.idleFirm = some f) (ok : f.ok = true) (rom : s.cfg.phase = .rom) :
    EndsTo (.activateFwModule o) s { s with cfg := { s.cfg with firmOnB := !s.cfg.firmOnB } } [] := by
  refine .finish (o := o) (status := stOk) (detail := 0) ?_ rfl
  change execActivateFwModule o s = _
  simp only [execActivateFwModule, idle, ok, rom, Bool.not_true, Bool.false_eq_true, if_false, if_true]

theorem activateFwModule_waits (s : State) (o : Origin) (f : FirmObj) (idle : s.cfg.idleFirm = some f) (ok : f.ok = true) (up : s.cfg.phase ≠ .rom)
    (line : f.line = Bits.get s.mod.fwRelease 24 8) (updated : (List.range 16).all (fun e => (s.fab.engine e).fw == .updated) = true)
    (follows : s.follows = true) (joined : s.twin.link = .joined) (unarmed : s.exchangeArmed = false) (tasks : s.configuredTasks ≠ []) :
    EndsTo (.activateFwModule o) s { s with cfg := { s.cfg with fwOrg := some o, fwWait := true } } [] := by
  have busy : (State.passed { s with cfg := { s.cfg with fwOrg := some o, fwWait := true } } o).configuredTasks.isEmpty = false := by
    have same : (State.passed { s with cfg := { s.cfg with fwOrg := some o, fwWait := true } } o).configuredTasks = s.configuredTasks := by
      simp only [State.configuredTasks, State.cfg_passed]
    rw [same]
    simpa using tasks
  refine .passed (o := o) ?_ rfl
  change execActivateFwModule o s = _
  simp [execActivateFwModule, idle, ok, up, line, updated, follows, joined, unarmed, busy]

theorem activateFwModule_restarts (s : State) (o : Origin) (f : FirmObj) (idle : s.cfg.idleFirm = some f) (ok : f.ok = true) (up : s.cfg.phase ≠ .rom)
    (other : f.line ≠ Bits.get s.mod.fwRelease 24 8) (stopped : s.cyc.mode = .stop)
    (updated : (List.range 16).all (fun e => (s.fab.engine e).fw == .updated) = true) (unarmed : s.exchangeArmed = false) :
    exec (.activateFwModule o) s = .next (State.restart { s with cfg := { s.cfg with firmOnB := !s.cfg.firmOnB } }) := by
  change execActivateFwModule o s = _
  simp [execActivateFwModule, idle, ok, up, other, stopped, updated, unarmed]

/-- Settles O58: image writes, the configuration switch, and the activations, a lemma for each clause. -/
theorem imagesAndActivation : Obligations.ImagesAndActivation :=
  ⟨imageWrite_opens, imageWrite_goesOn, imageWrite_lands, imageWrite_badObject, activateConfig_stopped, activateConfig_running, activateConfig_refused,
    activateConfig_asks, activateConfig_first, configSwitchInstant_switches, configSwitchInstant_idle, activateSafety_waits, activateSafety_alone,
    activateFwEngine_drains, activateFwEngine_refused, activateFwModule_rom, activateFwModule_waits, activateFwModule_restarts⟩

end Sys2Proof.Machine

namespace Sys2Proof.Machine
set_option Elab.async false

/-! Enumeration and authentication of the RX units (16 R455-R458, 02 R62). -/

/-! ENUMERATE. -/

/-- A frame goes out on both rick links through an open gate (16 R454). -/
theorem State.rickSend_open {s : State} (o : RickOut) (gate : s.gateOpen = true) (works : s.mod.failed = false) :
    s.rickSend o = { s with cfg := { s.cfg with sent := s.cfg.sent ++ [o] } } := if_pos (by simp [gate, works])

theorem enumerate_starts (s : State) (c : Bool) (may : s.enumerates = true) (gate : s.gateOpen = true) (command : c = true → s.cfg.enumCmd = false)
    (own : c = false → s.cfg.collecting = false ∧ s.enumDue = true) : exec (.enumerate c) s = .next { s with cfg := { s.cfg with
      collecting := true, enumAt := some s.mod.uptime, enumCmd := s.cfg.enumCmd || c, enumCnt := Bits.inc s.cfg.enumCnt, units := Tbl.map {} RxUnit.unseen s.cfg.units
      sent := s.cfg.sent ++ [.enum] } } := by
  have notRefused : (c && (s.cfg.enumCmd || !s.enumerates)) = false := by
    cases c with
    | false => rfl
    | true => simp [may, command rfl]
  have notEarly : (!s.enumerates || (!c && (s.cfg.collecting || !s.enumDue))) = false := by
    cases c with
    | false => simp [may, own rfl]
    | true => simp [may]
  exact (if_neg (by simp [notRefused])).trans ((if_neg (by simp [notEarly])).trans
    (congrArg Host.Outcome.next (State.rickSend_open _ gate (enumerates_failed may))))

theorem enumerate_refused (s : State) (bad : s.enumerates = false ∨ s.cfg.enumCmd = true) : RunsTo (.enumerate true) s s [(.cfg, 12)] := by
  refine .setEvent (if_pos ?_) rfl (by decide)
  rcases bad with follows | again
  · simp [follows]
  · simp [again]

theorem enumerate_early (s : State) (early : s.enumerates = false ∨ s.cfg.collecting = true ∨ s.enumDue = false) :
    exec (.enumerate false) s = .next s := by
  refine if_pos ?_
  rcases early with follows | collects | soon <;> simp [*]

/-! ENUM_COLLECT_END. -/

/-- A unit at the end of an enumeration: one that did not answer is reached from no end (16 R457). -/
def RxUnit.enumEnded (x : RxUnit) : RxUnit := if x.seen then x else x.unheard

theorem State.unit_unitUnheard (s : State) (u : Nat) : (s.unitUnheard u).cfg.unit u = (s.cfg.unit u).enumEnded ∧
    ∀ v, v ≠ u → (s.unitUnheard u).cfg.unit v = s.cfg.unit v := by
  unfold State.unitUnheard RxUnit.enumEnded
  split
  · exact ⟨rfl, fun _ _ => rfl⟩
  · exact ⟨(State.unit_modUnit ..).trans (if_pos rfl), fun v other => (State.unit_modUnit ..).trans (if_neg other)⟩

/-- A unit that did not answer moves no more than its own entry. -/
theorem State.unitUnheard_rest (s : State) (u : Nat) : Moves s (s.unitUnheard u) [.cfg] [] ∧
    (s.unitUnheard u).cfg.collecting = s.cfg.collecting ∧ (s.unitUnheard u).cfg.enumCmd = s.cfg.enumCmd := by
  unfold State.unitUnheard
  split
  · exact ⟨.refl _ _ _, rfl, rfl⟩
  · exact ⟨s.moves_modUnit _ _ _, rfl, rfl⟩

theorem State.foldl_unitUnheard_rest (l : List Nat) : ∀ s : State, Moves s (l.foldl State.unitUnheard s) [.cfg] [] ∧
    (l.foldl State.unitUnheard s).cfg.collecting = s.cfg.collecting ∧ (l.foldl State.unitUnheard s).cfg.enumCmd = s.cfg.enumCmd := by
  induction l with
  | nil => exact fun s => ⟨.refl _ _ _, rfl, rfl⟩
  | cons u l ih =>
    intro s
    obtain ⟨first, collecting, command⟩ := s.unitUnheard_rest u
    obtain ⟨rest, collecting', command'⟩ := ih (s.unitUnheard u)
    exact ⟨first.trans rest, collecting'.trans collecting, command'.trans command⟩

theorem RxUnit.state_unheard (x : RxUnit) : x.unheard.state ≠ .authenticating := by
  unfold RxUnit.unheard
  cases x.state <;> simp

theorem enumCollectEnd_ends (s : State) (ds : List (Fin 6 × Nat)) (collects : s.cfg.collecting = true) (due : s.elapsed s.cfg.enumAt 100 = true) :
    ∃ t, Changes (.enumCollectEnd ds) s t [.cfg] [(.cfg, 8), (.cfg, 9)] ∧ t.cfg.collecting = false ∧ t.cfg.enumCmd = false ∧
    (∀ u : Nat, (s.cfg.unit u).seen = true → ∃ d, t.cfg.unit u = { s.cfg.unit u with delay := d }) ∧
    (∀ u : Nat, 1 ≤ u → u ≤ 6 → (s.cfg.unit u).seen = false → (t.cfg.unit u).hops0 = 0 ∧ (t.cfg.unit u).hops1 = 0 ∧
      (t.cfg.unit u).state ≠ .authenticating) ∧
    (t.cfg.broken = true ↔ ∃ u : Nat, 1 ≤ u ∧ u ≤ 6 ∧ (t.cfg.unit u).half = true) := by
  obtain ⟨v, hv⟩ : ∃ v : State, v = { s with cfg := { s.cfg with collecting := false, enumCmd := false, delayAt := some s.mod.uptime } } := ⟨_, rfl⟩
  obtain ⟨w, hw⟩ : ∃ w : State, w = (List.range' 1 6).foldl State.unitUnheard v := ⟨_, rfl⟩
  have step : exec (.enumCollectEnd ds) s = .next (w.setDelays ds).ringCheck := by
    rw [hw, hv]
    exact if_neg (by simp [collects, due])
  have start : Moves s v [.cfg] [] := by rw [hv]; exact .set
  obtain ⟨fold, collecting, command⟩ := State.foldl_unitUnheard_rest (List.range' 1 6) v
  have ended : ∀ u, w.cfg.unit u = if u ∈ List.range' 1 6 then (s.cfg.unit u).enumEnded else s.cfg.unit u := fun u => by
    have same : v.cfg.unit u = s.cfg.unit u := by rw [hv]; rfl
    rw [hw, ← same]
    exact unit_foldl (fun _ _ => true) (fun _ => RxUnit.enumEnded) State.unitUnheard State.unit_unitUnheard _ (by decide) v u
  rw [← hw] at fold collecting command
  obtain ⟨delays, collecting', command', delay⟩ := w.setDelays_facts ds []
  obtain ⟨check, units, -, -, -, collecting'', command'', broken⟩ := (w.setDelays ds).ringCheck_facts
  have unit : ∀ u, (w.setDelays ds).ringCheck.cfg.unit u = (w.setDelays ds).cfg.unit u := fun u => congrArg (fun l => Tbl.get ({} : RxUnit) l u) units
  refine ⟨_, ((((start.trans fold).trans delays).stay).trans check).changes step, ?_, ?_, fun u seen => ?_, fun u low high unseen => ?_, ?_⟩
  · rw [collecting'', collecting', collecting, hv]
  · rw [command'', command', command, hv]
  · obtain ⟨d, delayed⟩ := delay u
    have kept : w.cfg.unit u = s.cfg.unit u := by rw [ended, RxUnit.enumEnded, if_pos seen, ite_self]
    exact ⟨d, by rw [unit, delayed, kept]⟩
  · obtain ⟨d, delayed⟩ := delay u
    have gone : w.cfg.unit u = (s.cfg.unit u).unheard := by
      rw [ended, if_pos (List.mem_range'_1.mpr ⟨low, by omega⟩), RxUnit.enumEnded, if_neg (by simp [unseen])]
    rw [unit, delayed, gone]
    exact ⟨rfl, rfl, RxUnit.state_unheard _⟩
  · rw [broken]
    simp only [unit]

theorem enumCollectEnd_early (s : State) (ds : List (Fin 6 × Nat)) (early : s.cfg.collecting = false ∨ s.elapsed s.cfg.enumAt 100 = false) :
    exec (.enumCollectEnd ds) s = .next s := if_pos (by simpa using early)

/-! IDENT. -/

/-- A unit that has identified itself at a place of the rick (16 R455). -/
def RxUnit.identified (x : RxUnit) (u : Nat) (a b : Fin 8) : RxUnit := { x with
  seen := true, hops0 := a, hops1 := b, position := u
  state := if x.state == .onLine then .onLine else .authenticating }

theorem exec_ident {s : State} {q : DWord} {p : Fin 6} {a b : Fin 8} (started : s.twin.started = true)
    (collects : s.holdsToken = true → s.cfg.collecting = true) : exec (.ident q p a b) s =
      .next (if s.enrolledAt (p.val + 1) q a then
        (if (((s.modUnit (p.val + 1) (fun x => x.identified (p.val + 1) a b)).ringCheck).cfg.unit (p.val + 1)).state = .authenticating then
          (s.modUnit (p.val + 1) (fun x => x.identified (p.val + 1) a b)).ringCheck.rickSend (.auth (p.val + 1))
        else (s.modUnit (p.val + 1) (fun x => x.identified (p.val + 1) a b)).ringCheck)
      else (s.modUnit (p.val + 1) (fun x => x.identified (p.val + 1) a b)).ringCheck.authFail (p.val + 1)) := by
  refine if_neg ?_
  cases token : s.holdsToken with
  | false => simp [started]
  | true => simp [started, collects token]

theorem ident_authenticates (s : State) (q : DWord) (p : Fin 6) (a b : Fin 8) (started : s.twin.started = true)
    (collects : s.holdsToken = true → s.cfg.collecting = true) (enrolled : s.enrolledAt (p.val + 1) q a = true)
    (absent : (s.cfg.unit (p.val + 1)).state = .absent) (gate : s.gateOpen = true) (works : s.mod.failed = false) :
    ∃ t, Changes (.ident q p a b) s t [.cfg] [(.cfg, 8), (.cfg, 9)] ∧
      t.cfg.unit (p.val + 1) = { s.cfg.unit (p.val + 1) with
        seen := true, hops0 := a, hops1 := b, position := p.val + 1, state := .authenticating } ∧
      (∀ u : Nat, u ≠ p.val + 1 → t.cfg.unit u = s.cfg.unit u) ∧ t.cfg.sent = s.cfg.sent ++ [.auth (p.val + 1)] := by
  obtain ⟨v, hv⟩ : ∃ v, v = (s.modUnit (p.val + 1) (fun x => x.identified (p.val + 1) a b)).ringCheck := ⟨_, rfl⟩
  obtain ⟨moves, unit, others, sent, mod, twin⟩ := ident_facts s p a b _ v hv
  have shown : (s.cfg.unit (p.val + 1)).identified (p.val + 1) a b = { s.cfg.unit (p.val + 1) with
      seen := true, hops0 := a, hops1 := b, position := p.val + 1, state := .authenticating } := by
    simp [RxUnit.identified, absent]
  rw [shown] at unit
  have gate' : v.gateOpen = true := by rw [← gate]; simp only [State.gateOpen, twin]
  have send := State.rickSend_open (s := v) (.auth (p.val + 1)) gate' (by rw [mod]; exact works)
  have step := exec_ident (q := q) (p := p) (a := a) (b := b) started collects
  rw [← hv, if_pos enrolled, if_pos (by rw [unit]), send] at step
  refine ⟨_, (moves.trans .set).changes step, unit, others, ?_⟩
  rw [← sent]

/-- A unit that has failed its authentication (16 R457). -/
def RxUnit.failed (x : RxUnit) : RxUnit :=
  { x with state := .authFailed, polled := false, good := [], outs := Tbl.map {} (fun (o : RxOut) => { o with dropped := !o.acked }) x.outs }

theorem State.authFail_facts (s : State) (u : Nat) : Moves s (s.authFail u) [.cfg] [(.cfg, 7)] ∧ (s.authFail u).raised .cfg 7 = true ∧
    (s.authFail u).cfg.unit u = (s.cfg.unit u).failed ∧ (s.authFail u).cfg.sent = s.cfg.sent ∧
    ∀ v : Nat, v ≠ u → (s.authFail u).cfg.unit v = s.cfg.unit v := by
  obtain ⟨w, hw⟩ : ∃ w, w = s.modUnit u RxUnit.failed := ⟨_, rfl⟩
  have shape : s.authFail u = w.setEvent .cfg 7 := by rw [hw]; rfl
  have start : Moves s w [.cfg] [(.cfg, 7)] := by rw [hw]; exact s.moves_modUnit _ _ _
  rw [shape]
  refine ⟨start.setEvent .cfg 7 (by decide) (by simp), State.raised_setEvent w .cfg 7 (by decide), ?_, ?_, fun v other => ?_⟩
  · rw [State.cfg_setEvent, hw, State.unit_modUnit, if_pos rfl]
  · rw [State.cfg_setEvent, hw]
    rfl
  · rw [State.cfg_setEvent, hw, State.unit_modUnit, if_neg other]

theorem ident_unknown (s : State) (q : DWord) (p : Fin 6) (a b : Fin 8) (started : s.twin.started = true)
    (collects : s.holdsToken = true → s.cfg.collecting = true) (unknown : s.enrolledAt (p.val + 1) q a = false) :
    ∃ t, Changes (.ident q p a b) s t [.cfg] [(.cfg, 7), (.cfg, 8), (.cfg, 9)] ∧ t.raised .cfg 7 = true ∧
      (t.cfg.unit (p.val + 1)).state = .authFailed ∧ t.cfg.sent = s.cfg.sent ∧ (∀ u : Nat, u ≠ p.val + 1 → t.cfg.unit u = s.cfg.unit u) := by
  obtain ⟨v, hv⟩ : ∃ v, v = (s.modUnit (p.val + 1) (fun x => x.identified (p.val + 1) a b)).ringCheck := ⟨_, rfl⟩
  obtain ⟨moves, unit, others, sent, -, -⟩ := ident_facts s p a b _ v hv
  obtain ⟨fails, raised, failed, sent', others'⟩ := v.authFail_facts (p.val + 1)
  have step := exec_ident (q := q) (p := p) (a := a) (b := b) started collects
  rw [← hv, if_neg (by simp [unknown])] at step
  exact ⟨_, (moves.stay.trans fails.stay).changes step, raised, by rw [failed]; rfl, sent'.trans sent, fun u other => (others' u other).trans (others u other)⟩

theorem ident_late (s : State) (q : DWord) (p : Fin 6) (a b : Fin 8) (token : s.holdsToken = true) (done : s.cfg.collecting = false) :
    exec (.ident q p a b) s = .next s := if_pos (by simp [token, done])

/-! RX_AUTH. -/

/-- A unit that has come ON_LINE with a session key (16 R456). -/
def RxUnit.joined (x : RxUnit) (now : Nat) (key : BitVec 256) : RxUnit := { x with
  state := .onLine, failRun := 0, polled := false, answered := false, since := now, good := [], outs := [], key := key, ctr := 0#64 }

theorem rxAuth_joins (s : State) (u : Fin 6) (m x : BitVec 128) (authenticates : (s.cfg.unit (u.val + 1)).state = .authenticating)
    (enrolled : s.cfg.enrolled (u.val + 1) = true) :
    ∃ t, Changes (.rxAuth u true m x) s t [.cyc, .cfg] [(.cyc, 3)] ∧ t.raised .cyc 3 = true ∧ (t.cfg.unit (u.val + 1)).state = .onLine ∧
      (t.cfg.unit (u.val + 1)).failRun = 0 ∧ (t.cfg.unit (u.val + 1)).since = s.nowNs ∧ (t.cfg.unit (u.val + 1)).good = [] ∧
      (t.cfg.unit (u.val + 1)).key = s.unitKey (u.val + 1) m x ∧ (t.cfg.unit (u.val + 1)).ctr = 0#64 ∧
      ∀ v : Nat, v ≠ u.val + 1 → t.cfg.unit v = s.cfg.unit v := by
  obtain ⟨v, hv⟩ : ∃ v, v = s.modUnit (u.val + 1) (fun y => y.joined s.nowNs (s.unitKey (u.val + 1) m x)) := ⟨_, rfl⟩
  obtain ⟨w, hw⟩ : ∃ w : State, w = { v with cyc := { v.cyc with
    tasks := Tbl.map {} (fun t => { t with back := t.back ||| 2 ^ (u.val + 1) }) v.cyc.tasks } } := ⟨_, rfl⟩
  have step : exec (.rxAuth u true m x) s = .next (w.recordEvent .cyc 3 (u.val + 1) (w.cfgReg false (0x100 + 16 * (u.val + 1)))) := by
    rw [hw, hv]
    exact if_neg (by simp [authenticates, enrolled])
  have first : Moves s v [.cfg] [] := by rw [hv]; exact s.moves_modUnit _ _ _
  have second : Moves v w [.cyc] [] := by rw [hw]; exact .set
  have unit : ∀ n, (w.recordEvent .cyc 3 (u.val + 1) (w.cfgReg false (0x100 + 16 * (u.val + 1)))).cfg.unit n =
      if n = u.val + 1 then (s.cfg.unit (u.val + 1)).joined s.nowNs (s.unitKey (u.val + 1) m x) else s.cfg.unit n := fun n => by
    rw [State.cfg_recordEvent, hw]
    change v.cfg.unit n = _
    rw [hv, State.unit_modUnit]
  refine ⟨_, ((first.stay.trans second.stay).recordEvent .cyc 3 _ _ (by decide) (by simp)).changes step, State.raised_recordEvent w .cyc 3 _ _ (by decide), ?_⟩
  simp only [unit, if_true]
  exact ⟨rfl, rfl, rfl, rfl, rfl, rfl, fun n other => if_neg other⟩

theorem rxAuth_fails (s : State) (u : Fin 6) (m x : BitVec 128)
    (known : (s.cfg.unit (u.val + 1)).state = .authenticating ∨ (s.cfg.unit (u.val + 1)).state = .onLine) :
    ∃ t, Changes (.rxAuth u false m x) s t [.cfg] [(.cfg, 7)] ∧ t.raised .cfg 7 = true ∧ (t.cfg.unit (u.val + 1)).state = .authFailed ∧
      (t.cfg.unit (u.val + 1)).good = [] ∧ ∀ v : Nat, v ≠ u.val + 1 → t.cfg.unit v = s.cfg.unit v := by
  have step : exec (.rxAuth u false m x) s = .next (s.authFail (u.val + 1)) :=
    congrArg Host.Outcome.next (if_pos known)
  obtain ⟨moves, raised, failed, -, others⟩ := s.authFail_facts (u.val + 1)
  exact ⟨_, moves.changes step, raised, by rw [failed]; rfl, by rw [failed]; rfl, others⟩

/-! RICK_FORMED. -/

/-- The units that answered the enumeration. -/
def State.answering (s : State) : List RxUnit := ((List.range' 1 6).map s.cfg.unit).filter RxUnit.seen

theorem State.mem_answering {s : State} {x : RxUnit} (mem : x ∈ s.answering) : ∃ u, s.cfg.unit u = x ∧ x.seen = true := by
  obtain ⟨inside, seen⟩ := List.mem_filter.mp mem
  obtain ⟨u, -, unit⟩ := List.mem_map.mp inside
  exact ⟨u, unit, seen⟩

/-- The judgement of a rick that is not formed and in which no handshake runs (16 R457). -/
theorem exec_rickFormed {s : State} (done : s.cfg.collecting = false) (may : s.enumerates = true) (unformed : s.cfg.rick ≠ .formed)
    (quiet : s.answering.any (fun x => x.state == .authenticating) = false) : exec .rickFormed s =
      if s.answering.any (fun x => x.state == .authFailed) then
        .next (State.setEvent { s with cfg := { s.cfg with rick := .refused, phase := if s.cfg.phase = .rick then .time else s.cfg.phase } } .cfg 6)
      else .next (State.setEvent { s with cfg := { s.cfg with rick := .formed, phase := if s.cfg.phase = .rick then .time else s.cfg.phase } } .cfg 5) := by
  refine (if_neg ?_).trans (if_neg unformed)
  change ¬((s.cfg.collecting || s.answering.any (fun x => x.state == .authenticating) || !s.enumerates && s.cfg.phase == .rick) = true)
  rw [quiet, done, may]
  simp

theorem rickFormed_forms (s : State) (done : s.cfg.collecting = false) (may : s.enumerates = true) (unformed : s.cfg.rick ≠ .formed)
    (onLine : ∀ u : Nat, (s.cfg.unit u).seen = true → (s.cfg.unit u).state = .onLine) :
    RunsTo .rickFormed s { s with cfg := { s.cfg with rick := .formed, phase := if s.cfg.phase = .rick then .time else s.cfg.phase } } [(.cfg, 5)] := by
  have all : ∀ x ∈ s.answering, x.state = .onLine := fun x mem => by
    obtain ⟨u, rfl, seen⟩ := State.mem_answering mem
    exact onLine u seen
  have quiet : s.answering.any (fun x => x.state == .authenticating) = false := List.any_eq_false.mpr (fun x mem => by simp [all x mem])
  have good : s.answering.any (fun x => x.state == .authFailed) = false := List.any_eq_false.mpr (fun x mem => by simp [all x mem])
  exact .setEvent ((exec_rickFormed done may unformed quiet).trans (if_neg (by simp [good]))) rfl (by decide)

theorem rickFormed_refuses (s : State) (u : Fin 6) (done : s.cfg.collecting = false) (may : s.enumerates = true) (unformed : s.cfg.rick ≠ .formed)
    (settled : ∀ v : Nat, (s.cfg.unit v).seen = true → (s.cfg.unit v).state ≠ .authenticating) (seen : (s.cfg.unit (u.val + 1)).seen = true)
    (failed : (s.cfg.unit (u.val + 1)).state = .authFailed) :
    RunsTo .rickFormed s { s with cfg := { s.cfg with rick := .refused, phase := if s.cfg.phase = .rick then .time else s.cfg.phase } } [(.cfg, 6)] := by
  have quiet : s.answering.any (fun x => x.state == .authenticating) = false := List.any_eq_false.mpr (fun x mem => by
    obtain ⟨v, rfl, answered⟩ := State.mem_answering mem
    simpa using settled v answered)
  have bad : s.answering.any (fun x => x.state == .authFailed) = true := by
    have inside : u.val + 1 ∈ List.range' 1 6 := List.mem_range'_1.mpr ⟨by omega, by omega⟩
    have member : s.cfg.unit (u.val + 1) ∈ s.answering := List.mem_filter.mpr ⟨List.mem_map_of_mem inside, seen⟩
    exact List.any_eq_true.mpr ⟨_, member, by simp [failed]⟩
  exact .setEvent ((exec_rickFormed done may unformed quiet).trans (if_pos bad)) rfl (by decide)

/-- Settles O59: enumeration, IDENT, authentication and the forming of the rick, a lemma for each clause. -/
theorem rickEnumeration : Obligations.RickEnumeration :=
  ⟨enumerate_starts, enumerate_refused, enumerate_early, enumCollectEnd_ends, enumCollectEnd_early, ident_authenticates, ident_unknown, ident_late,
    rxAuth_joins, rxAuth_fails, rickFormed_forms, rickFormed_refuses⟩

end Sys2Proof.Machine
